-- ==== Sys2Proof/Word.lean ====
section
/-!
DEFINITION. The word and byte types of the register map and of frames, and the plainest reads and writes of their fields
(R5: bit 0 is the least significant bit; R397: every register is 32 bits wide).
-/
namespace Sys2Proof

/-- A register of BAR0 (R397). -/
abbrev Word := BitVec 32

/-- A byte of a frame, a message or a memory structure. -/
abbrev Byte := BitVec 8

end Sys2Proof
end

