-- ==== Sys2Proof/Syntax.lean ====
section
/-!
DEFINITION. The commands of the block: one constructor of `Instr` per row of spec/opcode_table.json. The table gives a row
neither bits nor operands; the operands are the model's own choice (notes/assumptions/1.md) and are what the rule of the row
names: a port, a queue, a register's value, the bytes that arrive. Every command carries `dt`, the time since the previous
command in units of 1/60 ns (notes/assumptions/2.md).
-/
namespace Sys2Proof

/-- The initiators of the register bus (R397). -/
inductive Initiator where
  | pcie
  | i2c
  | loupe
  deriving DecidableEq, Repr

/-- The two heartbeat paths of a twin (R341). -/
inductive Path where
  | pin
  | crf
  deriving DecidableEq, Repr

/-- Who asks the cell pool manager for a cell (R252, R255): the reception of a port, a host TX ring, or Anvil. -/
inductive CellReq where
  | rxPort (p : Nat)
  | host (ring : Nat)
  | anvil
  deriving DecidableEq, Repr

/-- The words TC0 to TC7 of a table command, less the OP field, which the row gives (R177). -/
structure TblArgs where
  table : Nat
  bcast : Bool
  plane : Nat
  tag   : Nat
  w1 : Word
  w2 : Word
  w3 : Word
  w4 : Word
  w5 : Word
  w6 : Word
  w7 : Word
  deriving DecidableEq, Repr

/-- What the PCS and the FEC of a line have counted since the port's previous `FRAME_RX_END` (R57): errored blocks, corrected and uncorrectable codewords,
corrected symbols. -/
structure LineErrs where
  blocks      : Nat
  corrected   : Nat
  uncorrected : Nat
  symbols     : Nat
  deriving DecidableEq, Repr

/-- What link training has reached on one active lane (R36): whether the device, as initiator, has its receiver trained on it, whether the partner reports
ready, and the taps (pre, main, post) that the partner's coefficient requests have asked of this lane's transmitter. -/
structure LtLane where
  own     : Bool
  partner : Bool
  pre     : Nat
  main    : Nat
  post    : Nat
  deriving DecidableEq, Repr

/-- A report of link training (R36): the port, and what its active lanes have reached, by PCS lane. -/
structure LtReport where
  port  : Nat
  lanes : List LtLane
  deriving DecidableEq, Repr

/-- A read of the host interface that fails (R364): the ring, and, where it is what an entry names that cannot be read, the entry's words (else none). -/
structure ReadErr where
  ring  : Nat
  words : List Word
  deriving DecidableEq, Repr

/-- What the device sees of the flash in an `IMAGE_LOAD` of MODE FLASH (R445): the `SEQ` of each slot as it reads it, and whether what it has written reads
back. -/
structure FlashSeen where
  seq0       : Nat
  seq1       : Nat
  readBackOk : Bool
  deriving DecidableEq, Repr

/-- The commands. -/
inductive Instr where
  /-- `PORT_ENABLE` (R74). Software sets PT_CTRL.ENABLE from 0 to 1. The port's receiver, transmitter and defects restart afresh. -/
  | portEnable (dt : Nat) (p : Nat)
  /-- `PORT_DISABLE` (R54). Software clears PT_CTRL.ENABLE. The port stops receiving further frames and goes to DRAINING. -/
  | portDisable (dt : Nat) (p : Nat)
  /-- `PORT_DRAINED` (R54). The frames in reception and transmission complete. The transmitters idle, LINK falls and EN_STATE goes to IDLE. -/
  | portDrained (dt : Nat) (p : Nat)
  /-- `AN_RESTART` (R34). A write of 1 to PT_CTRL.AN_RESTART restarts 1000BASE-X auto-negotiation. -/
  | anRestart (dt : Nat) (p : Nat)
  /-- `AN_DONE` (R34). Auto-negotiation completes and AN_DONE is raised. -/
  | anDone (dt : Nat) (p : Nat) (ok : Bool)
  /-- `RETRAIN` (R37). A write of 1 to PT_CTRL.RETRAIN restarts link training at once, including during a retry delay. -/
  | retrain (dt : Nat) (p : Nat)
  /-- `LT_DONE` (R36). Every active lane reports ready in both directions, and training succeeds. -/
  | ltDone (dt : Nat) (rep : LtReport)
  /-- `LT_FAIL` (R37). Training has not succeeded within PT_LT_CTRL.TIMEOUT. LT_STATE goes to FAILED and LT_FAIL is raised. -/
  | ltFail (dt : Nat) (p : Nat)
  /-- `RETRY_DELAY` (R37). The retry delay expires and the port trains again. -/
  | retryDelay (dt : Nat) (p : Nat)
  /-- `LPI_ENTRY` (R40). The transmitter enters LPI after its queues have been empty for IDLE_US, or at a Doze request. -/
  | lpiEntry (dt : Nat) (p : Nat)
  /-- `LPI_WAKE_DONE` (R40). TW_NS elapses after LPI exit, and the held frame starts. -/
  | lpiWakeDone (dt : Nat) (p : Nat)
  /-- `LPI_RX` (R40). The link partner enters or leaves LPI. The link stays up. -/
  | lpiRx (dt : Nat) (p : Nat) (enter : Bool)
  /-- `PAUSE_RX` (R44). A received PAUSE frame with a good FCS stops the trunk port for its pause time, replacing any time remaining. -/
  | pauseRx (dt : Nat) (p : Nat) (quanta : Nat)
  /-- `PFC_RX` (R45). A received PFC frame stops the mapped classes for each enabled priority's time. -/
  | pfcRx (dt : Nat) (p : Nat) (enables : Nat) (quanta : List Nat)
  /-- `PAUSE_EXPIRE` (R44). A PAUSE or PFC stop time runs out and the port or class resumes. -/
  | pauseExpire (dt : Nat) (p : Nat)
  /-- `PAUSE_WD` (R48). The pause watchdog expires. It ends every stop on the port, and PAUSE and PFC frames are ignored until software clears PAUSE_WD. -/
  | pauseWd (dt : Nat) (p : Nat)
  /-- `LINK_UP` (R52). The candidate-up state has held for the UP debounce, and LINK rises. -/
  | linkUp (dt : Nat) (p : Nat) (rxVar : Nat)
  /-- `LINK_DOWN` (R52). The candidate state has been lost for the DOWN debounce, and LINK falls. -/
  | linkDown (dt : Nat) (p : Nat)
  /-- `HOLD_EXPIRE` (R238). The elapsed time reaches HOLD_MS with the port still down. The queued frames are doomed and the state goes to FLUSH. -/
  | holdExpire (dt : Nat) (p : Nat)
  /-- `FRAME_RX_END` (R49). A frame's last byte is received. R49 classifies it and admits or discards it, and the cells of a discarded frame are freed. -/
  | frameRxEnd (dt : Nat) (p : Nat) (bytes : List Byte) (cut : Bool) (errs : LineErrs)
  /-- `INGRESS_LOOKUP` (R160). An admitted frame is parsed, looked up in its plane's tables and in Filigree, and policed in stages 3–5. -/
  | ingressLookup (dt : Nat) (f : Nat)
  /-- `STAGE6_ADMIT` (R200). A frame, or a copy of it, is tested at stage 6 and enqueued or refused. -/
  | stage6Admit (dt : Nat) (f : Nat) (lane : Nat)
  /-- `ARBITER_CYCLE` (R216). The arbiter matches inputs to egress pipelines and passes head descriptors across the crossbar. -/
  | arbiterCycle (dt : Nat)
  /-- `EGRESS_REPLICATE` (R210). An egress pipeline replicates a multicast descriptor to the ports of its group, and tests each copy. -/
  | egressReplicate (dt : Nat) (e : Nat)
  /-- `LIST_MANAGER_CYCLE` (R226). In FOUNDRY, the list manager reads one cell and passes descriptors to the egress pipelines. -/
  | listManagerCycle (dt : Nat)
  /-- `SELECT_FRAME` (R275). A port's selection engine walks the hierarchy to a leaf and deducts the shapers and deficits on the path. -/
  | selectFrame (dt : Nat) (p : Nat)
  /-- `DOOMED_DISCARD` (R239). A doomed frame reaches the head of its egress queue and is discarded without transmission. -/
  | doomedDiscard (dt : Nat) (q : Nat)
  /-- `LAUNCH_FAR` (R316). A frame whose launch time lies more than MAX_S ahead reaches its queue head and is discarded. -/
  | launchFar (dt : Nat) (q : Nat)
  /-- `GATE_OVERSIZE` (R320). A head frame too long for every gate window of its class is discarded. -/
  | gateOversize (dt : Nat) (q : Nat)
  /-- `LAUNCH_TIME_REACHED` (R317). The counter reaches the launch time T, and the MAC starts the held frame. -/
  | launchTimeReached (dt : Nat) (p : Nat)
  /-- `TX_LAST_BYTE` (R212). The last byte of a frame crosses the MAC. The frame is counted and its reference is released. -/
  | txLastByte (dt : Nat) (p : Nat)
  /-- `BUCKET_REFILL` (R280). A periodic refill raises a shaper's level, which may make its node eligible. -/
  | bucketRefill (dt : Nat) (kind : Nat) (index : Nat)
  /-- `CELL_ALLOC` (R254). A requester asks one pool for one cell, and the pool grants or refuses it in the same cycle. -/
  | cellAlloc (dt : Nat) (req : CellReq)
  /-- `CELL_RELEASE` (R258). A release with a claimed owner starts walking its chain of cells. -/
  | cellRelease (dt : Nat) (owner : Nat) (first : Nat) (n : Nat)
  /-- `CELL_RELEASE_DONE` (R258). The chain walk completes, and the freed cells become available from the next cycle. -/
  | cellReleaseDone (dt : Nat)
  /-- `CELL_QUERY` (R265). A CB_CELL_CMD QUERY returns the cell's state, owner, pool and link. -/
  | cellQuery (dt : Nat) (cell : Nat)
  /-- `CELL_CMD_ALLOC` (R265). A CB_CELL_CMD ALLOC requests one cell as owner 0x3E. -/
  | cellCmdAlloc (dt : Nat) (pool : Nat)
  /-- `CELL_FREE` (R265). A CB_CELL_CMD FREE releases a cell with claim 0x3E. -/
  | cellFree (dt : Nat) (cell : Nat)
  /-- `CELL_RECLAIM` (R265). A CB_CELL_CMD RECLAIM frees a USED cell whatever its owner. -/
  | cellReclaim (dt : Nat) (cell : Nat)
  /-- `POOL_WM_RESET` (R266). A write of CB_POOL_WM.RESET sets MIN_FREE to the current FREE. -/
  | poolWmReset (dt : Nat) (n : Nat)
  /-- `PM_ERR_POP` (R262). A write of CB_PM_ERR_POP.POP discards the oldest error record. -/
  | pmErrPop (dt : Nat)
  /-- `WRED_SEED_WRITE` (R205). A write of CB_WRED_SEED loads the pipeline's LFSR. -/
  | wredSeedWrite (dt : Nat) (i : Nat) (seed : Nat)
  /-- `QUEUE_DISABLE` (R241). Clearing CB_QCFG.EN stops admission to the queue and sets it DRAINING. -/
  | queueDisable (dt : Nat) (q : Nat)
  /-- `QUEUE_DRAINED` (R201). A DRAINING queue empties and goes to IDLE. -/
  | queueDrained (dt : Nat) (q : Nat)
  /-- `MIRROR_SESSION_DISABLE` (R241). Clearing FB_MIRROR_CTRL.EN stops new copies of the session. -/
  | mirrorSessionDisable (dt : Nat) (n : Nat)
  /-- `MIRROR_SESSION_DRAINED` (R241). The session's last copy completes and its status goes to IDLE. -/
  | mirrorSessionDrained (dt : Nat) (n : Nat)
  /-- `MODE_REQ` (R228). A write of FB_MODE_CTRL.MODE_REQ raises or removes the reason SW. -/
  | modeReq (dt : Nat) (v : Bool)
  /-- `RECAL` (R232). A write of FB_MODE_CTRL.RECAL clears CAL_FAIL and starts an arbiter calibration. -/
  | recal (dt : Nat)
  /-- `CAL_COMPLETE` (R232). An arbiter calibration succeeds, or fails and sets CAL_FAIL. -/
  | calComplete (dt : Nat) (ok : Bool)
  /-- `FENCE_LIFT_INWARD` (R230). All VOQs of a port empty, and its inward fence lifts. -/
  | fenceLiftInward (dt : Nat) (q : Nat)
  /-- `FOUNDRY_REACHED` (R229). All VOQs of the device empty. The arbiter stops and the state goes to FOUNDRY. -/
  | foundryReached (dt : Nat)
  /-- `FENCE_LIFT_OUTWARD` (R230). All Foundry lists of a port empty, and its outward fence lifts. -/
  | fenceLiftOutward (dt : Nat) (q : Nat)
  /-- `VOQ_REACHED` (R229). All Foundry lists empty and the state goes to VOQ. -/
  | voqReached (dt : Nat)
  /-- `MEM_RELOAD_APPLY` (R234). The affected banks hold no cell in use. The new partition is applied and MEM clears. -/
  | memReloadApply (dt : Nat)
  /-- `BANK_TEST` (R235). A write of FB_MODE_CTRL.TEST raises the reason TEST and starts the bank test. -/
  | bankTest (dt : Nat)
  /-- `BANK_TEST_BANK_START` (R235). A bank under test has no cell left in use, and its test begins. -/
  | bankTestBankStart (dt : Nat) (b : Nat)
  /-- `BANK_TEST_BANK_DONE` (R235). A bank's 0.5 ms test ends. A passing bank returns to allocation and a failing bank sets FB_TEST_FAIL. The last bank raises TEST_DONE. -/
  | bankTestBankDone (dt : Nat) (b : Nat) (pass : Bool)
  /-- `BANK_TEST_SKIP` (R235). A bank's cells stay in use for 100 ms, and the bank is skipped. -/
  | bankTestSkip (dt : Nat) (b : Nat)
  /-- `FG_READ` (R135). An LP_FG_CMD READ returns a Filigree entry to the staging registers. -/
  | fgRead (dt : Nat) (ini : Initiator) (k : Nat) (index : Nat) (bcast : Bool)
  /-- `FG_WRITE` (R135). An LP_FG_CMD WRITE loads an entry and sets it valid. -/
  | fgWrite (dt : Nat) (ini : Initiator) (k : Nat) (index : Nat) (bcast : Bool)
  /-- `FG_INVALIDATE` (R135). An LP_FG_CMD INVALIDATE clears an entry's valid bit. -/
  | fgInvalidate (dt : Nat) (ini : Initiator) (k : Nat) (index : Nat) (bcast : Bool)
  /-- `PATTERN_READ` (R147). An LP_PM_CMD READ returns a payload pattern. -/
  | patternRead (dt : Nat) (ini : Initiator) (k : Nat) (index : Nat) (bcast : Bool)
  /-- `PATTERN_WRITE` (R147). An LP_PM_CMD WRITE loads a payload pattern. -/
  | patternWrite (dt : Nat) (ini : Initiator) (k : Nat) (index : Nat) (bcast : Bool)
  /-- `PATTERN_INVALIDATE` (R147). An LP_PM_CMD INVALIDATE clears a pattern's valid bit. -/
  | patternInvalidate (dt : Nat) (ini : Initiator) (k : Nat) (index : Nat) (bcast : Bool)
  /-- `INSERT` (R178). A table command INSERT writes a MAC entry or an indexed entry. -/
  | tblInsert (dt : Nat) (ini : Initiator) (k : Nat) (args : TblArgs)
  /-- `DELETE` (R178). A table command DELETE removes a MAC key or resets an indexed entry. -/
  | tblDelete (dt : Nat) (ini : Initiator) (k : Nat) (args : TblArgs)
  /-- `SEARCH` (R178). A table command SEARCH returns an entry. -/
  | tblSearch (dt : Nat) (ini : Initiator) (k : Nat) (args : TblArgs)
  /-- `NEXT` (R180). A table command NEXT scans from the cursor for the next qualifying entry. -/
  | tblNext (dt : Nat) (ini : Initiator) (k : Nat) (args : TblArgs)
  /-- `FLUSH_BY_PORT` (R181). A table command FLUSH_BY_PORT deletes the qualifying MAC entries for a DEST. -/
  | flushByPort (dt : Nat) (ini : Initiator) (k : Nat) (args : TblArgs)
  /-- `FLUSH_ALL` (R181). A table command FLUSH_ALL deletes every qualifying MAC entry. -/
  | flushAll (dt : Nat) (ini : Initiator) (k : Nat) (args : TblArgs)
  /-- `LEARN_SERVE` (R172). A queued learn request is served when a token is available, and inserts a dynamic entry. -/
  | learnServe (dt : Nat) (k : Nat)
  /-- `LEARN_RATE_WRITE` (R172). A write of LP_LEARN_RATE clips the tokens to the new BURST, and tokens accrue at the new RATE. -/
  | learnRateWrite (dt : Nat) (k : Nat) (v : Word)
  /-- `AGING_SWEEP` (R173). The PERIOD timer starts a sweep that ages or deletes the dynamic MAC entries. -/
  | agingSweep (dt : Nat) (k : Nat)
  /-- `AGE_PERIOD_WRITE` (R173). A write of LP_AGE_CTRL.PERIOD takes effect at once and restarts the sweep timing. -/
  | agePeriodWrite (dt : Nat) (k : Nat) (v : Word)
  /-- `CRF_FRAME_TX` (R60). The CRF transmitter sends the next 8,192-byte frame with its FAS, overhead and payload. -/
  | crfFrameTx (dt : Nat) (p : Nat)
  /-- `HMC_SEND` (R84). A write of LF_HMC_TX_CTRL with GO = 1 queues the host message for the next superframe. -/
  | hmcSend (dt : Nat) (p : Nat) (len : Nat)
  /-- `FORCE_AIS_WRITE` (R70). A write of LF_CTRL.FORCE_AIS starts or stops AIS, and the port is treated as down while AIS is forced. -/
  | forceAisWrite (dt : Nat) (p : Nat) (v : Bool)
  /-- `CRF_BLOCK_RX` (R72). A received 8-byte block is tested against the FAS under the alignment state machine. -/
  | crfBlockRx (dt : Nat) (p : Nat) (block : List Byte)
  /-- `DLOS_DETECT` (R89). dLOS is detected within 1 µs of a loss condition. -/
  | dlosDetect (dt : Nat) (p : Nat) (cause : Nat)
  /-- `DLOS_CLEAR` (R89). No loss condition has held for 1 ms, and dLOS clears. -/
  | dlosClear (dt : Nat) (p : Nat)
  /-- `DLOF_DETECT` (R89). The receiver has not been in SYNC for 3 ms, and dLOF is declared. -/
  | dlofDetect (dt : Nat) (p : Nat)
  /-- `DLOF_CLEAR` (R89). The receiver has been in SYNC for 3 ms, and dLOF clears. -/
  | dlofClear (dt : Nat) (p : Nat)
  /-- `DLOM_DETECT` (R89). MF_LOCK has been 0 in SYNC for 3 ms, and dLOM is declared. -/
  | dlomDetect (dt : Nat) (p : Nat)
  /-- `DLOM_CLEAR` (R89). MF_LOCK has been 1 for 3 ms, and dLOM clears. -/
  | dlomClear (dt : Nat) (p : Nat)
  /-- `FAILURE_DECLARE` (R93). A defect has been present and unmasked for SET, and its failure is declared. -/
  | failureDeclare (dt : Nat) (p : Nat) (d : Nat)
  /-- `FAILURE_CLEAR` (R93). A defect has been absent or masked for CLEAR, and its failure clears. -/
  | failureClear (dt : Nat) (p : Nat) (d : Nat)
  /-- `CRF_LINK_UP` (R95). No port-down defect has been present for UP_HOLD, and LINK rises. -/
  | crfLinkUp (dt : Nat) (p : Nat) (rxVar : Nat)
  /-- `PM_SECOND_GRADE` (R96). Anvil's TASK 0x02 service grades a port's ended second and counts it in its bin. -/
  | pmSecondGrade (dt : Nat) (p : Nat)
  /-- `SECOND_FINAL` (R105). A second becomes final 10 s after it ends. -/
  | secondFinal (dt : Nat) (p : Nat)
  /-- `BIN_END` (R107). A 15-minute or 24-hour bin ends and shifts to the past bins with OPEN at 1. -/
  | binEnd (dt : Nat) (p : Nat)
  /-- `BIN_CLOSE` (R105). A bin closes 10 s after its last second, and its contents are fixed. -/
  | binClose (dt : Nat) (p : Nat)
  /-- `PM_SNAPSHOT` (R111). A write of LF_PM_SEL.BIN copies that bin into LF_PM_WIN. -/
  | pmSnapshot (dt : Nat) (p : Nat) (bin : Nat)
  /-- `OH_SLOT_FORM` (R435). Anvil's TASK 0x01 service forms a CRF port's overhead-channel slots due within 100 µs. -/
  | ohSlotForm (dt : Nat) (p : Nat)
  /-- `TWIN_TASK` (R434). Anvil's TASK 0x04 service forms the twin's heartbeat, lease and mirror frames. -/
  | twinTask (dt : Nat)
  /-- `MEP_ENABLE` (R114). Setting AV_MEP.EN makes the MEP active if its key is unique. -/
  | mepEnable (dt : Nat) (m : Nat)
  /-- `MEP_DISABLE` (R114). Clearing AV_MEP.EN stops new CCMs and clears the MEP's defects and timers. -/
  | mepDisable (dt : Nat) (m : Nat)
  /-- `CCM_SERVICE` (R115). Anvil's TASK 0x03 service forms the due CCMs of a group of 16 MEPs. -/
  | ccmService (dt : Nat) (a : Nat)
  /-- `CCM_EXAMINE` (R116). Anvil examines a consumed CCM and raises its events. -/
  | ccmExamine (dt : Nat) (m : Nat)
  /-- `LOC` (R117). No valid CCM has arrived for T, and LOC is set. -/
  | mepLoc (dt : Nat) (m : Nat)
  /-- `MEP_DEFECT_CLEAR` (R117). No event of a defect has occurred for T, and the defect clears. -/
  | mepDefectClear (dt : Nat) (m : Nat) (d : Nat)
  /-- `CAL_RELOAD_APPLY` (R447). A reloaded CAL replaces the calendar at the start of the next turn. -/
  | calReloadApply (dt : Nat)
  /-- `LEVEL_ZERO` (R283). A PL_LEVEL_CMD ZERO sets a bucket's level to 0. -/
  | levelZero (dt : Nat) (ini : Initiator) (kind : Nat) (index : Nat)
  /-- `LEVEL_FULL` (R283). A PL_LEVEL_CMD FULL sets a bucket's level to its burst. -/
  | levelFull (dt : Nat) (ini : Initiator) (kind : Nat) (index : Nat)
  /-- `SOJ_WM_READ` (R289). A read of PL_SOJ_WM returns the sojourn watermark and clears it. -/
  | sojWmRead (dt : Nat) (ini : Initiator) (q : Nat) (be : Nat)
  /-- `SAMPLE_POST` (R290). Every PERIOD × 8 ns, the sampler posts one queue record to its ring. -/
  | samplePost (dt : Nat)
  /-- `ADDEND_WRITE` (R297). A write of the high word of HM_ADDEND applies the addend at the next tick. -/
  | addendWrite (dt : Nat) (v : BitVec 40)
  /-- `TIME_SET` (R298). An HM_SET_CTRL SET loads HM_SET into the counter as a step. -/
  | timeSet (dt : Nat) (sec : Nat) (ns : Nat) (frac : Nat)
  /-- `TIME_ADD` (R298). An HM_SET_CTRL ADD adds HM_SET to the counter as a step. -/
  | timeAdd (dt : Nat) (sec : Nat) (ns : Nat) (frac : Nat)
  /-- `TIME_SUB` (R298). An HM_SET_CTRL SUB subtracts HM_SET from the counter as a step. -/
  | timeSub (dt : Nat) (sec : Nat) (ns : Nat) (frac : Nat)
  /-- `COUNTER_BROADCAST` (R300). At each seconds carry the main counter is broadcast, and every copy is realigned to it. -/
  | counterBroadcast (dt : Nat)
  /-- `SW_OFFSET_SAMPLE` (R304). A write of word 1 of HM_SW_OFFSET submits one software servo sample. -/
  | swOffsetSample (dt : Nat) (ns : BitVec 32) (frac : Nat)
  /-- `CRF_SAMPLE` (R304). Anvil completes the mean of 2^AVG CRF offsets as one servo sample. -/
  | crfSample (dt : Nat)
  /-- `PPS_IN_EDGE` (R304). A captured rising edge on PPS_IN gives a servo sample. -/
  | ppsInEdge (dt : Nat)
  /-- `SERVO_ENABLE` (R303). Setting HM_SERVO_CTRL.EN moves the servo from FREERUN to ACQUIRE. -/
  | servoEnable (dt : Nat)
  /-- `SERVO_DISABLE` (R303). Clearing EN returns the servo to FREERUN with HM_ADDEND active. -/
  | servoDisable (dt : Nat)
  /-- `SRC_LOST` (R303). No sample arrives for TIMEOUT, and the servo goes to HOLDOVER. -/
  | srcLost (dt : Nat)
  /-- `SERVO_SRC_WRITE` (R303). A write of SRC or CRF_PORT puts the servo in HOLDOVER. -/
  | servoSrcWrite (dt : Nat) (src : Nat) (crfPort : Nat)
  /-- `PPS_OUT_RISE` (R312). The counter reaches s + HM_PPS_OUT_OFS, and PPS_OUT rises. -/
  | ppsOutRise (dt : Nat)
  /-- `PPS_OUT_FALL` (R312). OUT_WIDTH elapses, and PPS_OUT falls. -/
  | ppsOutFall (dt : Nat)
  /-- `TOD_TX` (R313). TOD_TX sends the second's 16-byte ToD message. -/
  | todTx (dt : Nat)
  /-- `TOD_RX` (R314). A ToD message received on TOD_RX is checked and copied, or counted as an error. -/
  | todRx (dt : Nat) (msg : List Byte) (gap : Bool)
  /-- `EVT_ARM` (R315). A write of ARM schedules an event-pin pulse, or raises EVT_MISS. -/
  | evtArm (dt : Nat) (i : Nat)
  /-- `EVT_PULSE` (R315). The counter reaches an event pin's edge instant, and the pulse starts. -/
  | evtPulse (dt : Nat) (i : Nat)
  /-- `EVT_PULSE_END` (R315). WIDTH elapses, and the event-pin pulse ends. -/
  | evtPulseEnd (dt : Nat) (i : Nat)
  /-- `EVT_CAPTURE` (R315). A selected edge on an input event pin is captured into its FIFO, or lost. -/
  | evtCapture (dt : Nat) (i : Nat) (rising : Bool)
  /-- `EVT_CAP_POP` (R315). A write of HM_EVT_CAP_STAT.POP discards the oldest capture. -/
  | evtCapPop (dt : Nat) (i : Nat)
  /-- `EVT_MODE_WRITE` (R315). A write of MODE ends the event pin's pulse train. -/
  | evtModeWrite (dt : Nat) (i : Nat) (v : Word)
  /-- `GATE_EDGE` (R319). A gate calendar moves to its next entry or cycle, and gates open or close. -/
  | gateEdge (dt : Nat) (q : Nat)
  /-- `GATE_CALENDAR_SWITCH` (R321). The first cycle start of the new calendar settings is reached, and the new calendar runs from entry 0. -/
  | gateCalendarSwitch (dt : Nat) (q : Nat)
  /-- `TIMED_ARM` (R322). A write of ARM arms a timed-commit slot. -/
  | timedArm (dt : Nat) (ini : Initiator) (n : Nat) (lateFire : Bool)
  /-- `TIMED_CANCEL` (R322). A write of CANCEL disarms an armed slot and sets it CANCELLED. -/
  | timedCancel (dt : Nat) (ini : Initiator) (n : Nat)
  /-- `TCOMMIT_FIRED` (R323). The counter reaches TIME, and the slot commits its groups. -/
  | tcommitFired (dt : Nat)
  /-- `COMMIT` (R415). A write of a non-zero mask to CM_COMMIT commits the named groups at the next CD01 tick. -/
  | commit (dt : Nat) (ini : Initiator) (mask : Word)
  /-- `REVERT` (R413). A write to CM_REVERT copies the active copies back to the shadows. -/
  | revert (dt : Nat) (ini : Initiator) (mask : Word)
  /-- `TWIN_ENABLE` (R348). Setting TW_CFG.EN moves the lease state to LEARN or STANDBY. -/
  | twinEnable (dt : Nat)
  /-- `TWIN_DISABLE` (R348). Clearing TW_CFG.EN drops DUTY, sends RELEASE if the device holds the lease, and goes to DISABLED. -/
  | twinDisable (dt : Nat)
  /-- `HB_PIN_TX` (R343). Every PIN_PERIOD, a heartbeat frame is sent on HB_TX. -/
  | hbPinTx (dt : Nat)
  /-- `HEARTBEAT_RX` (R344). A heartbeat received on either path is validated and updates the peer status. -/
  | heartbeatRx (dt : Nat) (path : Path) (hb : List Byte)
  /-- `PATH_LOSS` (R344). No valid heartbeat has arrived on a path for PATH_LOSS, and the path's status falls. -/
  | pathLoss (dt : Nat) (path : Path)
  /-- `PEER_DEAD` (R345). Nothing valid has arrived on either path for T_DEAD, and PEER_DEAD is set. -/
  | peerDead (dt : Nat)
  /-- `RENEW_RX` (R349). A received RENEW is handled: DENY, ACK with guard, step-down, or no reply. -/
  | renewRx (dt : Nat) (path : Path) (msg : List Byte)
  /-- `ACK_RX` (R349). A received ACK extends the holder's expiry X. -/
  | ackRx (dt : Nat) (path : Path) (msg : List Byte)
  /-- `CLAIM_RX` (R349). A received CLAIM is answered with GRANT or DENY. -/
  | claimRx (dt : Nat) (path : Path) (msg : List Byte)
  /-- `GRANT_RX` (R348). A received GRANT for a claim makes the claimant HOLDER. -/
  | grantRx (dt : Nat) (path : Path) (msg : List Byte)
  /-- `DENY_RX` (R348). A received DENY returns a claimant to STANDBY. -/
  | denyRx (dt : Nat) (path : Path) (msg : List Byte)
  /-- `RELEASE_RX` (R349). A received RELEASE sets the guard to now and starts a claim. -/
  | releaseRx (dt : Nat) (path : Path) (msg : List Byte)
  /-- `LEASE_CLAIM` (R348). The guard has passed with the peer alive and not holding, and the standby sends a CLAIM. -/
  | leaseClaim (dt : Nat)
  /-- `SOLO_HOLD` (R348). The guard has passed with PEER_DEAD and SOLO_EN, and the standby holds solo. -/
  | soloHold (dt : Nat)
  /-- `CLAIM_TIMEOUT` (R348). No GRANT arrives within 2 × RENEW, and the claimant returns to STANDBY. -/
  | claimTimeout (dt : Nat)
  /-- `RENEW_TX` (R348). RENEW elapses, and the holder sends a RENEW. -/
  | renewTx (dt : Nat)
  /-- `LEASE_LAPSED` (R348). The lease timer reaches X. DUTY falls and the state goes to LAPSED. -/
  | leaseLapsed (dt : Nat)
  /-- `CLAIM` (R352). A TW_LEASE_CMD CLAIM in STANDBY starts claiming at once. -/
  | cmdClaim (dt : Nat)
  /-- `RELEASE` (R352). A TW_LEASE_CMD RELEASE on the holder drops DUTY and sends RELEASE. -/
  | cmdRelease (dt : Nat)
  /-- `CLAIM_SOLO` (R352). A TW_LEASE_CMD CLAIM_SOLO with the peer dead takes the lease solo. -/
  | cmdClaimSolo (dt : Nat)
  /-- `SET_EPOCH` (R352). A TW_LEASE_CMD SET_EPOCH in LEARN sets TW_EPOCH_SEEN. -/
  | cmdSetEpoch (dt : Nat) (epoch : Word)
  /-- `MIRROR_FRAME_RX` (R355). A received mirror frame is checked for MSEQ gaps and its records are applied. -/
  | mirrorFrameRx (dt : Nat) (bytes : List Byte)
  /-- `MIRROR_RESEND` (R356). A write of TW_MIRROR_CTRL.RESEND sends every mirrored item in full. -/
  | mirrorResend (dt : Nat)
  /-- `AUDIT` (R356). At s + 0.5 s, each device computes and sends its area digests. -/
  | audit (dt : Nat)
  /-- `AUDIT_RX` (R356). Received audit digests are compared, and DIFF is set after two mismatches. -/
  | auditRx (dt : Nat) (bytes : List Byte)
  /-- `FLR` (R365). A function-level reset disables all rings, resets the HI_ registers and discards the unadmitted jobs. -/
  | flr (dt : Nat)
  /-- `VEC_EOI` (R367). A write to HI_VEC_EOI re-arms a vector, which signals again if it is still raised. -/
  | vecEoi (dt : Nat) (v : Nat)
  /-- `RING_ENABLE` (R369). A write that sets HI_RING_CFG.EN enables the ring, or refuses it with CFG_ERR. -/
  | ringEnable (dt : Nat) (ini : Initiator) (r : Nat) (cfg : Word)
  /-- `RING_DISABLE` (R392). Clearing EN shuts a ring down and completes its outstanding jobs ABORTED. -/
  | ringDisable (dt : Nat) (ini : Initiator) (r : Nat)
  /-- `RING_RESET` (R392). A write of HI_RING_CTRL.RESET shuts the ring down and re-enables it. -/
  | ringReset (dt : Nat) (ini : Initiator) (r : Nat)
  /-- `RING_IDLE` (R392). The last shutdown completion is written, and the ring goes to IDLE. -/
  | ringIdle (dt : Nat) (r : Nat)
  /-- `DOORBELL` (R371). A doorbell write carries a new tail or head, which the device accepts or ignores. -/
  | doorbell (dt : Nat) (offset : Nat) (nbytes : Nat) (value : BitVec 64)
  /-- `RING_ABORT` (R391). A write of HI_RING_ABORT aborts the job containing INDEX, or reports why not. -/
  | ringAbort (dt : Nat) (r : Nat) (index : Nat)
  /-- `ENTRY_READ` (R372). The device reads submission entries between its head and the tail. -/
  | entryRead (dt : Nat) (r : Nat) (words : List Word) (payload : List Byte)
  /-- `CHAIN_TIMEOUT` (R375). A parked open chain reaches HI_RING_CHAIN_TO and completes CHAIN_TIMEOUT. -/
  | chainTimeout (dt : Nat) (r : Nat)
  /-- `TX_FETCH` (R383). A TX job's frame is fetched into cells and sent into its pipeline. -/
  | txFetch (dt : Nat) (r : Nat) (bytes : List Byte)
  /-- `DMA_ERR` (R364). A failed or timed-out DMA read fails its job with DMA_ERR. -/
  | dmaErr (dt : Nat) (err : ReadErr)
  /-- `COMPLETION_WRITE` (R377). A completion record is written to its CQ when room is available. -/
  | completionWrite (dt : Nat) (cq : Nat)
  /-- `CQ_MOD_TIMEOUT` (R380). MOD_US passes since the first unsignalled entry, and the CQ sends its MSI-X message. -/
  | cqModTimeout (dt : Nat) (cq : Nat)
  /-- `RX_COPY_WRITE` (R386). A copy to processor or a mirror copy is written into RX buffers with its record, or lost. -/
  | rxCopyWrite (dt : Nat) (i : Nat)
  /-- `IMAGE_LOAD_APPLY` (R445). An IMAGE_LOAD with MODE APPLY boots from the image or live-reloads it. -/
  | imageLoadApply (dt : Nat) (r : Nat) (tag : Nat) (image : List Byte)
  /-- `IMAGE_LOAD_VERIFY` (R445). An IMAGE_LOAD with MODE VERIFY runs checks 1–18 only. -/
  | imageLoadVerify (dt : Nat) (r : Nat) (tag : Nat) (image : List Byte)
  /-- `IMAGE_LOAD_FLASH` (R445). An IMAGE_LOAD with MODE FLASH verifies the image, writes it to a flash slot and reads it back. -/
  | imageLoadFlash (dt : Nat) (r : Nat) (tag : Nat) (image : List Byte) (seen : FlashSeen)
  /-- `ATTEST` (R468). An ATTEST job writes a signed report bound to its nonce. -/
  | attest (dt : Nat) (r : Nat)
  /-- `REGISTER_WRITE` (R9). A write to a register with no row of its own acts by its field types. -/
  | registerWrite (dt : Nat) (ini : Initiator) (addr : Nat) (be : Nat) (value : BitVec 64)
  /-- `UNALIGNED` (R399). An access that crosses an 8-byte span completes with Unsupported Request and is logged. -/
  | unaligned (dt : Nat) (ini : Initiator) (addr : Nat) (nbytes : Nat) (write : Bool)
  /-- `COUNTER_WRITE` (R410). A write of a 64-bit counter replaces the count, and that cycle's increment is added. -/
  | counterWrite (dt : Nat) (ini : Initiator) (addr : Nat) (value : BitVec 64)
  /-- `MULTIWORD_READ` (R407). A read of word 0 of a multi-word value latches its other words in the initiator's read shadow. -/
  | multiwordRead (dt : Nat) (ini : Initiator) (addr : Nat) (be : Nat)
  /-- `MULTIWORD_WRITE` (R408). A write of the last word of a multi-word value applies it with the held words. -/
  | multiwordWrite (dt : Nat) (ini : Initiator) (addr : Nat) (value : Word)
  /-- `JOURNAL_WRITE` (R419). Every 160 ns, the journal writes the next queued record. -/
  | journalWrite (dt : Nat)
  /-- `JN_SEL` (R422). A write of the last word of JN_SEL selects a journal record. -/
  | jnSel (dt : Nat) (ini : Initiator) (seq : Nat)
  /-- `JOURNAL_COPY` (R422). The selected record is copied into JN_REC and JN_SEL_STATUS is set. -/
  | journalCopy (dt : Nat) (ini : Initiator)
  /-- `BOOT_RELEASE` (R441). A write of GL_BOOT_CTRL.RELEASE in HELD continues the boot from flash. -/
  | bootRelease (dt : Nat)
  /-- `BOOT_ROM_DONE` (R443). Signet ROM finishes its checks and the boot source is read. -/
  | bootRomDone (dt : Nat)
  /-- `FLASH_READ_DONE` (R442). A flash slot's image has been read, and its verification follows. -/
  | flashReadDone (dt : Nat) (slot0 : List Byte) (slot1 : List Byte)
  /-- `VERIFY_DONE` (R440). Image verification ends, and the device applies the image or reports the failing check. -/
  | verifyDone (dt : Nat)
  /-- `DOMAINS_DONE` (R443). The enabled islands are powered, their PLLs lock and their domains leave reset. -/
  | domainsDone (dt : Nat)
  /-- `DEFAULTS_DONE` (R443). The DEFAULTS records are applied and the boot commit is made. -/
  | defaultsDone (dt : Nat)
  /-- `SELFTEST_DONE` (R443). The bank self-test completes and boot proceeds to FOUNDRY and CAL. -/
  | selftestDone (dt : Nat) (failing : Word)
  /-- `TOKEN` (R462). An SG_CMD TOKEN checks the token in the buffer and acts on its KIND. -/
  | token (dt : Nat) (ini : Initiator) (fuseOk : Bool)
  /-- `ADVANCE_SVN` (R459). An SG_CMD ADVANCE_SVN blows fuse bits up to the image's SVN. -/
  | advanceSvn (dt : Nat) (ini : Initiator) (fuseOk : Bool)
  /-- `DEBUG_END` (R481). An SG_CMD DEBUG_END ends Observe or Inspect. -/
  | debugEnd (dt : Nat) (ini : Initiator)
  /-- `OBSERVE_WRITE` (R464). A write of SG_OBSERVE.EN enters or ends Observe. -/
  | observeWrite (dt : Nat) (v : Bool)
  /-- `INSPECT_EXPIRE` (R464). An Inspect session's DURATION runs out and the level falls to None. -/
  | inspectExpire (dt : Nat)
  /-- `TRACE_POP` (R483). A write of DB_TRACE_STAT.POP discards the oldest trace entry. -/
  | tracePop (dt : Nat)
  /-- `SNAP` (R467). A write of DB_SNAP_CTRL.GO copies a counter window into DB_SNAP_BUF. -/
  | snap (dt : Nat) (window : Nat)
  /-- `TARGET_FULL` (R473). A write of PW_CTRL.TARGET FULL lifts every Doze measure. -/
  | targetFull (dt : Nat)
  /-- `TARGET_DOZE` (R473). A write of PW_CTRL.TARGET DOZE enables the Doze measures. -/
  | targetDoze (dt : Nat)
  /-- `TARGET_KEEP` (R476). A write of PW_CTRL.TARGET KEEP closes the receive paths, releases the lease and ends debug sessions. -/
  | targetKeep (dt : Nat)
  /-- `KEEP_READY` (R476). No fuse, token or ATTEST work remains, and KEEP_READY is set. -/
  | keepReady (dt : Nat)
  /-- `PG_GATE` (R474). A drop group has been idle for PG_IDLE_US in Doze, and its MAC client path is gated. -/
  | pgGate (dt : Nat) (g : Nat)
  /-- `PG_WAKE` (R474). A received frame or a selection starts the wake of a gated group. -/
  | pgWake (dt : Nat) (g : Nat)
  /-- `WAKE_DONE` (R475). The group's wake completes, and the wake buffer drains to the pipeline. -/
  | wakeDone (dt : Nat) (g : Nat)
  /-- `LANE1_SLEEP` (R474). Packet lane 1 has been idle for LANE_IDLE_US and sleeps. -/
  | lane1Sleep (dt : Nat) (i : Nat)
  /-- `LANE1_WAKE` (R474). The pipeline's input backlog, in units of 256 bytes, reaches LANE_WAKE, and packet lane 1 wakes. -/
  | lane1Wake (dt : Nat) (i : Nat) (backlog : Nat)
  /-- `BANK_RETENTION` (R474). A bank has held no USED cell for BANK_IDLE_US and enters retention. -/
  | bankRetention (dt : Nat) (b : Nat)
  /-- `MAIN_LOST` (R477). Loss of the main rails puts the device in Keep, and MAIN_LOST is raised. -/
  | mainLost (dt : Nat)
  /-- `VAON_LOSS` (R495). Loss of VAON stops forwarding, sets every output to high impedance and puts the device Off. -/
  | vaonLoss (dt : Nat)
  /-- `POWER_ON` (R452). VAON rises, the fuses are read and the identity key is derived. -/
  | powerOn (dt : Nat)
  /-- `AON_RST_FALL` (R496). AON_RST_N held low resets the AON island and holds every other island in reset. -/
  | aonRstFall (dt : Nat)
  /-- `AON_RST_RISE` (R496). AON_RST_N rises and I2C_ADDR is sampled. -/
  | aonRstRise (dt : Nat) (i2cAddr : Nat)
  /-- `AON_READY` (R500). 20 ms after AON_RST_N rises, the AON island is ready and SG_STATUS is set. -/
  | aonReady (dt : Nat)
  /-- `SYS_RST_FALL` (R496). SYS_RST_N low resets every island but AON and releases the lease. -/
  | sysRstFall (dt : Nat)
  /-- `SYS_RST_RISE` (R496). SYS_RST_N rises, BOOT_SRC is sampled and the boot starts. -/
  | sysRstRise (dt : Nat) (bootSrc : Nat)
  /-- `PERST` (R496). PERST_N resets the PCIe endpoint and handles the rings as an FLR. -/
  | perst (dt : Nat) (rising : Bool)
  /-- `I2C_WRITE` (R501). An I²C write transaction writes one BAR0 word. -/
  | i2cWrite (dt : Nat) (dev : Nat) (addr : Nat) (value : Word) (lost : Bool)
  /-- `I2C_READ` (R501). An I²C read transaction reads one BAR0 word and returns its STATUS. -/
  | i2cRead (dt : Nat) (dev : Nat) (addr : Nat) (lost : Bool)
  /-- `I2C_STATUS` (R502). An I²C status read returns the STATUS of the last access. -/
  | i2cStatus (dt : Nat) (dev : Nat)
  /-- `BLOCK_LOCK_GAINED` (R52). Signal, block lock and alignment-marker lock are regained and HI_BER clears on a port's active lanes, so the port becomes a candidate for up and its UP debounce starts. -/
  | blockLockGained (dt : Nat) (p : Nat)
  /-- `REMOTE_FAULT` (R52). A local or remote fault begins or ends on an Ethernet port, which removes or restores the candidate state and raises PT_INT_STATUS.REMOTE_FAULT when a remote fault begins. -/
  | remoteFault (dt : Nat) (p : Nat) (near : Bool) (begins : Bool)
  /-- `RECOVERY_RESET_TIMEOUT` (R340). The reset timeout RESET_MS of a dwelling's 802.1CB vector recovery runs out and its recovery history is reset. -/
  | recoveryResetTimeout (dt : Nat) (d : Nat)
  /-- `MAIN_RAILS_RETURN` (R478). The main rails come back while VAON is present, and PW_STATUS.MAIN_OK goes to 1 before SYS_RST_N releases the boot. -/
  | mainRailsReturn (dt : Nat)
  deriving DecidableEq, Repr

end Sys2Proof
end

