-- ==== Sys2Proof/WellFormed.lean ====
section
/-!
DEFINITION. Which commands the device has: the operands name a port, a queue, a lane, a plane, a ring, a bank, a MEP, a bucket, a counter or an address
that the spec gives the device (R1, R9, R11, R187, R246, R283, R363, R368, R403), and what arrives has the size that the spec gives it.
-/
namespace Sys2Proof

/-- A queue identifier of R187. -/
def isQueue (q : Nat) : Bool := decide (q < 0x14000)

/-- A bucket that KIND and INDEX name (R283). -/
def bucketIs (kind index : Nat) : Bool :=
  (decide (kind = 0) && decide (index < 144)) || (decide (kind = 1) && decide (index < 1152)) || (decide (kind = 2) && decide (index < 1024)) ||
  (decide (kind = 3) && decide (index < 16384)) || (decide (kind = 4) && decide (index < 65536)) ||
  (decide (kind = 5 ∨ kind = 6) && decide (index < 36864))

/-- A requester of a cell that the device has (R252). -/
def reqOk (req : CellReq) : Bool :=
  match req with
  | .rxPort p => decide (p < 144)
  | .host r => decide (r < 4096)
  | .anvil => true

/-- The addresses of an access: BAR0 from 0, and for PCIe after it BAR2 from 0x4000000 and the configuration space of the function from 0x4020000 (R362; the
two places are the model's numbering, notes/assumptions/46.md). -/
def busAddr (ini : Initiator) (a : Nat) : Bool :=
  match ini with
  | .pcie => decide (a < 0x4021000)
  | .i2c => decide (a < 0x4000000)
  | .loupe => decide (a < 0x4000000)

/-- The bytes of one access: PCIe reaches any bytes of a span (R398), I²C and Loupe one whole word (R397). -/
def oneWord (ini : Initiator) (be : Nat) : Bool :=
  match ini with
  | .pcie => true
  | .i2c => decide (be = 0x0F) || decide (be = 0xF0)
  | .loupe => decide (be = 0x0F) || decide (be = 0xF0)

/-- Whether a command's operands are ones that the device has. -/
def Instr.wellFormed (i : Instr) : Bool :=
  match i with
  | .portEnable _ p => decide (p < 144)
  | .portDisable _ p => decide (p < 144)
  | .portDrained _ p => decide (p < 144)
  | .anRestart _ p => decide (p < 144)
  | .anDone _ p _ => decide (p < 144)
  | .retrain _ p => decide (p < 144)
  | .ltDone _ rep => decide (rep.port < 144)
  | .ltFail _ p => decide (p < 144)
  | .retryDelay _ p => decide (p < 144)
  | .lpiEntry _ p => decide (p < 144)
  | .lpiWakeDone _ p => decide (p < 144)
  | .lpiRx _ p _ => decide (p < 144)
  | .pauseRx _ p _ => decide (p < 144)
  | .pfcRx _ p _ _ => decide (p < 144)
  | .pauseExpire _ p => decide (p < 144)
  | .pauseWd _ p => decide (p < 144)
  | .linkUp _ p _ => decide (p < 144)
  | .linkDown _ p => decide (p < 144)
  | .holdExpire _ p => decide (p < 144)
  | .frameRxEnd _ p _ _ _ => decide (p < 144)
  | .ingressLookup _ _ => true
  | .stage6Admit _ _ lane => decide (lane < 2)
  | .arbiterCycle _ => true
  | .egressReplicate _ e => decide (e < 8)
  | .listManagerCycle _ => true
  | .selectFrame _ p => decide (p < 144)
  | .doomedDiscard _ q => isQueue q
  | .launchFar _ q => isQueue q
  | .gateOversize _ q => isQueue q
  | .launchTimeReached _ p => decide (p < 144)
  | .txLastByte _ p => decide (p < 144)
  | .bucketRefill _ kind index => bucketIs kind index
  | .cellAlloc _ req => reqOk req
  | .cellRelease _ owner first n => decide (owner < 64) && decide (first < 0x80000) && decide (1 ≤ n) && decide (n ≤ 40)
  | .cellReleaseDone _ => true
  | .cellQuery _ cell => decide (cell < 0x80000)
  | .cellCmdAlloc _ pool => decide (pool < 64)
  | .cellFree _ cell => decide (cell < 0x80000)
  | .cellReclaim _ cell => decide (cell < 0x80000)
  | .poolWmReset _ n => decide (n < 64)
  | .pmErrPop _ => true
  | .wredSeedWrite _ i _ => decide (i < 8)
  | .queueDisable _ q => isQueue q
  | .queueDrained _ q => isQueue q
  | .mirrorSessionDisable _ n => decide (n < 8)
  | .mirrorSessionDrained _ n => decide (n < 8)
  | .modeReq _ _ => true
  | .recal _ => true
  | .calComplete _ _ => true
  | .fenceLiftInward _ q => decide (q < 144)
  | .foundryReached _ => true
  | .fenceLiftOutward _ q => decide (q < 144)
  | .voqReached _ => true
  | .memReloadApply _ => true
  | .bankTest _ => true
  | .bankTestBankStart _ b => decide (b < 32)
  | .bankTestBankDone _ b _ => decide (b < 32)
  | .bankTestSkip _ b => decide (b < 32)
  | .fgRead _ _ k index _ => decide (k < 4) && decide (index < 8192)
  | .fgWrite _ _ k index _ => decide (k < 4) && decide (index < 8192)
  | .fgInvalidate _ _ k index _ => decide (k < 4) && decide (index < 8192)
  | .patternRead _ _ k index _ => decide (k < 4) && decide (index < 1024)
  | .patternWrite _ _ k index _ => decide (k < 4) && decide (index < 1024)
  | .patternInvalidate _ _ k index _ => decide (k < 4) && decide (index < 1024)
  | .tblInsert _ _ k _ => decide (k < 4)
  | .tblDelete _ _ k _ => decide (k < 4)
  | .tblSearch _ _ k _ => decide (k < 4)
  | .tblNext _ _ k _ => decide (k < 4)
  | .flushByPort _ _ k _ => decide (k < 4)
  | .flushAll _ _ k _ => decide (k < 4)
  | .learnServe _ k => decide (k < 4)
  | .learnRateWrite _ k _ => decide (k < 4)
  | .agingSweep _ k => decide (k < 4)
  | .agePeriodWrite _ k _ => decide (k < 4)
  | .crfFrameTx _ p => decide (p < 144)
  | .hmcSend _ p _ => decide (p < 144)
  | .forceAisWrite _ p _ => decide (p < 144)
  | .crfBlockRx _ p block => decide (p < 144) && decide (block.length = 8)
  | .dlosDetect _ p cause => decide (p < 144) && decide (cause < 4)
  | .dlosClear _ p => decide (p < 144)
  | .dlofDetect _ p => decide (p < 144)
  | .dlofClear _ p => decide (p < 144)
  | .dlomDetect _ p => decide (p < 144)
  | .dlomClear _ p => decide (p < 144)
  | .failureDeclare _ p d => decide (p < 144) && decide (d < 6)
  | .failureClear _ p d => decide (p < 144) && decide (d < 6)
  | .crfLinkUp _ p _ => decide (p < 144)
  | .pmSecondGrade _ p => decide (p < 144)
  | .secondFinal _ p => decide (p < 144)
  | .binEnd _ p => decide (p < 144)
  | .binClose _ p => decide (p < 144)
  | .pmSnapshot _ p bin => decide (p < 144) && decide (bin < 64)
  | .ohSlotForm _ p => decide (p < 144)
  | .twinTask _ => true
  | .mepEnable _ m => decide (m < 4096)
  | .mepDisable _ m => decide (m < 4096)
  | .ccmService _ a => decide (a < 256)
  | .ccmExamine _ m => decide (m < 4096)
  | .mepLoc _ m => decide (m < 4096)
  | .mepDefectClear _ m d => decide (m < 4096) && decide (d < 7)
  | .calReloadApply _ => true
  | .levelZero _ _ kind index => decide (kind < 8) && decide (index < 0x20000)
  | .levelFull _ _ kind index => decide (kind < 8) && decide (index < 0x20000)
  | .sojWmRead _ ini q be => isQueue q && decide (be < 16) && oneWord ini be
  | .samplePost _ => true
  | .addendWrite _ _ => true
  | .timeSet _ _ _ _ => true
  | .timeAdd _ _ _ _ => true
  | .timeSub _ _ _ _ => true
  | .counterBroadcast _ => true
  | .swOffsetSample _ _ _ => true
  | .crfSample _ => true
  | .ppsInEdge _ => true
  | .servoEnable _ => true
  | .servoDisable _ => true
  | .srcLost _ => true
  | .servoSrcWrite _ src crfPort => decide (src < 8) && decide (crfPort < 128)
  | .ppsOutRise _ => true
  | .ppsOutFall _ => true
  | .todTx _ => true
  | .todRx _ _ _ => true
  | .evtArm _ i => decide (i < 2)
  | .evtPulse _ i => decide (i < 2)
  | .evtPulseEnd _ i => decide (i < 2)
  | .evtCapture _ i _ => decide (i < 2)
  | .evtCapPop _ i => decide (i < 2)
  | .evtModeWrite _ i _ => decide (i < 2)
  | .gateEdge _ q => decide (q < 144)
  | .gateCalendarSwitch _ q => decide (q < 144)
  | .timedArm _ _ n _ => decide (n < 4)
  | .timedCancel _ _ n => decide (n < 4)
  | .tcommitFired _ => true
  | .commit _ _ _ => true
  | .revert _ _ _ => true
  | .twinEnable _ => true
  | .twinDisable _ => true
  | .hbPinTx _ => true
  | .heartbeatRx _ _ _ => true
  | .pathLoss _ _ => true
  | .peerDead _ => true
  | .renewRx _ _ _ => true
  | .ackRx _ _ _ => true
  | .claimRx _ _ _ => true
  | .grantRx _ _ _ => true
  | .denyRx _ _ _ => true
  | .releaseRx _ _ _ => true
  | .leaseClaim _ => true
  | .soloHold _ => true
  | .claimTimeout _ => true
  | .renewTx _ => true
  | .leaseLapsed _ => true
  | .cmdClaim _ => true
  | .cmdRelease _ => true
  | .cmdClaimSolo _ => true
  | .cmdSetEpoch _ _ => true
  | .mirrorFrameRx _ _ => true
  | .mirrorResend _ => true
  | .audit _ => true
  | .auditRx _ _ => true
  | .flr _ => true
  | .vecEoi _ v => decide (v < 2048)
  | .ringEnable _ _ r _ => decide (r < 4096)
  | .ringDisable _ _ r => decide (r < 4096)
  | .ringReset _ _ r => decide (r < 4096)
  | .ringIdle _ r => decide (r < 4096)
  | .doorbell _ offset nbytes _ => decide (offset < 0x20000) && decide (1 ≤ nbytes ∧ nbytes ≤ 8)
  | .ringAbort _ r index => decide (r < 4096) && decide (index < 0x10000)
  | .entryRead _ r words _ => decide (r < 4096) && decide (words.length = 8)
  | .chainTimeout _ r => decide (r < 4096)
  | .txFetch _ r _ => decide (r < 4096)
  | .dmaErr _ err => decide (err.ring < 4096) && (err.words.isEmpty || decide (err.words.length = 8))
  | .completionWrite _ cq => decide (cq < 4096)
  | .cqModTimeout _ cq => decide (cq < 4096)
  | .rxCopyWrite _ i => decide (i < 72)
  | .imageLoadApply _ r tag _ => decide (r < 4096) && decide (tag < 0x10000)
  | .imageLoadVerify _ r tag _ => decide (r < 4096) && decide (tag < 0x10000)
  | .imageLoadFlash _ r tag _ _ => decide (r < 4096) && decide (tag < 0x10000)
  | .attest _ r => decide (r < 4096)
  | .registerWrite _ ini addr be _ => busAddr ini addr && decide (be < 256) && oneWord ini be
  | .unaligned _ _ addr _ _ => decide (addr < 0x4000000)
  | .counterWrite _ _ addr _ => decide (addr < 0x4000000)
  | .multiwordRead _ ini addr be => busAddr ini addr && decide (be < 256) && oneWord ini be
  | .multiwordWrite _ _ addr _ => decide (addr < 0x4000000)
  | .journalWrite _ => true
  | .jnSel _ _ _ => true
  | .journalCopy _ _ => true
  | .bootRelease _ => true
  | .bootRomDone _ => true
  | .flashReadDone _ _ _ => true
  | .verifyDone _ => true
  | .domainsDone _ => true
  | .defaultsDone _ => true
  | .selftestDone _ _ => true
  | .token _ _ _ => true
  | .advanceSvn _ _ _ => true
  | .debugEnd _ _ => true
  | .observeWrite _ _ => true
  | .inspectExpire _ => true
  | .tracePop _ => true
  | .snap _ window => decide (window < 4096)
  | .targetFull _ => true
  | .targetDoze _ => true
  | .targetKeep _ => true
  | .keepReady _ => true
  | .pgGate _ g => decide (g < 8)
  | .pgWake _ g => decide (g < 8)
  | .wakeDone _ g => decide (g < 8)
  | .lane1Sleep _ i => decide (i < 8)
  | .lane1Wake _ i _ => decide (i < 8)
  | .bankRetention _ b => decide (b < 32)
  | .mainLost _ => true
  | .vaonLoss _ => true
  | .powerOn _ => true
  | .aonRstFall _ => true
  | .aonRstRise _ i2cAddr => decide (i2cAddr < 4)
  | .aonReady _ => true
  | .sysRstFall _ => true
  | .sysRstRise _ bootSrc => decide (bootSrc < 4)
  | .perst _ _ => true
  | .i2cWrite _ dev _ _ _ => decide (dev < 128)
  | .i2cRead _ dev _ _ => decide (dev < 128)
  | .i2cStatus _ dev => decide (dev < 128)
  | .blockLockGained _ p => decide (p < 144)
  | .remoteFault _ p _ _ => decide (p < 144)
  | .recoveryResetTimeout _ d => decide (d < 16384)
  | .mainRailsReturn _ => true

end Sys2Proof
end

