-- ==== Sys2Proof/Config.lean ====
section
/-!
DEFINITION. What the spec leaves open, as constants without a body (notes/assumptions/3.md): nothing can be proved of them, so
a claim holds whatever they are. A free value is `Config.free` applied to a counter of the state that every draw advances. Beside them: the identifiers
that the device presents to its host.
-/
namespace Sys2Proof

/-- The free values, drawn in order by the state's counter `free`. -/
opaque Config.free : Nat → Nat

/-- Where a child (second argument, by its record) stands in the order in which a node (first argument) goes round its children (R274 gives
no order; notes/assumptions/3.md). -/
opaque Config.childRank : Nat → Nat → Nat

/-- Whether an SLH-DSA signature (third argument) over a message (second) holds under a public key (first)
(FIPS 205; the spec names the standard and does not retell it). -/
opaque Config.slhVerify : List Byte → List Byte → List Byte → Bool

/-- The SLH-DSA public key that a seed gives (FIPS 205). -/
opaque Config.slhKey : List Byte → List Byte

/-- The SLH-DSA signature of a message under the key of a seed (FIPS 205). -/
opaque Config.slhSign : List Byte → List Byte → List Byte

/-- The hash of Imuri's image-signing key that Signet ROM holds (R440, R453; the spec gives no value). -/
opaque Config.imuriHash : List Byte

/-- What the PCIe configuration space of silicon revision A1 presents (R3, R362): vendor, device and revision identifiers, the class code, and the subsystem
with its vendor. -/
def Config.pciVendor : Nat := 0xE1D7
def Config.pciDevice : Nat := 0x9144
def Config.pciRevision : Nat := 0xA1
def Config.pciClass : Nat := 0x028000
def Config.pciSubVendor : Nat := 0xE1D7
def Config.pciSubsystem : Nat := 0x0001

end Sys2Proof
end

