-- ==== Sys2Proof/Machine/Regs.lean ====
section
/-!
DEFINITION. Every register of BAR0 under its own name (R510 and the register tables of the chapters): its address, its fields,
and the table of field types and reset values from which the bus works (R9, R10, R402). `Reg.X` is the BAR0 address of a register and
`Fld.X_F` one of its fields.
-/
namespace Sys2Proof.Machine

/-- A field of a register: the BAR0 address of its word, its lowest bit and its width. -/
structure Fld where
  addr : Nat
  lo   : Nat
  len  : Nat
  deriving DecidableEq, Repr

/-- The field types of R9. -/
inductive FTy where
  | rw | rws | ro | w1c | rc | wo | sc
  deriving DecidableEq, Repr

/-- A field of the register table: bits `hi` to `lo`, type and reset value. -/
structure FieldDef where
  hi  : Nat
  lo  : Nat
  ty  : FTy
  rst : Nat
  deriving DecidableEq, Repr

/-- A register, or an array of `n` registers `step` bytes apart, at byte offset `off` of its block. -/
structure RegDef where
  off    : Nat
  n      : Nat
  step   : Nat
  fields : List FieldDef
  deriving DecidableEq, Repr

/-! ### Addresses of the registers -/

def Reg.GL_ID : Nat := 0x0
def Reg.GL_INT_CTRL : Nat := 0x10
def Reg.GL_INT_STATUS : Nat := 0x18
def Reg.GL_INT_EN : Nat := 0x1C
def Reg.GL_RESET_CAUSE : Nat := 0x20
def Reg.GL_BOOT_STATUS : Nat := 0x100
def Reg.GL_BOOT_CTRL : Nat := 0x104
def Reg.GL_IMAGE_SEQ : Nat := 0x108
def Reg.GL_IMAGE_INFO : Nat := 0x10C
def Reg.GL_IMAGE_DIGEST (i : Nat) : Nat := 0x140 + i * 0x4
def Reg.CM_COMMIT : Nat := 0x10000
def Reg.CM_REVERT : Nat := 0x10004
def Reg.CM_PENDING : Nat := 0x10008
def Reg.CM_UNIT_GROUP (i : Nat) : Nat := 0x10010 + i * 0x4
def Reg.CM_INT_STATUS : Nat := 0x100C0
def Reg.CM_INT_EN : Nat := 0x100C4
def Reg.CM_ACC_ERR_ADDR : Nat := 0x100D0
def Reg.CM_ACC_ERR_INFO : Nat := 0x100D4
def Reg.CM_TIMED_CTRL (i : Nat) : Nat := 0x10100 + i * 0x20
def Reg.CM_TIMED_MASK (i : Nat) : Nat := 0x10104 + i * 0x20
def Reg.CM_TIMED_TIME0 (i : Nat) : Nat := 0x10110 + i * 0x20
def Reg.CM_TIMED_TIME1 (i : Nat) : Nat := 0x10114 + i * 0x20
def Reg.CM_TIMED_TIME2 (i : Nat) : Nat := 0x10118 + i * 0x20
def Reg.JN_HEAD0 : Nat := 0x18000
def Reg.JN_HEAD1 : Nat := 0x18004
def Reg.JN_WRAPS : Nat := 0x18008
def Reg.JN_LOST_RECORDS : Nat := 0x1800C
def Reg.JN_SEL0 : Nat := 0x18010
def Reg.JN_SEL1 : Nat := 0x18014
def Reg.JN_SEL_STATUS : Nat := 0x18018
def Reg.JN_REC (i : Nat) : Nat := 0x18020 + i * 0x4
def Reg.JN_MARK0 : Nat := 0x18040
def Reg.JN_MARK1 : Nat := 0x18044
def Reg.SG_STATUS : Nat := 0x20000
def Reg.SG_CMD : Nat := 0x20004
def Reg.SG_OBSERVE : Nat := 0x20008
def Reg.SG_UID (i : Nat) : Nat := 0x20010 + i * 0x4
def Reg.SG_NONCE (i : Nat) : Nat := 0x20020 + i * 0x4
def Reg.SG_ID_PK (i : Nat) : Nat := 0x20040 + i * 0x4
def Reg.SG_SEED (i : Nat) : Nat := 0x20060 + i * 0x4
def Reg.SG_INT_STATUS : Nat := 0x20080
def Reg.SG_INT_EN : Nat := 0x20084
def Reg.SG_TOKEN_BUF (i : Nat) : Nat := 0x28000 + i * 0x4
def Reg.PW_CTRL : Nat := 0x30000
def Reg.PW_STATUS : Nat := 0x30004
def Reg.PW_BANK_RET : Nat := 0x30008
def Reg.PW_DOZE_CFG : Nat := 0x3000C
def Reg.PW_INT_STATUS : Nat := 0x30010
def Reg.PW_INT_EN : Nat := 0x30014
def Reg.HM_TIME (i : Nat) : Nat := 0x40000 + i * 0x4
def Reg.HM_SET0 : Nat := 0x40010
def Reg.HM_SET1 : Nat := 0x40014
def Reg.HM_SET2 : Nat := 0x40018
def Reg.HM_SET_CTRL : Nat := 0x4001C
def Reg.HM_ADDEND0 : Nat := 0x40020
def Reg.HM_ADDEND1 : Nat := 0x40024
def Reg.HM_ADDEND_ACT0 : Nat := 0x40028
def Reg.HM_ADDEND_ACT1 : Nat := 0x4002C
def Reg.HM_SERVO_CTRL : Nat := 0x40030
def Reg.HM_SERVO_THR : Nat := 0x40034
def Reg.HM_STEP_NS : Nat := 0x40038
def Reg.HM_SERVO_STATUS : Nat := 0x4003C
def Reg.HM_SW_OFFSET0 : Nat := 0x40040
def Reg.HM_SW_OFFSET1 : Nat := 0x40044
def Reg.HM_LAST_OFFSET0 : Nat := 0x40048
def Reg.HM_LAST_OFFSET1 : Nat := 0x4004C
def Reg.HM_UTC : Nat := 0x40050
def Reg.HM_INT_STATUS : Nat := 0x40060
def Reg.HM_INT_EN : Nat := 0x40064
def Reg.HM_PPS_CTRL : Nat := 0x40080
def Reg.HM_PPS_OUT_OFS : Nat := 0x40084
def Reg.HM_PPS_IN_OFS : Nat := 0x40088
def Reg.HM_TOD_CTRL : Nat := 0x40090
def Reg.HM_TOD_RX (i : Nat) : Nat := 0x400A0 + i * 0x4
def Reg.HM_EVT_CTRL (i : Nat) : Nat := 0x400C0 + i * 0x40
def Reg.HM_EVT_WIDTH (i : Nat) : Nat := 0x400C4 + i * 0x40
def Reg.HM_EVT_TIME0 (i : Nat) : Nat := 0x400D0 + i * 0x40
def Reg.HM_EVT_TIME1 (i : Nat) : Nat := 0x400D4 + i * 0x40
def Reg.HM_EVT_TIME2 (i : Nat) : Nat := 0x400D8 + i * 0x40
def Reg.HM_EVT_PERIOD (i : Nat) : Nat := 0x400E0 + i * 0x40
def Reg.HM_EVT_CAP0 (i : Nat) : Nat := 0x400F0 + i * 0x40
def Reg.HM_EVT_CAP1 (i : Nat) : Nat := 0x400F4 + i * 0x40
def Reg.HM_EVT_CAP2 (i : Nat) : Nat := 0x400F8 + i * 0x40
def Reg.HM_EVT_CAP_STAT (i : Nat) : Nat := 0x400FC + i * 0x40
def Reg.HM_LAUNCH_CTRL : Nat := 0x40140
def Reg.HM_GATE_CTRL (i : Nat) : Nat := 0x41000 + i * 0x20
def Reg.HM_GATE_CYCLE (i : Nat) : Nat := 0x41004 + i * 0x20
def Reg.HM_GATE_BASE0 (i : Nat) : Nat := 0x41010 + i * 0x20
def Reg.HM_GATE_BASE1 (i : Nat) : Nat := 0x41014 + i * 0x20
def Reg.HM_GATE_BASE2 (i : Nat) : Nat := 0x41018 + i * 0x20
def Reg.HM_GATE_ENT (i : Nat) : Nat := 0x44000 + i * 0x4
def Reg.TW_CFG : Nat := 0x50000
def Reg.TW_PAIR_ID : Nat := 0x50004
def Reg.TW_HB_CFG : Nat := 0x50008
def Reg.TW_LEASE_CFG : Nat := 0x5000C
def Reg.TW_STATUS : Nat := 0x50010
def Reg.TW_EPOCH_SEEN : Nat := 0x50014
def Reg.TW_EPOCH_HELD : Nat := 0x50018
def Reg.TW_LEASE_REMAIN : Nat := 0x5001C
def Reg.TW_LEASE_CMD : Nat := 0x50020
def Reg.TW_LEASE_ARG : Nat := 0x50024
def Reg.TW_INT_STATUS : Nat := 0x50028
def Reg.TW_INT_EN : Nat := 0x5002C
def Reg.TW_PEER_JN_HEAD0 : Nat := 0x50030
def Reg.TW_PEER_JN_HEAD1 : Nat := 0x50034
def Reg.TW_PEER_EPOCH : Nat := 0x50038
def Reg.TW_GEN_CFG : Nat := 0x51000
def Reg.TW_MIRROR_CTRL : Nat := 0x51004
def Reg.TW_MIRROR_STATUS : Nat := 0x51008
def Reg.TW_TRUNKGEN (i : Nat) : Nat := 0x51040 + i * 0x4
def Reg.TW_REC_PORT (i : Nat) : Nat := 0x51080 + i * 0x4
def Reg.TW_REC_PROF (i : Nat) : Nat := 0x510C0 + i * 0x4
def Reg.TW_SGL_RING (i : Nat) : Nat := 0x51200 + i * 0x4
def Reg.TW_SGL_MEP (i : Nat) : Nat := 0x51400 + i * 0x4
def Reg.TW_GEN (i : Nat) : Nat := 0x60000 + i * 0x4
def Reg.TW_REC (i : Nat) : Nat := 0x70000 + i * 0x4
def Reg.HI_RING_BASE_LO (i : Nat) : Nat := 0x80000 + i * 0x40
def Reg.HI_RING_BASE_HI (i : Nat) : Nat := 0x80004 + i * 0x40
def Reg.HI_RING_CFG (i : Nat) : Nat := 0x80008 + i * 0x40
def Reg.HI_RING_CFG2 (i : Nat) : Nat := 0x8000C + i * 0x40
def Reg.HI_RING_CHAIN_TO (i : Nat) : Nat := 0x80010 + i * 0x40
def Reg.HI_RING_STATUS (i : Nat) : Nat := 0x80014 + i * 0x40
def Reg.HI_RING_DB (i : Nat) : Nat := 0x80018 + i * 0x40
def Reg.HI_RING_CTRL (i : Nat) : Nat := 0x8001C + i * 0x40
def Reg.HI_RING_ABORT (i : Nat) : Nat := 0x80020 + i * 0x40
def Reg.HI_RING_PENDING (i : Nat) : Nat := 0x80024 + i * 0x40
def Reg.HI_SRC_MAP (i : Nat) : Nat := 0xC0000 + i * 0x4
def Reg.HI_SRC_PEND (i : Nat) : Nat := 0xC0800 + i * 0x4
def Reg.HI_VEC_EOI : Nat := 0xC0900
def Reg.HI_INT_STATUS : Nat := 0xC0910
def Reg.HI_INT_EN : Nat := 0xC0914
def Reg.HI_ERR_RING : Nat := 0xC0918
def Reg.PT_MODE (p : Nat) : Nat := 0x100000 + p * 0x1000 + 0x0
def Reg.PT_CTRL (p : Nat) : Nat := 0x100000 + p * 0x1000 + 0x4
def Reg.PT_STATUS (p : Nat) : Nat := 0x100000 + p * 0x1000 + 0x8
def Reg.PT_INT_STATUS (p : Nat) : Nat := 0x100000 + p * 0x1000 + 0xC
def Reg.PT_INT_EN (p : Nat) : Nat := 0x100000 + p * 0x1000 + 0x10
def Reg.PT_MTU (p : Nat) : Nat := 0x100000 + p * 0x1000 + 0x14
def Reg.PT_DEBOUNCE (p : Nat) : Nat := 0x100000 + p * 0x1000 + 0x18
def Reg.PT_LPI_CTRL (p : Nat) : Nat := 0x100000 + p * 0x1000 + 0x1C
def Reg.PT_PAUSE_CTRL (p : Nat) : Nat := 0x100000 + p * 0x1000 + 0x20
def Reg.PT_PFC_MAP (p : Nat) : Nat := 0x100000 + p * 0x1000 + 0x24
def Reg.PT_TXEQ (p : Nat) : Nat := 0x100000 + p * 0x1000 + 0x28
def Reg.PT_LT_CTRL (p : Nat) : Nat := 0x100000 + p * 0x1000 + 0x2C
def Reg.PT_HOLD (p : Nat) : Nat := 0x100000 + p * 0x1000 + 0x40
def Reg.PT_TS_CTRL (p : Nat) : Nat := 0x100000 + p * 0x1000 + 0x100
def Reg.PT_TS_ASYM (p : Nat) : Nat := 0x100000 + p * 0x1000 + 0x104
def Reg.PT_TS_CONST (p : Nat) : Nat := 0x100000 + p * 0x1000 + 0x108
def Reg.PT_TS_VAR (p : Nat) : Nat := 0x100000 + p * 0x1000 + 0x10C
def Reg.LF_CTRL (p : Nat) : Nat := 0x100000 + p * 0x1000 + 0x800
def Reg.LF_ALIGN (p : Nat) : Nat := 0x100000 + p * 0x1000 + 0x804
def Reg.LF_STATUS (p : Nat) : Nat := 0x100000 + p * 0x1000 + 0x808
def Reg.LF_INT_STATUS (p : Nat) : Nat := 0x100000 + p * 0x1000 + 0x80C
def Reg.LF_INT_EN (p : Nat) : Nat := 0x100000 + p * 0x1000 + 0x810
def Reg.LF_HMC_TX_CTRL (p : Nat) : Nat := 0x100000 + p * 0x1000 + 0x814
def Reg.LF_HMC_RX_STAT (p : Nat) : Nat := 0x100000 + p * 0x1000 + 0x818
def Reg.LF_TIME_RX (p : Nat) (i : Nat) : Nat := 0x100000 + p * 0x1000 + 0x880 + i * 0x4
def Reg.LF_MARK_TX (p : Nat) (i : Nat) : Nat := 0x100000 + p * 0x1000 + 0x8B0 + i * 0x4
def Reg.LF_MARK_RX (p : Nat) (i : Nat) : Nat := 0x100000 + p * 0x1000 + 0x8C0 + i * 0x4
def Reg.LF_MARK_RX_SF (p : Nat) : Nat := 0x100000 + p * 0x1000 + 0x8CC
def Reg.LF_HMC_TX (p : Nat) (i : Nat) : Nat := 0x100000 + p * 0x1000 + 0x900 + i * 0x4
def Reg.LF_HMC_RX (p : Nat) (i : Nat) : Nat := 0x100000 + p * 0x1000 + 0xB40 + i * 0x4
def Reg.LF_DEF_CTRL (p : Nat) : Nat := 0x100000 + p * 0x1000 + 0xD80
def Reg.LF_FAIL_TIME (p : Nat) : Nat := 0x100000 + p * 0x1000 + 0xD84
def Reg.LF_DEG_CTRL (p : Nat) : Nat := 0x100000 + p * 0x1000 + 0xD88
def Reg.LF_DEFECTS (p : Nat) : Nat := 0x100000 + p * 0x1000 + 0xD8C
def Reg.LF_DEF_INT_STATUS (p : Nat) : Nat := 0x100000 + p * 0x1000 + 0xD90
def Reg.LF_DEF_INT_EN (p : Nat) : Nat := 0x100000 + p * 0x1000 + 0xD94
def Reg.LF_PM_CTRL (p : Nat) : Nat := 0x100000 + p * 0x1000 + 0xD98
def Reg.LF_ETH_SES (p : Nat) : Nat := 0x100000 + p * 0x1000 + 0xD9C
def Reg.LF_TCA15 (p : Nat) (i : Nat) : Nat := 0x100000 + p * 0x1000 + 0xDA0 + i * 0x4
def Reg.LF_TCA24 (p : Nat) (i : Nat) : Nat := 0x100000 + p * 0x1000 + 0xDB0 + i * 0x4
def Reg.LF_TCA_STATUS (p : Nat) : Nat := 0x100000 + p * 0x1000 + 0xDC0
def Reg.LF_PM_SEL (p : Nat) : Nat := 0x100000 + p * 0x1000 + 0xDC4
def Reg.LF_PM_NOW (p : Nat) : Nat := 0x100000 + p * 0x1000 + 0xDC8
def Reg.LF_PM_WIN (p : Nat) (i : Nat) : Nat := 0x100000 + p * 0x1000 + 0xDD0 + i * 0x4
def Reg.LF_RPT_RX (p : Nat) (i : Nat) : Nat := 0x100000 + p * 0x1000 + 0xE00 + i * 0x4
def Reg.PP_TPID (p : Nat) (i : Nat) : Nat := 0x400000 + p * 0x40000 + 0x0 + i * 0x4
def Reg.PP_PARSE_CFG (p : Nat) : Nat := 0x400000 + p * 0x40000 + 0x10
def Reg.PP_PORT_QOS (p : Nat) (i : Nat) : Nat := 0x400000 + p * 0x40000 + 0x40 + i * 0x4
def Reg.PP_PCP_MAP (p : Nat) (i : Nat) : Nat := 0x400000 + p * 0x40000 + 0x100 + i * 0x4
def Reg.PP_DSCP_MAP (p : Nat) (i : Nat) : Nat := 0x400000 + p * 0x40000 + 0x200 + i * 0x4
def Reg.LP_FG_CMD (p : Nat) : Nat := 0x800000 + p * 0x100000 + 0x80000
def Reg.LP_FG_BANK (p : Nat) (i : Nat) : Nat := 0x800000 + p * 0x100000 + 0x80040 + i * 0x4
def Reg.LP_FG_VALUE (p : Nat) (i : Nat) : Nat := 0x800000 + p * 0x100000 + 0x80100 + i * 0x4
def Reg.LP_FG_CARE (p : Nat) (i : Nat) : Nat := 0x800000 + p * 0x100000 + 0x80180 + i * 0x4
def Reg.LP_FG_ACTION (p : Nat) (i : Nat) : Nat := 0x800000 + p * 0x100000 + 0x80200 + i * 0x4
def Reg.LP_FG_DEFAULT (p : Nat) (i : Nat) : Nat := 0x800000 + p * 0x100000 + 0x80210 + i * 0x4
def Reg.LP_PM_CMD (p : Nat) : Nat := 0x800000 + p * 0x100000 + 0x90000
def Reg.LP_PM_VALUE (p : Nat) (i : Nat) : Nat := 0x800000 + p * 0x100000 + 0x90010 + i * 0x4
def Reg.LP_PM_CARE (p : Nat) (i : Nat) : Nat := 0x800000 + p * 0x100000 + 0x90020 + i * 0x4
def Reg.LP_PM_CFG (p : Nat) : Nat := 0x800000 + p * 0x100000 + 0x90030
def Reg.LP_PM_PORT (p : Nat) : Nat := 0x800000 + p * 0x100000 + 0x90034
def Reg.LP_HASH_SEED0 (p : Nat) : Nat := 0x800000 + p * 0x100000 + 0x91000
def Reg.LP_HASH_SEED1 (p : Nat) : Nat := 0x800000 + p * 0x100000 + 0x91004
def Reg.LP_IND_CFG (p : Nat) (i : Nat) : Nat := 0x800000 + p * 0x100000 + 0x91100 + i * 0x4
def Reg.LP_IND (p : Nat) (i : Nat) : Nat := 0x800000 + p * 0x100000 + 0xA0000 + i * 0x4
def Reg.LP_TBL_CMD (p : Nat) (i : Nat) : Nat := 0x800000 + p * 0x100000 + 0xB0000 + i * 0x4
def Reg.LP_TBL_GO (p : Nat) : Nat := 0x800000 + p * 0x100000 + 0xB0020
def Reg.LP_TBL_RES (p : Nat) (i : Nat) : Nat := 0x800000 + p * 0x100000 + 0xB0040 + i * 0x4
def Reg.LP_MAC_SEED (p : Nat) : Nat := 0x800000 + p * 0x100000 + 0xB0100
def Reg.LP_LEARN_CTRL (p : Nat) : Nat := 0x800000 + p * 0x100000 + 0xB0104
def Reg.LP_LEARN_RATE (p : Nat) : Nat := 0x800000 + p * 0x100000 + 0xB0108
def Reg.LP_AGE_CTRL (p : Nat) : Nat := 0x800000 + p * 0x100000 + 0xB010C
def Reg.LP_MAC_USAGE (p : Nat) : Nat := 0x800000 + p * 0x100000 + 0xB0110
def Reg.LP_PORT_LEARN (p : Nat) (i : Nat) : Nat := 0x800000 + p * 0x100000 + 0xB0140 + i * 0x4
def Reg.CB_REGION (i : Nat) : Nat := 0xC00100 + i * 0x4
def Reg.CB_REGION_FREE (i : Nat) : Nat := 0xC00140 + i * 0x4
def Reg.CB_WRED_SEED (i : Nat) : Nat := 0xC00180 + i * 0x4
def Reg.CB_QPROF0 (i : Nat) : Nat := 0xC01000 + i * 0x10
def Reg.CB_QPROF1 (i : Nat) : Nat := 0xC01004 + i * 0x10
def Reg.CB_QPROF2 (i : Nat) : Nat := 0xC01008 + i * 0x10
def Reg.CB_WRED0 (i : Nat) : Nat := 0xC02000 + i * 0x10
def Reg.CB_WRED1 (i : Nat) : Nat := 0xC02004 + i * 0x10
def Reg.CB_WRED2 (i : Nat) : Nat := 0xC02008 + i * 0x10
def Reg.CB_QCFG (i : Nat) : Nat := 0xC10000 + i * 0x4
def Reg.CB_QSTAT (i : Nat) : Nat := 0xC40000 + i * 0x4
def Reg.CB_POOL_CFG (i : Nat) : Nat := 0xCC0000 + i * 0x10
def Reg.CB_POOL_FREE (i : Nat) : Nat := 0xCC0004 + i * 0x10
def Reg.CB_POOL_WM (i : Nat) : Nat := 0xCC0008 + i * 0x10
def Reg.CB_OWNER_USED (i : Nat) : Nat := 0xCC0400 + i * 0x4
def Reg.CB_ANVIL_POOL : Nat := 0xCC0500
def Reg.CB_CELL_CMD : Nat := 0xCC0600
def Reg.CB_CELL_RES : Nat := 0xCC0604
def Reg.CB_CELL_LINK : Nat := 0xCC0608
def Reg.CB_PM_ERR_HEAD (i : Nat) : Nat := 0xCC0700 + i * 0x4
def Reg.CB_PM_ERR_POP : Nat := 0xCC0720
def Reg.CB_PM_INT_STATUS : Nat := 0xCC0800
def Reg.CB_PM_INT_EN : Nat := 0xCC0804
def Reg.CB_POOL_EMPTY (i : Nat) : Nat := 0xCC0810 + i * 0x4
def Reg.FB_ARB_CTRL : Nat := 0xD00000
def Reg.FB_ARB_PRIO : Nat := 0xD00004
def Reg.FB_MC_REC : Nat := 0xD00008
def Reg.FB_MODE_CTRL : Nat := 0xD00100
def Reg.FB_MODE_STATUS : Nat := 0xD00104
def Reg.FB_FENCE (i : Nat) : Nat := 0xD00110 + i * 0x4
def Reg.FB_FDY_FREE : Nat := 0xD00124
def Reg.FB_INT_STATUS : Nat := 0xD00128
def Reg.FB_INT_EN : Nat := 0xD0012C
def Reg.FB_TEST_FAIL : Nat := 0xD00130
def Reg.FB_TEST_SKIP : Nat := 0xD00134
def Reg.FB_MIRROR_CTRL (i : Nat) : Nat := 0xD00800 + i * 0x10
def Reg.FB_MIRROR_TRUNC (i : Nat) : Nat := 0xD00804 + i * 0x10
def Reg.FB_MIRROR_STAT (i : Nat) : Nat := 0xD00808 + i * 0x10
def Reg.PL_DCLASS_MAP : Nat := 0x1000000
def Reg.PL_LEN_PROF (i : Nat) : Nat := 0x1000040 + i * 0x4
def Reg.PL_UPOL_MAP (i : Nat) : Nat := 0x1000080 + i * 0x4
def Reg.PL_LEVEL_CMD : Nat := 0x1000100
def Reg.PL_SAMPLE_CTRL : Nat := 0x1000110
def Reg.PL_SAMPLE_FIRST : Nat := 0x1000114
def Reg.PL_SAMPLE_LAST : Nat := 0x1000118
def Reg.PL_INT_STATUS : Nat := 0x1000120
def Reg.PL_INT_EN : Nat := 0x1000124
def Reg.PL_MOVE_ERR : Nat := 0x1000128
def Reg.PL_L0_CFG (i : Nat) : Nat := 0x1010000 + i * 0x20
def Reg.PL_L0_RATE (i : Nat) : Nat := 0x1010004 + i * 0x20
def Reg.PL_L0_BURST (i : Nat) : Nat := 0x1010008 + i * 0x20
def Reg.PL_L0_LEVEL (i : Nat) : Nat := 0x101000C + i * 0x20
def Reg.PL_PCQ_CFG (i : Nat) : Nat := 0x1012000 + i * 0x20
def Reg.PL_PCQ_RATE (i : Nat) : Nat := 0x1012004 + i * 0x20
def Reg.PL_PCQ_BURST (i : Nat) : Nat := 0x1012008 + i * 0x20
def Reg.PL_PCQ_LEVEL (i : Nat) : Nat := 0x101200C + i * 0x20
def Reg.PL_L1_CFG (i : Nat) : Nat := 0x1020000 + i * 0x20
def Reg.PL_L1_RATE (i : Nat) : Nat := 0x1020004 + i * 0x20
def Reg.PL_L1_BURST (i : Nat) : Nat := 0x1020008 + i * 0x20
def Reg.PL_L1_LEVEL (i : Nat) : Nat := 0x102000C + i * 0x20
def Reg.PL_L1_PARENT (i : Nat) : Nat := 0x1020010 + i * 0x20
def Reg.PL_L2_CFG (i : Nat) : Nat := 0x1040000 + i * 0x20
def Reg.PL_L2_RATE (i : Nat) : Nat := 0x1040004 + i * 0x20
def Reg.PL_L2_BURST (i : Nat) : Nat := 0x1040008 + i * 0x20
def Reg.PL_L2_LEVEL (i : Nat) : Nat := 0x104000C + i * 0x20
def Reg.PL_L2_PARENT (i : Nat) : Nat := 0x1040010 + i * 0x20
def Reg.PL_L3_CFG (i : Nat) : Nat := 0x1100000 + i * 0x20
def Reg.PL_L3_RATE (i : Nat) : Nat := 0x1100004 + i * 0x20
def Reg.PL_L3_BURST (i : Nat) : Nat := 0x1100008 + i * 0x20
def Reg.PL_L3_LEVEL (i : Nat) : Nat := 0x110000C + i * 0x20
def Reg.PL_POL_CFG (i : Nat) : Nat := 0x1400000 + i * 0x20
def Reg.PL_POL_C_RATE (i : Nat) : Nat := 0x1400004 + i * 0x20
def Reg.PL_POL_C_BURST (i : Nat) : Nat := 0x1400008 + i * 0x20
def Reg.PL_POL_P_RATE (i : Nat) : Nat := 0x140000C + i * 0x20
def Reg.PL_POL_P_BURST (i : Nat) : Nat := 0x1400010 + i * 0x20
def Reg.PL_POL_C_LEVEL (i : Nat) : Nat := 0x1400014 + i * 0x20
def Reg.PL_POL_P_LEVEL (i : Nat) : Nat := 0x1400018 + i * 0x20
def Reg.PL_SOJ_WM (i : Nat) : Nat := 0x1600000 + i * 0x4
def Reg.AV_INT_STATUS : Nat := 0x3000000
def Reg.AV_INT_EN : Nat := 0x3000004
def Reg.AV_MEP_MAC0 : Nat := 0x3000010
def Reg.AV_MEP_MAC1 : Nat := 0x3000014
def Reg.AV_PM_CTRL : Nat := 0x3000100
def Reg.AV_MEP_CHG (i : Nat) : Nat := 0x3000200 + i * 0x4
def Reg.AV_MEP_CFG (i : Nat) : Nat := 0x3010000 + i * 0x40
def Reg.AV_MEP_IDS (i : Nat) : Nat := 0x3010004 + i * 0x40
def Reg.AV_MEP_PORT (i : Nat) : Nat := 0x3010008 + i * 0x40
def Reg.AV_MEP_STATUS (i : Nat) : Nat := 0x301000C + i * 0x40
def Reg.AV_MEP_MAID0 (i : Nat) : Nat := 0x3010010 + i * 0x40
def Reg.AV_MEP_MAID1 (i : Nat) : Nat := 0x3010014 + i * 0x40
def Reg.AV_MEP_MAID2 (i : Nat) : Nat := 0x3010018 + i * 0x40
def Reg.AV_MEP_MAID3 (i : Nat) : Nat := 0x301001C + i * 0x40
def Reg.AV_MEP_MAID4 (i : Nat) : Nat := 0x3010020 + i * 0x40
def Reg.AV_MEP_MAID5 (i : Nat) : Nat := 0x3010024 + i * 0x40
def Reg.AV_MEP_MAID6 (i : Nat) : Nat := 0x3010028 + i * 0x40
def Reg.AV_MEP_MAID7 (i : Nat) : Nat := 0x301002C + i * 0x40
def Reg.AV_MEP_MAID8 (i : Nat) : Nat := 0x3010030 + i * 0x40
def Reg.AV_MEP_MAID9 (i : Nat) : Nat := 0x3010034 + i * 0x40
def Reg.AV_MEP_MAID10 (i : Nat) : Nat := 0x3010038 + i * 0x40
def Reg.AV_MEP_MAID11 (i : Nat) : Nat := 0x301003C + i * 0x40
def Reg.DB_CTRL : Nat := 0x3100000
def Reg.DB_TRIG : Nat := 0x3100004
def Reg.DB_TRACE_STAT : Nat := 0x3100008
def Reg.DB_TRACE_HEAD (i : Nat) : Nat := 0x3100020 + i * 0x4
def Reg.DB_SNAP_CTRL : Nat := 0x3100040
def Reg.DB_INT_STATUS : Nat := 0x3100080
def Reg.DB_INT_EN : Nat := 0x3100084
def Reg.DB_SNAP_BUF (i : Nat) : Nat := 0x3101000 + i * 0x4

/-! ### Fields of the registers -/

def Fld.GL_ID_DEVICE : Fld := ⟨Reg.GL_ID, 16, 16⟩
def Fld.GL_ID_REVISION : Fld := ⟨Reg.GL_ID, 8, 8⟩
def Fld.GL_INT_CTRL_PIN_EN : Fld := ⟨Reg.GL_INT_CTRL, 0, 1⟩
def Fld.GL_INT_STATUS_SLOT_FAIL : Fld := ⟨Reg.GL_INT_STATUS, 2, 1⟩
def Fld.GL_INT_STATUS_WAIT_IMAGE : Fld := ⟨Reg.GL_INT_STATUS, 1, 1⟩
def Fld.GL_INT_STATUS_STAGE_CHG : Fld := ⟨Reg.GL_INT_STATUS, 0, 1⟩
def Fld.GL_INT_EN_EN : Fld := ⟨Reg.GL_INT_EN, 0, 3⟩
def Fld.GL_RESET_CAUSE_PERST : Fld := ⟨Reg.GL_RESET_CAUSE, 4, 1⟩
def Fld.GL_RESET_CAUSE_MAIN_LOSS : Fld := ⟨Reg.GL_RESET_CAUSE, 3, 1⟩
def Fld.GL_RESET_CAUSE_SYS_RESET : Fld := ⟨Reg.GL_RESET_CAUSE, 2, 1⟩
def Fld.GL_RESET_CAUSE_AON_RESET : Fld := ⟨Reg.GL_RESET_CAUSE, 1, 1⟩
def Fld.GL_RESET_CAUSE_POWER_ON : Fld := ⟨Reg.GL_RESET_CAUSE, 0, 1⟩
def Fld.GL_BOOT_STATUS_SLOT1_STATUS : Fld := ⟨Reg.GL_BOOT_STATUS, 24, 7⟩
def Fld.GL_BOOT_STATUS_SLOT0_STATUS : Fld := ⟨Reg.GL_BOOT_STATUS, 16, 7⟩
def Fld.GL_BOOT_STATUS_EARLY_FWD : Fld := ⟨Reg.GL_BOOT_STATUS, 8, 1⟩
def Fld.GL_BOOT_STATUS_SOURCE : Fld := ⟨Reg.GL_BOOT_STATUS, 6, 2⟩
def Fld.GL_BOOT_STATUS_BOOT_SRC : Fld := ⟨Reg.GL_BOOT_STATUS, 4, 2⟩
def Fld.GL_BOOT_STATUS_STAGE : Fld := ⟨Reg.GL_BOOT_STATUS, 0, 4⟩
def Fld.GL_BOOT_CTRL_RELEASE : Fld := ⟨Reg.GL_BOOT_CTRL, 31, 1⟩
def Fld.GL_IMAGE_SEQ_SEQ : Fld := ⟨Reg.GL_IMAGE_SEQ, 0, 32⟩
def Fld.GL_IMAGE_INFO_SVN : Fld := ⟨Reg.GL_IMAGE_INFO, 8, 8⟩
def Fld.GL_IMAGE_INFO_REGIONS : Fld := ⟨Reg.GL_IMAGE_INFO, 0, 8⟩
def Fld.GL_IMAGE_DIGEST_DIGEST (i : Nat) : Fld := ⟨Reg.GL_IMAGE_DIGEST i, 0, 32⟩
def Fld.CM_COMMIT_MASK : Fld := ⟨Reg.CM_COMMIT, 0, 32⟩
def Fld.CM_REVERT_MASK : Fld := ⟨Reg.CM_REVERT, 0, 32⟩
def Fld.CM_PENDING_GROUPS : Fld := ⟨Reg.CM_PENDING, 0, 32⟩
def Fld.CM_UNIT_GROUP_GROUP (i : Nat) : Fld := ⟨Reg.CM_UNIT_GROUP i, 0, 5⟩
def Fld.CM_INT_STATUS_JN_UNREAD_LOST : Fld := ⟨Reg.CM_INT_STATUS, 2, 1⟩
def Fld.CM_INT_STATUS_JN_LOST : Fld := ⟨Reg.CM_INT_STATUS, 1, 1⟩
def Fld.CM_INT_STATUS_ACCESS_ERR : Fld := ⟨Reg.CM_INT_STATUS, 0, 1⟩
def Fld.CM_INT_EN_EN : Fld := ⟨Reg.CM_INT_EN, 0, 3⟩
def Fld.CM_ACC_ERR_ADDR_ADDR : Fld := ⟨Reg.CM_ACC_ERR_ADDR, 0, 26⟩
def Fld.CM_ACC_ERR_INFO_VALID : Fld := ⟨Reg.CM_ACC_ERR_INFO, 31, 1⟩
def Fld.CM_ACC_ERR_INFO_KIND : Fld := ⟨Reg.CM_ACC_ERR_INFO, 28, 3⟩
def Fld.CM_ACC_ERR_INFO_INITIATOR : Fld := ⟨Reg.CM_ACC_ERR_INFO, 26, 2⟩
def Fld.CM_ACC_ERR_INFO_WRITE : Fld := ⟨Reg.CM_ACC_ERR_INFO, 25, 1⟩
def Fld.CM_ACC_ERR_INFO_BYTE_EN : Fld := ⟨Reg.CM_ACC_ERR_INFO, 0, 8⟩
def Fld.CM_TIMED_CTRL_ARM (i : Nat) : Fld := ⟨Reg.CM_TIMED_CTRL i, 31, 1⟩
def Fld.CM_TIMED_CTRL_CANCEL (i : Nat) : Fld := ⟨Reg.CM_TIMED_CTRL i, 30, 1⟩
def Fld.CM_TIMED_CTRL_RESULT (i : Nat) : Fld := ⟨Reg.CM_TIMED_CTRL i, 28, 2⟩
def Fld.CM_TIMED_CTRL_LATE_FIRE (i : Nat) : Fld := ⟨Reg.CM_TIMED_CTRL i, 27, 1⟩
def Fld.CM_TIMED_CTRL_LATE (i : Nat) : Fld := ⟨Reg.CM_TIMED_CTRL i, 26, 1⟩
def Fld.CM_TIMED_MASK_MASK (i : Nat) : Fld := ⟨Reg.CM_TIMED_MASK i, 0, 32⟩
def Fld.CM_TIMED_TIME0_NS (i : Nat) : Fld := ⟨Reg.CM_TIMED_TIME0 i, 0, 30⟩
def Fld.CM_TIMED_TIME1_SEC (i : Nat) : Fld := ⟨Reg.CM_TIMED_TIME1 i, 0, 32⟩
def Fld.CM_TIMED_TIME2_FRAC (i : Nat) : Fld := ⟨Reg.CM_TIMED_TIME2 i, 16, 16⟩
def Fld.CM_TIMED_TIME2_SECHI (i : Nat) : Fld := ⟨Reg.CM_TIMED_TIME2 i, 0, 16⟩
def Fld.JN_HEAD0_HEAD : Fld := ⟨Reg.JN_HEAD0, 0, 32⟩
def Fld.JN_HEAD1_HEAD : Fld := ⟨Reg.JN_HEAD1, 0, 16⟩
def Fld.JN_WRAPS_WRAPS : Fld := ⟨Reg.JN_WRAPS, 0, 32⟩
def Fld.JN_LOST_RECORDS_LOST : Fld := ⟨Reg.JN_LOST_RECORDS, 0, 32⟩
def Fld.JN_SEL0_SEQ : Fld := ⟨Reg.JN_SEL0, 0, 32⟩
def Fld.JN_SEL1_SEQ : Fld := ⟨Reg.JN_SEL1, 0, 16⟩
def Fld.JN_SEL_STATUS_STATUS : Fld := ⟨Reg.JN_SEL_STATUS, 0, 2⟩
def Fld.JN_REC_REC (i : Nat) : Fld := ⟨Reg.JN_REC i, 0, 32⟩
def Fld.JN_MARK0_MARK : Fld := ⟨Reg.JN_MARK0, 0, 32⟩
def Fld.JN_MARK1_MARK : Fld := ⟨Reg.JN_MARK1, 0, 16⟩
def Fld.SG_STATUS_STATE : Fld := ⟨Reg.SG_STATUS, 30, 2⟩
def Fld.SG_STATUS_DEBUG : Fld := ⟨Reg.SG_STATUS, 28, 2⟩
def Fld.SG_STATUS_MAKER_USED : Fld := ⟨Reg.SG_STATUS, 27, 1⟩
def Fld.SG_STATUS_SEED_OFF : Fld := ⟨Reg.SG_STATUS, 26, 1⟩
def Fld.SG_STATUS_FUSE_BUSY : Fld := ⟨Reg.SG_STATUS, 25, 1⟩
def Fld.SG_STATUS_SLOT : Fld := ⟨Reg.SG_STATUS, 23, 2⟩
def Fld.SG_STATUS_SVN_COUNT : Fld := ⟨Reg.SG_STATUS, 0, 7⟩
def Fld.SG_CMD_GO : Fld := ⟨Reg.SG_CMD, 31, 1⟩
def Fld.SG_CMD_OP : Fld := ⟨Reg.SG_CMD, 29, 2⟩
def Fld.SG_CMD_OVERRUN : Fld := ⟨Reg.SG_CMD, 28, 1⟩
def Fld.SG_CMD_RESULT : Fld := ⟨Reg.SG_CMD, 0, 8⟩
def Fld.SG_OBSERVE_EN : Fld := ⟨Reg.SG_OBSERVE, 0, 1⟩
def Fld.SG_UID_UID (i : Nat) : Fld := ⟨Reg.SG_UID i, 0, 32⟩
def Fld.SG_NONCE_NONCE (i : Nat) : Fld := ⟨Reg.SG_NONCE i, 0, 32⟩
def Fld.SG_ID_PK_PK (i : Nat) : Fld := ⟨Reg.SG_ID_PK i, 0, 32⟩
def Fld.SG_SEED_SEED (i : Nat) : Fld := ⟨Reg.SG_SEED i, 0, 32⟩
def Fld.SG_INT_STATUS_TOKEN_REFUSED : Fld := ⟨Reg.SG_INT_STATUS, 3, 1⟩
def Fld.SG_INT_STATUS_DEBUG_CHG : Fld := ⟨Reg.SG_INT_STATUS, 2, 1⟩
def Fld.SG_INT_STATUS_STATE_CHG : Fld := ⟨Reg.SG_INT_STATUS, 1, 1⟩
def Fld.SG_INT_STATUS_CMD_DONE : Fld := ⟨Reg.SG_INT_STATUS, 0, 1⟩
def Fld.SG_INT_EN_EN : Fld := ⟨Reg.SG_INT_EN, 0, 4⟩
def Fld.SG_TOKEN_BUF_BYTES (i : Nat) : Fld := ⟨Reg.SG_TOKEN_BUF i, 0, 32⟩
def Fld.PW_CTRL_TARGET : Fld := ⟨Reg.PW_CTRL, 0, 2⟩
def Fld.PW_STATUS_STATE : Fld := ⟨Reg.PW_STATUS, 30, 2⟩
def Fld.PW_STATUS_KEEP_READY : Fld := ⟨Reg.PW_STATUS, 29, 1⟩
def Fld.PW_STATUS_MAIN_OK : Fld := ⟨Reg.PW_STATUS, 28, 1⟩
def Fld.PW_STATUS_LANE1_OFF : Fld := ⟨Reg.PW_STATUS, 16, 8⟩
def Fld.PW_STATUS_PG_GATED : Fld := ⟨Reg.PW_STATUS, 8, 8⟩
def Fld.PW_BANK_RET_BANKS : Fld := ⟨Reg.PW_BANK_RET, 0, 32⟩
def Fld.PW_DOZE_CFG_LANE_IDLE_US : Fld := ⟨Reg.PW_DOZE_CFG, 24, 8⟩
def Fld.PW_DOZE_CFG_LANE_WAKE : Fld := ⟨Reg.PW_DOZE_CFG, 16, 8⟩
def Fld.PW_DOZE_CFG_BANK_IDLE_US : Fld := ⟨Reg.PW_DOZE_CFG, 8, 8⟩
def Fld.PW_DOZE_CFG_PG_IDLE_US : Fld := ⟨Reg.PW_DOZE_CFG, 0, 8⟩
def Fld.PW_INT_STATUS_MAIN_LOST : Fld := ⟨Reg.PW_INT_STATUS, 3, 1⟩
def Fld.PW_INT_STATUS_WAKE_OVF : Fld := ⟨Reg.PW_INT_STATUS, 2, 1⟩
def Fld.PW_INT_STATUS_KEEP_READY : Fld := ⟨Reg.PW_INT_STATUS, 1, 1⟩
def Fld.PW_INT_STATUS_STATE_CHG : Fld := ⟨Reg.PW_INT_STATUS, 0, 1⟩
def Fld.PW_INT_EN_EN : Fld := ⟨Reg.PW_INT_EN, 0, 4⟩
def Fld.HM_TIME_TIME (i : Nat) : Fld := ⟨Reg.HM_TIME i, 0, 32⟩
def Fld.HM_SET0_NS : Fld := ⟨Reg.HM_SET0, 0, 30⟩
def Fld.HM_SET1_SEC : Fld := ⟨Reg.HM_SET1, 0, 32⟩
def Fld.HM_SET2_FRAC : Fld := ⟨Reg.HM_SET2, 16, 16⟩
def Fld.HM_SET2_SECHI : Fld := ⟨Reg.HM_SET2, 0, 16⟩
def Fld.HM_SET_CTRL_GO : Fld := ⟨Reg.HM_SET_CTRL, 31, 1⟩
def Fld.HM_SET_CTRL_OP : Fld := ⟨Reg.HM_SET_CTRL, 29, 2⟩
def Fld.HM_SET_CTRL_OVERRUN : Fld := ⟨Reg.HM_SET_CTRL, 28, 1⟩
def Fld.HM_ADDEND0_LOW : Fld := ⟨Reg.HM_ADDEND0, 0, 32⟩
def Fld.HM_ADDEND1_HIGH : Fld := ⟨Reg.HM_ADDEND1, 0, 8⟩
def Fld.HM_ADDEND_ACT0_LOW : Fld := ⟨Reg.HM_ADDEND_ACT0, 0, 32⟩
def Fld.HM_ADDEND_ACT1_HIGH : Fld := ⟨Reg.HM_ADDEND_ACT1, 0, 8⟩
def Fld.HM_SERVO_CTRL_EN : Fld := ⟨Reg.HM_SERVO_CTRL, 31, 1⟩
def Fld.HM_SERVO_CTRL_SRC : Fld := ⟨Reg.HM_SERVO_CTRL, 28, 3⟩
def Fld.HM_SERVO_CTRL_CRF_PORT : Fld := ⟨Reg.HM_SERVO_CTRL, 16, 7⟩
def Fld.HM_SERVO_CTRL_AVG : Fld := ⟨Reg.HM_SERVO_CTRL, 12, 4⟩
def Fld.HM_SERVO_CTRL_KP : Fld := ⟨Reg.HM_SERVO_CTRL, 8, 4⟩
def Fld.HM_SERVO_CTRL_KI : Fld := ⟨Reg.HM_SERVO_CTRL, 4, 4⟩
def Fld.HM_SERVO_CTRL_STEP_EN : Fld := ⟨Reg.HM_SERVO_CTRL, 3, 1⟩
def Fld.HM_SERVO_THR_TIMEOUT : Fld := ⟨Reg.HM_SERVO_THR, 24, 8⟩
def Fld.HM_SERVO_THR_LOCK_CNT : Fld := ⟨Reg.HM_SERVO_THR, 20, 4⟩
def Fld.HM_SERVO_THR_UNLOCK : Fld := ⟨Reg.HM_SERVO_THR, 10, 10⟩
def Fld.HM_SERVO_THR_LOCK : Fld := ⟨Reg.HM_SERVO_THR, 0, 10⟩
def Fld.HM_STEP_NS_STEP_NS : Fld := ⟨Reg.HM_STEP_NS, 0, 32⟩
def Fld.HM_SERVO_STATUS_SRC_VALID : Fld := ⟨Reg.HM_SERVO_STATUS, 2, 1⟩
def Fld.HM_SERVO_STATUS_STATE : Fld := ⟨Reg.HM_SERVO_STATUS, 0, 2⟩
def Fld.HM_SW_OFFSET0_NS : Fld := ⟨Reg.HM_SW_OFFSET0, 0, 32⟩
def Fld.HM_SW_OFFSET1_FRAC : Fld := ⟨Reg.HM_SW_OFFSET1, 0, 16⟩
def Fld.HM_LAST_OFFSET0_NS : Fld := ⟨Reg.HM_LAST_OFFSET0, 0, 32⟩
def Fld.HM_LAST_OFFSET1_FRAC : Fld := ⟨Reg.HM_LAST_OFFSET1, 0, 16⟩
def Fld.HM_UTC_CLOCK_CLASS : Fld := ⟨Reg.HM_UTC, 16, 8⟩
def Fld.HM_UTC_UTC_OFFSET : Fld := ⟨Reg.HM_UTC, 0, 16⟩
def Fld.HM_INT_STATUS_EVT_MISS : Fld := ⟨Reg.HM_INT_STATUS, 10, 1⟩
def Fld.HM_INT_STATUS_TOD_RX_ERR : Fld := ⟨Reg.HM_INT_STATUS, 9, 1⟩
def Fld.HM_INT_STATUS_TCOMMIT_MISSED : Fld := ⟨Reg.HM_INT_STATUS, 8, 1⟩
def Fld.HM_INT_STATUS_TCOMMIT_FIRED : Fld := ⟨Reg.HM_INT_STATUS, 7, 1⟩
def Fld.HM_INT_STATUS_TOD_RX : Fld := ⟨Reg.HM_INT_STATUS, 6, 1⟩
def Fld.HM_INT_STATUS_EVT_OVF : Fld := ⟨Reg.HM_INT_STATUS, 5, 1⟩
def Fld.HM_INT_STATUS_EVT1_CAP : Fld := ⟨Reg.HM_INT_STATUS, 4, 1⟩
def Fld.HM_INT_STATUS_EVT0_CAP : Fld := ⟨Reg.HM_INT_STATUS, 3, 1⟩
def Fld.HM_INT_STATUS_SRC_LOST : Fld := ⟨Reg.HM_INT_STATUS, 2, 1⟩
def Fld.HM_INT_STATUS_STEP : Fld := ⟨Reg.HM_INT_STATUS, 1, 1⟩
def Fld.HM_INT_STATUS_STATE_CHG : Fld := ⟨Reg.HM_INT_STATUS, 0, 1⟩
def Fld.HM_INT_EN_EN : Fld := ⟨Reg.HM_INT_EN, 0, 11⟩
def Fld.HM_PPS_CTRL_OUT_EN : Fld := ⟨Reg.HM_PPS_CTRL, 31, 1⟩
def Fld.HM_PPS_CTRL_OUT_QUAL : Fld := ⟨Reg.HM_PPS_CTRL, 30, 1⟩
def Fld.HM_PPS_CTRL_IN_EN : Fld := ⟨Reg.HM_PPS_CTRL, 29, 1⟩
def Fld.HM_PPS_CTRL_OUT_WIDTH : Fld := ⟨Reg.HM_PPS_CTRL, 0, 24⟩
def Fld.HM_PPS_OUT_OFS_OFS : Fld := ⟨Reg.HM_PPS_OUT_OFS, 0, 32⟩
def Fld.HM_PPS_IN_OFS_OFS : Fld := ⟨Reg.HM_PPS_IN_OFS, 0, 32⟩
def Fld.HM_TOD_CTRL_TX_EN : Fld := ⟨Reg.HM_TOD_CTRL, 31, 1⟩
def Fld.HM_TOD_CTRL_RX_EN : Fld := ⟨Reg.HM_TOD_CTRL, 30, 1⟩
def Fld.HM_TOD_CTRL_BAUD : Fld := ⟨Reg.HM_TOD_CTRL, 0, 2⟩
def Fld.HM_TOD_RX_BYTES (i : Nat) : Fld := ⟨Reg.HM_TOD_RX i, 0, 32⟩
def Fld.HM_EVT_CTRL_MODE (i : Nat) : Fld := ⟨Reg.HM_EVT_CTRL i, 30, 2⟩
def Fld.HM_EVT_CTRL_PERIODIC (i : Nat) : Fld := ⟨Reg.HM_EVT_CTRL i, 29, 1⟩
def Fld.HM_EVT_CTRL_EDGE (i : Nat) : Fld := ⟨Reg.HM_EVT_CTRL i, 27, 2⟩
def Fld.HM_EVT_CTRL_ARM (i : Nat) : Fld := ⟨Reg.HM_EVT_CTRL i, 26, 1⟩
def Fld.HM_EVT_WIDTH_WIDTH (i : Nat) : Fld := ⟨Reg.HM_EVT_WIDTH i, 0, 24⟩
def Fld.HM_EVT_TIME0_NS (i : Nat) : Fld := ⟨Reg.HM_EVT_TIME0 i, 0, 30⟩
def Fld.HM_EVT_TIME1_SEC (i : Nat) : Fld := ⟨Reg.HM_EVT_TIME1 i, 0, 32⟩
def Fld.HM_EVT_TIME2_FRAC (i : Nat) : Fld := ⟨Reg.HM_EVT_TIME2 i, 16, 16⟩
def Fld.HM_EVT_TIME2_SECHI (i : Nat) : Fld := ⟨Reg.HM_EVT_TIME2 i, 0, 16⟩
def Fld.HM_EVT_PERIOD_PERIOD (i : Nat) : Fld := ⟨Reg.HM_EVT_PERIOD i, 0, 30⟩
def Fld.HM_EVT_CAP0_NS (i : Nat) : Fld := ⟨Reg.HM_EVT_CAP0 i, 0, 32⟩
def Fld.HM_EVT_CAP1_SEC (i : Nat) : Fld := ⟨Reg.HM_EVT_CAP1 i, 0, 32⟩
def Fld.HM_EVT_CAP2_FRACSEC (i : Nat) : Fld := ⟨Reg.HM_EVT_CAP2 i, 0, 32⟩
def Fld.HM_EVT_CAP_STAT_POP (i : Nat) : Fld := ⟨Reg.HM_EVT_CAP_STAT i, 31, 1⟩
def Fld.HM_EVT_CAP_STAT_COUNT (i : Nat) : Fld := ⟨Reg.HM_EVT_CAP_STAT i, 0, 4⟩
def Fld.HM_LAUNCH_CTRL_MAX_S : Fld := ⟨Reg.HM_LAUNCH_CTRL, 16, 8⟩
def Fld.HM_LAUNCH_CTRL_LEAD : Fld := ⟨Reg.HM_LAUNCH_CTRL, 0, 16⟩
def Fld.HM_GATE_CTRL_EN (i : Nat) : Fld := ⟨Reg.HM_GATE_CTRL i, 31, 1⟩
def Fld.HM_GATE_CTRL_GUARD (i : Nat) : Fld := ⟨Reg.HM_GATE_CTRL i, 30, 1⟩
def Fld.HM_GATE_CTRL_NENT (i : Nat) : Fld := ⟨Reg.HM_GATE_CTRL i, 0, 7⟩
def Fld.HM_GATE_CYCLE_CYCLE (i : Nat) : Fld := ⟨Reg.HM_GATE_CYCLE i, 0, 30⟩
def Fld.HM_GATE_BASE0_NS (i : Nat) : Fld := ⟨Reg.HM_GATE_BASE0 i, 0, 30⟩
def Fld.HM_GATE_BASE1_SEC (i : Nat) : Fld := ⟨Reg.HM_GATE_BASE1 i, 0, 32⟩
def Fld.HM_GATE_BASE2_FRAC (i : Nat) : Fld := ⟨Reg.HM_GATE_BASE2 i, 16, 16⟩
def Fld.HM_GATE_BASE2_SECHI (i : Nat) : Fld := ⟨Reg.HM_GATE_BASE2 i, 0, 16⟩
def Fld.HM_GATE_ENT_MASK (i : Nat) : Fld := ⟨Reg.HM_GATE_ENT i, 24, 8⟩
def Fld.HM_GATE_ENT_DURATION (i : Nat) : Fld := ⟨Reg.HM_GATE_ENT i, 0, 24⟩
def Fld.TW_CFG_EN : Fld := ⟨Reg.TW_CFG, 31, 1⟩
def Fld.TW_CFG_UNIT : Fld := ⟨Reg.TW_CFG, 30, 1⟩
def Fld.TW_CFG_PREFER : Fld := ⟨Reg.TW_CFG, 29, 1⟩
def Fld.TW_CFG_SOLO_EN : Fld := ⟨Reg.TW_CFG, 28, 1⟩
def Fld.TW_CFG_PIN_EN : Fld := ⟨Reg.TW_CFG, 27, 1⟩
def Fld.TW_CFG_CRF_EN : Fld := ⟨Reg.TW_CFG, 26, 1⟩
def Fld.TW_CFG_LINK_PORT : Fld := ⟨Reg.TW_CFG, 0, 7⟩
def Fld.TW_PAIR_ID_ID : Fld := ⟨Reg.TW_PAIR_ID, 0, 32⟩
def Fld.TW_HB_CFG_T_DEAD : Fld := ⟨Reg.TW_HB_CFG, 24, 8⟩
def Fld.TW_HB_CFG_PATH_LOSS : Fld := ⟨Reg.TW_HB_CFG, 16, 8⟩
def Fld.TW_HB_CFG_PIN_PERIOD : Fld := ⟨Reg.TW_HB_CFG, 0, 8⟩
def Fld.TW_LEASE_CFG_GUARD_EXTRA : Fld := ⟨Reg.TW_LEASE_CFG, 16, 8⟩
def Fld.TW_LEASE_CFG_LEASE : Fld := ⟨Reg.TW_LEASE_CFG, 8, 8⟩
def Fld.TW_LEASE_CFG_RENEW : Fld := ⟨Reg.TW_LEASE_CFG, 0, 8⟩
def Fld.TW_STATUS_DUTY : Fld := ⟨Reg.TW_STATUS, 31, 1⟩
def Fld.TW_STATUS_SOLO : Fld := ⟨Reg.TW_STATUS, 30, 1⟩
def Fld.TW_STATUS_PEER_DEAD : Fld := ⟨Reg.TW_STATUS, 29, 1⟩
def Fld.TW_STATUS_PIN_OK : Fld := ⟨Reg.TW_STATUS, 28, 1⟩
def Fld.TW_STATUS_CRF_OK : Fld := ⟨Reg.TW_STATUS, 27, 1⟩
def Fld.TW_STATUS_PEER_DUTY : Fld := ⟨Reg.TW_STATUS, 26, 1⟩
def Fld.TW_STATUS_PEER_FWD : Fld := ⟨Reg.TW_STATUS, 25, 1⟩
def Fld.TW_STATUS_EPOCH_VALID : Fld := ⟨Reg.TW_STATUS, 24, 1⟩
def Fld.TW_STATUS_LEASE_STATE : Fld := ⟨Reg.TW_STATUS, 16, 3⟩
def Fld.TW_EPOCH_SEEN_EPOCH : Fld := ⟨Reg.TW_EPOCH_SEEN, 0, 32⟩
def Fld.TW_EPOCH_HELD_EPOCH : Fld := ⟨Reg.TW_EPOCH_HELD, 0, 32⟩
def Fld.TW_LEASE_REMAIN_US : Fld := ⟨Reg.TW_LEASE_REMAIN, 0, 32⟩
def Fld.TW_LEASE_CMD_GO : Fld := ⟨Reg.TW_LEASE_CMD, 31, 1⟩
def Fld.TW_LEASE_CMD_OP : Fld := ⟨Reg.TW_LEASE_CMD, 28, 3⟩
def Fld.TW_LEASE_CMD_OVERRUN : Fld := ⟨Reg.TW_LEASE_CMD, 27, 1⟩
def Fld.TW_LEASE_CMD_ERR : Fld := ⟨Reg.TW_LEASE_CMD, 26, 1⟩
def Fld.TW_LEASE_ARG_ARG : Fld := ⟨Reg.TW_LEASE_ARG, 0, 32⟩
def Fld.TW_INT_STATUS_MIRROR_DIFF : Fld := ⟨Reg.TW_INT_STATUS, 9, 1⟩
def Fld.TW_INT_STATUS_MIRROR_GAP : Fld := ⟨Reg.TW_INT_STATUS, 8, 1⟩
def Fld.TW_INT_STATUS_PAIR_MISMATCH : Fld := ⟨Reg.TW_INT_STATUS, 7, 1⟩
def Fld.TW_INT_STATUS_STEP_DOWN : Fld := ⟨Reg.TW_INT_STATUS, 6, 1⟩
def Fld.TW_INT_STATUS_LEASE_LAPSED : Fld := ⟨Reg.TW_INT_STATUS, 5, 1⟩
def Fld.TW_INT_STATUS_DUTY_CHG : Fld := ⟨Reg.TW_INT_STATUS, 4, 1⟩
def Fld.TW_INT_STATUS_PEER_ALIVE : Fld := ⟨Reg.TW_INT_STATUS, 3, 1⟩
def Fld.TW_INT_STATUS_PEER_DEAD : Fld := ⟨Reg.TW_INT_STATUS, 2, 1⟩
def Fld.TW_INT_STATUS_CRF_PATH_LOSS : Fld := ⟨Reg.TW_INT_STATUS, 1, 1⟩
def Fld.TW_INT_STATUS_PIN_PATH_LOSS : Fld := ⟨Reg.TW_INT_STATUS, 0, 1⟩
def Fld.TW_INT_EN_EN : Fld := ⟨Reg.TW_INT_EN, 0, 10⟩
def Fld.TW_PEER_JN_HEAD0_HEAD : Fld := ⟨Reg.TW_PEER_JN_HEAD0, 0, 32⟩
def Fld.TW_PEER_JN_HEAD1_HEAD : Fld := ⟨Reg.TW_PEER_JN_HEAD1, 0, 16⟩
def Fld.TW_PEER_EPOCH_EPOCH : Fld := ⟨Reg.TW_PEER_EPOCH, 0, 32⟩
def Fld.TW_GEN_CFG_DN_EN : Fld := ⟨Reg.TW_GEN_CFG, 31, 1⟩
def Fld.TW_GEN_CFG_AMB : Fld := ⟨Reg.TW_GEN_CFG, 16, 8⟩
def Fld.TW_GEN_CFG_IDLE : Fld := ⟨Reg.TW_GEN_CFG, 0, 8⟩
def Fld.TW_MIRROR_CTRL_EN : Fld := ⟨Reg.TW_MIRROR_CTRL, 31, 1⟩
def Fld.TW_MIRROR_CTRL_RESEND : Fld := ⟨Reg.TW_MIRROR_CTRL, 30, 1⟩
def Fld.TW_MIRROR_CTRL_AUDIT_EN : Fld := ⟨Reg.TW_MIRROR_CTRL, 29, 1⟩
def Fld.TW_MIRROR_STATUS_DIFF : Fld := ⟨Reg.TW_MIRROR_STATUS, 0, 3⟩
def Fld.TW_TRUNKGEN_UP_EN (i : Nat) : Fld := ⟨Reg.TW_TRUNKGEN i, 31, 1⟩
def Fld.TW_TRUNKGEN_MC_EN (i : Nat) : Fld := ⟨Reg.TW_TRUNKGEN i, 30, 1⟩
def Fld.TW_TRUNKGEN_MC_STREAM (i : Nat) : Fld := ⟨Reg.TW_TRUNKGEN i, 16, 14⟩
def Fld.TW_TRUNKGEN_UP_BASE (i : Nat) : Fld := ⟨Reg.TW_TRUNKGEN i, 0, 14⟩
def Fld.TW_REC_PORT_PORTS (i : Nat) : Fld := ⟨Reg.TW_REC_PORT i, 0, 32⟩
def Fld.TW_REC_PROF_RESET_MS (i : Nat) : Fld := ⟨Reg.TW_REC_PROF i, 16, 8⟩
def Fld.TW_REC_PROF_HISTORY (i : Nat) : Fld := ⟨Reg.TW_REC_PROF i, 0, 7⟩
def Fld.TW_SGL_RING_RINGS (i : Nat) : Fld := ⟨Reg.TW_SGL_RING i, 0, 32⟩
def Fld.TW_SGL_MEP_MEPS (i : Nat) : Fld := ⟨Reg.TW_SGL_MEP i, 0, 32⟩
def Fld.TW_GEN_EN (i : Nat) : Fld := ⟨Reg.TW_GEN i, 31, 1⟩
def Fld.TW_GEN_MUTED (i : Nat) : Fld := ⟨Reg.TW_GEN i, 30, 1⟩
def Fld.TW_GEN_SEQ (i : Nat) : Fld := ⟨Reg.TW_GEN i, 0, 16⟩
def Fld.TW_REC_EN (i : Nat) : Fld := ⟨Reg.TW_REC i, 31, 1⟩
def Fld.TW_REC_PROF (i : Nat) : Fld := ⟨Reg.TW_REC i, 16, 4⟩
def Fld.TW_REC_LAST (i : Nat) : Fld := ⟨Reg.TW_REC i, 0, 16⟩
def Fld.HI_RING_BASE_LO_BASE (i : Nat) : Fld := ⟨Reg.HI_RING_BASE_LO i, 6, 26⟩
def Fld.HI_RING_BASE_HI_BASE (i : Nat) : Fld := ⟨Reg.HI_RING_BASE_HI i, 0, 32⟩
def Fld.HI_RING_CFG_EN (i : Nat) : Fld := ⟨Reg.HI_RING_CFG i, 31, 1⟩
def Fld.HI_RING_CFG_KIND (i : Nat) : Fld := ⟨Reg.HI_RING_CFG i, 28, 3⟩
def Fld.HI_RING_CFG_LOG2SIZE (i : Nat) : Fld := ⟨Reg.HI_RING_CFG i, 23, 5⟩
def Fld.HI_RING_CFG_CQ (i : Nat) : Fld := ⟨Reg.HI_RING_CFG i, 11, 12⟩
def Fld.HI_RING_CFG2_ALL (i : Nat) : Fld := ⟨Reg.HI_RING_CFG2 i, 0, 32⟩
def Fld.HI_RING_CHAIN_TO_TIMEOUT (i : Nat) : Fld := ⟨Reg.HI_RING_CHAIN_TO i, 0, 16⟩
def Fld.HI_RING_STATUS_STATE (i : Nat) : Fld := ⟨Reg.HI_RING_STATUS i, 30, 2⟩
def Fld.HI_RING_STATUS_PARKED (i : Nat) : Fld := ⟨Reg.HI_RING_STATUS i, 29, 1⟩
def Fld.HI_RING_STATUS_DEV_LAP (i : Nat) : Fld := ⟨Reg.HI_RING_STATUS i, 16, 1⟩
def Fld.HI_RING_STATUS_DEV_IDX (i : Nat) : Fld := ⟨Reg.HI_RING_STATUS i, 0, 16⟩
def Fld.HI_RING_DB_POS (i : Nat) : Fld := ⟨Reg.HI_RING_DB i, 0, 17⟩
def Fld.HI_RING_CTRL_RESET (i : Nat) : Fld := ⟨Reg.HI_RING_CTRL i, 31, 1⟩
def Fld.HI_RING_CTRL_DMA_ERR (i : Nat) : Fld := ⟨Reg.HI_RING_CTRL i, 3, 1⟩
def Fld.HI_RING_CTRL_CFG_ERR (i : Nat) : Fld := ⟨Reg.HI_RING_CTRL i, 2, 1⟩
def Fld.HI_RING_CTRL_DB_ERR (i : Nat) : Fld := ⟨Reg.HI_RING_CTRL i, 1, 1⟩
def Fld.HI_RING_ABORT_GO (i : Nat) : Fld := ⟨Reg.HI_RING_ABORT i, 31, 1⟩
def Fld.HI_RING_ABORT_OVERRUN (i : Nat) : Fld := ⟨Reg.HI_RING_ABORT i, 30, 1⟩
def Fld.HI_RING_ABORT_RESULT (i : Nat) : Fld := ⟨Reg.HI_RING_ABORT i, 27, 3⟩
def Fld.HI_RING_ABORT_INDEX (i : Nat) : Fld := ⟨Reg.HI_RING_ABORT i, 0, 16⟩
def Fld.HI_RING_PENDING_JOBS (i : Nat) : Fld := ⟨Reg.HI_RING_PENDING i, 0, 11⟩
def Fld.HI_SRC_MAP_EN (i : Nat) : Fld := ⟨Reg.HI_SRC_MAP i, 31, 1⟩
def Fld.HI_SRC_MAP_VECTOR (i : Nat) : Fld := ⟨Reg.HI_SRC_MAP i, 0, 11⟩
def Fld.HI_SRC_PEND_PEND (i : Nat) : Fld := ⟨Reg.HI_SRC_PEND i, 0, 32⟩
def Fld.HI_VEC_EOI_VECTOR : Fld := ⟨Reg.HI_VEC_EOI, 0, 11⟩
def Fld.HI_INT_STATUS_DMA_ERR : Fld := ⟨Reg.HI_INT_STATUS, 2, 1⟩
def Fld.HI_INT_STATUS_CFG_ERR : Fld := ⟨Reg.HI_INT_STATUS, 1, 1⟩
def Fld.HI_INT_STATUS_DB_ERR : Fld := ⟨Reg.HI_INT_STATUS, 0, 1⟩
def Fld.HI_INT_EN_EN : Fld := ⟨Reg.HI_INT_EN, 0, 3⟩
def Fld.HI_ERR_RING_RING : Fld := ⟨Reg.HI_ERR_RING, 0, 12⟩
def Fld.PT_MODE_CRF (p : Nat) : Fld := ⟨Reg.PT_MODE p, 6, 1⟩
def Fld.PT_MODE_FEC (p : Nat) : Fld := ⟨Reg.PT_MODE p, 4, 2⟩
def Fld.PT_MODE_MODE (p : Nat) : Fld := ⟨Reg.PT_MODE p, 0, 4⟩
def Fld.PT_CTRL_RETRAIN (p : Nat) : Fld := ⟨Reg.PT_CTRL p, 7, 1⟩
def Fld.PT_CTRL_LT_EN (p : Nat) : Fld := ⟨Reg.PT_CTRL p, 6, 1⟩
def Fld.PT_CTRL_AN_RESTART (p : Nat) : Fld := ⟨Reg.PT_CTRL p, 5, 1⟩
def Fld.PT_CTRL_AN_EN (p : Nat) : Fld := ⟨Reg.PT_CTRL p, 4, 1⟩
def Fld.PT_CTRL_LOOPBACK (p : Nat) : Fld := ⟨Reg.PT_CTRL p, 2, 2⟩
def Fld.PT_CTRL_ENABLE (p : Nat) : Fld := ⟨Reg.PT_CTRL p, 0, 1⟩
def Fld.PT_STATUS_PFC_PAUSED (p : Nat) : Fld := ⟨Reg.PT_STATUS p, 24, 8⟩
def Fld.PT_STATUS_ACTIVE_MODE (p : Nat) : Fld := ⟨Reg.PT_STATUS p, 20, 4⟩
def Fld.PT_STATUS_AN_STATE (p : Nat) : Fld := ⟨Reg.PT_STATUS p, 16, 2⟩
def Fld.PT_STATUS_LT_STATE (p : Nat) : Fld := ⟨Reg.PT_STATUS p, 13, 2⟩
def Fld.PT_STATUS_EN_STATE (p : Nat) : Fld := ⟨Reg.PT_STATUS p, 11, 2⟩
def Fld.PT_STATUS_MODE_ERR (p : Nat) : Fld := ⟨Reg.PT_STATUS p, 10, 1⟩
def Fld.PT_STATUS_PAUSED (p : Nat) : Fld := ⟨Reg.PT_STATUS p, 9, 1⟩
def Fld.PT_STATUS_LPI_RX (p : Nat) : Fld := ⟨Reg.PT_STATUS p, 8, 1⟩
def Fld.PT_STATUS_LPI_TX (p : Nat) : Fld := ⟨Reg.PT_STATUS p, 7, 1⟩
def Fld.PT_STATUS_REMOTE_FAULT (p : Nat) : Fld := ⟨Reg.PT_STATUS p, 6, 1⟩
def Fld.PT_STATUS_LOCAL_FAULT (p : Nat) : Fld := ⟨Reg.PT_STATUS p, 5, 1⟩
def Fld.PT_STATUS_HI_BER (p : Nat) : Fld := ⟨Reg.PT_STATUS p, 4, 1⟩
def Fld.PT_STATUS_ALIGN (p : Nat) : Fld := ⟨Reg.PT_STATUS p, 3, 1⟩
def Fld.PT_STATUS_BLOCK_LOCK (p : Nat) : Fld := ⟨Reg.PT_STATUS p, 2, 1⟩
def Fld.PT_STATUS_SIGNAL (p : Nat) : Fld := ⟨Reg.PT_STATUS p, 1, 1⟩
def Fld.PT_STATUS_LINK (p : Nat) : Fld := ⟨Reg.PT_STATUS p, 0, 1⟩
def Fld.PT_INT_STATUS_REMOTE_FAULT (p : Nat) : Fld := ⟨Reg.PT_INT_STATUS p, 6, 1⟩
def Fld.PT_INT_STATUS_AN_DONE (p : Nat) : Fld := ⟨Reg.PT_INT_STATUS p, 5, 1⟩
def Fld.PT_INT_STATUS_PAUSE_WD (p : Nat) : Fld := ⟨Reg.PT_INT_STATUS p, 4, 1⟩
def Fld.PT_INT_STATUS_HI_BER (p : Nat) : Fld := ⟨Reg.PT_INT_STATUS p, 3, 1⟩
def Fld.PT_INT_STATUS_LT_FAIL (p : Nat) : Fld := ⟨Reg.PT_INT_STATUS p, 2, 1⟩
def Fld.PT_INT_STATUS_MODE_ERR (p : Nat) : Fld := ⟨Reg.PT_INT_STATUS p, 1, 1⟩
def Fld.PT_INT_STATUS_LINK_CHG (p : Nat) : Fld := ⟨Reg.PT_INT_STATUS p, 0, 1⟩
def Fld.PT_INT_EN_EN (p : Nat) : Fld := ⟨Reg.PT_INT_EN p, 0, 7⟩
def Fld.PT_MTU_MTU (p : Nat) : Fld := ⟨Reg.PT_MTU p, 0, 14⟩
def Fld.PT_DEBOUNCE_UP (p : Nat) : Fld := ⟨Reg.PT_DEBOUNCE p, 8, 8⟩
def Fld.PT_DEBOUNCE_DOWN (p : Nat) : Fld := ⟨Reg.PT_DEBOUNCE p, 0, 8⟩
def Fld.PT_LPI_CTRL_TW_NS (p : Nat) : Fld := ⟨Reg.PT_LPI_CTRL p, 16, 16⟩
def Fld.PT_LPI_CTRL_IDLE_US (p : Nat) : Fld := ⟨Reg.PT_LPI_CTRL p, 8, 8⟩
def Fld.PT_LPI_CTRL_LPI_EN (p : Nat) : Fld := ⟨Reg.PT_LPI_CTRL p, 0, 1⟩
def Fld.PT_PAUSE_CTRL_WD_MS (p : Nat) : Fld := ⟨Reg.PT_PAUSE_CTRL p, 8, 8⟩
def Fld.PT_PAUSE_CTRL_PFC_EN (p : Nat) : Fld := ⟨Reg.PT_PAUSE_CTRL p, 1, 1⟩
def Fld.PT_PAUSE_CTRL_PAUSE_EN (p : Nat) : Fld := ⟨Reg.PT_PAUSE_CTRL p, 0, 1⟩
def Fld.PT_PFC_MAP_MAP (p : Nat) : Fld := ⟨Reg.PT_PFC_MAP p, 0, 24⟩
def Fld.PT_TXEQ_POST (p : Nat) : Fld := ⟨Reg.PT_TXEQ p, 16, 6⟩
def Fld.PT_TXEQ_MAIN (p : Nat) : Fld := ⟨Reg.PT_TXEQ p, 8, 6⟩
def Fld.PT_TXEQ_PRE (p : Nat) : Fld := ⟨Reg.PT_TXEQ p, 0, 6⟩
def Fld.PT_LT_CTRL_RETRY_DELAY (p : Nat) : Fld := ⟨Reg.PT_LT_CTRL p, 16, 16⟩
def Fld.PT_LT_CTRL_TIMEOUT (p : Nat) : Fld := ⟨Reg.PT_LT_CTRL p, 0, 16⟩
def Fld.PT_HOLD_STATE (p : Nat) : Fld := ⟨Reg.PT_HOLD p, 30, 2⟩
def Fld.PT_HOLD_ELAPSED_MS (p : Nat) : Fld := ⟨Reg.PT_HOLD p, 16, 10⟩
def Fld.PT_HOLD_HOLD_MS (p : Nat) : Fld := ⟨Reg.PT_HOLD p, 0, 10⟩
def Fld.PT_TS_CTRL_TC_EN (p : Nat) : Fld := ⟨Reg.PT_TS_CTRL p, 1, 1⟩
def Fld.PT_TS_CTRL_LINE_REF (p : Nat) : Fld := ⟨Reg.PT_TS_CTRL p, 0, 1⟩
def Fld.PT_TS_ASYM_TX_ASYM (p : Nat) : Fld := ⟨Reg.PT_TS_ASYM p, 16, 16⟩
def Fld.PT_TS_ASYM_RX_ASYM (p : Nat) : Fld := ⟨Reg.PT_TS_ASYM p, 0, 16⟩
def Fld.PT_TS_CONST_TX_CONST (p : Nat) : Fld := ⟨Reg.PT_TS_CONST p, 16, 16⟩
def Fld.PT_TS_CONST_RX_CONST (p : Nat) : Fld := ⟨Reg.PT_TS_CONST p, 0, 16⟩
def Fld.PT_TS_VAR_RX_VAR (p : Nat) : Fld := ⟨Reg.PT_TS_VAR p, 0, 16⟩
def Fld.LF_CTRL_EXP_CLASS (p : Nat) : Fld := ⟨Reg.LF_CTRL p, 20, 4⟩
def Fld.LF_CTRL_TX_CLASS (p : Nat) : Fld := ⟨Reg.LF_CTRL p, 16, 4⟩
def Fld.LF_CTRL_FORCE_AIS (p : Nat) : Fld := ⟨Reg.LF_CTRL p, 3, 1⟩
def Fld.LF_CTRL_HMC_EN (p : Nat) : Fld := ⟨Reg.LF_CTRL p, 2, 1⟩
def Fld.LF_CTRL_TIME_RX_EN (p : Nat) : Fld := ⟨Reg.LF_CTRL p, 1, 1⟩
def Fld.LF_CTRL_TIME_TX_EN (p : Nat) : Fld := ⟨Reg.LF_CTRL p, 0, 1⟩
def Fld.LF_ALIGN_CANDS (p : Nat) : Fld := ⟨Reg.LF_ALIGN p, 12, 3⟩
def Fld.LF_ALIGN_TOL (p : Nat) : Fld := ⟨Reg.LF_ALIGN p, 8, 3⟩
def Fld.LF_ALIGN_M (p : Nat) : Fld := ⟨Reg.LF_ALIGN p, 4, 4⟩
def Fld.LF_ALIGN_N (p : Nat) : Fld := ⟨Reg.LF_ALIGN p, 0, 3⟩
def Fld.LF_STATUS_RX_STAT (p : Nat) : Fld := ⟨Reg.LF_STATUS p, 24, 8⟩
def Fld.LF_STATUS_RX_MFAS (p : Nat) : Fld := ⟨Reg.LF_STATUS p, 16, 8⟩
def Fld.LF_STATUS_CANDS_ACTIVE (p : Nat) : Fld := ⟨Reg.LF_STATUS p, 4, 3⟩
def Fld.LF_STATUS_DELIN (p : Nat) : Fld := ⟨Reg.LF_STATUS p, 3, 1⟩
def Fld.LF_STATUS_MF_LOCK (p : Nat) : Fld := ⟨Reg.LF_STATUS p, 2, 1⟩
def Fld.LF_STATUS_FA_STATE (p : Nat) : Fld := ⟨Reg.LF_STATUS p, 0, 2⟩
def Fld.LF_INT_STATUS_HMC_RX_OVERRUN (p : Nat) : Fld := ⟨Reg.LF_INT_STATUS p, 7, 1⟩
def Fld.LF_INT_STATUS_HMC_TX_DONE (p : Nat) : Fld := ⟨Reg.LF_INT_STATUS p, 6, 1⟩
def Fld.LF_INT_STATUS_HMC_RX (p : Nat) : Fld := ⟨Reg.LF_INT_STATUS p, 5, 1⟩
def Fld.LF_INT_STATUS_TIME_RX (p : Nat) : Fld := ⟨Reg.LF_INT_STATUS p, 4, 1⟩
def Fld.LF_INT_STATUS_CLASS_MISMATCH (p : Nat) : Fld := ⟨Reg.LF_INT_STATUS p, 3, 1⟩
def Fld.LF_INT_STATUS_DELIN_LOSS (p : Nat) : Fld := ⟨Reg.LF_INT_STATUS p, 2, 1⟩
def Fld.LF_INT_STATUS_MF_CHG (p : Nat) : Fld := ⟨Reg.LF_INT_STATUS p, 1, 1⟩
def Fld.LF_INT_STATUS_SYNC_CHG (p : Nat) : Fld := ⟨Reg.LF_INT_STATUS p, 0, 1⟩
def Fld.LF_INT_EN_EN (p : Nat) : Fld := ⟨Reg.LF_INT_EN p, 0, 8⟩
def Fld.LF_HMC_TX_CTRL_GO (p : Nat) : Fld := ⟨Reg.LF_HMC_TX_CTRL p, 31, 1⟩
def Fld.LF_HMC_TX_CTRL_LEN (p : Nat) : Fld := ⟨Reg.LF_HMC_TX_CTRL p, 0, 10⟩
def Fld.LF_HMC_RX_STAT_VALID (p : Nat) : Fld := ⟨Reg.LF_HMC_RX_STAT p, 31, 1⟩
def Fld.LF_HMC_RX_STAT_LEN (p : Nat) : Fld := ⟨Reg.LF_HMC_RX_STAT p, 0, 10⟩
def Fld.LF_TIME_RX_BYTES (p : Nat) (i : Nat) : Fld := ⟨Reg.LF_TIME_RX p i, 0, 32⟩
def Fld.LF_MARK_TX_TIME (p : Nat) (i : Nat) : Fld := ⟨Reg.LF_MARK_TX p i, 0, 32⟩
def Fld.LF_MARK_RX_TIME (p : Nat) (i : Nat) : Fld := ⟨Reg.LF_MARK_RX p i, 0, 32⟩
def Fld.LF_MARK_RX_SF_SF (p : Nat) : Fld := ⟨Reg.LF_MARK_RX_SF p, 0, 24⟩
def Fld.LF_HMC_TX_BYTES (p : Nat) (i : Nat) : Fld := ⟨Reg.LF_HMC_TX p i, 0, 32⟩
def Fld.LF_HMC_RX_BYTES (p : Nat) (i : Nat) : Fld := ⟨Reg.LF_HMC_RX p i, 0, 32⟩
def Fld.LF_DEF_CTRL_UP_HOLD (p : Nat) : Fld := ⟨Reg.LF_DEF_CTRL p, 8, 8⟩
def Fld.LF_DEF_CTRL_DEG_DOWN (p : Nat) : Fld := ⟨Reg.LF_DEF_CTRL p, 2, 1⟩
def Fld.LF_DEF_CTRL_FORCE_RDI (p : Nat) : Fld := ⟨Reg.LF_DEF_CTRL p, 1, 1⟩
def Fld.LF_DEF_CTRL_RDI_EN (p : Nat) : Fld := ⟨Reg.LF_DEF_CTRL p, 0, 1⟩
def Fld.LF_FAIL_TIME_CLEAR (p : Nat) : Fld := ⟨Reg.LF_FAIL_TIME p, 8, 8⟩
def Fld.LF_FAIL_TIME_SET (p : Nat) : Fld := ⟨Reg.LF_FAIL_TIME p, 0, 8⟩
def Fld.LF_DEG_CTRL_M (p : Nat) : Fld := ⟨Reg.LF_DEG_CTRL p, 16, 4⟩
def Fld.LF_DEG_CTRL_THR (p : Nat) : Fld := ⟨Reg.LF_DEG_CTRL p, 0, 14⟩
def Fld.LF_DEFECTS_RDI_TX (p : Nat) : Fld := ⟨Reg.LF_DEFECTS p, 16, 1⟩
def Fld.LF_DEFECTS_FAIL (p : Nat) : Fld := ⟨Reg.LF_DEFECTS p, 8, 6⟩
def Fld.LF_DEFECTS_DEF (p : Nat) : Fld := ⟨Reg.LF_DEFECTS p, 0, 6⟩
def Fld.LF_DEF_INT_STATUS_UAS_CHG_FE (p : Nat) : Fld := ⟨Reg.LF_DEF_INT_STATUS p, 20, 1⟩
def Fld.LF_DEF_INT_STATUS_UAS_CHG_NE (p : Nat) : Fld := ⟨Reg.LF_DEF_INT_STATUS p, 19, 1⟩
def Fld.LF_DEF_INT_STATUS_BIN24_CLOSED (p : Nat) : Fld := ⟨Reg.LF_DEF_INT_STATUS p, 18, 1⟩
def Fld.LF_DEF_INT_STATUS_BIN15_CLOSED (p : Nat) : Fld := ⟨Reg.LF_DEF_INT_STATUS p, 17, 1⟩
def Fld.LF_DEF_INT_STATUS_TCA (p : Nat) : Fld := ⟨Reg.LF_DEF_INT_STATUS p, 16, 1⟩
def Fld.LF_DEF_INT_STATUS_FAIL_CHG (p : Nat) : Fld := ⟨Reg.LF_DEF_INT_STATUS p, 8, 6⟩
def Fld.LF_DEF_INT_STATUS_DEF_CHG (p : Nat) : Fld := ⟨Reg.LF_DEF_INT_STATUS p, 0, 6⟩
def Fld.LF_DEF_INT_EN_EN2 (p : Nat) : Fld := ⟨Reg.LF_DEF_INT_EN p, 16, 5⟩
def Fld.LF_DEF_INT_EN_FAIL_CHG (p : Nat) : Fld := ⟨Reg.LF_DEF_INT_EN p, 8, 6⟩
def Fld.LF_DEF_INT_EN_DEF_CHG (p : Nat) : Fld := ⟨Reg.LF_DEF_INT_EN p, 0, 6⟩
def Fld.LF_PM_CTRL_MON_EN (p : Nat) : Fld := ⟨Reg.LF_PM_CTRL p, 10, 1⟩
def Fld.LF_PM_CTRL_FE_EN (p : Nat) : Fld := ⟨Reg.LF_PM_CTRL p, 9, 1⟩
def Fld.LF_PM_CTRL_RPT_TX_EN (p : Nat) : Fld := ⟨Reg.LF_PM_CTRL p, 8, 1⟩
def Fld.LF_PM_CTRL_SES_PCT (p : Nat) : Fld := ⟨Reg.LF_PM_CTRL p, 0, 7⟩
def Fld.LF_ETH_SES_THR (p : Nat) : Fld := ⟨Reg.LF_ETH_SES p, 0, 24⟩
def Fld.LF_TCA15_THR (p : Nat) (i : Nat) : Fld := ⟨Reg.LF_TCA15 p i, 0, 32⟩
def Fld.LF_TCA24_THR (p : Nat) (i : Nat) : Fld := ⟨Reg.LF_TCA24 p i, 0, 32⟩
def Fld.LF_TCA_STATUS_T24 (p : Nat) : Fld := ⟨Reg.LF_TCA_STATUS p, 8, 8⟩
def Fld.LF_TCA_STATUS_T15 (p : Nat) : Fld := ⟨Reg.LF_TCA_STATUS p, 0, 8⟩
def Fld.LF_PM_SEL_BIN (p : Nat) : Fld := ⟨Reg.LF_PM_SEL p, 0, 6⟩
def Fld.LF_PM_NOW_FE_UNAVAIL (p : Nat) : Fld := ⟨Reg.LF_PM_NOW p, 25, 1⟩
def Fld.LF_PM_NOW_NE_UNAVAIL (p : Nat) : Fld := ⟨Reg.LF_PM_NOW p, 24, 1⟩
def Fld.LF_PM_NOW_FE_RUN (p : Nat) : Fld := ⟨Reg.LF_PM_NOW p, 16, 4⟩
def Fld.LF_PM_NOW_NE_RUN (p : Nat) : Fld := ⟨Reg.LF_PM_NOW p, 0, 4⟩
def Fld.LF_PM_WIN_WORD (p : Nat) (i : Nat) : Fld := ⟨Reg.LF_PM_WIN p i, 0, 32⟩
def Fld.LF_RPT_RX_BYTES (p : Nat) (i : Nat) : Fld := ⟨Reg.LF_RPT_RX p i, 0, 32⟩
def Fld.PP_TPID_EN (p : Nat) (i : Nat) : Fld := ⟨Reg.PP_TPID p i, 16, 1⟩
def Fld.PP_TPID_TPID (p : Nat) (i : Nat) : Fld := ⟨Reg.PP_TPID p i, 0, 16⟩
def Fld.PP_PARSE_CFG_CTRL_ETYPE (p : Nat) : Fld := ⟨Reg.PP_PARSE_CFG p, 0, 16⟩
def Fld.PP_PORT_QOS_DEI_YELLOW (p : Nat) (i : Nat) : Fld := ⟨Reg.PP_PORT_QOS p i, 7, 1⟩
def Fld.PP_PORT_QOS_DEF_COLOUR (p : Nat) (i : Nat) : Fld := ⟨Reg.PP_PORT_QOS p i, 5, 2⟩
def Fld.PP_PORT_QOS_DEF_CLASS (p : Nat) (i : Nat) : Fld := ⟨Reg.PP_PORT_QOS p i, 2, 3⟩
def Fld.PP_PORT_QOS_TRUST (p : Nat) (i : Nat) : Fld := ⟨Reg.PP_PORT_QOS p i, 0, 2⟩
def Fld.PP_PCP_MAP_COLOUR (p : Nat) (i : Nat) : Fld := ⟨Reg.PP_PCP_MAP p i, 3, 2⟩
def Fld.PP_PCP_MAP_CLASS (p : Nat) (i : Nat) : Fld := ⟨Reg.PP_PCP_MAP p i, 0, 3⟩
def Fld.PP_DSCP_MAP_COLOUR (p : Nat) (i : Nat) : Fld := ⟨Reg.PP_DSCP_MAP p i, 3, 2⟩
def Fld.PP_DSCP_MAP_CLASS (p : Nat) (i : Nat) : Fld := ⟨Reg.PP_DSCP_MAP p i, 0, 3⟩
def Fld.LP_FG_CMD_GO (p : Nat) : Fld := ⟨Reg.LP_FG_CMD p, 31, 1⟩
def Fld.LP_FG_CMD_OP (p : Nat) : Fld := ⟨Reg.LP_FG_CMD p, 28, 3⟩
def Fld.LP_FG_CMD_BCAST (p : Nat) : Fld := ⟨Reg.LP_FG_CMD p, 27, 1⟩
def Fld.LP_FG_CMD_ERR (p : Nat) : Fld := ⟨Reg.LP_FG_CMD p, 26, 1⟩
def Fld.LP_FG_CMD_RD_VALID (p : Nat) : Fld := ⟨Reg.LP_FG_CMD p, 25, 1⟩
def Fld.LP_FG_CMD_OVERRUN (p : Nat) : Fld := ⟨Reg.LP_FG_CMD p, 24, 1⟩
def Fld.LP_FG_CMD_INDEX (p : Nat) : Fld := ⟨Reg.LP_FG_CMD p, 0, 13⟩
def Fld.LP_FG_BANK_FORMAT (p : Nat) (i : Nat) : Fld := ⟨Reg.LP_FG_BANK p i, 0, 4⟩
def Fld.LP_FG_VALUE_W (p : Nat) (i : Nat) : Fld := ⟨Reg.LP_FG_VALUE p i, 0, 32⟩
def Fld.LP_FG_CARE_W (p : Nat) (i : Nat) : Fld := ⟨Reg.LP_FG_CARE p i, 0, 32⟩
def Fld.LP_FG_ACTION_W (p : Nat) (i : Nat) : Fld := ⟨Reg.LP_FG_ACTION p i, 0, 32⟩
def Fld.LP_FG_DEFAULT_W (p : Nat) (i : Nat) : Fld := ⟨Reg.LP_FG_DEFAULT p i, 0, 32⟩
def Fld.LP_PM_CMD_GO (p : Nat) : Fld := ⟨Reg.LP_PM_CMD p, 31, 1⟩
def Fld.LP_PM_CMD_OP (p : Nat) : Fld := ⟨Reg.LP_PM_CMD p, 28, 3⟩
def Fld.LP_PM_CMD_BCAST (p : Nat) : Fld := ⟨Reg.LP_PM_CMD p, 27, 1⟩
def Fld.LP_PM_CMD_ERR (p : Nat) : Fld := ⟨Reg.LP_PM_CMD p, 26, 1⟩
def Fld.LP_PM_CMD_RD_VALID (p : Nat) : Fld := ⟨Reg.LP_PM_CMD p, 25, 1⟩
def Fld.LP_PM_CMD_OVERRUN (p : Nat) : Fld := ⟨Reg.LP_PM_CMD p, 24, 1⟩
def Fld.LP_PM_CMD_INDEX (p : Nat) : Fld := ⟨Reg.LP_PM_CMD p, 0, 10⟩
def Fld.LP_PM_VALUE_W (p : Nat) (i : Nat) : Fld := ⟨Reg.LP_PM_VALUE p i, 0, 32⟩
def Fld.LP_PM_CARE_W (p : Nat) (i : Nat) : Fld := ⟨Reg.LP_PM_CARE p i, 0, 32⟩
def Fld.LP_PM_CFG_BIT (p : Nat) : Fld := ⟨Reg.LP_PM_CFG p, 27, 5⟩
def Fld.LP_PM_CFG_SCOPE (p : Nat) : Fld := ⟨Reg.LP_PM_CFG p, 24, 3⟩
def Fld.LP_PM_CFG_OFS_MAX (p : Nat) : Fld := ⟨Reg.LP_PM_CFG p, 16, 8⟩
def Fld.LP_PM_CFG_OFS_MIN (p : Nat) : Fld := ⟨Reg.LP_PM_CFG p, 8, 8⟩
def Fld.LP_PM_CFG_LEN (p : Nat) : Fld := ⟨Reg.LP_PM_CFG p, 0, 4⟩
def Fld.LP_PM_PORT_PORT_SEL (p : Nat) : Fld := ⟨Reg.LP_PM_PORT p, 16, 2⟩
def Fld.LP_PM_PORT_PORT (p : Nat) : Fld := ⟨Reg.LP_PM_PORT p, 0, 16⟩
def Fld.LP_HASH_SEED0_SEED (p : Nat) : Fld := ⟨Reg.LP_HASH_SEED0 p, 0, 32⟩
def Fld.LP_HASH_SEED1_SEED (p : Nat) : Fld := ⟨Reg.LP_HASH_SEED1 p, 0, 32⟩
def Fld.LP_IND_CFG_SKIP_DOWN (p : Nat) (i : Nat) : Fld := ⟨Reg.LP_IND_CFG p i, 31, 1⟩
def Fld.LP_IND_CFG_SEL (p : Nat) (i : Nat) : Fld := ⟨Reg.LP_IND_CFG p i, 29, 2⟩
def Fld.LP_IND_CFG_SHIFT (p : Nat) (i : Nat) : Fld := ⟨Reg.LP_IND_CFG p i, 24, 5⟩
def Fld.LP_IND_CFG_FIELDS (p : Nat) (i : Nat) : Fld := ⟨Reg.LP_IND_CFG p i, 0, 15⟩
def Fld.LP_IND_KIND (p : Nat) (i : Nat) : Fld := ⟨Reg.LP_IND p i, 31, 1⟩
def Fld.LP_IND_TARGET (p : Nat) (i : Nat) : Fld := ⟨Reg.LP_IND p i, 0, 17⟩
def Fld.LP_TBL_CMD_TC (p : Nat) (i : Nat) : Fld := ⟨Reg.LP_TBL_CMD p i, 0, 32⟩
def Fld.LP_TBL_GO_GO (p : Nat) : Fld := ⟨Reg.LP_TBL_GO p, 31, 1⟩
def Fld.LP_TBL_GO_OVERRUN (p : Nat) : Fld := ⟨Reg.LP_TBL_GO p, 30, 1⟩
def Fld.LP_TBL_RES_TR (p : Nat) (i : Nat) : Fld := ⟨Reg.LP_TBL_RES p i, 0, 32⟩
def Fld.LP_MAC_SEED_SEED (p : Nat) : Fld := ⟨Reg.LP_MAC_SEED p, 0, 32⟩
def Fld.LP_LEARN_CTRL_NOTIFY_EN (p : Nat) : Fld := ⟨Reg.LP_LEARN_CTRL p, 31, 1⟩
def Fld.LP_LEARN_CTRL_FLUSH_ON_DOWN (p : Nat) : Fld := ⟨Reg.LP_LEARN_CTRL p, 30, 1⟩
def Fld.LP_LEARN_CTRL_STATIC_DROP (p : Nat) : Fld := ⟨Reg.LP_LEARN_CTRL p, 29, 1⟩
def Fld.LP_LEARN_CTRL_NOTIFY_RING (p : Nat) : Fld := ⟨Reg.LP_LEARN_CTRL p, 0, 12⟩
def Fld.LP_LEARN_RATE_BURST (p : Nat) : Fld := ⟨Reg.LP_LEARN_RATE p, 16, 8⟩
def Fld.LP_LEARN_RATE_RATE (p : Nat) : Fld := ⟨Reg.LP_LEARN_RATE p, 0, 12⟩
def Fld.LP_AGE_CTRL_PERIOD (p : Nat) : Fld := ⟨Reg.LP_AGE_CTRL p, 0, 16⟩
def Fld.LP_MAC_USAGE_OVF_USED (p : Nat) : Fld := ⟨Reg.LP_MAC_USAGE p, 16, 12⟩
def Fld.LP_PORT_LEARN_LAG_EN (p : Nat) (i : Nat) : Fld := ⟨Reg.LP_PORT_LEARN p i, 31, 1⟩
def Fld.LP_PORT_LEARN_TABLE (p : Nat) (i : Nat) : Fld := ⟨Reg.LP_PORT_LEARN p i, 0, 6⟩
def Fld.CB_REGION_POOL (i : Nat) : Fld := ⟨Reg.CB_REGION i, 24, 6⟩
def Fld.CB_REGION_NBANKS (i : Nat) : Fld := ⟨Reg.CB_REGION i, 16, 6⟩
def Fld.CB_REGION_FIRST_BANK (i : Nat) : Fld := ⟨Reg.CB_REGION i, 0, 5⟩
def Fld.CB_REGION_FREE_FREE (i : Nat) : Fld := ⟨Reg.CB_REGION_FREE i, 0, 20⟩
def Fld.CB_WRED_SEED_SEED (i : Nat) : Fld := ⟨Reg.CB_WRED_SEED i, 0, 16⟩
def Fld.CB_QPROF0_ECN_EN (i : Nat) : Fld := ⟨Reg.CB_QPROF0 i, 31, 1⟩
def Fld.CB_QPROF0_WRED_EN (i : Nat) : Fld := ⟨Reg.CB_QPROF0 i, 30, 1⟩
def Fld.CB_QPROF0_WRED_PROF (i : Nat) : Fld := ⟨Reg.CB_QPROF0 i, 20, 4⟩
def Fld.CB_QPROF0_ALPHA (i : Nat) : Fld := ⟨Reg.CB_QPROF0 i, 0, 4⟩
def Fld.CB_QPROF1_MIN_CELLS (i : Nat) : Fld := ⟨Reg.CB_QPROF1 i, 0, 20⟩
def Fld.CB_QPROF2_MAX_CELLS (i : Nat) : Fld := ⟨Reg.CB_QPROF2 i, 0, 20⟩
def Fld.CB_WRED0_MIN (i : Nat) : Fld := ⟨Reg.CB_WRED0 i, 0, 20⟩
def Fld.CB_WRED1_MAX (i : Nat) : Fld := ⟨Reg.CB_WRED1 i, 0, 20⟩
def Fld.CB_WRED2_WEIGHT (i : Nat) : Fld := ⟨Reg.CB_WRED2 i, 8, 4⟩
def Fld.CB_WRED2_MAXP (i : Nat) : Fld := ⟨Reg.CB_WRED2 i, 0, 8⟩
def Fld.CB_QCFG_EN3 (i : Nat) : Fld := ⟨Reg.CB_QCFG i, 31, 1⟩
def Fld.CB_QCFG_PROF3 (i : Nat) : Fld := ⟨Reg.CB_QCFG i, 24, 5⟩
def Fld.CB_QCFG_EN2 (i : Nat) : Fld := ⟨Reg.CB_QCFG i, 23, 1⟩
def Fld.CB_QCFG_PROF2 (i : Nat) : Fld := ⟨Reg.CB_QCFG i, 16, 5⟩
def Fld.CB_QCFG_EN1 (i : Nat) : Fld := ⟨Reg.CB_QCFG i, 15, 1⟩
def Fld.CB_QCFG_PROF1 (i : Nat) : Fld := ⟨Reg.CB_QCFG i, 8, 5⟩
def Fld.CB_QCFG_EN0 (i : Nat) : Fld := ⟨Reg.CB_QCFG i, 7, 1⟩
def Fld.CB_QCFG_PROF0 (i : Nat) : Fld := ⟨Reg.CB_QCFG i, 0, 5⟩
def Fld.CB_QSTAT_STATE (i : Nat) : Fld := ⟨Reg.CB_QSTAT i, 30, 2⟩
def Fld.CB_QSTAT_LEN (i : Nat) : Fld := ⟨Reg.CB_QSTAT i, 0, 20⟩
def Fld.CB_POOL_CFG_REGION (i : Nat) : Fld := ⟨Reg.CB_POOL_CFG i, 31, 1⟩
def Fld.CB_POOL_CFG_REGION_ID (i : Nat) : Fld := ⟨Reg.CB_POOL_CFG i, 28, 3⟩
def Fld.CB_POOL_CFG_NSEGS (i : Nat) : Fld := ⟨Reg.CB_POOL_CFG i, 16, 10⟩
def Fld.CB_POOL_CFG_FIRST_SEG (i : Nat) : Fld := ⟨Reg.CB_POOL_CFG i, 0, 9⟩
def Fld.CB_POOL_FREE_FREE (i : Nat) : Fld := ⟨Reg.CB_POOL_FREE i, 0, 20⟩
def Fld.CB_POOL_WM_RESET (i : Nat) : Fld := ⟨Reg.CB_POOL_WM i, 31, 1⟩
def Fld.CB_POOL_WM_MIN_FREE (i : Nat) : Fld := ⟨Reg.CB_POOL_WM i, 0, 20⟩
def Fld.CB_OWNER_USED_USED (i : Nat) : Fld := ⟨Reg.CB_OWNER_USED i, 0, 20⟩
def Fld.CB_ANVIL_POOL_POOL : Fld := ⟨Reg.CB_ANVIL_POOL, 0, 6⟩
def Fld.CB_CELL_CMD_GO : Fld := ⟨Reg.CB_CELL_CMD, 31, 1⟩
def Fld.CB_CELL_CMD_OP : Fld := ⟨Reg.CB_CELL_CMD, 28, 3⟩
def Fld.CB_CELL_CMD_OVERRUN : Fld := ⟨Reg.CB_CELL_CMD, 27, 1⟩
def Fld.CB_CELL_CMD_ERR : Fld := ⟨Reg.CB_CELL_CMD, 26, 1⟩
def Fld.CB_CELL_CMD_POOL : Fld := ⟨Reg.CB_CELL_CMD, 20, 6⟩
def Fld.CB_CELL_CMD_CELL : Fld := ⟨Reg.CB_CELL_CMD, 0, 19⟩
def Fld.CB_CELL_RES_STATE : Fld := ⟨Reg.CB_CELL_RES, 31, 1⟩
def Fld.CB_CELL_RES_OWNER : Fld := ⟨Reg.CB_CELL_RES, 25, 6⟩
def Fld.CB_CELL_RES_POOL : Fld := ⟨Reg.CB_CELL_RES, 19, 6⟩
def Fld.CB_CELL_RES_CELL : Fld := ⟨Reg.CB_CELL_RES, 0, 19⟩
def Fld.CB_CELL_LINK_NO_POOL : Fld := ⟨Reg.CB_CELL_LINK, 31, 1⟩
def Fld.CB_CELL_LINK_LINK : Fld := ⟨Reg.CB_CELL_LINK, 0, 19⟩
def Fld.CB_PM_ERR_HEAD_W (i : Nat) : Fld := ⟨Reg.CB_PM_ERR_HEAD i, 0, 32⟩
def Fld.CB_PM_ERR_POP_POP : Fld := ⟨Reg.CB_PM_ERR_POP, 31, 1⟩
def Fld.CB_PM_ERR_POP_COUNT : Fld := ⟨Reg.CB_PM_ERR_POP, 0, 5⟩
def Fld.CB_PM_INT_STATUS_LOG_LOST : Fld := ⟨Reg.CB_PM_INT_STATUS, 3, 1⟩
def Fld.CB_PM_INT_STATUS_POOL_EMPTY : Fld := ⟨Reg.CB_PM_INT_STATUS, 2, 1⟩
def Fld.CB_PM_INT_STATUS_FOREIGN_FREE : Fld := ⟨Reg.CB_PM_INT_STATUS, 1, 1⟩
def Fld.CB_PM_INT_STATUS_DOUBLE_FREE : Fld := ⟨Reg.CB_PM_INT_STATUS, 0, 1⟩
def Fld.CB_PM_INT_EN_EN : Fld := ⟨Reg.CB_PM_INT_EN, 0, 4⟩
def Fld.CB_POOL_EMPTY_POOLS (i : Nat) : Fld := ⟨Reg.CB_POOL_EMPTY i, 0, 32⟩
def Fld.FB_ARB_CTRL_AGE_LIMIT : Fld := ⟨Reg.FB_ARB_CTRL, 16, 8⟩
def Fld.FB_ARB_CTRL_ITER : Fld := ⟨Reg.FB_ARB_CTRL, 0, 2⟩
def Fld.FB_ARB_PRIO_MC_LEVEL : Fld := ⟨Reg.FB_ARB_PRIO, 16, 16⟩
def Fld.FB_ARB_PRIO_UC_LEVEL : Fld := ⟨Reg.FB_ARB_PRIO, 0, 16⟩
def Fld.FB_MC_REC_USED : Fld := ⟨Reg.FB_MC_REC, 0, 19⟩
def Fld.FB_MODE_CTRL_RECAL : Fld := ⟨Reg.FB_MODE_CTRL, 2, 1⟩
def Fld.FB_MODE_CTRL_TEST : Fld := ⟨Reg.FB_MODE_CTRL, 1, 1⟩
def Fld.FB_MODE_CTRL_MODE_REQ : Fld := ⟨Reg.FB_MODE_CTRL, 0, 1⟩
def Fld.FB_MODE_STATUS_CAL_FAIL : Fld := ⟨Reg.FB_MODE_STATUS, 9, 1⟩
def Fld.FB_MODE_STATUS_CAL_OK : Fld := ⟨Reg.FB_MODE_STATUS, 8, 1⟩
def Fld.FB_MODE_STATUS_REASON : Fld := ⟨Reg.FB_MODE_STATUS, 3, 5⟩
def Fld.FB_MODE_STATUS_STATE : Fld := ⟨Reg.FB_MODE_STATUS, 0, 2⟩
def Fld.FB_FENCE_PORTS (i : Nat) : Fld := ⟨Reg.FB_FENCE i, 0, 32⟩
def Fld.FB_FDY_FREE_FREE : Fld := ⟨Reg.FB_FDY_FREE, 0, 20⟩
def Fld.FB_INT_STATUS_TEST_DONE : Fld := ⟨Reg.FB_INT_STATUS, 2, 1⟩
def Fld.FB_INT_STATUS_CAL_FAIL : Fld := ⟨Reg.FB_INT_STATUS, 1, 1⟩
def Fld.FB_INT_STATUS_MODE_CHG : Fld := ⟨Reg.FB_INT_STATUS, 0, 1⟩
def Fld.FB_INT_EN_EN : Fld := ⟨Reg.FB_INT_EN, 0, 3⟩
def Fld.FB_TEST_FAIL_BANKS : Fld := ⟨Reg.FB_TEST_FAIL, 0, 32⟩
def Fld.FB_TEST_SKIP_BANKS : Fld := ⟨Reg.FB_TEST_SKIP, 0, 32⟩
def Fld.FB_MIRROR_CTRL_EN (i : Nat) : Fld := ⟨Reg.FB_MIRROR_CTRL i, 31, 1⟩
def Fld.FB_MIRROR_CTRL_DEST_KIND (i : Nat) : Fld := ⟨Reg.FB_MIRROR_CTRL i, 30, 1⟩
def Fld.FB_MIRROR_CTRL_CLASS (i : Nat) : Fld := ⟨Reg.FB_MIRROR_CTRL i, 24, 3⟩
def Fld.FB_MIRROR_CTRL_TARGET (i : Nat) : Fld := ⟨Reg.FB_MIRROR_CTRL i, 0, 12⟩
def Fld.FB_MIRROR_TRUNC_TRUNC (i : Nat) : Fld := ⟨Reg.FB_MIRROR_TRUNC i, 0, 14⟩
def Fld.FB_MIRROR_STAT_STATE (i : Nat) : Fld := ⟨Reg.FB_MIRROR_STAT i, 0, 2⟩
def Fld.PL_DCLASS_MAP_MAP : Fld := ⟨Reg.PL_DCLASS_MAP, 0, 16⟩
def Fld.PL_LEN_PROF_OVH (i : Nat) : Fld := ⟨Reg.PL_LEN_PROF i, 0, 7⟩
def Fld.PL_UPOL_MAP_MAP (i : Nat) : Fld := ⟨Reg.PL_UPOL_MAP i, 0, 16⟩
def Fld.PL_LEVEL_CMD_GO : Fld := ⟨Reg.PL_LEVEL_CMD, 31, 1⟩
def Fld.PL_LEVEL_CMD_OP : Fld := ⟨Reg.PL_LEVEL_CMD, 29, 2⟩
def Fld.PL_LEVEL_CMD_OVERRUN : Fld := ⟨Reg.PL_LEVEL_CMD, 28, 1⟩
def Fld.PL_LEVEL_CMD_ERR : Fld := ⟨Reg.PL_LEVEL_CMD, 27, 1⟩
def Fld.PL_LEVEL_CMD_KIND : Fld := ⟨Reg.PL_LEVEL_CMD, 24, 3⟩
def Fld.PL_LEVEL_CMD_INDEX : Fld := ⟨Reg.PL_LEVEL_CMD, 0, 17⟩
def Fld.PL_SAMPLE_CTRL_EN : Fld := ⟨Reg.PL_SAMPLE_CTRL, 31, 1⟩
def Fld.PL_SAMPLE_CTRL_SKIP_EMPTY : Fld := ⟨Reg.PL_SAMPLE_CTRL, 30, 1⟩
def Fld.PL_SAMPLE_CTRL_RING : Fld := ⟨Reg.PL_SAMPLE_CTRL, 16, 12⟩
def Fld.PL_SAMPLE_CTRL_PERIOD : Fld := ⟨Reg.PL_SAMPLE_CTRL, 0, 16⟩
def Fld.PL_SAMPLE_FIRST_QUEUE : Fld := ⟨Reg.PL_SAMPLE_FIRST, 0, 17⟩
def Fld.PL_SAMPLE_LAST_QUEUE : Fld := ⟨Reg.PL_SAMPLE_LAST, 0, 17⟩
def Fld.PL_INT_STATUS_SAMPLE_DROP : Fld := ⟨Reg.PL_INT_STATUS, 1, 1⟩
def Fld.PL_INT_STATUS_MOVE_REFUSED : Fld := ⟨Reg.PL_INT_STATUS, 0, 1⟩
def Fld.PL_INT_EN_EN : Fld := ⟨Reg.PL_INT_EN, 0, 2⟩
def Fld.PL_MOVE_ERR_IS_GROUP : Fld := ⟨Reg.PL_MOVE_ERR, 31, 1⟩
def Fld.PL_MOVE_ERR_ID : Fld := ⟨Reg.PL_MOVE_ERR, 0, 14⟩
def Fld.PL_L0_CFG_SH_EN (i : Nat) : Fld := ⟨Reg.PL_L0_CFG i, 31, 1⟩
def Fld.PL_L0_CFG_PRIO (i : Nat) : Fld := ⟨Reg.PL_L0_CFG i, 28, 3⟩
def Fld.PL_L0_CFG_LPROF (i : Nat) : Fld := ⟨Reg.PL_L0_CFG i, 24, 4⟩
def Fld.PL_L0_CFG_WEIGHT (i : Nat) : Fld := ⟨Reg.PL_L0_CFG i, 0, 12⟩
def Fld.PL_L0_RATE_RATE (i : Nat) : Fld := ⟨Reg.PL_L0_RATE i, 0, 17⟩
def Fld.PL_L0_BURST_BURST (i : Nat) : Fld := ⟨Reg.PL_L0_BURST i, 0, 18⟩
def Fld.PL_L0_LEVEL_LEVEL (i : Nat) : Fld := ⟨Reg.PL_L0_LEVEL i, 0, 32⟩
def Fld.PL_PCQ_CFG_SH_EN (i : Nat) : Fld := ⟨Reg.PL_PCQ_CFG i, 31, 1⟩
def Fld.PL_PCQ_CFG_PRIO (i : Nat) : Fld := ⟨Reg.PL_PCQ_CFG i, 28, 3⟩
def Fld.PL_PCQ_CFG_LPROF (i : Nat) : Fld := ⟨Reg.PL_PCQ_CFG i, 24, 4⟩
def Fld.PL_PCQ_CFG_WEIGHT (i : Nat) : Fld := ⟨Reg.PL_PCQ_CFG i, 0, 12⟩
def Fld.PL_PCQ_RATE_RATE (i : Nat) : Fld := ⟨Reg.PL_PCQ_RATE i, 0, 17⟩
def Fld.PL_PCQ_BURST_BURST (i : Nat) : Fld := ⟨Reg.PL_PCQ_BURST i, 0, 18⟩
def Fld.PL_PCQ_LEVEL_LEVEL (i : Nat) : Fld := ⟨Reg.PL_PCQ_LEVEL i, 0, 32⟩
def Fld.PL_L1_CFG_SH_EN (i : Nat) : Fld := ⟨Reg.PL_L1_CFG i, 31, 1⟩
def Fld.PL_L1_CFG_PRIO (i : Nat) : Fld := ⟨Reg.PL_L1_CFG i, 28, 3⟩
def Fld.PL_L1_CFG_LPROF (i : Nat) : Fld := ⟨Reg.PL_L1_CFG i, 24, 4⟩
def Fld.PL_L1_CFG_WEIGHT (i : Nat) : Fld := ⟨Reg.PL_L1_CFG i, 0, 12⟩
def Fld.PL_L1_RATE_RATE (i : Nat) : Fld := ⟨Reg.PL_L1_RATE i, 0, 17⟩
def Fld.PL_L1_BURST_BURST (i : Nat) : Fld := ⟨Reg.PL_L1_BURST i, 0, 18⟩
def Fld.PL_L1_LEVEL_LEVEL (i : Nat) : Fld := ⟨Reg.PL_L1_LEVEL i, 0, 32⟩
def Fld.PL_L1_PARENT_PORT (i : Nat) : Fld := ⟨Reg.PL_L1_PARENT i, 0, 7⟩
def Fld.PL_L2_CFG_SH_EN (i : Nat) : Fld := ⟨Reg.PL_L2_CFG i, 31, 1⟩
def Fld.PL_L2_CFG_PRIO (i : Nat) : Fld := ⟨Reg.PL_L2_CFG i, 28, 3⟩
def Fld.PL_L2_CFG_LPROF (i : Nat) : Fld := ⟨Reg.PL_L2_CFG i, 24, 4⟩
def Fld.PL_L2_CFG_WEIGHT (i : Nat) : Fld := ⟨Reg.PL_L2_CFG i, 0, 12⟩
def Fld.PL_L2_RATE_RATE (i : Nat) : Fld := ⟨Reg.PL_L2_RATE i, 0, 17⟩
def Fld.PL_L2_BURST_BURST (i : Nat) : Fld := ⟨Reg.PL_L2_BURST i, 0, 18⟩
def Fld.PL_L2_LEVEL_LEVEL (i : Nat) : Fld := ⟨Reg.PL_L2_LEVEL i, 0, 32⟩
def Fld.PL_L2_PARENT_UPMAP (i : Nat) : Fld := ⟨Reg.PL_L2_PARENT i, 16, 4⟩
def Fld.PL_L2_PARENT_GROUP (i : Nat) : Fld := ⟨Reg.PL_L2_PARENT i, 0, 10⟩
def Fld.PL_L3_CFG_SH_EN (i : Nat) : Fld := ⟨Reg.PL_L3_CFG i, 31, 1⟩
def Fld.PL_L3_CFG_PRIO (i : Nat) : Fld := ⟨Reg.PL_L3_CFG i, 28, 3⟩
def Fld.PL_L3_CFG_LPROF (i : Nat) : Fld := ⟨Reg.PL_L3_CFG i, 24, 4⟩
def Fld.PL_L3_CFG_WEIGHT (i : Nat) : Fld := ⟨Reg.PL_L3_CFG i, 0, 12⟩
def Fld.PL_L3_RATE_RATE (i : Nat) : Fld := ⟨Reg.PL_L3_RATE i, 0, 17⟩
def Fld.PL_L3_BURST_BURST (i : Nat) : Fld := ⟨Reg.PL_L3_BURST i, 0, 18⟩
def Fld.PL_L3_LEVEL_LEVEL (i : Nat) : Fld := ⟨Reg.PL_L3_LEVEL i, 0, 32⟩
def Fld.PL_POL_CFG_C_EN (i : Nat) : Fld := ⟨Reg.PL_POL_CFG i, 31, 1⟩
def Fld.PL_POL_CFG_P_EN (i : Nat) : Fld := ⟨Reg.PL_POL_CFG i, 30, 1⟩
def Fld.PL_POL_CFG_AWARE (i : Nat) : Fld := ⟨Reg.PL_POL_CFG i, 29, 1⟩
def Fld.PL_POL_CFG_LPROF (i : Nat) : Fld := ⟨Reg.PL_POL_CFG i, 24, 4⟩
def Fld.PL_POL_C_RATE_RATE (i : Nat) : Fld := ⟨Reg.PL_POL_C_RATE i, 0, 17⟩
def Fld.PL_POL_C_BURST_BURST (i : Nat) : Fld := ⟨Reg.PL_POL_C_BURST i, 0, 18⟩
def Fld.PL_POL_P_RATE_RATE (i : Nat) : Fld := ⟨Reg.PL_POL_P_RATE i, 0, 17⟩
def Fld.PL_POL_P_BURST_BURST (i : Nat) : Fld := ⟨Reg.PL_POL_P_BURST i, 0, 18⟩
def Fld.PL_POL_C_LEVEL_LEVEL (i : Nat) : Fld := ⟨Reg.PL_POL_C_LEVEL i, 0, 32⟩
def Fld.PL_POL_P_LEVEL_LEVEL (i : Nat) : Fld := ⟨Reg.PL_POL_P_LEVEL i, 0, 32⟩
def Fld.PL_SOJ_WM_MAX_NS (i : Nat) : Fld := ⟨Reg.PL_SOJ_WM i, 0, 32⟩
def Fld.AV_INT_STATUS_MEP_CHG : Fld := ⟨Reg.AV_INT_STATUS, 3, 1⟩
def Fld.AV_INT_STATUS_CH_UNDERRUN : Fld := ⟨Reg.AV_INT_STATUS, 2, 1⟩
def Fld.AV_INT_STATUS_NOBUF : Fld := ⟨Reg.AV_INT_STATUS, 1, 1⟩
def Fld.AV_INT_STATUS_PM_RING_DROP : Fld := ⟨Reg.AV_INT_STATUS, 0, 1⟩
def Fld.AV_INT_EN_EN : Fld := ⟨Reg.AV_INT_EN, 0, 4⟩
def Fld.AV_MEP_MAC0_MAC : Fld := ⟨Reg.AV_MEP_MAC0, 0, 32⟩
def Fld.AV_MEP_MAC1_MAC : Fld := ⟨Reg.AV_MEP_MAC1, 0, 16⟩
def Fld.AV_PM_CTRL_ENABLE : Fld := ⟨Reg.AV_PM_CTRL, 31, 1⟩
def Fld.AV_PM_CTRL_RING_EN : Fld := ⟨Reg.AV_PM_CTRL, 30, 1⟩
def Fld.AV_PM_CTRL_RING : Fld := ⟨Reg.AV_PM_CTRL, 17, 12⟩
def Fld.AV_PM_CTRL_DAY_OFS : Fld := ⟨Reg.AV_PM_CTRL, 0, 17⟩
def Fld.AV_MEP_CHG_MEPS (i : Nat) : Fld := ⟨Reg.AV_MEP_CHG i, 0, 32⟩
def Fld.AV_MEP_CFG_EN (i : Nat) : Fld := ⟨Reg.AV_MEP_CFG i, 31, 1⟩
def Fld.AV_MEP_CFG_RDI_EN (i : Nat) : Fld := ⟨Reg.AV_MEP_CFG i, 30, 1⟩
def Fld.AV_MEP_CFG_FORCE_RDI (i : Nat) : Fld := ⟨Reg.AV_MEP_CFG i, 29, 1⟩
def Fld.AV_MEP_CFG_SEQ_CHK (i : Nat) : Fld := ⟨Reg.AV_MEP_CFG i, 28, 1⟩
def Fld.AV_MEP_CFG_UNPR_EN (i : Nat) : Fld := ⟨Reg.AV_MEP_CFG i, 27, 1⟩
def Fld.AV_MEP_CFG_LEVEL (i : Nat) : Fld := ⟨Reg.AV_MEP_CFG i, 24, 3⟩
def Fld.AV_MEP_CFG_INTERVAL (i : Nat) : Fld := ⟨Reg.AV_MEP_CFG i, 21, 3⟩
def Fld.AV_MEP_CFG_CLASS (i : Nat) : Fld := ⟨Reg.AV_MEP_CFG i, 18, 3⟩
def Fld.AV_MEP_CFG_PCP (i : Nat) : Fld := ⟨Reg.AV_MEP_CFG i, 15, 3⟩
def Fld.AV_MEP_CFG_TPID (i : Nat) : Fld := ⟨Reg.AV_MEP_CFG i, 13, 2⟩
def Fld.AV_MEP_CFG_VID (i : Nat) : Fld := ⟨Reg.AV_MEP_CFG i, 0, 12⟩
def Fld.AV_MEP_IDS_MEPID (i : Nat) : Fld := ⟨Reg.AV_MEP_IDS i, 16, 13⟩
def Fld.AV_MEP_IDS_RMEPID (i : Nat) : Fld := ⟨Reg.AV_MEP_IDS i, 0, 13⟩
def Fld.AV_MEP_PORT_PORT (i : Nat) : Fld := ⟨Reg.AV_MEP_PORT i, 0, 8⟩
def Fld.AV_MEP_STATUS_ACTIVE (i : Nat) : Fld := ⟨Reg.AV_MEP_STATUS i, 31, 1⟩
def Fld.AV_MEP_STATUS_KEY_CLASH (i : Nat) : Fld := ⟨Reg.AV_MEP_STATUS i, 30, 1⟩
def Fld.AV_MEP_STATUS_RDI_TX (i : Nat) : Fld := ⟨Reg.AV_MEP_STATUS i, 29, 1⟩
def Fld.AV_MEP_STATUS_DEF (i : Nat) : Fld := ⟨Reg.AV_MEP_STATUS i, 0, 7⟩
def Fld.AV_MEP_MAID0_W (i : Nat) : Fld := ⟨Reg.AV_MEP_MAID0 i, 0, 32⟩
def Fld.AV_MEP_MAID1_W (i : Nat) : Fld := ⟨Reg.AV_MEP_MAID1 i, 0, 32⟩
def Fld.AV_MEP_MAID2_W (i : Nat) : Fld := ⟨Reg.AV_MEP_MAID2 i, 0, 32⟩
def Fld.AV_MEP_MAID3_W (i : Nat) : Fld := ⟨Reg.AV_MEP_MAID3 i, 0, 32⟩
def Fld.AV_MEP_MAID4_W (i : Nat) : Fld := ⟨Reg.AV_MEP_MAID4 i, 0, 32⟩
def Fld.AV_MEP_MAID5_W (i : Nat) : Fld := ⟨Reg.AV_MEP_MAID5 i, 0, 32⟩
def Fld.AV_MEP_MAID6_W (i : Nat) : Fld := ⟨Reg.AV_MEP_MAID6 i, 0, 32⟩
def Fld.AV_MEP_MAID7_W (i : Nat) : Fld := ⟨Reg.AV_MEP_MAID7 i, 0, 32⟩
def Fld.AV_MEP_MAID8_W (i : Nat) : Fld := ⟨Reg.AV_MEP_MAID8 i, 0, 32⟩
def Fld.AV_MEP_MAID9_W (i : Nat) : Fld := ⟨Reg.AV_MEP_MAID9 i, 0, 32⟩
def Fld.AV_MEP_MAID10_W (i : Nat) : Fld := ⟨Reg.AV_MEP_MAID10 i, 0, 32⟩
def Fld.AV_MEP_MAID11_W (i : Nat) : Fld := ⟨Reg.AV_MEP_MAID11 i, 0, 32⟩
def Fld.DB_CTRL_TRACE_EN : Fld := ⟨Reg.DB_CTRL, 31, 1⟩
def Fld.DB_CTRL_FREEZE : Fld := ⟨Reg.DB_CTRL, 30, 1⟩
def Fld.DB_TRIG_QUEUE_EN : Fld := ⟨Reg.DB_TRIG, 31, 1⟩
def Fld.DB_TRIG_PIPE_EN : Fld := ⟨Reg.DB_TRIG, 30, 1⟩
def Fld.DB_TRIG_PIPE : Fld := ⟨Reg.DB_TRIG, 27, 3⟩
def Fld.DB_TRIG_QUEUE : Fld := ⟨Reg.DB_TRIG, 0, 17⟩
def Fld.DB_TRACE_STAT_POP : Fld := ⟨Reg.DB_TRACE_STAT, 31, 1⟩
def Fld.DB_TRACE_STAT_WRAPPED : Fld := ⟨Reg.DB_TRACE_STAT, 30, 1⟩
def Fld.DB_TRACE_STAT_COUNT : Fld := ⟨Reg.DB_TRACE_STAT, 0, 13⟩
def Fld.DB_TRACE_HEAD_ENTRY (i : Nat) : Fld := ⟨Reg.DB_TRACE_HEAD i, 0, 32⟩
def Fld.DB_SNAP_CTRL_GO : Fld := ⟨Reg.DB_SNAP_CTRL, 31, 1⟩
def Fld.DB_SNAP_CTRL_WINDOW : Fld := ⟨Reg.DB_SNAP_CTRL, 0, 12⟩
def Fld.DB_INT_STATUS_SNAP_DONE : Fld := ⟨Reg.DB_INT_STATUS, 1, 1⟩
def Fld.DB_INT_STATUS_TRACE_FULL : Fld := ⟨Reg.DB_INT_STATUS, 0, 1⟩
def Fld.DB_INT_EN_EN : Fld := ⟨Reg.DB_INT_EN, 0, 2⟩
def Fld.DB_SNAP_BUF_COUNT (i : Nat) : Fld := ⟨Reg.DB_SNAP_BUF i, 0, 32⟩

/-! ### The register tables of the blocks -/

/-- The registers of the block GL (R515, R451, R487). -/
def regTableGL : List RegDef := [
  -- GL_ID
  ⟨0x0, 1, 0x4, [⟨31, 16, .ro, 0x9144⟩, ⟨15, 8, .ro, 0xA1⟩]⟩,
  -- GL_INT_CTRL
  ⟨0x10, 1, 0x4, [⟨0, 0, .rw, 0x0⟩]⟩,
  -- GL_INT_STATUS
  ⟨0x18, 1, 0x4, [⟨2, 2, .w1c, 0x0⟩, ⟨1, 1, .w1c, 0x0⟩, ⟨0, 0, .w1c, 0x0⟩]⟩,
  -- GL_INT_EN
  ⟨0x1C, 1, 0x4, [⟨2, 0, .rw, 0x0⟩]⟩,
  -- GL_RESET_CAUSE
  ⟨0x20, 1, 0x4, [⟨4, 4, .w1c, 0x0⟩, ⟨3, 3, .w1c, 0x0⟩, ⟨2, 2, .w1c, 0x0⟩, ⟨1, 1, .w1c, 0x0⟩, ⟨0, 0, .w1c, 0x1⟩]⟩,
  -- GL_BOOT_STATUS
  ⟨0x100, 1, 0x4, [⟨30, 24, .ro, 0x0⟩, ⟨22, 16, .ro, 0x0⟩, ⟨8, 8, .ro, 0x0⟩, ⟨7, 6, .ro, 0x0⟩, ⟨5, 4, .ro, 0x0⟩, ⟨3, 0, .ro, 0x0⟩]⟩,
  -- GL_BOOT_CTRL
  ⟨0x104, 1, 0x4, [⟨31, 31, .sc, 0x0⟩]⟩,
  -- GL_IMAGE_SEQ
  ⟨0x108, 1, 0x4, [⟨31, 0, .ro, 0x0⟩]⟩,
  -- GL_IMAGE_INFO
  ⟨0x10C, 1, 0x4, [⟨15, 8, .ro, 0x0⟩, ⟨7, 0, .ro, 0x0⟩]⟩,
  -- GL_IMAGE_DIGEST
  ⟨0x140, 16, 0x4, [⟨31, 0, .ro, 0x0⟩]⟩]

/-- The registers of the block CM (R424, R329). -/
def regTableCM : List RegDef := [
  -- CM_COMMIT
  ⟨0x10000, 1, 0x4, [⟨31, 0, .wo, 0x0⟩]⟩,
  -- CM_REVERT
  ⟨0x10004, 1, 0x4, [⟨31, 0, .wo, 0x0⟩]⟩,
  -- CM_PENDING
  ⟨0x10008, 1, 0x4, [⟨31, 0, .ro, 0x0⟩]⟩,
  -- CM_UNIT_GROUP
  ⟨0x10010, 32, 0x4, [⟨4, 0, .ro, 0x0⟩]⟩,
  -- CM_INT_STATUS
  ⟨0x100C0, 1, 0x4, [⟨2, 2, .w1c, 0x0⟩, ⟨1, 1, .w1c, 0x0⟩, ⟨0, 0, .w1c, 0x0⟩]⟩,
  -- CM_INT_EN
  ⟨0x100C4, 1, 0x4, [⟨2, 0, .rw, 0x0⟩]⟩,
  -- CM_ACC_ERR_ADDR
  ⟨0x100D0, 1, 0x4, [⟨25, 0, .ro, 0x0⟩]⟩,
  -- CM_ACC_ERR_INFO
  ⟨0x100D4, 1, 0x4, [⟨31, 31, .w1c, 0x0⟩, ⟨30, 28, .ro, 0x0⟩, ⟨27, 26, .ro, 0x0⟩, ⟨25, 25, .ro, 0x0⟩, ⟨7, 0, .ro, 0x0⟩]⟩,
  -- CM_TIMED_CTRL
  ⟨0x10100, 4, 0x20, [⟨31, 31, .sc, 0x0⟩, ⟨30, 30, .wo, 0x0⟩, ⟨29, 28, .ro, 0x0⟩, ⟨27, 27, .rw, 0x0⟩, ⟨26, 26, .ro, 0x0⟩]⟩,
  -- CM_TIMED_MASK
  ⟨0x10104, 4, 0x20, [⟨31, 0, .rw, 0x0⟩]⟩,
  -- CM_TIMED_TIME0
  ⟨0x10110, 4, 0x20, [⟨29, 0, .rw, 0x0⟩]⟩,
  -- CM_TIMED_TIME1
  ⟨0x10114, 4, 0x20, [⟨31, 0, .rw, 0x0⟩]⟩,
  -- CM_TIMED_TIME2
  ⟨0x10118, 4, 0x20, [⟨31, 16, .rw, 0x0⟩, ⟨15, 0, .rw, 0x0⟩]⟩]

/-- The registers of the block JN (R425). -/
def regTableJN : List RegDef := [
  -- JN_HEAD0
  ⟨0x18000, 1, 0x4, [⟨31, 0, .ro, 0x0⟩]⟩,
  -- JN_HEAD1
  ⟨0x18004, 1, 0x4, [⟨15, 0, .ro, 0x0⟩]⟩,
  -- JN_WRAPS
  ⟨0x18008, 1, 0x4, [⟨31, 0, .ro, 0x0⟩]⟩,
  -- JN_LOST_RECORDS
  ⟨0x1800C, 1, 0x4, [⟨31, 0, .ro, 0x0⟩]⟩,
  -- JN_SEL0
  ⟨0x18010, 1, 0x4, [⟨31, 0, .rw, 0x0⟩]⟩,
  -- JN_SEL1
  ⟨0x18014, 1, 0x4, [⟨15, 0, .rw, 0x0⟩]⟩,
  -- JN_SEL_STATUS
  ⟨0x18018, 1, 0x4, [⟨1, 0, .ro, 0x2⟩]⟩,
  -- JN_REC
  ⟨0x18020, 8, 0x4, [⟨31, 0, .ro, 0x0⟩]⟩,
  -- JN_MARK0
  ⟨0x18040, 1, 0x4, [⟨31, 0, .rw, 0x0⟩]⟩,
  -- JN_MARK1
  ⟨0x18044, 1, 0x4, [⟨15, 0, .rw, 0x0⟩]⟩]

/-- The registers of the block SG (R482 table of the Signet chapter). -/
def regTableSG : List RegDef := [
  -- SG_STATUS
  ⟨0x20000, 1, 0x4, [⟨31, 30, .ro, 0x0⟩, ⟨29, 28, .ro, 0x0⟩, ⟨27, 27, .ro, 0x0⟩, ⟨26, 26, .ro, 0x0⟩, ⟨25, 25, .ro, 0x0⟩, ⟨24, 23, .ro, 0x0⟩, ⟨6, 0, .ro, 0x0⟩]⟩,
  -- SG_CMD
  ⟨0x20004, 1, 0x4, [⟨31, 31, .sc, 0x0⟩, ⟨30, 29, .rw, 0x0⟩, ⟨28, 28, .w1c, 0x0⟩, ⟨7, 0, .ro, 0x0⟩]⟩,
  -- SG_OBSERVE
  ⟨0x20008, 1, 0x4, [⟨0, 0, .rw, 0x0⟩]⟩,
  -- SG_UID
  ⟨0x20010, 2, 0x4, [⟨31, 0, .ro, 0x0⟩]⟩,
  -- SG_NONCE
  ⟨0x20020, 8, 0x4, [⟨31, 0, .ro, 0x0⟩]⟩,
  -- SG_ID_PK
  ⟨0x20040, 8, 0x4, [⟨31, 0, .ro, 0x0⟩]⟩,
  -- SG_SEED
  ⟨0x20060, 8, 0x4, [⟨31, 0, .wo, 0x0⟩]⟩,
  -- SG_INT_STATUS
  ⟨0x20080, 1, 0x4, [⟨3, 3, .w1c, 0x0⟩, ⟨2, 2, .w1c, 0x0⟩, ⟨1, 1, .w1c, 0x0⟩, ⟨0, 0, .w1c, 0x0⟩]⟩,
  -- SG_INT_EN
  ⟨0x20084, 1, 0x4, [⟨3, 0, .rw, 0x0⟩]⟩,
  -- SG_TOKEN_BUF
  ⟨0x28000, 8192, 0x4, [⟨31, 0, .rw, 0x0⟩]⟩]

/-- The registers of the block PW (R482). -/
def regTablePW : List RegDef := [
  -- PW_CTRL
  ⟨0x30000, 1, 0x4, [⟨1, 0, .rw, 0x0⟩]⟩,
  -- PW_STATUS
  ⟨0x30004, 1, 0x4, [⟨31, 30, .ro, 0x0⟩, ⟨29, 29, .ro, 0x0⟩, ⟨28, 28, .ro, 0x0⟩, ⟨23, 16, .ro, 0x0⟩, ⟨15, 8, .ro, 0x0⟩]⟩,
  -- PW_BANK_RET
  ⟨0x30008, 1, 0x4, [⟨31, 0, .ro, 0x0⟩]⟩,
  -- PW_DOZE_CFG
  ⟨0x3000C, 1, 0x4, [⟨31, 24, .rw, 0x14⟩, ⟨23, 16, .rw, 0x10⟩, ⟨15, 8, .rw, 0x32⟩, ⟨7, 0, .rw, 0xA⟩]⟩,
  -- PW_INT_STATUS
  ⟨0x30010, 1, 0x4, [⟨3, 3, .w1c, 0x0⟩, ⟨2, 2, .w1c, 0x0⟩, ⟨1, 1, .w1c, 0x0⟩, ⟨0, 0, .w1c, 0x0⟩]⟩,
  -- PW_INT_EN
  ⟨0x30014, 1, 0x4, [⟨3, 0, .rw, 0x0⟩]⟩]

/-- The registers of the block HM (R327). -/
def regTableHM_0 : List RegDef := [
  -- HM_TIME
  ⟨0x40000, 3, 0x4, [⟨31, 0, .ro, 0x0⟩]⟩,
  -- HM_SET0
  ⟨0x40010, 1, 0x4, [⟨29, 0, .rw, 0x0⟩]⟩,
  -- HM_SET1
  ⟨0x40014, 1, 0x4, [⟨31, 0, .rw, 0x0⟩]⟩,
  -- HM_SET2
  ⟨0x40018, 1, 0x4, [⟨31, 16, .rw, 0x0⟩, ⟨15, 0, .rw, 0x0⟩]⟩,
  -- HM_SET_CTRL
  ⟨0x4001C, 1, 0x4, [⟨31, 31, .sc, 0x0⟩, ⟨30, 29, .rw, 0x0⟩, ⟨28, 28, .w1c, 0x0⟩]⟩,
  -- HM_ADDEND0
  ⟨0x40020, 1, 0x4, [⟨31, 0, .rw, 0x0⟩]⟩,
  -- HM_ADDEND1
  ⟨0x40024, 1, 0x4, [⟨7, 0, .rw, 0x0⟩]⟩,
  -- HM_ADDEND_ACT0
  ⟨0x40028, 1, 0x4, [⟨31, 0, .ro, 0x0⟩]⟩,
  -- HM_ADDEND_ACT1
  ⟨0x4002C, 1, 0x4, [⟨7, 0, .ro, 0x0⟩]⟩,
  -- HM_SERVO_CTRL
  ⟨0x40030, 1, 0x4, [⟨31, 31, .rw, 0x0⟩, ⟨30, 28, .rw, 0x0⟩, ⟨22, 16, .rw, 0x0⟩, ⟨15, 12, .rw, 0x4⟩, ⟨11, 8, .rw, 0x1⟩, ⟨7, 4, .rw, 0x4⟩, ⟨3, 3, .rw, 0x1⟩]⟩,
  -- HM_SERVO_THR
  ⟨0x40034, 1, 0x4, [⟨31, 24, .rw, 0x1E⟩, ⟨23, 20, .rw, 0x8⟩, ⟨19, 10, .rw, 0x7D⟩, ⟨9, 0, .rw, 0x14⟩]⟩,
  -- HM_STEP_NS
  ⟨0x40038, 1, 0x4, [⟨31, 0, .rw, 0xF4240⟩]⟩,
  -- HM_SERVO_STATUS
  ⟨0x4003C, 1, 0x4, [⟨2, 2, .ro, 0x0⟩, ⟨1, 0, .ro, 0x0⟩]⟩,
  -- HM_SW_OFFSET0
  ⟨0x40040, 1, 0x4, [⟨31, 0, .rw, 0x0⟩]⟩,
  -- HM_SW_OFFSET1
  ⟨0x40044, 1, 0x4, [⟨15, 0, .rw, 0x0⟩]⟩,
  -- HM_LAST_OFFSET0
  ⟨0x40048, 1, 0x4, [⟨31, 0, .ro, 0x0⟩]⟩,
  -- HM_LAST_OFFSET1
  ⟨0x4004C, 1, 0x4, [⟨15, 0, .ro, 0x0⟩]⟩,
  -- HM_UTC
  ⟨0x40050, 1, 0x4, [⟨23, 16, .rw, 0xF8⟩, ⟨15, 0, .rw, 0x25⟩]⟩,
  -- HM_INT_STATUS
  ⟨0x40060, 1, 0x4, [⟨10, 10, .w1c, 0x0⟩, ⟨9, 9, .w1c, 0x0⟩, ⟨8, 8, .w1c, 0x0⟩, ⟨7, 7, .w1c, 0x0⟩, ⟨6, 6, .w1c, 0x0⟩, ⟨5, 5, .w1c, 0x0⟩, ⟨4, 4, .w1c, 0x0⟩, ⟨3, 3, .w1c, 0x0⟩, ⟨2, 2, .w1c, 0x0⟩, ⟨1, 1, .w1c, 0x0⟩, ⟨0, 0, .w1c, 0x0⟩]⟩,
  -- HM_INT_EN
  ⟨0x40064, 1, 0x4, [⟨10, 0, .rw, 0x0⟩]⟩,
  -- HM_PPS_CTRL
  ⟨0x40080, 1, 0x4, [⟨31, 31, .rw, 0x0⟩, ⟨30, 30, .rw, 0x1⟩, ⟨29, 29, .rw, 0x0⟩, ⟨23, 0, .rw, 0xBEBC20⟩]⟩,
  -- HM_PPS_OUT_OFS
  ⟨0x40084, 1, 0x4, [⟨31, 0, .rw, 0x0⟩]⟩,
  -- HM_PPS_IN_OFS
  ⟨0x40088, 1, 0x4, [⟨31, 0, .rw, 0x0⟩]⟩,
  -- HM_TOD_CTRL
  ⟨0x40090, 1, 0x4, [⟨31, 31, .rw, 0x0⟩, ⟨30, 30, .rw, 0x0⟩, ⟨1, 0, .rw, 0x1⟩]⟩]

/-- The registers of the block HM (R327). -/
def regTableHM_1 : List RegDef := [
  -- HM_TOD_RX
  ⟨0x400A0, 4, 0x4, [⟨31, 0, .ro, 0x0⟩]⟩,
  -- HM_EVT_CTRL
  ⟨0x400C0, 2, 0x40, [⟨31, 30, .rw, 0x0⟩, ⟨29, 29, .rw, 0x0⟩, ⟨28, 27, .rw, 0x1⟩, ⟨26, 26, .sc, 0x0⟩]⟩,
  -- HM_EVT_WIDTH
  ⟨0x400C4, 2, 0x40, [⟨23, 0, .rw, 0x1⟩]⟩,
  -- HM_EVT_TIME0
  ⟨0x400D0, 2, 0x40, [⟨29, 0, .rw, 0x0⟩]⟩,
  -- HM_EVT_TIME1
  ⟨0x400D4, 2, 0x40, [⟨31, 0, .rw, 0x0⟩]⟩,
  -- HM_EVT_TIME2
  ⟨0x400D8, 2, 0x40, [⟨31, 16, .rw, 0x0⟩, ⟨15, 0, .rw, 0x0⟩]⟩,
  -- HM_EVT_PERIOD
  ⟨0x400E0, 2, 0x40, [⟨29, 0, .rw, 0x3B9ACA00⟩]⟩,
  -- HM_EVT_CAP0
  ⟨0x400F0, 2, 0x40, [⟨31, 0, .ro, 0x0⟩]⟩,
  -- HM_EVT_CAP1
  ⟨0x400F4, 2, 0x40, [⟨31, 0, .ro, 0x0⟩]⟩,
  -- HM_EVT_CAP2
  ⟨0x400F8, 2, 0x40, [⟨31, 0, .ro, 0x0⟩]⟩,
  -- HM_EVT_CAP_STAT
  ⟨0x400FC, 2, 0x40, [⟨31, 31, .wo, 0x0⟩, ⟨3, 0, .ro, 0x0⟩]⟩,
  -- HM_LAUNCH_CTRL
  ⟨0x40140, 1, 0x4, [⟨23, 16, .rw, 0x1⟩, ⟨15, 0, .rw, 0xFA⟩]⟩,
  -- HM_GATE_CTRL
  ⟨0x41000, 144, 0x20, [⟨31, 31, .rws, 0x0⟩, ⟨30, 30, .rws, 0x1⟩, ⟨6, 0, .rws, 0x1⟩]⟩,
  -- HM_GATE_CYCLE
  ⟨0x41004, 144, 0x20, [⟨29, 0, .rws, 0xF4240⟩]⟩,
  -- HM_GATE_BASE0
  ⟨0x41010, 144, 0x20, [⟨29, 0, .rws, 0x0⟩]⟩,
  -- HM_GATE_BASE1
  ⟨0x41014, 144, 0x20, [⟨31, 0, .rws, 0x0⟩]⟩,
  -- HM_GATE_BASE2
  ⟨0x41018, 144, 0x20, [⟨31, 16, .rws, 0x0⟩, ⟨15, 0, .rws, 0x0⟩]⟩,
  -- HM_GATE_ENT
  ⟨0x44000, 9216, 0x4, [⟨31, 24, .rws, 0xFF⟩, ⟨23, 0, .rws, 0xF42400⟩]⟩]

/-- The registers of the block HM (R327). -/
def regTableHM : List RegDef := regTableHM_0 ++ regTableHM_1

/-- The registers of the block TW (R359). -/
def regTableTW_0 : List RegDef := [
  -- TW_CFG
  ⟨0x50000, 1, 0x4, [⟨31, 31, .rw, 0x0⟩, ⟨30, 30, .rw, 0x0⟩, ⟨29, 29, .rw, 0x0⟩, ⟨28, 28, .rw, 0x1⟩, ⟨27, 27, .rw, 0x1⟩, ⟨26, 26, .rw, 0x1⟩, ⟨6, 0, .rw, 0x0⟩]⟩,
  -- TW_PAIR_ID
  ⟨0x50004, 1, 0x4, [⟨31, 0, .rw, 0x0⟩]⟩,
  -- TW_HB_CFG
  ⟨0x50008, 1, 0x4, [⟨31, 24, .rw, 0x1E⟩, ⟨23, 16, .rw, 0x5⟩, ⟨7, 0, .rw, 0xA⟩]⟩,
  -- TW_LEASE_CFG
  ⟨0x5000C, 1, 0x4, [⟨23, 16, .rw, 0xA⟩, ⟨15, 8, .rw, 0x32⟩, ⟨7, 0, .rw, 0xA⟩]⟩,
  -- TW_STATUS
  ⟨0x50010, 1, 0x4, [⟨31, 31, .ro, 0x0⟩, ⟨30, 30, .ro, 0x0⟩, ⟨29, 29, .ro, 0x0⟩, ⟨28, 28, .ro, 0x0⟩, ⟨27, 27, .ro, 0x0⟩, ⟨26, 26, .ro, 0x0⟩, ⟨25, 25, .ro, 0x0⟩, ⟨24, 24, .ro, 0x0⟩, ⟨18, 16, .ro, 0x0⟩]⟩,
  -- TW_EPOCH_SEEN
  ⟨0x50014, 1, 0x4, [⟨31, 0, .ro, 0x0⟩]⟩,
  -- TW_EPOCH_HELD
  ⟨0x50018, 1, 0x4, [⟨31, 0, .ro, 0x0⟩]⟩,
  -- TW_LEASE_REMAIN
  ⟨0x5001C, 1, 0x4, [⟨31, 0, .ro, 0x0⟩]⟩,
  -- TW_LEASE_CMD
  ⟨0x50020, 1, 0x4, [⟨31, 31, .sc, 0x0⟩, ⟨30, 28, .rw, 0x0⟩, ⟨27, 27, .w1c, 0x0⟩, ⟨26, 26, .ro, 0x0⟩]⟩,
  -- TW_LEASE_ARG
  ⟨0x50024, 1, 0x4, [⟨31, 0, .rw, 0x0⟩]⟩,
  -- TW_INT_STATUS
  ⟨0x50028, 1, 0x4, [⟨9, 9, .w1c, 0x0⟩, ⟨8, 8, .w1c, 0x0⟩, ⟨7, 7, .w1c, 0x0⟩, ⟨6, 6, .w1c, 0x0⟩, ⟨5, 5, .w1c, 0x0⟩, ⟨4, 4, .w1c, 0x0⟩, ⟨3, 3, .w1c, 0x0⟩, ⟨2, 2, .w1c, 0x0⟩, ⟨1, 1, .w1c, 0x0⟩, ⟨0, 0, .w1c, 0x0⟩]⟩,
  -- TW_INT_EN
  ⟨0x5002C, 1, 0x4, [⟨9, 0, .rw, 0x0⟩]⟩,
  -- TW_PEER_JN_HEAD0
  ⟨0x50030, 1, 0x4, [⟨31, 0, .ro, 0x0⟩]⟩,
  -- TW_PEER_JN_HEAD1
  ⟨0x50034, 1, 0x4, [⟨15, 0, .ro, 0x0⟩]⟩,
  -- TW_PEER_EPOCH
  ⟨0x50038, 1, 0x4, [⟨31, 0, .ro, 0x0⟩]⟩,
  -- TW_GEN_CFG
  ⟨0x51000, 1, 0x4, [⟨31, 31, .rw, 0x0⟩, ⟨23, 16, .rw, 0x1⟩, ⟨7, 0, .rw, 0x14⟩]⟩,
  -- TW_MIRROR_CTRL
  ⟨0x51004, 1, 0x4, [⟨31, 31, .rw, 0x0⟩, ⟨30, 30, .sc, 0x0⟩, ⟨29, 29, .rw, 0x1⟩]⟩,
  -- TW_MIRROR_STATUS
  ⟨0x51008, 1, 0x4, [⟨2, 0, .w1c, 0x0⟩]⟩,
  -- TW_TRUNKGEN
  ⟨0x51040, 16, 0x4, [⟨31, 31, .rw, 0x0⟩, ⟨30, 30, .rw, 0x0⟩, ⟨29, 16, .rw, 0x0⟩, ⟨13, 0, .rw, 0x0⟩]⟩,
  -- TW_REC_PORT
  ⟨0x51080, 5, 0x4, [⟨31, 0, .rw, 0x0⟩]⟩,
  -- TW_REC_PROF
  ⟨0x510C0, 16, 0x4, [⟨23, 16, .rw, 0x14⟩, ⟨6, 0, .rw, 0x20⟩]⟩,
  -- TW_SGL_RING
  ⟨0x51200, 128, 0x4, [⟨31, 0, .rw, 0x0⟩]⟩,
  -- TW_SGL_MEP
  ⟨0x51400, 128, 0x4, [⟨31, 0, .rw, 0x0⟩]⟩,
  -- TW_GEN
  ⟨0x60000, 16384, 0x4, [⟨31, 31, .rw, 0x0⟩, ⟨30, 30, .ro, 0x0⟩, ⟨15, 0, .ro, 0x0⟩]⟩]

/-- The registers of the block TW (R359). -/
def regTableTW_1 : List RegDef := [
  -- TW_REC
  ⟨0x70000, 16384, 0x4, [⟨31, 31, .rw, 0x0⟩, ⟨19, 16, .rw, 0x0⟩, ⟨15, 0, .ro, 0x0⟩]⟩]

/-- The registers of the block TW (R359). -/
def regTableTW : List RegDef := regTableTW_0 ++ regTableTW_1

/-- The registers of the block HI (R394, R395). -/
def regTableHI : List RegDef := [
  -- HI_RING_BASE_LO
  ⟨0x80000, 4096, 0x40, [⟨31, 6, .rw, 0x0⟩]⟩,
  -- HI_RING_BASE_HI
  ⟨0x80004, 4096, 0x40, [⟨31, 0, .rw, 0x0⟩]⟩,
  -- HI_RING_CFG
  ⟨0x80008, 4096, 0x40, [⟨31, 31, .rw, 0x0⟩, ⟨30, 28, .rw, 0x0⟩, ⟨27, 23, .rw, 0x4⟩, ⟨22, 11, .rw, 0x0⟩]⟩,
  -- HI_RING_CFG2
  ⟨0x8000C, 4096, 0x40, [⟨31, 0, .rw, 0x0⟩]⟩,
  -- HI_RING_CHAIN_TO
  ⟨0x80010, 4096, 0x40, [⟨15, 0, .rw, 0x3E8⟩]⟩,
  -- HI_RING_STATUS
  ⟨0x80014, 4096, 0x40, [⟨31, 30, .ro, 0x0⟩, ⟨29, 29, .ro, 0x0⟩, ⟨16, 16, .ro, 0x0⟩, ⟨15, 0, .ro, 0x0⟩]⟩,
  -- HI_RING_DB
  ⟨0x80018, 4096, 0x40, [⟨16, 0, .ro, 0x0⟩]⟩,
  -- HI_RING_CTRL
  ⟨0x8001C, 4096, 0x40, [⟨31, 31, .sc, 0x0⟩, ⟨3, 3, .w1c, 0x0⟩, ⟨2, 2, .w1c, 0x0⟩, ⟨1, 1, .w1c, 0x0⟩]⟩,
  -- HI_RING_ABORT
  ⟨0x80020, 4096, 0x40, [⟨31, 31, .sc, 0x0⟩, ⟨30, 30, .w1c, 0x0⟩, ⟨29, 27, .ro, 0x0⟩, ⟨15, 0, .rw, 0x0⟩]⟩,
  -- HI_RING_PENDING
  ⟨0x80024, 4096, 0x40, [⟨10, 0, .ro, 0x0⟩]⟩,
  -- HI_SRC_MAP
  ⟨0xC0000, 512, 0x4, [⟨31, 31, .rw, 0x0⟩, ⟨10, 0, .rw, 0x0⟩]⟩,
  -- HI_SRC_PEND
  ⟨0xC0800, 16, 0x4, [⟨31, 0, .ro, 0x0⟩]⟩,
  -- HI_VEC_EOI
  ⟨0xC0900, 1, 0x4, [⟨10, 0, .wo, 0x0⟩]⟩,
  -- HI_INT_STATUS
  ⟨0xC0910, 1, 0x4, [⟨2, 2, .w1c, 0x0⟩, ⟨1, 1, .w1c, 0x0⟩, ⟨0, 0, .w1c, 0x0⟩]⟩,
  -- HI_INT_EN
  ⟨0xC0914, 1, 0x4, [⟨2, 0, .rw, 0x0⟩]⟩,
  -- HI_ERR_RING
  ⟨0xC0918, 1, 0x4, [⟨11, 0, .ro, 0x0⟩]⟩]

/-- The registers of the block PT (R55, R243, R328, R87, R120). -/
def regTablePT_0 : List RegDef := [
  -- PT_MODE
  ⟨0x0, 1, 0x4, [⟨6, 6, .rws, 0x0⟩, ⟨5, 4, .rws, 0x0⟩, ⟨3, 0, .rws, 0x0⟩]⟩,
  -- PT_CTRL
  ⟨0x4, 1, 0x4, [⟨7, 7, .sc, 0x0⟩, ⟨6, 6, .rw, 0x1⟩, ⟨5, 5, .sc, 0x0⟩, ⟨4, 4, .rw, 0x1⟩, ⟨3, 2, .rw, 0x0⟩, ⟨0, 0, .rw, 0x0⟩]⟩,
  -- PT_STATUS
  ⟨0x8, 1, 0x4, [⟨31, 24, .ro, 0x0⟩, ⟨23, 20, .ro, 0x0⟩, ⟨17, 16, .ro, 0x0⟩, ⟨14, 13, .ro, 0x0⟩, ⟨12, 11, .ro, 0x0⟩, ⟨10, 10, .ro, 0x0⟩, ⟨9, 9, .ro, 0x0⟩, ⟨8, 8, .ro, 0x0⟩, ⟨7, 7, .ro, 0x0⟩, ⟨6, 6, .ro, 0x0⟩, ⟨5, 5, .ro, 0x0⟩, ⟨4, 4, .ro, 0x0⟩, ⟨3, 3, .ro, 0x0⟩, ⟨2, 2, .ro, 0x0⟩, ⟨1, 1, .ro, 0x0⟩, ⟨0, 0, .ro, 0x0⟩]⟩,
  -- PT_INT_STATUS
  ⟨0xC, 1, 0x4, [⟨6, 6, .w1c, 0x0⟩, ⟨5, 5, .w1c, 0x0⟩, ⟨4, 4, .w1c, 0x0⟩, ⟨3, 3, .w1c, 0x0⟩, ⟨2, 2, .w1c, 0x0⟩, ⟨1, 1, .w1c, 0x0⟩, ⟨0, 0, .w1c, 0x0⟩]⟩,
  -- PT_INT_EN
  ⟨0x10, 1, 0x4, [⟨6, 0, .rw, 0x0⟩]⟩,
  -- PT_MTU
  ⟨0x14, 1, 0x4, [⟨13, 0, .rw, 0x5F2⟩]⟩,
  -- PT_DEBOUNCE
  ⟨0x18, 1, 0x4, [⟨15, 8, .rw, 0xA⟩, ⟨7, 0, .rw, 0x0⟩]⟩,
  -- PT_LPI_CTRL
  ⟨0x1C, 1, 0x4, [⟨31, 16, .rw, 0x1180⟩, ⟨15, 8, .rw, 0x14⟩, ⟨0, 0, .rw, 0x0⟩]⟩,
  -- PT_PAUSE_CTRL
  ⟨0x20, 1, 0x4, [⟨15, 8, .rw, 0x64⟩, ⟨1, 1, .rw, 0x0⟩, ⟨0, 0, .rw, 0x0⟩]⟩,
  -- PT_PFC_MAP
  ⟨0x24, 1, 0x4, [⟨23, 0, .rw, 0xFAC688⟩]⟩,
  -- PT_TXEQ
  ⟨0x28, 1, 0x4, [⟨21, 16, .rw, 0x0⟩, ⟨13, 8, .rw, 0x30⟩, ⟨5, 0, .rw, 0x0⟩]⟩,
  -- PT_LT_CTRL
  ⟨0x2C, 1, 0x4, [⟨31, 16, .rw, 0x64⟩, ⟨15, 0, .rw, 0x12C⟩]⟩,
  -- PT_HOLD
  ⟨0x40, 1, 0x4, [⟨31, 30, .ro, 0x0⟩, ⟨25, 16, .ro, 0x0⟩, ⟨9, 0, .rw, 0x32⟩]⟩,
  -- PT_TS_CTRL
  ⟨0x100, 1, 0x4, [⟨1, 1, .rw, 0x0⟩, ⟨0, 0, .rw, 0x1⟩]⟩,
  -- PT_TS_ASYM
  ⟨0x104, 1, 0x4, [⟨31, 16, .rw, 0x0⟩, ⟨15, 0, .rw, 0x0⟩]⟩,
  -- PT_TS_CONST
  ⟨0x108, 1, 0x4, [⟨31, 16, .ro, 0x0⟩, ⟨15, 0, .ro, 0x0⟩]⟩,
  -- PT_TS_VAR
  ⟨0x10C, 1, 0x4, [⟨15, 0, .ro, 0x0⟩]⟩,
  -- LF_CTRL
  ⟨0x800, 1, 0x4, [⟨23, 20, .rw, 0x0⟩, ⟨19, 16, .rw, 0x1⟩, ⟨3, 3, .rw, 0x0⟩, ⟨2, 2, .rw, 0x0⟩, ⟨1, 1, .rw, 0x1⟩, ⟨0, 0, .rw, 0x1⟩]⟩,
  -- LF_ALIGN
  ⟨0x804, 1, 0x4, [⟨14, 12, .rw, 0x4⟩, ⟨10, 8, .rw, 0x2⟩, ⟨7, 4, .rw, 0x4⟩, ⟨2, 0, .rw, 0x3⟩]⟩,
  -- LF_STATUS
  ⟨0x808, 1, 0x4, [⟨31, 24, .ro, 0x0⟩, ⟨23, 16, .ro, 0x0⟩, ⟨6, 4, .ro, 0x0⟩, ⟨3, 3, .ro, 0x0⟩, ⟨2, 2, .ro, 0x0⟩, ⟨1, 0, .ro, 0x0⟩]⟩,
  -- LF_INT_STATUS
  ⟨0x80C, 1, 0x4, [⟨7, 7, .w1c, 0x0⟩, ⟨6, 6, .w1c, 0x0⟩, ⟨5, 5, .w1c, 0x0⟩, ⟨4, 4, .w1c, 0x0⟩, ⟨3, 3, .w1c, 0x0⟩, ⟨2, 2, .w1c, 0x0⟩, ⟨1, 1, .w1c, 0x0⟩, ⟨0, 0, .w1c, 0x0⟩]⟩,
  -- LF_INT_EN
  ⟨0x810, 1, 0x4, [⟨7, 0, .rw, 0x0⟩]⟩,
  -- LF_HMC_TX_CTRL
  ⟨0x814, 1, 0x4, [⟨31, 31, .sc, 0x0⟩, ⟨9, 0, .rw, 0x0⟩]⟩,
  -- LF_HMC_RX_STAT
  ⟨0x818, 1, 0x4, [⟨31, 31, .w1c, 0x0⟩, ⟨9, 0, .ro, 0x0⟩]⟩]

/-- The registers of the block PT (R55, R243, R328, R87, R120). -/
def regTablePT_1 : List RegDef := [
  -- LF_TIME_RX
  ⟨0x880, 11, 0x4, [⟨31, 0, .ro, 0x0⟩]⟩,
  -- LF_MARK_TX
  ⟨0x8B0, 3, 0x4, [⟨31, 0, .ro, 0x0⟩]⟩,
  -- LF_MARK_RX
  ⟨0x8C0, 3, 0x4, [⟨31, 0, .ro, 0x0⟩]⟩,
  -- LF_MARK_RX_SF
  ⟨0x8CC, 1, 0x4, [⟨23, 0, .ro, 0x0⟩]⟩,
  -- LF_HMC_TX
  ⟨0x900, 143, 0x4, [⟨31, 0, .rw, 0x0⟩]⟩,
  -- LF_HMC_RX
  ⟨0xB40, 143, 0x4, [⟨31, 0, .ro, 0x0⟩]⟩,
  -- LF_DEF_CTRL
  ⟨0xD80, 1, 0x4, [⟨15, 8, .rw, 0x64⟩, ⟨2, 2, .rw, 0x0⟩, ⟨1, 1, .rw, 0x0⟩, ⟨0, 0, .rw, 0x1⟩]⟩,
  -- LF_FAIL_TIME
  ⟨0xD84, 1, 0x4, [⟨15, 8, .rw, 0x64⟩, ⟨7, 0, .rw, 0x19⟩]⟩,
  -- LF_DEG_CTRL
  ⟨0xD88, 1, 0x4, [⟨19, 16, .rw, 0x7⟩, ⟨13, 0, .rw, 0x64⟩]⟩,
  -- LF_DEFECTS
  ⟨0xD8C, 1, 0x4, [⟨16, 16, .ro, 0x0⟩, ⟨13, 8, .ro, 0x0⟩, ⟨5, 0, .ro, 0x0⟩]⟩,
  -- LF_DEF_INT_STATUS
  ⟨0xD90, 1, 0x4, [⟨20, 20, .w1c, 0x0⟩, ⟨19, 19, .w1c, 0x0⟩, ⟨18, 18, .w1c, 0x0⟩, ⟨17, 17, .w1c, 0x0⟩, ⟨16, 16, .w1c, 0x0⟩, ⟨13, 8, .w1c, 0x0⟩, ⟨5, 0, .w1c, 0x0⟩]⟩,
  -- LF_DEF_INT_EN
  ⟨0xD94, 1, 0x4, [⟨20, 16, .rw, 0x0⟩, ⟨13, 8, .rw, 0x0⟩, ⟨5, 0, .rw, 0x0⟩]⟩,
  -- LF_PM_CTRL
  ⟨0xD98, 1, 0x4, [⟨10, 10, .rw, 0x1⟩, ⟨9, 9, .rw, 0x1⟩, ⟨8, 8, .rw, 0x1⟩, ⟨6, 0, .rw, 0x1E⟩]⟩,
  -- LF_ETH_SES
  ⟨0xD9C, 1, 0x4, [⟨23, 0, .rw, 0x2710⟩]⟩,
  -- LF_TCA15
  ⟨0xDA0, 4, 0x4, [⟨31, 0, .rw, 0x0⟩]⟩,
  -- LF_TCA24
  ⟨0xDB0, 4, 0x4, [⟨31, 0, .rw, 0x0⟩]⟩,
  -- LF_TCA_STATUS
  ⟨0xDC0, 1, 0x4, [⟨15, 8, .w1c, 0x0⟩, ⟨7, 0, .w1c, 0x0⟩]⟩,
  -- LF_PM_SEL
  ⟨0xDC4, 1, 0x4, [⟨5, 0, .rw, 0x0⟩]⟩,
  -- LF_PM_NOW
  ⟨0xDC8, 1, 0x4, [⟨25, 25, .ro, 0x0⟩, ⟨24, 24, .ro, 0x0⟩, ⟨19, 16, .ro, 0x0⟩, ⟨3, 0, .ro, 0x0⟩]⟩,
  -- LF_PM_WIN
  ⟨0xDD0, 11, 0x4, [⟨31, 0, .ro, 0x0⟩]⟩,
  -- LF_RPT_RX
  ⟨0xE00, 21, 0x4, [⟨31, 0, .ro, 0x0⟩]⟩]

/-- The registers of the block PT (R55, R243, R328, R87, R120). -/
def regTablePT : List RegDef := regTablePT_0 ++ regTablePT_1

/-- The registers of the block PP (R151). -/
def regTablePP : List RegDef := [
  -- PP_TPID
  ⟨0x0, 4, 0x4, [⟨16, 16, .rw, 0x1⟩, ⟨15, 0, .rw, 0x8100⟩]⟩,
  -- PP_PARSE_CFG
  ⟨0x10, 1, 0x4, [⟨15, 0, .rw, 0x88B5⟩]⟩,
  -- PP_PORT_QOS
  ⟨0x40, 18, 0x4, [⟨7, 7, .rw, 0x0⟩, ⟨6, 5, .rw, 0x0⟩, ⟨4, 2, .rw, 0x0⟩, ⟨1, 0, .rw, 0x0⟩]⟩,
  -- PP_PCP_MAP
  ⟨0x100, 8, 0x4, [⟨4, 3, .rw, 0x0⟩, ⟨2, 0, .rw, 0x0⟩]⟩,
  -- PP_DSCP_MAP
  ⟨0x200, 64, 0x4, [⟨4, 3, .rw, 0x0⟩, ⟨2, 0, .rw, 0x0⟩]⟩]

/-- The registers of the block LP (R152, R187). -/
def regTableLP : List RegDef := [
  -- LP_FG_CMD
  ⟨0x80000, 1, 0x4, [⟨31, 31, .sc, 0x0⟩, ⟨30, 28, .rw, 0x0⟩, ⟨27, 27, .rw, 0x0⟩, ⟨26, 26, .ro, 0x0⟩, ⟨25, 25, .ro, 0x0⟩, ⟨24, 24, .w1c, 0x0⟩, ⟨12, 0, .rw, 0x0⟩]⟩,
  -- LP_FG_BANK
  ⟨0x80040, 8, 0x4, [⟨3, 0, .rws, 0xF⟩]⟩,
  -- LP_FG_VALUE
  ⟨0x80100, 20, 0x4, [⟨31, 0, .rw, 0x0⟩]⟩,
  -- LP_FG_CARE
  ⟨0x80180, 20, 0x4, [⟨31, 0, .rw, 0x0⟩]⟩,
  -- LP_FG_ACTION
  ⟨0x80200, 1, 0x4, [⟨31, 31, .rw, 0x0⟩, ⟨30, 29, .rw, 0x0⟩, ⟨16, 0, .rw, 0x0⟩]⟩,
  ⟨0x80204, 1, 0x4, [⟨31, 31, .rw, 0x0⟩, ⟨27, 16, .rw, 0x0⟩, ⟨15, 15, .rw, 0x0⟩, ⟨10, 8, .rw, 0x0⟩, ⟨7, 7, .rw, 0x0⟩, ⟨6, 4, .rw, 0x0⟩, ⟨3, 3, .rw, 0x0⟩, ⟨1, 0, .rw, 0x0⟩]⟩,
  ⟨0x80208, 1, 0x4, [⟨31, 31, .rw, 0x0⟩, ⟨27, 16, .rw, 0x0⟩, ⟨15, 15, .rw, 0x0⟩, ⟨11, 0, .rw, 0x0⟩]⟩,
  -- LP_FG_DEFAULT
  ⟨0x80210, 1, 0x4, [⟨31, 31, .rw, 0x0⟩, ⟨30, 29, .rw, 0x0⟩, ⟨16, 0, .rw, 0x0⟩]⟩,
  ⟨0x80214, 1, 0x4, [⟨31, 31, .rw, 0x0⟩, ⟨27, 16, .rw, 0x0⟩, ⟨15, 15, .rw, 0x0⟩, ⟨10, 8, .rw, 0x0⟩, ⟨7, 7, .rw, 0x0⟩, ⟨6, 4, .rw, 0x0⟩, ⟨3, 3, .rw, 0x0⟩, ⟨1, 0, .rw, 0x0⟩]⟩,
  ⟨0x80218, 1, 0x4, [⟨31, 31, .rw, 0x0⟩, ⟨27, 16, .rw, 0x0⟩, ⟨15, 15, .rw, 0x0⟩, ⟨11, 0, .rw, 0x0⟩]⟩,
  -- LP_PM_CMD
  ⟨0x90000, 1, 0x4, [⟨31, 31, .sc, 0x0⟩, ⟨30, 28, .rw, 0x0⟩, ⟨27, 27, .rw, 0x0⟩, ⟨26, 26, .ro, 0x0⟩, ⟨25, 25, .ro, 0x0⟩, ⟨24, 24, .w1c, 0x0⟩, ⟨9, 0, .rw, 0x0⟩]⟩,
  -- LP_PM_VALUE
  ⟨0x90010, 4, 0x4, [⟨31, 0, .rw, 0x0⟩]⟩,
  -- LP_PM_CARE
  ⟨0x90020, 4, 0x4, [⟨31, 0, .rw, 0x0⟩]⟩,
  -- LP_PM_CFG
  ⟨0x90030, 1, 0x4, [⟨31, 27, .rw, 0x0⟩, ⟨26, 24, .rw, 0x7⟩, ⟨23, 16, .rw, 0x0⟩, ⟨15, 8, .rw, 0x0⟩, ⟨3, 0, .rw, 0x0⟩]⟩,
  -- LP_PM_PORT
  ⟨0x90034, 1, 0x4, [⟨17, 16, .rw, 0x0⟩, ⟨15, 0, .rw, 0x0⟩]⟩,
  -- LP_HASH_SEED0
  ⟨0x91000, 1, 0x4, [⟨31, 0, .rw, 0xFFFFFFFF⟩]⟩,
  -- LP_HASH_SEED1
  ⟨0x91004, 1, 0x4, [⟨31, 0, .rw, 0x0⟩]⟩,
  -- LP_IND_CFG
  ⟨0x91100, 64, 0x4, [⟨31, 31, .rw, 0x0⟩, ⟨30, 29, .rw, 0x0⟩, ⟨28, 24, .rw, 0x0⟩, ⟨14, 0, .rw, 0xF86⟩]⟩,
  -- LP_IND
  ⟨0xA0000, 16384, 0x4, [⟨31, 31, .rw, 0x0⟩, ⟨16, 0, .rw, 0x0⟩]⟩,
  -- LP_TBL_CMD
  ⟨0xB0000, 1, 0x4, [⟨31, 28, .rw, 0x0⟩, ⟨27, 25, .rw, 0x0⟩, ⟨24, 24, .rw, 0x0⟩, ⟨23, 22, .rw, 0x0⟩, ⟨15, 0, .rw, 0x0⟩]⟩,
  ⟨0xB0004, 7, 0x4, [⟨31, 0, .rw, 0x0⟩]⟩,
  -- LP_TBL_GO
  ⟨0xB0020, 1, 0x4, [⟨31, 31, .sc, 0x0⟩, ⟨30, 30, .w1c, 0x0⟩]⟩,
  -- LP_TBL_RES
  ⟨0xB0040, 8, 0x4, [⟨31, 0, .ro, 0x0⟩]⟩,
  -- LP_MAC_SEED
  ⟨0xB0100, 1, 0x4, [⟨31, 0, .rw, 0x0⟩]⟩,
  -- LP_LEARN_CTRL
  ⟨0xB0104, 1, 0x4, [⟨31, 31, .rw, 0x0⟩, ⟨30, 30, .rw, 0x0⟩, ⟨29, 29, .rw, 0x0⟩, ⟨11, 0, .rw, 0x0⟩]⟩,
  -- LP_LEARN_RATE
  ⟨0xB0108, 1, 0x4, [⟨23, 16, .rw, 0x40⟩, ⟨11, 0, .rw, 0x64⟩]⟩,
  -- LP_AGE_CTRL
  ⟨0xB010C, 1, 0x4, [⟨15, 0, .rw, 0x4B⟩]⟩,
  -- LP_MAC_USAGE
  ⟨0xB0110, 1, 0x4, [⟨27, 16, .ro, 0x0⟩]⟩,
  -- LP_PORT_LEARN
  ⟨0xB0140, 16, 0x4, [⟨31, 31, .rw, 0x0⟩, ⟨5, 0, .rw, 0x0⟩]⟩]

/-- The registers of the block CB (R220, R266). -/
def regTableCB : List RegDef := [
  -- CB_REGION
  ⟨0x100, 8, 0x4, [⟨29, 24, .ro, 0x0⟩, ⟨21, 16, .ro, 0x4⟩, ⟨4, 0, .ro, 0x0⟩]⟩,
  -- CB_REGION_FREE
  ⟨0x140, 8, 0x4, [⟨19, 0, .ro, 0x10000⟩]⟩,
  -- CB_WRED_SEED
  ⟨0x180, 8, 0x4, [⟨15, 0, .rw, 0xACE1⟩]⟩,
  -- CB_QPROF0
  ⟨0x1000, 32, 0x10, [⟨31, 31, .rws, 0x0⟩, ⟨30, 30, .rws, 0x0⟩, ⟨23, 20, .rws, 0x0⟩, ⟨3, 0, .rws, 0x0⟩]⟩,
  -- CB_QPROF1
  ⟨0x1004, 32, 0x10, [⟨19, 0, .rws, 0x0⟩]⟩,
  -- CB_QPROF2
  ⟨0x1008, 32, 0x10, [⟨19, 0, .rws, 0x80000⟩]⟩,
  -- CB_WRED0
  ⟨0x2000, 48, 0x10, [⟨19, 0, .rw, 0x80000⟩]⟩,
  -- CB_WRED1
  ⟨0x2004, 48, 0x10, [⟨19, 0, .rw, 0x80000⟩]⟩,
  -- CB_WRED2
  ⟨0x2008, 48, 0x10, [⟨11, 8, .rw, 0x9⟩, ⟨7, 0, .rw, 0x0⟩]⟩,
  -- CB_QCFG
  ⟨0x10000, 20324, 0x4, [⟨31, 31, .rw, 0x1⟩, ⟨28, 24, .rw, 0x0⟩, ⟨23, 23, .rw, 0x1⟩, ⟨20, 16, .rw, 0x0⟩, ⟨15, 15, .rw, 0x1⟩, ⟨12, 8, .rw, 0x0⟩, ⟨7, 7, .rw, 0x1⟩, ⟨4, 0, .rw, 0x0⟩]⟩,
  -- CB_QSTAT
  ⟨0x40000, 81296, 0x4, [⟨31, 30, .ro, 0x1⟩, ⟨19, 0, .ro, 0x0⟩]⟩,
  -- CB_POOL_CFG
  ⟨0xC0000, 64, 0x10, [⟨31, 31, .ro, 0x0⟩, ⟨30, 28, .ro, 0x0⟩, ⟨25, 16, .ro, 0x0⟩, ⟨8, 0, .ro, 0x0⟩]⟩,
  -- CB_POOL_FREE
  ⟨0xC0004, 64, 0x10, [⟨19, 0, .ro, 0x0⟩]⟩,
  -- CB_POOL_WM
  ⟨0xC0008, 64, 0x10, [⟨31, 31, .wo, 0x0⟩, ⟨19, 0, .ro, 0x0⟩]⟩,
  -- CB_OWNER_USED
  ⟨0xC0400, 64, 0x4, [⟨19, 0, .ro, 0x0⟩]⟩,
  -- CB_ANVIL_POOL
  ⟨0xC0500, 1, 0x4, [⟨5, 0, .rw, 0x0⟩]⟩,
  -- CB_CELL_CMD
  ⟨0xC0600, 1, 0x4, [⟨31, 31, .sc, 0x0⟩, ⟨30, 28, .rw, 0x0⟩, ⟨27, 27, .w1c, 0x0⟩, ⟨26, 26, .ro, 0x0⟩, ⟨25, 20, .rw, 0x0⟩, ⟨18, 0, .rw, 0x0⟩]⟩,
  -- CB_CELL_RES
  ⟨0xC0604, 1, 0x4, [⟨31, 31, .ro, 0x0⟩, ⟨30, 25, .ro, 0x0⟩, ⟨24, 19, .ro, 0x0⟩, ⟨18, 0, .ro, 0x0⟩]⟩,
  -- CB_CELL_LINK
  ⟨0xC0608, 1, 0x4, [⟨31, 31, .ro, 0x0⟩, ⟨18, 0, .ro, 0x0⟩]⟩,
  -- CB_PM_ERR_HEAD
  ⟨0xC0700, 5, 0x4, [⟨31, 0, .ro, 0x0⟩]⟩,
  -- CB_PM_ERR_POP
  ⟨0xC0720, 1, 0x4, [⟨31, 31, .wo, 0x0⟩, ⟨4, 0, .ro, 0x0⟩]⟩,
  -- CB_PM_INT_STATUS
  ⟨0xC0800, 1, 0x4, [⟨3, 3, .w1c, 0x0⟩, ⟨2, 2, .w1c, 0x0⟩, ⟨1, 1, .w1c, 0x0⟩, ⟨0, 0, .w1c, 0x0⟩]⟩,
  -- CB_PM_INT_EN
  ⟨0xC0804, 1, 0x4, [⟨3, 0, .rw, 0x0⟩]⟩,
  -- CB_POOL_EMPTY
  ⟨0xC0810, 2, 0x4, [⟨31, 0, .w1c, 0x0⟩]⟩]

/-- The registers of the block FB (R221, R244, R153). -/
def regTableFB : List RegDef := [
  -- FB_ARB_CTRL
  ⟨0x0, 1, 0x4, [⟨23, 16, .rw, 0x10⟩, ⟨1, 0, .rw, 0x2⟩]⟩,
  -- FB_ARB_PRIO
  ⟨0x4, 1, 0x4, [⟨31, 16, .rw, 0xFA50⟩, ⟨15, 0, .rw, 0xFA50⟩]⟩,
  -- FB_MC_REC
  ⟨0x8, 1, 0x4, [⟨18, 0, .ro, 0x0⟩]⟩,
  -- FB_MODE_CTRL
  ⟨0x100, 1, 0x4, [⟨2, 2, .sc, 0x0⟩, ⟨1, 1, .sc, 0x0⟩, ⟨0, 0, .rw, 0x0⟩]⟩,
  -- FB_MODE_STATUS
  ⟨0x104, 1, 0x4, [⟨9, 9, .ro, 0x0⟩, ⟨8, 8, .ro, 0x0⟩, ⟨7, 3, .ro, 0x2⟩, ⟨1, 0, .ro, 0x2⟩]⟩,
  -- FB_FENCE
  ⟨0x110, 5, 0x4, [⟨31, 0, .ro, 0x0⟩]⟩,
  -- FB_FDY_FREE
  ⟨0x124, 1, 0x4, [⟨19, 0, .ro, 0x80000⟩]⟩,
  -- FB_INT_STATUS
  ⟨0x128, 1, 0x4, [⟨2, 2, .w1c, 0x0⟩, ⟨1, 1, .w1c, 0x0⟩, ⟨0, 0, .w1c, 0x0⟩]⟩,
  -- FB_INT_EN
  ⟨0x12C, 1, 0x4, [⟨2, 0, .rw, 0x0⟩]⟩,
  -- FB_TEST_FAIL
  ⟨0x130, 1, 0x4, [⟨31, 0, .ro, 0x0⟩]⟩,
  -- FB_TEST_SKIP
  ⟨0x134, 1, 0x4, [⟨31, 0, .ro, 0x0⟩]⟩,
  -- FB_MIRROR_CTRL
  ⟨0x800, 8, 0x10, [⟨31, 31, .rw, 0x0⟩, ⟨30, 30, .rw, 0x0⟩, ⟨26, 24, .rw, 0x0⟩, ⟨11, 0, .rw, 0x0⟩]⟩,
  -- FB_MIRROR_TRUNC
  ⟨0x804, 8, 0x10, [⟨13, 0, .rw, 0x0⟩]⟩,
  -- FB_MIRROR_STAT
  ⟨0x808, 8, 0x10, [⟨1, 0, .ro, 0x0⟩]⟩]

/-- The registers of the block PL (R291, R292, R293). -/
def regTablePL_0 : List RegDef := [
  -- PL_DCLASS_MAP
  ⟨0x0, 1, 0x4, [⟨15, 0, .rws, 0xFA50⟩]⟩,
  -- PL_LEN_PROF
  ⟨0x40, 16, 0x4, [⟨6, 0, .rws, 0x0⟩]⟩,
  -- PL_UPOL_MAP
  ⟨0x80, 16, 0x4, [⟨15, 0, .rws, 0x0⟩]⟩,
  -- PL_LEVEL_CMD
  ⟨0x100, 1, 0x4, [⟨31, 31, .sc, 0x0⟩, ⟨30, 29, .rw, 0x0⟩, ⟨28, 28, .w1c, 0x0⟩, ⟨27, 27, .ro, 0x0⟩, ⟨26, 24, .rw, 0x0⟩, ⟨16, 0, .rw, 0x0⟩]⟩,
  -- PL_SAMPLE_CTRL
  ⟨0x110, 1, 0x4, [⟨31, 31, .rw, 0x0⟩, ⟨30, 30, .rw, 0x0⟩, ⟨27, 16, .rw, 0x0⟩, ⟨15, 0, .rw, 0x1F40⟩]⟩,
  -- PL_SAMPLE_FIRST
  ⟨0x114, 1, 0x4, [⟨16, 0, .rw, 0x0⟩]⟩,
  -- PL_SAMPLE_LAST
  ⟨0x118, 1, 0x4, [⟨16, 0, .rw, 0x1287F⟩]⟩,
  -- PL_INT_STATUS
  ⟨0x120, 1, 0x4, [⟨1, 1, .w1c, 0x0⟩, ⟨0, 0, .w1c, 0x0⟩]⟩,
  -- PL_INT_EN
  ⟨0x124, 1, 0x4, [⟨1, 0, .rw, 0x0⟩]⟩,
  -- PL_MOVE_ERR
  ⟨0x128, 1, 0x4, [⟨31, 31, .ro, 0x0⟩, ⟨13, 0, .ro, 0x0⟩]⟩,
  -- PL_L0_CFG
  ⟨0x10000, 144, 0x20, [⟨31, 31, .rws, 0x0⟩, ⟨30, 28, .rws, 0x0⟩, ⟨27, 24, .rws, 0x0⟩, ⟨11, 0, .rws, 0x1⟩]⟩,
  -- PL_L0_RATE
  ⟨0x10004, 144, 0x20, [⟨16, 0, .rws, 0x0⟩]⟩,
  -- PL_L0_BURST
  ⟨0x10008, 144, 0x20, [⟨17, 0, .rws, 0xA0⟩]⟩,
  -- PL_L0_LEVEL
  ⟨0x1000C, 144, 0x20, [⟨31, 0, .ro, 0x2800⟩]⟩,
  -- PL_PCQ_CFG
  ⟨0x12000, 1152, 0x20, [⟨31, 31, .rws, 0x0⟩, ⟨30, 28, .rws, 0x0⟩, ⟨27, 24, .rws, 0x0⟩, ⟨11, 0, .rws, 0x1⟩]⟩,
  -- PL_PCQ_RATE
  ⟨0x12004, 1152, 0x20, [⟨16, 0, .rws, 0x0⟩]⟩,
  -- PL_PCQ_BURST
  ⟨0x12008, 1152, 0x20, [⟨17, 0, .rws, 0xA0⟩]⟩,
  -- PL_PCQ_LEVEL
  ⟨0x1200C, 1152, 0x20, [⟨31, 0, .ro, 0x2800⟩]⟩,
  -- PL_L1_CFG
  ⟨0x20000, 1024, 0x20, [⟨31, 31, .rws, 0x0⟩, ⟨30, 28, .rws, 0x0⟩, ⟨27, 24, .rws, 0x0⟩, ⟨11, 0, .rws, 0x1⟩]⟩,
  -- PL_L1_RATE
  ⟨0x20004, 1024, 0x20, [⟨16, 0, .rws, 0x0⟩]⟩,
  -- PL_L1_BURST
  ⟨0x20008, 1024, 0x20, [⟨17, 0, .rws, 0xA0⟩]⟩,
  -- PL_L1_LEVEL
  ⟨0x2000C, 1024, 0x20, [⟨31, 0, .ro, 0x2800⟩]⟩,
  -- PL_L1_PARENT
  ⟨0x20010, 1024, 0x20, [⟨6, 0, .rws, 0x0⟩]⟩,
  -- PL_L2_CFG
  ⟨0x40000, 16384, 0x20, [⟨31, 31, .rws, 0x0⟩, ⟨30, 28, .rws, 0x0⟩, ⟨27, 24, .rws, 0x0⟩, ⟨11, 0, .rws, 0x1⟩]⟩]

/-- The registers of the block PL (R291, R292, R293). -/
def regTablePL_1 : List RegDef := [
  -- PL_L2_RATE
  ⟨0x40004, 16384, 0x20, [⟨16, 0, .rws, 0x0⟩]⟩,
  -- PL_L2_BURST
  ⟨0x40008, 16384, 0x20, [⟨17, 0, .rws, 0xA0⟩]⟩,
  -- PL_L2_LEVEL
  ⟨0x4000C, 16384, 0x20, [⟨31, 0, .ro, 0x2800⟩]⟩,
  -- PL_L2_PARENT
  ⟨0x40010, 16384, 0x20, [⟨19, 16, .rws, 0x0⟩, ⟨9, 0, .rws, 0x0⟩]⟩,
  -- PL_L3_CFG
  ⟨0x100000, 65536, 0x20, [⟨31, 31, .rws, 0x0⟩, ⟨30, 28, .rws, 0x0⟩, ⟨27, 24, .rws, 0x0⟩, ⟨11, 0, .rws, 0x1⟩]⟩,
  -- PL_L3_RATE
  ⟨0x100004, 65536, 0x20, [⟨16, 0, .rws, 0x0⟩]⟩,
  -- PL_L3_BURST
  ⟨0x100008, 65536, 0x20, [⟨17, 0, .rws, 0xA0⟩]⟩,
  -- PL_L3_LEVEL
  ⟨0x10000C, 65536, 0x20, [⟨31, 0, .ro, 0x2800⟩]⟩,
  -- PL_POL_CFG
  ⟨0x400000, 36864, 0x20, [⟨31, 31, .rws, 0x0⟩, ⟨30, 30, .rws, 0x0⟩, ⟨29, 29, .rws, 0x0⟩, ⟨27, 24, .rws, 0x0⟩]⟩,
  -- PL_POL_C_RATE
  ⟨0x400004, 36864, 0x20, [⟨16, 0, .rws, 0x0⟩]⟩,
  -- PL_POL_C_BURST
  ⟨0x400008, 36864, 0x20, [⟨17, 0, .rws, 0xA0⟩]⟩,
  -- PL_POL_P_RATE
  ⟨0x40000C, 36864, 0x20, [⟨16, 0, .rws, 0x0⟩]⟩,
  -- PL_POL_P_BURST
  ⟨0x400010, 36864, 0x20, [⟨17, 0, .rws, 0xA0⟩]⟩,
  -- PL_POL_C_LEVEL
  ⟨0x400014, 36864, 0x20, [⟨31, 0, .ro, 0x2800⟩]⟩,
  -- PL_POL_P_LEVEL
  ⟨0x400018, 36864, 0x20, [⟨31, 0, .ro, 0x2800⟩]⟩,
  -- PL_SOJ_WM
  ⟨0x600000, 81920, 0x4, [⟨31, 0, .rc, 0x0⟩]⟩]

/-- The registers of the block PL (R291, R292, R293). -/
def regTablePL : List RegDef := regTablePL_0 ++ regTablePL_1

/-- The registers of the block AV (R516, R118, R122). -/
def regTableAV : List RegDef := [
  -- AV_INT_STATUS
  ⟨0x0, 1, 0x4, [⟨3, 3, .w1c, 0x0⟩, ⟨2, 2, .w1c, 0x0⟩, ⟨1, 1, .w1c, 0x0⟩, ⟨0, 0, .w1c, 0x0⟩]⟩,
  -- AV_INT_EN
  ⟨0x4, 1, 0x4, [⟨3, 0, .rw, 0x0⟩]⟩,
  -- AV_MEP_MAC0
  ⟨0x10, 1, 0x4, [⟨31, 0, .rw, 0x0⟩]⟩,
  -- AV_MEP_MAC1
  ⟨0x14, 1, 0x4, [⟨15, 0, .rw, 0x0⟩]⟩,
  -- AV_PM_CTRL
  ⟨0x100, 1, 0x4, [⟨31, 31, .rw, 0x1⟩, ⟨30, 30, .rw, 0x0⟩, ⟨28, 17, .rw, 0x0⟩, ⟨16, 0, .rw, 0x0⟩]⟩,
  -- AV_MEP_CHG
  ⟨0x200, 128, 0x4, [⟨31, 0, .w1c, 0x0⟩]⟩,
  -- AV_MEP_CFG
  ⟨0x10000, 4096, 0x40, [⟨31, 31, .rw, 0x0⟩, ⟨30, 30, .rw, 0x1⟩, ⟨29, 29, .rw, 0x0⟩, ⟨28, 28, .rw, 0x0⟩, ⟨27, 27, .rw, 0x0⟩, ⟨26, 24, .rw, 0x0⟩, ⟨23, 21, .rw, 0x4⟩, ⟨20, 18, .rw, 0x7⟩, ⟨17, 15, .rw, 0x7⟩, ⟨14, 13, .rw, 0x0⟩, ⟨11, 0, .rw, 0x0⟩]⟩,
  -- AV_MEP_IDS
  ⟨0x10004, 4096, 0x40, [⟨28, 16, .rw, 0x1⟩, ⟨12, 0, .rw, 0x1⟩]⟩,
  -- AV_MEP_PORT
  ⟨0x10008, 4096, 0x40, [⟨7, 0, .rw, 0x0⟩]⟩,
  -- AV_MEP_STATUS
  ⟨0x1000C, 4096, 0x40, [⟨31, 31, .ro, 0x0⟩, ⟨30, 30, .ro, 0x0⟩, ⟨29, 29, .ro, 0x0⟩, ⟨6, 0, .ro, 0x0⟩]⟩,
  -- AV_MEP_MAID0
  ⟨0x10010, 4096, 0x40, [⟨31, 0, .rw, 0x0⟩]⟩,
  -- AV_MEP_MAID1
  ⟨0x10014, 4096, 0x40, [⟨31, 0, .rw, 0x0⟩]⟩,
  -- AV_MEP_MAID2
  ⟨0x10018, 4096, 0x40, [⟨31, 0, .rw, 0x0⟩]⟩,
  -- AV_MEP_MAID3
  ⟨0x1001C, 4096, 0x40, [⟨31, 0, .rw, 0x0⟩]⟩,
  -- AV_MEP_MAID4
  ⟨0x10020, 4096, 0x40, [⟨31, 0, .rw, 0x0⟩]⟩,
  -- AV_MEP_MAID5
  ⟨0x10024, 4096, 0x40, [⟨31, 0, .rw, 0x0⟩]⟩,
  -- AV_MEP_MAID6
  ⟨0x10028, 4096, 0x40, [⟨31, 0, .rw, 0x0⟩]⟩,
  -- AV_MEP_MAID7
  ⟨0x1002C, 4096, 0x40, [⟨31, 0, .rw, 0x0⟩]⟩,
  -- AV_MEP_MAID8
  ⟨0x10030, 4096, 0x40, [⟨31, 0, .rw, 0x0⟩]⟩,
  -- AV_MEP_MAID9
  ⟨0x10034, 4096, 0x40, [⟨31, 0, .rw, 0x0⟩]⟩,
  -- AV_MEP_MAID10
  ⟨0x10038, 4096, 0x40, [⟨31, 0, .rw, 0x0⟩]⟩,
  -- AV_MEP_MAID11
  ⟨0x1003C, 4096, 0x40, [⟨31, 0, .rw, 0x0⟩]⟩]

/-- The registers of the block DB (R483). -/
def regTableDB : List RegDef := [
  -- DB_CTRL
  ⟨0x0, 1, 0x4, [⟨31, 31, .rw, 0x0⟩, ⟨30, 30, .rw, 0x0⟩]⟩,
  -- DB_TRIG
  ⟨0x4, 1, 0x4, [⟨31, 31, .rw, 0x0⟩, ⟨30, 30, .rw, 0x0⟩, ⟨29, 27, .rw, 0x0⟩, ⟨16, 0, .rw, 0x0⟩]⟩,
  -- DB_TRACE_STAT
  ⟨0x8, 1, 0x4, [⟨31, 31, .wo, 0x0⟩, ⟨30, 30, .w1c, 0x0⟩, ⟨12, 0, .ro, 0x0⟩]⟩,
  -- DB_TRACE_HEAD
  ⟨0x20, 8, 0x4, [⟨31, 0, .ro, 0x0⟩]⟩,
  -- DB_SNAP_CTRL
  ⟨0x40, 1, 0x4, [⟨31, 31, .sc, 0x0⟩, ⟨11, 0, .rw, 0x0⟩]⟩,
  -- DB_INT_STATUS
  ⟨0x80, 1, 0x4, [⟨1, 1, .w1c, 0x0⟩, ⟨0, 0, .w1c, 0x0⟩]⟩,
  -- DB_INT_EN
  ⟨0x84, 1, 0x4, [⟨1, 0, .rw, 0x0⟩]⟩,
  -- DB_SNAP_BUF
  ⟨0x1000, 1024, 0x4, [⟨31, 0, .ro, 0x0⟩]⟩]

/-- The register of a block's table that holds the byte offset `o` (a word's first byte), and its index in its array. -/
def findReg : List RegDef → Nat → Option (RegDef × Nat)
  | [], _ => none
  | r :: t, o =>
    if r.off ≤ o ∧ (o - r.off) % r.step = 0 ∧ (o - r.off) / r.step < r.n then some (r, (o - r.off) / r.step)
    else findReg t o

/-- The table and the offset within the block of a BAR0 address (R510); `none` outside the blocks. A repeated block (a port, a
pipeline, a plane) is reduced to its unit's offset. -/
def blockOf (a : Nat) : Option (List RegDef × Nat) :=
  if a < 0x10000 then some (regTableGL, a)
  else if a < 0x18000 then some (regTableCM, a)
  else if a < 0x20000 then some (regTableJN, a)
  else if a < 0x30000 then some (regTableSG, a)
  else if a < 0x40000 then some (regTablePW, a)
  else if a < 0x50000 then some (regTableHM, a)
  else if a < 0x80000 then some (regTableTW, a)
  else if a < 0x100000 then some (regTableHI, a)
  else if a < 0x190000 then some (regTablePT, (a - 0x100000) % 0x1000)
  else if 0x400000 ≤ a ∧ a < 0x600000 then some (regTablePP, (a - 0x400000) % 0x40000)
  else if 0x800000 ≤ a ∧ a < 0xC00000 then some (regTableLP, (a - 0x800000) % 0x100000)
  else if 0xC00000 ≤ a ∧ a < 0xD00000 then some (regTableCB, a - 0xC00000)
  else if 0xD00000 ≤ a ∧ a < 0xE00000 then some (regTableFB, a - 0xD00000)
  else if 0x1000000 ≤ a ∧ a < 0x2000000 then some (regTablePL, a - 0x1000000)
  else if 0x3000000 ≤ a ∧ a < 0x3100000 then some (regTableAV, a - 0x3000000)
  else if 0x3100000 ≤ a ∧ a < 0x3200000 then some (regTableDB, a - 0x3100000)
  else none

/-- The register at a BAR0 address; `none` for a reserved location (R402). -/
def regAt (a : Nat) : Option (RegDef × Nat) :=
  match blockOf a with
  | some (t, o) => findReg t o
  | none => none

/-- The word that the fields' reset values make. -/
def fieldsReset (fs : List FieldDef) : Nat := fs.foldl (fun w f => w + f.rst * 2 ^ f.lo) 0

end Sys2Proof.Machine
end

