-- ==== Sys2Proof/Machine/Maps.lean ====
section
/-!
DEFINITION. The one map type of the state: a list of key and value pairs in one canonical form, keys strictly rising and no entry equal
to what an unlisted key reads as. `d` is that default, a function of the key.
-/
namespace Sys2Proof.Machine

/-- A sparse map from numbers (addresses, ports, queues) to values. -/
abbrev SMap (α : Type) := List (Nat × α)

/-- The entry at a key, if one is listed. -/
def SMap.look {α : Type} : SMap α → Nat → Option α
  | [], _ => none
  | e :: t, k => if e.1 = k then some e.2 else SMap.look t k

/-- The value at a key: the entry, or the default of the key. -/
def SMap.get {α : Type} (d : Nat → α) (m : SMap α) (k : Nat) : α := (SMap.look m k).getD (d k)

/-- The map without a key. -/
def SMap.del {α : Type} : SMap α → Nat → SMap α
  | [], _ => []
  | e :: t, k => if e.1 = k then SMap.del t k else e :: SMap.del t k

/-- The map with an entry, in the order of the keys. -/
def SMap.ins {α : Type} : SMap α → Nat → α → SMap α
  | [], k, v => [(k, v)]
  | e :: t, k, v =>
    if k < e.1 then (k, v) :: e :: t
    else if e.1 = k then (k, v) :: t
    else e :: SMap.ins t k v

/-- The map with a value written at a key; writing the default removes the entry, so equal maps are equal lists. -/
def SMap.put {α : Type} [DecidableEq α] (d : Nat → α) (m : SMap α) (k : Nat) (v : α) : SMap α :=
  if v = d k then SMap.del m k else SMap.ins m k v

/-- Every key of the map lies above a bound and the keys rise. -/
def SMap.sortedFrom {α : Type} : Nat → SMap α → Bool
  | _, [] => true
  | b, e :: t => (b ≤ e.1) && SMap.sortedFrom (e.1 + 1) t

/-- The canonical form: keys strictly rising, no entry equal to its key's default. -/
def SMap.wf {α : Type} [DecidableEq α] (d : Nat → α) (m : SMap α) : Bool :=
  SMap.sortedFrom 0 m && m.all (fun e => !(decide (e.2 = d e.1)))

/-- The map without the keys that a test names. -/
def SMap.drop {α : Type} (m : SMap α) (p : Nat → Bool) : SMap α := m.filter (fun e => !(p e.1))

/-! ### Fields of words -/

/-- Bits `lo` to `lo + len - 1` of a number. -/
def bitsOf (w lo len : Nat) : Nat := (w / 2 ^ lo) % 2 ^ len

/-- A number with bits `lo` to `lo + len - 1` replaced. -/
def setBits (w lo len v : Nat) : Nat :=
  w / 2 ^ (lo + len) * 2 ^ (lo + len) + (v % 2 ^ len) * 2 ^ lo + w % 2 ^ lo

/-- One bit of a number. -/
def bitOf (w i : Nat) : Bool := (w / 2 ^ i) % 2 = 1

/-- 1 for true and 0 for false. -/
def b2n (b : Bool) : Nat := if b then 1 else 0

/-- A number as a word. -/
def w32 (n : Nat) : Word := BitVec.ofNat 32 n

/-- The two's-complement value of the low `len` bits of a number. -/
def signed (len v : Nat) : Int :=
  if v % 2 ^ len < 2 ^ (len - 1) then ((v % 2 ^ len : Nat) : Int) else ((v % 2 ^ len : Nat) : Int) - ((2 ^ len : Nat) : Int)

/-- The low `len` bits of an integer in two's complement. -/
def unsign (len : Nat) (v : Int) : Nat := (v % ((2 ^ len : Nat) : Int)).toNat

/-- The bytes of a number, most significant first (R7). -/
def beBytes : Nat → Nat → List Byte
  | 0, _ => []
  | n + 1, v => BitVec.ofNat 8 (v / 2 ^ (8 * n)) :: beBytes n v

/-- The number that bytes spell, most significant first (R7). -/
def beNat (bs : List Byte) : Nat := bs.foldl (fun a b => a * 256 + b.toNat) 0

/-- The bytes of a number, least significant first (R6). -/
def leBytes : Nat → Nat → List Byte
  | 0, _ => []
  | n + 1, v => BitVec.ofNat 8 v :: leBytes n (v / 256)

/-- The number that bytes spell, least significant first (R6). -/
def leNat : List Byte → Nat
  | [] => 0
  | b :: t => b.toNat + 256 * leNat t

/-- `n` bytes of a byte string from an offset, zero bytes beyond its end. -/
def byteSlice (bs : List Byte) (off n : Nat) : List Byte :=
  (List.range n).map (fun i => bs.getD (off + i) 0)

/-- A byte string with other bytes laid over it from an offset. -/
def byteOver (bs : List Byte) (off : Nat) (x : List Byte) : List Byte :=
  bs.take off ++ (x.take (bs.length - off)) ++ bs.drop (off + x.length)

/-- The first index of a list whose element passes a test. -/
def firstIdx {α : Type} (p : α → Bool) : List α → Option Nat
  | [] => none
  | x :: t => if p x then some 0 else (firstIdx p t).map (· + 1)

end Sys2Proof.Machine
end

