-- ==== Sys2Proof/Machine/State.lean ====
section
/-!
DEFINITION. The state of the FV144: every register of BAR0 (sparse, with the reset value as what an unlisted word reads), every counter, and the
state the spec gives each block beside its registers. Plain data.
-/
namespace Sys2Proof.Machine

/-- Why the block would stop with a fault: it never does (R402: an access that names nothing reads 0 and changes nothing). -/
inductive Fault where
  /-- No command raises it. Safe: it is in no outcome. -/
  | none
  deriving DecidableEq, Repr

/-- Why a command is refused. -/
inductive Refusal where
  /-- The arm of `exec` for a row that has no meaning yet. Safe: the model stops. -/
  | notModelled (mnemonic : String)
  /-- The operands name a port, a queue, a ring or a plane that the device does not have: the command does not exist
  (`Instr.wellFormed`). Every command raises it on such operands. Safe: the hardware has no such command. -/
  | illFormed
  deriving DecidableEq, Repr

/-- The time group: the device's own time in units of 1/60 ns, and the Hallmark counter in units of 2^-40 ns (R295, R296: the 16 visible
bits of fraction and the 24 below them) with the active addend, after its clamp; the counter and the addend as they stood before each step and each change of
the addend, newest first, each with its device time; and what the ticks alone have added, now and at the last step (R105). -/
structure Time where
  now    : Nat
  raw    : Nat
  addend : Int
  past   : List (Nat × Nat × Int)
  flow   : Int
  stepAt : Int
  deriving DecidableEq, Repr

def Time.reset : Time := ⟨0, 0, 0, [], 0, 0⟩

/-- What a command asks of the time group: a step of the Hallmark counter (R298) and a new active addend (R297, R301). Both are taken at
the end of the command. -/
structure TimeReq where
  step   : Option Int
  addend : Option Int
  deriving DecidableEq, Repr

/-- What the register bus keeps for one initiator: the read shadow and its tag (R407), the write shadow (R408), what the last access
returned, and the initiator's own `JN_SEL`, `JN_SEL_STATUS` and `JN_REC` (R422). -/
structure IniBus where
  rdata    : Nat
  ur       : Bool
  shTag    : Option Nat
  shWords  : List Word
  wrTag    : Option Nat
  wrHeld   : List (Nat × Word)
  jnSel    : Nat
  jnStat   : Nat
  jnBusy   : Bool
  jnRec    : List Word
  deriving DecidableEq, Repr

def IniBus.reset : IniBus :=
  ⟨0, false, none, [], none, [], 0, 2, false, []⟩

/-- An event that is journalled when it takes effect, at a time that is still to come: the completion of a command (R419); `rank` is its place among the
records of one CD01 cycle. -/
structure JnEvent where
  at_    : Nat
  rank   : Nat
  kind   : Nat
  origin : Nat
  sub    : Nat
  args   : List Nat
  deriving DecidableEq, Repr

/-- The command journal (R417, R419): the records written, by slot; the queue of the AON island; the counts; the events whose commands have
not completed yet, by time; and the CD01 cycle in which a record last entered the queue, with the places in that cycle's order of the records that did,
oldest first. -/
structure Journal where
  slots   : SMap (List Word)
  head    : Nat
  wraps   : Nat
  lost    : Nat
  queue   : List (List Word)
  nextSeq : Nat
  lostDue : Nat
  nextAt  : Nat
  soon    : List JnEvent
  tick    : Nat
  ranks   : List Nat
  deriving DecidableEq, Repr

def Journal.reset : Journal := ⟨[], 0, 0, 0, [], 1, 0, 0, [], 0, []⟩

/-- What has left the device, newest first in the state's log `out`: writes to host memory, MSI-X messages, frames and CRF frames on a
line, what a far-end loopback sends back, base pages of auto-negotiation, edges and messages of the pins, commands to the flash (code, address, bytes read, bytes written), completions with Unsupported Request (reported through AER over PCIe, R399). -/
inductive OutEv where
  | dma (addr : Nat) (bytes : List Byte)
  | msix (vector : Nat)
  | frame (port : Nat) (bytes : List Byte) (truncated : Bool)
  | crf (port : Nat) (bytes : List Byte)
  | echoed (port : Nat) (bytes : List Byte)
  | an (port : Nat) (page : Word)
  | pps (high : Bool)
  | evt (pin : Nat) (high : Bool)
  | tod (baud : Nat) (bits : List Bool)
  | hb (bytes : List Byte)
  | spi (cmd addr len : Nat) (bytes : List Byte)
  | tdo (bytes : List Byte)
  | unsupported (addr : Nat)
  deriving DecidableEq, Repr

/-! ### Cells, frames and queues -/

/-- A cell as the cell pool manager keeps it (R251): state, owner field, chain link (R192), and the CD23 cycle of its last release. -/
structure CellSt where
  used    : Bool
  owner   : Nat
  link    : Nat
  freedAt : Option Nat
  deriving DecidableEq, Repr

def CellSt.reset : CellSt := ⟨false, 0x3F, 0, none⟩

/-- A release that walks its chain (R258): claimed owner, first cell, count, the CD23 cycle in which it began, the cell that it checks next, and how many
it has freed. -/
structure Walk where
  claim : Nat
  first : Nat
  n     : Nat
  began : Nat
  cell  : Nat
  done  : Nat
  deriving DecidableEq, Repr

/-- The cell pool manager (R246 to R265): cells, freed cells newest first, the last bank each pool gave from (R250), the lowest FREE
of each pool at a cycle start, the walks under way, the error log, the pools touched in this cycle, the cells as they stood at the
start of the CD23 cycle, the cells Anvil has taken for the frame it forms, the CD23 cycle and place in its order of the last request to each pool
(R255) and of the last release (R260), and what releases have done to `CB_PM_INT_STATUS` and to counters that these do not hold yet: `State.intNow` and
`State.ctrNow` add it. -/
structure Pool where
  cells : SMap CellSt
  freed : List Nat
  ptr   : SMap Nat
  min   : SMap Nat
  walks : List Walk
  log   : List (List Word)
  dirty : List Nat
  snap  : SMap CellSt
  avCells : List Nat
  asked : SMap (Nat × Nat)
  relAt : Nat × Nat
  ints  : Nat
  cnts  : SMap Nat
  deriving DecidableEq, Repr

def Pool.reset : Pool := ⟨[], [], [], [], [], [], [], [], [], [], (0, 0), 0, []⟩

/-- What the parser finds in a frame (R123 to R128): tags (their TCI, outermost first), the EtherType after tags and R-TAG, the R-TAG's sequence
number, codes, flags, the fields of keys (R133), and the byte offsets that later stages use. -/
structure Parse where
  tags     : List Nat
  etype    : Nat
  rtag     : Option Nat
  l3       : Nat
  l4       : Nat
  l4msg    : Nat
  flags    : Nat
  pppoe    : Nat
  labels   : List Nat
  sip      : Nat
  dip      : Nat
  proto    : Nat
  dscp     : Nat
  ecn      : Nat
  ttl      : Nat
  flow     : Nat
  tcpFlags : Nat
  sport    : Nat
  dport    : Nat
  ipOfs    : Nat
  ext      : Nat
  l4ofs    : Nat
  pay      : Nat
  ptpOfs   : Nat
  deriving DecidableEq, Repr

def Parse.none : Parse :=
  ⟨[], 0, Option.none, 0, 0, 0, 0, 0, [], 0, 0, 0, 0, 0, 0, 0, 0, 0, 0, 0, 0, 0, 0, 0⟩

/-- Where a frame is to go after its lookup (R195 DEST): one port, a multicast group, a queue named by an override, or nowhere. -/
inductive Dest where
  | nowhere
  | port (q : Nat)
  | group (g : Nat)
  | queue (id : Nat)
  deriving DecidableEq, Repr

/-- How far a frame has come: in stages 3 to 5 not yet, looked up, or through stage 6. -/
inductive FStage where
  | stored
  | looked
  | admitted
  deriving DecidableEq, Repr

/-- The host job a frame came from (R382 to R384). -/
structure HostTag where
  ring    : Nat
  job     : Nat
  tsReq   : Bool
  ptpAct  : Nat
  refTs   : Nat
  launch  : Option Nat
  deriving DecidableEq, Repr

/-- A frame in Crucible: its bytes, FCS included, and its descriptor (R195), with the parse results and the tag edit that stage 8 uses. -/
structure Frame where
  data     : List Byte
  cells    : List Nat
  owner    : Nat
  pool     : Nat
  pipe     : Nat
  srcKind  : Nat
  src      : Nat
  rxTime   : Nat
  rxAt     : Nat
  cls      : Nat
  colour   : Nat
  srcDw    : Option Nat
  dstDw    : Option Nat
  dest     : Dest
  parse    : Parse
  edit     : Nat
  vid      : Nat
  rtagSeq  : Option Nat
  mirror   : Option Nat
  copyRing : Option Nat
  drop     : Bool
  ecn      : Bool
  fgEntry  : Option Nat
  host     : Option HostTag
  stage    : FStage
  ref      : Nat
  deriving DecidableEq, Repr

/-- A descriptor in a queue (R197): its frame, the output port and class, the egress queue, the admission time (R288), whether it is doomed
(R238), whether it is a multicast copy with a copy record (R210), or a mirror copy of a session (0 to 7) or a copy to processor (8) (R139), the egress pipelines that a multicast head still waits for (R209), and the
frame as stage 8 leaves it. -/
structure QEnt where
  fid    : Nat
  port   : Nat
  cls    : Nat
  eq     : Nat
  atTime : Nat
  doomed : Bool
  copy   : Bool
  mirror : Option Nat
  left   : List Nat
  data   : List Byte
  deriving DecidableEq, Repr

/-- The fabric: queues and their lengths in cells and in frames (R199), the time each head became head on the device's time and on the Hallmark counter (R316), the arbiter's pointers (R216), the
intakes (R214), the frames, WRED averages and random sources (R204, R205), and what a transition, a calibration, a reload or a bank test has
under way (R228 to R235). -/
structure Fab where
  queues   : SMap (List QEnt)
  headAt   : SMap Nat
  headHm   : SMap Nat
  qlen     : SMap Nat
  qcnt     : SMap Nat
  snapLen  : SMap Nat
  snapOwn  : List (Nat × Nat × Nat)
  gPtr     : SMap Nat
  aPtr     : SMap Nat
  qPtr     : SMap Nat
  lmPtr    : SMap Nat
  intake   : SMap (List QEnt)
  frames   : SMap Frame
  nextFid  : Nat
  mcUsed   : Nat
  wredAvg  : SMap Nat
  lfsr     : SMap Nat
  fence    : List Nat
  calAt    : Option Nat
  testBank : Option (Nat × Bool × Nat)
  memMask  : Nat
  memNew   : List Byte
  fabNew   : List Byte
  everVoq  : Bool
  deriving DecidableEq, Repr

def Fab.reset : Fab :=
  ⟨[], [], [], [], [], [], [], [], [], [], [], [], [], 0, 0, [], [], [], none, none, 0, [], [], false⟩

/-! ### Ports -/

/-- The frame a port's transmitter works on: its descriptor and queue, and how far it is: waiting for the LPI wake (R40) or for its port group
(R475), held for its
launch time (R317), or on the line since a time. -/
inductive TxPhase where
  | lpiWait
  | pgWait
  | launchWait
  | sending
  deriving DecidableEq, Repr

structure TxSt where
  ent   : QEnt
  phase : TxPhase
  since : Nat
  stamp : Nat
  deriving DecidableEq, Repr

/-- A port beside its registers: the frame in reception (R192), the frame in transmission, PAUSE and PFC stops with the start of the running
stop and the accumulator of R521, the start of the stop of each class as it runs without a break (R48), the hold (R238) with the elapsed time before which it does
not end, the frames held for their launch time that a stop of their class has set aside (R47), the times that its timers run from,
the mode that a commit has given and that waits for the frame in transmission (R33), the taps (pre, main, post) that training has left each transmit lane with,
by PCS lane (R36), and what the near-end loopback has looped and the receiver has not yet taken, with whether it is cut (R55). -/
structure Port where
  rxOn      : Bool
  rxCells   : List Nat
  rxOwner   : Nat
  rxPool    : Nat
  rxRefused : Bool
  tx        : Option TxSt
  pauseEnd  : Nat
  pfcEnd    : List Nat
  stopFrom  : Option Nat
  accAt     : Nat
  acc       : Nat
  hold      : Nat
  holdAt    : Nat
  holdMin   : Nat
  aside     : List TxSt
  ltAt      : Nat
  candAt    : Nat
  lpiAt     : Nat
  emptyAt   : Nat
  modeDue   : Option Word
  clsFrom   : List (Option Nat)
  taps      : List (Nat × Nat × Nat)
  loop      : List (List Byte × Bool)
  deriving DecidableEq, Repr

def Port.reset : Port :=
  ⟨false, [], 0, 0, false, none, 0, [0, 0, 0, 0, 0, 0, 0, 0], none, 0, 0, 0, 0, 0, [], 0, 0, 0, 0, none,
   [none, none, none, none, none, none, none, none], [], []⟩

/-! ### Planish -/

/-- A token bucket (R280): its level in units of 1/480,000,000 byte, the time it was last applied, and a level reset that has not taken effect yet: the
CD24 cycle at whose end it does, and the level that it sets (R283). -/
structure Bucket where
  level : Int
  atTime : Nat
  setCyc : Option (Nat × Int)
  deriving DecidableEq, Repr

/-- Planish beside its registers: buckets by the address of their LEVEL word, deficits of the DWRR children and the pointer of each band
of each node with whether its turn has begun (R274), the last queue sampled and the time of the next sample (R290), the
selections that each port group's engine has made in a CD24 cycle (R275), the CD24 cycle of each port's last selection and of its last discard at a head
(R275, R277), and for each policer the place in the turn of the last request that it has served in a CD24 cycle (R287). -/
structure Planish where
  buckets  : SMap Bucket
  deficit  : SMap Int
  pointer  : SMap (Nat × Bool)
  selected : SMap (Nat × Nat)
  selPort  : SMap Nat
  dropPort : SMap Nat
  turn     : SMap (Nat × Nat)
  sampleQ  : Nat
  sampleAt : Nat
  deriving DecidableEq, Repr

def Planish.reset : Planish := ⟨[], [], [], [], [], [], [], 0x13FFF, 0⟩

/-! ### Hallmark -/

/-- An event pin (R315): its FIFO of captures, the instant of the next pulse, the end of the pulse under way and the pin's level. -/
structure EvtPin where
  caps  : List Nat
  next  : Option Nat
  until_ : Option Nat
  high  : Bool
  deriving DecidableEq, Repr

def EvtPin.reset : EvtPin := ⟨[], none, none, false⟩

/-- A port's gate calendar in force (R319, R321): enable, guard, cycle, base, entries, and the calendar that waits with its start. -/
structure Calendar where
  en    : Bool
  guard : Bool
  cycle : Nat
  base  : Nat
  ents  : List (Nat × Nat)
  deriving DecidableEq, Repr

def Calendar.off : Calendar := ⟨false, true, 1000000, 0, []⟩

structure Gate where
  cur    : Calendar
  next   : Option Calendar
  nextAt : Nat
  deriving DecidableEq, Repr

def Gate.reset : Gate := ⟨Calendar.off, none, 0⟩

/-- Hallmark beside its registers and the counter: the servo's integral, run and interval (R301, R303), the CRF values collected for one
sample, the pins, the gates, the timed slots that were armed late (R322), and the second for which PPS and ToD were last sent. -/
structure Hall where
  integ    : Int
  srun     : Nat
  lastAt   : Option Nat
  sampleAt : Nat
  seenAt   : Option Nat
  crfVals  : List Int
  pins     : SMap EvtPin
  gates    : SMap Gate
  armLate  : SMap Nat
  ppsSec   : Option Int
  ppsHigh  : Bool
  ppsFall  : Nat
  todSec   : Option Int
  bcastSec : Option Nat
  swTick   : Nat
  svTick   : Nat
  svDelta  : Int
  deriving DecidableEq, Repr

def Hall.reset : Hall :=
  ⟨0, 0, none, 0, none, [], [], [], [], none, false, 0, none, none, 0, 0, 0⟩

/-! ### Host interface -/

/-- A job of a submission ring that the device has begun (R375 to R384): number, index of its first and last entries consumed, TAG, its
words 3 to 7, the number of its entries and of their bytes, what it keeps of its buffers, the cells taken for its frame, that frame, whether every entry has been
read, whether it has been passed on, how it ended (status, words 0 and 1), and when its last entry was read. -/
structure Job where
  num     : Nat
  first   : Nat
  last    : Nat
  tag     : Nat
  words   : List Word
  count   : Nat
  total   : Nat
  payload : List Byte
  cells   : List Nat
  fid     : Option Nat
  ready   : Bool
  passed  : Bool
  done    : Option (Nat × Nat × Nat × Nat)
  readyAt : Nat
  deriving DecidableEq, Repr

/-- A ring (R368 to R392): state, kind, size, the device's and the host's positions, the chain in progress, its timer, skipping, jobs that
await completion, the buffers of an RX ring read by the device (address, length, tag, index; a length of 0 keeps a completion without a frame, with its
status in place of the address), the moderation count of a completion ring (R380), whether a shutdown ends in a new start (R392), the entries still to be read
whose jobs were aborted (R391), how many entries have been read since the enable, and the job whose error waits for the end of its chain, in case an entry of it is aborted, with its
status. -/
structure Ring where
  state   : Nat
  dev     : Nat
  host    : Nat
  cur     : Option Job
  parked  : Option Nat
  skip    : Bool
  jobs    : List Job
  nextJob : Nat
  bufs    : List (Nat × Nat × Nat × Nat)
  u       : Nat
  uAt     : Nat
  rerun   : Bool
  abortAt : List Nat
  taken   : Nat
  held    : Option (Nat × Nat)
  deriving DecidableEq, Repr

def Ring.reset : Ring := ⟨0, 0, 0, none, none, false, [], 0, [], 0, 0, false, [], 0, none⟩

/-- What the configuration space of the PCIe function holds that software changes (R362, R363): MSI-X enabled, the function masked, the encodings of
`Max_Payload_Size` and `Max_Read_Request_Size`, the Uncorrectable Error Status of AER, D3hot, the base addresses in BAR0 and BAR2, and whether 10-bit tags are
enabled. The layout and the reset values are those of PCI Express (PRESUMED, notes/assumptions/46.md). -/
structure PciFn where
  msixEn : Bool
  fnMask : Bool
  mps    : Nat
  mrrs   : Nat
  aer    : Nat
  d3     : Bool
  bar0   : Nat
  bar2   : Nat
  tag10  : Bool
  deriving DecidableEq, Repr

def PciFn.reset : PciFn := ⟨false, false, 0, 2, 0, false, 0, 0, false⟩

/-- The host interface: rings, completions waiting for their CQ (submission ring, words 0 to 2, status, kind), the vectors that are not
armed, the MSI-X table of BAR2, the vectors that keep a message of a completion ring pending and those that keep one of a source pending, the rings whose `HI_RING_CFG2` has been written since its reset (R394), and the PCIe function. -/
structure HostIf where
  rings   : SMap Ring
  waiting : SMap (List (Nat × List Word × Nat × Nat))
  unarmed : List Nat
  table   : SMap Word
  pba     : List Nat
  srcPba  : List Nat
  cfg2Set : List Nat
  pci     : PciFn
  deriving DecidableEq, Repr

def HostIf.reset : HostIf := ⟨[], [], [], [], [], [], [], PciFn.reset⟩

/-! ### Islands -/

/-- The islands that the CLK region enables (R19): pair islands and port-group islands, one bit each; whether the receive paths are open (R231,
R443, R476); and what holds the device: Off (R495), AON_RST_N low, SYS_RST_N low, the main rails lost (R477); whether
Keep has been asked for since the boot (R476); when the main islands last left reset, and the Hallmark second of it; and whether `PW_CTRL.TARGET` stands as it did
when the main rails were last lost (R478). -/
structure Islands where
  pair    : Nat
  pg      : Nat
  rxOpen  : Bool
  off     : Bool
  aonRst  : Bool
  sysRst  : Bool
  mainOff : Bool
  keep    : Bool
  upAt    : Nat
  upSec   : Nat
  oldTgt  : Bool
  deriving DecidableEq, Repr

def Islands.reset : Islands := ⟨0, 0, false, false, false, false, false, false, 0, 0, false⟩

/-! ### Lookup planes -/

/-- A Filigree entry as stored (R130, R131): valid bit, 320 bits of VALUE and of CARE, and the action word. In a 640-bit bank the even entry holds key
bits 319:0 and the action word, the odd one key bits 639:320. -/
structure FgEnt where
  valid  : Bool
  value  : Nat
  care   : Nat
  action : List Word
  deriving DecidableEq, Repr

def FgEnt.reset : FgEnt := ⟨false, 0, 0, [0, 0, 0]⟩

/-- A payload pattern (R146, R147): valid bit, 128 bits of VALUE and CARE, and the words `LP_PM_CFG` and `LP_PM_PORT`. -/
structure Pat where
  valid : Bool
  value : Nat
  care  : Nat
  cfg   : Nat
  port  : Nat
  deriving DecidableEq, Repr

def Pat.reset : Pat := ⟨false, 0, 0, 0x07000000, 0⟩

/-- An entry of a MAC table: its 64-bit key (DOMAIN above the MAC) and TC3 without VALID (R164). -/
structure MacEnt where
  key  : Nat
  data : Nat
  deriving DecidableEq, Repr

/-- What an empty position holds: a key that no entry can have. -/
def MacEnt.empty : MacEnt := ⟨2 ^ 64, 0⟩

/-- Learning of one plane: the queue of requests (key, DEST as in TC3), its tokens in units of 1 learn / 60,000,000 and when they were last counted
(R172), when the last sweep started or the timer of R173 began; and, for a hit and a sweep in one cycle (R183), the cycle of the last source hits with the
positions hit in it, and that of the last sweep with the entries deleted in it (position, entry). -/
structure Learn where
  reqs    : List (Nat × Nat)
  tok     : Nat
  tokAt   : Nat
  sweepAt : Nat
  hitCyc  : Nat
  hits    : List Nat
  agedCyc : Nat
  aged    : List (Nat × MacEnt)
  deriving DecidableEq, Repr

def Learn.reset : Learn := ⟨[], 64 * 60000000, 0, 0, 0, [], 0, []⟩

/-- The tables of the lookup planes: Filigree entries and patterns by plane × 8,192 (1,024) + number, the indexed tables by table × 2^20 + index (one
record for the copies that R156 keeps identical), MAC entries by plane × 2^19 + position, and learning by plane. -/
structure Planes where
  fg    : SMap FgEnt
  pat   : SMap Pat
  tbl   : SMap (List Word)
  mac   : SMap MacEnt
  learn : SMap Learn
  staged : SMap (List (Nat × Nat × Word))
  deriving DecidableEq, Repr

def Planes.reset : Planes := ⟨[], [], [], [], [], []⟩

/-! ### Twin -/

/-- A generation stream (R335): the time of its last numbered frame and the port that numbered it. Its last number lies in `TW_GEN[s].SEQ`. -/
structure Stream where
  lastAt : Nat
  port   : Nat
  deriving DecidableEq, Repr

/-- The 802.1CB vector recovery of a dwelling (R340): whether any number is taken next, the history, and the time of the last acceptance. The
last number accepted lies in `TW_REC[d].LAST`. -/
structure Recovery where
  take   : Bool
  hist   : Nat
  lastAt : Nat
  deriving DecidableEq, Repr

def Recovery.reset : Recovery := ⟨true, 0, 0⟩

/-- The twin state beside its registers (R341 to R356): expiry X, the guard, when the last RENEW and CLAIM were sent, the last NUM, the
renewals whose ACK could still extend X, the newest lease message and whether it has gone out, the number of the last CLAIM that has, the messages acted upon, heartbeat numbers, arrival times, since when the
peer has been without DUTY, when the twin was enabled, the heartbeats and lease messages that the CRF path has accepted and the twin has not yet
taken (slot and bytes), mirror records that wait to be sent, mirror numbers, the audits (the last one's differences and second, and the second of the last one that
compared), and how many records of a mirror resend are still to be sent (R356). -/
structure Twin where
  streams  : SMap Stream
  recov    : SMap Recovery
  expiry   : Nat
  guard    : Nat
  renewAt  : Nat
  claimAt  : Nat
  num      : Nat
  renews   : List (Nat × Nat)
  msg      : List Byte
  sent     : Bool
  claimed  : Option Nat
  acted    : List (Nat × Nat × Nat)
  seqPin   : Nat
  seqCrf   : Nat
  txPinAt  : Nat
  pinAt    : Option Nat
  crfAt    : Option Nat
  validAt  : Option Nat
  dutyOff  : Option Nat
  onAt     : Nat
  inbox    : List (Nat × List Byte)
  records  : List (Nat × Nat × List Word)
  mseq     : Nat
  mseqRx   : Option Nat
  digests  : List (Nat × List Nat)
  lastDiff : Nat
  auditSec : Option Nat
  diffSec  : Option Nat
  resend   : Nat
  deriving DecidableEq, Repr

def Twin.reset : Twin :=
  ⟨[], [], 0, 0, 0, 0, 0, [], [], false, none, [], 0, 0, 0, none, none, none, none, 0, [], [], 0, none, [], 0, none, none, 0⟩

/-! ### Anvil: continuity checks -/

/-- A MEP as Anvil keeps it (R114 to R117): the words of its record in effect since its group's last service (CFG, IDS, PORT, the status word's place,
MAID), when it became active, when its next CCM is due, the sequence number of that CCM, the number of the last valid CCM (none where the next is not
checked), and the times of the last valid CCM and of the last UNL, MMG, UNM, UNP and UNPR. -/
structure Mep where
  cfg    : List Word
  since  : Nat
  nextTx : Nat
  seq    : Nat
  prev   : Option Nat
  valid  : Nat
  unl    : Nat
  mmg    : Nat
  unm    : Nat
  unp    : Nat
  unpr   : Nat
  deriving DecidableEq, Repr

def Mep.reset : Mep := ⟨[], 0, 0, 0, none, 0, 0, 0, 0, 0, 0⟩

/-- A consumed CCM that waits for its examination: MEP, frame and parse. -/
structure Ccm where
  mep   : Nat
  bytes : List Byte
  parse : Parse
  deriving DecidableEq, Repr

/-- Anvil's continuity checks: the MEPs and the consumed CCMs that wait for their examination. -/
structure Anvil where
  meps : SMap Mep
  ccm  : List Ccm
  deriving DecidableEq, Repr

def Anvil.reset : Anvil := ⟨[], []⟩

/-! ### Power states and debug -/

/-- A frame in a wake buffer (R475). -/
structure WakeFrame where
  port  : Nat
  bytes : List Byte
  cut   : Bool
  stamp : Nat
  at_   : Nat
  deriving DecidableEq, Repr

/-- The measures of Doze (R474, R475): frames in the wake buffer of a drop port group and when its wake
began; since when each group and each lane 1 (pipeline) has been idle; until when a register access keeps a group awake (R403); when each bank last woke; and the
cycle in which each egress pipeline last took a frame. -/
structure Power where
  buf    : SMap (List WakeFrame)
  wakeAt : SMap Nat
  pgAt   : SMap Nat
  laneAt : SMap Nat
  regAt  : SMap Nat
  bankAt : SMap Nat
  egCyc  : SMap Nat
  deriving DecidableEq, Repr

def Power.reset : Power := ⟨[], [], [], [], [], [], []⟩

/-- Loupe (R464 to R467): trace entries, oldest first, the CD02 cycle of the last capture, the counters of the last snapshot, and when the Inspect
session ends. -/
structure Debug where
  trace   : List (List Word)
  lastCyc : Option Nat
  snap    : List Nat
  endAt   : Option Nat
  deriving DecidableEq, Repr

def Debug.reset : Debug := ⟨[], none, [], none⟩

/-! ### CRF ports -/

/-- The transmitter of a CRF port (R60 to R70, R79 to R84): when the last CRF frame began, the next frame's MFAS, the superframe count, the BIP of the
last payload, the scrambler's 43 bits, the bytes of a header or frame that go on into the next payload and the frame that they belong to, as it is sent,
the frames that the framer has taken and not yet begun, the slots formed (by slot number), the bytes of the slot under way, whether the message buffer is being sent, the LEN that was written with its GO (R84), and the last four local time events (count
and time). -/
structure CrfTx where
  at_   : Option Nat
  mfas  : Nat
  sf    : Nat
  bip   : Nat
  scr   : Nat
  carry : List Byte
  open_ : Option TxSt
  units : List TxSt
  slots : SMap (List Byte)
  cur   : List Byte
  hmc   : Bool
  hmcLen : Nat
  marks : List (Nat × Nat)
  deriving DecidableEq, Repr

def CrfTx.reset : CrfTx := ⟨none, 0, 0, 0, 2 ^ 43 - 1, [], none, [], [], [], false, 0, []⟩

/-- Where delineation stands in a payload (R76): looking for a header, bytes to skip to the first header, bytes of a header read so far, or bytes of a
frame still to come. -/
inductive Delin where
  | seek
  | skip (n : Nat)
  | header (bytes : List Byte)
  | frame (left : Nat)
  deriving DecidableEq, Repr

/-- The receiver of a CRF port (R72 to R85): the number of the next block modulo 1,024, the trackers (position, count), the position in SYNC, the run of
errored FAS, whether the frame under way is processed and whether its payload is delineated, the last MFAS and the misses of its prediction, the parity of the payload under way and
of the last frame received in SYNC, the descrambler's 43 bits, the delineation with the bytes of the frame in reassembly, whether the MAC takes it, its timestamp
and instant, the payload offset, FHP and whether it is still to be compared, the slot under way (number, bytes, and whether it has failed), the runs of R522, the time of the last FAS, the
last far-end time event (count and time) and whether it is that of the superframe under way (R80), and the last report taken (EB_CUM, FR_CUM, time). -/
structure CrfRx where
  blk     : Nat
  trk     : List (Nat × Nat)
  pos     : Nat
  run     : Nat
  live    : Bool
  delin   : Bool
  mfas    : Option Nat
  miss    : Nat
  bip     : Nat
  bipLast : Option Nat
  scr     : Nat
  st      : Delin
  buf     : List Byte
  take    : Bool
  stamp   : Nat
  instant : Nat
  off     : Nat
  fhp     : Nat
  fhpDue  : Bool
  slotNo  : Nat
  slot    : List Byte
  slotBad : Bool
  slotOn  : Bool
  aisRun  : Nat × Nat
  rdiRun  : Nat × Nat
  fasTime : Nat
  mark    : Option (Nat × Nat)
  markNow : Bool
  rpt     : Option (Nat × Nat × Nat)
  deriving DecidableEq, Repr

def CrfRx.reset : CrfRx :=
  ⟨0, [], 0, 0, false, false, none, 0, 0, none, 0, .seek, [], false, 0, 0, 0, 0, false, 0, [], false, false, (0, 0), (0, 0), 0, none, false, none⟩

structure Crf where
  tx : CrfTx
  rx : CrfRx
  deriving DecidableEq, Repr

def Crf.reset : Crf := ⟨CrfTx.reset, CrfRx.reset⟩

/-! ### Defects and performance monitoring -/

/-- Grades or counts: ES, SES, BBE, UAS. -/
structure Grades where
  es  : Nat
  ses : Nat
  bbe : Nat
  uas : Nat
  deriving DecidableEq, Repr

def Grades.zero : Grades := ⟨0, 0, 0, 0⟩

/-- What a second gathers (R96 to R106): its number (and how many seconds from it on are alike), the start of the 15-minute bin current when it began, whether it is monitored, BIP comparisons and mismatches, whether a near-end or a far-end defect was
present, the far end's deltas, the errors of PCS and FEC counted in it, whether the port runs CRF in it, whether `FE_EN` was 1 throughout (R102), and, once it has ended, what the ticks alone had added to the counter by its end
(`Time.flow`: steps do not put off the ten seconds of R105). -/
structure PmSec where
  sec   : Nat
  n     : Nat
  low   : Nat
  unmon : Bool
  eb    : Nat
  chk   : Nat
  ne    : Bool
  fe    : Bool
  deb   : Nat
  dfr   : Nat
  errs  : Nat
  crf   : Bool
  feEn  : Bool
  fin   : Int
  deriving DecidableEq, Repr

/-- A second that has been graded and is not yet final: its number, the second by which its bins are found, whether the far end was graded too, near-end and far-end counts as counted so far, the grades of R98, and its end as in `PmSec`. -/
structure PmHist where
  sec : Nat
  bin : Nat
  far : Bool
  ne  : Grades
  fe  : Grades
  gne : Grades
  gfe : Grades
  fin : Int
  deriving DecidableEq, Repr

/-- A bin (R107, R110): first second, flags, monitored seconds, counts, the counts of final seconds, the alerts raised, and, once it has ended, its end as in `PmSec`. -/
structure PmBin where
  start   : Nat
  open_   : Bool
  suspect : Bool
  valid   : Bool
  mon     : Nat
  ne      : Grades
  fe      : Grades
  finNe   : Grades
  finFe   : Grades
  alerts  : Nat
  fin     : Int
  deriving DecidableEq, Repr

def PmBin.empty : PmBin := ⟨0, false, false, false, 0, Grades.zero, Grades.zero, Grades.zero, Grades.zero, 0, 0⟩
def PmBin.current (start : Nat) (suspect : Bool) : PmBin :=
  ⟨start, true, suspect, false, 0, Grades.zero, Grades.zero, Grades.zero, Grades.zero, 0, 0⟩

/-- A port's defects and performance monitoring (R89 to R112): the defects detected, before masks (bits as in `LF_DEFECTS.DEF`), when the condition of
dLOS, the SYNC state and the multiframe lock last changed, when each unmasked defect last changed, since when no port-down defect has been present (none while one is), the run of bad and of
good seconds, totals of R100, the second under way, seconds that wait for their grade, graded seconds that are not final, the bins, DAY_OFS in
effect, and whether a defect has been present since the last report sent. -/
structure Pm where
  det     : Nat
  losAt   : Nat
  lofAt   : Nat
  lomAt   : Nat
  failAt  : List Nat
  upAt    : Option Nat
  bad     : Nat
  good    : Nat
  ebCum   : Nat
  frCum   : Nat
  acc     : Option PmSec
  wait    : List PmSec
  hist    : List PmHist
  bin15   : PmBin
  past15  : List PmBin
  bin24   : PmBin
  prev24  : PmBin
  dayOfs  : Nat
  since   : Bool
  deriving DecidableEq, Repr

def Pm.reset : Pm :=
  ⟨0, 0, 0, 0, [0, 0, 0, 0, 0, 0], some 0, 0, 0, 0, 0, none, [], [], PmBin.current 0 true, List.replicate 32 PmBin.empty, PmBin.current 0 true, PmBin.empty, 0, false⟩

/-! ### Image and boot -/

/-- A live reload under way (R446 to R448): the ring and job that wait for it, the image's digest, SEQ and SVN, the regions that it applies (bit r - 1), those still to be
applied, the moves that R272 refused, and the FABRIC and MEM regions whose reasons are raised once CAL has been applied (R448; empty where there are none). -/
structure Reload where
  ring    : Nat
  job     : Nat
  digest  : List Byte
  seq     : Nat
  svn     : Nat
  regions : Nat
  left    : Nat
  refused : Nat
  fabric  : List Byte
  mem     : List Byte
  deriving DecidableEq, Repr

/-- Boot and image (R427 to R451): the payloads of the regions in effect by REGION number, the calendar that waits for the next turn, the reload under way, the image that the boot
works on with the slot it came from, and the images of the two flash slots. -/
structure Boot where
  regions : SMap (List Byte)
  calNew  : Option (List Byte)
  reload  : Option Reload
  image   : List Byte
  source  : Nat
  slot0   : List Byte
  slot1   : List Byte
  deriving DecidableEq, Repr

def Boot.reset : Boot := ⟨[], none, none, [], 0, [], []⟩

/-! ### Signet and the reset pins -/

/-- What the programming of fuses under way would leave unfinished with a loss of power (R460): SECURE with its slot and that slot's CUST_SEED before, or
ADVANCE_SVN with SVN_COUNT before. RETIRE and Maker entry begin with the bit that decides their outcome. -/
inductive FuseProg where
  | secure (slot : Nat) (seed : List Byte)
  | advance (svn : Nat)
  deriving DecidableEq, Repr

/-- Signet (R452 to R470): the fuses (UID, DEVICE_SEED, the two slots of CUST_KEY_HASH and CUST_SEED, SLOT_USED, SVN_COUNT, STATE, MAKER_USED), the
monotonic counter of R470, until when fuses are being programmed, what that would leave unfinished, and when GO of `SG_CMD` clears, until CMD_DONE shows it. -/
structure Signet where
  uid       : Nat
  seed      : List Byte
  hashA     : List Byte
  hashB     : List Byte
  custA     : List Byte
  custB     : List Byte
  slotUsed  : Nat
  svn       : Nat
  fuseState : Nat
  makerUsed : Bool
  mono      : Nat
  fuseEnd   : Nat
  prog      : Option FuseProg
  doneAt    : Option Nat
  deriving DecidableEq, Repr

/-- A part as Imuri ships it (R455): provisioned, with no customer key. The values of UID and DEVICE_SEED are the model's (notes/assumptions/40.md). -/
def Signet.reset : Signet :=
  ⟨1, 1 :: List.replicate 31 0, List.replicate 32 0, List.replicate 32 0, List.replicate 32 0, List.replicate 32 0, 0, 0, 1, false, 0, 0, none, none⟩

/-- What the reset pins and the I²C slave leave behind (R491, R496 to R502): the address strap as sampled, STATUS of the last access, when AON_RST_N last rose,
whether the AON island is ready, whether AON_RST_N has yet to rise for the first time since VAON rose, and whether PERST_N is low. -/
structure Pins where
  i2cAddr  : Nat
  i2cStat  : Nat
  aonAt    : Nat
  aonReady : Bool
  cold     : Bool
  perstLow : Bool
  deriving DecidableEq, Repr

def Pins.reset : Pins := ⟨0, 0, 0, true, false, false⟩

/-! ### The state -/

/-- The state of the device.
`regs` holds every word of BAR0 that differs from its reset value, `act` the active copies of RWS words (R412), `ctrs` the 64-bit
counters by the address of their low word (R57, R518). `bus` is kept per initiator (0 PCIe, 1 I²C, 2 Loupe). `goBusy` gives, per command register,
the time until which GO reads 1 (R520). `free` counts the free values drawn. `pending` is the queue of the commands that wait. -/
structure State where
  time    : Time
  timeReq : TimeReq
  regs    : SMap Word
  act     : SMap Word
  ctrs    : SMap Nat
  bus     : SMap IniBus
  goBusy  : SMap Nat
  jn      : Journal
  pool    : Pool
  fab     : Fab
  ports   : SMap Port
  pl      : Planish
  hm      : Hall
  pt      : Planes
  hi      : HostIf
  isl     : Islands
  tw      : Twin
  av      : Anvil
  pw      : Power
  db      : Debug
  crfs    : SMap Crf
  pms     : SMap Pm
  bt      : Boot
  sg      : Signet
  rst     : Pins
  out     : List OutEv
  free    : Nat
  pending : List Instr
  deriving DecidableEq, Repr

/-- The device right after power-on reset: every register at its reset value, nothing in flight, no command waiting. -/
def State.reset : State :=
  ⟨Time.reset, ⟨none, none⟩, [], [], [], [], [], Journal.reset, Pool.reset, Fab.reset, [], Planish.reset, Hall.reset, Planes.reset, HostIf.reset, Islands.reset, Twin.reset, Anvil.reset, Power.reset,
   Debug.reset, [], [], Boot.reset, Signet.reset, Pins.reset, [], 0, []⟩

end Sys2Proof.Machine
end

