-- ==== Sys2Proof/Machine/Ops.lean ====
section
/-!
DEFINITION. The shared operations on the state: reset values of registers, reads and writes of registers, fields, active copies and counters;
time; free values; commands with GO; the journal; interrupts; and the frame that every command runs in (`State.run`).
-/
namespace Sys2Proof.Machine

/-! ### Reset values -/

/-- Reset values that depend on the index of a register in its array, and the few that a table row gives in words. -/
def regSpecial (a : Nat) : Option Nat :=
  if 0x10010 ≤ a ∧ a < 0x10090 then some ((a - 0x10010) / 4)                                   -- CM_UNIT_GROUP[u] (R411)
  else if 0x400000 ≤ a ∧ a < 0x600000 then
    let o := (a - 0x400000) % 0x40000
    if o = 4 then some 0x188A8 else if o = 8 then some 0x19100 else if o = 12 then some 0x9200  -- PP_TPID
    else if 0x100 ≤ o ∧ o < 0x120 then some ((o - 0x100) / 4)                                  -- PP_PCP_MAP
    else if 0x200 ≤ o ∧ o < 0x300 then some ((o - 0x200) / 32)                                 -- PP_DSCP_MAP
    else none
  else if 0xC00100 ≤ a ∧ a < 0xC00120 then
    let p := (a - 0xC00100) / 4
    some (p * 2 ^ 24 + 4 * 2 ^ 16 + 4 * p)                                                     -- CB_REGION
  else if 0xCC0000 ≤ a ∧ a < 0xCC0080 then
    let n := (a - 0xCC0000) / 16
    if (a - 0xCC0000) % 16 = 0 then some (2 ^ 31 + n * 2 ^ 28 + 0x40 * 2 ^ 16 + 64 * n)        -- CB_POOL_CFG of the default image
    else if (a - 0xCC0000) % 16 = 4 ∨ (a - 0xCC0000) % 16 = 8 then some 0x10000                -- CB_POOL_FREE, CB_POOL_WM
    else none
  else if a = 0x1000040 then some 0x14                                                         -- PL_LEN_PROF[0]
  else none

/-- What a word of BAR0 holds at reset (R9, R402: 0 where nothing is). -/
def regReset (a : Nat) : Word :=
  match regSpecial a with
  | some n => w32 n
  | none =>
    match regAt a with
    | some (r, _) => w32 (fieldsReset r.fields)
    | none => 0

/-! ### Registers, active copies, counters -/

def State.reg (s : State) (a : Nat) : Word := SMap.get regReset s.regs a
def State.setReg (s : State) (a : Nat) (w : Word) : State := { s with regs := SMap.put regReset s.regs a w }

/-- The active copy of a word with RWS fields (R412). -/
def State.actReg (s : State) (a : Nat) : Word := SMap.get regReset s.act a
def State.setAct (s : State) (a : Nat) (w : Word) : State := { s with act := SMap.put regReset s.act a w }

/-- The value of a field, of its shadow where the field is RWS. -/
def State.fld (s : State) (f : Fld) : Nat := bitsOf (s.reg f.addr).toNat f.lo f.len
/-- The value of a field of the active copy. -/
def State.afld (s : State) (f : Fld) : Nat := bitsOf (s.actReg f.addr).toNat f.lo f.len
/-- A one-bit field. -/
def State.bit (s : State) (f : Fld) : Bool := decide (s.fld f = 1)
def State.abit (s : State) (f : Fld) : Bool := decide (s.afld f = 1)
def State.setF (s : State) (f : Fld) (v : Nat) : State :=
  s.setReg f.addr (w32 (setBits (s.reg f.addr).toNat f.lo f.len v))
/-- An event sets its status bit; only software clears it (R409). -/
def State.raise (s : State) (f : Fld) : State := s.setF f 1
/-- A field with some bits set in addition. -/
def State.orF (s : State) (f : Fld) (v : Nat) : State := s.setF f (s.fld f ||| v)

/-- A 64-bit counter, named by the address of its low word (R57). -/
def State.ctr (s : State) (a : Nat) : Nat := SMap.get (fun _ => 0) s.ctrs a
def State.setCtr (s : State) (a v : Nat) : State := { s with ctrs := SMap.put (fun _ => 0) s.ctrs a (v % 2 ^ 64) }
/-- A counter counts on and wraps at 2^64 (R57). -/
def State.count (s : State) (a n : Nat) : State := s.setCtr a (s.ctr a + n)

/-- Addresses of the counters of a port (R57, R88, R121, R222, R245, R330), a pipeline, a plane, a queue, a pool, a policer (R518). -/
def Ctr.port (p off : Nat) : Nat := 0x2000000 + p * 0x400 + off
def Ctr.pipe (i off : Nat) : Nat := 0x2180000 + i * 0x100 + off
def Ctr.plane (k off : Nat) : Nat := 0x2140000 + k * 0x100 + off
def Ctr.queue (q off : Nat) : Nat := 0x2200000 + q * 0x20 + off
def Ctr.pool (n off : Nat) : Nat := 0x2500000 + n * 0x20 + off
def Ctr.pol (n off : Nat) : Nat := 0x2600000 + n * 0x20 + off
def Ctr.hm (off : Nat) : Nat := 0x2730000 + off
def Ctr.tw (off : Nat) : Nat := 0x2740000 + off
def Ctr.hi (off : Nat) : Nat := 0x2750000 + off
def Ctr.mep (m off : Nat) : Nat := 0x27A0000 + m * 0x20 + off

/-! ### Groups of the state -/

def State.port (s : State) (p : Nat) : Port := SMap.get (fun _ => Port.reset) s.ports p
def State.setPort (s : State) (p : Nat) (x : Port) : State := { s with ports := SMap.put (fun _ => Port.reset) s.ports p x }
def State.ini (s : State) (i : Nat) : IniBus := SMap.get (fun _ => IniBus.reset) s.bus i
def State.setIni (s : State) (i : Nat) (b : IniBus) : State := { s with bus := SMap.put (fun _ => IniBus.reset) s.bus i b }
def State.frame? (s : State) (f : Nat) : Option Frame := SMap.look s.fab.frames f
def State.setFrame (s : State) (f : Nat) (x : Frame) : State := { s with fab := { s.fab with frames := SMap.ins s.fab.frames f x } }
def State.dropFrame (s : State) (f : Nat) : State := { s with fab := { s.fab with frames := SMap.del s.fab.frames f } }
def State.ring (s : State) (r : Nat) : Ring := SMap.get (fun _ => Ring.reset) s.hi.rings r
def State.setRing (s : State) (r : Nat) (x : Ring) : State := { s with hi := { s.hi with rings := SMap.put (fun _ => Ring.reset) s.hi.rings r x } }

/-- What leaves the device is logged, newest first. -/
def State.emit (s : State) (e : OutEv) : State := { s with out := e :: s.out }

/-- The next free value, and the state with that value drawn (notes/assumptions/3.md). -/
def State.freeVal (s : State) : Nat := Config.free s.free
def State.drawn (s : State) : State := { s with free := s.free + 1 }

/-! ### The silicon's fixed assignments (R11, R12) -/

/-- The port group of a port. -/
def groupOf (p : Nat) : Nat := if p < 128 then p / 16 else 8 + (p - 128) / 4
/-- The pipeline of a port. -/
def pipeOf (p : Nat) : Nat := if p < 128 then p / 16 else (p - 128) / 2
/-- The lookup plane of a pipeline. -/
def planeOf (i : Nat) : Nat := i / 2
/-- The ports of a pipeline, rising. -/
def portsOfPipe (i : Nat) : List Nat := (List.range 16).map (fun j => 16 * i + j) ++ [128 + 2 * i, 129 + 2 * i]

/-! ### Time (R295, R296, R519) -/

/-- One second, millisecond, microsecond and nanosecond in the model's units of 1/60 ns. -/
def tSec : Nat := 60000000000
def tMs : Nat := 60000000
def tUs : Nat := 60000
def tNs : Nat := 60

/-- The Hallmark counter's modulus: 2^48 s in units of 2^-40 ns. -/
def hmMod : Nat := 2 ^ 48 * 1000000000 * 2 ^ 40

/-- The clamp of an addend (R296). -/
def clampAddend (a : Int) : Int := if a > 2 ^ 30 then 2 ^ 30 else if a < -(2 ^ 30) then -(2 ^ 30) else a

/-- The time group after `dt`: every CD01 tick (240 units) adds 4 ns × (1 + A × 2^-40) (R296). -/
def Time.advance (t : Time) (dt : Nat) : Time :=
  let d : Int := ((t.now + dt) / 240 - t.now / 240 : Nat) * (4 * 2 ^ 40 + 4 * t.addend)
  { t with now := t.now + dt, raw := (((t.raw : Int) + d) % (hmMod : Int)).toNat, flow := t.flow + d }

/-- The time group after what a command asked of it: a step (R298) and a new active addend (R297). What was in force until then is kept. -/
def Time.take (t : Time) (r : TimeReq) : Time :=
  { t with past := if r.step.isSome || r.addend.isSome then (t.now, t.raw, t.addend) :: t.past else t.past,
           stepAt := if r.step.isSome then t.flow else t.stepAt,
           raw := match r.step with
                  | some d => (((t.raw : Int) + d) % (hmMod : Int)).toNat
                  | none => t.raw,
           addend := match r.addend with
                     | some a => clampAddend a
                     | none => t.addend }

/-- The counter at an instant before the device time `n` at which it stood at `r`, with no step and the addend `a` in between: what the ticks have added
comes off (R296). -/
def hmBack (n r : Nat) (a : Int) (t : Nat) : Nat := (((r : Int) - (n / 240 - t / 240 : Nat) * (4 * 2 ^ 40 + 4 * a)) % (hmMod : Int)).toNat
/-- The counter at an instant that is past, by the steps and the addends of the time since then. -/
def hmPast : List (Nat × Nat × Int) → Nat → Nat → Int → Nat → Nat
  | [], n, r, a, t => hmBack n r a t
  | e :: l, n, r, a, t => if e.1 ≤ t then hmBack n r a t else hmPast l e.1 e.2.1 e.2.2 t
def Time.rawAt (t : Time) (x : Nat) : Nat := hmPast t.past t.now t.raw t.addend x

/-- One second of the counter. -/
def hmSecond : Nat := 1000000000 * 2 ^ 40
/-- What the ticks alone had added when the counter stood at the start of a second, without a step since (R105). -/
def Time.flowAt (t : Time) (sec : Nat) : Int := t.flow - (t.raw : Int) + ((sec * hmSecond : Nat) : Int)

def State.now (s : State) : Nat := s.time.now
/-- The Hallmark time in units of 2^-16 ns since 0 s (seconds, nanoseconds and visible fraction as one number). -/
def State.hm16 (s : State) : Nat := s.time.raw / 2 ^ 24
/-- The Hallmark time in whole nanoseconds. -/
def State.hmNs (s : State) : Nat := s.time.raw / 2 ^ 40
def State.hmSec (s : State) : Nat := s.hmNs / 1000000000
/-- The cycle of CD01 that the present instant lies in (250 MHz). -/
def State.cyc01 (s : State) : Nat := s.now / 240
/-- The cycle of CD23 that the present instant lies in. -/
def State.cyc23 (s : State) : Nat := s.now / 50

/-- The three words of a time in units of 2^-16 ns (layout of R87). -/
def timeWord (t i : Nat) : Word :=
  let ns := t / 2 ^ 16
  if i = 0 then w32 (ns % 1000000000)
  else if i = 1 then w32 (ns / 1000000000)
  else w32 ((t % 2 ^ 16) * 2 ^ 16 + (ns / 1000000000) / 2 ^ 32 % 2 ^ 16)

/-- The time that three words give, in units of 2^-16 ns; a nanoseconds field of 10^9 or more carries (R323). -/
def timeOfWords (w0 w1 w2 : Word) : Nat :=
  ((w2.toNat % 2 ^ 16 * 2 ^ 32 + w1.toNat) * 1000000000 + w0.toNat % 2 ^ 30) * 2 ^ 16 + w2.toNat / 2 ^ 16

/-- The time held in three registers from an address. -/
def State.timeAt (s : State) (a : Nat) : Nat := timeOfWords (s.reg a) (s.reg (a + 4)) (s.reg (a + 8))

/-! ### Commands with GO (R520) -/

/-- Whether GO of a command register reads 1. -/
def State.busy (s : State) (a : Nat) : Bool := decide (s.now < SMap.get (fun _ => 0) s.goBusy a)
/-- When GO of a command register clears, which is when its command completes. -/
def State.goEnd (s : State) (a : Nat) : Nat := SMap.get (fun _ => 0) s.goBusy a
/-- A command is carried out; its GO clears after a free delay of at most `bound`. -/
def State.startGo (s : State) (a bound : Nat) : State :=
  { s.drawn with goBusy := SMap.put (fun _ => 0) s.goBusy a (s.now + s.freeVal % (bound + 1)) }

/-! ### The twin's duty (R348) -/

/-- DUTY: 1 exactly while the device is HOLDER and its lease timer is short of X. -/
def State.duty (s : State) : Bool := s.bit Fld.TW_STATUS_DUTY && decide (s.now < s.tw.expiry)

/-- A write to a mirrored item on the holder waits to be sent to the peer: area (1 DWELL, 2 MCG, 3 Planish), index and data words (R355). -/
def State.mirrorNote (s : State) (area index : Nat) (ws : List Word) : State :=
  if s.bit Fld.TW_CFG_EN ∧ s.bit Fld.TW_MIRROR_CTRL_EN ∧ s.duty then
    { s with tw := { s.tw with records := s.tw.records ++ [(area, index, ws)] } }
  else s

/-! ### The journal (R419 to R421) -/

/-- ORIGIN codes of R420. -/
def orgPcie : Nat := 0
def orgI2c : Nat := 1
def orgTwin : Nat := 2
def orgInternal : Nat := 3
def orgLoupe : Nat := 4

/-- The ORIGIN and the bus number of an initiator. -/
def Initiator.origin : Initiator → Nat
  | .pcie => 0
  | .i2c => 1
  | .loupe => 4
def Initiator.num : Initiator → Nat
  | .pcie => 0
  | .i2c => 1
  | .loupe => 2

/-- The eight words of a record (R420, R421). -/
def jnWords (seq kind origin sub ns : Nat) (args : List Nat) : List Word :=
  [w32 seq, w32 (kind * 2 ^ 28 + origin * 2 ^ 24 + sub * 2 ^ 16 + seq / 2 ^ 32 % 2 ^ 16),
   w32 (ns / 1000000000), w32 (ns % 1000000000),
   w32 (args.getD 0 0), w32 (args.getD 1 0), w32 (args.getD 2 0), w32 (args.getD 3 0)]

/-- A record with the next sequence number. -/
def jnUp (ws : List Word) : List Word :=
  let q := (ws.getD 1 0).toNat % 2 ^ 16 * 2 ^ 32 + (ws.getD 0 0).toNat + 1
  w32 q :: w32 ((ws.getD 1 0).toNat / 2 ^ 16 * 2 ^ 16 + q / 2 ^ 32 % 2 ^ 16) :: ws.drop 2

/-- The places of the records that have entered the journal's queue in a CD01 cycle and are still in it. -/
def Journal.inTick (j : Journal) (tick : Nat) : List Nat := if j.tick = tick then j.ranks.drop (j.ranks.length - j.queue.length) else []

/-- A record of the time `ns` enters the journal's queue in a CD01 cycle, behind a LOST record that is due, if the queue of 256 has room for both; else it is
lost. Among the records of its cycle it takes the place that its kind, and its plane, give it (R419). -/
def State.jnEnter (s : State) (tick ns rank kind origin sub : Nat) (args : List Nat) : State :=
  let j := s.jn
  let rec_ (seq : Nat) : List Word := jnWords seq kind origin sub ns args
  if j.lostDue = 0 ∧ j.queue.length < 256 then
    let l := j.inTick tick
    let before := l.filter (fun r => decide (r ≤ rank))
    let after := l.filter (fun r => decide (rank < r))
    let cut := j.queue.length - after.length
    { s with jn := { j with queue := j.queue.take cut ++ rec_ (j.nextSeq - after.length) :: (j.queue.drop cut).map jnUp,
                            nextSeq := j.nextSeq + 1, tick := tick, ranks := before ++ rank :: after } }
  else if j.lostDue ≠ 0 ∧ j.queue.length < 255 then
    { s with jn := { j with queue := j.queue ++ [jnWords j.nextSeq 0xF orgInternal 0 ns [j.lostDue], rec_ (j.nextSeq + 1)],
                            nextSeq := j.nextSeq + 2, lostDue := 0, tick := tick, ranks := [rank] } }
  else
    { s with jn := { j with lost := min (j.lost + 1) (2 ^ 32 - 1), lostDue := j.lostDue + 1 } }.raise Fld.CM_INT_STATUS_JN_LOST
/-- The Hallmark time in whole nanoseconds at an instant that is past. -/
def State.nsAt (s : State) (t : Nat) : Nat := s.time.rawAt t / 2 ^ 40
/-- The events whose commands have completed enter the queue, each with the time of its completion (R419). -/
def State.jnRipe (s : State) : State :=
  (s.jn.soon.takeWhile (fun e => decide (e.at_ ≤ s.now))).foldl (fun s e => s.jnEnter (e.at_ / 240) (s.nsAt e.at_) e.rank e.kind e.origin e.sub e.args)
    { s with jn := { s.jn with soon := s.jn.soon.dropWhile (fun e => decide (e.at_ ≤ s.now)) } }
/-- An event takes effect now: its record enters the queue, after those of the commands that have completed. -/
def State.journal (s : State) (kind origin sub : Nat) (args : List Nat) : State :=
  let s1 := s.jnRipe
  s1.jnEnter s1.cyc01 s1.hmNs (4 * kind) kind origin sub args
/-- A table command, with its plane, takes effect at the time `t`: at once, or when that time has come. -/
def State.journalAt (s : State) (t plane kind origin sub : Nat) (args : List Nat) : State :=
  if t ≤ s.now then
    let s1 := s.jnRipe
    s1.jnEnter s1.cyc01 s1.hmNs (4 * kind + plane) kind origin sub args
  else { s with jn := { s.jn with soon := s.jn.soon.takeWhile (fun e => decide (e.at_ ≤ t)) ++
    ⟨t, 4 * kind + plane, kind, origin, sub, args⟩ :: s.jn.soon.dropWhile (fun e => decide (e.at_ ≤ t)) } }

/-- A word without the bits of a mask. -/
def dropBits (w mask : Nat) : Nat := w - (w &&& mask)

/-! ### Interrupts (R366, R367) -/

/-- The status and the enable register of an interrupt source (R366). -/
def srcRegs (n : Nat) : Nat × Nat :=
  if n < 144 then (Reg.PT_INT_STATUS n, Reg.PT_INT_EN n)
  else if n < 288 then (Reg.LF_INT_STATUS (n - 144), Reg.LF_INT_EN (n - 144))
  else if n < 432 then (Reg.LF_DEF_INT_STATUS (n - 288), Reg.LF_DEF_INT_EN (n - 288))
  else if n = 432 then (Reg.FB_INT_STATUS, Reg.FB_INT_EN)
  else if n = 433 then (Reg.CB_PM_INT_STATUS, Reg.CB_PM_INT_EN)
  else if n = 434 then (Reg.PL_INT_STATUS, Reg.PL_INT_EN)
  else if n = 435 then (Reg.HM_INT_STATUS, Reg.HM_INT_EN)
  else if n = 436 then (Reg.TW_INT_STATUS, Reg.TW_INT_EN)
  else if n = 437 then (Reg.HI_INT_STATUS, Reg.HI_INT_EN)
  else if n = 438 then (Reg.GL_INT_STATUS, Reg.GL_INT_EN)
  else if n = 439 then (Reg.CM_INT_STATUS, Reg.CM_INT_EN)
  else if n = 440 then (Reg.SG_INT_STATUS, Reg.SG_INT_EN)
  else if n = 441 then (Reg.PW_INT_STATUS, Reg.PW_INT_EN)
  else if n = 442 then (Reg.AV_INT_STATUS, Reg.AV_INT_EN)
  else (Reg.DB_INT_STATUS, Reg.DB_INT_EN)

/-- CMD_DONE of Signet is due: GO has cleared since the register last took it (R481). -/
def State.cmdDone (s : State) : Bool := match s.sg.doneAt with | some t => decide (t ≤ s.now) | none => false
/-- A status register as it stands now: `CB_PM_INT_STATUS` with what releases have raised since it was last written (R261), `SG_INT_STATUS` with CMD_DONE
once GO has cleared. -/
def State.intNow (s : State) (a : Nat) : Word :=
  if a = Reg.CB_PM_INT_STATUS then s.reg a ||| w32 s.pool.ints
  else if a = Reg.SG_INT_STATUS ∧ s.cmdDone then s.reg a ||| 1
  else s.reg a
/-- A status register takes over what it shows, before it is written. -/
def State.intTake (s : State) (a : Nat) : State :=
  if a = Reg.CB_PM_INT_STATUS then { s.setReg a (s.intNow a) with pool := { s.pool with ints := 0 } }
  else if a = Reg.SG_INT_STATUS ∧ s.cmdDone then { s.setReg a (s.intNow a) with sg := { s.sg with doneAt := none } }
  else s

/-- Whether a source is pending: its status AND its enable is non-zero; 444 to 511 never are (R366). -/
def State.srcPending (s : State) (n : Nat) : Bool :=
  decide (n < 444) && decide ((s.intNow (srcRegs n).1).toNat &&& (s.reg (srcRegs n).2).toNat ≠ 0)

/-- The sources that software has mapped, each with its vector (R367). -/
def State.mapped (s : State) : List (Nat × Nat) :=
  s.regs.filterMap (fun e =>
    if 0xC0000 ≤ e.1 ∧ e.1 < 0xC0800 ∧ e.2.toNat / 2 ^ 31 = 1 then some ((e.1 - 0xC0000) / 4, e.2.toNat % 2 ^ 11) else none)

/-- The vectors that are raised (R367). -/
def State.raised (s : State) : List Nat :=
  (s.mapped.filter (fun m => s.srcPending m.1)).map (fun m => m.2)

/-- What a word of the MSI-X table of BAR2 reads at reset: vectors masked, as PCI Express defines (R363). -/
def msixReset (i : Nat) : Word := if i % 4 = 3 then 1 else 0

/-- Whether the function may send requests of its own: its endpoint runs and it is in D0 (R362, R496). -/
def State.pciRuns (s : State) : Bool := !s.rst.perstLow && !s.hi.pci.d3
/-- Whether vectors may send messages: MSI-X is enabled, the function is not masked, and it is in D0 (R363). -/
def State.msixOpen (s : State) : Bool := s.pciRuns && s.hi.pci.msixEn && !s.hi.pci.fnMask

/-- Whether the vector or the function is masked (R363). -/
def State.msixMasked (s : State) (v : Nat) : Bool := bitOf (SMap.get msixReset s.hi.table (4 * v + 3)).toNat 0 || !s.msixOpen
/-- A vector's message is sent and counted (R396). -/
def State.msixOut (s : State) (v : Nat) : State := ({ s with out := .msix v :: s.out }).count (Ctr.hi 0x20) 1
/-- A completion ring's message: sent, or kept pending while the vector or the function is masked (R363, R380). -/
def State.msixSend (s : State) (v : Nat) : State :=
  if s.msixMasked v then { s with hi := { s.hi with pba := if s.hi.pba.contains v then s.hi.pba else v :: s.hi.pba } } else s.msixOut v
/-- The message of a vector that a source raises: sent, or kept pending (R363, R367). -/
def State.msixEvent (s : State) (v : Nat) : State :=
  if s.msixMasked v then { s with hi := { s.hi with srcPba := if s.hi.srcPba.contains v then s.hi.srcPba else v :: s.hi.srcPba } } else s.msixOut v

/-- A vector that is no longer raised owes no message of its sources, as PCI Express has it of an event that is satisfied while its vector is masked (R363);
as it has sent none, it is armed. -/
def State.msixMoot (s : State) : State :=
  let gone := s.hi.srcPba.filter (fun v => !(s.raised.contains v))
  { s with hi := { s.hi with srcPba := s.hi.srcPba.filter (fun v => s.raised.contains v), unarmed := s.hi.unarmed.filter (fun v => !(gone.contains v)) } }
/-- Every vector raised and armed sends its message and is no longer armed (R367). -/
def State.msixScan (s : State) : State :=
  s.raised.foldl (fun s v =>
    if s.hi.unarmed.contains v then s
    else ({ s with hi := { s.hi with unarmed := v :: s.hi.unarmed } }).msixEvent v) s.msixMoot

/-! ### The frame of every command -/

/-- The state with time moved on by `dt`, before a command acts. -/
def State.later (s : State) (dt : Nat) : State := { s with time := s.time.advance dt, timeReq := ⟨none, none⟩ }

/-- The end of a command: what it asked of the time group is taken, the queue of waiting commands is as it was, and raised vectors send. -/
def State.settle (s : State) (s0 : State) (t : Time) : State :=
  { s.msixScan with time := t.take s.timeReq, timeReq := ⟨none, none⟩, pending := s0.pending }

end Sys2Proof.Machine
end

