-- ==== Sys2Proof/Machine/Cells.lean ====
section
/-!
DEFINITION. The cell pool manager (chapter 9) and the fate of a frame's cells: allocation, the release walk, the checks, the error log, software's
cell commands, and the release of a frame when its last reference goes (R212).
-/
namespace Sys2Proof.Machine

/-! ### Pools (R246 to R250) -/

/-- The first segment and the number of segments of a pool. -/
def State.poolFirst (s : State) (n : Nat) : Nat := s.fld (Fld.CB_POOL_CFG_FIRST_SEG n)
def State.poolSegs (s : State) (n : Nat) : Nat := s.fld (Fld.CB_POOL_CFG_NSEGS n)

/-- The pool that holds a cell's segment, if one does (R246). -/
def State.poolOf (s : State) (c : Nat) : Option Nat :=
  firstIdx (fun n => decide (s.poolFirst n ≤ c / 1024 ∧ c / 1024 < s.poolFirst n + s.poolSegs n)) (List.range 64)

/-- Whether a bank is out of allocation (R249): under the bank test, failed, or reassigned by a MEM reload. -/
def State.bankOut (s : State) (b : Nat) : Bool :=
  bitOf (s.fld Fld.FB_TEST_FAIL_BANKS) b || bitOf s.fab.memMask b ||
  (match s.fab.testBank with
   | some (t, _, _) => decide (t = b)
   | none => false)

/-- The cells of a pool that lie in one bank: from the first to below the second number. -/
def State.poolBank (s : State) (n b : Nat) : Nat × Nat :=
  (max (s.poolFirst n * 1024) (b * 16384), min ((s.poolFirst n + s.poolSegs n) * 1024) ((b + 1) * 16384))

/-- The banks that a pool reaches into. -/
def State.poolBanks (s : State) (n : Nat) : List Nat :=
  (List.range 32).filter (fun b => decide ((s.poolBank n b).1 < (s.poolBank n b).2))

/-- Cells of a pool and bank that a test counts in a cell map. -/
def cellsWhere (m : SMap CellSt) (lo hi : Nat) (p : CellSt → Bool) : Nat :=
  (m.filter (fun e => decide (lo ≤ e.1 ∧ e.1 < hi) && p e.2)).length

/-- Whether a cell is not available in a CD23 cycle: USED, or released in that cycle or by a walk that completes later (R256, R258). -/
def CellSt.taken (x : CellSt) (cyc : Nat) : Bool :=
  x.used || (match x.freedAt with | some t => decide (cyc ≤ t) | none => false)

/-- FREE of a pool in a CD23 cycle with the cells as a map gives them: a released cell counts from the cycle after its release (R249, R256). -/
def State.freeIn (s : State) (m : SMap CellSt) (n cyc : Nat) : Nat :=
  ((s.poolBanks n).filter (fun b => !s.bankOut b)).foldl
    (fun k b => let r := s.poolBank n b
                k + ((r.2 - r.1) - cellsWhere m r.1 r.2 (fun c => c.taken cyc))) 0

/-- FREE of a pool (R249). -/
def State.poolFree (s : State) (n : Nat) : Nat := s.freeIn s.pool.cells n s.cyc23
/-- FREE of a pool at the start of the CD23 cycle (R203, R255). -/
def State.poolFreeSnap (s : State) (n : Nat) : Nat := s.freeIn s.pool.snap n s.cyc23

/-- The cells of one bank of a pool that may be granted in a cycle (R256). -/
def State.bankAvail (s : State) (n b cyc : Nat) : Nat :=
  let r := s.poolBank n b
  if s.bankOut b then 0 else (r.2 - r.1) - cellsWhere s.pool.cells r.1 r.2 (fun c => c.taken cyc)

/-- The cell's record. -/
def Pool.cell (pl : Pool) (c : Nat) : CellSt := SMap.get (fun _ => CellSt.reset) pl.cells c
def Pool.setCell (pl : Pool) (c : Nat) (x : CellSt) : Pool := { pl with cells := SMap.put (fun _ => CellSt.reset) pl.cells c x }
def State.cell (s : State) (c : Nat) : CellSt := s.pool.cell c
def State.setCell (s : State) (c : Nat) (x : CellSt) : State := { s with pool := s.pool.setCell c x }

/-- The lowest FREE at a cycle start since the last RESET of each pool, brought up to date for the pools touched (R266 `CB_POOL_WM`). -/
def State.minFree (s : State) (n : Nat) : Nat := (SMap.look s.pool.min n).getD (s.reg (Reg.CB_POOL_WM n)).toNat
/-- The lowest FREE of every pool touched in the CD23 cycle `before`, as it stands at the start of the next one. -/
def cycleMin (before : Nat) (s : State) : SMap Nat :=
  s.pool.dirty.foldl (fun m n => SMap.ins m n (min (s.minFree n) (s.freeIn s.pool.cells n (before + 1)))) s.pool.min
def Pool.touch (pl : Pool) (n : Nat) : Pool := if pl.dirty.contains n then pl else { pl with dirty := n :: pl.dirty }
def State.touchPool (s : State) (n : Nat) : State := { s with pool := s.pool.touch n }
/-- Banks leave allocation: FREE of every pool falls with them (R249, R266). -/
def State.touchPools (s : State) : State := (List.range 64).foldl (fun s n => s.touchPool n) s

/-- Cells with an owner in state USED (R253). -/
def State.ownerUsed (s : State) (o : Nat) : Nat :=
  (s.pool.cells.filter (fun e => e.2.used && decide (e.2.owner = o))).length

/-! ### Allocation (R250, R254 to R257) -/

/-- A never-used cell from a free starting point upward, around the range. -/
def scanFresh (m : SMap CellSt) (lo hi : Nat) : Nat → Nat → Option Nat
  | 0, _ => none
  | k + 1, c => if (SMap.look m c).isNone then some c else scanFresh m lo hi k (if c + 1 < hi then c + 1 else lo)

/-- The cell that a bank of a pool gives: the most recently freed one first; among cells never used the spec leaves the choice open (R250). -/
def State.pickCell (s : State) (n b cyc : Nat) : Option Nat :=
  let r := s.poolBank n b
  match s.pool.freed.find? (fun c => decide (r.1 ≤ c ∧ c < r.2) && !(s.cell c).taken cyc) with
  | some c => some c
  | none => scanFresh s.pool.cells r.1 r.2 (r.2 - r.1) (r.1 + s.freeVal % (r.2 - r.1))

/-- The banks of a pool in rotation, from the one after the last that gave a cell (R250). -/
def State.rotation (s : State) (n : Nat) : List Nat :=
  let bs := s.poolBanks n
  let last := SMap.get (fun _ => 31) s.pool.ptr n
  bs.filter (fun b => decide (last < b)) ++ bs.filter (fun b => decide (b ≤ last))

/-- A bank in retention wakes when one of its cells is allocated (R474, R249). -/
def State.wakeBank (s : State) (b : Nat) : State :=
  let w := s.fld Fld.PW_BANK_RET_BANKS
  if bitOf w b then
    { (s.setF Fld.PW_BANK_RET_BANKS (w - 2 ^ b)).count 0x2770010 1 with pw := { s.pw with bankAt := SMap.ins s.pw.bankAt b s.now } }
  else s

/-! ### Packet lane 1 (R474) -/

/-- Whether packet lane 1 of a pipeline sleeps. -/
def State.laneOff (s : State) (i : Nat) : Bool := bitOf (s.fld Fld.PW_STATUS_LANE1_OFF) i
/-- A packet lane of a pipeline carries a frame; when lane 1 last did is kept. -/
def State.laneUse (s : State) (i lane : Nat) : State :=
  if lane = 1 then { s with pw := { s.pw with laneAt := SMap.ins s.pw.laneAt i s.now } } else s
/-- Whether an egress pipeline can take a frame in this cycle: the second one of a cycle rides in lane 1 (as R203 has it at stage 6), which may sleep
(notes/assumptions/29.md). -/
def State.egressFree (s : State) (e : Nat) : Bool := !(s.laneOff e) || decide (SMap.look s.pw.egCyc e ≠ some s.cyc23)
/-- An egress pipeline takes a frame. -/
def State.egressUse (s : State) (e : Nat) : State :=
  let s1 := if SMap.look s.pw.egCyc e = some s.cyc23 then s.laneUse e 1 else s
  { s1 with pw := { s1.pw with egCyc := SMap.ins s1.pw.egCyc e s1.cyc23 } }

/-- A refusal's effects (R257). -/
def State.allocFail (s : State) (n : Nat) : State :=
  ((s.count (Ctr.pool n 0x08) 1).orF (Fld.CB_POOL_EMPTY_POOLS (n / 32)) (2 ^ (n % 32))).raise Fld.CB_PM_INT_STATUS_POOL_EMPTY

/-- The slots of requesters beside those of the pipelines (R255). -/
def slotHost : Nat := 8
def slotAnvil : Nat := 9
def slotSw : Nat := 10

/-- The place of a slot in the order of a CD23 cycle: the order starts at slot P, which is 0 as CD23 leaves reset and moves on by one every cycle (R255). -/
def State.slotRank (s : State) (cyc slot : Nat) : Nat := (slot + 11 - (cyc - s.isl.upAt / 50) % 11) % 11
/-- The CD23 cycle and the place in its order in which the next thing is served that has a place in each cycle's order, after the last that was: the present
cycle, or, where its place there has passed, the cycle after (R255, R260; notes/assumptions/43.md). -/
def State.orderIn (s : State) (last : Nat × Nat) (rank : Nat → Nat) : Nat × Nat :=
  let c := max s.cyc23 last.1
  if last.1 = c ∧ rank c < last.2 then (c + 1, rank (c + 1)) else (c, rank c)
/-- The CD23 cycle and the place in its order in which a request of a slot is served. -/
def State.askTurn (s : State) (n slot : Nat) : Nat × Nat :=
  s.orderIn ((SMap.look s.pool.asked n).getD (0, 0)) (fun c => s.slotRank c slot)

/-- A request for one cell of a pool for an owner, by the requester of a slot: granted at once, or refused at once (R254, R255). -/
def State.alloc (s0 : State) (n owner slot : Nat) : Option Nat × State :=
  let turn := s0.askTurn n slot
  let s := { s0 with pool := { s0.pool with asked := SMap.ins s0.pool.asked n turn } }
  match (s.rotation n).find? (fun b => decide (0 < s.bankAvail n b turn.1)) with
  | none => (none, s.allocFail n)
  | some b =>
    match s.pickCell n b turn.1 with
    | none => (none, s.allocFail n)
    | some c =>
      let s1 := ((s.drawn.setCell c ⟨true, owner, 0, none⟩).touchPool n).wakeBank b
      (some c, ({ s1 with pool := { s1.pool with freed := s1.pool.freed.filter (fun x => decide (x ≠ c)),
                                                 ptr := SMap.ins s1.pool.ptr n b } }).count (Ctr.pool n 0) 1)

/-- The cell is chained behind the last of a frame's cells (R192). -/
def State.chain (s : State) (cells : List Nat) (c : Nat) : State :=
  match cells.getLast? with
  | none => s
  | some l => s.setCell l { s.cell l with link := c }

/-! ### Release (R256, R258 to R262) -/

/-- A release counts, or raises bits of `CB_PM_INT_STATUS`. -/
def Pool.tally (pl : Pool) (a : Nat) : Pool := { pl with cnts := SMap.ins pl.cnts a (SMap.get (fun _ => 0) pl.cnts a + 1) }
def Pool.rouse (pl : Pool) (f : Fld) : Pool := { pl with ints := pl.ints ||| 2 ^ f.lo }

/-- The instant in a CD23 cycle, not after now, at which its checks are timed. -/
def State.cycEnd (s : State) (cyc : Nat) : Nat := min s.now (50 * cyc + 49)

/-- A release error in a CD23 cycle: the counters, the log of 16 records and the interrupt (R261, R262). `foreign` tells FOREIGN_FREE from DOUBLE_FREE. -/
def State.releaseErr (s : State) (foreign : Bool) (claim first cyc c freed : Nat) (pl : Pool) : Pool :=
  let p := s.poolOf c
  let pl1 := if foreign then (pl.tally 0x2500808).rouse Fld.CB_PM_INT_STATUS_FOREIGN_FREE
             else (pl.tally 0x2500800).rouse Fld.CB_PM_INT_STATUS_DOUBLE_FREE
  let pl2 := match p with
             | some n => pl1.tally (Ctr.pool n 0x18)
             | none => pl1
  if pl2.log.length < 16 then
    let holder := if p.isSome then (pl.cell c).owner else 0x3F
    let ns := s.nsAt (s.cycEnd cyc)
    let rec_ : List Word :=
      [w32 (2 ^ 31 + b2n foreign * 2 ^ 30 + claim * 2 ^ 24 + c),
       w32 (holder * 2 ^ 24 + b2n p.isNone * 2 ^ 22 + p.getD 0 * 2 ^ 16 + freed),
       w32 first, w32 (ns % 1000000000), w32 (ns / 1000000000)]
    { pl2 with log := pl2.log ++ [rec_] }
  else (pl2.tally 0x2500810).rouse Fld.CB_PM_INT_STATUS_LOG_LOST

/-- One cell becomes FREE in a release that completes in the cycle `fin`; its owner field stays (R251, R256). -/
def State.freeCell (s : State) (c fin : Nat) (pl : Pool) : Pool :=
  let pl1 := pl.setCell c { pl.cell c with used := false, freedAt := some fin }
  let pl2 := { pl1 with freed := c :: pl1.freed }
  match s.poolOf c with
  | some n => (pl2.touch n).tally (Ctr.pool n 0x10)
  | none => pl2

/-- Whether a cell that was FREE at the start of the present CD23 cycle has been granted in it to another owner: a release in that cycle finds it FREE. -/
def State.grantedNow (s : State) (claim cyc c : Nat) (pl : Pool) : Bool :=
  decide (cyc = s.cyc23) && !(SMap.get (fun _ => CellSt.reset) pl.snap c).used && decide ((pl.cell c).owner ≠ claim)

/-- Checks of the walk of a release in a CD23 cycle, up to the first that fails: the next cell, if none fails (R258). -/
def State.walk (s : State) (claim first fin cyc : Nat) : Nat → Nat → Nat → Pool → Option Nat × Pool
  | 0, c, _, pl => (some c, pl)
  | k + 1, c, done, pl =>
    let x := pl.cell c
    if x.used = false ∨ (s.poolOf c).isNone ∨ s.grantedNow claim cyc c pl = true then (none, s.releaseErr false claim first cyc c done pl)
    else if x.owner ≠ claim then (none, s.releaseErr true claim first cyc c done pl)
    else s.walk claim first fin cyc k x.link (done + 1) (s.freeCell c fin pl)

/-- The cycle in which a release of `n` cells completes that begins in a cycle: 8 cells are checked in each (R258). -/
def walkEnd (began n : Nat) : Nat := began + (n + 7) / 8 - 1
def Walk.ends (w : Walk) : Nat := walkEnd w.began w.n
/-- The cycle in which a walk makes its next checks. -/
def Walk.next (w : Walk) : Nat := w.began + w.done / 8

/-- The checks of one walk in a cycle: the walk as it goes on, if it does. -/
def State.walkOne (s : State) (cyc : Nat) (w : Walk) (pl : Pool) : Option Walk × Pool :=
  match s.walk w.claim w.first w.ends cyc (min 8 (w.n - w.done)) w.cell w.done pl with
  | (none, pl1) => (none, pl1)
  | (some c, pl1) => (if w.done + 8 < w.n then some { w with cell := c, done := w.done + 8 } else none, pl1)
/-- The checks of every walk that is due in a cycle, in the order in which the walks began (R260). -/
def State.walkAll (s : State) (cyc : Nat) : List Walk → Pool → Pool
  | [], pl => pl
  | w :: t, pl =>
    if w.next = cyc then
      let r := s.walkOne cyc w pl
      s.walkAll cyc t { r.2 with walks := r.2.walks ++ r.1.toList }
    else s.walkAll cyc t { pl with walks := pl.walks ++ [w] }
def State.walkCycle (s : State) (pl : Pool) (cyc : Nat) : Pool := s.walkAll cyc pl.walks { pl with walks := [] }

/-- The walks' checks in every cycle from the first that is due to below `cyc`. -/
def State.walkTo (s : State) (cyc : Nat) (pl : Pool) : Pool :=
  let lo := pl.walks.foldl (fun m w => min m w.next) cyc
  let hi := pl.walks.foldl (fun m w => max m (max w.next w.ends + 1)) 0
  (List.range (min cyc hi - lo)).foldl (fun pl k => s.walkCycle pl (lo + k)) pl

/-- The places of releases in the order of a CD23 cycle (R260): reference counts, stage-2 discards by pipeline, the host interface (and Anvil, which the
rule does not name; notes/assumptions/43.md), software. -/
def relRef : Nat := 0
def relStage2 (pipe : Nat) : Nat := 1 + pipe
def relHost : Nat := 9
def relSw : Nat := 10

/-- The cycle in which a release begins, with its place in that cycle's order. -/
def State.relTurn (s : State) (rank : Nat) : Nat × Nat := s.orderIn s.pool.relAt (fun _ => rank)

/-- A release of `n` cells from a first cell with a claimed owner, and its place in its cycle's order: it begins to walk its chain, behind the releases
that began before it. Its first checks are made at once where its cycle is the present one. -/
def State.release (s : State) (rank claim first n : Nat) : State :=
  let t := s.relTurn rank
  { s with pool := s.walkTo (s.cyc23 + 1) { s.pool with walks := s.pool.walks ++ [⟨claim, first, n, t.1, first, 0⟩], relAt := t } }

/-- The cycle of a release of software, which tells its result at once, and the pool with the checks before it made. -/
def State.relSoft (s : State) : Nat × Pool :=
  let t := s.relTurn relSw
  (t.1, s.walkTo (t.1 + 1) { s.pool with relAt := t })

/-- All of a list of cells, chained, go back with a claim (R259). -/
def State.releaseCells (s : State) (rank claim : Nat) (cells : List Nat) : State :=
  match cells with
  | [] => s
  | c :: _ => s.release rank claim c cells.length

/-- A frame gives back its cells and its descriptor (R196, R212). -/
def State.freeFrame (s : State) (f : Nat) : State :=
  match s.frame? f with
  | none => s
  | some x => (s.releaseCells relRef x.owner x.cells).dropFrame f

/-! ### Software's cell commands (R265, R520) -/

/-- The result registers show a cell. -/
def State.showCell (s : State) (c : Nat) : State :=
  let x := s.cell c
  let p := s.poolOf c
  let st := if p.isNone then 0 else b2n x.used
  let ow := if p.isNone then 0x3F else x.owner
  (s.setReg Reg.CB_CELL_RES (w32 (st * 2 ^ 31 + ow * 2 ^ 25 + p.getD 0 * 2 ^ 19 + c))).setReg Reg.CB_CELL_LINK
    (w32 (b2n p.isNone * 2 ^ 31 + x.link))

/-- The command register as a write of GO leaves it, with its operands taken and the command under way (R520). -/
def State.cellStart (s : State) (op pool c : Nat) : State :=
  ((((s.setF Fld.CB_CELL_CMD_OP op).setF Fld.CB_CELL_CMD_POOL pool).setF Fld.CB_CELL_CMD_CELL c).setF Fld.CB_CELL_CMD_ERR 0).startGo Reg.CB_CELL_CMD
    (100 * tNs)
/-- A write of GO: OVERRUN alone while a command is under way (R520). -/
def State.cellOp (s : State) (op pool c : Nat) (go : State → State) : State :=
  if s.busy Reg.CB_CELL_CMD then s.setF Fld.CB_CELL_CMD_OVERRUN 1 else go (s.cellStart op pool c)

/-- QUERY: the cell is shown and nothing changes. -/
def State.cellQuery (s : State) (op pool c : Nat) : State := s.cellOp op pool c (fun s => s.showCell c)

/-- ALLOC: one cell of a pool for software, owner 0x3E. -/
def State.cellAlloc (s : State) (pool c : Nat) : State :=
  s.cellOp 1 pool c (fun s =>
    match s.alloc pool 0x3E slotSw with
    | (some x, s1) => s1.showCell x
    | (none, s1) => ((s1.setF Fld.CB_CELL_CMD_ERR 1).setReg Reg.CB_CELL_RES 0).setReg Reg.CB_CELL_LINK 0)

/-- FREE: a release of one cell with claim 0x3E. -/
def State.cellFree (s : State) (pool c : Nat) : State :=
  s.cellOp 2 pool c (fun s =>
    let r := s.relSoft
    match s.walk 0x3E c r.1 r.1 1 c 0 r.2 with
    | (some _, pl) => ({ s with pool := pl }).showCell c
    | (none, pl) => (({ s with pool := pl }).setF Fld.CB_CELL_CMD_ERR 1).showCell c)

/-- RECLAIM: a USED cell is freed whatever its owner. -/
def State.cellReclaim (s : State) (pool c : Nat) : State :=
  s.cellOp 3 pool c (fun s =>
    let r := s.relSoft
    if (r.2.cell c).used ∧ (s.poolOf c).isSome ∧ s.grantedNow 0x3E r.1 c r.2 = false then
      (({ s with pool := s.freeCell c r.1 r.2 }).count 0x2500818 1).showCell c
    else (({ s with pool := r.2 }).setF Fld.CB_CELL_CMD_ERR 1).showCell c)

/-- A write of 1 to GO of `CB_CELL_CMD`: the operation that OP names; other codes act as QUERY. -/
def State.cellGo (s : State) (op pool c : Nat) : State :=
  if op = 1 then s.cellAlloc pool c else if op = 2 then s.cellFree pool c else if op = 3 then s.cellReclaim pool c
  else s.cellQuery op pool c

/-- MIN_FREE of a pool is set to its FREE (R266). -/
def State.wmReset (s : State) (n : Nat) : State :=
  { s with pool := { s.pool with min := SMap.ins s.pool.min n (s.poolFree n) } }

/-- The oldest record of the error log is discarded (R262). -/
def State.errPop (s : State) : State := { s with pool := { s.pool with log := s.pool.log.drop 1 } }

/-! ### The frame every command runs in -/

/-- What a new CD23 cycle brings: the releases under way have walked on up to it (R258), queue lengths and cells are sampled for the cycle (R203), the
lowest FREE of every pool touched in the cycle `before` is kept, and the releases make their checks of this cycle, which come first in it (R260). -/
def State.newCycle (s : State) (before : Nat) : State :=
  let pl := s.walkTo s.cyc23 { s.pool with min := cycleMin before s, dirty := [] }
  { s with fab := { s.fab with snapLen := s.fab.qlen, snapOwn := [] }, pool := s.walkTo (s.cyc23 + 1) { pl with snap := pl.cells } }

/-- The state in which a command acts: time has moved on by `dt`, with a new CD23 cycle where one has begun. -/
def State.begun (s : State) (dt : Nat) : State :=
  if (s.later dt).cyc23 = s.cyc23 then s.later dt else (s.later dt).newCycle s.cyc23

/-- A command: time moves on, the command acts, and the end of R366, R297 and R298 is taken. -/
def State.run (s : State) (dt : Nat) (f : State → State) : State := (f (s.begun dt)).settle s (s.begun dt).time

/-- What a command answers: the next state, or the refusal of operands that name what the device does not have. -/
def State.cmd (s : State) (ok : Bool) (dt : Nat) (f : State → State) : Host.Outcome State Fault Refusal :=
  if ok then .next (s.run dt f) else .refused .illFormed

end Sys2Proof.Machine
end

