-- ==== Sys2Proof/Machine/Crc.lean ====
section
/-!
DEFINITION. The frame check sequence of IEEE 802.3 (the standard that R49 rests on, notes/assumptions/6.md), checksums of IP, and byte edits of frames.
-/
namespace Sys2Proof.Machine

/-- One bit of the reflected CRC-32. -/
def crc32Bit (c : Nat) : Nat := if c % 2 = 1 then (c / 2) ^^^ 0xEDB88320 else c / 2
def crc32Byte (c : Nat) (b : Byte) : Nat :=
  crc32Bit (crc32Bit (crc32Bit (crc32Bit (crc32Bit (crc32Bit (crc32Bit (crc32Bit (c ^^^ b.toNat))))))))

/-- The FCS of a byte string, in the order its bytes are sent. -/
def fcsOf (bs : List Byte) : List Byte := leBytes 4 ((bs.foldl crc32Byte 0xFFFFFFFF) ^^^ 0xFFFFFFFF)

/-- A frame without its FCS. -/
def noFcs (bs : List Byte) : List Byte := bs.take (bs.length - 4)
/-- A frame with the FCS made anew. -/
def withFcs (body : List Byte) : List Byte := body ++ fcsOf body
/-- Whether a frame's last four bytes are the FCS of the rest. -/
def fcsGood (bs : List Byte) : Bool := decide (4 ≤ bs.length) && decide (bs.drop (bs.length - 4) = fcsOf (noFcs bs))

/-- CRC-16 over the bytes, most significant bit first (R66: the polynomial and the initial value are given there). -/
def crc16Bit (poly c : Nat) : Nat := if bitOf c 15 then ((c * 2) % 65536) ^^^ poly else (c * 2) % 65536
def crc16Byte (poly c : Nat) (b : Byte) : Nat :=
  let x := c ^^^ (b.toNat * 256)
  crc16Bit poly (crc16Bit poly (crc16Bit poly (crc16Bit poly (crc16Bit poly (crc16Bit poly (crc16Bit poly (crc16Bit poly x)))))))
def crc16With (poly init : Nat) (bs : List Byte) : Nat := bs.foldl (crc16Byte poly) init

/-- A 16-bit and a 32-bit number of a frame, most significant byte first; bytes beyond the end count as 0. -/
def u8 (bs : List Byte) (o : Nat) : Nat := (bs.getD o 0).toNat
def u16 (bs : List Byte) (o : Nat) : Nat := u8 bs o * 256 + u8 bs (o + 1)
def u32 (bs : List Byte) (o : Nat) : Nat := u16 bs o * 65536 + u16 bs (o + 2)

/-- The ones-complement sum of IP checksums. -/
def onesAdd (a b : Nat) : Nat := let t := a + b; t % 65536 + t / 65536
/-- A checksum field after a 16-bit word it covers has changed (RFC 1624 form). -/
def cksumUpdate (c old new : Nat) : Nat :=
  65535 - onesAdd (onesAdd (65535 - c) (65535 - old)) new

end Sys2Proof.Machine
end

