-- ==== Sys2Proof/Machine/Hallmark.lean ====
section
/-!
DEFINITION. Hallmark time (chapter 11): steps of the counter, the servo, timestamps, the pins PPS, ToD and EVT, and the gate calendars. The counter itself
and the active addend lie in `Time`; a command changes them through `timeReq` only.
-/
namespace Sys2Proof.Machine

/-! ### Servo states (R303) -/

def svFree : Nat := 0
def svAcquire : Nat := 1
def svLocked : Nat := 2
def svHoldover : Nat := 3

def State.servo (s : State) : Nat := s.fld Fld.HM_SERVO_STATUS_STATE
def State.servoOn (s : State) : Bool := s.bit Fld.HM_SERVO_CTRL_EN
/-- The CD01 tick that the present instant lies in. -/
def State.tick (s : State) : Nat := s.now / 240

/-- PPS_OUT takes a level; an edge leaves the device. -/
def State.ppsSet (s : State) (high : Bool) : State :=
  if s.hm.ppsHigh = high then s else ({ s with hm := { s.hm with ppsHigh := high } }).emit (.pps high)

/-- PPS_OUT stays low while the servo is in FREERUN or ACQUIRE and `OUT_QUAL` is 1, and while `OUT_EN` is 0 (R312). -/
def State.ppsQuiet (s : State) : Bool :=
  !(s.bit Fld.HM_PPS_CTRL_OUT_EN) || (s.bit Fld.HM_PPS_CTRL_OUT_QUAL && (decide (s.servo = svFree) || decide (s.servo = svAcquire)))
def State.ppsFollow (s : State) : State := if s.ppsQuiet then s.ppsSet false else s

/-- The servo enters a state; a change raises `STATE_CHG` (R303). -/
def State.toServo (s : State) (st : Nat) : State :=
  if s.servo = st then s
  else ((s.setF Fld.HM_SERVO_STATUS_STATE st).raise Fld.HM_INT_STATUS_STATE_CHG).ppsFollow

/-- The counter's value a time `d` from now by its present rate, in units of 2^-16 ns: the value of the last tick and what has passed since (R305: timestamps
resolve a part of a tick). -/
def State.hmRel (s : State) (d : Int) : Int :=
  ((s.time.raw : Int) * 60 + (((s.now % 240 : Nat) : Int) + d) * (2 ^ 40 + s.time.addend)).fdiv (60 * 2 ^ 24)
/-- The addend in force at an instant that is past: what `hmPast` finds the counter by. -/
def addendPast : List (Nat × Nat × Int) → Int → Nat → Int
  | [], a, _ => a
  | e :: l, a, t => if e.1 ≤ t then a else addendPast l e.2.2 t
/-- The counter's value a time `d` before now, by the steps and the rates of the time since then, in units of 2^-16 ns (R305). -/
def State.hmAgo (s : State) (d : Nat) : Int :=
  let t := s.now - d
  ((s.time.rawAt t : Int) * 60 + ((t % 240 : Nat) : Int) * (2 ^ 40 + addendPast s.time.past s.time.addend t)).fdiv (60 * 2 ^ 24)

/-- The second whose PPS instant, put off by `d` ns, the counter has reached at a time in whole nanoseconds. -/
def State.ppsIndexAt (s : State) (ns d : Int) : Int := (ns - signed 32 (s.reg Reg.HM_PPS_OUT_OFS).toNat - d).fdiv 1000000000
def State.ppsIndex (s : State) (d : Int) : Int := s.ppsIndexAt (s.hmNs : Int) d
/-- The instants of PPS_OUT and of TOD_TX up to a time have gone by: an edge or a message comes of an instant only as the counter reaches it (R312, R313). -/
def State.ppsPassed (s : State) (ns : Int) : State := { s with hm := { s.hm with ppsSec := some (s.ppsIndexAt ns 0) } }
def State.todPassed (s : State) (ns : Int) : State := { s with hm := { s.hm with todSec := some (s.ppsIndexAt ns 10000000) } }

/-! ### Gate calendars (R319 to R321) -/

def State.gate (s : State) (q : Nat) : Gate := SMap.get (fun _ => Gate.reset) s.hm.gates q
def State.setGate (s : State) (q : Nat) (g : Gate) : State :=
  { s with hm := { s.hm with gates := SMap.put (fun _ => Gate.reset) s.hm.gates q g } }

/-- A value outside its limits acts as the nearer limit. -/
def clampNat (lo hi v : Nat) : Nat := max lo (min hi v)

/-- The calendar that a port's active registers give. -/
def State.gateActive (s : State) (q : Nat) : Calendar :=
  ⟨s.abit (Fld.HM_GATE_CTRL_EN q), s.abit (Fld.HM_GATE_CTRL_GUARD q), clampNat 1000 1000000000 (s.afld (Fld.HM_GATE_CYCLE_CYCLE q)),
   timeOfWords (s.actReg (Reg.HM_GATE_BASE0 q)) (s.actReg (Reg.HM_GATE_BASE1 q)) (s.actReg (Reg.HM_GATE_BASE2 q)),
   (List.range (clampNat 1 64 (s.afld (Fld.HM_GATE_CTRL_NENT q)))).map (fun e =>
     let w := (s.actReg (Reg.HM_GATE_ENT (64 * q + e))).toNat
     (w % 2 ^ 24, w / 2 ^ 24))⟩

/-- The windows of one cycle: start and end in units of 2^-16 ns and the mask, cut at the cycle's end; the last lasts to it. -/
def cycleWindows (cycle : Nat) : Nat → List (Nat × Nat) → List (Nat × Nat × Nat)
  | _, [] => []
  | at_, [e] => if at_ < cycle then [(at_, cycle, e.2)] else []
  | at_, e :: t =>
    if at_ < cycle then (at_, min cycle (at_ + e.1 * 65536), e.2) :: cycleWindows cycle (at_ + e.1 * 65536) t else []
def Calendar.windows (c : Calendar) : List (Nat × Nat × Nat) :=
  (cycleWindows (c.cycle * 65536) 0 c.ents).filter (fun w => decide (w.1 < w.2.1))

/-- Where a time lies in its cycle: cycles start at BASE + n × CYCLE for every integer n. -/
def Calendar.phase (c : Calendar) (t : Nat) : Nat := (((t : Int) - (c.base : Int)) % ((c.cycle * 65536 : Nat) : Int)).toNat
/-- The mask in force at a time; every gate is open while the calendar is not enabled. -/
def Calendar.mask (c : Calendar) (t : Nat) : Nat :=
  if c.en then
    match (c.windows).find? (fun w => decide (w.1 ≤ c.phase t ∧ c.phase t < w.2.1)) with
    | some w => w.2.2
    | none => 0xFF
  else 0xFF

/-- The time that windows in sequence stay open for a class, up to the first that is closed; the flag says that one was. -/
def runOpen (cls : Nat) : List (Nat × Nat × Nat) → Nat × Bool
  | [] => (0, false)
  | w :: t => if bitOf w.2.2 cls then let r := runOpen cls t; (r.1 + (w.2.1 - w.1), r.2) else (0, true)

/-- How long from a time a class's gate stays open; `none` if it never closes. -/
def Calendar.openFor (c : Calendar) (cls t : Nat) : Option Nat :=
  if c.en then
    let ph := c.phase t
    let now_ := (c.windows.filter (fun w => decide (ph < w.2.1))).map (fun w => (max w.1 ph, w.2.1, w.2.2))
    let r := runOpen cls (now_ ++ c.windows)
    if r.2 then some r.1 else none
  else none

/-- The longest window that a calendar opens for a class; `none` if it never closes. -/
def Calendar.longest (c : Calendar) (cls : Nat) : Option Nat :=
  if c.en then
    let ws := c.windows
    if ws.all (fun w => bitOf w.2.2 cls) then none
    else some ((List.range ws.length).foldl (fun m i => max m (runOpen cls (ws.drop i ++ ws)).1) 0)
  else none

/-- The calendar in force at the present time: the waiting one from its first cycle start on (R321). -/
def State.calendar (s : State) (q : Nat) : Calendar :=
  let g := s.gate q
  match g.next with
  | some c => if g.nextAt ≤ s.hm16 then c else g.cur
  | none => g.cur

/-- The gates of a port that are open now. -/
def State.gateMask (s : State) (q : Nat) : Nat := (s.calendar q).mask s.hm16

/-- How long a class's gate stays open from now, a waiting calendar taken into account. -/
def State.gateOpenFor (s : State) (q cls : Nat) : Option Nat :=
  let g := s.gate q
  let t := s.hm16
  match g.next with
  | some c =>
    if g.nextAt ≤ t then c.openFor cls t
    else
      match g.cur.openFor cls t with
      | some d => if t + d < g.nextAt then some d
                  else (match c.openFor cls g.nextAt with
                        | some d2 => some (g.nextAt - t + d2)
                        | none => none)
      | none => match c.openFor cls g.nextAt with
                | some d2 => some (g.nextAt - t + d2)
                | none => none
  | none => g.cur.openFor cls t

/-- A waiting calendar whose start has come is in force for good. -/
def State.gateSettle (s : State) (q : Nat) : State :=
  let g := s.gate q
  match g.next with
  | some c => if g.nextAt ≤ s.hm16 then s.setGate q ⟨c, none, 0⟩ else s
  | none => s
def State.gateSettleAll (s : State) : State :=
  (s.hm.gates.map (fun e => e.1)).foldl (fun s q => s.gateSettle q) s

/-- The first instant at or after a time of the form BASE + n × CYCLE with n not negative. -/
def Calendar.firstStart (c : Calendar) (t : Nat) : Nat :=
  if t ≤ c.base then c.base
  else c.base + (t - c.base + c.cycle * 65536 - 1) / (c.cycle * 65536) * (c.cycle * 65536)

/-- The commit of a port's gate registers (R321). -/
def State.gateCommit (s0 : State) (q : Nat) : State :=
  let s := s0.gateSettle q
  let g := s.gate q
  let c := s.gateActive q
  let last := match g.next with | some x => x | none => g.cur
  if c = last ∨ (c.en = false ∧ last.en = false) then s
  else if c.en then s.setGate q ⟨g.cur, some c, c.firstStart s.hm16⟩
  else s.setGate q ⟨Calendar.off, none, 0⟩

/-! ### Steps (R298, R299) -/

/-- What a step of the counter by `d` means for PPS and ToD: back before an instant, the counter reaches it again (R312); past one, it has reached it. -/
def State.stepPins (s : State) (d : Int) : State :=
  if d < 0 then
    let ns := (((s.time.raw : Int) + d) % (hmMod : Int)).fdiv (2 ^ 40)
    (s.ppsPassed ns).todPassed ns
  else s
/-- A step asks the time group for a change, counts, and returns a servo that is not in FREERUN to ACQUIRE. -/
def State.stepBy (s : State) (d : Int) : State :=
  let s1 := { s.gateSettleAll.stepPins d with timeReq := { s.timeReq with step := some d } }
  let s2 := (s1.count (Ctr.hm 0) 1).raise Fld.HM_INT_STATUS_STEP
  if s2.servo = svFree then s2
  else
    let s3 := if s2.servo = svHoldover then { s2 with hm := { s2.hm with lastAt := none, sampleAt := s2.now } } else s2
    ({ s3 with hm := { s3.hm with srun := 0 } }).toServo svAcquire

/-- A software step; a servo step of the same tick is discarded, and the servo's next sample starts a new interval (R299). -/
def State.softStep (s : State) (d : Int) : State :=
  if s.hm.svTick = s.tick + 1 then
    let s1 := { s with hm := { s.hm with lastAt := none, svTick := 0, swTick := s.tick + 1 },
                       timeReq := { s.timeReq with step := some (d - s.hm.svDelta) } }
    if s1.servo = svFree then s1 else ({ s1 with hm := { s1.hm with srun := 0 } }).toServo svAcquire
  else ({ s with hm := { s.hm with swTick := s.tick + 1 } }).stepBy d

/-- The value of `HM_SET` in units of 2^-40 ns. -/
def State.hmSetValue (s : State) : Nat := s.timeAt Reg.HM_SET0 * 2 ^ 24

/-- A write of 1 to `HM_SET_CTRL.GO` (R298): SET loads `HM_SET` (the 24 bits that are not visible are a free value), ADD and SUB move the
counter by it; a write while GO is 1 sets `OVERRUN` alone. -/
def State.hmSetGo (s : State) (op : Nat) : State :=
  if s.busy Reg.HM_SET_CTRL then s.setF Fld.HM_SET_CTRL_OVERRUN 1
  else
    let s1 := (s.setF Fld.HM_SET_CTRL_OP op).startGo Reg.HM_SET_CTRL (20 * tNs)
    let v : Int := (s1.hmSetValue : Nat)
    if op = 1 then s1.softStep v
    else if op = 2 then s1.softStep (-v)
    else
      let late := if s1.hm.svTick = s1.tick + 1 then s1.hm.svDelta else 0
      s1.drawn.softStep (v + ((s1.freeVal % 2 ^ 24 : Nat) : Int) - (s1.time.raw : Int) + late)

/-- `HM_SET` as three words. -/
def State.putHmSet (s : State) (sec ns frac : Nat) : State :=
  ((s.setReg Reg.HM_SET0 (w32 (ns % 2 ^ 30))).setReg Reg.HM_SET1 (w32 sec)).setReg Reg.HM_SET2
    (w32 (frac % 2 ^ 16 * 2 ^ 16 + sec / 2 ^ 32 % 2 ^ 16))

/-! ### The addend (R296, R297) -/

/-- `HM_ADDEND` as a signed value. -/
def State.addendReg (s : State) : Int :=
  signed 40 ((s.reg Reg.HM_ADDEND1).toNat % 256 * 2 ^ 32 + (s.reg Reg.HM_ADDEND0).toNat)
/-- A new active addend; the time group clamps it. -/
def State.askAddend (s : State) (a : Int) : State := { s.jnRipe with timeReq := { s.timeReq with addend := some a } }
/-- `HM_ADDEND` has been written up to its high word: it takes effect while the servo is in FREERUN. -/
def State.addendTake (s : State) : State := if s.servo = svFree then s.askAddend s.addendReg else s

/-! ### The servo (R301 to R304) -/

def State.servoSrc (s : State) : Nat :=
  let v := s.fld Fld.HM_SERVO_CTRL_SRC
  if v = 1 ∨ v = 2 then v else 0

/-- EN goes from 0 to 1. -/
def State.servoEnable (s : State) : State :=
  if s.servo = svFree then
    ({ s with hm := { s.hm with integ := s.addendReg, srun := 0, lastAt := none, sampleAt := s.now, crfVals := [] } }).toServo svAcquire
  else s
/-- EN goes from 1 to 0. -/
def State.servoDisable (s : State) : State :=
  if s.servo = svFree then s else (s.askAddend s.addendReg).toServo svFree
/-- A is set to I and held (R303). -/
def State.servoHold (s : State) : State :=
  if s.servo = svAcquire ∨ s.servo = svLocked then (s.askAddend s.hm.integ).toServo svHoldover else s
/-- `SRC` or `CRF_PORT` has been written: the values collected for a CRF sample are of another source. -/
def State.servoSrcTouched (s : State) : State :=
  ({ s with hm := { s.hm with crfVals := [] } }).servoHold

/-- TIMEOUT in the model's units of time; 0 acts as 1. -/
def State.servoTimeout (s : State) : Nat := max (s.fld Fld.HM_SERVO_THR_TIMEOUT) 1 * 100 * tMs
/-- `HM_SERVO_STATUS.SRC_VALID`. -/
def State.srcValid (s : State) : Bool :=
  match s.hm.seenAt with
  | some t => decide (s.now ≤ t + s.servoTimeout)
  | none => false

/-- An integer that a free value names: every integer is one. -/
def freeInt (n : Nat) : Int := if n % 2 = 0 then ((n / 2 : Nat) : Int) else -((n / 2 : Nat) : Int) - 1

/-- The update of R301 with offset θ (units of 2^-16 ns) after T ns: I, then A, each clamped. For T = 0 the spec gives no e. -/
def State.servoUpdate (s : State) (theta : Int) (tns : Nat) : State :=
  let e := if tns = 0 then freeInt s.freeVal else (theta * 2 ^ 24).fdiv ((tns : Nat) : Int)
  let i := clampAddend (s.hm.integ - e.fdiv (2 ^ s.fld Fld.HM_SERVO_CTRL_KI))
  let a := clampAddend (i - e.fdiv (2 ^ s.fld Fld.HM_SERVO_CTRL_KP))
  ({ s.drawn with hm := { s.hm with integ := i } }).askAddend a

/-- One offset sample (R301 to R303). -/
def State.servoSample (s0 : State) (theta : Int) : State :=
  let last := s0.hm.lastAt
  let s := { (s0.setReg Reg.HM_LAST_OFFSET0 (w32 (unsign 32 (theta.fdiv 65536)))).setReg Reg.HM_LAST_OFFSET1 (w32 (unsign 16 theta)) with
             hm := { s0.hm with lastAt := some s0.tick, sampleAt := s0.now, seenAt := some s0.now } }
  let mag := theta.natAbs
  let thr := s.fld Fld.HM_STEP_NS_STEP_NS
  let lock := s.fld Fld.HM_SERVO_THR_LOCK * 65536
  let unlock := s.fld Fld.HM_SERVO_THR_UNLOCK * 8 * 65536
  if s.bit Fld.HM_SERVO_CTRL_STEP_EN ∧ 0 < thr ∧ thr * 65536 < mag then
    if s.hm.swTick = s.tick + 1 then { s with hm := { s.hm with lastAt := none } }
    else ({ s with hm := { s.hm with svTick := s.tick + 1, svDelta := -theta * 2 ^ 24 } }).stepBy (-theta * 2 ^ 24)
  else if s.servo = svHoldover then ({ s with hm := { s.hm with srun := 0 } }).toServo svAcquire
  else
    match last with
    | none => s
    | some t0 =>
      let s1 := s.servoUpdate theta ((s.tick - t0) * 4)
      if s1.servo = svLocked then
        if unlock < mag then ({ s1 with hm := { s1.hm with srun := 0 } }).toServo svAcquire else s1
      else
        let run := if mag ≤ lock then s1.hm.srun + 1 else 0
        let s2 := { s1 with hm := { s1.hm with srun := run } }
        if max (s.fld Fld.HM_SERVO_THR_LOCK_CNT) 1 ≤ run then s2.toServo svLocked else s2

/-- The signed offset held in `HM_SW_OFFSET`, in units of 2^-16 ns. -/
def State.swOffset (s : State) : Int :=
  signed 32 (s.reg Reg.HM_SW_OFFSET0).toNat * 65536 + (((s.reg Reg.HM_SW_OFFSET1).toNat % 65536 : Nat) : Int)
/-- Whether `HM_SW_OFFSET` takes writes: the source is software and EN is 1; otherwise they are ignored (R304). -/
def State.swTakes (s : State) : Bool := s.servoOn && decide (s.servoSrc = 0)
/-- A write to word 1 of `HM_SW_OFFSET` that is taken is a sample (R304). -/
def State.swSubmit (s : State) : State :=
  if s.swTakes ∧ s.servo ≠ svFree then s.servoSample s.swOffset else s

/-- One value of a CRF time report, doubled (R304): it waits for the mean. -/
def State.crfValue (s : State) (theta2 : Int) : State :=
  if s.servoOn ∧ s.servoSrc = 1 ∧ s.servo ≠ svFree then { s with hm := { s.hm with crfVals := s.hm.crfVals ++ [theta2] } } else s

/-- The mean of 2^AVG values makes one sample (R304). Where it is no multiple of 2^-16 ns the spec does not say how it is rounded. -/
def State.crfMean (s : State) : State :=
  let n : Nat := 2 ^ min (s.fld Fld.HM_SERVO_CTRL_AVG) 8
  if s.servoOn ∧ s.servoSrc = 1 ∧ s.servo ≠ svFree ∧ n ≤ s.hm.crfVals.length then
    let sum := (s.hm.crfVals.take n).foldl (· + ·) 0
    let d : Int := ((2 * n : Nat) : Int)
    let up : Int := if sum.fmod d = 0 then 0 else ((s.freeVal % 2 : Nat) : Int)
    ({ s.drawn with hm := { s.hm with crfVals := s.hm.crfVals.drop n } }).servoSample (sum.fdiv d + up)
  else s

/-- The counter as a pin captures it: some whole number of nanoseconds within 2 ns of the instant, parts of a tick included (R311). -/
def State.pinNs (s : State) : Int :=
  let t := s.hmRel 0
  if t % 65536 = 0 then t / 65536 + ((s.freeVal % 5 : Nat) : Int) - 2 else t / 65536 + ((s.freeVal % 4 : Nat) : Int) - 1

/-- A rising edge on PPS_IN (R304). -/
def State.ppsIn (s : State) : State :=
  if s.bit Fld.HM_PPS_CTRL_IN_EN ∧ s.servoOn ∧ s.servoSrc = 2 ∧ s.servo ≠ svFree then
    let t := s.pinNs - signed 32 (s.reg Reg.HM_PPS_IN_OFS).toNat
    let r := t % 1000000000
    s.drawn.servoSample ((if r ≤ 500000000 then r else r - 1000000000) * 65536)
  else s

/-- No sample for TIMEOUT (R303). -/
def State.srcLost (s : State) : State :=
  if (s.servo = svAcquire ∨ s.servo = svLocked) ∧ s.hm.sampleAt + s.servoTimeout ≤ s.now then
    s.servoHold.raise Fld.HM_INT_STATUS_SRC_LOST
  else s

/-- A write of `HM_SERVO_CTRL`: edges of EN, and `SRC` or `CRF_PORT` written (`src` says whether the write reached them). -/
def State.servoCtrlWrite (s : State) (w : Word) (src : Bool) : State :=
  let was := s.servoOn
  let s1 := s.setReg Reg.HM_SERVO_CTRL (w &&& 0xF07FFFF8#32)
  if s1.servoOn then (if was then (if src then s1.servoSrcTouched else s1) else s1.servoEnable)
  else s1.servoDisable

/-! ### PPS and ToD (R312 to R314) -/

/-- The instants of TOD_TX after a write of `HM_PPS_OUT_OFS`: those that lie behind the counter have gone by, unless a message was already due (R313). -/
def State.todRenew (s t : State) : State :=
  if s.bit Fld.HM_TOD_CTRL_TX_EN && decide (s.hm.todSec ≠ some (s.ppsIndex 10000000)) && decide (t.ppsIndex 10000000 = s.ppsIndex 10000000) then t
  else t.todPassed (t.hmNs : Int)
/-- A write of `HM_PPS_CTRL` or of `HM_PPS_OUT_OFS`: no instant that lies behind the counter counts as reached from now on, unless the output was on and an
edge was already due. -/
def State.ppsWrite (s t : State) : State :=
  let due := s.bit Fld.HM_PPS_CTRL_OUT_EN && decide (s.hm.ppsSec ≠ some (s.ppsIndex 0)) && decide (t.ppsIndex 0 = s.ppsIndex 0)
  (if due then t else t.ppsPassed (t.hmNs : Int)).ppsFollow
/-- A write of `HM_TOD_CTRL`. -/
def State.todWrite (s t : State) : State := if s.bit Fld.HM_TOD_CTRL_TX_EN then t else t.todPassed (t.hmNs : Int)

/-- PPS_OUT rises for a whole second whose instant the counter reaches, once for each (R312). -/
def State.ppsRise (s : State) : State :=
  let k := s.ppsIndex 0
  if s.bit Fld.HM_PPS_CTRL_OUT_EN ∧ 0 ≤ k ∧ s.hm.ppsSec ≠ some k then
    let t := k * 1000000000 + signed 32 (s.reg Reg.HM_PPS_OUT_OFS).toNat
    let s1 := { s with hm := { s.hm with ppsSec := some k,
                                         ppsFall := (t + ((max (s.fld Fld.HM_PPS_CTRL_OUT_WIDTH) 1 * 8 : Nat) : Int)).toNat } }
    if s1.ppsQuiet then s1 else s1.ppsSet true
  else s
/-- PPS_OUT falls after its width. -/
def State.ppsFallDue (s : State) : State := if s.hm.ppsHigh ∧ s.hm.ppsFall ≤ s.hmNs then s.ppsSet false else s

/-- CRC-16 of R66: polynomial x^16 + x^12 + x^5 + 1, initial value 0. -/
def crc16 (bs : List Byte) : Nat := crc16With 0x1021 0 bs

/-- The ToD message of a second (R313). -/
def State.todMessage (s : State) (sec : Int) : List Byte :=
  let body := beBytes 2 0x4354 ++ beBytes 1 1 ++ beBytes 1 s.servo ++ beBytes 6 (unsign 48 sec) ++
    beBytes 2 (s.fld Fld.HM_UTC_UTC_OFFSET) ++ beBytes 1 (s.fld Fld.HM_UTC_CLOCK_CLASS) ++ beBytes 1 0
  body ++ beBytes 2 (crc16 body)

/-- The bit rate that `BAUD` names. -/
def todBaud (v : Nat) : Nat := if v = 0 then 9600 else if v = 1 then 115200 else if v = 2 then 460800 else 921600
/-- A byte in UART framing: a start bit, the bits from the least significant on, and a stop bit (R313). -/
def uartBits (b : Byte) : List Bool := false :: (List.range 8).map (fun i => bitOf b.toNat i) ++ [true]

/-- TOD_TX sends the message of a whole second, from 10 ms after its PPS instant on, at the rate of `BAUD`; between messages it idles high (R313). -/
def State.todSend (s : State) : State :=
  let k := s.ppsIndex 10000000
  if s.bit Fld.HM_TOD_CTRL_TX_EN ∧ 0 ≤ k ∧ s.hm.todSec ≠ some k then
    ({ s with hm := { s.hm with todSec := some k } }).emit (.tod (todBaud (s.fld Fld.HM_TOD_CTRL_BAUD)) ((s.todMessage k).flatMap uartBits))
  else s

/-- Bytes into registers, byte k in bits 8(k mod 4)+7 : 8(k mod 4) of word k / 4 (R87). -/
def State.putBytes (s : State) (a : Nat) (bs : List Byte) : State :=
  (List.range ((bs.length + 3) / 4)).foldl (fun s i => s.setReg (a + 4 * i) (w32 (leNat (byteSlice bs (4 * i) 4)))) s
/-- Bytes out of registers. -/
def State.getBytes (s : State) (a n : Nat) : List Byte :=
  ((List.range ((n + 3) / 4)).foldl (fun l i => l ++ leBytes 4 (s.reg (a + 4 * i)).toNat) []).take n

/-- A message on TOD_RX (R314). -/
def State.todReceive (s : State) (msg : List Byte) (gap : Bool) : State :=
  if s.bit Fld.HM_TOD_CTRL_RX_EN then
    if gap = false ∧ msg.length = 16 ∧ u16 msg 0 = 0x4354 ∧ u8 msg 2 = 1 ∧ u16 msg 14 = crc16 (msg.take 14) then
      (s.putBytes (Reg.HM_TOD_RX 0) msg).raise Fld.HM_INT_STATUS_TOD_RX
    else (s.count (Ctr.hm 0x18) 1).raise Fld.HM_INT_STATUS_TOD_RX_ERR
  else s

/-! ### Event pins (R315) -/

def State.pin (s : State) (i : Nat) : EvtPin := SMap.get (fun _ => EvtPin.reset) s.hm.pins i
def State.setPin (s : State) (i : Nat) (x : EvtPin) : State :=
  { s with hm := { s.hm with pins := SMap.put (fun _ => EvtPin.reset) s.hm.pins i x } }
def State.evtPeriod (s : State) (i : Nat) : Nat := clampNat 1000 1000000000 (s.fld (Fld.HM_EVT_PERIOD_PERIOD i)) * 65536

/-- The pin takes a level. -/
def State.pinLevel (s : State) (i : Nat) (high : Bool) : State :=
  if (s.pin i).high = high then s else (s.setPin i { s.pin i with high := high }).emit (.evt i high)

/-- A write of 1 to ARM: acts in mode OUT. -/
def State.evtArm (s : State) (i : Nat) : State :=
  if s.fld (Fld.HM_EVT_CTRL_MODE i) = 1 then
    let t := s.timeAt (Reg.HM_EVT_TIME0 i)
    if s.hm16 < t then s.setPin i { s.pin i with next := some t }
    else if s.bit (Fld.HM_EVT_CTRL_PERIODIC i) then
      let p := s.evtPeriod i
      s.setPin i { s.pin i with next := some (t + ((s.hm16 - t) / p + 1) * p) }
    else s.raise Fld.HM_INT_STATUS_EVT_MISS
  else s
/-- A write of `HM_EVT_CTRL`: MODE is written, the pulse train ends; ARM acts under the new MODE, and reads 1 while an output is armed (R9). -/
def State.evtCtrlWrite (s : State) (i : Nat) (w : Word) : State :=
  let s1 := (s.setReg (Reg.HM_EVT_CTRL i) (w &&& 0xF8000000#32)).pinLevel i false
  let s2 := s1.setPin i { s1.pin i with next := none, until_ := none }
  if bitOf w.toNat 26 then s2.evtArm i else s2
/-- The row EVT_ARM: `HM_EVT_CTRL` is written with ARM 1 and its other fields as they stand. -/
def State.evtArmRow (s : State) (i : Nat) : State := s.evtCtrlWrite i (s.reg (Reg.HM_EVT_CTRL i) ||| 0x04000000#32)
def State.evtArmed (s : State) (i : Nat) : Bool := decide (s.fld (Fld.HM_EVT_CTRL_MODE i) = 1) && (s.pin i).next.isSome
/-- A programmed edge instant comes: the pin rises, or stays high into the next pulse. -/
def State.evtPulse (s : State) (i : Nat) : State :=
  match (s.pin i).next with
  | none => s
  | some t =>
    if t ≤ s.hm16 then
      let nx := if s.bit (Fld.HM_EVT_CTRL_PERIODIC i) then some (t + s.evtPeriod i) else none
      (s.setPin i { s.pin i with next := nx, until_ := some (t + s.fld (Fld.HM_EVT_WIDTH_WIDTH i) * 8 * 65536) }).pinLevel i true
    else s
/-- A pulse has lasted for its width: the pin falls, unless the next pulse begins at or before that instant. -/
def State.evtPulseEnd (s : State) (i : Nat) : State :=
  match (s.pin i).until_ with
  | none => s
  | some t =>
    if t ≤ s.hm16 then
      let s1 := s.setPin i { s.pin i with until_ := none }
      match (s.pin i).next with
      | some u => if u ≤ t then s1 else s1.pinLevel i false
      | none => s1.pinLevel i false
    else s
/-- An edge on an input pin. -/
def State.evtCapture (s : State) (i : Nat) (rising : Bool) : State :=
  let e := s.fld (Fld.HM_EVT_CTRL_EDGE i)
  if s.fld (Fld.HM_EVT_CTRL_MODE i) = 2 ∧ (if rising then bitOf e 0 else bitOf e 1) then
    if (s.pin i).caps.length < 8 then
      (s.drawn.setPin i { s.pin i with caps := (s.pin i).caps ++ [(s.pinNs.toNat % (2 ^ 48 * 1000000000)) * 65536] }).raise
        (if i = 0 then Fld.HM_INT_STATUS_EVT0_CAP else Fld.HM_INT_STATUS_EVT1_CAP)
    else (s.count (Ctr.hm (8 + 8 * i)) 1).raise Fld.HM_INT_STATUS_EVT_OVF
  else s
def State.evtCapPop (s : State) (i : Nat) : State := s.setPin i { s.pin i with caps := (s.pin i).caps.drop 1 }

/-! ### Modes, rates and timestamps (R29, R305 to R307) -/

/-- The mode in effect on a port (R31). -/
def State.mode (s : State) (p : Nat) : Nat := s.fld (Fld.PT_STATUS_ACTIVE_MODE p)
/-- Whether a port runs CRF. -/
def State.crfOn (s : State) (p : Nat) : Bool := decide (s.mode p ≠ 0) && s.abit (Fld.PT_MODE_CRF p)

/-- The rate of a mode in Mbit/s (R29). -/
def modeRate (m : Nat) : Nat :=
  if m = 1 then 1000 else if m = 2 then 2500 else if m = 3 then 10000 else if m = 4 then 25000 else if m = 5 then 50000
  else if m = 8 ∨ m = 9 then 100000 else if m = 10 ∨ m = 11 then 200000 else if m = 12 then 400000 else 0
/-- The time that `n` bytes take on a port, in the model's units; 0 in no mode. -/
def State.lineTime (s : State) (p n : Nat) : Nat :=
  if modeRate (s.mode p) = 0 then 0 else n * 480000 / modeRate (s.mode p)

/-- RX_CONST, TX_CONST and the top of the RX_VAR range in 1/16 ns (R305). -/
def tsRow (mode fec : Nat) : Nat × Nat × Nat :=
  if mode = 1 then (4736, 1792, 0)
  else if mode = 2 then (1984, 768, 0)
  else if mode = 3 then (if fec = 1 then (4612, 904, 0) else (932, 584, 0))
  else if mode = 4 then (if fec = 1 then (2016, 472, 0) else if fec = 2 then (3696, 552, 1600) else (496, 312, 0))
  else if mode = 5 then (1888, 480, 1280)
  else if mode = 8 then (1472, 352, 960)
  else if mode = 9 then (1488, 384, 1120)
  else if mode = 10 then (1136, 320, 800)
  else if mode = 11 then (1168, 352, 960)
  else if mode = 12 then (992, 288, 640)
  else (0, 0, 0)
def State.tsConst (s : State) (p : Nat) : Nat × Nat × Nat := tsRow (s.mode p) (s.afld (Fld.PT_MODE_FEC p))

/-- A time cut to the resolution of 0.25 ns (R305). -/
def quarter (t : Int) : Nat := ((t.fdiv 16384) * 16384 % ((2 ^ 48 * 1000000000 * 65536 : Nat) : Int)).toNat

/-- The reported RX timestamp of a point that crossed the MAC/PCS boundary `d` ago. -/
def State.rxStamp (s : State) (p d : Nat) : Nat :=
  let c : Int := if s.bit (Fld.PT_TS_CTRL_LINE_REF p) then
      (((s.tsConst p).1 + s.fld (Fld.PT_TS_VAR_RX_VAR p) : Nat) : Int) + signed 16 (s.fld (Fld.PT_TS_ASYM_RX_ASYM p)) else 0
  quarter (s.hmAgo d - c * 4096)
/-- The instant, on the device's own time, at which a point that crossed the boundary `d` ago was at the line, or at the boundary with LINE_REF 0. -/
def State.rxInstant (s : State) (p d : Nat) : Nat :=
  let c : Int := if s.bit (Fld.PT_TS_CTRL_LINE_REF p) then
      (((s.tsConst p).1 + s.fld (Fld.PT_TS_VAR_RX_VAR p) : Nat) : Int) + signed 16 (s.fld (Fld.PT_TS_ASYM_RX_ASYM p)) else 0
  ((s.now : Int) - (d : Int) - (c * 60).fdiv 16).toNat
/-- The reported TX timestamp of a point that crosses the boundary `d` from now. -/
def State.txStampIn (s : State) (p d : Nat) : Nat :=
  let c : Int := if s.bit (Fld.PT_TS_CTRL_LINE_REF p) then
      (((s.tsConst p).2.1 : Nat) : Int) + signed 16 (s.fld (Fld.PT_TS_ASYM_TX_ASYM p)) else 0
  quarter (s.hmRel (d : Int) + c * 4096)
/-- That of a point that crosses it now. -/
def State.txStamp (s : State) (p : Nat) : Nat := s.txStampIn p 0

/-! ### Launch times (R316) -/

/-- The one instant in [now - 128 s, now + 128 s) that matches 8 bits of seconds and the nanoseconds. -/
def launchTime (now16 sec8 ns : Nat) : Nat :=
  let m : Int := 256 * 1000000000 * 65536
  let want : Int := (((sec8 * 1000000000 + ns) * 65536 : Nat) : Int)
  let lo : Int := (now16 : Int) - 128 * 1000000000 * 65536
  (lo + (want - lo) % m).toNat

end Sys2Proof.Machine
end

