-- ==== Sys2Proof/Machine/Parse.lean ====
section
/-!
DEFINITION. The parser, the initial class and colour, the Filigree keys, the payload matcher and the hashes of load spreading (chapter 5).
-/
namespace Sys2Proof.Machine

/-! ### Codes and flags (R127, R128) -/

def l3None : Nat := 0
def l3Ip4 : Nat := 1
def l3Ip6 : Nat := 2
def l3Arp : Nat := 3
def l3Ctl : Nat := 4
def l3PppoeDisc : Nat := 5
def l3MplsOther : Nat := 6
def l3PtpL2 : Nat := 7

def l4None : Nat := 0
def l4Tcp : Nat := 1
def l4Udp : Nat := 2
def l4Icmp4 : Nat := 3
def l4Icmp6 : Nat := 4
def l4Igmp : Nat := 5
def l4Other : Nat := 6

def pfUnknown : Nat := 0
def pfTagsExcess : Nat := 1
def pfMplsDeep : Nat := 2
def pfIp4Options : Nat := 3
def pfIp4BadCsum : Nat := 4
def pfIp4Frag : Nat := 5
def pfIp6ExtDeep : Nat := 6
def pfIp6Frag : Nat := 7
def pfTtlLow : Nat := 8
def pfTruncated : Nat := 9
def pfBadLen : Nat := 10
def pfRtag : Nat := 11
def pfPtp : Nat := 12
def pfCtrl : Nat := 13
def pfPppoeUnk : Nat := 14

def Parse.flag (x : Parse) (i : Nat) : Bool := bitOf x.flags i
def Parse.set (x : Parse) (i : Nat) : Parse := { x with flags := x.flags ||| 2 ^ i }
def Parse.setIf (x : Parse) (c : Bool) (i : Nat) : Parse := if c then x.set i else x
/-- Parsing stops with the payload origin at an offset. -/
def Parse.stop (x : Parse) (o : Nat) : Parse := { x with pay := o }
/-- The innermost IP header parsed carries an ECN code other than 0b00 (R195 ECT). -/
def Parse.ect (x : Parse) : Bool := decide (x.ecn ≠ 0)

/-- What the parser reads: the frame, the end of its window, the enabled TPIDs and the Caryr control EtherType. -/
structure PCtx where
  bs    : List Byte
  lim   : Nat
  tpids : List Nat
  ctrl  : Nat

/-- Whether `n` bytes from an offset end within the window and before the FCS (R123). -/
def PCtx.fits (c : PCtx) (o n : Nat) : Bool := decide (o + n ≤ c.lim)

/-! ### Layer 4 (R124) -/

/-- The value of DHCPv4 option 53, if it begins in the first 64 option bytes, else 0; none where the options run past what the parser may read. -/
def dhcpMsg (c : PCtx) (opt : Nat) : Nat → Nat → Option Nat
  | 0, _ => some 0
  | k + 1, o =>
    if 64 ≤ o then some 0
    else if !(c.fits (opt + o) 1) then none
    else
      let t := u8 c.bs (opt + o)
      if t = 0 then dhcpMsg c opt k (o + 1)
      else if t = 255 then some 0
      else if t = 53 then (if c.fits (opt + o) 3 then some (u8 c.bs (opt + o + 2)) else none)
      else if c.fits (opt + o) 2 then dhcpMsg c opt k (o + 2 + u8 c.bs (opt + o + 1)) else none

/-- What UDP ports say of the message above (R124): DHCPv4, DHCPv6, PTP. One that does not fit is not parsed and sets TRUNCATED (R123). Where
the ports of a frame match two rows the first of this order counts: R124 gives none (DESIGN CHOICE, notes/assumptions/18.md). -/
def parseUdpApp (c : PCtx) (x : Parse) (o : Nat) : Parse :=
  if x.sport = 67 ∨ x.sport = 68 ∨ x.dport = 67 ∨ x.dport = 68 then
    (match (if c.fits o 240 then dhcpMsg c (o + 240) 65 0 else none) with
     | some v => { x with l4msg := v }
     | none => x.set pfTruncated)
  else if x.sport = 546 ∨ x.sport = 547 ∨ x.dport = 546 ∨ x.dport = 547 then
    (if c.fits o 1 then { x with l4msg := u8 c.bs o } else x.set pfTruncated)
  else if x.dport = 319 ∨ x.dport = 320 then
    (if c.fits o 1 then ({ x with l4msg := u8 c.bs o % 16, ptpOfs := o }).set pfPtp else x.set pfTruncated)
  else x

/-- The layer 4 header of a protocol at an offset. A TCP data offset below 5 acts as 5; the spec does not say (DESIGN CHOICE, notes/assumptions/14.md). -/
def parseL4 (c : PCtx) (x0 : Parse) (proto o : Nat) : Parse :=
  let x := { x0 with proto := proto, l4ofs := o }
  if proto = 6 then
    let n := if c.fits o 13 then max 20 (u8 c.bs (o + 12) / 16 * 4) else 20
    if c.fits o n then
      ({ x with l4 := l4Tcp, sport := u16 c.bs o, dport := u16 c.bs (o + 2), tcpFlags := u8 c.bs (o + 13) }).stop (o + n)
    else (x.set pfTruncated).stop o
  else if proto = 17 then
    if c.fits o 8 then
      parseUdpApp c (({ x with l4 := l4Udp, sport := u16 c.bs o, dport := u16 c.bs (o + 2) }).stop (o + 8)) (o + 8)
    else (x.set pfTruncated).stop o
  else if proto = 1 ∨ proto = 58 ∨ proto = 2 then
    if c.fits o 4 then
      ({ x with l4 := if proto = 1 then l4Icmp4 else if proto = 58 then l4Icmp6 else l4Igmp, l4msg := u8 c.bs o }).stop (o + 4)
    else (x.set pfTruncated).stop o
  else ({ x with l4 := l4Other }).stop o

/-! ### IP (R124, R125) -/

/-- The ones-complement sum of 16-bit words from an offset. -/
def sumWords (bs : List Byte) (o n : Nat) : Nat := (List.range n).foldl (fun a i => onesAdd a (u16 bs (o + 2 * i))) 0

/-- An IPv4 header at an offset. -/
def parseIp4 (c : PCtx) (x0 : Parse) (o : Nat) : Parse :=
  if !(c.fits o 20) then (x0.set pfTruncated).stop o
  else
    let ihl := max 5 (u8 c.bs o % 16)
    if !(c.fits o (4 * ihl)) then (x0.set pfTruncated).stop o
    else
      let frag := u16 c.bs (o + 6)
      let x := { x0 with l3 := l3Ip4, ipOfs := o, sip := u32 c.bs (o + 12), dip := u32 c.bs (o + 16), proto := u8 c.bs (o + 9),
                         dscp := u8 c.bs (o + 1) / 4, ecn := u8 c.bs (o + 1) % 4, ttl := u8 c.bs (o + 8) }
      let x := (((((x.setIf (decide (5 < ihl)) pfIp4Options).setIf (decide (sumWords c.bs o (2 * ihl) ≠ 65535)) pfIp4BadCsum).setIf
        (decide (frag / 8192 % 2 = 1 ∨ frag % 8192 ≠ 0)) pfIp4Frag).setIf (decide (u8 c.bs (o + 8) ≤ 1)) pfTtlLow).setIf
        (decide (c.bs.length - 4 - o < u16 c.bs (o + 2))) pfBadLen)
      if frag % 8192 ≠ 0 then x.stop (o + 4 * ihl)
      else parseL4 c x (u8 c.bs (o + 9)) (o + 4 * ihl)

/-- Up to two extension headers, then layer 4. -/
def parseIp6Ext (c : PCtx) : Nat → Parse → Nat → Nat → Parse
  | n, x0, nh, o =>
    let x := { x0 with proto := nh }
    if nh = 0 ∨ nh = 43 ∨ nh = 44 ∨ nh = 60 then
      match n with
      | 0 => (x.set pfIp6ExtDeep).stop o
      | k + 1 =>
        let len := if nh = 44 then 8 else if c.fits o 2 then (u8 c.bs (o + 1) + 1) * 8 else 8
        if !(c.fits o len) then (x.set pfTruncated).stop o
        else if nh = 44 then
          let y := { x with proto := u8 c.bs o, ext := x.ext + 1 }.set pfIp6Frag
          if u16 c.bs (o + 2) / 8 ≠ 0 then y.stop (o + 8) else parseIp6Ext c k y (u8 c.bs o) (o + 8)
        else parseIp6Ext c k { x with ext := x.ext + 1 } (u8 c.bs o) (o + len)
    else parseL4 c x nh o

/-- An IPv6 header at an offset. -/
def parseIp6 (c : PCtx) (x0 : Parse) (o : Nat) : Parse :=
  if !(c.fits o 40) then (x0.set pfTruncated).stop o
  else
    let w := u32 c.bs o
    let x := { x0 with l3 := l3Ip6, ipOfs := o, sip := beNat (byteSlice c.bs (o + 8) 16), dip := beNat (byteSlice c.bs (o + 24) 16),
                       proto := u8 c.bs (o + 6), dscp := w / 2 ^ 22 % 64, ecn := w / 2 ^ 20 % 4, ttl := u8 c.bs (o + 7), flow := w % 2 ^ 20 }
    let x := (x.setIf (decide (u8 c.bs (o + 7) ≤ 1)) pfTtlLow).setIf (decide (c.bs.length - 4 - (o + 40) < u16 c.bs (o + 4))) pfBadLen
    parseIp6Ext c 2 x (u8 c.bs (o + 6)) (o + 40)

/-! ### Layer 2 (R124) -/

/-- Up to four MPLS labels; after the bottom of the stack, IP by its first nibble. -/
def parseMpls (c : PCtx) : Nat → Parse → Nat → Parse
  | 0, x, o => x.stop o
  | k + 1, x0, o =>
    if !(c.fits o 4) then (x0.set pfTruncated).stop o
    else
      let x := { x0 with labels := x0.labels ++ [u32 c.bs o] }
      if u32 c.bs o / 256 % 2 = 1 then
        if !(c.fits (o + 4) 1) then (x.set pfTruncated).stop (o + 4)
        else if u8 c.bs (o + 4) / 16 = 4 then parseIp4 c x (o + 4)
        else if u8 c.bs (o + 4) / 16 = 6 then parseIp6 c x (o + 4)
        else ({ x with l3 := l3MplsOther }).stop (o + 4)
      else if k = 0 then (x.set pfMplsDeep).stop (o + 4)
      else parseMpls c k x (o + 4)

/-- A message whose L4MSG is one byte `n` bytes after the EtherType; one that does not fit is not parsed (R123). The spec does not say how long these headers
are: the payload origin is put right after the EtherType, and so it is for PTP over Ethernet (DESIGN CHOICE, notes/assumptions/14.md). -/
def parseMsg (c : PCtx) (x : Parse) (l3 o n : Nat) : Parse :=
  if c.fits (o + 2) (n + 1) then ({ x with l3 := l3, l4msg := u8 c.bs (o + 2 + n) }).stop (o + 2) else (x.set pfTruncated).stop (o + 2)

/-- What the EtherType at an offset begins, after tags and R-TAG. -/
def parseEtype (c : PCtx) (x0 : Parse) (o : Nat) : Parse :=
  let et := u16 c.bs o
  let x := { x0 with etype := et }
  if et = 0x8864 then
    if !(c.fits o 10) then (x.set pfTruncated).stop (o + 2)
    else
      let y := { x with pppoe := u16 c.bs (o + 4) }
      if u16 c.bs (o + 8) = 0x0021 then parseIp4 c y (o + 10)
      else if u16 c.bs (o + 8) = 0x0057 then parseIp6 c y (o + 10)
      else ((y.set pfPppoeUnk).set pfUnknown).stop (o + 10)
  else if et = 0x8863 then
    if !(c.fits o 8) then (x.set pfTruncated).stop (o + 2)
    else ({ x with l3 := l3PppoeDisc, l4msg := u8 c.bs (o + 3), pppoe := u16 c.bs (o + 4) }).stop (o + 8)
  else if et = 0x8847 ∨ et = 0x8848 then parseMpls c 4 x (o + 2)
  else if et = 0x0800 then parseIp4 c x (o + 2)
  else if et = 0x86DD then parseIp6 c x (o + 2)
  else if et = 0x0806 then parseMsg c x l3Arp o 7
  else if et = 0x88F7 then
    if c.fits (o + 2) 1 then ({ x with l3 := l3PtpL2, l4msg := u8 c.bs (o + 2) % 16, ptpOfs := o + 2 }.set pfPtp).stop (o + 2)
    else (x.set pfTruncated).stop (o + 2)
  else if et = 0x8902 then parseMsg c x l3Ctl o 1
  else if et = 0x8809 then parseMsg c x l3Ctl o 0
  else if et = 0x888E then parseMsg c x l3Ctl o 1
  else if et = c.ctrl then parseMsg c (x.set pfCtrl) l3Ctl o 0
  else (x.set pfUnknown).stop (o + 2)

/-- An R-TAG, then the EtherType behind it. -/
def parseRtag (c : PCtx) (x : Parse) (o : Nat) : Parse :=
  if u16 c.bs o = 0xF1C1 then
    if c.fits o 8 then parseEtype c ({ x with rtag := some (u16 c.bs (o + 4)) }.set pfRtag) (o + 6)
    else ({ x with etype := 0xF1C1 }.set pfTruncated).stop (o + 2)
  else parseEtype c x o

/-- Up to three VLAN tags, then the rest. -/
def parseTags (c : PCtx) : Nat → Parse → Nat → Parse
  | k, x, o =>
    if !(c.fits o 2) then (x.set pfTruncated).stop o
    else if c.tpids.contains (u16 c.bs o) then
      match k with
      | 0 => ({ x with etype := u16 c.bs o }.set pfTagsExcess).stop (o + 2)
      | n + 1 =>
        if c.fits o 4 then parseTags c n { x with tags := x.tags ++ [u16 c.bs (o + 2)] } (o + 4)
        else (x.set pfTruncated).stop (o + 2)
    else parseRtag c x o

/-- The parser of pipeline `i` on a frame (R123 to R128). -/
def State.tpid (s : State) (i n : Nat) : Nat := s.fld (Fld.PP_TPID_TPID i n)
def State.parse (s : State) (i : Nat) (bs : List Byte) : Parse :=
  let tp := ((List.range 4).filter (fun n => s.bit (Fld.PP_TPID_EN i n))).map (fun n => s.tpid i n)
  parseTags ⟨bs, min 512 (bs.length - 4), tp, s.fld (Fld.PP_PARSE_CFG_CTRL_ETYPE i)⟩ 3 Parse.none 12

/-! ### Fields of a frame -/

def dmacOf (bs : List Byte) : Nat := beNat (byteSlice bs 0 6)
def smacOf (bs : List Byte) : Nat := beNat (byteSlice bs 6 6)
/-- 0 unicast, 1 multicast, 2 broadcast (R132 CAST). -/
def castOf (bs : List Byte) : Nat := if dmacOf bs = 2 ^ 48 - 1 then 2 else if u8 bs 0 % 2 = 1 then 1 else 0
def Parse.tci (x : Parse) (n : Nat) : Nat := x.tags.getD n 0
def Parse.vid (x : Parse) (n : Nat) : Nat := x.tci n % 4096

/-! ### Initial class and colour (R129) -/

/-- The colour that a 2-bit code names: green 0, yellow 1, red 2. -/
def colourOf (c : Nat) : Nat := min c 2

/-- The register of a port in its pipeline's `PP_PORT_QOS`. -/
def qosIndex (p : Nat) : Nat := if p < 128 then p % 16 else 16 + p % 2

/-- The initial class and colour: DEI makes yellow of a green that a map gave, and not of the defaults. -/
def State.initialQos (s : State) (i p : Nat) (x : Parse) : Nat × Nat :=
  let n := qosIndex p
  let trust := s.fld (Fld.PP_PORT_QOS_TRUST i n)
  let dflt := (s.fld (Fld.PP_PORT_QOS_DEF_CLASS i n), colourOf (s.fld (Fld.PP_PORT_QOS_DEF_COLOUR i n)))
  let pcp := match x.tags with
    | [] => dflt
    | t :: _ => (s.fld (Fld.PP_PCP_MAP_CLASS i (t / 8192)), colourOf (s.fld (Fld.PP_PCP_MAP_COLOUR i (t / 8192))))
  let isIp := decide (x.l3 = l3Ip4 ∨ x.l3 = l3Ip6)
  let dscp := (s.fld (Fld.PP_DSCP_MAP_CLASS i x.dscp), colourOf (s.fld (Fld.PP_DSCP_MAP_COLOUR i x.dscp)))
  let r := if trust = 0 then dflt else if trust = 1 then pcp
           else if trust = 2 then (if isIp then dscp else dflt)
           else (if isIp then dscp else pcp)
  let mapped := decide (trust = 1 ∨ trust = 3) || (decide (trust = 2) && isIp)
  if s.bit (Fld.PP_PORT_QOS_DEI_YELLOW i n) ∧ mapped ∧ x.tags ≠ [] ∧ x.tci 0 / 4096 % 2 = 1 ∧ r.2 = 0 then (r.1, 1) else r

/-! ### Keys (R132 to R134) -/

/-- Fields side by side, the first most significant: pairs of width and value. -/
def pack (l : List (Nat × Nat)) : Nat := l.foldl (fun a e => a * 2 ^ e.1 + e.2 % 2 ^ e.1) 0

/-- What the keys take beside the parse: source, dwelling of the map, initial class and the matcher's vector. -/
structure KeyIn where
  srcKind : Nat
  src     : Nat
  dw      : Option Nat
  cls     : Nat
  vector  : Nat

def keyCommon (k : KeyIn) (bs : List Byte) (x : Parse) : Nat :=
  pack [(2, k.srcKind), (12, k.src), (1, b2n k.dw.isSome), (14, k.dw.getD 0), (2, castOf bs), (3, x.l3), (3, x.l4), (16, x.flags),
        (3, k.cls), (8, x.l4msg), (32, k.vector)]
def keyL2 (bs : List Byte) (x : Parse) : Nat :=
  pack [(48, dmacOf bs), (48, smacOf bs), (16, x.etype), (16, x.tci 0), (16, x.tci 1), (16, x.tci 2), (16, x.pppoe),
        (20, x.labels.getD 0 0 / 4096), (3, x.labels.getD 0 0 / 512), (25, 0)]
def Parse.sportK (x : Parse) : Nat := if x.l4 = l4Tcp ∨ x.l4 = l4Udp then x.sport else 0
def Parse.dportK (x : Parse) : Nat := if x.l4 = l4Tcp ∨ x.l4 = l4Udp then x.dport else 0
def keyIp4 (bs : List Byte) (x : Parse) : Nat :=
  let on (v : Nat) : Nat := if x.l3 = l3Ip4 then v else 0
  pack [(32, on x.sip), (32, on x.dip), (16, x.sportK), (16, x.dportK), (8, on x.proto), (6, on x.dscp), (2, on x.ecn), (8, on x.ttl),
        (8, x.tcpFlags), (12, x.vid 0), (12, x.vid 1), (48, smacOf bs), (24, 0)]
def keyIp6 (src : Bool) (x : Parse) : Nat :=
  let on (v : Nat) : Nat := if x.l3 = l3Ip6 then v else 0
  pack [(128, on (if src then x.sip else x.dip)), (16, x.sportK), (16, x.dportK), (8, on x.proto), (6, on x.dscp), (2, on x.ecn),
        (8, on x.ttl), (8, x.tcpFlags), (12, x.vid 0), (20, on x.flow)]

/-- Whether a format code is of 640 bits, and whether it names a format at all. -/
def fmtWide (f : Nat) : Bool := decide (f = 8 ∨ f = 9 ∨ f = 10)
def fmtOn (f : Nat) : Bool := decide (f < 4) || fmtWide f

/-- The key of a frame in a format. -/
def keyOf (f : Nat) (k : KeyIn) (bs : List Byte) (x : Parse) : Nat :=
  let c := keyCommon k bs x * 2 ^ 224
  if f = 0 then c + keyL2 bs x
  else if f = 1 then c + keyIp4 bs x
  else if f = 2 then c + keyIp6 false x
  else if f = 3 then c + keyIp6 true x
  else if f = 8 then (c + keyL2 bs x) * 2 ^ 320 + (c + keyIp4 bs x)
  else if f = 9 then (c + keyIp6 true x) * 2 ^ 320 + (c + keyIp6 false x)
  else (c + keyL2 bs x) * 2 ^ 320 + (c + keyIp6 false x)

/-! ### Filigree lookup (R130, R131) -/

def State.fgEnt (s : State) (k n : Nat) : FgEnt := SMap.get (fun _ => FgEnt.reset) s.pt.fg (8192 * k + n)
def State.setFgEnt (s : State) (k n : Nat) (e : FgEnt) : State :=
  { s with pt := { s.pt with fg := SMap.put (fun _ => FgEnt.reset) s.pt.fg (8192 * k + n) e } }
/-- The format of a bank in force. -/
def State.fgFormat (s : State) (k b : Nat) : Nat := s.afld (Fld.LP_FG_BANK_FORMAT k b)

/-- Whether entry `n` of plane `k` matches. -/
def State.fgMatches (s : State) (k n : Nat) (kin : KeyIn) (bs : List Byte) (x : Parse) : Bool :=
  let f := s.fgFormat k (n / 1024)
  let e := s.fgEnt k n
  if !(fmtOn f) || !e.valid then false
  else if fmtWide f then
    let o := s.fgEnt k (n + 1)
    decide (n % 2 = 0) && decide ((keyOf f kin bs x ^^^ (o.value * 2 ^ 320 + e.value)) &&& (o.care * 2 ^ 320 + e.care) = 0)
  else decide ((keyOf f kin bs x ^^^ e.value) &&& e.care = 0)

/-- The lowest-numbered matching entry of a plane. -/
def State.fgLookup (s : State) (k : Nat) (kin : KeyIn) (bs : List Byte) (x : Parse) : Option Nat :=
  ((s.pt.fg.filter (fun e => decide (8192 * k ≤ e.1 ∧ e.1 < 8192 * (k + 1)))).map (fun e => e.1 - 8192 * k)).find?
    (fun n => s.fgMatches k n kin bs x)

/-! ### The payload matcher (R146) -/

def State.pattern (s : State) (k i : Nat) : Pat := SMap.get (fun _ => Pat.reset) s.pt.pat (1024 * k + i)
def State.setPattern (s : State) (k i : Nat) (p : Pat) : State :=
  { s with pt := { s.pt with pat := SMap.put (fun _ => Pat.reset) s.pt.pat (1024 * k + i) p } }

/-- Byte `j` of a 128-bit staging value. -/
def patByte (v j : Nat) : Nat := v / 256 ^ j % 256
/-- Whether a pattern's bytes stand at an offset of the payload. -/
def patAt (p : Pat) (payload : List Byte) (o len : Nat) : Bool :=
  (List.range len).all (fun j => decide ((u8 payload (o + j) ^^^ patByte p.value j) &&& patByte p.care j = 0))
def Pat.hits (p : Pat) (x : Parse) (payload : List Byte) : Bool :=
  let scope := bitsOf p.cfg 24 3
  let lo := bitsOf p.cfg 8 8
  let hi := bitsOf p.cfg 16 8
  let len := if p.cfg % 16 = 0 then 16 else p.cfg % 16
  let port := p.port % 65536
  let sel := bitsOf p.port 16 2
  p.valid && (decide (scope = 7) || decide (scope = x.l4)) &&
  (decide (sel = 0) || (decide (sel % 2 = 1) && decide (x.sportK = port)) || (decide (2 ≤ sel) && decide (x.dportK = port))) &&
  (List.range (hi + 1 - lo)).any (fun d => decide (lo + d + len ≤ payload.length) && patAt p payload (lo + d) len)

/-- The 32-bit vector of a plane's patterns for a frame. -/
def State.matchVector (s : State) (k : Nat) (bs : List Byte) (x : Parse) : Nat :=
  let lim := min 512 (bs.length - 4)
  let payload := ((bs.take lim).drop x.pay).take 256
  (s.pt.pat.filter (fun e => decide (1024 * k ≤ e.1 ∧ e.1 < 1024 * (k + 1)))).foldl
    (fun v e => if e.2.hits x payload then v ||| 2 ^ bitsOf e.2.cfg 27 5 else v) 0

/-! ### Hashes (R148, R167) -/

/-- One bit and one byte of a CRC-32 that is not reflected. -/
def crcMsbBit (poly c : Nat) : Nat := if bitOf c 31 then (c * 2 % 2 ^ 32) ^^^ poly else c * 2 % 2 ^ 32
def crcMsbByte (poly c : Nat) (b : Byte) : Nat :=
  let x := c ^^^ (b.toNat * 2 ^ 24)
  crcMsbBit poly (crcMsbBit poly (crcMsbBit poly (crcMsbBit poly (crcMsbBit poly (crcMsbBit poly (crcMsbBit poly (crcMsbBit poly x)))))))
def crcMsb (poly init : Nat) (bs : List Byte) : Nat := bs.foldl (crcMsbByte poly) init

/-- The 81-byte vector with the fields that a table selects. -/
def hashVector (fields : Nat) (k : KeyIn) (bs : List Byte) (x : Parse) : List Byte :=
  let f (i n v : Nat) : List Byte := beBytes n (if bitOf fields i then v else 0)
  f 0 2 k.src ++ f 1 6 (dmacOf bs) ++ f 2 6 (smacOf bs) ++ f 3 2 x.etype ++ f 4 2 (x.vid 0) ++ f 5 2 (x.vid 1) ++
  ((List.range 4).foldl (fun l i => l ++ f 6 4 (x.labels.getD i 0 / 256 * 256)) []) ++
  f 7 16 x.sip ++ f 8 16 x.dip ++ f 9 1 x.proto ++ f 10 2 x.sportK ++ f 11 2 x.dportK ++ f 12 4 x.flow ++ f 13 2 (k.dw.getD 0) ++ f 14 2 x.pppoe

/-- The entry of an indirection table that a frame's hash names (R149). -/
def State.hashIndex (s : State) (plane t : Nat) (k : KeyIn) (bs : List Byte) (x : Parse) : Nat :=
  let v := hashVector (s.fld (Fld.LP_IND_CFG_FIELDS plane t)) k bs x
  let h0 := crcMsb 0x04C11DB7 (s.fld (Fld.LP_HASH_SEED0_SEED plane)) v
  let h1 := crcMsb 0x1EDC6F41 (s.fld (Fld.LP_HASH_SEED1_SEED plane)) v
  let sel := s.fld (Fld.LP_IND_CFG_SEL plane t)
  let h := if sel = 0 then h0 else if sel = 1 then h1 else h0 ^^^ h1
  h / 2 ^ min 24 (s.fld (Fld.LP_IND_CFG_SHIFT plane t)) % 256

end Sys2Proof.Machine
end

