-- ==== Sys2Proof/Machine/Queues.lean ====
section
/-!
DEFINITION. Queues of descriptors, their lengths, the admission tests by threshold and WRED (chapter 7), and the fabric states with their fences
(chapter 8).
-/
namespace Sys2Proof.Machine

/-! ### Queue identifiers (R197, R517) -/

def voqId (i q c : Nat) : Nat := 0x10000 + (i * 144 + q) * 8 + c
def pcqId (q c : Nat) : Nat := 0x12400 + q * 8 + c
def fdyId (q c : Nat) : Nat := 0x13880 + q * 8 + c
def mirId (i n : Nat) : Nat := 0x13D00 + i * 8 + n
def cpyId (i : Nat) : Nat := 0x13D40 + i
def avqId (e : Nat) : Nat := 0x13D48 + e
def mcqId (i c : Nat) : Nat := 0x13D50 + i * 8 + c
def hostQ (r : Nat) : Nat := 0x12880 + r

/-! ### Queue contents and lengths (R199) -/

def State.queue (s : State) (q : Nat) : List QEnt := SMap.get (fun _ => []) s.fab.queues q
/-- What makes a descriptor the same head: its frame and its output port (the egress pipelines that still wait for a multicast head do not, R215). -/
def headKey (l : List QEnt) : Option (Nat × Nat) := l.head?.map (fun x => (x.fid, x.port))
def State.setQueue (s : State) (q : Nat) (l : List QEnt) : State :=
  let same := decide (headKey (SMap.get (fun _ => []) s.fab.queues q) = headKey l)
  { s with fab := { s.fab with queues := SMap.put (fun _ => []) s.fab.queues q l,
                               headAt := if same then s.fab.headAt else SMap.put (fun _ => 0) s.fab.headAt q s.now,
                               headHm := if same then s.fab.headHm else SMap.put (fun _ => 0) s.fab.headHm q s.hm16 } }

/-- Q of a queue in cells, and the frames it holds. -/
def State.qLen (s : State) (q : Nat) : Nat := SMap.get (fun _ => 0) s.fab.qlen q
def State.qCnt (s : State) (q : Nat) : Nat := SMap.get (fun _ => 0) s.fab.qcnt q
/-- A frame of `n` cells enters a queue's length. -/
def State.lenIn (s : State) (q n : Nat) : State :=
  { s with fab := { s.fab with qlen := SMap.put (fun _ => 0) s.fab.qlen q (s.qLen q + n),
                               qcnt := SMap.put (fun _ => 0) s.fab.qcnt q (s.qCnt q + 1) } }
/-- A frame of `n` cells leaves a queue's length. -/
def State.lenOut (s : State) (q n : Nat) : State :=
  { s with fab := { s.fab with qlen := SMap.put (fun _ => 0) s.fab.qlen q (s.qLen q - n),
                               qcnt := SMap.put (fun _ => 0) s.fab.qcnt q (s.qCnt q - 1) } }
/-- The cells of a frame. -/
def State.ncells (s : State) (f : Nat) : Nat :=
  match s.frame? f with
  | some x => x.cells.length
  | none => 0

/-- Q at the start of the CD23 cycle (R203). -/
def State.qSnap (s : State) (q : Nat) : Nat := SMap.get (fun _ => 0) s.fab.snapLen q
/-- Q as the tests of packet lane 1 see it: sampled at the cycle's start, with what lane 0 of the pipeline has admitted (R203). -/
def State.qSeen (s : State) (pipe q : Nat) : Nat :=
  (s.fab.snapOwn.filter (fun e => decide (e.1 = pipe ∧ e.2.1 = q))).foldl (fun k e => k + e.2.2) (s.qSnap q)
/-- What lane 0 of a pipeline admits in this cycle, for its lane 1. -/
def State.noteOwn (s : State) (pipe q n : Nat) : State :=
  { s with fab := { s.fab with snapOwn := (pipe, q, n) :: s.fab.snapOwn } }

/-- Admitted and dropped traffic of a queue (R200, R207). -/
def State.countAdmit (s : State) (q len : Nat) : State := (s.count (Ctr.queue q 0x00) 1).count (Ctr.queue q 0x08) len
def State.countDrop (s : State) (q len : Nat) : State := (s.count (Ctr.queue q 0x10) 1).count (Ctr.queue q 0x18) len

/-! ### Enables and status (R201, R220) -/

/-- EN of a queue's byte in `CB_QCFG`. -/
def State.qEn (s : State) (q : Nat) : Bool := bitOf (s.reg (0xC10000 + q / 4 * 4)).toNat (8 * (q % 4) + 7)
def State.qProf (s : State) (q : Nat) : Nat := bitsOf (s.reg (0xC10000 + q / 4 * 4)).toNat (8 * (q % 4)) 5
/-- `CB_QSTAT`: STATE and LEN (R201, R241). -/
def State.qState (s : State) (q : Nat) : Nat := if s.qEn q then 1 else if 0 < s.qLen q then 2 else 0
def State.qStat (s : State) (q : Nat) : Word := w32 (s.qState q * 2 ^ 30 + s.qLen q)

/-! ### Fabric state (R223, R228) -/

def fbVoq : Nat := 0
def fbEntering : Nat := 1
def fbFoundry : Nat := 2
def fbLeaving : Nat := 3
def State.fbState (s : State) : Nat := s.fld Fld.FB_MODE_STATUS_STATE

/-- Whether cells come from any region and F is that of all regions: FOUNDRY and LEAVING (R225). -/
def State.shared (s : State) : Bool := decide (s.fbState = fbFoundry) || decide (s.fbState = fbLeaving)
/-- Whether stage 6 places unicast frames in Foundry lists: from the cycle that enters ENTERING until the one that enters LEAVING (R229). -/
def State.useLists (s : State) : Bool := decide (s.fbState = fbEntering) || decide (s.fbState = fbFoundry)

/-- The pool of a pipeline's region; none for a region without banks (R191, R432). -/
def State.regionPool (s : State) (i : Nat) : Option Nat :=
  if s.fld (Fld.CB_REGION_NBANKS i) = 0 then none else some (s.fld (Fld.CB_REGION_POOL i))
/-- FREE of a region's pool; 0 without banks. -/
def State.regionFree (s : State) (i : Nat) : Nat := match s.regionPool i with | some n => s.poolFree n | none => 0
def State.regionFreeSnap (s : State) (i : Nat) : Nat := match s.regionPool i with | some n => s.poolFreeSnap n | none => 0
/-- The sum of the eight regions' free cells (R225, `FB_FDY_FREE`). -/
def State.fdyFree (s : State) : Nat := (List.range 8).foldl (fun k i => k + s.regionFree i) 0
/-- F of the threshold test for a frame whose cells come from a pool (R191, R223, R248), as sampled for the cycle. -/
def State.freeFor (s : State) (pool : Nat) : Nat :=
  if s.shared then (List.range 8).foldl (fun k i => k + s.regionFreeSnap i) 0 else s.poolFreeSnap pool

/-! ### Threshold and WRED (R202 to R206) -/

/-- k of a queue profile: two's complement, cut to -7 to +3. -/
def alphaOf (v : Nat) : Int :=
  if v < 4 then (v : Int) else if v < 8 then 3 else if v = 8 then -7 else (v : Int) - 16

/-- The threshold test of a queue for `n` cells with Q and F (R202), under the active copy of its profile. -/
def State.threshOk (s : State) (q qn n f : Nat) : Bool :=
  let p := s.qProf q
  let k := alphaOf (s.afld (Fld.CB_QPROF0_ALPHA p))
  let t := if 0 ≤ k then f * 2 ^ k.toNat else f / 2 ^ (-k).toNat
  let mx := min (s.afld (Fld.CB_QPROF2_MAX_CELLS p)) 524288
  (decide (qn < s.afld (Fld.CB_QPROF1_MIN_CELLS p)) || decide (qn < t)) && decide (qn + n ≤ mx)

/-- One step of the Fibonacci LFSR with taps x^16 + x^14 + x^13 + x^11 + 1 (R205). It shifts to the right and the sum of the taps enters at bit 15; R205 gives
the polynomial and no direction (DESIGN CHOICE, notes/assumptions/18.md). -/
def lfsrStep (x : Nat) : Nat :=
  let b := (x ^^^ (x / 4) ^^^ (x / 8) ^^^ (x / 32)) % 2
  x / 2 + b * 2 ^ 15
def State.lfsr (s : State) (i : Nat) : Nat := SMap.get (fun _ => 0xACE1) s.fab.lfsr i
def State.setLfsr (s : State) (i v : Nat) : State := { s with fab := { s.fab with lfsr := SMap.put (fun _ => 0xACE1) s.fab.lfsr i v } }

/-- What WRED decides. -/
inductive Wred where
  | pass
  | mark
  | refuse
  deriving DecidableEq, Repr

/-- The WRED test of an egress queue by pipeline `i` for a frame's colour and ECT: the average moves first, then the decision (R204 to R206). -/
def State.wred (s : State) (i q qn colour : Nat) (ect : Bool) : Wred × State :=
  let p := s.qProf q
  if s.afld (Fld.CB_QPROF0_WRED_EN p) = 0 then (.pass, s)
  else
    let x := s.afld (Fld.CB_QPROF0_WRED_PROF p) * 3 + min colour 2
    let a0 := SMap.get (fun _ => 0) s.fab.wredAvg q
    let a := if qn = 0 then 0
             else ((a0 : Int) + ((qn : Int) - (a0 : Int)).fdiv ((2 ^ s.fld (Fld.CB_WRED2_WEIGHT x) : Nat) : Int)).toNat
    let s1 := { s with fab := { s.fab with wredAvg := SMap.put (fun _ => 0) s.fab.wredAvg q a } }
    let mn := s.fld (Fld.CB_WRED0_MIN x)
    let mx := s.fld (Fld.CB_WRED1_MAX x)
    if mx ≤ a then (.refuse, s1)
    else if a < mn then (.pass, s1)
    else
      let r := lfsrStep (s.lfsr i)
      let s2 := s1.setLfsr i r
      if r < s.fld (Fld.CB_WRED2_MAXP x) * 256 * (a - mn) / (mx - mn) then
        if s.afld (Fld.CB_QPROF0_ECN_EN p) = 1 ∧ ect then (.mark, s2) else (.refuse, s2)
      else (.pass, s2)

/-! ### Hold of a port (R236 to R239) -/

def holdUp : Nat := 0
def holdHold : Nat := 1
def holdFlush : Nat := 2

/-- Whether a port is down for the port-down hold (R236). -/
def State.portDown (s : State) (p : Nat) : Bool :=
  decide (s.fld (Fld.PT_STATUS_LINK p) = 0) ||
  (decide (s.afld (Fld.PT_MODE_CRF p) = 1) && decide (s.fld (Fld.LF_CTRL_FORCE_AIS p) = 1))

/-- HOLD_MS of a port, 1,000 at most (R243). -/
def State.holdMs (s : State) (p : Nat) : Nat := min (s.fld (Fld.PT_HOLD_HOLD_MS p)) 1000

/-- Every frame queued for a port is doomed (R238): in its egress queues, and on the way there. -/
def State.doomPort (s : State) (p : Nat) : State :=
  { s with fab := { s.fab with queues := s.fab.queues.map (fun e =>
      (e.1, e.2.map (fun x => if x.port = p ∧ x.left = [] then { x with doomed := true } else x))) } }

/-- A port goes down: its hold starts, or with HOLD_MS 0 its frames are doomed at once (R238). -/
def State.holdStart (s : State) (p : Nat) : State :=
  if (s.port p).hold = holdUp then
    let s1 := s.count (Ctr.port p 0x3A0) 1
    if s.holdMs p = 0 then (s1.setPort p { s1.port p with hold := holdFlush, holdAt := s.now }).doomPort p
    else s1.setPort p { s1.port p with hold := holdHold, holdAt := s.now, holdMin := 0 }
  else s

/-- A port comes up: within its hold it counts a return, and its queues resume (R238). -/
def State.holdReturn (s : State) (p : Nat) : State :=
  if (s.port p).hold = holdHold then (s.count (Ctr.port p 0x3A8) 1).setPort p { s.port p with hold := holdUp }
  else if (s.port p).hold = holdFlush then s.setPort p { s.port p with hold := holdUp }
  else s

/-- The state after something that may take a port down or bring it up: the hold follows the event, not the level (R238). -/
def State.holdStep (s : State) (p : Nat) (t : State) : State :=
  if t.portDown p = s.portDown p then t else if t.portDown p then t.holdStart p else t.holdReturn p

/-- The milliseconds of a hold that have passed (R243 ELAPSED_MS). -/
def State.holdElapsed (s : State) (p : Nat) : Nat :=
  if (s.port p).hold = holdHold then (s.now - (s.port p).holdAt) / tMs else 0
/-- When a hold ends: as the elapsed time reaches HOLD_MS, or in the step of 1 ms after a write of HOLD_MS at or below it. -/
def State.holdEnd (s : State) (p : Nat) : Nat := (s.port p).holdAt + max (s.holdMs p) (s.port p).holdMin * tMs
/-- HOLD_MS has been written (R238). -/
def State.holdWrite (s : State) (p : Nat) : State :=
  if (s.port p).hold = holdHold then
    s.setPort p { s.port p with holdMin := if s.holdMs p ≤ s.holdElapsed p then s.holdElapsed p + 1 else 0 }
  else s

/-! ### Presence of ports (R21, R511) -/

def State.groupOn (s : State) (g : Nat) : Bool := bitOf s.isl.pg g
def State.portAbsent (s : State) (p : Nat) : Bool := !(s.groupOn (groupOf p))

/-! ### Entering queues -/

/-- A descriptor enters a queue behind the others. -/
def State.push (s : State) (q : Nat) (x : QEnt) : State := s.setQueue q (s.queue q ++ [x])

/-- A descriptor that reaches its egress queue: it waits there for Planish; a port in FLUSH dooms what is admitted (R217, R238). -/
def State.toEgress (s : State) (x : QEnt) : State := s.push x.eq x

/-! ### The fabric's fences (R229, R230) -/

/-- Whether the eight Foundry lists, or the 64 VOQs, of a port are empty. -/
def State.listsEmpty (s : State) (q : Nat) : Bool := (List.range 8).all (fun c => (s.queue (fdyId q c)).isEmpty)
def State.voqsEmpty (s : State) (q : Nat) : Bool :=
  (List.range 8).all (fun i => (List.range 8).all (fun c => (s.queue (voqId i q c)).isEmpty))
/-- Whether no VOQ, or no Foundry list, of the device holds a descriptor. -/
def State.noVoq (s : State) : Bool := s.fab.queues.all (fun e => !(decide (0x10000 ≤ e.1 ∧ e.1 < 0x12400)) || e.2.isEmpty)
def State.noList (s : State) : Bool := s.fab.queues.all (fun e => !(decide (0x13880 ≤ e.1 ∧ e.1 < 0x13D00)) || e.2.isEmpty)

def State.fenced (s : State) (q : Nat) : Bool := s.fab.fence.contains q
/-- `FB_FENCE[w]`. -/
def State.fenceWord (s : State) (w : Nat) : Word :=
  w32 ((s.fab.fence.filter (fun q => decide (q / 32 = w))).foldl (fun k q => k ||| 2 ^ (q % 32)) 0)

/-- The reasons present (R228). -/
def State.reasons (s : State) : Nat := s.fld Fld.FB_MODE_STATUS_REASON
def reasonSw : Nat := 1
def reasonCal : Nat := 2
def reasonTest : Nat := 4
def reasonFabric : Nat := 8
def reasonMem : Nat := 16

def State.setFb (s : State) (st : Nat) : State := s.setF Fld.FB_MODE_STATUS_STATE st

/-- In VOQ a reason present fences every port inward and enters ENTERING; in FOUNDRY, with no reason and a calibrated arbiter, every port is
fenced outward and the state goes to LEAVING (R229). In the other states a reason waits. -/
def State.fbMove (s : State) : State :=
  if s.fbState = fbVoq ∧ s.reasons ≠ 0 then
    { s.setFb fbEntering with fab := { s.fab with fence := List.range 144 } }
  else if s.fbState = fbFoundry ∧ s.reasons = 0 ∧ s.fld Fld.FB_MODE_STATUS_CAL_OK = 1 then
    { s.setFb fbLeaving with fab := { s.fab with fence := List.range 144 } }
  else s

/-- A reason appears or goes, and the state machine looks (R228, R229). -/
def State.addReason (s : State) (r : Nat) : State := (s.orF Fld.FB_MODE_STATUS_REASON r).fbMove
def State.dropReason (s : State) (r : Nat) : State :=
  (s.setF Fld.FB_MODE_STATUS_REASON (s.reasons - (s.reasons &&& r))).fbMove

end Sys2Proof.Machine
end

