-- ==== Sys2Proof/Machine/HostOps.lean ====
section
/-!
DEFINITION. Rings, positions, completions and records (chapter 13): what every user of a ring shares.
-/
namespace Sys2Proof.Machine

/-! ### Status codes (R393) and ring kinds (R368) -/

def stOk : Nat := 0x00
def stAborted : Nat := 0x01
def stChainTimeout : Nat := 0x02
def stBadChain : Nat := 0x03
def stBadLen : Nat := 0x04
def stBadField : Nat := 0x05
def stDmaErr : Nat := 0x06
def stNoBuf : Nat := 0x07
def stNotHolder : Nat := 0x08
def stRefused : Nat := 0x09
def stDiscarded : Nat := 0x0A
def stTruncated : Nat := 0x0B

def kindTx : Nat := 0
def kindRx : Nat := 1
def kindCmd : Nat := 2
def kindCq : Nat := 3
def kindSample : Nat := 4

def ringIdle : Nat := 0
def ringEnabled : Nat := 1
def ringDraining : Nat := 2

/-! ### Configuration of a ring -/

def State.rKind (s : State) (r : Nat) : Nat := s.fld (Fld.HI_RING_CFG_KIND r)
/-- N, the number of entries (R368). -/
def State.rN (s : State) (r : Nat) : Nat := 2 ^ s.fld (Fld.HI_RING_CFG_LOG2SIZE r)
def State.rCq (s : State) (r : Nat) : Nat := s.fld (Fld.HI_RING_CFG_CQ r)
def State.rBase (s : State) (r : Nat) : Nat := (s.reg (Reg.HI_RING_BASE_HI r)).toNat * 2 ^ 32 + (s.reg (Reg.HI_RING_BASE_LO r)).toNat
def State.rCfg2 (s : State) (r lo len : Nat) : Nat := bitsOf (s.reg (Reg.HI_RING_CFG2 r)).toNat lo len
def State.rPipe (s : State) (r : Nat) : Nat := s.rCfg2 r 29 3
def State.rPool (s : State) (r : Nat) : Nat := s.rCfg2 r 23 6
/-- SNAP, which an RX ring alone has (R394). -/
def State.rSnap (s : State) (r : Nat) : Nat := if s.rKind r = 1 then s.rCfg2 r 0 14 else 0
def State.rSubmits (s : State) (r : Nat) : Bool := decide (s.rKind r ≤ 2)
def State.rOn (s : State) (r : Nat) : Bool := decide ((s.ring r).state = ringEnabled)

/-- Entries from one position to another, modulo 2N (R370, R371). -/
def posDiff (n a b : Nat) : Nat := (a + 2 * n - b % (2 * n)) % (2 * n)

/-- Free entries of a completion ring: N less those from the host's head to the device's tail (R370). -/
def State.rFree (s : State) (r : Nat) : Nat := s.rN r - posDiff (s.rN r) (s.ring r).dev (s.ring r).host

/-- A ring sees an error: its bit of `HI_RING_CTRL`, the bit of the same name in `HI_INT_STATUS`, and `HI_ERR_RING` (R395). -/
def State.ringErr (s : State) (r : Nat) (f g : Fld) : State :=
  ((s.raise f).raise g).setF Fld.HI_ERR_RING_RING r
def State.ringCfgErr (s : State) (r : Nat) : State := s.ringErr r (Fld.HI_RING_CTRL_CFG_ERR r) Fld.HI_INT_STATUS_CFG_ERR
def State.ringDbErr (s : State) (r : Nat) : State :=
  (s.ringErr r (Fld.HI_RING_CTRL_DB_ERR r) Fld.HI_INT_STATUS_DB_ERR).count (Ctr.hi 0x00) 1
def State.ringDmaErr (s : State) (r : Nat) : State :=
  (s.ringErr r (Fld.HI_RING_CTRL_DMA_ERR r) Fld.HI_INT_STATUS_DMA_ERR).count (Ctr.hi 0x08) 1

/-- A ring's journal record (R421). -/
def State.ringJournal (s : State) (r sub origin : Nat) : State := s.journal 3 origin sub [r, (s.reg (Reg.HI_RING_CFG r)).toNat]

/-! ### Words to bytes (R6) -/

def wordsLe (ws : List Word) : List Byte := ws.foldr (fun w t => leBytes 4 w.toNat ++ t) []

/-! ### Writing a completion ring (R373, R377, R379, R380) -/

/-- The message of a completion ring that is due: `MOD_COUNT` entries, or at once (R380). -/
def State.cqCheck (s : State) (r : Nat) : State :=
  let x := s.ring r
  if s.rCfg2 r 31 1 = 1 ∧ 0 < x.u ∧ (max (s.rCfg2 r 8 8) 1 ≤ x.u ∨ s.rCfg2 r 0 8 = 0) then
    (s.setRing r { x with u := 0 }).msixSend (s.rCfg2 r 16 11)
  else s

/-- One entry is written at the device's position, with its PHASE (R373): words 0 to 2, then status, entry number, kind and ring (R377). -/
def State.cqEntry (s : State) (cq : Nat) (ws : List Word) (status ent kind ring : Nat) : State :=
  let x := s.ring cq
  let n := s.rN cq
  let phase := 1 - x.dev / n % 2
  let w3 := w32 (phase * 2 ^ 31 + status * 2 ^ 24 + ent * 2 ^ 22 + kind * 2 ^ 18 + ring)
  let size := 16
  let s1 := s.emit (.dma (s.rBase cq + (x.dev % n) * size) (wordsLe [ws.getD 0 0, ws.getD 1 0, ws.getD 2 0, w3]))
  s1.setRing cq { x with dev := (x.dev + 1) % (2 * n), u := x.u + 1, uAt := if x.u = 0 then s.now else x.uAt }

/-- A record of several entries, in order, each with the message that is due after it. -/
def State.cqRecord (s : State) (cq : Nat) (ents : List (List Word)) (status kind ring : Nat) : State :=
  (List.range ents.length).foldl (fun s i => (s.cqEntry cq (ents.getD i []) status i kind ring).cqCheck cq) s

/-- A record for a SAMPLE ring; false where it finds too few free entries, or the ring disabled or of another kind (R379, R390), or where the function may send
nothing. -/
def State.samplePost (s : State) (r : Nat) (ents : List (List Word)) (kind : Nat) : Bool × State :=
  if s.pciRuns ∧ s.rOn r ∧ s.rKind r = kindSample ∧ ents.length ≤ s.rFree r then (true, s.cqRecord r ents 0 kind r)
  else (false, s)

/-! ### Jobs and their completions (R376 to R379, R384) -/

def State.waitingOf (s : State) (cq : Nat) : List (Nat × List Word × Nat × Nat) := SMap.get (fun _ => []) s.hi.waiting cq
def State.setWaiting (s : State) (cq : Nat) (l : List (Nat × List Word × Nat × Nat)) : State :=
  { s with hi := { s.hi with waiting := SMap.put (fun _ => []) s.hi.waiting cq l } }

/-- The completions of the finished jobs at the front of a ring go to its CQ, in job order (R378). -/
def State.flushJobs (s : State) (r : Nat) : Nat → State
  | 0 => s
  | k + 1 =>
    match (s.ring r).jobs with
    | [] => s
    | j :: t =>
      match j.done with
      | none => s
      | some (status, w0, w1, _) =>
        let cq := s.rCq r
        let w2 := w32 (j.last % 2 ^ 16 * 2 ^ 16 + j.tag)
        ((s.setRing r { s.ring r with jobs := t }).setWaiting cq
          (s.waitingOf cq ++ [(r, [w32 w0, w32 w1, w2], status, s.rKind r)])).flushJobs r k

/-- A job ends with a status and words 0 and 1; a job that has ended keeps its first status (R391). -/
def State.jobEnd (s : State) (r num status w0 w1 : Nat) : State :=
  let x := s.ring r
  let s1 := s.setRing r { x with jobs := x.jobs.map (fun j =>
    if j.num = num ∧ j.done = none then { j with done := some (status, w0, w1, 0) } else j) }
  s1.flushJobs r (x.jobs.length)

/-- A TX job whose frame was never admitted ends: DROP counters of the ring's identifier (R384). -/
def State.txDrop (s : State) (r num status w0 len : Nat) : State := (s.countDrop (hostQ r) len).jobEnd r num status w0 0

/-- A frame of a host ring is discarded after admission: DISCARDED, if its completion waits for it (R384). -/
def State.hostDiscard (s : State) (x : Frame) : State :=
  match x.host with
  | none => s
  | some h => if h.tsReq then s.jobEnd h.ring h.job stDiscarded 0 0 else s

/-- The 64-bit time of rings (R381): seconds bits 15:0, nanoseconds, fraction with a resolution of 0.25 ns. -/
def ts64 (t : Nat) : Nat :=
  let ns := t / 2 ^ 16
  (ns / 1000000000) % 2 ^ 16 * 2 ^ 48 + (ns % 1000000000) * 2 ^ 16 + t % 2 ^ 16 / 2 ^ 14 * 2 ^ 14

/-! ### References (R212) -/

/-- The last reference to a frame goes: its cells and its descriptor go back. A host frame whose completion still waits has been discarded with its last
copy (R384). -/
def State.lastRef (s : State) (f : Nat) (x : Frame) : State := (s.hostDiscard x).freeFrame f
/-- A reference to a frame goes; the last one frees it (R212). -/
def State.decRef (s : State) (f : Nat) : State :=
  match s.frame? f with
  | none => s
  | some x => if x.ref ≤ 1 then s.lastRef f x else s.setFrame f { x with ref := x.ref - 1 }
/-- References are added to a frame, or the last one goes (R212: `+ (k - 1)`). -/
def State.addRef (s : State) (f : Nat) (d : Int) : State :=
  match s.frame? f with
  | none => s
  | some x => if (x.ref : Int) + d ≤ 0 then s.lastRef f x else s.setFrame f { x with ref := ((x.ref : Int) + d).toNat }

/-! ### A frame leaves the device's queues without being sent -/

/-- A frame leaves an egress queue's length and gives up its reference (R199, R212); a multicast copy returns its record (R210). The port's
queues have been empty since then, if they are. -/
def State.leaveEgress (s : State) (x : QEnt) : State :=
  let s1 := s.lenOut x.eq (s.ncells x.fid)
  let s2 := if x.copy then { s1 with fab := { s1.fab with mcUsed := s1.fab.mcUsed - 1 } } else s1
  let s3 := if x.port < 144 then s2.setPort x.port { s2.port x.port with emptyAt := s2.now } else s2
  s3.decRef x.fid

/-- A queued frame is discarded: its host job, its queue and its reference. -/
def State.discard (s : State) (x : QEnt) : State :=
  match s.frame? x.fid with
  | none => s.leaveEgress x
  | some f => (if x.mirror.isSome then s else s.hostDiscard f).leaveEgress x

/-- The length of a queued frame (R8). -/
def State.lenOf (s : State) (f : Nat) : Nat :=
  match s.frame? f with
  | some x => x.data.length
  | none => 0

end Sys2Proof.Machine
end

