-- ==== Sys2Proof/Machine/Tables.lean ====
section
/-!
DEFINITION. The tables of the lookup planes (chapter 6): indexed tables, the MAC table, learning, aging, notifications, and the table commands; and the
commands on Filigree entries and payload patterns (R135, R147).
-/
namespace Sys2Proof.Machine

/-! ### Planes (R523) -/

/-- Whether a plane's pair island is enabled. -/
def State.planeOn (s : State) (k : Nat) : Bool := bitOf s.isl.pair k
def State.planesOn (s : State) : List Nat := (List.range 4).filter (fun k => s.planeOn k)

/-! ### Indexed tables (R155, R164, R165) -/

def tMac : Nat := 0
def tDwell : Nat := 1
def tPvmap : Nat := 2
def tSvid : Nat := 3
def tVlan : Nat := 4
def tMcg : Nat := 5

/-- The number of entries of an indexed table. -/
def tblSize (t : Nat) : Nat :=
  if t = 1 then 16384 else if t = 2 then 524288 else if t = 3 then 256 else if t = 4 then 4096 else if t = 5 then 8192 else 0
/-- An entry's data words TC3 to TC7 at reset: the Reset columns of R164. -/
def tblReset (key : Nat) : List Word := if key / 2 ^ 20 = 1 then [0, 0, 0x40000000, 0, 0] else [0, 0, 0, 0, 0]

def State.tblEnt (s : State) (t i : Nat) : List Word := SMap.get tblReset s.pt.tbl (t * 2 ^ 20 + i)
def State.setTbl (s : State) (t i : Nat) (ws : List Word) : State :=
  { s with pt := { s.pt with tbl := SMap.put tblReset s.pt.tbl (t * 2 ^ 20 + i) ws } }
/-- Word `w` (0 is TC3) of an entry as a number. -/
def State.tblW (s : State) (t i w : Nat) : Nat := ((s.tblEnt t i).getD w 0).toNat

/-- Fields of a DWELL entry. -/
def State.dwValid (s : State) (d : Nat) : Bool := bitOf (s.tblW tDwell d 0) 31
def State.dwLocal (s : State) (d : Nat) : Bool := bitOf (s.tblW tDwell d 0) 30
def State.dwLearn (s : State) (d : Nat) : Bool := bitOf (s.tblW tDwell d 0) 29
def State.dwUpLag (s : State) (d : Nat) : Bool := bitOf (s.tblW tDwell d 0) 28
def State.dwUp (s : State) (d : Nat) : Nat := bitsOf (s.tblW tDwell d 0) 20 8
def State.dwFid (s : State) (d : Nat) : Nat := bitsOf (s.tblW tDwell d 0) 0 14
def State.dwDnMode (s : State) (d : Nat) : Nat := bitsOf (s.tblW tDwell d 1) 30 2
def State.dwDnTpid (s : State) (d : Nat) : Nat := bitsOf (s.tblW tDwell d 1) 28 2
def State.dwDrop (s : State) (d : Nat) : Nat := bitsOf (s.tblW tDwell d 1) 20 7
def State.dwDnVid (s : State) (d : Nat) : Nat := bitsOf (s.tblW tDwell d 1) 0 12
def State.dwUpTpid (s : State) (d : Nat) : Nat := bitsOf (s.tblW tDwell d 2) 30 2
def State.dwUpCvid (s : State) (d : Nat) : Nat := bitsOf (s.tblW tDwell d 2) 16 12
def State.dwUpSvid (s : State) (d : Nat) : Nat := bitsOf (s.tblW tDwell d 2) 0 12

/-- Whether a multicast group is in service, strips, and the ports of a group, rising; `none` for a group that is not valid. -/
def State.mcgValid (s : State) (g : Nat) : Bool := bitOf (s.tblW tMcg g 4) 31
def State.mcgStrip (s : State) (g : Nat) : Bool := bitOf (s.tblW tMcg g 4) 30
def State.mcgHas (s : State) (g q : Nat) : Bool :=
  if q < 128 then bitOf (s.tblW tMcg g (q / 32)) (q % 32) else bitOf (s.tblW tMcg g 4) (q - 128)
def State.mcgPorts (s : State) (g : Nat) : Option (List Nat) :=
  if s.mcgValid g then some ((List.range 144).filter (fun q => s.mcgHas g q)) else none

/-- Whether an entry of an indexed table is valid for NEXT (R181). -/
def tblValid (t : Nat) (ws : List Word) : Bool :=
  if t = 2 then (let k := (ws.getD 0 0).toNat / 2 ^ 30; decide (k = 1 ∨ k = 2))
  else if t = 5 then bitOf (ws.getD 4 0).toNat 31
  else bitOf (ws.getD 0 0).toNat 31

/-! ### The MAC table (R166 to R168) -/

def macKey (domain mac : Nat) : Nat := domain % 65536 * 2 ^ 48 + mac % 2 ^ 48
def macDk (data : Nat) : Nat := bitsOf data 24 2
def macDest (data : Nat) : Nat := bitsOf data 0 14
def macStatic (data : Nat) : Bool := bitOf data 30
def macAge (data : Nat) : Nat := bitsOf data 28 2
def macData (static_ : Bool) (age dk dest : Nat) : Nat := b2n static_ * 2 ^ 30 + age * 2 ^ 28 + dk * 2 ^ 24 + dest

def State.macAt (s : State) (k pos : Nat) : MacEnt := SMap.get (fun _ => MacEnt.empty) s.pt.mac (k * 2 ^ 19 + pos)
def State.setMac (s : State) (k pos : Nat) (e : MacEnt) : State :=
  { s with pt := { s.pt with mac := SMap.put (fun _ => MacEnt.empty) s.pt.mac (k * 2 ^ 19 + pos) e } }
/-- The entries of a plane, by position, rising. -/
def State.macList (s : State) (k : Nat) : List (Nat × MacEnt) :=
  (s.pt.mac.filter (fun e => decide (k * 2 ^ 19 ≤ e.1 ∧ e.1 < (k + 1) * 2 ^ 19))).map (fun e => (e.1 - k * 2 ^ 19, e.2))
/-- The bucket of a key under the plane's seed (R167). -/
def State.macBucket (s : State) (k key : Nat) : Nat := crcMsb 0x04C11DB7 (s.fld (Fld.LP_MAC_SEED_SEED k)) (beBytes 8 key) % 65536
/-- The entries that overflow holds. -/
def State.overflow (s : State) (k : Nat) : List (Nat × MacEnt) := (s.macList k).filter (fun e => decide (262144 ≤ e.1))
/-- The entry that a lookup finds: in its bucket or in overflow. -/
def State.macFind (s : State) (k key : Nat) : Option (Nat × MacEnt) :=
  let b := s.macBucket k key
  (((List.range 4).map (fun w => (4 * b + w, s.macAt k (4 * b + w)))) ++ s.overflow k).find? (fun e => decide (e.2.key = key))
/-- The position that a new entry takes: the lowest free way, then the lowest free overflow entry (R168). -/
def State.macFree (s : State) (k key : Nat) : Option Nat :=
  let b := s.macBucket k key
  match (List.range 4).find? (fun w => decide (s.macAt k (4 * b + w) = MacEnt.empty)) with
  | some w => some (4 * b + w)
  | none => (List.range ((s.overflow k).length + 1)).findSome? (fun j =>
      if j < 2048 ∧ s.macAt k (262144 + j) = MacEnt.empty then some (262144 + j) else none)

/-! ### Notifications (R175, R390) -/

def evLearn : Nat := 0
def evMove : Nat := 1
def evAged : Nat := 2

/-- A record of a learn, a move or an aging deletion for the plane's notify ring. -/
def State.macNotify (s : State) (k ev key : Nat) (old new : Option Nat) : State :=
  if s.bit (Fld.LP_LEARN_CTRL_NOTIFY_EN k) then
    let d (x : Option Nat) : Nat := match x with | some v => macDk v * 2 ^ 14 + macDest v | none => 0
    let e0 := [w32 key, w32 (key / 2 ^ 48 * 2 ^ 16 + key / 2 ^ 32 % 2 ^ 16), w32 (d old * 2 ^ 16 + d new)]
    let e1 := [w32 s.hmSec, w32 (ev * 2 ^ 30 + s.hmNs % 1000000000), w32 (b2n new.isSome * 8 + b2n old.isSome * 4 + k)]
    match s.samplePost (s.fld (Fld.LP_LEARN_CTRL_NOTIFY_RING k)) [e0, e1] 4 with
    | (true, s1) => s1
    | (false, s1) => s1.count (Ctr.plane k 0x70) 1
  else s

/-! ### Learning (R170 to R172) -/

def State.learn (s : State) (k : Nat) : Learn := SMap.get (fun _ => Learn.reset) s.pt.learn k
def State.setLearn (s : State) (k : Nat) (x : Learn) : State :=
  { s with pt := { s.pt with learn := SMap.put (fun _ => Learn.reset) s.pt.learn k x } }
/-- BURST in token units; 0 acts as 1. -/
def State.learnBurst (s : State) (k : Nat) : Nat := max (s.fld (Fld.LP_LEARN_RATE_BURST k)) 1 * tMs
/-- Tokens accrue at RATE per millisecond up to BURST. -/
def State.learnRefill (s : State) (k : Nat) : State :=
  let x := s.learn k
  s.setLearn k { x with tok := min (s.learnBurst k) (x.tok + s.fld (Fld.LP_LEARN_RATE_RATE k) * (s.now - x.tokAt)), tokAt := s.now }
/-- A write of `LP_LEARN_RATE`: tokens above a lower BURST are clipped at once, and accrue at the new RATE from now on. -/
def State.learnRateWrite (s : State) (k : Nat) (v : Word) : State :=
  let s1 := (s.learnRefill k).setReg (Reg.LP_LEARN_RATE k) (v &&& 0x00FF0FFF#32)
  let x := s1.learn k
  s1.setLearn k { x with tok := min x.tok (s1.learnBurst k) }

/-- A learn request is queued: one for a key, 64 at most (R172). -/
def State.learnRequest (s : State) (k key dest : Nat) : State :=
  let x := s.learn k
  if x.reqs.any (fun r => decide (r.1 = key)) then s
  else if x.reqs.length < 64 then s.setLearn k { x with reqs := x.reqs ++ [(key, dest)] }
  else s.count (Ctr.plane k 0x48) 1
/-- The oldest request is served when a token is there (R172). -/
def State.learnServe (s0 : State) (k : Nat) : State :=
  let s := s0.learnRefill k
  let x := s.learn k
  match x.reqs with
  | [] => s
  | r :: t =>
    if x.tok < tMs ∨ s.fld (Fld.LP_LEARN_RATE_RATE k) = 0 then s
    else
      let s1 := s.setLearn k { x with reqs := t, tok := x.tok - tMs }
      match s1.macFind k r.1 with
      | some _ => s1
      | none =>
        match s1.macFree k r.1 with
        | none => s1.count (Ctr.plane k 0x50) 1
        | some p => ((s1.setMac k p ⟨r.1, r.2⟩).count (Ctr.plane k 0x40) 1).macNotify k evLearn r.1 none (some r.2)

/-- A source hit on a position is kept for a sweep of the same cycle (R183). -/
def State.noteHit (s : State) (k p : Nat) : State :=
  let x := s.learn k
  s.setLearn k { x with hitCyc := s.cyc23, hits := if x.hitCyc = s.cyc23 then p :: x.hits else [p] }
/-- A hit wins over a sweep of the same cycle: an entry that this sweep has deleted is there again, and no longer counted (R183). -/
def State.unAge (s : State) (k key : Nat) : State :=
  let x := s.learn k
  match (if x.agedCyc = s.cyc23 then x.aged.find? (fun e => decide (e.2.key = key)) else none) with
  | some e => if s.macAt k e.1 = MacEnt.empty then
      (s.setMac k e.1 e.2).setCtr (Ctr.plane k 0x68) (s.ctr (Ctr.plane k 0x68) + 2 ^ 64 - 1) else s
  | none => s

/-- The source lookup of a frame (R171): `dest` is DEST_KIND and DEST as in TC3. The answer says whether the frame is dropped (STATIC_DROP). -/
def State.sourceLookup (s0 : State) (k key dest : Nat) (enabled : Bool) : Bool × State :=
  let s1 := s0.unAge k key
  let s := match s1.macFind k key with
    | some (p, _) => s1.noteHit k p
    | none => s1
  match s.macFind k key with
  | some (p, e) =>
    if macDk e.data = macDk dest ∧ macDest e.data = macDest dest then
      (false, s.setMac k p { e with data := setBits e.data 28 2 0 })
    else if macStatic e.data then (s.bit (Fld.LP_LEARN_CTRL_STATIC_DROP k), s.count (Ctr.plane k 0x60) 1)
    else (false, ((s.setMac k p { e with data := dest }).count (Ctr.plane k 0x58) 1).macNotify k evMove key (some e.data) (some dest))
  | none => if enabled then (false, s.learnRequest k key dest) else (false, s)

/-! ### Aging and flushes (R173, R174, R181) -/

/-- The positions of a plane that source hits have refreshed in this cycle. -/
def State.hitsNow (s : State) (k : Nat) : List Nat := if (s.learn k).hitCyc = s.cyc23 then (s.learn k).hits else []
/-- One sweep: dynamic entries at AGE 3 go, the others grow older, but for those hit in the same cycle (R183). -/
def State.ageSweep (s0 : State) (k : Nat) : State :=
  let gone := (s0.macList k).filter (fun e => !(macStatic e.2.data) && decide (macAge e.2.data = 3) && !((s0.hitsNow k).contains e.1))
  let s := s0.setLearn k { s0.learn k with agedCyc := s0.cyc23, aged := gone }
  (s.macList k).foldl (fun s e =>
    if macStatic e.2.data || (s0.hitsNow k).contains e.1 then s
    else if macAge e.2.data = 3 then
      ((s.setMac k e.1 MacEnt.empty).count (Ctr.plane k 0x68) 1).macNotify k evAged e.2.key (some e.2.data) none
    else s.setMac k e.1 { e.2 with data := setBits e.2.data 28 2 (macAge e.2.data + 1) }) s
/-- A sweep is due every PERIOD seconds of the plane's own timer. -/
def State.agingSweep (s : State) (k : Nat) : State :=
  let per := s.fld (Fld.LP_AGE_CTRL_PERIOD k) * tSec
  let x := s.learn k
  let from_ := max x.sweepAt s.isl.upAt
  if 0 < per ∧ from_ + per ≤ s.now then (s.setLearn k { x with sweepAt := from_ + per }).ageSweep k else s
/-- A write of PERIOD starts the timer anew. -/
def State.agePeriodWrite (s : State) (k : Nat) (v : Word) : State :=
  (s.setReg (Reg.LP_AGE_CTRL k) (v &&& 0x0000FFFF#32)).setLearn k { s.learn k with sweepAt := s.now }

/-- The filter of R181 on a MAC entry; `useDest` is false for FLUSH_ALL. -/
def macPasses (tc2 tc3 : Nat) (useDest : Bool) (e : MacEnt) : Bool :=
  (if macStatic e.data then bitOf tc3 30 else bitOf tc3 31) &&
  (!(bitOf tc3 29) || decide (e.key / 2 ^ 48 = tc2 % 65536)) &&
  (!(useDest && bitOf tc3 28) || (decide (macDk e.data = bitsOf tc3 24 2) && decide (macDest e.data = bitsOf tc3 0 14)))
/-- Every qualifying entry of a plane is deleted; the answer is how many. -/
def State.macFlush (s : State) (k tc2 tc3 : Nat) (useDest : Bool) : Nat × State :=
  let es := (s.macList k).filter (fun e => macPasses tc2 tc3 useDest e.2)
  (es.length, es.foldl (fun s e => s.setMac k e.1 MacEnt.empty) s)

/-- LINK of a port falls: the planes that ask for it delete the port's dynamic entries, with one journal record (R174). -/
def State.flushOnDown (s : State) (p : Nat) : State :=
  let ks := s.planesOn.filter (fun k => s.bit (Fld.LP_LEARN_CTRL_FLUSH_ON_DOWN k))
  if ks = [] then s
  else
    let r := ks.foldl (fun (a : Nat × State) k =>
      let f := a.2.macFlush k 0 (0x90000000 + p) true
      (a.1 + f.1, f.2.count (Ctr.plane k 0x68) f.1)) (0, s)
    let nib := (List.range 4).foldl (fun v k => v + (if ks.contains k then 0 else 0xF) * 2 ^ (4 * k)) 0
    r.2.journal 2 orgInternal 0 [0x51000000, 0x90000000 + p, 0, nib * 2 ^ 16 + min r.1 0xFFFF]

/-! ### Table commands (R176 to R186) -/

def rsOk : Nat := 0
def rsReplaced : Nat := 1
def rsNotFound : Nat := 2
def rsFull : Nat := 3
def rsBadArg : Nat := 4
def rsEnd : Nat := 5
def rsMore : Nat := 6
def rsNone : Nat := 15

/-- The fields of TC0 and the words of a command (R177). -/
structure TC where
  w : List Word

def TC.n (t : TC) (i : Nat) : Nat := (t.w.getD i 0).toNat
def TC.op (t : TC) : Nat := bitsOf (t.n 0) 28 4
def TC.table (t : TC) : Nat := bitsOf (t.n 0) 25 3
def TC.bcast (t : TC) : Bool := bitOf (t.n 0) 24
def TC.plane (t : TC) : Nat := bitsOf (t.n 0) 22 2
def TC.tag (t : TC) : Nat := bitsOf (t.n 0) 0 16
def TC.key (t : TC) : Nat := (t.n 2) * 2 ^ 32 + t.n 1
def TC.index (t : TC) : Nat := t.n 1 % 2 ^ 19
/-- The key's DOMAIN in bits 31:16 of TC2 and its MAC make the 64-bit key. -/
def TC.domain (t : TC) : Nat := t.n 2 / 2 ^ 16

/-- A DOMAIN of a valid kind (R164). -/
def domainOk (d : Nat) : Bool := decide (d / 2 ^ 14 = 0) || (decide (d / 2 ^ 14 = 1) && decide (d / 4096 % 4 = 0))
/-- A DEST in range of its kind. -/
def destOk (dk dest : Nat) : Bool :=
  if dk = 0 then decide (dest < 144) else if dk = 1 then decide (dest < 64) else if dk = 2 then true else decide (dest < 8192)

/-- An INSERT's data within the ranges of the entry tables, reserved bits and unused words 0 (R179). -/
def insertOk (t : TC) : Bool :=
  let z (w lo len : Nat) : Bool := decide (bitsOf (t.n w) lo len = 0)
  let w0 (w : Nat) : Bool := decide (t.n w = 0)
  if t.table = tMac then z 3 26 2 && z 3 14 10 && destOk (bitsOf (t.n 3) 24 2) (bitsOf (t.n 3) 0 14) && w0 4 && w0 5 && w0 6 && w0 7
  else if t.table = tDwell then
    z 3 14 6 && (if bitOf (t.n 3) 28 then decide (bitsOf (t.n 3) 20 8 < 64) else decide (bitsOf (t.n 3) 20 8 < 144)) &&
    z 4 27 1 && z 4 12 8 && z 5 28 2 && z 5 12 4 && w0 6 && w0 7
  else if t.table = tPvmap then
    z 3 14 16 && (!(decide (t.n 3 / 2 ^ 30 = 2)) || z 3 12 2) && w0 4 && w0 5 && w0 6 && w0 7
  else if t.table = tSvid then z 3 14 17 && w0 4 && w0 5 && w0 6 && w0 7
  else if t.table = tVlan then z 3 13 17 && w0 4 && w0 5 && w0 6 && w0 7
  else z 7 16 14

/-- Whether a command is answered BAD_ARG (R178, R179, R181, R523). -/
def State.badArg (s : State) (t : TC) : Bool :=
  if t.op = 0 ∨ 6 < t.op ∨ 5 < t.table then true
  else if (t.op = 3 ∨ t.op = 4) ∧ t.bcast then true
  else if t.table = tMac then
    (!(t.bcast) && !(s.planeOn t.plane)) ||
    (decide (t.op ≤ 3) && !(domainOk t.domain)) ||
    (decide (4 ≤ t.op) && bitOf (t.n 3) 29 && !(domainOk (t.n 2 % 65536))) ||
    (decide (t.op = 1) && !(insertOk t)) ||
    (decide (t.op = 5) && !(bitOf (t.n 3) 28))
  else
    decide (5 ≤ t.op) ||
    (decide (t.op ≤ 3) && decide (tblSize t.table ≤ t.index)) ||
    (decide (t.op = 1) && !(insertOk t)) ||
    ((decide (t.op = 3) || decide (t.op = 4)) && !(s.planeOn t.plane))

/-- A MAC command on one plane: status, words TR1 to TR7, entries deleted, and the state. The spec says of SEARCH and NEXT that TR3 returns VALID; an
INSERT answers TR3 with the entry as stored, VALID 1, and with 0 where the table is full (DESIGN CHOICE, notes/assumptions/15.md). -/
def State.macCommand (s : State) (t : TC) (k : Nat) : Nat × List Nat × Nat × State :=
  if t.op = 1 then
    let d := t.n 3 % 2 ^ 31
    let data := if macStatic d then d else setBits d 28 2 0
    match s.macFind k t.key with
    | some (p, e) => (rsReplaced, [t.n 1, t.n 2, data + 2 ^ 31], 0, s.setMac k p { e with data := data })
    | none =>
      match s.macFree k t.key with
      | some p => (rsOk, [t.n 1, t.n 2, data + 2 ^ 31], 0, s.setMac k p ⟨t.key, data⟩)
      | none => (rsFull, [t.n 1, t.n 2], 0, s)
  else if t.op = 2 then
    match s.macFind k t.key with
    | some (p, _) => (rsOk, [t.n 1, t.n 2], 0, s.setMac k p MacEnt.empty)
    | none => (rsNotFound, [t.n 1, t.n 2], 0, s)
  else if t.op = 3 then
    match s.macFind k t.key with
    | some (p, e) => (rsOk, [t.n 1, t.n 2, e.data + 2 ^ 31, p], 0, s)
    | none => (rsNotFound, [t.n 1, t.n 2], 0, s)
  else if t.op = 4 then
    match (s.macList k).find? (fun e => decide (t.index ≤ e.1) && macPasses (t.n 2) (t.n 3) true e.2) with
    | some (p, e) =>
      if p < t.index + 4096 then (rsOk, [e.key % 2 ^ 32, e.key / 2 ^ 32, e.data + 2 ^ 31, p], 0, s)
      else (rsMore, [0, 0, 0, t.index + 4096], 0, s)
    | none => if t.index + 4096 < 264192 then (rsMore, [0, 0, 0, t.index + 4096], 0, s) else (rsEnd, [], 0, s)
  else
    let f := s.macFlush k (t.n 2) (t.n 3) (decide (t.op = 5))
    (rsOk, [f.1], f.1, f.2)

/-- A command on an indexed table: status, words TR1 to TR7 and the state. A DELETE answers the reset value that it has written: R186 has the data returned, and
R178 does not say which (DESIGN CHOICE, notes/assumptions/15.md). -/
def State.idxCommand (s : State) (t : TC) : Nat × List Nat × State :=
  let data (i : Nat) : List Nat := i :: 0 :: (s.tblEnt t.table i).map (fun w => w.toNat)
  if t.op = 1 then (rsOk, t.index :: 0 :: (t.w.drop 3).map (fun w => w.toNat), s.setTbl t.table t.index ((t.w.drop 3).take 5))
  else if t.op = 2 then (rsOk, t.index :: 0 :: (tblReset (t.table * 2 ^ 20)).map (fun w => w.toNat), s.setTbl t.table t.index (tblReset (t.table * 2 ^ 20)))
  else if t.op = 3 then (rsOk, data t.index, s)
  else
    match ((s.pt.tbl.filter (fun e => decide (e.1 / 2 ^ 20 = t.table) && tblValid t.table e.2)).map (fun e => e.1 % 2 ^ 20)).find?
        (fun i => decide (t.index ≤ i)) with
    | some i => if i < t.index + 4096 then (rsOk, data i, s) else (rsMore, [t.index + 4096], s)
    | none => if t.index + 4096 < tblSize t.table then (rsMore, [t.index + 4096], s) else (rsEnd, [], s)

/-- The upper half of TR0: a status in the nibble of each plane (R186). -/
def nibbles (f : Nat → Nat) : Nat := (List.range 4).foldl (fun v k => v + f k * 2 ^ (16 + 4 * k)) 0

/-- A table command is carried out: TR0 to TR7, the entries deleted, and the state, with one journal record when it completes at the time `done`
(R185, R419, R421). A BCAST command on the MAC table answers TR1 to TR7 of the last enabled plane, and BAD_ARG of a TABLE 6 or 7 stands in the nibbles that a
MAC command would use; R177 and R186 leave both open (DESIGN CHOICE, notes/assumptions/15.md). -/
def State.tblRun (s : State) (done origin : Nat) (t : TC) : List Word × State :=
  let ks : List Nat := if t.table = tMac ∨ 5 < t.table then (if t.bcast then s.planesOn else [t.plane]) else s.planesOn
  let fin (tr0 : Nat) (rest : List Nat) (cnt : Nat) (s1 : State) : List Word × State :=
    ((List.range 8).map (fun i => if i = 0 then w32 (tr0 + t.tag) else w32 (rest.getD (i - 1) 0)),
     s1.journalAt done (ks.headD 0) 2 origin t.table [t.n 0, if t.op = 5 ∨ t.op = 6 then t.n 3 else t.n 1, t.n 2, tr0 / 2 ^ 16 * 2 ^ 16 + min cnt 0xFFFF])
  if s.badArg t then fin (nibbles (fun k => if ks.contains k then rsBadArg else rsNone)) (if t.op = 5 ∨ t.op = 6 then [0] else [t.n 1, t.n 2]) 0 s
  else if t.table = tMac then
    let r := ks.foldl (fun (a : SMap Nat × List Nat × Nat × State) k =>
      let c := a.2.2.2.macCommand t k
      (SMap.ins a.1 k c.1, c.2.1, a.2.2.1 + c.2.2.1, c.2.2.2)) ([], [], 0, s)
    fin (nibbles (fun k => (SMap.look r.1 k).getD rsNone)) (if 5 ≤ t.op then [r.2.2.1] else r.2.1) r.2.2.1 r.2.2.2
  else
    let c := s.idxCommand t
    let s1 := if c.1 = rsOk ∧ t.op ≤ 2 ∧ t.table = tDwell then c.2.2.mirrorNote 1 t.index ((c.2.2.tblEnt tDwell t.index).take 3)
              else if c.1 = rsOk ∧ t.op ≤ 2 ∧ t.table = tMcg then c.2.2.mirrorNote 2 t.index (c.2.2.tblEnt tMcg t.index) else c.2.2
    fin (nibbles (fun k => if ks.contains k then c.1 else rsNone)) c.2.1 0 s1

/-- The bound of GO for a command (R185). -/
def tblBound (t : TC) : Nat :=
  if t.op = 4 then 2 * tUs else if 5 ≤ t.op then 60 * tUs else if t.bcast ∨ (t.table ≠ tMac ∧ t.op ≤ 2) then 800 * tNs else 200 * tNs

/-- TC0 to TC7 of a plane's interface. -/
def State.tcWords (s : State) (k : Nat) : TC := ⟨(List.range 8).map (fun i => s.reg (Reg.LP_TBL_CMD k i))⟩
def State.putWords (s : State) (a : Nat) (ws : List Word) : State :=
  (List.range ws.length).foldl (fun s i => s.setReg (a + 4 * i) (ws.getD i 0)) s

/-! ### Filigree entries and patterns (R135, R136, R147) -/

/-- The number that staging words hold, word 0 least significant, and its words. -/
def State.wordsNat (s : State) (a n : Nat) : Nat := (List.range n).foldl (fun v i => v + (s.reg (a + 4 * i)).toNat * 2 ^ (32 * i)) 0
def natWords (v n : Nat) : List Word := (List.range n).map (fun i => w32 (v / 2 ^ (32 * i)))

/-- The results of a command of a plane go into their words when it completes (R520): each is an address, a mask and a word. -/
def State.stageRes (s : State) (a : Nat) (ws : List (Nat × Nat × Word)) : State := { s with pt := { s.pt with staged := SMap.ins s.pt.staged a ws } }
/-- The results of a command that has completed stand in their words, in place of what software has written there since GO. -/
def State.land (s : State) (a : Nat) : State :=
  match SMap.look s.pt.staged a with
  | some ws =>
    if s.busy a then s
    else ws.foldl (fun s w => s.setReg w.1 (w32 (dropBits (s.reg w.1).toNat w.2.1 ||| w.2.2.toNat)))
      { s with pt := { s.pt with staged := SMap.del s.pt.staged a } }
  | none => s
def State.landPlane (s : State) (k : Nat) : State := ((s.land (Reg.LP_FG_CMD k)).land (Reg.LP_PM_CMD k)).land (Reg.LP_TBL_GO k)
/-- Result words from an address on. -/
def resWords (a : Nat) (ws : List Word) : List (Nat × Nat × Word) := (List.range ws.length).map (fun i => (a + 4 * i, 0xFFFFFFFF, ws.getD i 0))
/-- A one-bit result. -/
def resBit (f : Fld) (b : Bool) : Nat × Nat × Word := (f.addr, 2 ^ f.lo, w32 (b2n b * 2 ^ f.lo))

/-- `LP_FG_CMD` and `LP_PM_CMD` as a write of GO with an operation, an INDEX and BCAST gives them. -/
def planeWrite (op n : Nat) (bcast : Bool) : Nat := 2 ^ 31 + op * 2 ^ 28 + b2n bcast * 2 ^ 27 + n

/-- A Filigree command on one plane, from the staging registers of plane `k`; false where it is refused. R137 has a bank filled while it is disabled, yet R135
refuses an INDEX in a disabled bank: the model refuses by the active enable, so that a bank is filled once its enable is committed (DESIGN CHOICE,
notes/assumptions/26.md). -/
def State.fgApply (s : State) (k j op n : Nat) : Bool × State :=
  let f := s.fgFormat j (n / 1024)
  if !(fmtOn f) || (fmtWide f && decide (n % 2 = 1)) then (false, s)
  else
    let v := Reg.LP_FG_VALUE k 0
    let c := Reg.LP_FG_CARE k 0
    let act := (List.range 3).map (fun i => s.reg (Reg.LP_FG_ACTION k i))
    if op = 1 then
      let s1 := s.setFgEnt j n ⟨true, s.wordsNat v 10, s.wordsNat c 10, act⟩
      (true, if fmtWide f then s1.setFgEnt j (n + 1) ⟨true, s.wordsNat (v + 40) 10, s.wordsNat (c + 40) 10, act⟩ else s1)
    else if op = 2 then
      let s1 := s.setFgEnt j n { s.fgEnt j n with valid := false }
      (true, if fmtWide f then s1.setFgEnt j (n + 1) { s1.fgEnt j (n + 1) with valid := false } else s1)
    else
      let e := s.fgEnt j n
      let hi := if fmtWide f then s.fgEnt j (n + 1) else FgEnt.reset
      (true, s.stageRes (Reg.LP_FG_CMD k) (resWords v (natWords e.value 10 ++ natWords hi.value 10) ++ resWords c (natWords e.care 10 ++ natWords hi.care 10) ++
        resWords (Reg.LP_FG_ACTION k 0) e.action ++ [resBit (Fld.LP_FG_CMD_RD_VALID k) e.valid]))

/-- A write of 1 to `LP_FG_CMD.GO` of plane `k` by an initiator, with the word as written (R135, R136). A READ with BCAST 1 reads the entry of the
plane whose register was written: the spec does not say whose entry the staging words show (DESIGN CHOICE, notes/assumptions/26.md). -/
def State.fgGo (s : State) (origin k w : Nat) : State :=
  if s.busy (Reg.LP_FG_CMD k) then s.setF (Fld.LP_FG_CMD_OVERRUN k) 1
  else
    let op := bitsOf w 28 3
    let n := w % 2 ^ 13
    let bcast := bitOf w 27
    let s0 := ((((s.land (Reg.LP_FG_CMD k)).setF (Fld.LP_FG_CMD_OP k) op).setF (Fld.LP_FG_CMD_INDEX k) n).setF (Fld.LP_FG_CMD_BCAST k) (b2n bcast)).startGo
      (Reg.LP_FG_CMD k) (if bcast then 800 * tNs else 200 * tNs)
    let wr := decide (op = 1 ∨ op = 2)
    let ks := if bcast && wr then s0.planesOn else [k]
    let r := ks.foldl (fun (a : Nat × Bool × State) j =>
      match a.2.2.fgApply k j op n with
      | (true, s1) => (a.1 + 2 ^ j, a.2.1, s1)
      | (false, s1) => (a.1, true, s1)) (0, false, s0)
    let s1 := r.2.2.setF (Fld.LP_FG_CMD_ERR k) (b2n r.2.1)
    if wr then s1.journalAt (s1.goEnd (Reg.LP_FG_CMD k)) (ks.headD k) 2 origin 6 [w, r.1, n] else s1

/-- A pattern command on one plane, from the staging registers of plane `k` (R147). -/
def State.patApply (s : State) (k j op n : Nat) : State :=
  if op = 1 then
    s.setPattern j n ⟨true, s.wordsNat (Reg.LP_PM_VALUE k 0) 4, s.wordsNat (Reg.LP_PM_CARE k 0) 4, (s.reg (Reg.LP_PM_CFG k)).toNat,
      (s.reg (Reg.LP_PM_PORT k)).toNat⟩
  else if op = 2 then s.setPattern j n { s.pattern j n with valid := false }
  else
    let p := s.pattern j n
    s.stageRes (Reg.LP_PM_CMD k) (resWords (Reg.LP_PM_VALUE k 0) (natWords p.value 4) ++ resWords (Reg.LP_PM_CARE k 0) (natWords p.care 4) ++
      resWords (Reg.LP_PM_CFG k) [w32 p.cfg] ++ resWords (Reg.LP_PM_PORT k) [w32 p.port] ++ [resBit (Fld.LP_PM_CMD_RD_VALID k) p.valid])
/-- A write of 1 to `LP_PM_CMD.GO` of plane `k`, with the word as written (R147). -/
def State.patGo (s : State) (origin k w : Nat) : State :=
  if s.busy (Reg.LP_PM_CMD k) then s.setF (Fld.LP_PM_CMD_OVERRUN k) 1
  else
    let op := bitsOf w 28 3
    let n := w % 2 ^ 10
    let bcast := bitOf w 27
    let s0 := (((((s.land (Reg.LP_PM_CMD k)).setF (Fld.LP_PM_CMD_OP k) op).setF (Fld.LP_PM_CMD_INDEX k) n).setF (Fld.LP_PM_CMD_BCAST k) (b2n bcast)).setF
      (Fld.LP_PM_CMD_ERR k) 0).startGo (Reg.LP_PM_CMD k) (if bcast then 800 * tNs else 200 * tNs)
    let wr := decide (op = 1 ∨ op = 2)
    let ks := if bcast && wr then s0.planesOn else [k]
    let s1 := ks.foldl (fun s j => s.patApply k j op n) s0
    if wr then s1.journalAt (s1.goEnd (Reg.LP_PM_CMD k)) (ks.headD k) 2 origin 7 [w, ks.foldl (fun v j => v + 2 ^ j) 0, n] else s1

end Sys2Proof.Machine
end

