-- ==== Sys2Proof/Machine/Edit.lean ====
section
/-!
DEFINITION. Stage 8: the header edit for dwellings (R163), the R-TAG (R336, R340), the ECN mark (R206), truncation of mirror copies (R145), and the FCS.
-/
namespace Sys2Proof.Machine

/-- Bits of a frame's `edit`: mapped to its dwelling by R158; passed by recovery (R340); the class and colour of a queue override keep their own. -/
def edMapped : Nat := 0
def edRecovered : Nat := 1

/-- A VLAN tag as bytes: TPID, then PCP, DEI and VID (R163). -/
def tagBytes (tpid cls colour vid : Nat) : List Byte :=
  beBytes 2 tpid ++ beBytes 2 (cls * 8192 + b2n (decide (colour ≠ 0)) * 4096 + vid % 4096)

/-- The ECN field of the innermost IP header set to 0b11 (R206). -/
def ecnMark (bs : List Byte) (x : Parse) : List Byte :=
  let o := x.ipOfs
  if x.l3 = l3Ip4 then
    let old := u16 bs o
    let new := old ||| 3
    let ck := cksumUpdate (u16 bs (o + 10)) old new
    byteOver (byteOver bs o (beBytes 2 new)) (o + 10) (beBytes 2 ck)
  else if x.l3 = l3Ip6 then byteOver bs (o + 1) (beBytes 1 (u8 bs (o + 1) ||| 0x30))
  else bs

/-- The tags a frame leaves with by a port: those that stay of the received ones, and those pushed before them (R163). The answer gives pushed bytes and
how many of the received tags are removed from the outside, or all of them. DN_MODE 0b00 removes the tags that the parser takes (R124): a fourth stays in the
frame, on which R163 is silent (DESIGN CHOICE, notes/assumptions/18.md). -/
def State.tagEdit (s : State) (f : Frame) (q : Nat) (copy : Bool) : List Byte × Nat :=
  let n := f.parse.tags.length
  let e := pipeOf q
  if 128 ≤ q then
    match f.srcDw with
    | some d =>
      let push := tagBytes (s.tpid e (s.dwUpTpid d)) f.cls f.colour (s.dwUpSvid d) ++
        (if s.dwUpCvid d = 0 then [] else tagBytes (s.tpid e 0) f.cls f.colour (s.dwUpCvid d))
      (push, min n 1)
    | none => ([], 0)
  else if copy then
    match f.dest with
    | .group g => ([], if s.mcgStrip g then min n 1 else 0)
    | _ => ([], 0)
  else
    match f.dstDw with
    | some d =>
      let out := if bitOf f.edit edMapped then min n 2 else if f.src < 128 then min n 1 else 0
      let mode := s.dwDnMode d
      if mode = 1 then (tagBytes (s.tpid e (s.dwDnTpid d)) f.cls f.colour (s.dwDnVid d), out)
      else if mode = 2 then ([], out)
      else ([], n)
    | none => ([], 0)

/-- A frame as it leaves stage 8 for a port. Frames from host rings and from Anvil leave as their source gave them (R163, R383). -/
def State.egressData (s : State) (f : Frame) (q : Nat) (copy : Bool) : List Byte :=
  if f.srcKind ≠ 0 then (if f.ecn then withFcs (noFcs (ecnMark f.data f.parse)) else f.data)
  else
    let b := noFcs (if f.ecn then ecnMark f.data f.parse else f.data)
    let n := f.parse.tags.length
    let te := s.tagEdit f q copy
    let tags := te.1 ++ byteSlice b (12 + 4 * te.2) (4 * (n - te.2))
    let rest := b.drop (12 + 4 * n)
    let rest2 := match f.rtagSeq with
      | some v => (if f.parse.rtag.isSome then rest.take 4 else beBytes 2 0xF1C1 ++ beBytes 2 0) ++ beBytes 2 v ++
          (if f.parse.rtag.isSome then rest.drop 6 else rest)
      | none => if f.parse.rtag.isSome && bitOf f.edit edRecovered then rest.drop 6 else rest
    withFcs (b.take 12 ++ tags ++ rest2)

/-- The copy of a frame that a truncation length gives (R145). -/
def truncated (l : Nat) (bs : List Byte) : List Byte :=
  let n := if l = 0 ∨ 10240 < l then 0 else max l 64
  if n = 0 ∨ bs.length ≤ n then bs else withFcs (bs.take (n - 4))

end Sys2Proof.Machine
end

