-- ==== Sys2Proof/Machine/Arbiter.lean ====
section
/-!
DEFINITION. The fabric arbiter (R214 to R218), the Foundry list manager (R226), and replication of multicast frames (R208 to R213).
-/
namespace Sys2Proof.Machine

/-! ### Arbitration levels (R215) -/

/-- The level of a queue by its kind and class. -/
def State.qLevel0 (s : State) (q : Nat) : Nat :=
  if 0x10000 ≤ q ∧ q < 0x12400 then bitsOf (s.fld Fld.FB_ARB_PRIO_UC_LEVEL) (2 * (q % 8)) 2
  else if 0x13880 ≤ q ∧ q < 0x13D00 then bitsOf (s.fld Fld.FB_ARB_PRIO_UC_LEVEL) (2 * (q % 8)) 2
  else if 0x13D50 ≤ q ∧ q < 0x13D90 then bitsOf (s.fld Fld.FB_ARB_PRIO_MC_LEVEL) (2 * (q % 8)) 2
  else 0

/-- The level of a queue, 3 once its head has waited AGE_LIMIT × 64 CD22 cycles (R215). -/
def State.qLevel (s : State) (q : Nat) : Nat :=
  let lim := s.fld Fld.FB_ARB_CTRL_AGE_LIMIT
  if 0 < lim ∧ lim * 64 * 40 ≤ s.now - SMap.get (fun _ => 0) s.fab.headAt q then 3 else s.qLevel0 q

/-- The egress pipelines that a queue's head asks for. -/
def State.headWants (s : State) (q : Nat) : List Nat :=
  match s.queue q with
  | [] => []
  | x :: _ => if x.left = [] then [pipeOf x.port] else x.left

/-- The input pipeline of a VOQ, multicast or mirror queue. -/
def inputOf (q : Nat) : Nat :=
  if q < 0x12400 then (q - 0x10000) / 1152
  else if q < 0x13D40 then (q - 0x13D00) / 8
  else (q - 0x13D50) / 8

def isMc (q : Nat) : Bool := decide (0x13D50 ≤ q ∧ q < 0x13D90)
def isMirror (q : Nat) : Bool := decide (0x13D00 ≤ q ∧ q < 0x13D40)
def isVoq (q : Nat) : Bool := decide (0x10000 ≤ q ∧ q < 0x12400)
def isList (q : Nat) : Bool := decide (0x13880 ≤ q ∧ q < 0x13D00)

/-- Whether a mirror queue's head goes to a port, and so crosses the fabric. -/
def State.mirrorToPort (s : State) (q : Nat) : Bool :=
  match s.queue q with
  | [] => false
  | x :: _ => decide (x.port < 144)

def State.intakeOf (s : State) (e : Nat) : List QEnt := SMap.get (fun _ => []) s.fab.intake e
def State.setIntake (s : State) (e : Nat) (l : List QEnt) : State :=
  { s with fab := { s.fab with intake := SMap.put (fun _ => []) s.fab.intake e l } }
/-- A free intake credit of an egress pipeline: 256 descriptors (R214), and a packet lane that can take one in this cycle (R474). -/
def State.credit (s : State) (e : Nat) : Bool := decide ((s.intakeOf e).length < 256) && s.egressFree e

/-- The arbiter's requests: input, egress, level and queue of each non-empty queue that it may serve (R216, R230). -/
def State.requests (s : State) : List (Nat × Nat × Nat × Nat) :=
  s.fab.queues.foldr (fun e t =>
    let q := e.1
    if (isVoq q && !(decide (s.fbState = fbLeaving) && s.fenced ((q - 0x10000) / 8 % 144))) || isMc q || (isMirror q && s.mirrorToPort q) then
      ((s.headWants q).filter (fun p => s.credit p)).map (fun p => (inputOf q, p, s.qLevel q, q)) ++ t
    else t) []

/-- The highest level of a list of requests. -/
def topLevel (rs : List (Nat × Nat × Nat × Nat)) : Nat := rs.foldl (fun k r => max k r.2.2.1) 0

/-- The first number at or after a pointer, in the order 0 to 7 around, that a list holds. -/
def roundRobin (ptr : Nat) (l : List Nat) : Option Nat :=
  ((List.range 8).map (fun k => (ptr + k) % 8)).find? (fun x => l.contains x)

/-- One iteration of request, grant and accept: the pairs it matches, as input, egress and level (R216). -/
def State.matchOnce (s : State) (rs : List (Nat × Nat × Nat × Nat)) (done : List (Nat × Nat × Nat)) : List (Nat × Nat × Nat) :=
  let open_ := rs.filter (fun r => !(done.any (fun d => decide (d.1 = r.1 ∨ d.2.1 = r.2.1))))
  let grants := (List.range 8).filterMap (fun e =>
    let re := open_.filter (fun r => decide (r.2.1 = e))
    if re.isEmpty then none
    else
      let lv := topLevel re
      match roundRobin (SMap.get (fun _ => 0) s.fab.gPtr (e * 4 + lv)) ((re.filter (fun r => decide (r.2.2.1 = lv))).map (fun r => r.1)) with
      | some i => some (i, e, lv)
      | none => none)
  (List.range 8).filterMap (fun i =>
    let gi := grants.filter (fun g => decide (g.1 = i))
    if gi.isEmpty then none
    else
      let lv := gi.foldl (fun k g => max k g.2.2) 0
      match roundRobin (SMap.get (fun _ => 0) s.fab.aPtr (i * 4 + lv)) ((gi.filter (fun g => decide (g.2.2 = lv))).map (fun g => g.2.1)) with
      | some e => some (i, e, lv)
      | none => none)

/-- The pointers move past the pairs of the first iteration (R216). -/
def State.movePointers (s : State) (ms : List (Nat × Nat × Nat)) : State :=
  ms.foldl (fun s m =>
    { s with fab := { s.fab with gPtr := SMap.put (fun _ => 0) s.fab.gPtr (m.2.1 * 4 + m.2.2) ((m.1 + 1) % 8),
                                 aPtr := SMap.put (fun _ => 0) s.fab.aPtr (m.1 * 4 + m.2.2) ((m.2.1 + 1) % 8) } }) s

/-- The iterations after the first. -/
def State.matchMore (s : State) (rs : List (Nat × Nat × Nat × Nat)) : Nat → List (Nat × Nat × Nat) → List (Nat × Nat × Nat)
  | 0, done => done
  | k + 1, done => s.matchMore rs k (done ++ s.matchOnce rs done)

/-- The first number above a pointer that a list holds, else its least. -/
def nextAfter (ptr : Nat) (l : List Nat) : Option Nat :=
  let above := l.filter (fun x => decide (ptr < x))
  let pick := fun (t : List Nat) => t.foldl (fun (m : Option Nat) x => match m with
    | none => some x
    | some y => if x < y then some x else some y) none
  match pick above with
  | some x => some x
  | none => pick l

/-- The queue an input serves for an egress and level: round robin, unicast queues alternating with multicast queues (R216). -/
def State.chooseQueue (s : State) (i e lv : Nat) (qs : List Nat) : Option Nat :=
  let key := ((i * 8 + e) * 4 + lv) * 4
  let mc := qs.filter isMc
  let uc := qs.filter (fun q => !(isMc q))
  let lastMc := decide (SMap.get (fun _ => 0) s.fab.qPtr (key + 2) = 1)
  let nm := nextAfter (SMap.get (fun _ => 0) s.fab.qPtr (key + 1)) mc
  let nu := nextAfter (SMap.get (fun _ => 0) s.fab.qPtr key) uc
  if lastMc then (match nu with | some q => some q | none => nm) else (match nm with | some q => some q | none => nu)

def State.noteQueue (s : State) (i e lv q : Nat) : State :=
  let key := ((i * 8 + e) * 4 + lv) * 4
  let kinds := SMap.put (fun _ => 0) s.fab.qPtr (key + 2) (b2n (isMc q))
  { s with fab := { s.fab with qPtr := SMap.put (fun _ => 0) kinds (key + b2n (isMc q)) q } }

/-! ### Passing a descriptor (R209, R217) -/

/-- The MTU of a port (R50). -/
def State.mtu (s : State) (p : Nat) : Nat := max 64 (min (s.fld (Fld.PT_MTU_MTU p)) 10240)

/-- A unicast descriptor or a mirror copy in stage 8: edited, checked against the output port's MTU (R50), and into its egress queue. -/
def State.stage8 (s : State) (x : QEnt) : State :=
  match s.frame? x.fid with
  | none => s
  | some f =>
    let d := if x.data.isEmpty then s.egressData f x.port false else x.data
    if s.mtu x.port < d.length then (s.count (Ctr.port x.port 0x130) 1).discard { x with data := d }
    else s.toEgress { x with data := d }

/-- The head descriptor of a queue passes to an egress pipeline. A multicast head stays until the last pipeline of its set has it, and REF moves as
R212 says. A unicast or mirror head goes through stage 8 in the step of its grant, so that only multicast descriptors wait in the intake and use its credits: R214
leaves open how long a descriptor waits there (DESIGN CHOICE, notes/assumptions/18.md). -/
def State.passHead (s0 : State) (q e : Nat) : State :=
  let s := s0.egressUse e
  match s.queue q with
  | [] => s0
  | x :: t =>
    if x.left = [] then ((s.setQueue q t).lenOut q (s.ncells x.fid)).stage8 x
    else
      let left := x.left.filter (fun p => decide (p ≠ e))
      let s1 := s.setIntake e (s.intakeOf e ++ [{ x with left := [] }])
      if left = [] then (s1.setQueue q t).lenOut q (s.ncells x.fid)
      else (s1.setQueue q ({ x with left := left } :: t)).addRef x.fid 1

/-- Up to two head descriptors of a queue pass, as long as the head asks for the egress and it has credit. -/
def State.passTwo (s : State) (q e : Nat) : State :=
  let s1 := if (s.headWants q).contains e && s.credit e then s.passHead q e else s
  if (s1.headWants q).contains e && s1.credit e then s1.passHead q e else s1

/-- One CD22 cycle of the arbiter; in FOUNDRY it is stopped (R216, R229). -/
def State.arbiterCycle (s : State) : State :=
  if s.fbState = fbFoundry then s
  else
    let rs := s.requests
    let first := s.matchOnce rs []
    let iter := max (s.fld Fld.FB_ARB_CTRL_ITER) 1
    let all := s.matchMore rs (iter - 1) first
    all.foldl (fun s m =>
      match s.chooseQueue m.1 m.2.1 m.2.2 ((rs.filter (fun r => decide (r.1 = m.1 ∧ r.2.1 = m.2.1 ∧ r.2.2.1 = m.2.2))).map (fun r => r.2.2.2)) with
      | none => s
      | some q => (s.noteQueue m.1 m.2.1 m.2.2 q).passTwo q m.2.1) (s.movePointers first)

/-! ### The Foundry list manager (R226, R229, R524) -/

/-- Whether the list manager may serve a queue: lists not fenced, in every state but VOQ; multicast queues and mirror queues to ports in
FOUNDRY only. -/
def State.lmServes (s : State) (q : Nat) : Bool :=
  (isList q && !(decide (s.fbState = fbEntering) && s.fenced ((q - 0x13880) / 8))) ||
  (decide (s.fbState = fbFoundry) && (isMc q || (isMirror q && s.mirrorToPort q)))

/-- One descriptor for an egress pipeline: from the next queue in round robin at the highest level present. -/
def State.lmPass (s : State) (e : Nat) : State :=
  let qs := (s.fab.queues.map (fun x => x.1)).filter (fun q => s.lmServes q && (s.headWants q).contains e)
  let lv := qs.foldl (fun k q => max k (s.qLevel q)) 0
  match nextAfter (SMap.get (fun _ => 0) s.fab.lmPtr (e * 4 + lv)) (qs.filter (fun q => decide (s.qLevel q = lv))) with
  | none => s
  | some q =>
    if s.credit e then
      ({ s with fab := { s.fab with lmPtr := SMap.put (fun _ => 0) s.fab.lmPtr (e * 4 + lv) q } }).passHead q e
    else s

/-- One CD23 cycle of the list manager: up to two descriptors to each egress pipeline. -/
def State.lmCycle (s : State) : State :=
  if s.fbState = fbVoq then s
  else (List.range 8).foldl (fun s e => (s.lmPass e).lmPass e) s

/-! ### Replication (R210, R212, R213) -/

/-- One copy of a multicast frame for a port: tested in R210's order, refused and counted, or enqueued with the time of its frame's admission (R208, R288).
A copy above the port's MTU (R50) goes after these tests, counted there and in ECN_MARKED where WRED has marked it, but without a copy record or MC_COPIES: R210
gives the check no place (DESIGN CHOICE, notes/assumptions/18.md). -/
def State.mcCopy (s : State) (e fid q at_ : Nat) (f : Frame) : Bool × State :=
  let pq := pcqId q f.cls
  let n := f.cells.length
  let qn := s.qSnap pq
  if s.portAbsent q then (false, s.count (Ctr.pipe e 0x48) 1)
  else if s.fld (Fld.PT_STATUS_LINK q) = 0 then (false, s.count (Ctr.port q 0x390) 1)
  else if !(s.qEn pq) then (false, (s.count (Ctr.port q 0x398) 1).countDrop pq f.data.length)
  else if !(s.threshOk pq qn n (s.freeFor f.pool)) then (false, (s.count (Ctr.port q 0x380) 1).countDrop pq f.data.length)
  else
    match s.wred e pq qn f.colour f.parse.ect with
    | (.refuse, s1) => (false, (s1.count (Ctr.port q 0x388) 1).countDrop pq f.data.length)
    | (w, s1) =>
      if 262144 ≤ s1.fab.mcUsed then (false, s1.count (Ctr.pipe e 0x50) 1)
      else
        let s2 := if w = .mark then s1.count (Ctr.pipe e 0x28) 1 else s1
        let d := s2.egressData { f with ecn := decide (w = .mark), dstDw := none } q true
        if s2.mtu q < d.length then (false, s2.count (Ctr.port q 0x130) 1)
        else
          let x : QEnt := ⟨fid, q, f.cls, pq, at_, decide ((s.port q).hold = holdFlush), true, none, [], d⟩
          let s3 := { s2 with fab := { s2.fab with mcUsed := s2.fab.mcUsed + 1 } }
          (true, (((s3.lenIn pq n).push pq x).countAdmit pq f.data.length).count (Ctr.pipe e 0x58) 1)

/-- Egress pipeline `e` replicates the next descriptor of its intake to the ports of the group in its own MCG copy, rising, without the ingress port;
REF gains k - 1 at the end (R212). -/
def State.replicate (s : State) (e : Nat) : State :=
  match s.intakeOf e with
  | [] => s
  | x :: t =>
    let s0 := s.setIntake e t
    match s0.frame? x.fid with
    | none => s0
    | some f =>
      let g := match f.dest with | .group g => g | _ => 0
      match s0.mcgPorts g with
      | none => (s0.count (Ctr.pipe e 0x40) 1).addRef x.fid (-1)
      | some ps =>
        let mine := ps.filter (fun q => decide (pipeOf q = e) && !(decide (f.srcKind = 0 ∧ f.src = q)))
        let r := mine.foldl (fun (a : Nat × State) q =>
          match a.2.mcCopy e x.fid q x.atTime f with
          | (true, s1) => (a.1 + 1, s1)
          | (false, s1) => (a.1, s1)) (0, s0)
        r.2.addRef x.fid ((r.1 : Int) - 1)

end Sys2Proof.Machine
end

