-- ==== Sys2Proof/Machine/Streams.lean ====
section
/-!
DEFINITION. Generation streams (R334 to R338) and 802.1CB vector recovery (R340); and what holds the main islands.
-/
namespace Sys2Proof.Machine

/-- Whether the always-on island runs, and whether the main islands run. -/
def State.aonUp (s : State) : Bool := !s.isl.off && !s.isl.aonRst
def State.mainUp (s : State) : Bool := s.aonUp && !s.isl.sysRst && !s.isl.mainOff

/-- The peer is alive and forwarding (R338). -/
def State.peerFwd (s : State) : Bool := !(s.bit Fld.TW_STATUS_PEER_DEAD) && s.bit Fld.TW_STATUS_PEER_FWD

/-! ### Muting (R337, R338) -/

def State.mute (s : State) (n : Nat) (on : Bool) : State := s.setF (Fld.TW_GEN_MUTED n) (b2n on)
/-- A loss indication on a port mutes every stream numbered at that port. -/
def State.lossAt (s : State) (p : Nat) : State :=
  if s.peerFwd then (s.tw.streams.filter (fun e => decide (e.2.port = p))).foldl (fun s e => s.mute e.1 true) s else s
/-- Every mute ends when the peer dies or stops forwarding. -/
def State.unmuteAll (s : State) : State := s.tw.streams.foldl (fun s e => s.mute e.1 false) s
def State.unmuteIfAlone (s : State) : State := if s.peerFwd then s else s.unmuteAll

/-! ### Numbering (R334, R335) -/

/-- The stream of a frame that leaves stage 4 undropped, if it has one (R334). -/
def State.streamOf (s : State) (f : Frame) : Option Nat :=
  if f.srcKind ≠ 0 then none
  else
    let trunk := decide (128 ≤ f.src)
    let row1 := match f.dstDw with
      | some d => if trunk && s.bit Fld.TW_GEN_CFG_DN_EN && s.bit (Fld.TW_GEN_EN d) then some d else none
      | none => none
    match row1 with
    | some d => some d
    | none =>
      match f.dest with
      | .group _ => if trunk && s.bit (Fld.TW_TRUNKGEN_MC_EN (f.src - 128)) then some (s.fld (Fld.TW_TRUNKGEN_MC_STREAM (f.src - 128))) else none
      | .port q =>
        if !trunk && f.srcDw.isSome && decide (128 ≤ q) && s.bit (Fld.TW_TRUNKGEN_UP_EN (q - 128)) then
          some (s.fld (Fld.TW_TRUNKGEN_UP_BASE (q - 128)) / 128 * 128 + f.src)
        else none
      | _ => none

/-- The FCS of a frame as a number: its four bytes as sent, the first most significant (R7). -/
def fcsNumber (bs : List Byte) : Nat := beNat (bs.drop (bs.length - 4))

/-- A stream numbers a frame (R335, R337): the number, whether the frame is muted, and the state. -/
def State.numberFrame (s : State) (n : Nat) (f : Frame) : Nat × Bool × State :=
  let idle := max (s.fld Fld.TW_GEN_CFG_IDLE) 1 * tMs
  let amb := s.fld Fld.TW_GEN_CFG_AMB * 100 * tUs
  let gap := match SMap.look s.tw.streams n with
    | some x => some (s.now - x.lastAt)
    | none => none
  let restart := match gap with | some g => decide (idle ≤ g) | none => true
  let again := match gap with | some g => decide (0 < amb ∧ idle ≤ g ∧ g ≤ idle + amb) | none => false
  let fcs := (fcsNumber f.data) % 65536
  let seq2 := if restart then fcs else (s.fld (Fld.TW_GEN_SEQ n) + 1) % 65536
  let s1 := (s.count (Ctr.tw 0x00) 1).setF (Fld.TW_GEN_SEQ n) seq2
  let s2 := { s1 with tw := { s1.tw with streams := SMap.ins s1.tw.streams n ⟨s.now, f.src⟩ } }
  let s3 := if restart then (s2.count (Ctr.tw 0x08) 1).mute n (again && !s.duty && s.peerFwd) else s2
  if s3.bit (Fld.TW_GEN_MUTED n) then (seq2, true, s3.count (Ctr.tw 0x10) 1) else (seq2, false, s3)

/-! ### Recovery (R340) -/

/-- Whether a frame on a port goes through recovery. -/
def State.recPort (s : State) (p : Nat) : Bool := bitOf (s.reg (Reg.TW_REC_PORT (p / 32))).toNat (p % 32)
def State.recovery (s : State) (d : Nat) : Recovery := SMap.get (fun _ => Recovery.reset) s.tw.recov d
def State.setRecovery (s : State) (d : Nat) (x : Recovery) : State :=
  { s with tw := { s.tw with recov := SMap.put (fun _ => Recovery.reset) s.tw.recov d x } }
def State.recReset (s : State) (d : Nat) : Nat := max (s.fld (Fld.TW_REC_PROF_RESET_MS (s.fld (Fld.TW_REC_PROF d)))) 1 * tMs
def State.recHistory (s : State) (d : Nat) : Nat := clampNat 1 64 (s.fld (Fld.TW_REC_PROF_HISTORY (s.fld (Fld.TW_REC_PROF d))))
/-- The reset timeout of a dwelling's recovery has run out: the history is reset and any number is taken next. -/
def State.recoveryTimeout (s : State) (d : Nat) : State :=
  let x := s.recovery d
  if x.take = false ∧ x.lastAt + s.recReset d ≤ s.now then s.setRecovery d { x with take := true, hist := 0 } else s

/-- The vector recovery algorithm of IEEE 802.1CB on a sequence number; false where the frame is discarded. -/
def State.recover (s0 : State) (d seq : Nat) : Bool × State :=
  let s := s0.recoveryTimeout d
  let x := s.recovery d
  let accept (hist last : Nat) : Bool × State :=
    (true, ((s.setRecovery d ⟨false, hist, s.now⟩).setF (Fld.TW_REC_LAST d) last).count (Ctr.tw 0x18) 1)
  if x.take then accept 1 seq
  else
    let last := s.fld (Fld.TW_REC_LAST d)
    let h := s.recHistory d
    let delta := signed 16 (seq + 65536 - last)
    if (h : Int) ≤ delta ∨ delta ≤ -(h : Int) then (false, s.count (Ctr.tw 0x28) 1)
    else if delta ≤ 0 then
      let b := (-delta).toNat
      if bitOf x.hist b then (false, s.count (Ctr.tw 0x20) 1) else accept (x.hist + 2 ^ b) last
    else accept ((x.hist * 2 ^ delta.toNat + 1) % 2 ^ h) seq

end Sys2Proof.Machine
end

