-- ==== Sys2Proof/Machine/Planish.lean ====
section
/-!
DEFINITION. Planish (chapter 10): token buckets, policers, level resets, the commit of its records, sojourn and sampling, eligibility, and the DWRR walk
from a port to a leaf. A node is named by the address of its CFG word, a bucket by the address of its LEVEL word.
-/
namespace Sys2Proof.Machine

/-! ### Records (R291 to R293) -/

def nodeL0 (q : Nat) : Nat := 0x1010000 + q * 0x20
def nodePcq (n : Nat) : Nat := 0x1012000 + n * 0x20
def nodeL1 (g : Nat) : Nat := 0x1020000 + g * 0x20
def nodeL2 (d : Nat) : Nat := 0x1040000 + d * 0x20
def nodeL3 (n : Nat) : Nat := 0x1100000 + n * 0x20
def polRec (n : Nat) : Nat := 0x1400000 + n * 0x20
/-- The node of an egress queue. -/
def nodeOfQ (q : Nat) : Nat := if q < 0x10000 then nodeL3 q else nodePcq (q - 0x12400)
/-- Whether an identifier is that of an egress queue. -/
def isEgress (q : Nat) : Bool := decide (q < 0x10000) || (decide (0x12400 ≤ q) && decide (q < 0x12880))

def State.actN (s : State) (a : Nat) : Nat := (s.actReg a).toNat
def State.nodeEn (s : State) (a : Nat) : Bool := bitOf (s.actN a) 31
def State.nodePrio (s : State) (a : Nat) : Nat := bitsOf (s.actN a) 28 3
def State.nodeProf (s : State) (a : Nat) : Nat := bitsOf (s.actN a) 24 4
def State.nodeWeight (s : State) (a : Nat) : Nat := max (bitsOf (s.actN a) 0 12) 1
def State.groupOfDw (s : State) (d : Nat) : Nat := bitsOf (s.actN (nodeL2 d + 16)) 0 10
def State.portOfGroup (s : State) (g : Nat) : Nat := bitsOf (s.actN (nodeL1 g + 16)) 0 7
def State.upMap (s : State) (d : Nat) : Nat := bitsOf (s.actN (nodeL2 d + 16)) 16 4

/-- `OVH` of a length profile (R279). -/
def State.ovh (s : State) (n : Nat) : Int := max (-32) (signed 7 (s.afld (Fld.PL_LEN_PROF_OVH n)))
/-- A frame's counted length under a node's own profile. -/
def State.counted (s : State) (node len : Nat) : Int := (len : Int) + s.ovh (s.nodeProf node)

/-- A rate field in kbit/s (R278). -/
def rateOf (v : Nat) : Nat :=
  let r := v / 32 % 4096 * 2 ^ (v % 32)
  if r = 0 then 0 else clampNat 64 400000000 r
/-- A burst field in bytes (R279). -/
def burstOf (v : Nat) : Nat := max (v % 2 ^ 18) 1 * 64

/-! ### Buckets (R280) -/

/-- The unit of a level: 1 byte is 480,000,000 units, so that a rate of 1 kbit/s adds 1 unit in 1/60 ns. -/
def byteUnit : Int := 480000000
def bucketReset : Bucket := ⟨10240 * byteUnit, 0, none⟩
/-- The cycle of CD24 that the present instant lies in (1.0 GHz). -/
def State.cyc24 (s : State) : Nat := s.now / 60
/-- The start of that cycle: the rise of a bucket is applied up to it, before the requests of the cycle (R287, R280). -/
def State.cycStart24 (s : State) : Nat := s.cyc24 * 60
def State.bucket (s : State) (a : Nat) : Bucket := SMap.get (fun _ => bucketReset) s.pl.buckets a
/-- A bucket as it stands in a CD24 cycle: a level reset has taken effect at the end of its own cycle (R283). -/
def Bucket.inCycle (b : Bucket) (cyc : Nat) : Bucket :=
  match b.setCyc with
  | some (c, v) => if c < cyc then ⟨v, (c + 1) * 60, none⟩ else b
  | none => b
def State.bucketNow (s : State) (a : Nat) : Bucket := (s.bucket a).inCycle s.cyc24
def State.setBucket (s : State) (a : Nat) (b : Bucket) : State :=
  { s with pl := { s.pl with buckets := SMap.put (fun _ => bucketReset) s.pl.buckets a b } }

/-- The enable, rate and burst of a bucket that three words give. -/
structure BCfg where
  en    : Bool
  rate  : Nat
  burst : Nat
  deriving DecidableEq, Repr

/-- Where a bucket's enable bit, rate word and burst word lie: for a node, and for C and P of a policer. -/
def bucketWords (a : Nat) : Nat × Nat × Nat × Nat :=
  let r := a / 32 * 32
  if r < 0x1400000 then (r, 31, r + 4, r + 8)
  else if a % 32 = 20 then (r, 31, r + 4, r + 8)
  else (r, 30, r + 12, r + 16)
def bucketCfg (word : Nat → Nat) (a : Nat) : BCfg :=
  let w := bucketWords a
  ⟨bitOf (word w.1) w.2.1, rateOf (word w.2.2.1), burstOf (word w.2.2.2)⟩
def State.bcfg (s : State) (a : Nat) : BCfg := bucketCfg s.actN a

/-- The level of a bucket now: an enabled bucket rises up to its burst, one that is not enabled does not change. -/
def Bucket.levelAt (b : Bucket) (c : BCfg) (now : Nat) : Int :=
  if c.en then min ((c.burst : Int) * byteUnit) (b.level + (c.rate : Int) * ((now - b.atTime : Nat) : Int)) else b.level
def State.level (s : State) (a : Nat) : Int := (s.bucketNow a).levelAt (s.bcfg a) s.cycStart24
/-- A refill: the rise is applied. -/
def State.refill (s : State) (a : Nat) : State := s.setBucket a { s.bucketNow a with level := s.level a, atTime := s.cycStart24 }
/-- A deduction of bytes, after the rise; a level reset of the same CD24 cycle comes after it and overwrites it (R283). -/
def State.deduct (s : State) (a : Nat) (n : Int) : State :=
  s.setBucket a { s.bucketNow a with level := s.level a - n * byteUnit, atTime := s.cycStart24 }
/-- A LEVEL word as it is read: whole bytes, rounded down (R292). -/
def State.levelWord (s : State) (a : Nat) : Word := w32 (unsign 32 ((s.level a).fdiv byteUnit))

/-- Whether a node's shaper allows it (R281). -/
def State.shaperOk (s : State) (node : Nat) : Bool := !(s.nodeEn node) || decide (0 ≤ s.level (node + 12))
/-- The deduction of a frame from a node's shaper. -/
def State.shape (s : State) (node len : Nat) : State := if s.nodeEn node then s.deduct (node + 12) (s.counted node len) else s

/-! ### Level resets (R283) -/

/-- The bucket that KIND and INDEX name, or none out of range. -/
def levelAddr (kind index : Nat) : Option Nat :=
  if kind = 1 then (if index < 1152 then some (nodePcq index + 12) else none)
  else if kind = 2 then (if index < 1024 then some (nodeL1 index + 12) else none)
  else if kind = 3 then (if index < 16384 then some (nodeL2 index + 12) else none)
  else if kind = 4 then (if index < 65536 then some (nodeL3 index + 12) else none)
  else if kind = 5 then (if index < 36864 then some (polRec index + 20) else none)
  else if kind = 6 then (if index < 36864 then some (polRec index + 24) else none)
  else if index < 144 then some (nodeL0 index + 12) else none

/-- `PL_LEVEL_CMD` as a write of GO with an operation, a KIND and an INDEX gives it. -/
def levelWrite (op kind index : Nat) : Nat := 2 ^ 31 + op * 2 ^ 29 + kind * 2 ^ 24 + index
/-- A write of 1 to `PL_LEVEL_CMD.GO`, with the word as written: the level is set at the end of the CD24 cycle. -/
def State.levelGo (s : State) (origin w : Nat) : State :=
  if s.busy Reg.PL_LEVEL_CMD then s.setF Fld.PL_LEVEL_CMD_OVERRUN 1
  else
    let op := bitsOf w 29 2
    let kind := bitsOf w 24 3
    let index := w % 2 ^ 17
    let s1 := (((s.setF Fld.PL_LEVEL_CMD_OP op).setF Fld.PL_LEVEL_CMD_KIND kind).setF Fld.PL_LEVEL_CMD_INDEX index).startGo Reg.PL_LEVEL_CMD (100 * tNs)
    match levelAddr kind index with
    | none => s1.setF Fld.PL_LEVEL_CMD_ERR 1
    | some a =>
      let v : Int := if op = 1 then ((s1.bcfg a).burst : Int) * byteUnit else 0
      ((s1.setF Fld.PL_LEVEL_CMD_ERR 0).setBucket a { s1.bucketNow a with setCyc := some (s1.cyc24, v) }).journalAt (s1.goEnd Reg.PL_LEVEL_CMD) 0 2 origin 8 [w]

/-! ### Policers (R284 to R286) -/

def green : Nat := 0
def yellow : Nat := 1
def red : Nat := 2

/-- One policer meters a frame (R285): the outcome colour, or none for DROP. With both its buckets disabled it passes the frame unchanged (R286). -/
def State.meter (s : State) (n len colour : Nat) : Option Nat :=
  let r := polRec n
  let w := s.actN r
  let l := (len : Int) + s.ovh (bitsOf w 24 4)
  let col := if bitOf w 29 then colour else green
  if bitOf w 31 = false ∧ bitOf w 30 = false then some colour
  else if bitOf w 30 ∧ s.level (r + 24) < l * byteUnit then none
  else if col = green ∧ (!(bitOf w 31) ∨ l * byteUnit ≤ s.level (r + 20)) then some green
  else if col = red then some red
  else some yellow
/-- The tokens that an outcome takes. -/
def State.takeTokens (s : State) (n len outcome : Nat) : State :=
  let r := polRec n
  let w := s.actN r
  let l := (len : Int) + s.ovh (bitsOf w 24 4)
  let s1 := if outcome = green ∧ bitOf w 31 then s.deduct (r + 20) l else s
  let s2 := if bitOf w 30 then s1.deduct (r + 24) l else s1
  (s2.count (Ctr.pol n 0x00) 1).count (Ctr.pol n 0x08) len

/-- The place of a pipeline in the turn of a CD24 cycle: it starts at pipeline P, which is 0 as CD24 leaves reset and moves on by one every cycle (R287). -/
def State.meterRank (s : State) (pipe : Nat) : Nat := (pipe + 8 - (s.cyc24 - s.isl.upAt / 60) % 8) % 8
/-- Whether a policer has already served, in this CD24 cycle, a request that comes after this pipeline's in the turn. -/
def State.outOfTurn (s : State) (pipe : Nat) (ns : List Nat) : Bool :=
  ns.any (fun n => match SMap.look s.pl.turn n with
    | some (c, r) => decide (c = s.cyc24) && decide (s.meterRank pipe < r)
    | none => false)
/-- The policers note the place of a request that they serve. -/
def State.noteTurn (s : State) (pipe : Nat) (ns : List Nat) : State :=
  { s with pl := { s.pl with turn := ns.foldl (fun m n => SMap.ins m n (s.cyc24, s.meterRank pipe)) s.pl.turn } }

/-- A frame meets its policers in order (R284, R286): the last outcome colour, or none where one drops it; a dropped frame takes tokens from none. -/
def State.police (s : State) (pipe len : Nat) : List Nat → Nat → Option Nat × State
  | [], colour => (some colour, s)
  | ns, colour =>
    let r := ns.foldl (fun (a : Option Nat × State × Nat × Nat) n =>
      match a.1 with
      | none => a
      | some c =>
        match a.2.1.meter n len c with
        | some o => (some o, a.2.1.takeTokens n len o, a.2.2)
        | none => (none, a.2.1, n, 1)) (some colour, s, 0, 0)
    match r.1 with
    | some c => (some c, r.2.1)
    | none =>
      let n := r.2.2.1
      (none, ((s.count (Ctr.pol n 0x10) 1).count (Ctr.pol n 0x18) len).count (Ctr.pipe pipe 0x68) 1)

/-- The dwelling policers of a frame with a source dwelling and a class (R284). -/
def State.dwPolicers (s : State) (d cls : Nat) : List Nat :=
  let k := bitsOf (s.afld (Fld.PL_UPOL_MAP_MAP (s.upMap d))) (2 * cls) 2
  if k = 1 then [2 * d] else if k = 2 then [2 * d + 1] else if k = 3 then [2 * d, 2 * d + 1] else []

/-- The class queue of a dwelling for a class (R270). -/
def State.dwQueue (s : State) (d cls : Nat) : Nat := d * 4 + bitsOf (s.afld Fld.PL_DCLASS_MAP_MAP) (2 * cls) 2

/-! ### The commit of Planish (R272, R282) -/

/-- Whether a word of the block has RWS fields. -/
def plRws (a : Nat) : Bool :=
  (decide (0x1000000 ≤ a) && decide (a < 0x1000100)) ||
  (decide (0x1010000 ≤ a) && decide (a < 0x1200000 + 0x100000) && !(decide (a % 32 = 12))) ||
  (decide (0x1400000 ≤ a) && decide (a < 0x1520000) && !(decide (20 ≤ a % 32)))
/-- The words whose shadow differs from the active copy. -/
def State.plChanged (s : State) : List Nat :=
  ((s.regs.map (fun e => e.1)) ++ ((s.act.map (fun e => e.1)).filter (fun a => (SMap.look s.regs a).isNone))).filter
    (fun a => plRws a && !(decide (s.reg a = s.actReg a)))

/-- A bucket at the commit: refilled at the old rate, then the new settings, then clipped; enabled from 0 to 1, it is full (R280, R282). -/
def rebucket (b : Bucket) (old new : BCfg) (now : Nat) : Bucket :=
  if new.en then
    if old.en then { b with level := min (b.levelAt old now) ((new.burst : Int) * byteUnit), atTime := now }
    else { b with level := (new.burst : Int) * byteUnit, atTime := now }
  else { b with level := b.levelAt old now, atTime := now }

/-- The buckets of a record. -/
def bucketsOf (rec_ : Nat) : List Nat := if rec_ < 0x1400000 then [rec_ + 12] else [rec_ + 20, rec_ + 24]

/-- Dwellings with a class queue that is not empty. -/
def State.busyDwellings (s : State) : List Nat :=
  (s.fab.qlen.filter (fun e => decide (e.1 < 0x10000) && decide (0 < e.2))).map (fun e => e.1 / 4)

/-- A refused move (R272). -/
def State.moveRefused (s : State) (isGroup : Bool) (id : Nat) : State :=
  (s.setReg Reg.PL_MOVE_ERR (w32 (b2n isGroup * 2 ^ 31 + id))).raise Fld.PL_INT_STATUS_MOVE_REFUSED

def State.clearDeficit (s : State) (node : Nat) : State :=
  { s with pl := { s.pl with deficit := SMap.del s.pl.deficit node } }

/-- The commit of every changed word of the block. -/
def State.planishCommit (s : State) : State :=
  let ch := s.plChanged
  let busy := s.busyDwellings
  let isL1p (a : Nat) : Bool := decide (0x1020000 ≤ a ∧ a < 0x1028000 ∧ a % 32 = 16)
  let isL2p (a : Nat) : Bool := decide (0x1040000 ≤ a ∧ a < 0x10C0000 ∧ a % 32 = 16)
  -- buckets of the changed records, at the old settings and under the new ones
  let recs := ((ch.filter (fun a => decide (0x1010000 ≤ a))).map (fun a => a / 32 * 32)).eraseDups
  let s1 := (recs.flatMap bucketsOf).foldl (fun t a =>
    t.setBucket a (rebucket (s.bucketNow a) (s.bcfg a) (bucketCfg (fun w => (s.reg w).toNat) a) s.cycStart24)) s
  -- every word but the parents
  let s2 := (ch.filter (fun a => !(isL1p a) && !(isL2p a))).foldl (fun t a => t.setAct a (s.reg a)) s1
  -- step 1: groups
  let s3 := (ch.filter isL1p).foldl (fun t a =>
    let g := (a - 0x1020000) / 32
    if bitsOf (s.reg a).toNat 0 7 = s.portOfGroup g then t.setAct a (s.reg a)
    else if busy.any (fun d => decide (s.groupOfDw d = g)) then t.moveRefused true g
    else (t.setAct a (s.reg a)).clearDeficit (nodeL1 g)) s2
  -- step 2: dwellings
  (ch.filter isL2p).foldl (fun t a =>
    let d := (a - 0x1040000) / 32
    let gNew := bitsOf (s.reg a).toNat 0 10
    let gOld := s.groupOfDw d
    if gNew = gOld then t.setAct a (s.reg a)
    else if s.portOfGroup gOld = s3.portOfGroup gNew ∨ busy.contains d = false then (t.setAct a (s.reg a)).clearDeficit (nodeL2 d)
    else (t.setAct a (w32 (setBits (s.reg a).toNat 0 10 gOld))).moveRefused false d) s3

/-! ### Sojourn and sampling (R288 to R290) -/

/-- The admission time of the head frame of an egress queue; while all its frames are still on their way there, that of the earliest (R199). -/
def State.headAdmitted (s : State) (q : Nat) : Option Nat :=
  match (s.queue q).head? with
  | some x => some x.atTime
  | none =>
    s.fab.queues.foldl (fun m e => e.2.foldl (fun m x =>
      if x.eq = q ∧ x.left = [] then (match m with | some t => some (min t x.atTime) | none => some x.atTime) else m) m) none
def State.headSojourn (s : State) (q : Nat) : Nat :=
  match s.headAdmitted q with
  | some t => (s.now - t) / tNs
  | none => 0
/-- The watermark of a queue takes a sojourn in ns (R289). -/
def State.sojourn (s : State) (q ns : Nat) : State :=
  s.setReg (0x1600000 + 4 * q) (w32 (max (s.reg (0x1600000 + 4 * q)).toNat (min ns (2 ^ 32 - 1))))

/-- The first egress queue identifier of a range from a number on. -/
def egressFrom (a hi : Nat) : Option Nat :=
  if a < 0x10000 then (if a ≤ hi then some a else none)
  else if max a 0x12400 ≤ hi ∧ a < 0x12880 then some (max a 0x12400)
  else none
/-- The next egress queue of the sampler's range after the last, in round robin; with `SKIP_EMPTY` only a queue that holds frames. -/
def State.sampleNext (s : State) : Option Nat :=
  let lo := s.fld Fld.PL_SAMPLE_FIRST_QUEUE
  let hi := s.fld Fld.PL_SAMPLE_LAST_QUEUE
  let from_ := if lo ≤ s.pl.sampleQ + 1 ∧ s.pl.sampleQ + 1 ≤ hi then s.pl.sampleQ + 1 else lo
  if s.bit Fld.PL_SAMPLE_CTRL_SKIP_EMPTY then
    let qs := (s.fab.qcnt.map (fun e => e.1)).filter (fun q => decide (lo ≤ q ∧ q ≤ hi) && isEgress q && decide (0 < s.qCnt q))
    (match qs.find? (fun q => decide (from_ ≤ q)) with | some q => some q | none => qs.head?)
  else
    match egressFrom from_ hi with
    | some q => some q
    | none => egressFrom lo hi

/-- A sample is due every PERIOD × 8 ns while the sampler runs (R290). -/
def State.sample (s : State) : State :=
  if s.bit Fld.PL_SAMPLE_CTRL_EN ∧ s.pl.sampleAt ≤ s.now then
    let s1 := { s with pl := { s.pl with sampleAt := s.now + max (s.fld Fld.PL_SAMPLE_CTRL_PERIOD) 5 * 8 * tNs } }
    match s1.sampleNext with
    | none => s1
    | some q =>
      let s2 := { s1 with pl := { s1.pl with sampleQ := q } }
      match s2.samplePost (s2.fld Fld.PL_SAMPLE_CTRL_RING)
          [[w32 (s2.headSojourn q), w32 (s2.qLen q), w32 (s2.qCnt q)], [w32 s2.hmSec, w32 (s2.hmNs % 1000000000), w32 q]] 3 with
      | (true, s3) => s3
      | (false, s3) => (s3.count 0x2720000 1).raise Fld.PL_INT_STATUS_SAMPLE_DROP
  else s

/-! ### Eligibility (R273, R317, R320) -/

/-- Whether a port is stopped by PAUSE, and whether a class of it is stopped by PFC, now. A stop in progress runs out even where `PAUSE_EN` or `PFC_EN` is
cleared meanwhile: R44 and R45 ask the enables when the frame is received and are silent on this (DESIGN CHOICE, notes/assumptions/45.md). A write of
`PT_PFC_MAP` moves a running stop to the classes that its priority then maps to: R45 does not say whether the map at reception stays (DESIGN CHOICE,
notes/assumptions/45.md). -/
def State.paused (s : State) (p : Nat) : Bool := decide (s.now < (s.port p).pauseEnd)
def State.pfcStopped (s : State) (p c : Nat) : Bool :=
  (List.range 8).any (fun k => decide (bitsOf (s.fld (Fld.PT_PFC_MAP_MAP p)) (3 * k) 3 = c) && decide (s.now < (s.port p).pfcEnd.getD k 0))

/-- Whether a class of a port is stopped by either (R46). -/
def State.clsStopped (s : State) (p c : Nat) : Bool := s.paused p || s.pfcStopped p c
/-- Whether the port may start no frame of a queue: PAUSE stops every queue, PFC the port-class queues of its classes (R44 to R47). -/
def State.queueStopped (s : State) (p q : Nat) : Bool :=
  s.paused p || (decide (0x12400 ≤ q) && s.pfcStopped p ((q - 0x12400) % 8))

/-- The port under which an egress queue lies. -/
def State.portOfQ (s : State) (q : Nat) : Nat := if q < 0x10000 then s.portOfGroup (s.groupOfDw (q / 4)) else (q - 0x12400) / 8

/-- The launch time of a frame (in units of 2^-16 ns). -/
def State.launchOf (s : State) (f : Nat) : Option Nat :=
  match s.frame? f with
  | some x => (match x.host with | some h => h.launch | none => none)
  | none => none
def State.leadUnits (s : State) : Nat := max (s.fld Fld.HM_LAUNCH_CTRL_LEAD) 0x10 * 8 * 65536

/-- The transmission time of a frame in units of 2^-16 ns (R317): counted length and 20 bytes at the line rate. -/
def State.txUnits (s : State) (p node len : Nat) : Nat :=
  if modeRate (s.mode p) = 0 then 0 else (s.counted node len + 20).toNat * 8000 * 65536 / modeRate (s.mode p)

/-- A head frame too long for every window of its gate (R320). -/
def State.gateTooLong (s : State) (q : Nat) (x : QEnt) : Bool :=
  if q < 0x12400 then false
  else
    let p := (q - 0x12400) / 8
    let c := s.calendar p
    c.en && c.guard && (match c.longest ((q - 0x12400) % 8) with
      | some w => decide (0 < w) && decide (w < s.txUnits p (nodeOfQ q) x.data.length)
      | none => false)
/-- Whether `GUARD` holds on a port: that of the calendar in force, or, while every gate is open, that of the calendar that waits for its start, whose first
edge is the next that can close a gate (R320, R321). -/
def State.gateGuard (s : State) (p : Nat) : Bool :=
  if (s.calendar p).en then (s.calendar p).guard
  else match (s.gate p).next with
    | some c => c.en && c.guard
    | none => false
/-- Whether a queue's gate lets its head start (R319, R320). A head with a launch time that the MAC is to hold is on the line from that time on. -/
def State.gateOk (s : State) (q : Nat) (x : QEnt) : Bool :=
  if q < 0x12400 then true
  else
    let p := (q - 0x12400) / 8
    let c := (q - 0x12400) % 8
    bitOf (s.gateMask p) c &&
    (!(s.gateGuard p) ||
      (match s.gateOpenFor p c with
       | some d => decide (((s.launchOf x.fid).getD 0 - s.hm16) + s.txUnits p (nodeOfQ q) x.data.length ≤ d)
       | none => true))

/-- A launch time more than MAX_S seconds after the time at which its frame reached the head of its queue (R316). -/
def State.launchFar (s : State) (x : QEnt) : Bool :=
  match s.launchOf x.fid with
  | some t => decide (SMap.get (fun _ => 0) s.fab.headHm x.eq + clampNat 1 127 (s.fld Fld.HM_LAUNCH_CTRL_MAX_S) * 1000000000 * 65536 < t)
  | none => false

/-- Whether a leaf's head may be sent now as far as the leaf itself goes (R273): no launch of another head is looked at. -/
def State.leafReady (s : State) (q : Nat) : Bool :=
  match (s.queue q).head? with
  | none => false
  | some x =>
    let p := s.portOfQ q
    !x.doomed && decide ((s.port p).hold = holdUp) && !(s.queueStopped p q) &&
    !(s.launchFar x) && !(s.gateTooLong q x) && s.gateOk q x &&
    (match s.launchOf x.fid with | some t => decide (t < s.hm16 + s.leadUnits) | none => true) &&
    s.shaperOk (nodeOfQ q)

/-- Whether the interior nodes above a leaf allow it. -/
def State.pathOk (s : State) (q : Nat) : Bool :=
  if q < 0x10000 then s.shaperOk (nodeL2 (q / 4)) && s.shaperOk (nodeL1 (s.groupOfDw (q / 4))) else true

/-- The egress queues of a port that hold frames at egress. -/
def State.portQueues (s : State) (p : Nat) : List Nat :=
  (s.fab.queues.filter (fun e => isEgress e.1 && decide (s.portOfQ e.1 = p) && !e.2.isEmpty)).map (fun e => e.1)

/-- The earliest launch time that a port must keep free: of a ready head within LEAD of its time (R317). -/
def State.launchDue (s : State) (p : Nat) : Option (Nat × Nat) :=
  (s.portQueues p).foldl (fun m q =>
    match (s.queue q).head? with
    | none => m
    | some x =>
      match s.launchOf x.fid with
      | none => m
      | some t =>
        if s.leafReady q && s.pathOk q && decide (s.hm16 < t) then
          (match m with
           | some (u, v) => if t < u then some (t, q) else some (u, v)
           | none => some (t, q))
        else m) none

/-- Whether a leaf is eligible (R273), the launch of another head taken into account: a transmission that starts now, or at the frame's own launch time, must
end by then. -/
def State.leafEligible (s : State) (p q : Nat) : Bool :=
  s.leafReady q &&
  (match s.launchDue p, (s.queue q).head? with
   | some (t, q0), some x => decide (q = q0) || decide (max s.hm16 ((s.launchOf x.fid).getD 0) + s.txUnits p (nodeOfQ q) x.data.length ≤ t)
   | _, _ => true)

/-! ### DWRR (R274) -/

/-- A child as its parent's walk sees it: `void` says that it holds no frame, in the sense of R199. -/
structure Child where
  node : Nat
  ok   : Bool
  void : Bool
  leaf : Nat
  len  : Int
  wt   : Nat
  band : Nat

def State.deficit (pl : Planish) (node : Nat) : Int := SMap.get (fun _ => 0) pl.deficit node
def putDeficit (pl : Planish) (node : Nat) (v : Int) : Planish := { pl with deficit := SMap.put (fun _ => 0) pl.deficit node v }

/-- Children in the order of a node's round, as pairs of rank and number. -/
def childBefore (parent a b : Nat) : Bool :=
  decide (Config.childRank parent a < Config.childRank parent b) || (decide (Config.childRank parent a = Config.childRank parent b) && decide (a < b))
def insertChild (parent : Nat) (c : Child) : List Child → List Child
  | [] => [c]
  | d :: t => if childBefore parent c.node d.node then c :: d :: t else d :: insertChild parent c t
def sortChildren (parent : Nat) (l : List Child) : List Child := l.foldl (fun m c => insertChild parent c m) []

/-- The loop of R274 over the children of one band, the child at the pointer first; `begun` says whether the turn of the first has begun. -/
def dwrr (parent band : Nat) : Nat → List Child → Bool → Planish → Option (Child × Planish)
  | 0, _, _, _ => none
  | _, [], _, _ => none
  | k + 1, c :: t, begun, pl =>
    if !c.ok then dwrr parent band k (t ++ [c]) false (if c.void then putDeficit pl c.node 0 else pl)
    else
      let d := State.deficit pl c.node + (if begun then 0 else (c.wt : Int) * 64)
      if c.len ≤ d then
        let pl1 := putDeficit pl c.node (d - c.len)
        some (c, { pl1 with pointer := SMap.ins pl1.pointer (parent * 8 + band) (c.node, true) })
      else dwrr parent band k (t ++ [c]) false (putDeficit pl c.node d)

/-- A node's choice among its children: the highest band with an eligible child, then DWRR within it. -/
def chooseChild (parent : Nat) (cs : List Child) (pl : Planish) : Option (Child × Planish) :=
  let oks := cs.filter (fun c => c.ok)
  if oks.isEmpty then none
  else
    let band := oks.foldl (fun m c => max m c.band) 0
    let l := sortChildren parent (cs.filter (fun c => decide (c.band = band)))
    match SMap.look pl.pointer (parent * 8 + band) with
    | none => dwrr parent band (400 * (l.length + 1)) l false pl
    | some (n, b) =>
      let before := l.filter (fun c => childBefore parent c.node n)
      let after := l.filter (fun c => !(childBefore parent c.node n))
      let begun := b && (match after with | c :: _ => decide (c.node = n) | [] => false)
      dwrr parent band (400 * (l.length + 1)) (after ++ before) begun pl

/-- Nodes with a deficit, so that an empty child loses it when the pointer passes. -/
def State.withDeficit (s : State) (lo hi : Nat) : List Nat :=
  (s.pl.deficit.map (fun e => e.1)).filter (fun a => decide (lo ≤ a ∧ a < hi))

def State.mkLeaf (s : State) (p q : Nat) : Child :=
  let node := nodeOfQ q
  let len := match (s.queue q).head? with | some x => s.counted node x.data.length | none => 0
  ⟨node, s.leafEligible p q, decide (s.qCnt q = 0), q, len, s.nodeWeight node, s.nodePrio node⟩

/-- The length of the head frame of a leaf under a node's own profile. -/
def State.headLen (s : State) (node q : Nat) : Int :=
  match (s.queue q).head? with | some x => s.counted node x.data.length | none => 0

/-- The leaf that a dwelling would send, and Planish after its choice. -/
def State.pickDwelling (s : State) (p d : Nat) : Option (Nat × Planish) :=
  match chooseChild (nodeL2 d) ((List.range 4).map (fun k => s.mkLeaf p (4 * d + k))) s.pl with
  | some (c, pl) => some (c.leaf, pl)
  | none => none

def State.mkDwelling (s : State) (p d : Nat) : Child :=
  let node := nodeL2 d
  let void := (List.range 4).all (fun k => decide (s.qCnt (4 * d + k) = 0))
  match (if s.shaperOk node then s.pickDwelling p d else none) with
  | some (q, _) => ⟨node, true, false, q, s.headLen node q, s.nodeWeight node, s.nodePrio node⟩
  | none => ⟨node, false, void, 0, 0, s.nodeWeight node, s.nodePrio node⟩

/-- The dwellings of a group that hold frames or a deficit. -/
def State.groupChildren (s : State) (p g : Nat) : List Nat :=
  (((s.portQueues p).filter (fun q => decide (q < 0x10000))).map (fun q => q / 4) ++
    (s.withDeficit 0x1040000 0x10C0000).map (fun a => (a - 0x1040000) / 32)).eraseDups.filter (fun d => decide (s.groupOfDw d = g))

/-- The leaf that a group would send: its dwelling's choice is taken along. -/
def State.pickGroup (s : State) (p g : Nat) : Option (Nat × Planish) :=
  match chooseChild (nodeL1 g) ((s.groupChildren p g).map (fun d => s.mkDwelling p d)) s.pl with
  | none => none
  | some (c, pl) =>
    match ({ s with pl := pl }).pickDwelling p ((c.node - 0x1040000) / 32) with
    | some (q, pl2) => some (q, pl2)
    | none => none

def State.mkGroup (s : State) (p g : Nat) : Child :=
  let node := nodeL1 g
  let void := s.fab.qcnt.all (fun e => !(decide (e.1 < 0x10000 ∧ s.groupOfDw (e.1 / 4) = g)) || decide (e.2 = 0))
  match (if s.shaperOk node then s.pickGroup p g else none) with
  | some (q, _) => ⟨node, true, false, q, s.headLen node q, s.nodeWeight node, s.nodePrio node⟩
  | none => ⟨node, false, void, 0, 0, s.nodeWeight node, s.nodePrio node⟩

/-- The groups under a port that hold frames or a deficit. -/
def State.portGroups (s : State) (p : Nat) : List Nat :=
  if 128 ≤ p then []
  else
    (((s.portQueues p).filter (fun q => decide (q < 0x10000))).map (fun q => s.groupOfDw (q / 4)) ++
      (s.withDeficit 0x1020000 0x1028000).map (fun a => (a - 0x1020000) / 32)).eraseDups.filter (fun g => decide (s.portOfGroup g = p))

/-- The walk from a port to a leaf (R275): the leaf, and Planish after the choices on the path. Frames of one input and class that lie in different leaf queues
(R13) are sent in the order of this walk, though R14 names no such exception to its order (DESIGN CHOICE, notes/assumptions/18.md). -/
def State.walkPort (s : State) (p : Nat) : Option (Nat × Planish) :=
  if !(s.shaperOk (nodeL0 p)) then none
  else
    let cs := (List.range 8).map (fun c => s.mkLeaf p (pcqId p c)) ++ (s.portGroups p).map (fun g => s.mkGroup p g)
    match chooseChild (nodeL0 p) cs s.pl with
    | none => none
    | some (c, pl) =>
      if c.node < 0x1020000 then some (c.leaf, pl)
      else ({ s with pl := pl }).pickGroup p ((c.node - 0x1020000) / 32)

/-- The deductions of a selected frame from every enabled shaper on its path (R275). -/
def State.shapePath (s : State) (p q len : Nat) : State :=
  let s1 := (s.shape (nodeOfQ q) len).shape (nodeL0 p) len
  if q < 0x10000 then (s1.shape (nodeL2 (q / 4)) len).shape (nodeL1 (s.groupOfDw (q / 4))) len else s1

end Sys2Proof.Machine
end

