-- ==== Sys2Proof/Machine/Reception.lean ====
section
/-!
DEFINITION. Reception (R43 to R49, R192 to R194, R225, R253): cells as bytes arrive, the tests of a received frame, PAUSE and PFC, and the frame's
descriptor.
-/
namespace Sys2Proof.Machine

/-! ### Enables of ports (R54, R241) -/

def enIdle : Nat := 0
def enOn : Nat := 1
def enDraining : Nat := 2
def State.enState (s : State) (p : Nat) : Nat := s.fld (Fld.PT_STATUS_EN_STATE p)
def State.linkUp (s : State) (p : Nat) : Bool := s.bit (Fld.PT_STATUS_LINK p)

/-- Whether the MAC of a port receives: the link is up, no far-end loopback, and the port is enabled or completes the frame in reception. -/
def State.receives (s : State) (p : Nat) : Bool :=
  !(s.portAbsent p) && s.linkUp p && !(decide (s.fld (Fld.PT_CTRL_LOOPBACK p) = 2)) &&
  (decide (s.enState p = enOn) || (decide (s.enState p = enDraining) && (s.port p).rxOn))

/-! ### Cells of a reception -/

/-- The cells that a length takes, 40 at most (R192). -/
def cellsFor (len : Nat) : Nat := max 1 (min 40 ((len + 255) / 256))

/-- The pool that a pipeline asks: its region's, and in FOUNDRY and LEAVING the next pipeline's upward that had a free cell at the start of the cycle
(R225, R257). -/
def State.rxPoolFor (s : State) (i : Nat) : Option Nat :=
  if s.shared then
    match (List.range 8).find? (fun k => decide (0 < s.regionFreeSnap ((i + k) % 8))) with
    | some k => s.regionPool ((i + k) % 8)
    | none => s.regionPool i
  else s.regionPool i

/-- One more cell for the frame in reception on a port; a refusal ends its storage (R193, R231). -/
def State.rxTake (s : State) (p : Nat) : State :=
  let x := s.port p
  if x.rxRefused ∨ 40 ≤ x.rxCells.length then s
  else
    let i := pipeOf p
    let owner := if x.rxOn then x.rxOwner else if s.shared then 0x0A else i
    let lost (t : State) : State := t.setPort p { x with rxOn := true, rxOwner := owner, rxRefused := true }
    if !s.isl.rxOpen then lost s
    else
      match s.rxPoolFor i with
      | none => lost s
      | some n =>
        match s.alloc n owner i with
        | (some c, s1) => (s1.chain x.rxCells c).setPort p { x with
            rxOn := true, rxCells := x.rxCells ++ [c], rxOwner := owner, rxPool := if x.rxOn then x.rxPool else n }
        | (none, s1) => lost s1

/-- The cells that are still missing. -/
def State.rxFill (s : State) (p : Nat) : Nat → State
  | 0 => s
  | k + 1 => (s.rxTake p).rxFill p k

/-- A reception ends: its cells go back. -/
def State.rxFree (s : State) (p : Nat) : State :=
  let x := s.port p
  (s.releaseCells (relStage2 (pipeOf p)) x.rxOwner x.rxCells).setPort p { x with rxOn := false, rxCells := [], rxRefused := false }

/-! ### The tests of R49 -/

inductive RxCase where
  | aborted
  | jabber
  | oversize
  | fragment
  | undersize
  | fcsErr
  | good
  deriving DecidableEq, Repr

def State.rxCase (s : State) (p : Nat) (bs : List Byte) (cut : Bool) : RxCase :=
  if cut then .aborted
  else if 10240 < bs.length then .jabber
  else if s.mtu p < bs.length then .oversize
  else if bs.length < 64 then (if fcsGood bs then .undersize else .fragment)
  else if fcsGood bs then .good
  else .fcsErr

/-- The size bin of a length. -/
def sizeBin (len : Nat) : Nat :=
  if len ≤ 64 then 0 else if len < 128 then 1 else if len < 256 then 2 else if len < 512 then 3 else if len < 1024 then 4
  else if len < 1519 then 5 else if len < 2048 then 6 else if len < 4096 then 7 else 8

/-- A loss counter of a port, which is a loss indication for its streams (R338). -/
def State.countLoss (s : State) (p off : Nat) : State := (s.count (Ctr.port p off) 1).lossAt p

/-- A good frame's counters; MAC control frames have no cast counter (R43). -/
def State.countGood (s : State) (p : Nat) (bs : List Byte) (ctl : Bool) : State :=
  let s1 := ((s.count (Ctr.port p 0x000) bs.length).count (Ctr.port p 0x008) 1).count (Ctr.port p (0x0A8 + 8 * sizeBin bs.length)) 1
  if ctl then s1 else s1.count (Ctr.port p (0x010 + 8 * castOf bs)) 1

def isMacCtl (bs : List Byte) : Bool := decide (u16 bs 12 = 0x8808)

def State.countRx (s : State) (p : Nat) (bs : List Byte) : RxCase → State
  | .aborted => s.countLoss p 0x050
  | .jabber => s.countLoss p 0x048
  | .oversize => s.count (Ctr.port p 0x040) 1
  | .fragment => s.countLoss p 0x038
  | .undersize => s.count (Ctr.port p 0x030) 1
  | .fcsErr => s.countLoss p 0x028
  | .good => s.countGood p bs (isMacCtl bs)

/-! ### PAUSE and PFC (R43 to R48, R521) -/

/-- The time of a number of pause quanta at a port's rate: 512 bit times each. -/
def State.quantaTime (s : State) (p q : Nat) : Nat := s.lineTime p (64 * q)

/-- The latest end of a stop of a port. -/
def State.stopEnd (s : State) (p : Nat) : Nat := (s.port p).pfcEnd.foldl max (s.port p).pauseEnd
/-- Whether a stop of a port runs. -/
def State.stopped (s : State) (p : Nat) : Bool := decide (s.now < s.stopEnd p)

/-- Stopped time up to now is accumulated; PAUSED_QUANTA counts each further 512 bit times (R521). `acc` is in units of 1 bit time / 60,000. -/
def State.stopAccount (s : State) (p : Nat) : State :=
  let x := s.port p
  match x.stopFrom with
  | none => s
  | some _ =>
    let till := min s.now (s.stopEnd p)
    let add := (till - x.accAt) * modeRate (s.mode p)
    let total := x.acc + add
    let q := 512 * 60000
    let ended := decide (s.stopEnd p ≤ s.now)
    (s.setPort p { x with acc := total % q, accAt := max x.accAt till, stopFrom := if ended then none else x.stopFrom }).count
      (Ctr.port p 0x238) (total / q)

/-- The state after a change of a port's stops, with the start of each class's stop: one that goes on without a break keeps its start (R46, R48). -/
def State.clsFollow (s : State) (p : Nat) (t : State) : State :=
  t.setPort p { t.port p with clsFrom := (List.range 8).map (fun c =>
    if t.clsStopped p c then (if s.clsStopped p c then some (((s.port p).clsFrom.getD c none).getD t.now) else some t.now) else none) }

/-- Stops are about to change: what has run is accounted, and a stop that begins is noted. -/
def State.stopSet (s : State) (p pauseEnd : Nat) (pfcEnd : List Nat) : State :=
  let s1 := s.stopAccount p
  let s2 := s1.setPort p { s1.port p with pauseEnd := pauseEnd, pfcEnd := pfcEnd }
  let x := s2.port p
  s.clsFollow p
    (if s2.stopped p then
      (match x.stopFrom with
       | some _ => s2
       | none => s2.setPort p { x with stopFrom := some s2.now, accAt := s2.now })
    else s2.setPort p { x with stopFrom := none })

/-- A counter as it stands now: PAUSED_QUANTA counts as the stopped time passes (R521), those of a pool with its releases (R261). -/
def State.ctrNow (s : State) (a : Nat) : Nat :=
  if 0x2000000 ≤ a ∧ a < 0x2024000 ∧ a % 0x400 = 0x238 then (s.stopAccount ((a - 0x2000000) / 0x400)).ctr a
  else (s.ctr a + SMap.get (fun _ => 0) s.pool.cnts a) % 2 ^ 64
/-- A counter takes a value that software writes; what has counted up to now is gone. -/
def State.ctrWrite (s : State) (a v : Nat) : State :=
  if 0x2000000 ≤ a ∧ a < 0x2024000 ∧ a % 0x400 = 0x238 then (s.stopAccount ((a - 0x2000000) / 0x400)).setCtr a v
  else ({ s with pool := { s.pool with cnts := SMap.del s.pool.cnts a } }).setCtr a v

/-- Whether received PAUSE and PFC frames are ignored: until software clears `PAUSE_WD` after the watchdog (R48). -/
def State.pauseDeaf (s : State) (p : Nat) : Bool := s.bit (Fld.PT_INT_STATUS_PAUSE_WD p)

/-- What a PAUSE frame does (R44). -/
def State.pauseAct (s : State) (p quanta : Nat) : State :=
  if 128 ≤ p ∧ s.bit (Fld.PT_PAUSE_CTRL_PAUSE_EN p) ∧ s.pauseDeaf p = false then
    s.stopSet p (s.now + s.quantaTime p quanta) (s.port p).pfcEnd
  else s
/-- What a PFC frame does (R45). -/
def State.pfcAct (s : State) (p enables : Nat) (quanta : List Nat) : State :=
  if 128 ≤ p ∧ s.bit (Fld.PT_PAUSE_CTRL_PFC_EN p) ∧ s.pauseDeaf p = false then
    s.stopSet p (s.port p).pauseEnd ((List.range 8).map (fun k =>
      if bitOf enables k then s.now + s.quantaTime p (quanta.getD k 0) else (s.port p).pfcEnd.getD k 0))
  else s

def State.countPfc (s : State) (p enables : Nat) : State :=
  (List.range 8).foldl (fun s k => if bitOf enables k then s.count (Ctr.port p (0x060 + 8 * k)) 1 else s) s

/-- A MAC control frame is counted by its opcode and acts (R43). -/
def State.macCtl (s : State) (p : Nat) (bs : List Byte) : State :=
  if u16 bs 14 = 0x0001 then (s.count (Ctr.port p 0x058) 1).pauseAct p (u16 bs 16)
  else if u16 bs 14 = 0x0101 then (s.countPfc p (u16 bs 16 % 256)).pfcAct p (u16 bs 16 % 256) ((List.range 8).map (fun k => u16 bs (18 + 2 * k)))
  else s.count (Ctr.port p 0x0A0) 1

/-! ### The end of a reception -/

/-- The pipeline whose region holds a pool, else the frame's own (R225, R234). -/
def State.homePipe (s : State) (pool pipe : Nat) : Nat := ((List.range 8).find? (fun i => decide (s.regionPool i = some pool))).getD pipe
/-- Whether a frame holds a cell of a bank that a MEM reload reassigns (R234). -/
def State.inMemFlush (s : State) (cells : List Nat) : Bool := cells.any (fun c => bitOf s.fab.memMask (c / 16384))

/-- A frame takes its place among the frames, with a number of its own. -/
def State.addFrame (s : State) (x : Frame) : State :=
  let f := s.fab.nextFid
  ({ s with fab := { s.fab with nextFid := f + 1 } }).setFrame f x

/-- A descriptor as stage 2 makes it. -/
def Frame.fresh (data : List Byte) (cells : List Nat) (owner pool pipe srcKind src rxTime rxAt : Nat) : Frame :=
  ⟨data, cells, owner, pool, pipe, srcKind, src, rxTime, rxAt, 0, 0, none, none, .nowhere, Parse.none, 0, 0, none, none, none, false, false, none,
   none, .stored, 0⟩

/-- The last byte of a frame, or the cut that ends it (R49, R193, R194), with its RX timestamp and instant. -/
def State.rxEnd (s : State) (p : Nat) (bs : List Byte) (cut : Bool) (stamp at_ : Nat) : State :=
  let c := s.rxCase p bs cut
  let s1 := s.rxFill p (cellsFor bs.length - (s.port p).rxCells.length)
  let x := s1.port p
  let s2 := s1.countRx p bs c
  let s3 := if c = .good ∧ isMacCtl bs then s2.macCtl p bs else s2
  if x.rxRefused then (s3.countLoss p 0x378).rxFree p
  else if c ≠ .good ∨ isMacCtl bs then s3.rxFree p
  else if s3.inMemFlush x.rxCells then (s3.count (Ctr.pipe (s3.homePipe x.rxPool (pipeOf p)) 0x60) 1).rxFree p
  else (s3.setPort p { s3.port p with rxOn := false, rxCells := [], rxRefused := false }).addFrame
    (Frame.fresh bs x.rxCells x.rxOwner x.rxPool (pipeOf p) 0 p stamp at_)

/-- A reception is cut short (R49). -/
def State.rxAbort (s : State) (p : Nat) : State :=
  if (s.port p).rxOn then
    let s1 := s.countLoss p 0x050
    (if (s1.port p).rxRefused then s1.countLoss p 0x378 else s1).rxFree p
  else s

end Sys2Proof.Machine
end

