-- ==== Sys2Proof/Machine/Lookup.lean ====
section
/-!
DEFINITION. Stages 3 to 5 (R157 to R162, R138 to R142, R149, R116, R170, R340, R334, R284): a frame's dwelling, its forwarding decision, the action word,
learning, recovery, numbering and policing.
-/
namespace Sys2Proof.Machine

/-! ### Finding the dwelling (R157, R158) -/

/-- What the maps say of a frame. -/
inductive Mapped where
  | miss
  | src (d : Nat)
  | dst (d : Nat)
  | vlan (v : Nat)
  deriving DecidableEq, Repr

/-- The dwelling of a trunk frame by the slots of its trunk. -/
def State.svidDwelling (s : State) (p : Nat) (x : Parse) : Option Nat :=
  if x.tags.length < 2 ∨ x.vid 1 = 0 ∨ x.vid 1 = 4095 then none
  else
    match (List.range 16).find? (fun n =>
      let w := s.tblW tSvid ((p - 128) * 16 + n) 0
      bitOf w 31 && decide (w % 4096 = x.vid 0)) with
    | some n => some (bitsOf (s.tblW tSvid ((p - 128) * 16 + n) 0) 12 2 * 4096 + x.vid 1)
    | none => none

def State.mapFrame (s : State) (f : Frame) (x : Parse) : Mapped :=
  if f.srcKind ≠ 0 then .vlan (x.vid 0)
  else if f.src < 128 then
    let w := s.tblW tPvmap (f.src * 4096 + x.vid 0) 0
    if w / 2 ^ 30 = 1 then .src (w % 2 ^ 14) else if w / 2 ^ 30 = 2 then .vlan (w % 4096) else .miss
  else
    match s.svidDwelling f.src x with
    | some d => .dst d
    | none => .vlan (x.vid 0)

/-! ### Decisions -/

/-- A forwarding decision: destination, destination dwelling, class of a port-class override; or a drop with the plane counter that counts it. -/
structure Fate where
  dest : Dest
  dst  : Option Nat
  cls  : Option Nat
  ctr  : Option Nat
  deriving DecidableEq, Repr

def Fate.drop (ctr : Nat) : Fate := ⟨.nowhere, none, none, some ctr⟩
def ctrActErr : Nat := 0x08
def ctrNoUp : Nat := 0x18
def ctrMiss : Nat := 0x20
def ctrDwInvalid : Nat := 0x28
def ctrVlanInvalid : Nat := 0x30
def ctrFiltered : Nat := 0x38

/-- Unicast to a port without a destination dwelling. -/
def portFate (q : Nat) : Fate := if q < 144 then ⟨.port q, none, none, none⟩ else Fate.drop ctrActErr
/-- A queue override (R141, R142). -/
def State.queueFate (s : State) (id : Nat) : Fate :=
  if id < 0x10000 then (if s.dwValid (id / 4) then ⟨.queue id, some (id / 4), none, none⟩ else Fate.drop ctrActErr)
  else if 0x12400 ≤ id ∧ id < 0x12880 then ⟨.port ((id - 0x12400) / 8), none, some (id % 8), none⟩
  else Fate.drop ctrActErr
/-- Unicast to a dwelling as its destination. -/
def State.dwFate (s : State) (d : Nat) : Fate :=
  if s.dwValid d then ⟨.port (s.dwDrop d), some d, none, none⟩ else Fate.drop ctrDwInvalid

/-- The indirection table `t` of a plane chooses for a frame (R149). With SKIP_DOWN an entry that names a port above 143 is passed over like one whose port
is down; the spec does not say so (DESIGN CHOICE, notes/assumptions/14.md). -/
def State.lagFate (s : State) (k t : Nat) (kin : KeyIn) (bs : List Byte) (x : Parse) : Fate :=
  if 63 < t then Fate.drop ctrActErr
  else
    let i := s.hashIndex k t kin bs x
    let ent (j : Nat) : Nat := t * 256 + (i + j) % 256
    let up (j : Nat) : Bool :=
      s.bit (Fld.LP_IND_KIND k (ent j)) ||
      (let q := s.fld (Fld.LP_IND_TARGET k (ent j))
       decide (q < 144) && s.linkUp q && !(s.portAbsent q))
    let pick : Option Nat := if s.bit (Fld.LP_IND_CFG_SKIP_DOWN k t) then (List.range 256).find? up else some 0
    match pick with
    | none => Fate.drop ctrNoUp
    | some j =>
      if s.bit (Fld.LP_IND_KIND k (ent j)) then s.queueFate (s.fld (Fld.LP_IND_TARGET k (ent j)))
      else portFate (s.fld (Fld.LP_IND_TARGET k (ent j)))

/-- What a MAC entry's DEST names (R161). -/
def State.hitFate (s : State) (k data : Nat) (kin : KeyIn) (bs : List Byte) (x : Parse) : Fate :=
  if macDk data = 0 then portFate (macDest data)
  else if macDk data = 1 then s.lagFate k (macDest data) kin bs x
  else if macDk data = 2 then s.dwFate (macDest data)
  else ⟨.group (macDest data), none, none, none⟩

/-- The decision of the tables (R160). -/
def State.tableFate (s : State) (k : Nat) (m : Mapped) (kin : KeyIn) (bs : List Byte) (x : Parse) : Fate :=
  match m with
  | .miss => Fate.drop ctrMiss
  | .src d =>
    match (if castOf bs = 0 ∧ s.dwLocal d then s.macFind k (macKey (s.dwFid d) (dmacOf bs)) else none) with
    | some (_, e) => s.hitFate k e.data kin bs x
    | none => if s.dwUpLag d then s.lagFate k (s.dwUp d) kin bs x else portFate (s.dwUp d)
  | .dst d => s.dwFate d
  | .vlan v =>
    let w := s.tblW tVlan v 0
    if !(bitOf w 31) then Fate.drop ctrVlanInvalid
    else
      match s.macFind k (macKey (0x4000 + v) (dmacOf bs)) with
      | some (_, e) => s.hitFate k e.data kin bs x
      | none => ⟨.group (w % 8192), none, none, none⟩

/-- The port of a unicast decision. -/
def State.fatePort (s : State) : Dest → Option Nat
  | .port q => some q
  | .queue id => some (if id < 0x10000 then s.dwDrop (id / 4) else (id - 0x12400) / 8)
  | _ => none

/-- A frame is not sent back out of its ingress port, nor to its own source dwelling (R162). -/
def State.filterFate (s : State) (f : Frame) (m : Mapped) (t : Fate) : Fate :=
  let back := decide (f.srcKind = 0) && decide (s.fatePort t.dest = some f.src)
  let own : Bool := match m with
    | .src d => decide (t.dst = some d)
    | _ => false
  if t.ctr = none ∧ (back ∨ own) then Fate.drop ctrFiltered else t

/-- Drops that precede every decision: no map entry, or a dwelling of the map that is not in service (R157, R159). -/
def State.mapDrop (s : State) : Mapped → Option Nat
  | .miss => some ctrMiss
  | .src d => if s.dwValid d then none else some ctrDwInvalid
  | .dst d => if s.dwValid d then none else some ctrDwInvalid
  | .vlan _ => none

/-! ### The action word (R138) -/

structure Act where
  w0 : Nat
  w1 : Nat
  w2 : Nat

def Act.drop (a : Act) : Bool := bitOf a.w0 31
def Act.fwdKind (a : Act) : Nat := bitsOf a.w0 29 2
def Act.target (a : Act) : Nat := a.w0 % 2 ^ 17
def Act.copyEn (a : Act) : Bool := bitOf a.w1 31
def Act.copyRing (a : Act) : Nat := bitsOf a.w1 16 12
def Act.mirrorEn (a : Act) : Bool := bitOf a.w1 15
def Act.mirror (a : Act) : Nat := bitsOf a.w1 8 3
def Act.classEn (a : Act) : Bool := bitOf a.w1 7
def Act.cls (a : Act) : Nat := bitsOf a.w1 4 3
def Act.colourEn (a : Act) : Bool := bitOf a.w1 3
def Act.colour (a : Act) : Nat := colourOf (a.w1 % 4)
def Act.polEn (a : Act) : Bool := bitOf a.w2 31
def Act.policer (a : Act) : Nat := 32768 + bitsOf a.w2 16 12
def Act.countEn (a : Act) : Bool := bitOf a.w2 15
def Act.counter (a : Act) : Nat := a.w2 % 4096

/-- The action word of a frame: of the winning entry, or of `LP_FG_DEFAULT`. -/
def State.fgAction (s : State) (k : Nat) (n : Option Nat) : Act :=
  let ws := match n with
    | some e => (s.fgEnt k e).action
    | none => [s.reg (Reg.LP_FG_DEFAULT k 0), s.reg (Reg.LP_FG_DEFAULT k 1), s.reg (Reg.LP_FG_DEFAULT k 2)]
  ⟨(ws.getD 0 0).toNat, (ws.getD 1 0).toNat, (ws.getD 2 0).toNat⟩

/-- COUNT_EN, and the counter of frames that take the default. -/
def State.fgCount (s : State) (k : Nat) (n : Option Nat) (a : Act) (len : Nat) : State :=
  let s1 := if n.isNone then s.count (Ctr.plane k 0x00) 1 else s
  if a.countEn then
    let c := 0x2100000 + k * 0x10000 + a.counter * 0x10
    (s1.count c 1).count (c + 8) len
  else s1

/-- The policer of a trap-and-drop rule meters the copy (R140); false where the copy is not made. -/
def State.policeCopy (s0 : State) (k pipe len colour : Nat) (a : Act) : Bool × State :=
  if a.drop && a.copyEn && a.polEn then
    let s := s0.noteTurn pipe [a.policer]
    match s.meter a.policer len colour with
    | some o => (true, s.takeTokens a.policer len o)
    | none => (false, s.count (Ctr.plane k 0x10) 1)
  else (true, s0)

/-- The decision after Filigree (R139, R141). -/
def State.fgFate (s : State) (k : Nat) (a : Act) (t : Fate) (kin : KeyIn) (bs : List Byte) (x : Parse) : Fate :=
  if a.fwdKind = 1 then portFate a.target
  else if a.fwdKind = 2 then s.lagFate k a.target kin bs x
  else if a.fwdKind = 3 then s.queueFate a.target
  else t

/-! ### Continuity checks (R116) -/

/-- The configuration word of a MEP in effect. -/
def Mep.w (m : Mep) (i : Nat) : Nat := (m.cfg.getD i 0).toNat
def Mep.level (m : Mep) : Nat := bitsOf (m.w 0) 24 3
def Mep.vid (m : Mep) : Nat := m.w 0 % 4096
def Mep.port (m : Mep) : Nat := m.w 2 % 256

/-- The MEP that examines a frame. -/
def State.ccmMep (s : State) (f : Frame) (x : Parse) : Option Nat :=
  if f.srcKind = 0 ∧ x.etype = 0x8902 ∧ x.l4msg = 1 then
    match s.av.meps.find? (fun e => s.bit (Fld.AV_MEP_STATUS_ACTIVE e.1) && decide (e.2.port = f.src) && decide (e.2.vid = x.vid 0)) with
    | some (m, e) => if u8 f.data x.pay / 32 ≤ e.level then some m else none
    | none => none
  else none

/-! ### Learning (R170) -/

/-- The source lookup's key, learned DEST as in TC3, and whether learning is enabled. -/
def State.learnKey (s : State) (f : Frame) (k : Nat) (m : Mapped) : Option (Nat × Nat × Bool) :=
  let mac := smacOf f.data
  if f.srcKind ≠ 0 ∨ mac = 0 ∨ u8 f.data 6 % 2 = 1 then none
  else
    match m with
    | .src d => some (macKey (s.dwFid d) mac, macData false 0 2 d, s.dwLearn d)
    | .vlan v =>
      let lag := decide (128 ≤ f.src) && s.bit (Fld.LP_PORT_LEARN_LAG_EN k (f.src - 128))
      some (macKey (0x4000 + v) mac,
        if lag then macData false 0 1 (s.fld (Fld.LP_PORT_LEARN_TABLE k (f.src - 128))) else macData false 0 0 f.src,
        bitOf (s.tblW tVlan v 0) 30)
    | _ => none
def State.learnFrom (s : State) (f : Frame) (k : Nat) (m : Mapped) : Bool × State :=
  match s.learnKey f k m with
  | some (key, dest, en) => s.sourceLookup k key dest en
  | none => (false, s)

/-! ### Recovery and numbering at the end of stage 4 -/

/-- Recovery of a frame with an R-TAG (R340): false where it is discarded; the flag says whether recovery passed it. -/
def State.recoverFrame (s : State) (f : Frame) : Bool × Bool × State :=
  match f.parse.rtag with
  | none => (true, false, s)
  | some seq =>
    if f.srcKind = 0 ∧ s.recPort f.src then
      match (if f.src < 128 then f.srcDw else f.dstDw) with
      | some d =>
        if s.bit (Fld.TW_REC_EN d) then (let r := s.recover d seq; (r.1, r.1, r.2)) else (true, false, s)
      | none => (true, false, s)
    else (true, false, s)

/-- Numbering (R334, R335): false where the stream is muted. -/
def State.numberIn (s : State) (f : Frame) : Option Nat × Bool × State :=
  match s.streamOf f with
  | none => (none, true, s)
  | some n => let r := s.numberFrame n f; (some r.1, !r.2.1, r.2.2)

/-! ### Stages 3 to 5 -/

/-- The policers of a frame, in order (R284): the general policer of its action word, then those of its source dwelling. -/
def State.policersOf (s : State) (a : Act) (f : Frame) : List Nat :=
  (if a.polEn then [a.policer] else []) ++ (match f.srcDw with | some d => s.dwPolicers d f.cls | none => [])

/-- What stages 4 and 5 do with a frame that no rule has dropped: recovery, then the verdict of the source lookup (R171), then the numbering of a frame that
neither has dropped (R334), then learning from one that this did not drop either (R170), then policing. -/
def State.passStages (s : State) (fid : Nat) (f : Frame) (k : Nat) (m : Mapped) (a : Act) : State :=
  let dead (t : State) (g : Frame) : State := t.setFrame fid { g with drop := true, dest := .nowhere, stage := .looked }
  match s.recoverFrame f with
  | (false, _, s1) => dead s1 f
  | (true, rec_, s1) =>
    let f1 := if rec_ then { f with edit := f.edit ||| 2 ^ edRecovered } else f
    match s1.learnFrom f1 k m with
    | (true, s2) => dead s2 f1
    | (false, _) =>
      match s1.numberIn f1 with
      | (_, false, s2) => dead s2 f1
      | (n, true, s2) =>
        let f2 := { f1 with rtagSeq := n }
        let s3 := (s2.learnFrom f2 k m).2
        let ns := s3.policersOf a f2
        match (s3.noteTurn f2.pipe ns).police f2.pipe f2.data.length ns f2.colour with
        | (none, s4) => dead s4 f2
        | (some c, s4) => s4.setFrame fid { f2 with colour := c, stage := .looked }

/-- Whether an older frame of the same input still waits for its lookup: the frames of an input pass in the order in which their last bytes arrived (R14,
R15, R335). -/
def State.behind (s : State) (fid : Nat) (f : Frame) : Bool :=
  s.fab.frames.any (fun e => decide (e.1 < fid ∧ e.2.stage = .stored ∧ e.2.srcKind = f.srcKind ∧ e.2.src = f.src))

/-- A stored frame passes stages 3 to 5, as the oldest of its input. A policer that has served a later place of this CD24 cycle's turn does not go back: the
frame reaches it in the next cycle (R287). -/
def State.lookupFrame (s : State) (fid : Nat) : State :=
  match s.frame? fid with
  | none => s
  | some f0 =>
    if f0.stage ≠ .stored ∨ s.behind fid f0 then s
    else
      let k := planeOf f0.pipe
      let x := s.parse f0.pipe f0.data
      let m := s.mapFrame f0 x
      let qos := if f0.srcKind = 0 then s.initialQos f0.pipe f0.src x else (f0.cls, f0.colour)
      let dw := match m with | .src d => some d | .dst d => some d | _ => none
      let kin : KeyIn := ⟨f0.srcKind, f0.src, dw, qos.1, s.matchVector k f0.data x⟩
      let n := s.fgLookup k kin f0.data x
      let a := s.fgAction k n
      let srcDw := match m with | .src d => some d | _ => none
      let t := s.filterFate f0 m (s.fgFate k a (s.tableFate k m kin f0.data x) kin f0.data x)
      let cls := match t.cls with | some c => c | none => if a.classEn then a.cls else qos.1
      if s.outOfTurn f0.pipe (s.policersOf a { f0 with cls := cls, srcDw := srcDw }) then s
      else
      let s1 := s.fgCount k n a f0.data.length
      let cp := s1.policeCopy k f0.pipe f0.data.length qos.2 a
      let s2 := cp.2
      let f1 := { f0 with
        parse := x, fgEntry := n, edit := (match m with | .dst _ => 2 ^ edMapped | _ => 0),
        mirror := if a.mirrorEn then some a.mirror else none,
        copyRing := if a.copyEn && cp.1 then some a.copyRing else none,
        srcDw := srcDw, dstDw := (match m with | .dst d => some d | _ => none), cls := qos.1, colour := qos.2 }
      let dead (t : State) : State := t.setFrame fid { f1 with drop := true, stage := .looked }
      match s2.ccmMep f0 x with
      | some mep => dead { s2 with av := { s2.av with ccm := s2.av.ccm ++ [⟨mep, f0.data, x⟩] } }
      | none =>
        match s2.mapDrop m with
        | some c => dead (s2.count (Ctr.plane k c) 1)
        | none =>
          if a.drop then (let r := (s2.count (0x2140800 + f0.pipe * 8) 1); dead r)
          else
            match t.ctr with
            | some c => dead (s2.count (Ctr.plane k c) 1)
            | none =>
              s2.passStages fid { f1 with
                dest := t.dest, dstDw := t.dst, drop := false, cls := cls,
                colour := if a.colourEn then a.colour else qos.2 } k m a

end Sys2Proof.Machine
end

