-- ==== Sys2Proof/Machine/Admit.lean ====
section
/-!
DEFINITION. Stage 6 (R198 to R207, R271, R208, R143 to R145, R140, R212, R384, R466): a frame and its copies are tested and enqueued or refused.
-/
namespace Sys2Proof.Machine

/-! ### Debug level and trace (R464, R466) -/

def lvNone : Nat := 0
def lvObserve : Nat := 1
def lvInspect : Nat := 2
def lvMaker : Nat := 3
def State.dbgLevel (s : State) : Nat := s.fld Fld.SG_STATUS_DEBUG
/-- Whether traces and snapshots may be read: Observe or higher. -/
def State.observing (s : State) : Bool := decide (s.dbgLevel ≠ lvNone)

/-- A valid bit above a value. -/
def optBits (w : Nat) (o : Option Nat) : Nat := match o with | some v => 2 ^ w + v % 2 ^ w | none => 0
/-- DEST of a descriptor: a port (of the dwelling, for a queue override), or a group with the kind bit (R195). -/
def State.destBits (s : State) (f : Frame) : Nat :=
  match f.dest with
  | .group g => 2 ^ 17 + g
  | d => (s.fatePort d).getD 0

/-- The trace entry of a frame's descriptor. Of EDIT the spec names the content and no layout: the word is a free value (notes/assumptions/3.md). -/
def State.traceEntry (s : State) (f : Frame) : List Word :=
  let t := ts64 f.rxTime
  let ptp := decide (f.parse.flag pfPtp) || (match f.host with | some h => decide (h.ptpAct ≠ 0) | none => false)
  [w32 (f.cells.headD 0 + f.cells.length * 2 ^ 19 + f.cls * 2 ^ 25 + f.colour * 2 ^ 28 + b2n f.parse.ect * 2 ^ 30 + b2n ptp * 2 ^ 31),
   w32 (f.data.length + (f.srcKind * 4096 + f.src) * 2 ^ 14 + optBits 3 f.mirror * 2 ^ 28),
   w32 (optBits 14 f.srcDw + optBits 14 f.dstDw * 2 ^ 15 + 2 ^ 30),
   w32 (s.destBits f + optBits 12 f.copyRing * 2 ^ 18),
   w32 s.freeVal,
   w32 (optBits 16 f.rtagSeq + f.ref * 2 ^ 17 + f.pipe * 2 ^ 25),
   w32 t, w32 (t / 2 ^ 32)]

/-- An admitted frame that matches `DB_TRIG` is captured (R466). -/
def State.traceFrame (s : State) (f : Frame) (entered : List Nat) : State :=
  let hit := (!(s.bit Fld.DB_TRIG_QUEUE_EN) || entered.contains (s.fld Fld.DB_TRIG_QUEUE)) &&
             (!(s.bit Fld.DB_TRIG_PIPE_EN) || decide (f.pipe = s.fld Fld.DB_TRIG_PIPE))
  if s.bit Fld.DB_CTRL_TRACE_EN ∧ s.observing ∧ hit ∧ !(decide (4096 ≤ s.db.trace.length) && s.bit Fld.DB_CTRL_FREEZE) then
    if s.db.lastCyc = some s.tick then s.count 0x2790000 1
    else
      let e := s.traceEntry f
      let full := decide (4096 ≤ s.db.trace.length)
      let s1 := if full then s.raise Fld.DB_TRACE_STAT_WRAPPED else s
      let tr := (if full then s1.db.trace.drop 1 else s1.db.trace) ++ [e]
      let s2 := { s1.drawn with db := { s1.db with trace := tr, lastCyc := some s1.tick } }
      if full = false ∧ tr.length = 4096 then s2.raise Fld.DB_INT_STATUS_TRACE_FULL else s2
  else s

/-! ### Tests of one queue (R200 to R203) -/

/-- Q of a queue as a lane sees it (R203). -/
def State.qTest (s : State) (lane pipe q : Nat) : Nat :=
  if lane = 0 then s.qSnap q else s.qSeen pipe q

/-- A refusal by a queue: the pipeline's reason counter, and the queue's drops (R207). -/
def State.refuse (s : State) (pipe off : Nat) (q : Option Nat) (len : Nat) : State :=
  let s1 := s.count (Ctr.pipe pipe off) 1
  match q with
  | some q => s1.countDrop q len
  | none => s1

/-- A frame's place in one queue: its length and its admitted traffic. -/
def State.enter (s : State) (lane pipe q n len : Nat) : State :=
  (let t := s.lenIn q n; if lane = 0 then t.noteOwn pipe q n else t).countAdmit q len

/-- The tests of R200 in order; 0 where all pass, else the order of the test that refused. `via` is the VOQ, list, multicast, mirror or copy queue,
`thr` its threshold counter, `eq` the egress queue of a frame or copy for a port, `port` the port. -/
def State.admitTests (s : State) (lane : Nat) (f : Frame) (via thr : Nat) (port eq : Option Nat) (ect : Bool) : Nat × Bool × State :=
  let n := f.cells.length
  let len := f.data.length
  let i := f.pipe
  let fr := s.freeFor f.pool
  if (match port with | some q => decide (144 ≤ q) || s.portAbsent q | none => false) then (1, false, s.refuse i 0x00 none len)
  else if !(s.qEn via) then (2, false, s.refuse i 0x08 (some via) len)
  else
    match eq with
    | none =>
      if !(s.threshOk via (s.qTest lane i via) n fr) then (4, false, s.refuse i thr (some via) len) else (0, false, s)
    | some e =>
      if !(s.qEn e) then (3, false, s.refuse i 0x08 (some e) len)
      else if !(s.threshOk via (s.qTest lane i via) n fr) then (4, false, s.refuse i thr (some via) len)
      else if !(s.threshOk e (s.qTest lane i e) n fr) then (5, false, s.refuse i 0x18 (some e) len)
      else
        match s.wred i e (s.qTest lane i e) f.colour ect with
        | (.refuse, s1) => (6, false, s1.refuse i 0x20 (some e) len)
        | (.mark, s1) => (0, true, s1.count (Ctr.pipe i 0x28) 1)
        | (.pass, s1) => (0, false, s1)

/-! ### The frame itself -/

/-- The egress queue of a unicast frame (R198, R270, R141). -/
def State.egressQueue (s : State) (f : Frame) (q : Nat) : Nat :=
  match f.dest with
  | .queue id => id
  | _ => match f.dstDw with
    | some d => s.dwQueue d f.cls
    | none => pcqId q f.cls

/-- The egress pipelines of a group's ports, the ingress port apart (R208). -/
def State.groupPipes (s : State) (f : Frame) (g : Nat) : List Nat :=
  match s.mcgPorts g with
  | some ps => (List.range 8).filter (fun e => ps.any (fun q => decide (pipeOf q = e) && !(decide (f.srcKind = 0 ∧ f.src = q))))
  | none => []

/-- What stage 6 did with one frame or copy: the reason of a refusal (0 none, and 0x10 for an empty group), the queues entered, a mark. -/
structure Adm where
  reason : Nat
  queues : List Nat
  mark   : Bool

/-- The unicast or multicast admission of a frame. -/
def State.admitMain (s : State) (lane fid : Nat) (f : Frame) : Adm × State :=
  let n := f.cells.length
  let len := f.data.length
  let i := f.pipe
  match s.fatePort f.dest, f.dest with
  | some q, _ =>
    if (match f.dstDw with | some d => decide (s.dwDrop d ≠ s.portOfGroup (s.groupOfDw d)) | none => false) then
      (⟨8, [], false⟩, s.count (Ctr.pipe i 0x70) 1)
    else
      let via := if s.useLists then fdyId q f.cls else voqId i q f.cls
      let e := s.egressQueue f q
      match s.admitTests lane f via 0x10 (some q) (some e) f.parse.ect with
      | (0, m, s1) =>
        let x : QEnt := ⟨fid, q, f.cls, e, s1.now, decide ((s1.port q).hold = holdFlush), false, none, [], []⟩
        (⟨0, [via, e], m⟩, ((s1.enter lane i via n len).enter lane i e n len).push via x)
      | (r, _, s1) => (⟨r, [], false⟩, s1)
  | none, .group g =>
    let left := s.groupPipes f g
    if left = [] then (⟨0x10, [], false⟩, s.count (Ctr.pipe i 0x40) 1)
    else
      let via := mcqId i f.cls
      match s.admitTests lane f via 0x30 none none false with
      | (0, _, s1) =>
        let x : QEnt := ⟨fid, 0, f.cls, 0, s1.now, false, false, none, left, []⟩
        (⟨0, [via], false⟩, (s1.enter lane i via n len).push via x)
      | (r, _, s1) => (⟨r, [], false⟩, s1)
  | none, _ => (⟨9, [], false⟩, s)

/-! ### Copies (R143 to R145, R140) -/

/-- A copy for a host ring is marked by a port number above those of ports. -/
def ringPort (r : Nat) : Nat := 4096 + r

/-- The mirror copy of a session. -/
def State.admitMirror (s : State) (lane fid : Nat) (f : Frame) (n : Nat) : Option Nat × List Nat × State :=
  if !(s.bit (Fld.FB_MIRROR_CTRL_EN n)) then (none, [], s)
  else
    let via := mirId f.pipe n
    let tgt := s.fld (Fld.FB_MIRROR_CTRL_TARGET n)
    let cls := s.fld (Fld.FB_MIRROR_CTRL_CLASS n)
    let toPort := !(s.bit (Fld.FB_MIRROR_CTRL_DEST_KIND n))
    let eq := if toPort then some (pcqId tgt cls) else none
    match s.admitTests lane f via 0x10 (if toPort then some tgt else none) eq false with
    | (0, _, s1) =>
      let s2 := s1.enter lane f.pipe via f.cells.length f.data.length
      let s3 := if toPort then s2.enter lane f.pipe (pcqId tgt cls) f.cells.length f.data.length else s2
      let doomed := toPort && decide ((s3.port tgt).hold = holdFlush)
      let x : QEnt := ⟨fid, if toPort then tgt else ringPort tgt, cls, eq.getD via, s3.now, doomed, false, some n, [],
        truncated (s3.fld (Fld.FB_MIRROR_TRUNC_TRUNC n)) f.data⟩
      (some 0, via :: eq.toList, ((s3.push via x).count (0x2140400 + n * 0x10) 1))
    | (r, _, s1) => (some r, [], s1.count (0x2140408 + n * 0x10) 1)

/-- The copy to processor for a ring. -/
def State.admitCopy (s : State) (lane fid : Nat) (f : Frame) (r : Nat) : List Nat × State :=
  let via := cpyId f.pipe
  match s.admitTests lane f via 0x38 none none false with
  | (0, _, s1) =>
    let x : QEnt := ⟨fid, ringPort r, f.cls, via, s1.now, false, false, some 8, [], f.data⟩
    ([via], (s1.enter lane f.pipe via f.cells.length f.data.length).push via x)
  | (_, _, s1) => ([], s1)

/-! ### Stage 6 whole -/

/-- The host job of a frame learns its fate (R384): admitted, or refused with its reason. For a multicast group without ports the spec gives no
reason: the value is free (notes/assumptions/3.md). -/
def State.hostAdmit (s : State) (f : Frame) (a : Adm) : State :=
  match f.host with
  | none => s
  | some h =>
    if a.reason = 0 then
      let s1 := (s.countAdmit (hostQ h.ring) f.data.length).count (Ctr.hi 0x10) 1
      if h.tsReq then s1 else s1.jobEnd h.ring h.job stOk 0 0
    else if a.reason = 0x10 then s.drawn.txDrop h.ring h.job stRefused (s.freeVal % 16) f.data.length
    else s.txDrop h.ring h.job stRefused a.reason f.data.length

/-- The launch time of a host frame, taken with the time of stage 6 (R316). -/
def State.fixLaunch (s : State) (f : Frame) : Frame :=
  match f.host with
  | none => f
  | some h => { f with host := some { h with launch := h.launch.map (fun v => launchTime s.hm16 (v / 2 ^ 30) (v % 2 ^ 30)) } }

/-- Whether a frame would overtake an older one of its input, class and kind for the same output port, which is still before stage 6 (R14 to R16). -/
def State.overtakes (s : State) (fid : Nat) (f : Frame) : Bool :=
  s.fab.frames.any (fun e => decide (e.1 < fid ∧ e.2.stage ≠ .admitted ∧ e.2.srcKind = f.srcKind ∧ e.2.src = f.src) &&
    (decide (e.2.stage = .stored) || (!e.2.drop && decide (e.2.cls = f.cls ∧ s.fatePort e.2.dest = s.fatePort f.dest))))

/-- Stage 6 on a frame that stages 3 to 5 have passed. A packet lane that sleeps carries none (R474). -/
def State.admitFrame (s : State) (fid lane : Nat) : State :=
  match s.frame? fid with
  | none => s
  | some f0 =>
    if f0.stage ≠ .looked ∨ s.overtakes fid f0 ∨ (lane = 1 ∧ s.laneOff f0.pipe) then s
    else
      let f := s.fixLaunch f0
      let rm := if f.drop then (⟨9, [], false⟩, s) else s.admitMain lane fid f
      let s1 := rm.2
      let mi := match f.mirror with | some n => s1.admitMirror lane fid f n | none => (none, [], s1)
      let cp := match f.copyRing with | some r => mi.2.2.admitCopy lane fid f r | none => ([], mi.2.2)
      let entered := rm.1.queues ++ mi.2.1 ++ cp.1
      let ref := b2n (!rm.1.queues.isEmpty) + b2n (!mi.2.1.isEmpty) + b2n (!cp.1.isEmpty)
      let f1 := { f with ecn := rm.1.mark, stage := .admitted, ref := ref }
      let s2 := cp.2.setFrame fid f1
      let s3 := if ref = 0 then s2.freeFrame fid else s2.traceFrame f1 entered
      let s4 := s3.hostAdmit f1 rm.1
      s4.laneUse f.pipe lane

end Sys2Proof.Machine
end

