-- ==== Sys2Proof/Machine/Ports.lean ====
section
/-!
DEFINITION. Ports (chapter 2, R236 to R240, R275 to R277, R305 to R318): auto-negotiation and training, LPI, the fall of a link, selection, the start and the
end of a transmission with its PTP edits, and discards at the head of a queue.
-/
namespace Sys2Proof.Machine

/-! ### The line (R29 to R38, R52) -/

def State.enabled (s : State) (p : Nat) : Bool := decide (s.enState p = enOn)
def State.fec (s : State) (p : Nat) : Nat := s.afld (Fld.PT_MODE_FEC p)

/-- Whether a mode of a port, with its FEC, has alignment markers (IEEE 802.3, notes/assumptions/6.md), and whether its PCS is BASE-R. -/
def State.markers (s : State) (p : Nat) : Bool := decide (5 ≤ s.mode p) || (decide (s.mode p = 4) && decide (s.fec p = 2))
def State.baseR (s : State) (p : Nat) : Bool := decide (3 ≤ s.mode p)
/-- Whether auto-negotiation and training run on a port (R34 to R38). -/
def State.anRuns (s : State) (p : Nat) : Bool := decide (s.mode p = 1) && s.bit (Fld.PT_CTRL_AN_EN p)
def State.ltRuns (s : State) (p : Nat) : Bool := decide (128 ≤ p) && decide (s.mode p ≠ 0) && s.bit (Fld.PT_CTRL_LT_EN p)

/-- Whether a port is a candidate for up (R52). -/
def State.candidate (s : State) (p : Nat) : Bool :=
  s.bit (Fld.PT_STATUS_SIGNAL p) && s.bit (Fld.PT_STATUS_BLOCK_LOCK p) && !(s.baseR p && s.bit (Fld.PT_STATUS_HI_BER p)) &&
  (!(s.markers p) || s.bit (Fld.PT_STATUS_ALIGN p)) && (!(s.anRuns p) || decide (s.fld (Fld.PT_STATUS_AN_STATE p) = 2)) &&
  (!(s.ltRuns p) || decide (s.fld (Fld.PT_STATUS_LT_STATE p) = 2)) && !(s.bit (Fld.PT_STATUS_LOCAL_FAULT p)) &&
  !(s.bit (Fld.PT_STATUS_REMOTE_FAULT p))

/-- A condition of the candidate state has changed. -/
def State.candTouch (s : State) (p : Nat) : State := s.setPort p { s.port p with candAt := s.now }
/-- The state after an event of the line on a port, with the time noted where the port has become, or ceased to be, a candidate. -/
def State.candFollow (s : State) (p : Nat) (t : State) : State := if t.candidate p = s.candidate p then t else t.candTouch p

/-- The base page that the device advertises: full duplex, no PAUSE, and the remote-fault encoding of LOCAL_FAULT (R34; the bits are those of IEEE 802.3
clause 37: full duplex bit 5, PAUSE bits 7 and 8, remote fault bits 12 and 13 with 1 and 0 for a link failure, notes/assumptions/6.md). -/
def State.anPage (s : State) (p : Nat) : Word := w32 (0x0020 + s.fld (Fld.PT_STATUS_LOCAL_FAULT p) * 0x1000)
/-- A port that negotiates tells its partner its page. -/
def State.anTell (s : State) (p : Nat) : State :=
  if s.anRuns p ∧ s.fld (Fld.PT_STATUS_AN_STATE p) = 1 then s.emit (.an p (s.anPage p)) else s

/-- The lanes that a mode needs. -/
def modeLanes (m : Nat) : Nat := if m = 9 ∨ m = 10 then 2 else if m = 11 ∨ m = 12 then 4 else 1
/-- The taps of `PT_TXEQ`: pre-cursor, main, post-cursor. -/
def State.txTaps (s : State) (p : Nat) : Nat × Nat × Nat :=
  let w := (s.reg (Reg.PT_TXEQ p)).toNat
  (bitsOf w 0 6, bitsOf w 8 6, bitsOf w 16 6)
/-- The taps that the transmitters of a port's active lanes run with, by PCS lane: those that training has left them with, and without training those of
`PT_TXEQ` (R35, R36, R38, R56). -/
def State.laneTaps (s : State) (p : Nat) : List (Nat × Nat × Nat) :=
  if s.ltRuns p ∧ (s.port p).taps.length = modeLanes (s.mode p) then (s.port p).taps else List.replicate (modeLanes (s.mode p)) (s.txTaps p)

/-- Auto-negotiation starts, and the page goes out. -/
def State.anStart (s : State) (p : Nat) : State := if s.anRuns p then (s.candFollow p (s.setF (Fld.PT_STATUS_AN_STATE p) 1)).anTell p else s
/-- Training starts, on every active lane from the taps of `PT_TXEQ`. -/
def State.ltStart (s : State) (p : Nat) : State :=
  if s.ltRuns p then s.candFollow p ((s.setF (Fld.PT_STATUS_LT_STATE p) 1).setPort p { s.port p with ltAt := s.now, taps := [] }) else s

/-- The receiver of a port starts from nothing; what its mode needs first begins (R33). -/
def State.lineStart (s : State) (p : Nat) : State :=
  let z := [Fld.PT_STATUS_SIGNAL p, Fld.PT_STATUS_BLOCK_LOCK p, Fld.PT_STATUS_ALIGN p, Fld.PT_STATUS_HI_BER p, Fld.PT_STATUS_LOCAL_FAULT p,
    Fld.PT_STATUS_REMOTE_FAULT p, Fld.PT_STATUS_LPI_RX p, Fld.PT_STATUS_LPI_TX p, Fld.PT_STATUS_AN_STATE p, Fld.PT_STATUS_LT_STATE p]
  let s1 := z.foldl (fun s f => s.setF f 0) s
  if s1.enabled p then (s1.anStart p).ltStart p else s1

/-! ### What a port sends -/

def State.crf (s : State) (p : Nat) : Crf := SMap.get (fun _ => Crf.reset) s.crfs p
def State.setCrf (s : State) (p : Nat) (x : Crf) : State := { s with crfs := SMap.put (fun _ => Crf.reset) s.crfs p x }

/-- A core header (R66): LEN and HEC under the mask 0x5A3C_96E1. -/
def coreHeader (len : Nat) : List Byte :=
  beBytes 4 ((len * 65536 + crc16 (beBytes 2 len)) ^^^ 0x5A3C96E1)

/-- What a port's transmitter puts on its line: in the near-end loopback the line idles, and in the far-end loopback it carries what was received
(R55, LOOPBACK). -/
def State.lineOut (s : State) (p : Nat) (e : OutEv) : List OutEv :=
  if s.fld (Fld.PT_CTRL_LOOPBACK p) = 1 ∨ s.fld (Fld.PT_CTRL_LOOPBACK p) = 2 then [] else [e]
/-- Bytes leave a port's transmitter, a frame of which the last argument says whether it is cut: on to its line, or looped to its own receiver. -/
def State.toLine (s : State) (p : Nat) (bs : List Byte) (cut : Bool) (e : OutEv) : State :=
  if s.fld (Fld.PT_CTRL_LOOPBACK p) = 1 then s.setPort p { s.port p with loop := (s.port p).loop ++ [(bs, cut)] }
  else { s with out := s.lineOut p e ++ s.out }
/-- What a port's receiver hears goes back on to the line in the far-end loopback (R55). -/
def State.echo (s : State) (p : Nat) (bs : List Byte) : State :=
  if s.fld (Fld.PT_CTRL_LOOPBACK p) = 2 then s.emit (.echoed p bs) else s

/-- Whether a port's framer has room for a frame: less than a payload waits. -/
def State.framerRoom (s : State) (p : Nat) : Bool :=
  decide (((s.crf p).tx.units.map (fun t => t.ent.data.length + 4)).foldl (· + ·) 0 < 8176)

/-! ### Counting what is sent -/

def State.countTx (s : State) (p : Nat) (bs : List Byte) (sent : Nat) : State :=
  (((s.count (Ctr.port p 0x100) sent).count (Ctr.port p 0x108) 1).count (Ctr.port p (0x110 + 8 * castOf bs)) 1).count
    (Ctr.port p (0x138 + 8 * sizeBin bs.length)) 1

/-! ### LPI (R39 to R41) -/

def State.lpiMode (s : State) (p : Nat) : Bool :=
  decide (p < 128) && (decide (s.mode p = 3) || decide (s.mode p = 4)) && decide (s.fec p ≤ 1) && !(s.crfOn p) && s.bit (Fld.PT_LPI_CTRL_LPI_EN p)
/-- Whether the egress queues of a port are empty. -/
def State.portEmpty (s : State) (p : Nat) : Bool :=
  s.fab.qlen.all (fun e => !(isEgress e.1 && decide (s.portOfQ e.1 = p) && decide (0 < e.2)))
/-- Doze is asked for and in force (R473). -/
def State.doze (s : State) : Bool := decide (s.fld Fld.PW_STATUS_STATE = 1) && decide (s.fld Fld.PW_CTRL_TARGET = 1)
/-- Whether a port's queues have been empty for `IDLE_US`; 0 is never (R40). -/
def State.lpiIdle (s : State) (p : Nat) : Bool :=
  decide (s.fld (Fld.PT_LPI_CTRL_IDLE_US p) ≠ 0) && decide ((s.port p).emptyAt + s.fld (Fld.PT_LPI_CTRL_IDLE_US p) * tUs ≤ s.now)
def State.lpiEnter (s : State) (p : Nat) : State :=
  let idle := s.lpiIdle p || s.doze
  if s.lpiMode p ∧ s.enabled p ∧ s.linkUp p ∧ s.bit (Fld.PT_STATUS_LPI_TX p) = false ∧ (s.port p).tx = none ∧ (s.port p).aside = [] ∧ s.portEmpty p ∧ idle then
    (s.setF (Fld.PT_STATUS_LPI_TX p) 1).count (Ctr.port p 0x228) 1
  else s
/-- The transmitter leaves LPI; its wake takes TW_NS from now on. -/
def State.lpiExit (s : State) (p : Nat) : State :=
  if s.bit (Fld.PT_STATUS_LPI_TX p) then (s.setF (Fld.PT_STATUS_LPI_TX p) 0).setPort p { s.port p with lpiAt := s.now + s.fld (Fld.PT_LPI_CTRL_TW_NS p) * tNs }
  else s
/-! ### Starting a frame (R275, R317, R318, R474) -/

/-- Whether a drop port group's MAC client path is gated or still waking. -/
def State.pgAsleep (s : State) (g : Nat) : Bool :=
  decide (g < 8) && (bitOf (s.fld Fld.PW_STATUS_PG_GATED) g || (SMap.look s.pw.wakeAt g).isSome)
/-- A gated group begins to wake. -/
def State.pgWake (s : State) (g : Nat) : State :=
  if g < 8 ∧ bitOf (s.fld Fld.PW_STATUS_PG_GATED) g then
    (({ s with pw := { s.pw with wakeAt := SMap.ins s.pw.wakeAt g s.now } }).setF Fld.PW_STATUS_PG_GATED
      (s.fld Fld.PW_STATUS_PG_GATED - 2 ^ g)).count 0x2770000 1
  else s
/-- A group has work: its idle time starts afresh. -/
def State.pgUse (s : State) (g : Nat) : State :=
  if g < 8 then { s with pw := { s.pw with pgAt := SMap.ins s.pw.pgAt g s.now } } else s

/-! ### Reception while a group sleeps (R475) -/

def State.wakeBuf (s : State) (g : Nat) : List WakeFrame := SMap.get (fun _ => []) s.pw.buf g
def State.setWakeBuf (s : State) (g : Nat) (l : List WakeFrame) : State :=
  { s with pw := { s.pw with buf := SMap.put (fun _ => []) s.pw.buf g l } }
/-- The bytes a wake buffer holds. -/
def wakeBytes (l : List WakeFrame) : Nat := l.foldl (fun n x => n + x.bytes.length) 0

/-- A frame received while its group is gated or waking is stored if it fits whole in 64 KiB; else it is discarded and counted, and R49 counts it as
usual (R475). The group wakes. -/
def State.wakeStore (s : State) (p : Nat) (bs : List Byte) (cut : Bool) (stamp at_ : Nat) : State :=
  let g := groupOf p
  let l := s.wakeBuf g
  if wakeBytes l + bs.length ≤ 65536 then (s.setWakeBuf g (l ++ [⟨p, bs, cut, stamp, at_⟩])).pgWake g
  else (((s.countRx p bs (s.rxCase p bs cut)).count (Ctr.port p 0x3E8) 1).raise Fld.PW_INT_STATUS_WAKE_OVF).pgWake g

/-- The first byte of a frame at a port's MAC, or one of a further cell; a gated group's path does not reach the pool and wakes. -/
def State.rxFirst (s : State) (p : Nat) : State :=
  if s.pgAsleep (groupOf p) && !((s.port p).rxOn) then s.pgWake (groupOf p) else (s.pgUse (groupOf p)).rxTake p
/-- The last byte of a frame, or its cut, at a port's MAC: to the wake buffer of a group that sleeps, else to the checks of R49. -/
def State.rxLast (s : State) (p : Nat) (bs : List Byte) (cut : Bool) (stamp at_ : Nat) : State :=
  if s.pgAsleep (groupOf p) && !((s.port p).rxOn) then s.wakeStore p bs cut stamp at_
  else (s.pgUse (groupOf p)).rxEnd p bs cut stamp at_
/-- The reception on a port is cut short (R49); a frame in reassembly on a CRF port whose group sleeps has no cell yet and is counted all the same. -/
def State.rxCut (s : State) (p : Nat) : State :=
  let x := s.crf p
  if x.rx.take then
    ((if (s.port p).rxOn then s else s.countLoss p 0x050).setCrf p { x with rx := { x.rx with take := false } }).rxAbort p
  else s.rxAbort p

/-! ### The MAC's frame -/

/-- A frame that a port's MAC holds for its launch time, and whose class a PFC frame then stops, makes room for the frames of other classes (R45, R47). -/
def State.txAside (s : State) (p : Nat) : State :=
  match (s.port p).tx with
  | some t => if t.phase = .launchWait ∧ s.paused p = false ∧ s.queueStopped p t.ent.eq then
      s.setPort p { s.port p with tx := none, aside := (s.port p).aside ++ [t] } else s
  | none => s
/-- A frame that has made room comes back, once its class is no longer stopped and the MAC holds no other. -/
def State.txBack (s : State) (p : Nat) : State :=
  match (s.port p).tx, (s.port p).aside.findIdx? (fun t => !(s.queueStopped p t.ent.eq)) with
  | none, some i => s.setPort p { s.port p with tx := (s.port p).aside[i]?, aside := (s.port p).aside.eraseIdx i }
  | _, _ => s

/-- The frame in a port's MAC goes as far as it can: it waits for its group, for the LPI wake, for its launch time, for the end of a stop of its queue
(R44, R45), or starts now. On a CRF port the framer holds it for its launch time, and finds whether it is late (R86, R317, R318). -/
def State.txGo (s : State) (p : Nat) : State :=
  match (s.port p).tx with
  | none => s
  | some t =>
    if t.phase = .sending then s
    else
      let put (ph : TxPhase) : State := s.setPort p { s.port p with tx := some { t with phase := ph } }
      let stamp := s.txStamp p
      if s.pgAsleep (groupOf p) then put .pgWait
      else if s.now < (s.port p).lpiAt then put .lpiWait
      else
        let early := match s.launchOf t.ent.fid with
          | some T => !(s.crfOn p) && decide (stamp < T)
          | none => false
        if early || s.queueStopped p t.ent.eq then put .launchWait
        else
          let late := match s.launchOf t.ent.fid with
            | some T => !(s.crfOn p) && decide (T + 4 * 65536 < stamp)
            | none => false
          let s1 := s.setPort p { s.port p with tx := some { t with phase := .sending, since := s.now, stamp := stamp } }
          if late then s1.count (Ctr.port p 0x3C0) 1 else s1

/-- The frame that a port's transmitter works on, one that comes back first, goes as far as it can. -/
def State.txAdvance (s : State) (p : Nat) : State := (s.txBack p).txGo p

/-- Whether a queued frame is a singleton of a ring while the device does not hold the lease (R353). -/
def State.singleton (s : State) (x : QEnt) : Bool :=
  x.mirror.isNone && !s.duty &&
  (match s.frame? x.fid with
   | some f => (match f.host with
     | some h => bitOf (s.reg (Reg.TW_SGL_RING (h.ring / 32))).toNat (h.ring % 32)
     | none => false)
   | none => false)

/-- How many selections a port group's engine has made in this CD24 cycle, and whether the port is among them (R275). -/
def State.selectedNow (s : State) (p : Nat) : Nat :=
  match SMap.look s.pl.selected (groupOf p) with
  | some (c, n) => if c = s.cyc24 then n else 0
  | none => 0
def State.maySelect (s : State) (p : Nat) : Bool := decide (s.selectedNow p < 3) && decide (SMap.look s.pl.selPort p ≠ some s.cyc24)
def State.noteSelect (s : State) (p : Nat) : State :=
  { s with pl := { s.pl with selected := SMap.ins s.pl.selected (groupOf p) (s.cyc24, s.selectedNow p + 1),
                             selPort := SMap.ins s.pl.selPort p s.cyc24 } }

/-- Whether a port may discard a head in this CD24 cycle: at most one does, doomed or a singleton (R277). -/
def State.mayDrop (s : State) (p : Nat) : Bool := decide (SMap.look s.pl.dropPort p ≠ some s.cyc24)
def State.noteDrop (s : State) (p : Nat) : State := { s with pl := { s.pl with dropPort := SMap.ins s.pl.dropPort p s.cyc24 } }

/-- The head of a queue is discarded: its queue's drops and a counter. -/
def State.dropHead (s : State) (q : Nat) (ctrs : List (Nat × Nat)) : State :=
  match s.queue q with
  | [] => s
  | x :: t =>
    let s1 := ctrs.foldl (fun s c => s.count c.1 c.2) ((s.setQueue q t).countDrop q x.data.length)
    s1.discard x

/-- One selection of a port; a singleton frame that meets it is discarded, and the port selects on in the same cycle (R275, R277). -/
def State.selectTry (s : State) (p : Nat) : Nat → State
  | 0 => s
  | k + 1 =>
    match s.walkPort p with
    | none => s
    | some (q, pl) =>
      match s.queue q with
      | [] => s
      | x :: t =>
        if s.singleton x then
          (if s.mayDrop p then ((s.noteDrop p).dropHead q [(Ctr.tw 0x30, 1)]).selectTry p k else s)
        else
          let ns := (s.now - x.atTime) / tNs
          let s1 := (({ s with pl := pl }).shapePath p q x.data.length).sojourn q ns
          let s2 := (s1.setQueue q t).setPort p { s1.port p with tx := some ⟨x, .launchWait, s1.now, 0⟩ }
          ((((s2.noteSelect p).pgUse (groupOf p)).pgWake (groupOf p)).lpiExit p).txAdvance p

/-- A port selects when its MAC can start a frame and its group's engine still can in this CD24 cycle (R275). -/
def State.selectNew (s : State) (p : Nat) : State :=
  if s.maySelect p ∧ s.portDown p = false ∧ s.enabled p ∧ (s.port p).tx = none ∧ (s.port p).modeDue = none ∧ s.portAbsent p = false ∧ s.framerRoom p then
    s.selectTry p 2
  else s
/-- A port's MAC can start a frame: one that its launch time has held and a stop has set aside comes first, once its stop is over; else the port selects. -/
def State.select (s : State) (p : Nat) : State :=
  let s1 := (s.txAside p).txBack p
  if (s1.port p).aside.length < (s.txAside p |>.port p).aside.length then s1.txGo p else s1.selectNew p

/-! ### PTP on the fly (R308 to R310) -/

/-- A time as 10 bytes: seconds and nanoseconds. -/
def originBytes (t : Nat) : List Byte := beBytes 6 (t / 65536 / 1000000000) ++ beBytes 4 (t / 65536 % 1000000000)

/-- The ones-complement update of a checksum over the bytes of a message that an edit changes, from an even offset of the datagram. -/
def cksumBytes (c : Nat) (old new : List Byte) (k : Nat) : Nat :=
  (List.range k).foldl (fun c i => cksumUpdate c (u16 old (2 * i)) (u16 new (2 * i))) c

/-- A PTP message of a frame with some of its 44 first bytes replaced: the UDP checksum follows, and the FCS is made anew. -/
def ptpReplace (bs : List Byte) (x : Parse) (delta : Int) (msg : List Byte) : List Byte :=
  let o := ((x.ptpOfs : Int) + delta).toNat
  let old := byteSlice bs o 44
  let b1 := byteOver (noFcs bs) o msg
  let c := ((x.l4ofs : Int) + delta).toNat + 6
  let ck := u16 bs c
  let b2 := if x.l4 = l4Udp ∧ ck ≠ 0 then byteOver b1 c (beBytes 2 (cksumBytes ck old msg 22)) else b1
  withFcs b2

/-- A frame's PTP event message, if it is one: the messageType (R308). -/
def ptpEvent (bs : List Byte) (x : Parse) : Option Nat :=
  if x.flag pfPtp ∧ x.l4msg % 16 ≤ 3 ∧ u8 bs (x.ptpOfs + 1) % 16 = 2 ∧ (x.l4 ≠ l4Udp ∨ x.dport = 319) then some (x.l4msg % 16) else none

/-- The message with a value added to correctionField. -/
def corrAdd (msg : List Byte) (v : Int) : List Byte :=
  byteOver msg 8 (beBytes 8 (unsign 64 (((beNat (byteSlice msg 8 8) : Nat) : Int) + v)))

/-- The difference of two times of rings (R381), seconds modulo 2^16, in units of 2^-16 ns. -/
def tsDiff (a b : Nat) : Int :=
  let lin (t : Nat) : Int := (((t / 2 ^ 48) * 1000000000 + t / 2 ^ 16 % 2 ^ 32) * 65536 + t % 65536 : Nat)
  let m : Int := 65536 * 1000000000 * 65536
  let d := (lin a - lin b) % m
  if d < m / 2 then d else d - m

/-- A time of the device in steps of 0.25 ns: CD01 ticks with their sub-tick part at the resolution of timestamps (R305, R310). -/
def quarterTicks (t : Int) : Int := t.fdiv 15

/-- What a port sends of a frame, and its PTP counters. -/
def State.ptpEdit (s : State) (p : Nat) (t : TxSt) (f : Frame) : List Byte × State :=
  let bs := t.ent.data
  let delta : Int := (bs.length : Int) - (f.data.length : Int)
  let msg := byteSlice bs (((f.parse.ptpOfs : Int) + delta).toNat) 44
  let done (m : List Byte) : List Byte × State := (ptpReplace bs f.parse delta m, s.count (Ctr.port p 0x3D8) 1)
  if t.ent.mirror.isSome then (bs, s)
  else
    match f.host with
    | some h =>
      if h.ptpAct = 0 then (bs, s)
      else
        match ptpEvent f.data f.parse with
        | none => (bs, s.count (Ctr.port p 0x3E0) 1)
        | some ty =>
          if h.ptpAct = 1 then
            (if ty ≤ 2 then done (corrAdd (byteOver msg 34 (originBytes t.stamp)) ((t.stamp % 65536 : Nat) : Int)) else (bs, s.count (Ctr.port p 0x3E0) 1))
          else done (corrAdd msg (tsDiff (ts64 t.stamp) h.refTs))
    | none =>
      if f.srcKind = 0 ∧ s.bit (Fld.PT_TS_CTRL_TC_EN p) then
        match ptpEvent f.data f.parse with
        | none => (bs, s)
        | some _ =>
          let c : Int := if s.bit (Fld.PT_TS_CTRL_LINE_REF p) then
            (((s.tsConst p).2.1 : Nat) : Int) + signed 16 (s.fld (Fld.PT_TS_ASYM_TX_ASYM p)) else 0
          done (corrAdd msg ((quarterTicks ((t.since : Int) + (c * 60).fdiv 16) - quarterTicks (f.rxAt : Int)) * 16384))
      else (bs, s)

/-! ### The last byte (R212, R384) -/

/-- A frame has been sent whole, as `e` gives it after its PTP edit: it is counted, its host job completes and its reference is released. -/
def State.txDone (s : State) (p : Nat) (t : TxSt) (f : Frame) : State :=
  let s1 := s.countTx p t.ent.data t.ent.data.length
  let s2 := match f.host with
    | some h => if h.tsReq ∧ t.ent.mirror.isNone then
        s1.jobEnd h.ring h.job stOk (ts64 t.stamp % 2 ^ 32) (ts64 t.stamp / 2 ^ 32) else s1
    | none => s1
  (s2.leaveEgress t.ent).pgUse (groupOf p)

/-- The frame in transmission has crossed the MAC of an Ethernet port. -/
def State.txEnd (s : State) (p : Nat) : State :=
  match (s.port p).tx with
  | none => s
  | some t =>
    if t.phase = .sending ∧ t.since + s.lineTime p t.ent.data.length ≤ s.now then
      let s0 := s.setPort p { s.port p with tx := none }
      match s0.frame? t.ent.fid with
      | none => s0.leaveEgress t.ent
      | some f =>
        let e := s0.ptpEdit p t f
        (e.2.toLine p e.1 false (.frame p e.1 false)).txDone p t f
    else s
/-- The MAC of a CRF port has handed its frame to the framer, where it waits for a place in a payload (R67, R68; notes/assumptions/20.md). -/
def State.framerAdd (s : State) (p : Nat) (t : TxSt) : State :=
  let x := s.crf p
  (s.setPort p { s.port p with tx := none }).setCrf p { x with tx := { x.tx with units := x.tx.units ++ [t] } }
def State.framerTake (s : State) (p : Nat) : State :=
  match (s.port p).tx with
  | none => s
  | some t => if t.phase = .sending ∧ t.since + s.lineTime p t.ent.data.length ≤ s.now then s.framerAdd p t else s
/-- The last byte of a frame leaves the MAC: it has crossed the line's boundary, or, on a CRF port, it is the framer's. -/
def State.txLast (s : State) (p : Nat) : State := if s.crfOn p then s.framerTake p else s.txEnd p

/-! ### A fall of LINK during a transmission (R240, R276) -/

/-- The bytes of a truncated frame in CRF after `k` of them have been sent: the rest of LEN is zero bytes and a complemented FCS. -/
def cutFrame (bs : List Byte) (k : Nat) : List Byte :=
  let n := bs.length - 4
  let body := bs.take (min k n) ++ List.replicate (n - min k n) 0
  body ++ (fcsOf body).map (fun b => ~~~b)

/-- The bytes that a transmission has sent; it goes on for up to 20 ns after the fall (R240). -/
def State.sentBytes (s : State) (p : Nat) (t : TxSt) : Nat :=
  min t.ent.data.length ((s.now - t.since + s.freeVal % (20 * tNs + 1)) * modeRate (s.mode p) / 480000)

/-- A frame ends truncated after `n` bytes, or before its first (R240, R276): counters, host job with the timestamp that was taken, and reference. -/
def State.txTruncated (s : State) (p : Nat) (t : TxSt) (n ts : Nat) : State :=
  let s1 := (s.countTx p t.ent.data n).count (Ctr.port p 0x128) 1
  let s2 := match s1.frame? t.ent.fid with
    | some f => (match f.host with
      | some h => if h.tsReq ∧ t.ent.mirror.isNone then s1.jobEnd h.ring h.job stTruncated (ts % 2 ^ 32) (ts / 2 ^ 32) else s1
      | none => s1)
    | none => s1
  s2.leaveEgress t.ent

/-- The frame in the MAC ends with the link; one whose last byte has crossed is complete. A frame counts as begun from its selection on: held for the LPI
wake or for its launch time, or still the framer's on a CRF port, it ends with no byte sent (R276). -/
def State.txCut (s : State) (p : Nat) : State :=
  match (s.port p).tx with
  | none => s
  | some t =>
    if t.phase = .sending ∧ s.crfOn p = false ∧ t.since + s.lineTime p t.ent.data.length ≤ s.now then s.txEnd p
    else
      let s0 := s.setPort p { s.port p with tx := none }
      if t.phase = .sending ∧ s.crfOn p = false then
        let out := t.ent.data.take (s.sentBytes p t)
        (s0.drawn.toLine p out true (.frame p out true)).txTruncated p t out.length (if out = [] then 0 else ts64 t.stamp)
      else s0.txTruncated p t 0 0

/-- The frames set aside end with the link, with no byte sent (R276). -/
def State.asideCut (s : State) (p : Nat) : State :=
  (s.port p).aside.foldl (fun s t => s.txTruncated p t 0 0) (s.setPort p { s.port p with aside := [] })

/-- The framer's frames end with the link: those not begun with no byte sent, and the one whose rest is to come with the rest of its LEN as R240 fills it. -/
def State.framerCut (s : State) (p : Nat) : State :=
  let x := (s.crf p).tx
  let s1 := s.setCrf p { s.crf p with tx := { x with units := [] } }
  let s2 := x.units.foldl (fun s t => s.txTruncated p t 0 0) s1
  match x.open_ with
  | none => s2
  | some t =>
    let len := t.ent.data.length
    let left := x.carry.length
    let hdr := x.carry.take (left - len)
    let k := len - left
    let y := (s2.crf p).tx
    (s2.setCrf p { s2.crf p with tx := { y with carry := hdr ++ (cutFrame t.ent.data k).drop k, open_ := none } }).txTruncated p t len
      (if k = 0 then 0 else ts64 t.stamp)

/-- LINK of a port falls (R52, R53): the event and its counter, the reception cut short, the transmission ended, the hold, the MAC tables, the muting. What
RX_VAR shows while LINK is 0 is open: a free value within the mode's range (R306). -/
def State.linkFall (s : State) (p : Nat) : State :=
  if s.linkUp p then
    let s1 := ((s.setF (Fld.PT_STATUS_LINK p) 0).raise (Fld.PT_INT_STATUS_LINK_CHG p)).count (Ctr.port p 0x220) 1
    let s2 := (((s1.rxCut p).txCut p).asideCut p).framerCut p
    let s3 := s2.drawn.setF (Fld.PT_TS_VAR_RX_VAR p) (s2.freeVal % ((s2.tsConst p).2.2 + 1))
    let s4 := s3.setPort p { s3.port p with loop := [] }
    s.holdStep p ((s4.lossAt p).flushOnDown p)
  else s

/-- LINK of a port rises with the variable delay measured (R306). -/
def State.linkRise (s : State) (p rxVar : Nat) : State :=
  let v := min rxVar (s.tsConst p).2.2
  s.holdStep p ((((s.setF (Fld.PT_STATUS_LINK p) 1).raise (Fld.PT_INT_STATUS_LINK_CHG p)).setF (Fld.PT_TS_VAR_RX_VAR p) v).setPort p
    { s.port p with emptyAt := s.now })

/-! ### Enables of ports (R54, R241) -/

/-- A write of 1 to ENABLE. From DRAINING the port is enabled again and loses nothing. -/
def State.portEnable (s : State) (p : Nat) : State :=
  let was := s.enState p
  let s1 := (s.setF (Fld.PT_CTRL_ENABLE p) 1).setF (Fld.PT_STATUS_EN_STATE p) enOn
  if was = enIdle then s1.lineStart p else s1
/-- A write of 0 to ENABLE. -/
def State.portDisable (s : State) (p : Nat) : State :=
  let s1 := s.setF (Fld.PT_CTRL_ENABLE p) 0
  if s.enState p = enOn then s1.setF (Fld.PT_STATUS_EN_STATE p) enDraining else s1
/-- Whether a draining port has no frame in reception or transmission, its framer's frames included. -/
def State.drained (s : State) (p : Nat) : Bool :=
  decide (s.enState p = enDraining) && !((s.port p).rxOn) && !((s.crf p).rx.take) && (s.port p).tx.isNone && (s.port p).aside.isEmpty && (s.crf p).tx.units.isEmpty && (s.crf p).tx.open_.isNone

/-! ### Discards at the head of an egress queue -/

/-- A doomed head frame goes (R239); its port discards one at most in a CD24 cycle (R277). -/
def State.doomedDiscard (s : State) (q : Nat) : State :=
  match s.queue q with
  | x :: _ => if isEgress q ∧ x.doomed ∧ s.mayDrop x.port then
      (s.noteDrop x.port).dropHead q [(Ctr.port x.port 0x3B0, 1), (Ctr.port x.port 0x3B8, x.data.length)] else s
  | [] => s
/-- A head frame with its launch time too far ahead goes (R316). -/
def State.launchFarDiscard (s : State) (q : Nat) : State :=
  match s.queue q with
  | x :: _ => if isEgress q ∧ x.doomed = false ∧ s.launchFar x then s.dropHead q [(Ctr.port x.port 0x3C8, 1)] else s
  | [] => s
/-- A head frame too long for every window of its gate goes (R320). -/
def State.gateDiscard (s : State) (q : Nat) : State :=
  match s.queue q with
  | x :: _ => if isEgress q ∧ x.doomed = false ∧ s.gateTooLong q x then s.dropHead q [(Ctr.port x.port 0x3D0, 1)] else s
  | [] => s

/-- A hold has run out (R238): in the cycle after the one in which its time is reached, since a rise of the port in that one still counts. -/
def State.holdExpire (s : State) (p : Nat) : State :=
  if (s.port p).hold = holdHold ∧ s.portDown p ∧ s.holdEnd p / 60 < s.cyc24 then
    (s.setPort p { s.port p with hold := holdFlush, holdAt := s.now }).doomPort p
  else s

/-- The watchdog of stops: some class of the port has been stopped without a break for WD_MS; a stop of the port stops every class (R46, R48). -/
def State.pauseWatch (s : State) (p : Nat) : State :=
  let wd := s.fld (Fld.PT_PAUSE_CTRL_WD_MS p)
  let long (c : Nat) : Bool := s.clsStopped p c && (match (s.port p).clsFrom.getD c none with
    | some t => decide (t + wd * tMs ≤ s.now)
    | none => false)
  if 0 < wd ∧ (List.range 8).any long then
    (s.stopSet p 0 [0, 0, 0, 0, 0, 0, 0, 0]).raise (Fld.PT_INT_STATUS_PAUSE_WD p)
  else s

end Sys2Proof.Machine
end

