-- ==== Sys2Proof/Machine/Defects.lean ====
section
/-!
DEFINITION. Line defects, failures and consequent actions (R89 to R95, R522, R525), and the seconds that performance monitoring gathers (R96, R97).
-/
namespace Sys2Proof.Machine

def State.pm (s : State) (p : Nat) : Pm := SMap.get (fun _ => Pm.reset) s.pms p
def State.setPm (s : State) (p : Nat) (x : Pm) : State := { s with pms := SMap.put (fun _ => Pm.reset) s.pms p x }

/-! ### Defects: numbers as the bits of `LF_DEFECTS` (R120) -/

def dLOS : Nat := 0
def dLOF : Nat := 1
def dLOM : Nat := 2
def dAIS : Nat := 3
def dRDI : Nat := 4
def dDEG : Nat := 5

/-- What masks each defect (R90). -/
def maskOf (d : Nat) : List Nat :=
  if d = dLOS then [] else if d = dLOF then [dLOS] else if d = dRDI then [dLOS, dLOF, dAIS] else if d = dDEG then [dLOS, dLOF, dAIS] else [dLOS, dLOF]

/-- Whether a port detects defects at all (R525). -/
def State.watches (s : State) (p : Nat) : Bool := s.bit (Fld.PT_CTRL_ENABLE p) && decide (s.mode p ≠ 0)

/-- The defects that a port shows: those detected and not masked (R90); dLOS alone in an Ethernet mode (R92). -/
def State.defView (s : State) (p : Nat) : Nat :=
  let det := if s.watches p then (s.pm p).det else 0
  let seen := if s.crfOn p then det else det % 2
  (List.range 6).foldl (fun v d => if bitOf seen d && !((maskOf d).any (fun m => bitOf seen m)) then v + 2 ^ d else v) 0

/-- Whether dLOS's condition holds on a port (R89). -/
def State.losCond (s : State) (p : Nat) : Bool :=
  !(s.bit (Fld.PT_STATUS_SIGNAL p)) || !(s.bit (Fld.PT_STATUS_BLOCK_LOCK p)) || s.bit (Fld.PT_STATUS_HI_BER p) ||
  (decide (s.mode p = 5) && !(s.bit (Fld.PT_STATUS_ALIGN p)))

def State.defs (s : State) (p : Nat) : Nat := s.fld (Fld.LF_DEFECTS_DEF p)
def State.fails (s : State) (p : Nat) : Nat := s.fld (Fld.LF_DEFECTS_FAIL p)
/-- dLOS, dLOF or dAIS is present: a near-end defect (R94, R98). -/
def nearDefect (v : Nat) : Bool := bitOf v dLOS || bitOf v dLOF || bitOf v dAIS
/-- A port-down defect is present (R95). -/
def State.downDefect (s : State) (p : Nat) : Bool :=
  nearDefect (s.defs p) || (bitOf (s.defs p) dDEG && s.bit (Fld.LF_DEF_CTRL_DEG_DOWN p))

/-! ### Seconds (R96, R97) -/

/-- Whether a port's second is monitored as things stand (R96). -/
def State.monitored (s : State) (p : Nat) : Bool :=
  s.bit Fld.AV_PM_CTRL_ENABLE && s.bit (Fld.LF_PM_CTRL_MON_EN p) && s.watches p

/-- `n` seconds from a number on, as they are while nothing changes. -/
def State.quietSec (s : State) (p sec n : Nat) : PmSec :=
  ⟨sec, n, (s.pm p).bin15.start, !(s.monitored p), 0, 0, nearDefect (s.defs p), bitOf (s.defs p) dRDI, 0, 0, 0, s.crfOn p,
    s.bit (Fld.LF_PM_CTRL_FE_EN p), s.time.flowAt (sec + 1)⟩

/-- DAY_OFS as it acts: at most 86,399, rounded down to a multiple of 900. -/
def State.dayOfs (s : State) : Nat := min (s.fld Fld.AV_PM_CTRL_DAY_OFS) 86399 / 900 * 900
/-- The start of the 15-minute bin, and of the 24-hour bin, that holds a second. -/
def start15 (sec : Nat) : Nat := sec / 900 * 900
def start24 (sec ofs : Nat) : Nat := if sec < ofs then 0 else (sec - ofs) / 86400 * 86400 + ofs
/-- The end of the 24-hour bin that began at a second: the next second s with (s − DAY_OFS) mod 86,400 = 0. -/
def end24 (start ofs : Nat) : Nat := if start < ofs then ofs else start24 start ofs + 86400

/-- The second under way ends if the counter has left it: it waits for its grade, with the seconds in which nothing happened. A port that nothing has touched
since its island left reset has had unmonitored seconds since then, and its first bins are those of that time (R107). -/
def State.pmRoll (s : State) (p : Nat) : State :=
  let x := s.pm p
  let now_ := s.hmSec
  match x.acc with
  | none =>
    let up := s.isl.upSec
    let low := start15 up
    let old : PmSec := { s.quietSec p up (now_ - up) with unmon := true, low := low }
    s.setPm p { x with acc := some { s.quietSec p now_ 1 with unmon := true, low := low }, wait := if up < now_ then [old] else [], dayOfs := s.dayOfs,
                       bin15 := PmBin.current low true, bin24 := PmBin.current (start24 up s.dayOfs) true }
  | some a =>
    if now_ ≤ a.sec then s
    else
      let gap := if a.sec + 1 < now_ then [s.quietSec p (a.sec + 1) (now_ - a.sec - 1)] else []
      s.setPm p { x with acc := some (s.quietSec p now_ 1), wait := x.wait ++ [{ a with fin := s.time.flowAt (a.sec + 1) }] ++ gap }

/-- The second under way takes note of what is present now. -/
def State.pmTouch (s0 : State) (p : Nat) : State :=
  let s := s0.pmRoll p
  let x := s.pm p
  let v := s.defs p
  match x.acc with
  | none => s
  | some a => s.setPm p { x with acc := some { a with unmon := a.unmon || !(s.monitored p), ne := a.ne || nearDefect v, fe := a.fe || bitOf v dRDI,
                                                           feEn := a.feEn && s.bit (Fld.LF_PM_CTRL_FE_EN p) },
                                 since := x.since || nearDefect v }

/-- The second under way gathers a comparison of a BIP (R97). -/
def State.pmBip (s0 : State) (p : Nat) (bad : Bool) : State :=
  let s := s0.pmRoll p
  let x := s.pm p
  match x.acc with
  | none => s
  | some a => s.setPm p { x with acc := some { a with chk := a.chk + 1, eb := a.eb + b2n bad }, ebCum := (x.ebCum + b2n bad) % 2 ^ 32, frCum := (x.frCum + 1) % 2 ^ 32 }

/-- The second under way gathers the deltas of a report (R101, R102). -/
def State.pmReport (s0 : State) (p deb dfr : Nat) (defSince : Bool) : State :=
  let s := s0.pmRoll p
  let x := s.pm p
  match x.acc with
  | none => s
  | some a => s.setPm p { x with acc := some { a with deb := a.deb + deb, dfr := a.dfr + dfr, fe := a.fe || defSince } }

/-- The second under way gathers errors of PCS and FEC (R106). -/
def State.pmErrs (s0 : State) (p n : Nat) : State :=
  let s := s0.pmRoll p
  let x := s.pm p
  match x.acc with
  | none => s
  | some a => s.setPm p { x with acc := some { a with errs := a.errs + n } }

/-- The port changes mode: its second is unmonitored (R96), and what it gathers from here on is of the new mode. -/
def State.pmSpoil (s0 : State) (p : Nat) : State :=
  let s := s0.pmTouch p
  let x := s.pm p
  match x.acc with
  | none => s
  | some a => s.setPm p { x with acc := some { a with unmon := true, crf := s.crfOn p } }

/-- Errors that the PCS and the FEC of a port's line have had, on an enabled port of any mode and framing: they count (R57), in the second under way (R106),
and an errored block or an uncorrectable codeword is a loss indication for the port's streams (R338). -/
def State.lineCount (s : State) (p : Nat) (e : LineErrs) : State :=
  if s.mode p ≠ 0 ∧ s.enState p ≠ enIdle then
    let s1 := s.pmErrs p (e.blocks + e.uncorrected)
    let s2 := (((s1.count (Ctr.port p 0x200) e.blocks).count (Ctr.port p 0x208) e.corrected).count (Ctr.port p 0x210) e.uncorrected).count
      (Ctr.port p 0x218) e.symbols
    if e.blocks = 0 ∧ e.uncorrected = 0 then s2 else s2.lossAt p
  else s

/-- The counter is about to step: the second in progress of every port ends, and what is left of the new one is unmonitored too (R96;
notes/assumptions/24.md). -/
def State.pmStep (s0 : State) (newSec : Nat) : State :=
  (s0.pms.map (fun e => e.1)).foldl (fun s0 p =>
    let s := s0.pmTouch p
    let x := s.pm p
    match x.acc with
    | none => s
    | some a => s.setPm p { x with wait := x.wait ++ [{ a with unmon := true, fin := s.time.flow }],
                                   acc := some { s.quietSec p newSec 1 with unmon := true } }) s0

/-! ### What follows a change of defects (R93 to R95) -/

/-- A number per defect, replaced where the bit of a mask is set. -/
def stampBits (l : List Nat) (mask v : Nat) : List Nat := (List.range 6).map (fun d => if bitOf mask d then v else l.getD d 0)

/-- The shown defects follow the detected ones: change bits, failure timers, the second, and LINK of a CRF port. -/
def State.defUpdate (s0 : State) (p : Nat) : State :=
  let s := s0.pmTouch p
  let old := s.defs p
  let new := s.defView p
  let s1 := if old = new then s
    else ((s.setPm p { s.pm p with failAt := stampBits (s.pm p).failAt (old ^^^ new) s.now }).orF (Fld.LF_DEF_INT_STATUS_DEF_CHG p) (old ^^^ new)).setF
      (Fld.LF_DEFECTS_DEF p) new
  let x := s1.pm p
  let s2 := if s1.downDefect p then s1.setPm p { x with upAt := none }
    else s1.setPm p { x with upAt := some (x.upAt.getD s1.now) }
  let s3 := s2.pmTouch p
  if s3.crfOn p ∧ s3.downDefect p then s3.linkFall p else s3

/-- A defect is detected or cleared. -/
def State.defSet (s : State) (p d : Nat) (on : Bool) : State :=
  (s.setPm p { s.pm p with det := setBits (s.pm p).det d 1 (b2n on) }).defUpdate p

/-- Every defect and failure is cleared and every timer restarts (R525). -/
def State.defRestart (s : State) (p : Nat) : State :=
  let f := s.fails p
  let s1 := if f = 0 then s else (s.orF (Fld.LF_DEF_INT_STATUS_FAIL_CHG p) f).setF (Fld.LF_DEFECTS_FAIL p) 0
  let s2 := (s1.setPm p { s1.pm p with det := 0 }).defUpdate p
  s2.setPm p { s2.pm p with losAt := s2.now, lofAt := s2.now, lomAt := s2.now, failAt := List.replicate 6 s2.now, upAt := some s2.now, bad := 0, good := 0 }

/-! ### The timed rows (R89, R93, R95) -/

def State.isSync (s : State) (p : Nat) : Bool := decide (s.fld (Fld.LF_STATUS_FA_STATE p) = 2)
def State.mfLock (s : State) (p : Nat) : Bool := s.bit (Fld.LF_STATUS_MF_LOCK p)
def State.hasDef (s : State) (p d : Nat) : Bool := bitOf (s.pm p).det d

/-- dLOF: not in SYNC for 3 ms; it clears after 3 ms in SYNC. -/
def State.lofDetect (s : State) (p : Nat) : State :=
  if s.watches p ∧ s.crfOn p ∧ s.isSync p = false ∧ s.hasDef p dLOF = false ∧ (s.pm p).lofAt + 3 * tMs ≤ s.now then s.defSet p dLOF true else s
def State.lofClear (s : State) (p : Nat) : State :=
  if s.watches p ∧ s.crfOn p ∧ s.isSync p ∧ s.hasDef p dLOF ∧ (s.pm p).lofAt + 3 * tMs ≤ s.now then s.defSet p dLOF false else s
/-- dLOM: in SYNC without multiframe lock for 3 ms; it clears after 3 ms with lock. -/
def State.lomDetect (s : State) (p : Nat) : State :=
  if s.watches p ∧ s.crfOn p ∧ s.isSync p ∧ s.mfLock p = false ∧ s.hasDef p dLOM = false ∧ (s.pm p).lomAt + 3 * tMs ≤ s.now then s.defSet p dLOM true else s
def State.lomClear (s : State) (p : Nat) : State :=
  if s.watches p ∧ s.crfOn p ∧ s.mfLock p ∧ s.hasDef p dLOM ∧ (s.pm p).lomAt + 3 * tMs ≤ s.now then s.defSet p dLOM false else s
/-- dLOS clears when its condition has been absent for 1 ms. -/
def State.losClear (s : State) (p : Nat) : State :=
  if s.watches p ∧ s.losCond p = false ∧ s.hasDef p dLOS ∧ (s.pm p).losAt + tMs ≤ s.now then s.defSet p dLOS false else s

/-- A time in units of 0.1 s, 0 acting as 1. -/
def tenths (v : Nat) : Nat := max v 1 * 100 * tMs

/-- A failure is declared, or cleared (R93). -/
def State.failDeclare (s : State) (p d : Nat) : State :=
  if bitOf (s.defs p) d ∧ bitOf (s.fails p) d = false ∧ (s.pm p).failAt.getD d 0 + tenths (s.fld (Fld.LF_FAIL_TIME_SET p)) ≤ s.now then
    (s.orF (Fld.LF_DEFECTS_FAIL p) (2 ^ d)).orF (Fld.LF_DEF_INT_STATUS_FAIL_CHG p) (2 ^ d)
  else s
def State.failClear (s : State) (p d : Nat) : State :=
  if bitOf (s.defs p) d = false ∧ bitOf (s.fails p) d ∧ (s.pm p).failAt.getD d 0 + tenths (s.fld (Fld.LF_FAIL_TIME_CLEAR p)) ≤ s.now then
    (s.setF (Fld.LF_DEFECTS_FAIL p) (s.fails p - 2 ^ d)).orF (Fld.LF_DEF_INT_STATUS_FAIL_CHG p) (2 ^ d)
  else s

/-- LINK of a CRF port rises after UP_HOLD without a port-down defect (R95). -/
def State.crfLinkUp (s : State) (p rxVar : Nat) : State :=
  match (s.pm p).upAt with
  | some t =>
    if s.crfOn p ∧ s.watches p ∧ s.enabled p ∧ s.linkUp p = false ∧ t + s.fld (Fld.LF_DEF_CTRL_UP_HOLD p) * tMs ≤ s.now then s.linkRise p rxVar else s
  | none => s

end Sys2Proof.Machine
end

