-- ==== Sys2Proof/Machine/Crf.lean ====
section
/-!
DEFINITION. CRF (chapter 3): the receiver's alignment, multiframe, delineation and overhead channel, and the transmitter.
-/
namespace Sys2Proof.Machine

/-! ### Slots of the overhead channel (R78) -/

/-- First MFAS and number of frames of each slot: superframe count, time report, heartbeat, lease messages, remote report, host messages. -/
def slotSpan (i : Nat) : Nat × Nat :=
  if i = 0 then (0, 1) else if i = 1 then (1, 14) else if i = 2 then (15, 7) else if i = 3 then (22, 14) else if i = 4 then (36, 28) else (64, 192)
/-- The slot that a frame carries. -/
def slotOf (m : Nat) : Nat := if m < 1 then 0 else if m < 15 then 1 else if m < 22 then 2 else if m < 36 then 3 else if m < 64 then 4 else 5
def slotFirst (m : Nat) : Bool := decide ((slotSpan (slotOf m)).1 = m)
def slotLast (m : Nat) : Bool := decide ((slotSpan (slotOf m)).1 + (slotSpan (slotOf m)).2 = m + 1)
def slotBytes (i : Nat) : Nat := (slotSpan i).2 * 3

/-- A message with its CRC-16 behind it (R66). -/
def withCrc (bs : List Byte) : List Byte := bs ++ beBytes 2 (crc16 bs)
/-- Whether bytes `0` to `n - 1` carry their CRC-16 in the two bytes behind. -/
def crcGood (bs : List Byte) (n : Nat) : Bool := decide (u16 bs n = crc16 (bs.take n))
/-- Where the CRC of a slot lies; the superframe count has none. -/
def slotCrcAt (i : Nat) : Nat := if i = 1 then 40 else if i = 2 then 19 else if i = 3 then 40 else if i = 4 then 82 else 574

/-! ### Scrambler and descrambler (R69): a block is a 64-bit number whose bit 0 is sent first -/

def scramble (st d : Nat) : Nat :=
  let lo := (d ^^^ st) % 2 ^ 43
  lo + ((d / 2 ^ 43) ^^^ (lo % 2 ^ 21)) * 2 ^ 43
def descramble (st w : Nat) : Nat := w ^^^ ((st + w * 2 ^ 43) % 2 ^ 64)
/-- The 43 bits that the next block meets: the last ones sent. -/
def scrambleNext (w : Nat) : Nat := w / 2 ^ 21 % 2 ^ 43

def xorBytes (bs : List Byte) : Nat := bs.foldl (fun a b => a ^^^ b.toNat) 0

/-! ### Alignment (R72 to R74) -/

def fasBytes : List Byte := beBytes 8 0xB6D41E7AC3590F8E
/-- Bit errors of a block against the FAS. -/
def fasErrors (bs : List Byte) : Nat :=
  let d := leNat bs ^^^ leNat fasBytes
  (List.range 64).foldl (fun k i => k + b2n (bitOf d i)) 0

def State.lfCands (s : State) (p : Nat) : Nat := clampNat 1 4 (s.fld (Fld.LF_ALIGN_CANDS p))
def State.lfTol (s : State) (p : Nat) : Nat := min (s.fld (Fld.LF_ALIGN_TOL p)) 4
def State.lfM (s : State) (p : Nat) : Nat := max (s.fld (Fld.LF_ALIGN_M p)) 2
def State.lfN (s : State) (p : Nat) : Nat := max (s.fld (Fld.LF_ALIGN_N p)) 2

def State.crfRx (s : State) (p : Nat) : CrfRx := (s.crf p).rx
def State.setRx (s : State) (p : Nat) (x : CrfRx) : State := s.setCrf p { s.crf p with rx := x }
def State.setTx (s : State) (p : Nat) (x : CrfTx) : State := s.setCrf p { s.crf p with tx := x }

/-- Whether a port runs CRF: enabled or draining, in a supported mode (R70). -/
def State.crfRuns (s : State) (p : Nat) : Bool := decide (p < 128) && s.crfOn p && !(decide (s.enState p = enIdle)) && !(s.portAbsent p)

/-- `LF_STATUS` shows the trackers; in SYNC the one that holds the position is in use. -/
def State.lfShow (s : State) (p : Nat) : State :=
  let n := (s.crfRx p).trk.length
  let st := if s.isSync p then 2 else if n = 0 then 0 else 1
  (s.setF (Fld.LF_STATUS_FA_STATE p) st).setF (Fld.LF_STATUS_CANDS_ACTIVE p) (if st = 2 then 1 else n)

/-- Multiframe lock is gained or lost (R75). -/
def State.setLock (s : State) (p : Nat) (on : Bool) : State :=
  if s.mfLock p = on then s
  else
    let s1 := (s.setF (Fld.LF_STATUS_MF_LOCK p) (b2n on)).raise (Fld.LF_INT_STATUS_MF_CHG p)
    s1.setPm p { s1.pm p with lomAt := s1.now }

/-- Delineation goes back to DSEEK; a frame in reassembly is abandoned (R76, R77). -/
def State.delinLost (s : State) (p : Nat) : State :=
  let x := s.crfRx p
  let s1 := if x.take then s.rxCut p else s
  let s2 := s1.setRx p { x with st := .seek, buf := [], take := false, fhpDue := false }
  if s2.bit (Fld.LF_STATUS_DELIN p) then (s2.setF (Fld.LF_STATUS_DELIN p) 0).raise (Fld.LF_INT_STATUS_DELIN_LOSS p) else s2

/-- Whether a port is the twin link, on which the twin hears the CRF path (R344); `CRF_EN` is no condition of reception. -/
def State.twinPort (s : State) (p : Nat) : Bool := s.bit Fld.TW_CFG_EN && decide (s.fld Fld.TW_CFG_LINK_PORT = p)

/-- A slot is rejected: it is counted, unless every byte received of it is zero (R81). A heartbeat or a lease message of the twin is a bad one too (R344). -/
def State.slotReject (s : State) (p i : Nat) (bs : List Byte) : State :=
  if bs.all (fun b => decide (b = 0)) then s
  else
    let s1 := s.count (Ctr.port p 0x340) 1
    if s1.twinPort p ∧ (i = 2 ∨ i = 3) then s1.count (Ctr.tw 0x50) 1 else s1

/-- A slot that was under way fails (R81). -/
def State.slotBreak (s : State) (p : Nat) : State :=
  let x := s.crfRx p
  if x.slotOn then (s.setRx p { x with slotOn := false, slot := [] }).slotReject p x.slotNo x.slot else s

/-- SYNC is left: multiframe lock, delineation and the runs of R522 end. -/
def State.syncLeave (s : State) (p : Nat) : State :=
  if s.isSync p then
    let s1 := (((s.slotBreak p).delinLost p).setLock p false).setF (Fld.LF_STATUS_FA_STATE p) 0
    let x := s1.crfRx p
    let s2 := (s1.setRx p { x with trk := [], run := 0, live := false, delin := false, mfas := none, miss := 0, aisRun := (0, 0), rdiRun := (0, 0), rpt := none, markNow := false }).raise
      (Fld.LF_INT_STATUS_SYNC_CHG p)
    (s2.setPm p { s2.pm p with lofAt := s2.now, lomAt := s2.now }).lfShow p
  else s

/-- All trackers are freed: signal or block lock is lost, or the receiver restarts (R72, R74). -/
def State.crfHunt (s : State) (p : Nat) : State :=
  let s1 := s.syncLeave p
  (s1.setRx p { s1.crfRx p with trk := [] }).lfShow p

/-- The receiver and the transmitter of a CRF port start afresh (R74). The frames that the transmitter holds have begun and go on (R241): the rest of the one
under way leads the first payload. What is lost is the fill of a frame cut off, and the rest of an idle header; R74 is silent on both (DESIGN CHOICE,
notes/assumptions/20.md). -/
def State.crfRestart (s : State) (p : Nat) : State :=
  let s1 := s.crfHunt p
  let x := (s1.crf p).tx
  s1.setCrf p { Crf.reset with tx := { CrfTx.reset with units := x.units, open_ := x.open_, carry := if x.open_.isSome then x.carry else [], hmcLen := x.hmcLen } }

/-! ### Reports and messages (R80, R81, R85, R101) -/

/-- The time in 12 bytes of a report, in units of 2^-16 ns. -/
def reportTime (bs : List Byte) (o : Nat) : Nat :=
  (beNat (byteSlice bs o 6) * 1000000000 + u32 bs (o + 6) % 2 ^ 30) * 65536 + u16 bs (o + 10)
def timeBytes (t : Nat) : List Byte := beBytes 6 (t / 65536 / 1000000000) ++ beBytes 4 (t / 65536 % 1000000000) ++ beBytes 2 (t % 65536)

/-- An accepted time report: it is kept, and may give the servo an offset (R80, R304), where the time event of its own superframe was received. -/
def State.timeReport (s : State) (p : Nat) (bs : List Byte) : State :=
  if u8 bs 0 = 1 then
    let s1 := (s.putBytes (Reg.LF_TIME_RX p 0) bs).raise (Fld.LF_INT_STATUS_TIME_RX p)
    let x := s1.crf p
    if 192 ≤ u8 bs 1 ∧ s1.bit (Fld.LF_CTRL_TIME_RX_EN p) ∧ s1.fld Fld.HM_SERVO_CTRL_CRF_PORT = p then
      match (if x.rx.markNow then x.rx.mark else none), x.tx.marks.find? (fun m => decide (m.1 = beNat (byteSlice bs 26 3))) with
      | some m, some l =>
        s1.crfValue (((m.2 : Int) - (reportTime bs 2 : Int)) - ((reportTime bs 14 : Int) - (l.2 : Int)))
      | _, _ => s1
    else s1
  else s

/-- An accepted remote performance report (R101). -/
def State.remoteReport (s : State) (p : Nat) (bs : List Byte) : State :=
  if u8 bs 0 = 1 then
    let s1 := s.putBytes (Reg.LF_RPT_RX p 0) bs
    let x := s1.crfRx p
    let eb := u32 bs 2
    let fr := u32 bs 6
    let s2 := s1.setRx p { x with rpt := some (eb, fr, s1.now) }
    let since := bitOf (u8 bs 1) 6
    match x.rpt with
    | none => (s2.count (Ctr.port p 0x370) 1).pmReport p 0 0 since
    | some (eb0, fr0, t) =>
      let deb := (eb + 2 ^ 32 - eb0) % 2 ^ 32
      let dfr := (fr + 2 ^ 32 - fr0) % 2 ^ 32
      if t + 2 * tSec < s2.now ∨ dfr < deb then (s2.count (Ctr.port p 0x370) 1).pmReport p 0 0 since
      else (s2.count (Ctr.port p 0x368) deb).pmReport p deb dfr since
  else s

/-- An accepted host message block (R83, R85). R85 does not say what becomes of the buffer's bytes beyond LEN: they keep what they hold (DESIGN CHOICE,
notes/assumptions/45.md). -/
def State.hmcReceive (s : State) (p : Nat) (bs : List Byte) : State :=
  let n := u16 bs 0
  if n = 0 then s
  else if s.bit (Fld.LF_HMC_RX_STAT_VALID p) then (s.count (Ctr.port p 0x350) 1).raise (Fld.LF_INT_STATUS_HMC_RX_OVERRUN p)
  else (((s.putBytes (Reg.LF_HMC_RX p 0) (byteOver (s.getBytes (Reg.LF_HMC_RX p 0) 572) 0 (byteSlice bs 2 n))).setF (Fld.LF_HMC_RX_STAT_LEN p) n).setF
    (Fld.LF_HMC_RX_STAT_VALID p) 1).raise (Fld.LF_INT_STATUS_HMC_RX p)

/-- A slot received whole: rejected, empty, or accepted (R81). Heartbeats and lease messages of the twin link wait for the twin. -/
def State.slotDone (s : State) (p i : Nat) (bs : List Byte) : State :=
  if bs.all (fun b => decide (b = 0)) then s
  else if 0 < i ∧ crcGood bs (slotCrcAt i) = false then s.slotReject p i bs
  else if i = 1 then s.timeReport p bs
  else if i = 4 then s.remoteReport p bs
  else if i = 5 then (if 572 < u16 bs 0 then s.slotReject p i bs else s.hmcReceive p bs)
  else if s.twinPort p ∧ (i = 2 ∨ i = 3) then { s with tw := { s.tw with inbox := s.tw.inbox ++ [(i, bs)] } }
  else s

/-- The three CH bytes of a frame received in SYNC. `inSeq`: its MFAS follows that of the frame before. -/
def State.chBytes (s : State) (p m : Nat) (inSeq : Bool) (ch : List Byte) : State :=
  if s.mfLock p then
    let s1 := if slotFirst m ∨ (s.crfRx p).slotNo ≠ slotOf m then s.slotBreak p else s
    let x := s1.crfRx p
    let bad := if slotFirst m then false else if x.slotOn then x.slotBad || !inSeq else true
    let sofar := if slotFirst m then ch else x.slot ++ ch
    let s2 := if m = 0 then
        (let sf := beNat ch
         ((s1.setRx p { x with mark := some (sf, x.fasTime), markNow := true }).setF (Fld.LF_MARK_RX_SF_SF p) sf).putBytes (Reg.LF_MARK_RX p 0)
           ((List.range 3).foldl (fun l i => l ++ leBytes 4 (timeWord x.fasTime i).toNat) []))
      else if m = 1 ∧ inSeq = false then s1.setRx p { x with markNow := false }
      else s1
    let y := s2.crfRx p
    if slotLast m then
      (let s3 := s2.setRx p { y with slotOn := false, slot := [], slotBad := false }
       if bad then s3.slotReject p (slotOf m) sofar else s3.slotDone p (slotOf m) sofar)
    else s2.setRx p { y with slotOn := true, slotNo := slotOf m, slot := sofar, slotBad := bad }
  else
    let s1 := s.slotBreak p
    s1.setRx p { s1.crfRx p with markNow := false }

/-! ### A frame received in SYNC -/

/-- The FAS of a frame that is received in SYNC has been taken. `delin` says whether its payload is delineated: not that of the frame that completes SYNC. -/
def State.frameStart (s : State) (p : Nat) (delin : Bool) : State :=
  let x := s.crfRx p
  (s.setRx p { x with live := true, delin := delin, bipLast := if x.live then some x.bip else none, bip := 0, off := 0, fhpDue := false }).count (Ctr.port p 0x308) 1

/-- BIP of a frame against the parity of the one before, where that was received in SYNC (R63, R97). -/
def State.bipCheck (s : State) (p v : Nat) : State :=
  match (s.crfRx p).bipLast with
  | some w =>
    let t := (s.count (Ctr.port p 0x360) 1).pmBip p (decide (w ≠ v))
    if w = v then t else t.count (Ctr.port p 0x358) 1
  | none => s

/-- STAT and MFAS as received (R64, R87). -/
def State.statSeen (s : State) (p m stat : Nat) : State :=
  let s2 := (s.setF (Fld.LF_STATUS_RX_STAT p) stat).setF (Fld.LF_STATUS_RX_MFAS p) m
  let want := s2.fld (Fld.LF_CTRL_EXP_CLASS p)
  if want ≠ 0 ∧ stat % 16 ≠ want then s2.raise (Fld.LF_INT_STATUS_CLASS_MISMATCH p) else s2

/-- The multiframe (R75). -/
def State.mfSeen (s : State) (p m : Nat) (inSeq : Bool) : State :=
  let x := s.crfRx p
  let lock := s.mfLock p
  let miss := if lock && !inSeq then x.miss + 1 else 0
  (s.setRx p { x with mfas := some m, miss := miss }).setLock p (if lock then decide (miss < 5) else inSeq)

/-- A run of frames with one value of a STAT bit (R522). -/
def runNext (r : Nat × Nat) (v : Nat) : Nat × Nat := if r.1 = v then (v, r.2 + 1) else (v, 1)

/-- Five frames in a row with one value of a bit of STAT set or clear a defect (R89). -/
def State.runDefect (s : State) (p d : Nat) (r : Nat × Nat) : State :=
  if s.watches p ∧ 5 ≤ r.2 ∧ s.hasDef p d ≠ decide (r.1 = 1) then s.defSet p d (decide (r.1 = 1)) else s
def State.statRuns (s : State) (p stat : Nat) : State :=
  let x := s.crfRx p
  let a := runNext x.aisRun (b2n (bitOf stat 6))
  let r := runNext x.rdiRun (b2n (bitOf stat 7))
  ((s.setRx p { x with aisRun := a, rdiRun := r }).runDefect p dAIS a).runDefect p dRDI r

/-- The first-header pointer (R65, R76). -/
def State.fhpSeen (s : State) (p fhp : Nat) : State :=
  let z := s.crfRx p
  if z.delin then
    if z.st = .seek then
      if fhp ≤ 8175 then (s.setRx p { z with st := .skip fhp, fhp := fhp, fhpDue := false }).setF (Fld.LF_STATUS_DELIN p) 1 else s
    else s.setRx p { z with fhp := fhp, fhpDue := true }
  else s

/-- The overhead of a frame received in SYNC (R61). -/
def State.overhead (s : State) (p : Nat) (bs : List Byte) : State :=
  let m := u8 bs 0
  let inSeq := decide ((s.crfRx p).mfas = some ((m + 255) % 256))
  (((((s.bipCheck p (u8 bs 1)).statSeen p m (u8 bs 2)).mfSeen p m inSeq).statRuns p (u8 bs 2)).chBytes p m inSeq (byteSlice bs 5 3)).fhpSeen p (u16 bs 3)

/-! ### Delineation (R76) -/

/-- The first header of a payload begins at an offset (0xFFFF: none did): FHP is compared where the chain gave the position. -/
def State.fhpCheck (s : State) (p o : Nat) : State :=
  let x := s.crfRx p
  if x.fhpDue then
    let s1 := s.setRx p { x with fhpDue := false }
    if x.fhp = o then s1 else s1.count (Ctr.port p 0x338) 1
  else s

/-- A byte of a core header; the fourth decides. -/
def State.headerByte (s0 : State) (p : Nat) (hs : List Byte) (b : Byte) : State :=
  let s := if hs = [] then s0.fhpCheck p (s0.crfRx p).off else s0
  let h := hs ++ [b]
  let x := s.crfRx p
  if h.length < 4 then s.setRx p { x with st := .header h }
  else
    let v := beNat h ^^^ 0x5A3C96E1
    let len := v / 65536
    if v % 65536 ≠ crc16 (beBytes 2 len) then (s.count (Ctr.port p 0x328) 1).delinLost p
    else if len = 0 then s.setRx p { x with st := .header [] }
    else if 64 ≤ len ∧ len ≤ 10240 then s.setRx p { x with st := .frame len, buf := [], take := false }
    else (s.count (Ctr.port p 0x330) 1).delinLost p

/-- A byte of a frame: the first fixes the timestamp point of R86 and takes a cell; the last hands the frame to the MAC's checks. -/
def State.frameByte (s0 : State) (p left : Nat) (b : Byte) (ago : Nat) : State :=
  let x0 := s0.crfRx p
  let s := if x0.buf = [] then
      (let t := s0.setRx p { x0 with take := s0.receives p, stamp := s0.rxStamp p ago, instant := s0.rxInstant p ago }
       if s0.receives p then t.rxFirst p else t)
    else s0
  let x := s.crfRx p
  let body := x.buf ++ [b]
  if left ≤ 1 then
    let s1 := s.setRx p { x with st := .header [], buf := [], take := false }
    if x.take then s1.rxLast p body false x.stamp x.instant else s1
  else s.setRx p { x with st := .frame (left - 1), buf := body }

def State.feedByte (s : State) (p : Nat) (b : Byte) (ago : Nat) : State :=
  let s1 := match (s.crfRx p).st with
    | .seek => s
    | .skip 0 => s.headerByte p [] b
    | .skip (n + 1) => s.setRx p { s.crfRx p with st := .skip n }
    | .header hs => s.headerByte p hs b
    | .frame left => s.frameByte p left b ago
  s1.setRx p { s1.crfRx p with off := (s1.crfRx p).off + 1 }

/-- A block of payload: parity of the bytes as received, then the descrambled bytes in order. Byte `i` crossed the boundary `8 - i` byte times ago. -/
def State.payloadBlock (s : State) (p : Nat) (bs : List Byte) : State :=
  let x := s.crfRx p
  let w := leNat bs
  let d := leBytes 8 (descramble x.scr w)
  let s1 := s.setRx p { x with bip := x.bip ^^^ xorBytes bs, scr := scrambleNext w }
  let s2 := if x.delin then
      (List.range 8).foldl (fun s i => s.feedByte p (d.getD i 0) (s.lineTime p (8 - i))) s1
    else s1
  if (s2.crfRx p).off = 8176 then s2.fhpCheck p 0xFFFF else s2

/-! ### A block (R72) -/

def State.blockHunt (s : State) (p : Nat) (bs : List Byte) : State :=
  let x := s.crfRx p
  let i := x.blk
  let hit := decide (bs = fasBytes)
  let s1 := s.setRx p { x with blk := (i + 1) % 1024 }
  let y := s1.crfRx p
  match x.trk.find? (fun t => decide (t.1 = i)) with
  | some t =>
    if hit then
      if s.lfN p ≤ t.2 + 1 then
        let s2 := (s1.setRx p { y with trk := [], pos := i, run := 0, live := false, mfas := none, miss := 0 }).setF (Fld.LF_STATUS_FA_STATE p) 2
        let s3 := (s2.setPm p { s2.pm p with lofAt := s2.now, lomAt := s2.now }).raise (Fld.LF_INT_STATUS_SYNC_CHG p)
        let s4 := s3.setRx p { s3.crfRx p with fasTime := s3.rxStamp p (s3.lineTime p 8) }
        (s4.frameStart p false).lfShow p
      else (s1.setRx p { y with trk := x.trk.map (fun u => if u.1 = i then (i, u.2 + 1) else u) }).lfShow p
    else ((s1.setRx p { y with trk := x.trk.filter (fun u => decide (u.1 ≠ i)) }).count (Ctr.port p 0x320) 1).lfShow p
  | none =>
    if hit ∧ x.trk.length < s.lfCands p then (s1.setRx p { y with trk := x.trk ++ [(i, 1)] }).lfShow p else s1

def State.blockSync (s : State) (p : Nat) (bs : List Byte) : State :=
  let x := s.crfRx p
  let k := (x.blk + 1024 - x.pos) % 1024
  let s1 := s.setRx p { x with blk := (x.blk + 1) % 1024 }
  let y := s1.crfRx p
  if k = 0 then
    let e := fasErrors bs
    if e ≤ s.lfTol p then
      ((s1.setRx p { y with run := 0, fasTime := s1.rxStamp p (s1.lineTime p 8) }).count (Ctr.port p 0x310) e).frameStart p true
    else
      let s2 := (s1.setRx p { y with run := y.run + 1, fasTime := s1.rxStamp p (s1.lineTime p 8) }).count (Ctr.port p 0x318) 1
      if s.lfM p ≤ y.run + 1 then s2.syncLeave p else s2.frameStart p true
  else if y.live = false then s1
  else if k = 1 then s1.overhead p bs
  else s1.payloadBlock p bs

/-- A received block, on a CRF port with signal and block lock. -/
def State.crfBlock (s : State) (p : Nat) (bs : List Byte) : State :=
  if s.crfRuns p ∧ s.bit (Fld.PT_STATUS_SIGNAL p) ∧ s.bit (Fld.PT_STATUS_BLOCK_LOCK p) then
    (if s.isSync p then s.blockSync p bs else s.blockHunt p bs)
  else s

/-! ### The calendar (R434) -/

/-- Whether Anvil's calendar has a slot with a TASK and an ARG. -/
def State.calHas (s : State) (task arg : Nat) : Bool :=
  match SMap.look s.bt.regions 4 with
  | some bs => (List.range 1024).any (fun i => decide (u8 bs (4 * i) = task ∧ leNat (byteSlice bs (4 * i + 2) 2) = arg))
  | none => false

/-! ### Forming slots (R82, R435) -/

/-- A heartbeat of the twin (R342) on a path, with its number. -/
def State.heartbeat (s : State) (seq : Nat) : List Byte :=
  let flags := b2n (s.mainUp && s.isl.rxOpen) * 128 + b2n s.duty * 64 + s.fld Fld.TW_STATUS_EPOCH_VALID * 32 + s.fld Fld.TW_CFG_UNIT * 16 + s.fld Fld.TW_STATUS_SOLO * 8
  let paths := s.fld Fld.TW_STATUS_PIN_OK * 128 + s.fld Fld.TW_STATUS_CRF_OK * 64
  withCrc (beBytes 1 1 ++ beBytes 1 flags ++ beBytes 2 seq ++ beBytes 4 (s.fld Fld.TW_EPOCH_SEEN_EPOCH) ++ beBytes 6 s.jn.head ++ beBytes 1 paths ++
    beBytes 4 (s.fld Fld.TW_PAIR_ID_ID))
/-- Whether a port sends the slots of the CRF path (R341, R435). -/
def State.twinLink (s : State) (p : Nat) : Bool :=
  s.twinPort p && s.bit Fld.TW_CFG_CRF_EN && s.calHas 4 0
/-- The lease message that the CRF path sends on a port: the newest one; a RELEASE that has not gone out yet is sent even by a device that is no longer a twin
(R347, R348). -/
def State.leaseSlot (s : State) (p : Nat) : Option (List Byte) :=
  if s.bit Fld.TW_CFG_CRF_EN ∧ s.fld Fld.TW_CFG_LINK_PORT = p ∧ s.calHas 4 0 ∧ (s.bit Fld.TW_CFG_EN ∨ s.tw.sent = false) ∧ s.tw.msg.length = 42 then some s.tw.msg
  else none

/-- The 84 bytes of the remote performance report (R99). -/
def State.reportBytes (s : State) (p : Nat) : List Byte :=
  let x := s.pm p
  let b := x.bin15
  let flags := b2n (nearDefect (s.defs p)) * 128 + b2n x.since * 64 + s.fld (Fld.LF_PM_NOW_NE_UNAVAIL p) * 32
  let body := beBytes 1 1 ++ beBytes 1 flags ++ beBytes 4 x.ebCum ++ beBytes 4 x.frCum ++ beBytes 4 s.hmSec ++ beBytes 2 b.ne.es ++ beBytes 2 b.ne.ses ++
    beBytes 4 b.ne.bbe ++ beBytes 2 b.ne.uas
  withCrc (body ++ List.replicate (82 - body.length) 0)

/-- The time report less what the framer writes (R80, R435). -/
def State.timeSlot (s : State) : List Byte :=
  beBytes 1 1 ++ beBytes 1 (128 + s.servo) ++ List.replicate 27 0 ++ beBytes 1 (s.fld Fld.HM_UTC_CLOCK_CLASS) ++ beBytes 2 (s.fld Fld.HM_UTC_UTC_OFFSET) ++
    List.replicate 10 0

/-- The content of a slot, formed from the state now; a port that carries nothing in a slot has zero bytes. -/
def State.formSlot (s : State) (p i : Nat) : List Byte × State :=
  let t := (s.crf p).tx
  let zeros := List.replicate (slotBytes i) (0 : Byte)
  if i = 0 then (beBytes 3 (if t.mfas = 0 then t.sf else t.sf + 1), s)
  else if i = 1 then (if s.bit (Fld.LF_CTRL_TIME_TX_EN p) then (s.timeSlot, s) else (zeros, s))
  else if i = 2 then
    (if s.twinLink p then (s.heartbeat s.tw.seqCrf, { s with tw := { s.tw with seqCrf := (s.tw.seqCrf + 1) % 65536 } }) else (zeros, s))
  else if i = 3 then ((s.leaseSlot p).getD zeros, s)
  else if i = 4 then
    (if s.bit (Fld.LF_PM_CTRL_RPT_TX_EN p) then
      (s.reportBytes p, s.setPm p { s.pm p with since := nearDefect (s.defs p) }) else (zeros, s))
  else (zeros, s)

def State.crfPeriod (s : State) (p : Nat) : Nat := s.lineTime p 8192

/-- A TASK 0x01 slot: every slot of the port whose first byte is due within 100 µs is formed, once for each of its superframes. -/
def State.slotsForm (s : State) (p : Nat) : State :=
  if s.crfRuns p ∧ s.calHas 1 p then
    (List.range 6).foldl (fun s i =>
      let t := (s.crf p).tx
      let next := match t.at_ with
        | some a => max s.now (a + s.crfPeriod p)
        | none => s.now
      let due := next + (((slotSpan i).1 + 256 - t.mfas) % 256) * s.crfPeriod p
      if due ≤ s.now + 100 * tUs ∧ (SMap.look t.slots i).isNone then
        (let r := (s.pmRoll p).formSlot p i
         r.2.setTx p { (r.2.crf p).tx with slots := SMap.ins (r.2.crf p).tx.slots i r.1 })
      else s) s
  else s

/-! ### The transmitter (R60 to R70) -/

/-- How far ahead of the start of a CRF frame the first destination-address byte of a frame crosses the boundary whose core header is laid where `room` bytes of
the payload are left: behind the header, here or in the next payload (R86). -/
def State.daAhead (s : State) (p room : Nat) : Nat := s.lineTime p (16 + (8176 - room) + 4 + (if room ≤ 4 then 16 else 0))
/-- The idle headers that go before a frame with a launch time, so that its TX timestamp is the first at or after it (R317). -/
def State.launchGap (s : State) (p room : Nat) (t : TxSt) : Nat :=
  match s.launchOf t.ent.fid with
  | none => 0
  | some T => ((List.range (room / 4 + 1)).find? (fun k => decide (T ≤ s.txStampIn p (s.daAhead p (room - 4 * k))))).getD (room / 4 + 1)
/-- A frame whose TX timestamp is more than 4 ns past its launch time is late (R318). -/
def State.countLate (s : State) (p : Nat) (t : TxSt) : State :=
  match s.launchOf t.ent.fid with
  | some T => if T + 4 * 65536 < t.stamp then s.count (Ctr.port p 0x3C0) 1 else s
  | none => s

/-- The framer's frames laid into the room that is left of a payload, whole or up to its end, each behind its core header (R67, R68): the bytes laid, and the
state after. A frame with a launch time waits behind idle headers until its time, in a later payload where it lies beyond this one (R317). The timestamp point
of a frame is where its first destination-address byte crosses the boundary (R86), and its PTP edit is made with that time. A frame that ends here is sent. -/
def State.layUnits (s : State) (p : Nat) : List TxSt → Nat → List Byte × State
  | [], _ => ([], s.setTx p { (s.crf p).tx with units := [] })
  | t :: rest, left =>
    let gap := 4 * s.launchGap p left t
    if left ≤ gap then ([], s.setTx p { (s.crf p).tx with units := t :: rest })
    else
      let room := left - gap
      let idle := (List.replicate (gap / 4) (coreHeader 0)).flatten
      let ahead := s.daAhead p room
      let t1 := { t with since := s.now + ahead, stamp := s.txStampIn p ahead }
      match s.frame? t.ent.fid with
      | none => (s.leaveEgress t.ent).layUnits p rest left
      | some f =>
        let e := (s.countLate p t1).ptpEdit p t1 f
        let u := coreHeader e.1.length ++ e.1
        if u.length ≤ room then
          let r := (e.2.txDone p t1 f).layUnits p rest (room - u.length)
          (idle ++ u ++ r.1, r.2)
        else
          (idle ++ u.take room,
            e.2.setTx p { (e.2.crf p).tx with carry := u.drop room, open_ := some { t1 with ent := { t1.ent with data := e.1 } }, units := rest })

/-- The rest of the frame that went on from the last payload has been laid: that frame is sent. -/
def State.openDone (s : State) (p : Nat) : State :=
  let x := (s.crf p).tx
  let s1 := s.setTx p { x with carry := [], open_ := none }
  match x.open_ with
  | none => s1
  | some t => (match s1.frame? t.ent.fid with
    | some f => s1.txDone p t f
    | none => s1.leaveEgress t.ent)

/-- A payload: what goes on from the last one, then waiting frames, then idle fill (R65, R67, R68): its bytes, FHP, and the state after. While LINK is 0 or AIS
is forced nothing is selected for the port and what follows the frames begun is idle fill alone (R70, R240). -/
def State.layPayload (s : State) (p : Nat) : List Byte × Nat × State :=
  let x := (s.crf p).tx
  if 8176 < x.carry.length then (x.carry.take 8176, 0xFFFF, s.setTx p { x with carry := x.carry.drop 8176 })
  else
    let r := (s.openDone p).layUnits p x.units (8176 - x.carry.length)
    let sofar := x.carry ++ r.1
    let room := 8176 - sofar.length
    let hdr := coreHeader 0
    let fill := ((List.replicate ((room + 3) / 4) hdr).flatten).take room
    (sofar ++ fill, if x.carry.length = 8176 then 0xFFFF else x.carry.length,
      if room % 4 = 0 then r.2 else r.2.setTx p { (r.2.crf p).tx with carry := hdr.drop (room % 4) })

/-- The framer takes a frame with a launch time from the MAC as a payload begins, so that its place in the payload is where its time lies (R317). -/
def State.framerLaunch (s : State) (p : Nat) : State :=
  match (s.port p).tx with
  | none => s
  | some t => if t.phase = .sending ∧ (s.launchOf t.ent.fid).isSome then s.framerAdd p t else s

/-- A payload scrambled, block by block (R69): the bytes as sent, and the scrambler's state after them. -/
def scrambleAll : Nat → Nat → List Byte → List Byte × Nat
  | 0, st, _ => ([], st)
  | n + 1, st, bs =>
    let w := scramble st (leNat (bs.take 8))
    let r := scrambleAll n (scrambleNext w) (bs.drop 8)
    (leBytes 8 w ++ r.1, r.2)

/-- A lease message of this device goes out: the send time of a RENEW or CLAIM is the moment it first does, on either path, be it the newest message or one
that a slot formed earlier still carries (R347, R435). -/
def State.leaseSent (s : State) (bs : List Byte) : State :=
  let t := if s.tw.msg = bs ∧ bs ≠ [] then { s.tw with sent := true } else s.tw
  let n := u32 bs 12
  if u8 bs 1 = 1 ∧ u32 bs 4 = s.fld Fld.TW_EPOCH_HELD_EPOCH ∧ t.renews.all (fun r => decide (r.1 ≠ n)) then
    { s with tw := { t with renews := (n, s.now) :: t.renews } }
  else if u8 bs 1 = 3 ∧ n = t.num ∧ t.claimed ≠ some n then { s with tw := { t with claimAt := s.now, claimed := some n } }
  else { s with tw := t }

/-- What a slot sends, taken at its first byte: a slot that is not ready is sent as zeros (R82). The framer writes the times of the time report. -/
def State.slotStart (s : State) (p m : Nat) : State :=
  if slotFirst m then
    let i := slotOf m
    let x := s.crf p
    match SMap.look x.tx.slots i with
    | none => (s.setTx p { x.tx with cur := List.replicate (slotBytes i) 0 }).count (Ctr.port p 0x348) 1 |>.raise Fld.AV_INT_STATUS_CH_UNDERRUN
    | some c =>
      let s1 := s.setTx p { x.tx with cur := c, slots := SMap.del x.tx.slots i }
      let y := s1.crf p
      if i = 1 ∧ u8 c 0 = 1 then
        let t1 := match y.tx.marks with
          | k :: _ => k.2
          | [] => 0
        let body := match y.rx.mark with
          | some k => (byteOver (byteOver (byteOver c 1 (beBytes 1 (u8 c 1 ||| 64))) 14 (timeBytes k.2)) 26 (beBytes 3 k.1))
          | none => c
        s1.setTx p { y.tx with cur := withCrc ((byteOver body 2 (timeBytes t1)).take 40) }
      else if i = 3 then s1.leaseSent c
      else if i = 5 ∧ s1.bit (Fld.LF_HMC_TX_CTRL_GO p) ∧ s1.bit (Fld.LF_CTRL_HMC_EN p) then
        let n := min y.tx.hmcLen 572
        let msg := (s1.getBytes (Reg.LF_HMC_TX p 0) 572).take n
        s1.setTx p { y.tx with cur := withCrc (beBytes 2 n ++ msg ++ List.replicate (572 - n) 0), hmc := true }
      else s1
  else s

/-- STAT of a frame sent (R64, R70, R94). -/
def State.statTx (s : State) (p : Nat) : Nat :=
  let rdi := (s.bit (Fld.LF_DEF_CTRL_RDI_EN p) && nearDefect (s.defs p)) || s.bit (Fld.LF_DEF_CTRL_FORCE_RDI p)
  let role := if s.bit Fld.TW_CFG_EN then (if s.duty then 1 else 2) else 0
  b2n rdi * 128 + s.fld (Fld.LF_CTRL_FORCE_AIS p) * 64 + role * 16 + s.fld (Fld.LF_CTRL_TX_CLASS p)

/-- The next CRF frame is sent, one frame period after the last. -/
def State.crfFrame (s : State) (p : Nat) : State :=
  let due : Bool := match (s.crf p).tx.at_ with
    | some a => decide (a + s.crfPeriod p ≤ s.now)
    | none => true
  if s.crfRuns p ∧ due then
    let m := (s.crf p).tx.mfas
    let s1 := if m = 0 then
        (let k := s.txStamp p
         let t := (s.crf p).tx
         (s.setTx p { t with marks := ((t.sf, k) :: t.marks).take 4 }).putBytes (Reg.LF_MARK_TX p 0)
           ((List.range 3).foldl (fun l i => l ++ leBytes 4 (timeWord k i).toNat) []))
      else s
    let s2 := (s1.slotStart p m).framerLaunch p
    let l := s2.layPayload p
    let t := (l.2.2.crf p).tx
    let stat := s2.statTx p
    let sent := scrambleAll 1022 t.scr l.1
    let ovh := beBytes 1 m ++ beBytes 1 t.bip ++ beBytes 1 stat ++ beBytes 2 l.2.1 ++ byteSlice t.cur 0 3
    let ends := decide (m = 255)
    let s3 := l.2.2.setTx p { t with at_ := some s2.now, mfas := (m + 1) % 256, sf := if ends then (t.sf + 1) % 2 ^ 24 else t.sf, bip := xorBytes sent.1,
                                     scr := sent.2, cur := t.cur.drop 3, hmc := t.hmc && !ends }
    let s4 := if ends ∧ t.hmc then (s3.setF (Fld.LF_HMC_TX_CTRL_GO p) 0).raise (Fld.LF_INT_STATUS_HMC_TX_DONE p) else s3
    let bs := fasBytes ++ ovh ++ sent.1
    ((s4.setF (Fld.LF_DEFECTS_RDI_TX p) (stat / 128)).count (Ctr.port p 0x300) 1).toLine p bs false (.crf p bs)
  else s

/-- A write of `LF_HMC_TX_CTRL` with GO = 1: the message goes with the LEN of this write (R84, R520). -/
def State.hmcSend (s : State) (p len : Nat) : State :=
  ((s.setF (Fld.LF_HMC_TX_CTRL_LEN p) len).setF (Fld.LF_HMC_TX_CTRL_GO p) 1).setTx p { (s.crf p).tx with hmcLen := len }

/-- `FORCE_AIS` is written (R70, R236). -/
def State.forceAis (s : State) (p : Nat) (v : Bool) : State :=
  s.holdStep p (s.setF (Fld.LF_CTRL_FORCE_AIS p) (b2n v))

/-! ### Signal and lock (R52, R72, R89) -/

/-- Something of the line changes: dLOS's timer follows its condition, and a CRF receiver without signal or lock hunts. -/
def State.lineTouch (s : State) (p : Nat) (f : State → State) : State :=
  let s1 := f s
  let s2 := if s.losCond p = s1.losCond p then s1 else s1.setPm p { s1.pm p with losAt := s1.now }
  if s2.crfOn p ∧ (s2.bit (Fld.PT_STATUS_SIGNAL p) = false ∨ s2.bit (Fld.PT_STATUS_BLOCK_LOCK p) = false) then s2.crfHunt p else s2

/-- The line of a port loses signal (0), and with it lock; block lock (1); marker lock (2); or a high bit-error ratio begins (3). -/
def State.lineLoss (s : State) (p cause : Nat) : State :=
  s.lineTouch p (fun s =>
    let s1 := s.setF (Fld.PT_STATUS_ALIGN p) 0
    if cause = 0 then s.candFollow p ((s1.setF (Fld.PT_STATUS_SIGNAL p) 0).setF (Fld.PT_STATUS_BLOCK_LOCK p) 0)
    else if cause = 1 then s.candFollow p (s1.setF (Fld.PT_STATUS_BLOCK_LOCK p) 0)
    else if cause = 2 then s.candFollow p s1
    else if s.baseR p = false ∨ s.bit (Fld.PT_STATUS_HI_BER p) then s
    else s.candFollow p ((s.setF (Fld.PT_STATUS_HI_BER p) 1).raise (Fld.PT_INT_STATUS_HI_BER p)))

/-- A condition of the line is lost; where that makes the condition of dLOS hold, dLOS is detected (R52, R89). -/
def State.losDetect (s : State) (p cause : Nat) : State :=
  if s.mode p ≠ 0 ∧ s.enState p ≠ enIdle then
    let s1 := s.lineLoss p cause
    if s1.watches p ∧ s1.losCond p ∧ s1.hasDef p dLOS = false then s1.defSet p dLOS true else s1
  else s

/-- The last frame has completed: the transmitters idle, LINK falls, and the receiver has neither signal nor lock (R54, R72). -/
def State.portDrained (s : State) (p : Nat) : State :=
  if s.drained p then s.lineTouch p (fun s => ((s.linkFall p).setF (Fld.PT_STATUS_EN_STATE p) enIdle).lineStart p) else s

/-- Receiver, transmitter and defects of a port restart (R74, R525). -/
def State.lineRestart (s : State) (p : Nat) : State := (s.crfRestart p).defRestart p

end Sys2Proof.Machine
end

