-- ==== Sys2Proof/Machine/Pm.lean ====
section
/-!
DEFINITION. Performance monitoring (R91, R96 to R112): grading of seconds, availability, bins, alerts, records.
-/
namespace Sys2Proof.Machine

/-! ### Counts -/

def Grades.add (a b : Grades) : Grades := ⟨min (a.es + b.es) 0xFFFFFFFF, min (a.ses + b.ses) 0xFFFFFFFF, min (a.bbe + b.bbe) 0xFFFFFFFF, min (a.uas + b.uas) 0xFFFFFFFF⟩
def Grades.sub (a b : Grades) : Grades := ⟨a.es - b.es, a.ses - b.ses, a.bbe - b.bbe, a.uas - b.uas⟩

/-! ### Grading a second (R98, R102, R106) -/

def State.sesPct (s : State) (p : Nat) : Nat := clampNat 1 100 (s.fld (Fld.LF_PM_CTRL_SES_PCT p))

/-- The grades of a second from its defect, its errored and its compared frames (R98). -/
def gradeOf (pct : Nat) (defect : Bool) (eb chk : Nat) : Grades :=
  let ses := defect || (decide (0 < chk) && decide (pct * chk ≤ eb * 100))
  let es := ses || decide (1 ≤ eb)
  ⟨b2n es, b2n ses, if es && !ses then eb else 0, 0⟩

/-- The grades of a second of an Ethernet port (R106). -/
def State.gradeEth (s : State) (p : Nat) (a : PmSec) : Grades :=
  let ses := a.ne || decide (max (s.fld (Fld.LF_ETH_SES_THR p)) 1 ≤ a.errs)
  ⟨b2n (ses || decide (1 ≤ a.errs)), b2n ses, 0, 0⟩

/-- A second counts by the availability state then in force (R104). -/
def countedAs (unavail : Bool) (g : Grades) : Grades := if unavail then ⟨0, 0, 0, 1⟩ else g

/-! ### Bins (R107) -/

/-- The bins of a port that hold a second: the newest one that does not begin after it, of the open ones; the current one for a second before all. -/
def inBins (sec : Nat) (cur : PmBin) (past : List PmBin) (f : PmBin → PmBin) : PmBin × List PmBin :=
  if cur.start ≤ sec ∨ !(past.any (fun b => b.open_ && decide (b.start ≤ sec))) then (f cur, past)
  else
    match firstIdx (fun (b : PmBin) => b.open_ && decide (b.start ≤ sec)) past with
    | some i => (cur, past.mapIdx (fun j b => if j = i then f b else b))
    | none => (cur, past)

/-- Something happens to the 15-minute and the 24-hour bin that hold a second. -/
def Pm.onBins2 (x : Pm) (sec : Nat) (f15 f24 : PmBin → PmBin) : Pm :=
  let a := inBins sec x.bin15 x.past15 f15
  let b := inBins sec x.bin24 [x.prev24] f24
  { x with bin15 := a.1, past15 := a.2, bin24 := b.1, prev24 := b.2.headD x.prev24 }
def Pm.onBins (x : Pm) (sec : Nat) (f : PmBin → PmBin) : Pm := x.onBins2 sec f f

/-- The second by which a second's bins are found: after a backward step, seconds before the start of the bin then current are counted in that bin (R96). -/
def PmSec.binSec (a : PmSec) : Nat := max a.sec a.low

/-! ### Availability (R103 to R105) -/

/-- What a run of ten does to the other nine seconds of it, given by their places among the graded seconds: their counts are taken out of their bins and
counted anew. A far-end run can reach back over ungraded seconds to seconds that are final already: R104 would correct them and R105 forbids it; the model
corrects those that are not final (DESIGN CHOICE, notes/assumptions/24.md). -/
def Pm.recount (x : Pm) (near unavail : Bool) (places : List Nat) : Pm :=
  places.foldl (fun (x : Pm) i =>
    match x.hist[i]? with
    | none => x
    | some h =>
      let old := if near then h.ne else h.fe
      let new := countedAs unavail (if near then h.gne else h.gfe)
      let fix (g : Grades) : Grades := (g.sub old).add new
      let y := x.onBins h.bin (fun b => if near then { b with ne := fix b.ne } else { b with fe := fix b.fe })
      { y with hist := y.hist.modify i (fun k => if near then { k with ne := new } else { k with fe := new }) }) x

/-- A graded second moves a run: whether the availability state changes, and the length of the run after it. -/
def runStep (unavail ses : Bool) (run : Nat) : Bool × Nat :=
  if ses = !unavail then (if 9 ≤ run then (true, 0) else (false, run + 1)) else (false, 0)

def State.neUnavail (s : State) (p : Nat) : Bool := s.bit (Fld.LF_PM_NOW_NE_UNAVAIL p)
def State.feUnavail (s : State) (p : Nat) : Bool := s.bit (Fld.LF_PM_NOW_FE_UNAVAIL p)

/-- The places of the other nine seconds of a run that the newest graded second completes; the far end's run passes over the seconds in which it was not
graded. -/
def Pm.otherNine (x : Pm) (near : Bool) : List Nat :=
  (((List.range (x.hist.length - 1)).filter (fun i => near || (match x.hist[i]? with | some h => h.far | none => false))).reverse).take 9

/-- Availability of one end after a graded second: state, run, change bit and the corrections. -/
def State.availStep (s : State) (p : Nat) (near ses : Bool) : State :=
  let un := if near then s.neUnavail p else s.feUnavail p
  let run := s.fld (if near then Fld.LF_PM_NOW_NE_RUN p else Fld.LF_PM_NOW_FE_RUN p)
  let r := runStep un ses run
  let s1 := s.setF (if near then Fld.LF_PM_NOW_NE_RUN p else Fld.LF_PM_NOW_FE_RUN p) r.2
  if r.1 then
    let s2 := (s1.setF (if near then Fld.LF_PM_NOW_NE_UNAVAIL p else Fld.LF_PM_NOW_FE_UNAVAIL p) (b2n (!un))).raise
      (if near then Fld.LF_DEF_INT_STATUS_UAS_CHG_NE p else Fld.LF_DEF_INT_STATUS_UAS_CHG_FE p)
    s2.setPm p ((s2.pm p).recount near (!un) ((s2.pm p).otherNine near))
  else s1

/-! ### dDEG (R91) -/

def State.degM (s : State) (p : Nat) : Nat := clampNat 2 10 (s.fld (Fld.LF_DEG_CTRL_M p))
def State.degThr (s : State) (p : Nat) : Nat := clampNat 1 10000 (s.fld (Fld.LF_DEG_CTRL_THR p))

/-- A second that is bad, or not, for dDEG. -/
def State.degStep (s : State) (p : Nat) (bad : Bool) : State :=
  if s.watches p ∧ s.crfOn p then
    let x := s.pm p
    let nb := if bad then min (x.bad + 1) 255 else 0
    let ng := if bad then 0 else min (x.good + 1) 255
    let s1 := s.setPm p { x with bad := nb, good := ng }
    if s.degM p ≤ nb ∧ s.hasDef p dDEG = false then s1.defSet p dDEG true
    else if s.degM p ≤ ng ∧ s.hasDef p dDEG then s1.defSet p dDEG false
    else s1
  else s

/-! ### PM_SECOND_GRADE -/

/-- An unmonitored second: SUSPECT in its bins, and no run goes on (R96). -/
def State.gradeNone (s : State) (p : Nat) (a : PmSec) : State :=
  let s1 := s.setPm p ((s.pm p).onBins a.binSec (fun b => { b with suspect := true }))
  ((s1.setF (Fld.LF_PM_NOW_NE_RUN p) 0).setF (Fld.LF_PM_NOW_FE_RUN p) 0).degStep p false

/-- A monitored second: its grades are counted in the bins that hold it, at once by the state in force, and its runs move on. -/
def State.gradeOne (s : State) (p : Nat) (a : PmSec) : State :=
  let crf := a.crf
  let gne := if crf then gradeOf (s.sesPct p) a.ne a.eb a.chk else s.gradeEth p a
  let far := crf && !a.ne && a.feEn
  let gfe := if far then gradeOf (s.sesPct p) a.fe a.deb a.dfr else Grades.zero
  let neSes := decide (gne.ses = 1)
  let feSes := decide (gfe.ses = 1)
  let cne := if crf then countedAs (s.neUnavail p && !(runStep true neSes (s.fld (Fld.LF_PM_NOW_NE_RUN p))).1 ||
      (!(s.neUnavail p) && (runStep false neSes (s.fld (Fld.LF_PM_NOW_NE_RUN p))).1)) gne else gne
  let cfe := if far then countedAs (s.feUnavail p && !(runStep true feSes (s.fld (Fld.LF_PM_NOW_FE_RUN p))).1 ||
      (!(s.feUnavail p) && (runStep false feSes (s.fld (Fld.LF_PM_NOW_FE_RUN p))).1)) gfe else Grades.zero
  let x := (s.pm p).onBins a.binSec (fun b => { b with valid := true, mon := min (b.mon + 1) 0xFFFFFFFF, ne := b.ne.add cne, fe := b.fe.add cfe })
  let s1 := s.setPm p { x with hist := x.hist ++ [⟨a.sec, a.binSec, far, cne, cfe, gne, gfe, a.fin⟩] }
  let s2 := if crf then s1.availStep p true neSes else s1
  let s3 := if far then s2.availStep p false feSes else s2
  s3.degStep p (crf && (a.ne || (decide (0 < a.chk) && decide (s.degThr p * a.chk ≤ a.eb * 10000))))

/-- Anvil grades the oldest second that has ended and waits (R96). A port that no TASK 0x02 slot names is left ungraded: its seconds are unmonitored (R434). -/
def State.secondGrade (s0 : State) (p : Nat) : State :=
  let s := s0.pmTouch p
  let x := s.pm p
  match x.wait with
  | [] => s
  | a :: t =>
    let rest := if 1 < a.n then { a with sec := a.sec + 1, n := a.n - 1, fin := a.fin + (hmSecond : Int), eb := 0, chk := 0, deb := 0, dfr := 0, errs := 0 } :: t else t
    let s1 := s.setPm p { x with wait := rest }
    if a.unmon || !(s.calHas 2 p) then s1.gradeNone p a else s1.gradeOne p { a with n := 1 }

/-! ### SECOND_FINAL (R105, R110) -/

/-- The thresholds of R110: ES, SES, BBE, UAS of 15-minute (`false`) or 24-hour bins. -/
def State.tcaThr (s : State) (p : Nat) (day : Bool) (k : Nat) : Nat := (s.reg (if day then Reg.LF_TCA24 p k else Reg.LF_TCA15 p k)).toNat
def Grades.nth (g : Grades) (k : Nat) : Nat := if k = 0 then g.es else if k = 1 then g.ses else if k = 2 then g.bbe else g.uas

/-- The alerts of a bin: bit k near end, bit 4 + k far end. -/
def State.tcaNew (s : State) (p : Nat) (day : Bool) (b : PmBin) : Nat :=
  (List.range 8).foldl (fun v k =>
    let thr := s.tcaThr p day (k % 4)
    let n := if k < 4 then b.finNe.nth k else b.finFe.nth (k - 4)
    if 0 < thr ∧ thr ≤ n ∧ bitOf b.alerts k = false then v + 2 ^ k else v) 0

/-- A final second counts toward the alerts of the bin that holds it. -/
def PmBin.final (b : PmBin) (ne fe : Grades) : PmBin := { b with finNe := b.finNe.add ne, finFe := b.finFe.add fe }

/-- A final second counts in a bin, and the alerts that its counts then reach for the first time are noted. -/
def State.tcaFinal (s : State) (p : Nat) (day : Bool) (h : PmHist) (b : PmBin) : PmBin :=
  let c := b.final h.ne h.fe
  { c with alerts := c.alerts ||| s.tcaNew p day c }
/-- The alerts that bins have gained. -/
def tcaGained (old new : List PmBin) : Nat := (List.zipWith (fun a b => a.alerts ^^^ b.alerts) old new).foldl (· ||| ·) 0

/-- The oldest graded second becomes final, ten seconds after its end, when no later second that could still correct it waits for its grade. The ten seconds
are those that the ticks count, whatever the counter steps (R105). The thresholds are tested on the bins that hold it (R110). -/
def State.secondFinal (s0 : State) (p : Nat) : State :=
  let s := s0.pmTouch p
  let x := s.pm p
  match x.hist with
  | [] => s
  | h :: t =>
    if h.fin + (10 * hmSecond : Nat) ≤ s.time.flow ∧ x.wait.all (fun a => decide (h.fin + (10 * hmSecond : Nat) ≤ a.fin)) then
      let y := { x.onBins2 h.bin (s.tcaFinal p false h) (s.tcaFinal p true h) with hist := t }
      let a := tcaGained (x.bin15 :: x.past15) (y.bin15 :: y.past15)
      let d := tcaGained [x.bin24, x.prev24] [y.bin24, y.prev24]
      let s1 := s.setPm p y
      if a = 0 ∧ d = 0 then s1
      else ((s1.orF (Fld.LF_TCA_STATUS_T15 p) a).orF (Fld.LF_TCA_STATUS_T24 p) d).raise (Fld.LF_DEF_INT_STATUS_TCA p)
    else s

/-! ### BIN_END, BIN_CLOSE (R105, R107, R108, R112) -/

/-- A bin ends at the start of a second, or at the step that has passed it (R96). -/
def State.binOver (s : State) (b : PmBin) (fin : Nat) : PmBin := { b with fin := max (s.time.flowAt fin) s.time.stepAt }
/-- The end of the 15-minute bin has come, and with it perhaps that of the 24-hour bin. -/
def State.binEnd (s0 : State) (p : Nat) : State :=
  let s := s0.pmTouch p
  let x := s.pm p
  let now_ := s.hmSec
  if x.bin15.start + 900 ≤ now_ then
    let x1 := { x with past15 := (s.binOver x.bin15 (x.bin15.start + 900) :: x.past15).take 32, bin15 := PmBin.current (start15 now_) false, dayOfs := s.dayOfs }
    let moved := decide (s.dayOfs ≠ x.dayOfs)
    let due := decide (end24 x.bin24.start x.dayOfs ≤ now_)
    let b := start24 now_ s.dayOfs
    let x2 := if moved then { x1 with prev24 := { s.binOver x.bin24 (x.bin15.start + 900) with suspect := true }, bin24 := PmBin.current (start15 now_) false }
              else if due then { x1 with prev24 := s.binOver x.bin24 (end24 x.bin24.start x.dayOfs), bin24 := PmBin.current b false }
              else x1
    s.setPm p x2
  else s

/-- The words of the window for a bin (R120). -/
def PmBin.words (b : PmBin) : List Word :=
  [w32 b.start, w32 (b2n b.open_ * 2 ^ 18 + b2n b.suspect * 2 ^ 17 + b2n b.valid * 2 ^ 16 + b.start / 2 ^ 32 % 2 ^ 16), w32 b.mon,
   w32 b.ne.es, w32 b.ne.ses, w32 b.ne.bbe, w32 b.ne.uas, w32 b.fe.es, w32 b.fe.ses, w32 b.fe.bbe, w32 b.fe.uas]

/-- Whether a port is in an Ethernet mode. -/
def State.ethPort (s : State) (p : Nat) : Bool := decide (s.mode p ≠ 0) && !(s.crfOn p)
/-- The words of a port's bin: in an Ethernet mode BBE, UAS and the far-end counts read 0 (R106). -/
def State.binWords (s : State) (p : Nat) (b : PmBin) : List Word :=
  if s.ethPort p then b.words.mapIdx (fun i w => if 5 ≤ i then 0 else w) else b.words

/-- The record of a closed bin in a sample ring (R112, R390): words 0 to 10, the port and the bin kind, as entries of three words. -/
def binEntries (ws : List Word) (p : Nat) (day : Bool) : List (List Word) :=
  let all := ws ++ [w32 (b2n day * 256 + p)]
  (List.range 4).map (fun i => (all.drop (3 * i)).take 3)

/-- A bin closes: the change bit and its record. -/
def State.binShut (s : State) (p : Nat) (day : Bool) (b : PmBin) : State :=
  let s1 := s.raise (if day then Fld.LF_DEF_INT_STATUS_BIN24_CLOSED p else Fld.LF_DEF_INT_STATUS_BIN15_CLOSED p)
  if s1.bit Fld.AV_PM_CTRL_RING_EN then
    let r := s1.samplePost (s1.fld Fld.AV_PM_CTRL_RING) (binEntries (s1.binWords p { b with open_ := false }) p day) 5
    if r.1 then r.2 else (r.2.count 0x3000108 1).raise Fld.AV_INT_STATUS_PM_RING_DROP
  else s1

/-- Whether a past bin, before one that begins at a second, may close: ten seconds after its end by the ticks alone, with no second of it waiting for its grade
or to become final. -/
def Pm.mayClose (x : Pm) (b : PmBin) (next : Nat) (flow : Int) : Bool :=
  b.open_ && decide (b.fin + (10 * hmSecond : Nat) ≤ flow) && x.wait.all (fun a => decide (next ≤ a.binSec)) && x.hist.all (fun h => decide (next ≤ h.bin))

/-- The oldest bin that may close closes: 15-minute bins first. -/
def State.binClose (s0 : State) (p : Nat) : State :=
  let s := s0.pmTouch p
  let x := s.pm p
  let fins := (x.bin15 :: x.past15).map (fun b => b.start)
  let may (i : Nat) : Bool := x.mayClose (x.past15.getD i PmBin.empty) (fins.getD i 0) s.time.flow
  match (List.range 32).reverse.find? may with
  | some i =>
    let b := x.past15.getD i PmBin.empty
    (s.setPm p { x with past15 := x.past15.mapIdx (fun j k => if j = i then { k with open_ := false } else k) }).binShut p false b
  | none =>
    if x.mayClose x.prev24 x.bin24.start s.time.flow then
      (s.setPm p { x with prev24 := { x.prev24 with open_ := false } }).binShut p true x.prev24
    else s

/-! ### PM_SNAPSHOT (R111) -/

def Pm.bin (x : Pm) (i : Nat) : Option PmBin :=
  if i = 0 then some x.bin15 else if i ≤ 32 then some (x.past15.getD (i - 1) PmBin.empty) else if i = 33 then some x.bin24
  else if i = 34 then some x.prev24 else none

/-- A write of `LF_PM_SEL.BIN` copies the bin into the window. -/
def State.pmSnapshot (s : State) (p i : Nat) : State :=
  let ws := match (s.pm p).bin i with
    | some b => b.words
    | none => List.replicate 11 0
  (List.range 11).foldl (fun s k => s.setReg (Reg.LF_PM_WIN p k) (ws.getD k 0)) (s.setF (Fld.LF_PM_SEL_BIN p) i)

end Sys2Proof.Machine
end

