-- ==== Sys2Proof/Machine/AnvilOps.lean ====
section
/-!
DEFINITION. Anvil's Ethernet frames (R264) and the continuity checks (R113 to R119).
-/
namespace Sys2Proof.Machine

/-! ### Frames that Anvil forms -/

/-- One more cell for the frame that Anvil forms; a refusal gives back those it has, and the frame is not sent (R264). -/
def State.anvilCell (s : State) : Bool × State :=
  let n := s.fld Fld.CB_ANVIL_POOL_POOL
  match s.alloc n 9 slotAnvil with
  | (some c, s1) =>
    let s2 := s1.chain s1.pool.avCells c
    (true, { s2 with pool := { s2.pool with avCells := s2.pool.avCells ++ [c] } })
  | (none, s1) =>
    let s2 := s1.releaseCells relHost 9 s1.pool.avCells
    (false, (({ s2 with pool := { s2.pool with avCells := [] } }).count 0x3000110 1).raise Fld.AV_INT_STATUS_NOBUF)

/-- Cells up to a number; false where one is refused. -/
def State.anvilCells (s : State) : Nat → Bool × State
  | 0 => (true, s)
  | k + 1 =>
    match s.anvilCell with
    | (true, s1) => s1.anvilCells k
    | (false, s1) => (false, s1)

/-- A frame of Anvil for a port and a class: it enters stage 8 through the Anvil queue of the port's egress pipeline and is queued in the port-class queue
(R115, R355). False where it is not sent. -/
def State.anvilSend (s : State) (p cls : Nat) (bs : List Byte) : Bool × State :=
  match s.anvilCells (cellsFor bs.length - s.pool.avCells.length) with
  | (false, s1) => (false, s1)
  | (true, s1) =>
    let cells := s1.pool.avCells
    let fid := s1.fab.nextFid
    let f := { Frame.fresh bs cells 9 (s1.fld Fld.CB_ANVIL_POOL_POOL) (pipeOf p) 2 0 0 s1.now with cls := cls, dest := .port p, stage := .admitted, ref := 1 }
    let s2 := ({ s1 with pool := { s1.pool with avCells := [] } }).addFrame f
    let eq := pcqId p cls
    let x : QEnt := ⟨fid, p, cls, eq, s2.now, decide ((s2.port p).hold = holdFlush), false, none, [], bs⟩
    (true, ((s2.countAdmit (avqId (pipeOf p)) bs.length).lenIn eq cells.length).stage8 x)

/-! ### MEPs -/

def mepReg (m i : Nat) : Nat := 0x3010000 + m * 0x40 + 4 * i
/-- The words of a MEP's record. -/
def State.mepWords (s : State) (m : Nat) : List Word := (List.range 16).map (fun i => if i = 3 then 0 else s.reg (mepReg m i))
def State.mep (s : State) (m : Nat) : Mep := (SMap.look s.av.meps m).getD Mep.reset
def State.setMep (s : State) (m : Nat) (x : Mep) : State := { s with av := { s.av with meps := SMap.ins s.av.meps m x } }
def State.mepActive (s : State) (m : Nat) : Bool := s.bit (Fld.AV_MEP_STATUS_ACTIVE m)

/-- The period of an interval code (R113), in the model's units; 0 acts as 4. -/
def mepPeriod (code : Nat) : Nat :=
  if code = 1 then 10 * tMs / 3 else if code = 2 then 10 * tMs else if code = 3 then 100 * tMs else if code = 5 then 10 * tSec
  else if code = 6 then 60 * tSec else if code = 7 then 600 * tSec else tSec
def Mep.interval (x : Mep) : Nat := bitsOf (x.w 0) 21 3
def Mep.period (x : Mep) : Nat := mepPeriod x.interval
/-- The interval code as it is sent and compared: 0 acts as 4. -/
def Mep.code (x : Mep) : Nat := if x.interval = 0 then 4 else x.interval
/-- T of R117. -/
def Mep.t (x : Mep) : Nat := x.period * 7 / 2
def Mep.maid (x : Mep) : List Byte := ((List.range 12).map (fun i => leBytes 4 (x.w (4 + i)))).flatten
def Mep.mepid (x : Mep) : Nat := max (bitsOf (x.w 1) 16 13) 1
def Mep.rmepid (x : Mep) : Nat := max (x.w 1 % 8192) 1

def State.mepDefs (s : State) (m : Nat) : Nat := s.fld (Fld.AV_MEP_STATUS_DEF m)
/-- Defects of a MEP are set to new values; a change is shown and raises MEP_CHG (R117). -/
def State.mepSetDefs (s : State) (m v : Nat) : State :=
  if s.mepDefs m = v then s
  else ((s.setF (Fld.AV_MEP_STATUS_DEF m) v).orF (Fld.AV_MEP_CHG_MEPS (m / 32)) (2 ^ (m % 32))).raise Fld.AV_INT_STATUS_MEP_CHG
def State.mepDef (s : State) (m d : Nat) (on : Bool) : State := s.mepSetDefs m (setBits (s.mepDefs m) d 1 (b2n on))

/-- Bits of `DEF`. -/
def mLOC : Nat := 0
def mRDI : Nat := 1
def mUNL : Nat := 2
def mMMG : Nat := 3
def mUNM : Nat := 4
def mUNP : Nat := 5
def mUNPR : Nat := 6

/-- A MEP no longer takes part: its defects clear and its timers stop (R114). -/
def State.mepStop (s : State) (m : Nat) : State :=
  let s1 := (s.mepSetDefs m 0).setReg (Reg.AV_MEP_STATUS m) 0
  { s1 with av := { s1.av with meps := SMap.del s1.av.meps m } }

/-- EN is set, or cleared (R114, R241). -/
def State.mepEnable (s : State) (m : Nat) : State := s.setF (Fld.AV_MEP_CFG_EN m) 1
def State.mepDisable (s : State) (m : Nat) : State := (s.setF (Fld.AV_MEP_CFG_EN m) 0).mepStop m

/-- RDI as a MEP sends it (R115). -/
def State.mepRdi (s : State) (m : Nat) : Bool :=
  let x := s.mep m
  bitOf (x.w 0) 29 || (bitOf (x.w 0) 30 && decide (s.mepDefs m &&& 0x3D ≠ 0))

/-- The CCM that a MEP sends now (R115). -/
def State.ccmBytes (s : State) (m : Nat) : List Byte :=
  let x := s.mep m
  let base := (s.reg Reg.AV_MEP_MAC1).toNat % 65536 * 2 ^ 32 + (s.reg Reg.AV_MEP_MAC0).toNat
  let tag := if x.vid = 0 then [] else
    beBytes 2 (s.fld (Fld.PP_TPID_TPID (pipeOf x.port) (bitsOf (x.w 0) 13 2))) ++ beBytes 2 (bitsOf (x.w 0) 15 3 * 8192 + x.vid)
  let body := beBytes 6 (0x0180C2000030 + x.level) ++ beBytes 6 ((base + x.port) % 2 ^ 48) ++ tag ++ beBytes 2 0x8902 ++ beBytes 1 (x.level * 32) ++ beBytes 1 1 ++
    beBytes 1 (b2n (s.mepRdi m) * 128 + x.code) ++ beBytes 1 70 ++ beBytes 4 x.seq ++ beBytes 2 x.mepid ++ x.maid ++ List.replicate 16 0 ++ [0]
  withFcs body

/-- Whether a MEP's port lets it send (R114), and its singleton gate (R115, R353). -/
def State.mepMaySend (s : State) (m : Nat) : Bool :=
  let p := (s.mep m).port
  decide (p < 144) && !(s.portAbsent p) && !(s.portDown p) && (s.duty || !(bitOf (s.reg (Reg.TW_SGL_MEP (m / 32))).toNat (m % 32)))

/-- The next time a CCM is due, after now. -/
def nextDue (due period now : Nat) : Nat := if due ≤ now then due + ((now - due) / period + 1) * period else due

/-- A due CCM is formed and sent; where a cell is refused it is skipped and its number is not used. -/
def State.mepSend (s : State) (m : Nat) : State :=
  let x := s.mep m
  if x.nextTx ≤ s.now then
    let s1 := s.setMep m { x with nextTx := nextDue x.nextTx x.period s.now }
    if s1.mepMaySend m then
      match s1.anvilSend x.port (bitsOf (x.w 0) 18 3) (s1.ccmBytes m) with
      | (true, s2) => (s2.setMep m { s2.mep m with seq := (x.seq + 1) % 2 ^ 32 }).count (Ctr.mep m 0) 1
      | (false, s2) => s2
    else s1
  else s

/-- Whether the CCM calendar gives a MEP's group a slot; without one the MEP's state stays as it stood (R115). -/
def State.mepServed (s : State) (m : Nat) : Bool := s.calHas 3 (m / 16)

/-- The service of one MEP: its record takes effect, its key decides, and a due CCM is sent. Two points are the model's (DESIGN CHOICE,
notes/assumptions/25.md): a MEP that comes into a key clash is stopped, so that its defects clear, with MEP_CHG, and its timers are forgotten (R114 says only
that it neither sends nor checks); and after INTERVAL of an active MEP has been rewritten the next CCM is due at the earlier of the old due time and now
plus the new period (R115 does not say when). -/
def State.mepServe (s : State) (m : Nat) : State :=
  let ws := s.mepWords m
  if s.bit (Fld.AV_MEP_CFG_EN m) then
    let x := s.mep m
    let s1 := s.setMep m { x with cfg := ws }
    let y := s1.mep m
    let clash := s1.av.meps.any (fun e => decide (e.1 < m) && decide (e.2.port = y.port) && decide (e.2.vid = y.vid))
    if clash then (((s1.mepSetDefs m 0).setReg (Reg.AV_MEP_STATUS m) 0).setF (Fld.AV_MEP_STATUS_KEY_CLASH m) 1).setMep m { Mep.reset with cfg := ws }
    else
      let s2 := if s1.mepActive m then s1.setMep m { y with nextTx := min y.nextTx (s1.now + y.period) }
        else ((s1.setReg (Reg.AV_MEP_STATUS m) 0).setF (Fld.AV_MEP_STATUS_ACTIVE m) 1).setMep m
          ⟨ws, s1.now, s1.now + y.period, 0, none, s1.now, s1.now, s1.now, s1.now, s1.now, s1.now⟩
      let s3 := s2.setF (Fld.AV_MEP_STATUS_RDI_TX m) (b2n (s2.mepRdi m))
      s3.mepSend m
  else if (SMap.look s.av.meps m).isSome then s.mepStop m
  else s

/-- A TASK 0x03 slot serves a group of 16 MEPs. -/
def State.ccmService (s : State) (a : Nat) : State :=
  if s.calHas 3 a then (List.range 16).foldl (fun s i => s.mepServe (16 * a + i)) s else s

/-! ### Examination (R116) -/

/-- A CCM that a MEP examines. -/
def State.ccmSee (s : State) (m : Nat) (c : Ccm) : State :=
  let x := s.mep m
  let o := c.parse.pay
  let bs := c.bytes
  let now_ := s.now
  let defect (t : State) : State := t.count (Ctr.mep m 0x10) 1
  if u8 bs o / 32 < x.level then defect ((s.setMep m { x with unl := now_ }).mepDef m mUNL true)
  else if byteSlice bs (o + 10) 48 ≠ x.maid then defect ((s.setMep m { x with mmg := now_ }).mepDef m mMMG true)
  else if u16 bs (o + 8) % 8192 ≠ x.rmepid then defect ((s.setMep m { x with unm := now_ }).mepDef m mUNM true)
  else
    let seq := u32 bs (o + 4)
    let unp := decide (u8 bs (o + 2) % 8 ≠ x.code)
    let unpr := bitOf (x.w 0) 27 && !c.parse.tags.isEmpty && decide (c.parse.tci 0 / 8192 ≠ bitsOf (x.w 0) 15 3)
    let s1 := s.setMep m { x with valid := now_, prev := some seq, unp := if unp then now_ else x.unp, unpr := if unpr then now_ else x.unpr }
    let s2 := s1.count (Ctr.mep m 0x08) 1
    let wrong : Bool := match x.prev with
      | some n => bitOf (x.w 0) 28 && decide (seq ≠ (n + 1) % 2 ^ 32)
      | none => false
    let s3 := if wrong then s2.count (Ctr.mep m 0x18) 1 else s2
    let s4 := (s3.mepDef m mLOC false).mepDef m mRDI (bitOf (u8 bs (o + 2)) 7)
    let s5 := if unp then s4.mepDef m mUNP true else s4
    let s6 := if unpr then s5.mepDef m mUNPR true else s5
    if unp || unpr then defect s6 else s6

/-- The oldest consumed CCM of a MEP is examined. -/
def State.ccmExamine (s : State) (m : Nat) : State :=
  match firstIdx (fun (c : Ccm) => decide (c.mep = m)) s.av.ccm with
  | none => s
  | some i =>
    let s1 := { s with av := { s.av with ccm := s.av.ccm.eraseIdx i } }
    match s.av.ccm[i]? with
    | some c => if s.mepActive m ∧ s.mepServed m then s1.ccmSee m c else s1
    | none => s1

/-! ### Timers (R117) -/

/-- No valid CCM has arrived for T: LOC, and RDI clears; the sequence number of the next valid CCM is not checked. -/
def State.mepLocDue (s : State) (m : Nat) : State :=
  let x := s.mep m
  if s.mepActive m ∧ s.mepServed m ∧ bitOf (s.mepDefs m) mLOC = false ∧ x.valid + x.t ≤ s.now then
    ((s.setMep m { x with prev := none }).mepDef m mLOC true).mepDef m mRDI false
  else s

/-- When an event of a defect last occurred. -/
def Mep.eventAt (x : Mep) (d : Nat) : Nat :=
  if d = mUNL then x.unl else if d = mMMG then x.mmg else if d = mUNM then x.unm else if d = mUNP then x.unp else x.unpr

/-- No event of a defect has occurred for T. -/
def State.mepClearDue (s : State) (m d : Nat) : State :=
  let x := s.mep m
  if s.mepActive m ∧ s.mepServed m ∧ 2 ≤ d ∧ d ≤ 6 ∧ bitOf (s.mepDefs m) d ∧ x.eventAt d + x.t ≤ s.now then s.mepDef m d false else s

end Sys2Proof.Machine
end

