-- ==== Sys2Proof/Machine/Modes.lean ====
section
/-!
DEFINITION. Lanes of ports (R26, R27) and the change of a port's mode (R29 to R33).
-/
namespace Sys2Proof.Machine

/-! ### Lanes (R26, R27, R431) -/

/-- The lanes of a port's transmit (`false`) or receive (`true`) list, in the order of the list. -/
def State.laneList (s : State) (p : Nat) (rx : Bool) : List Nat :=
  match SMap.look s.bt.regions 1 with
  | some bs => (List.range (min 4 (u8 bs (8 * p + (if rx then 5 else 4)) % 8))).map (fun k =>
      bitsOf (leNat (byteSlice bs (8 * p + (if rx then 2 else 0)) 2)) (4 * k) 4)
  | none => []
/-- Whether the polarity of an entry of a list is inverted. -/
def State.laneInverted (s : State) (p : Nat) (rx : Bool) (k : Nat) : Bool :=
  match SMap.look s.bt.regions 1 with
  | some bs => bitOf (u8 bs (8 * p + 6)) (if rx then 4 + k else k)
  | none => false
/-- The lanes that a port uses in the mode in effect: the first entries of its list, PCS lane k on entry k (R27). -/
def State.lanesUsed (s : State) (p : Nat) (rx : Bool) : List Nat :=
  if s.mode p = 0 then [] else (s.laneList p rx).take (modeLanes (s.mode p))
/-- Whether a lane of a port group is powered in a direction: some port of the group uses it; every other lane is powered down (R27). -/
def State.lanePowered (s : State) (g lane : Nat) (rx : Bool) : Bool :=
  (List.range 144).any (fun p => decide (groupOf p = g) && (s.lanesUsed p rx).contains lane)

/-! ### A change of mode (R29 to R33) -/

/-- The lanes in a port's lists, the shorter of transmit and receive (R431). -/
def State.portLanes (s : State) (p : Nat) : Nat := min (s.laneList p false).length (s.laneList p true).length
/-- Whether a port supports a combination of mode, FEC and CRF (R29, R30). -/
def modeOk (p mode fec : Nat) (crf : Bool) : Bool :=
  if p < 128 then
    (decide ((mode = 1 ∨ mode = 2) ∧ fec = 0) && !crf) || decide (mode = 3 ∧ fec ≤ 1) || decide (mode = 4 ∧ fec ≤ 2) || decide (mode = 5 ∧ fec = 3)
  else decide (8 ≤ mode ∧ mode ≤ 12 ∧ fec = 3) && !crf

/-- A committed `PT_MODE` comes into effect: the reception is cut short, the port goes down, and the new mode, or none, starts from nothing (R31, R33). The
second is unmonitored (R96), and stopped time is accounted at the rate that it passed at (R521). -/
def State.modeApply (s : State) (p : Nat) (w : Word) : State :=
  let n := w.toNat
  let m := n % 16
  let s1 := ((((s.pmTouch p).stopAccount p).rxCut p).linkFall p).setAct (Reg.PT_MODE p) w
  let s2 := s1.setPort p { s1.port p with modeDue := none }
  let s3 :=
    if m = 0 then (s2.setF (Fld.PT_STATUS_ACTIVE_MODE p) 0).setF (Fld.PT_STATUS_MODE_ERR p) 0
    else if modeOk p m (bitsOf n 4 2) (bitOf n 6) ∧ modeLanes m ≤ s2.portLanes p then
      (s2.setF (Fld.PT_STATUS_ACTIVE_MODE p) m).setF (Fld.PT_STATUS_MODE_ERR p) 0
    else ((s2.setF (Fld.PT_STATUS_ACTIVE_MODE p) 0).setF (Fld.PT_STATUS_MODE_ERR p) 1).raise (Fld.PT_INT_STATUS_MODE_ERR p)
  let s4 := if s3.crfOn p then s3.setPm p { s3.pm p with ebCum := 0, frCum := 0 } else s3
  let s5 := if (s4.tsConst p).2.2 = 0 then s4.setF (Fld.PT_TS_VAR_RX_VAR p) 0 else s4
  ((s5.lineStart p).lineRestart p).pmSpoil p

/-- Whether a frame is in transmission on a port: begun with its selection (R276), so also while its MAC holds it for the LPI wake, its launch time or a stop,
or, on a CRF port, the framer's. A change of mode lets it complete (R33, R240). -/
def State.txRunning (s : State) (p : Nat) : Bool :=
  (s.port p).tx.isSome || !((s.port p).aside.isEmpty) || !((s.crf p).tx.units.isEmpty) || (s.crf p).tx.open_.isSome

/-- The commit of a port: at once, or once the frame in transmission has completed; current values change nothing (R33). -/
def State.modeCommit (s : State) (p : Nat) : State :=
  let w := s.reg (Reg.PT_MODE p)
  if w = s.actReg (Reg.PT_MODE p) then s.setPort p { s.port p with modeDue := none }
  else if s.txRunning p then s.setPort p { s.port p with modeDue := some w }
  else s.modeApply p w
/-- A frame has left a port's transmitter, or LINK has fallen: a mode that waited comes into effect. -/
def State.modeNext (s : State) (p : Nat) : State :=
  match (s.port p).modeDue with
  | some w => if s.txRunning p then s else s.modeApply p w
  | none => s

end Sys2Proof.Machine
end

