-- ==== Sys2Proof/Machine/Power.lean ====
section
/-!
DEFINITION. The frames of commands that need the main islands or the always-on island, and the measures of Doze (R473 to R475): gated port groups with
their wake buffers, packet lane 1, and banks in retention.
-/
namespace Sys2Proof.Machine

/-! ### Where a command acts -/

/-- After a command that stepped the Hallmark counter, the seconds of performance monitoring follow the new time (R96; notes/assumptions/24.md). -/
def State.afterStep (s : State) : State :=
  match s.timeReq.step with
  | some d => let s := s.jnRipe; if s.mainUp then s.pmStep ((((s.time.raw : Int) + d) % (hmMod : Int)).toNat / 2 ^ 40 / 1000000000) else s
  | none => s

/-- What a command does while the main islands run; nothing else happens while they have no power or are held in reset (R477, R496). -/
def State.onMain (s : State) (f : State → State) : State := if s.mainUp then (f s).afterStep else s
/-- What a command does while the always-on island runs. -/
def State.onAon (s : State) (f : State → State) : State := if s.aonUp then (f s).afterStep else s

/-- A command of the main islands, and one of the always-on island. -/
def State.cmdMain (s : State) (ok : Bool) (dt : Nat) (f : State → State) : Host.Outcome State Fault Refusal :=
  s.cmd ok dt (fun s => s.onMain f)
def State.cmdAon (s : State) (ok : Bool) (dt : Nat) (f : State → State) : Host.Outcome State Fault Refusal :=
  s.cmd ok dt (fun s => s.onAon f)

/-! ### Gated port groups -/

/-- The ports of a group. -/
def portsOfGroup (g : Nat) : List Nat := if g < 8 then (List.range 16).map (fun j => 16 * g + j) else (List.range 4).map (fun j => 128 + 4 * (g - 8) + j)

/-- A frame's last byte, or its cut, at a port's MAC (R49, R305). -/
def State.frameIn (s : State) (p : Nat) (bs : List Byte) (cut : Bool) : State :=
  if s.receives p then
    let d := s.lineTime p bs.length
    s.rxLast p bs cut (s.rxStamp p d) (s.rxInstant p d)
  else s

/-- The first cell, or a further one, for the frame that a port receives. -/
def State.rxByte (s : State) (p : Nat) : State := if s.receives p then s.rxFirst p else s

/-- Whether a group has had neither a reception nor a selection for `PG_IDLE_US`. -/
def State.pgIdle (s : State) (g : Nat) : Bool :=
  (portsOfGroup g).all (fun p => !((s.port p).rxOn) && (s.port p).tx.isNone && (s.port p).aside.isEmpty && !((s.crf p).rx.take) && (s.crf p).tx.units.isEmpty) &&
  decide (SMap.get (fun _ => 0) s.pw.pgAt g + max (s.fld Fld.PW_DOZE_CFG_PG_IDLE_US) 1 * tUs ≤ s.now)

/-- A drop group that has been idle is gated, unless a register access keeps it awake (R403). -/
def State.pgGate (s : State) (g : Nat) : State :=
  if s.doze ∧ g < 8 ∧ s.groupOn g ∧ s.pgAsleep g = false ∧ s.pgIdle g ∧ SMap.get (fun _ => 0) s.pw.regAt g ≤ s.now then
    s.setF Fld.PW_STATUS_PG_GATED (s.fld Fld.PW_STATUS_PG_GATED + 2 ^ g)
  else s

/-- STATE shows Full once the last measure has been lifted (R473). -/
def State.dozeEnd (s : State) : State :=
  if s.fld Fld.PW_STATUS_STATE = 1 ∧ s.fld Fld.PW_CTRL_TARGET ≠ 1 ∧ s.fld Fld.PW_STATUS_PG_GATED = 0 ∧ s.pw.wakeAt = [] then
    (s.setF Fld.PW_STATUS_STATE 0).raise Fld.PW_INT_STATUS_STATE_CHG
  else s

/-- The wake of a group completes: its buffer drains to the pipeline in the order of arrival, and frames selected meanwhile go on (R475). -/
def State.wakeDone (s : State) (g : Nat) : State :=
  if (SMap.look s.pw.wakeAt g).isSome then
    let l := s.wakeBuf g
    let s1 := ({ s with pw := { s.pw with wakeAt := SMap.del s.pw.wakeAt g } }).setWakeBuf g []
    let s2 := l.foldl (fun s x => s.rxEnd x.port x.bytes x.cut x.stamp x.at_) (s1.pgUse g)
    ((portsOfGroup g).foldl (fun s p => s.txAdvance p) s2).dozeEnd
  else s

/-! ### Packet lane 1 and retention -/

def State.laneSleep (s : State) (i : Nat) : State :=
  if s.doze ∧ s.laneOff i = false ∧
      SMap.get (fun _ => 0) s.pw.laneAt i + max (s.fld Fld.PW_DOZE_CFG_LANE_IDLE_US) 1 * tUs ≤ s.now then
    s.setF Fld.PW_STATUS_LANE1_OFF (s.fld Fld.PW_STATUS_LANE1_OFF + 2 ^ i)
  else s
def State.laneWake (s : State) (i : Nat) : State :=
  if s.laneOff i then
    ((s.setF Fld.PW_STATUS_LANE1_OFF (s.fld Fld.PW_STATUS_LANE1_OFF - 2 ^ i)).laneUse i 1).count 0x2770008 1
  else s

/-- The input backlog of a pipeline, in units of 256 bytes, wakes its lane 1 from `LANE_WAKE` on; 0 acts as 1. -/
def State.laneBacklog (s : State) (i backlog : Nat) : State := if max (s.fld Fld.PW_DOZE_CFG_LANE_WAKE) 1 ≤ backlog then s.laneWake i else s

/-- When the last cell of a bank was freed. -/
def State.bankFreed (s : State) (b : Nat) : Nat :=
  s.pool.cells.foldl (fun t e => if e.1 / 16384 = b then max t (e.2.freedAt.getD 0 * 50) else t) 0
/-- A bank that has held no USED cell for `BANK_IDLE_US`, since its last wake too, enters retention. -/
def State.bankRetain (s : State) (b : Nat) : State :=
  let w := s.fld Fld.PW_BANK_RET_BANKS
  if s.doze ∧ bitOf w b = false ∧ s.pool.cells.all (fun e => !(decide (e.1 / 16384 = b) && e.2.used)) ∧
      max (s.bankFreed b) (SMap.get (fun _ => 0) s.pw.bankAt b) + max (s.fld Fld.PW_DOZE_CFG_BANK_IDLE_US) 1 * tUs ≤ s.now then
    s.setF Fld.PW_BANK_RET_BANKS (w + 2 ^ b)
  else s

/-! ### Full and Doze (R473) -/

/-- Every measure of Doze is lifted: groups begin to wake, lanes and banks wake, ports leave an LPI that Doze alone asked for: that of a port whose
`IDLE_US` has not run out (R39). -/
def State.liftAll (s : State) : State :=
  let s1 := (List.range 8).foldl (fun s g => (s.pgWake g).laneWake g) s
  let s2 := (List.range 32).foldl (fun s b => s.wakeBank b) s1
  (List.range 128).foldl (fun s p => if s.lpiIdle p then s else s.lpiExit p) s2

/-- A write of DOZE, and of FULL, to `PW_CTRL.TARGET`; while the main islands do not run it is stored and has no other effect (R478). -/
def State.targetDoze (s : State) : State :=
  let s1 := s.setF Fld.PW_CTRL_TARGET 1
  if s.mainUp ∧ s.fld Fld.PW_STATUS_STATE = 0 then (s1.setF Fld.PW_STATUS_STATE 1).raise Fld.PW_INT_STATUS_STATE_CHG else s1
def State.targetFull (s : State) (v : Nat) : State :=
  let s1 := s.setF Fld.PW_CTRL_TARGET v
  if s.mainUp ∧ s.fld Fld.PW_STATUS_STATE = 1 then s1.liftAll.dozeEnd else s1

end Sys2Proof.Machine
end

