-- ==== Sys2Proof/Machine/Twin.lean ====
section
/-!
DEFINITION. The twin (R331, R341 to R352): heartbeats, the peer, and the lease with its messages, timers and commands.
-/
namespace Sys2Proof.Machine

/-! ### Lease states and configuration (R348, R359) -/

def lsDisabled : Nat := 0
def lsLearn : Nat := 1
def lsStandby : Nat := 2
def lsClaiming : Nat := 3
def lsHolder : Nat := 4
def lsLapsed : Nat := 5

/-- TYPE codes of lease messages (R347). -/
def lmRenew : Nat := 1
def lmAck : Nat := 2
def lmClaim : Nat := 3
def lmGrant : Nat := 4
def lmDeny : Nat := 5
def lmRelease : Nat := 6

def State.twinOn (s : State) : Bool := s.bit Fld.TW_CFG_EN
def State.lease (s : State) : Nat := s.fld Fld.TW_STATUS_LEASE_STATE
def State.epochSeen (s : State) : Nat := s.fld Fld.TW_EPOCH_SEEN_EPOCH
def State.epochHeld (s : State) : Nat := s.fld Fld.TW_EPOCH_HELD_EPOCH
def State.epochValid (s : State) : Bool := s.bit Fld.TW_STATUS_EPOCH_VALID
def State.peerDead (s : State) : Bool := s.bit Fld.TW_STATUS_PEER_DEAD
def State.unit1 (s : State) : Bool := s.bit Fld.TW_CFG_UNIT
def State.leaseTime (s : State) : Nat := max (s.fld Fld.TW_LEASE_CFG_LEASE) 1 * tMs
def State.renewTime (s : State) : Nat := max (s.fld Fld.TW_LEASE_CFG_RENEW) 1 * tMs
def State.guardTime (s : State) : Nat := s.leaseTime + s.fld Fld.TW_LEASE_CFG_GUARD_EXTRA * tMs

/-! ### One change of the lease, recorded once (R348, R351) -/

/-- A step of the lease: a change of state is journalled, else a raised epoch; a change of DUTY raises `DUTY_CHG`. `ty` is the message's type, 0 without one. -/
def State.leaseDo (s : State) (ty : Nat) (f : State → State) : State :=
  let s1 := f s
  let s2 := if s1.fld Fld.TW_STATUS_DUTY = s.fld Fld.TW_STATUS_DUTY then s1 else s1.raise Fld.TW_INT_STATUS_DUTY_CHG
  if s1.lease ≠ s.lease then s2.journal 4 orgInternal s1.lease [s1.epochSeen, s1.epochHeld, s.lease, ty]
  else if s1.epochSeen ≠ s.epochSeen then s2.journal 4 orgInternal 0x10 [s1.epochSeen, s1.epochHeld, s.lease, ty]
  else s2

/-- The lease state, the epoch held or claimed, DUTY and SOLO. -/
def State.leaseTo (s : State) (st held : Nat) (solo : Bool) : State :=
  (((s.setF Fld.TW_STATUS_LEASE_STATE st).setF Fld.TW_EPOCH_HELD_EPOCH held).setF Fld.TW_STATUS_DUTY (b2n (decide (st = lsHolder)))).setF
    Fld.TW_STATUS_SOLO (b2n solo)

/-- An epoch is seen: a higher one raises `TW_EPOCH_SEEN` (R346). -/
def State.epochRaise (s : State) (e : Nat) : State :=
  if s.epochSeen < e then s.setF Fld.TW_EPOCH_SEEN_EPOCH e else s

/-- The lease timer has reached X: DUTY has fallen and the device has lapsed (R348). -/
def State.lapse (s : State) : State :=
  if s.lease = lsHolder ∧ s.tw.expiry ≤ s.now then
    s.leaseDo 0 (fun s => ((s.leaseTo lsLapsed 0 false).count (Ctr.tw 0x60) 1).raise Fld.TW_INT_STATUS_LEASE_LAPSED)
  else s

/-! ### Messages (R347) -/

/-- A lease message of this device. -/
def State.leaseMsg (s : State) (ty epoch num : Nat) : List Byte :=
  withCrc (beBytes 1 1 ++ beBytes 1 ty ++ beBytes 1 (s.fld Fld.TW_CFG_UNIT * 128 + s.fld Fld.TW_STATUS_SOLO * 64) ++ [0] ++ beBytes 4 epoch ++
    beBytes 4 s.epochSeen ++ beBytes 4 num ++ beBytes 4 (s.fld Fld.TW_PAIR_ID_ID) ++ List.replicate 20 0)
/-- A message takes the place of the newest one; it has not gone out yet. -/
def State.leaseSay (s : State) (ty epoch num : Nat) : State :=
  { s with tw := { s.tw with msg := s.leaseMsg ty epoch num, sent := false } }
/-- A RENEW or a CLAIM takes the next number. -/
def State.leaseAsk (s : State) (ty epoch : Nat) : State :=
  let n := (s.tw.num + 1) % 2 ^ 32
  let s1 := { s with tw := { s.tw with num := n } }
  s1.leaseSay ty epoch n

/-! ### Moves of the lease (R348) -/

/-- A CLAIM for the epoch after the highest seen. -/
def State.claimNow (s : State) (ty : Nat) : State :=
  s.leaseDo ty (fun s =>
    let s1 := (s.leaseTo lsClaiming (s.epochSeen + 1) false).leaseAsk lmClaim (s.epochSeen + 1)
    { s1 with tw := { s1.tw with claimAt := s1.now } })
/-- Whether a device may ever claim or hold: not at the last epoch, and not in Keep, which is while the main rails are lost (R348, R351, R477). -/
def State.mayClaim (s : State) : Bool := decide (s.epochSeen < 2 ^ 32 - 1) && !s.isl.mainOff
/-- The lease is held without the peer's grant. -/
def State.soloNow (s : State) : State :=
  s.leaseDo 0 (fun s =>
    let e := s.epochSeen + 1
    let s1 := (s.epochRaise e).leaseTo lsHolder e true
    { s1 with tw := { s1.tw with expiry := s1.now + s1.leaseTime, renewAt := s1.now, renews := [] } })
/-- The holder gives the lease up. -/
def State.releaseNow (s0 : State) (st : Nat) : State :=
  let s := s0.lapse
  if s.lease = lsHolder then
    s.leaseDo 0 (fun s => (s.leaseSay lmRelease s.epochHeld s.tw.num).leaseTo st 0 false)
  else s
/-- Keep entry, SYS_RST_N and loss of the main rails release the lease (R348). -/
def State.leaseRelease (s : State) : State := if s.twinOn then s.releaseNow lsStandby else s
/-- In Keep the device never claims: with the main rails a claim under way is given up (R351). -/
def State.claimEnd (s : State) : State :=
  if s.twinOn ∧ s.lease = lsClaiming then s.leaseDo 0 (fun s => s.leaseTo lsStandby 0 false) else s

/-- The device steps down (R350). -/
def State.stepDown (s : State) (ty : Nat) : State :=
  s.leaseDo ty (fun s => ((s.leaseTo lsStandby 0 false).count (Ctr.tw 0x68) 1).raise Fld.TW_INT_STATUS_STEP_DOWN)

/-- An epoch arrives from the peer: LEARN takes it and stands by; a holder or claimant of a lower one steps down (R346, R348, R350). -/
def State.seeEpoch (s : State) (e ty : Nat) (valid : Bool) : State :=
  if s.lease = lsLearn then
    (if valid then s.leaseDo ty (fun s => ((s.epochRaise e).setF Fld.TW_STATUS_EPOCH_VALID 1).leaseTo lsStandby 0 false) else s)
  else
    (if valid ∧ (s.lease = lsHolder ∨ s.lease = lsClaiming) ∧ s.epochHeld < e then
      s.leaseDo ty (fun s => (((s.epochRaise e).leaseTo lsStandby 0 false).count (Ctr.tw 0x68) 1).raise Fld.TW_INT_STATUS_STEP_DOWN)
     else if valid then s.leaseDo ty (fun s => s.epochRaise e) else s)

/-- Something valid has arrived from the peer: it is alive, a solo holder leaves solo, a lapsed device stands by (R345, R348). -/
def State.peerHeard (s : State) (ty epochSeen : Nat) : State :=
  let s1 := { s with tw := { s.tw with validAt := some s.now } }
  let s2 := s1.setF Fld.TW_PEER_EPOCH_EPOCH epochSeen
  let s3 := if s2.peerDead then (s2.setF Fld.TW_STATUS_PEER_DEAD 0).raise Fld.TW_INT_STATUS_PEER_ALIVE else s2
  let s4 := s3.setF Fld.TW_STATUS_SOLO 0
  if s4.lease = lsLapsed then s4.leaseDo ty (fun s => s.leaseTo lsStandby 0 false) else s4

/-! ### Heartbeats (R341 to R345) -/

/-- Whether this device listens on a path. -/
def State.hears (s : State) : Path → Bool
  | .pin => s.twinOn && s.aonUp
  | .crf => s.twinOn && s.mainUp

/-- The tests of R344 that heartbeats and lease messages share, given the length that the CRC covers and the places of PAIR_ID and UNIT: 0 valid, 1 of another
pair or the same unit, 2 bad. -/
def State.twinTest (s : State) (bs : List Byte) (len pair unit unitBit : Nat) : Nat :=
  if bs.length < len + 2 ∨ crcGood bs len = false ∨ u8 bs 0 ≠ 1 then 2
  else if u32 bs pair ≠ s.fld Fld.TW_PAIR_ID_ID ∨ bitOf (u8 bs unit) unitBit = s.unit1 then 1
  else 0
def State.twinBad (s : State) (t : Nat) : State :=
  let s1 := s.count (Ctr.tw 0x50) 1
  if t = 1 then s1.raise Fld.TW_INT_STATUS_PAIR_MISMATCH else s1

/-- What a valid heartbeat tells of the peer (R344). -/
def State.peerNews (s : State) (bs : List Byte) : State :=
  let d := bitOf (u8 bs 1) 6
  let s1 := (s.setF Fld.TW_STATUS_PEER_DUTY (b2n d)).setF Fld.TW_STATUS_PEER_FWD (b2n (bitOf (u8 bs 1) 7))
  let s2 := (s1.setReg Reg.TW_PEER_JN_HEAD0 (w32 (beNat (byteSlice bs 8 6)))).setReg Reg.TW_PEER_JN_HEAD1 (w32 (u16 bs 8))
  let off := if d then none else (match s2.tw.dutyOff with
    | some t => some t
    | none => some s2.now)
  ({ s2 with tw := { s2.tw with dutyOff := off } }).unmuteIfAlone

/-- A heartbeat arrives. -/
def State.heartbeatIn (s0 : State) (path : Path) (bs : List Byte) : State :=
  if s0.hears path then
    let s := s0.lapse
    let t := s.twinTest bs 19 15 1 4
    if t = 0 then
      let s1 := match path with
        | .pin => ({ s with tw := { s.tw with pinAt := some s.now } }).setF Fld.TW_STATUS_PIN_OK 1 |>.count (Ctr.tw 0x40) 1
        | .crf => ({ s with tw := { s.tw with crfAt := some s.now } }).setF Fld.TW_STATUS_CRF_OK 1 |>.count (Ctr.tw 0x48) 1
      ((s1.peerHeard 0 (u32 bs 4)).peerNews bs).seeEpoch (u32 bs 4) 0 (bitOf (u8 bs 1) 5)
    else s.twinBad t
  else s0

def State.pathLossTime (s : State) : Nat := max (s.fld Fld.TW_HB_CFG_PATH_LOSS) 1 * tMs
/-- No valid heartbeat has arrived on a path for `PATH_LOSS` (R344). -/
def State.pathLost (s : State) (path : Path) : State :=
  let late (t : Option Nat) : Bool := match t with
    | some a => decide (a + s.pathLossTime ≤ s.now)
    | none => true
  match path with
  | .pin => if s.bit Fld.TW_STATUS_PIN_OK ∧ late s.tw.pinAt then (s.setF Fld.TW_STATUS_PIN_OK 0).raise Fld.TW_INT_STATUS_PIN_PATH_LOSS else s
  | .crf => if s.bit Fld.TW_STATUS_CRF_OK ∧ late s.tw.crfAt then (s.setF Fld.TW_STATUS_CRF_OK 0).raise Fld.TW_INT_STATUS_CRF_PATH_LOSS else s

/-- Nothing valid has arrived on either path for `T_DEAD` (R345). -/
def State.peerDies (s : State) : State :=
  let base := max (s.tw.validAt.getD 0) s.tw.onAt
  if s.twinOn ∧ s.peerDead = false ∧ base + max (s.fld Fld.TW_HB_CFG_T_DEAD) 1 * tMs ≤ s.now then
    let s1 := { s with tw := { s.tw with dutyOff := none } }
    ((s1.setF Fld.TW_STATUS_PEER_DEAD 1).raise Fld.TW_INT_STATUS_PEER_DEAD).unmuteAll
  else s

/-- A pin-path frame is due, one period after the last (R341, R343); a message that has not gone out is sent even by a device that is no longer a twin. -/
def State.pinSend (s : State) : State :=
  let waits := decide (s.tw.sent = false) && decide (s.tw.msg ≠ [])
  let due := decide (s.tw.txPinAt + max (s.fld Fld.TW_HB_CFG_PIN_PERIOD) 1 * 100 * tUs ≤ s.now)
  if s.bit Fld.TW_CFG_PIN_EN ∧ (s.twinOn ∨ waits) ∧ due then
    let m := if s.tw.msg.length = 42 then s.tw.msg else List.replicate 42 0
    let bs := [0x55, 0x55, 0x55, 0xD5] ++ s.heartbeat s.tw.seqPin ++ m ++ [0]
    let s1 := ({ s with tw := { s.tw with seqPin := (s.tw.seqPin + 1) % 65536, txPinAt := s.now } }).emit (.hb bs)
    s1.leaseSent s1.tw.msg
  else s

/-! ### Received lease messages (R349) -/

/-- The guard as a RENEW or a CLAIM sets it. -/
def State.guardOn (s : State) : State := { s with tw := { s.tw with guard := s.now + s.guardTime } }

def State.onRenew (s : State) (e n : Nat) : State :=
  if e < s.epochSeen then (s.leaseSay lmDeny e n).count (Ctr.tw 0x58) 1
  else if s.lease ≠ lsHolder then s.guardOn.leaseSay lmAck e n
  else if s.unit1 then (s.stepDown lmRenew).guardOn.leaseSay lmAck e n
  else s

def State.onAck (s : State) (e n : Nat) : State :=
  if s.lease = lsHolder ∧ s.epochHeld = e then
    match s.tw.renews.find? (fun r => decide (r.1 = n)) with
    | some r => { s with tw := { s.tw with expiry := max s.tw.expiry (r.2 + s.leaseTime) } }
    | none => s
  else s

def State.onClaim (s : State) (e n : Nat) : State :=
  if s.lease = lsHolder ∨ e ≤ s.epochSeen then s.leaseSay lmDeny e n
  else if s.lease = lsClaiming then
    (if s.epochHeld = e then
      (if s.unit1 then s.leaseDo lmClaim (fun s => (s.leaseTo lsStandby 0 false).guardOn.leaseSay lmGrant e n) else s.leaseSay lmDeny e n)
     else s)
  else s.leaseDo lmClaim (fun s => ((s.epochRaise e).guardOn).leaseSay lmGrant e n)

/-- The grant of the own claim. -/
def State.onGrant (s : State) (e n : Nat) : State :=
  if s.lease = lsClaiming ∧ s.epochHeld = e ∧ s.tw.num = n then
    s.leaseDo lmGrant (fun s =>
      let s1 := (s.epochRaise e).leaseTo lsHolder e false
      { s1 with tw := { s1.tw with expiry := s1.tw.claimAt + s1.leaseTime, renewAt := s1.now, renews := [] } })
  else s
def State.onDeny (s : State) (n : Nat) : State :=
  if s.lease = lsClaiming ∧ s.tw.num = n then s.leaseDo lmDeny (fun s => s.leaseTo lsStandby 0 false) else s
def State.onRelease (s : State) (e : Nat) : State :=
  let s1 := if s.epochSeen ≤ e then { s with tw := { s.tw with guard := s.now } } else s
  if s1.lease = lsStandby ∧ s1.mayClaim then s1.claimNow lmRelease else s1

/-- What a message does, once for each (TYPE, EPOCH, NUM). -/
def State.leaseAct (s : State) (ty e n : Nat) : State :=
  if s.tw.acted.contains (ty, e, n) then s
  else
    let s1 := { s with tw := { s.tw with acted := (ty, e, n) :: s.tw.acted } }
    if ty = lmRenew then s1.onRenew e n else if ty = lmAck then s1.onAck e n else if ty = lmClaim then s1.onClaim e n
    else if ty = lmGrant then s1.onGrant e n else if ty = lmDeny then s1.onDeny n else if ty = lmRelease then s1.onRelease e else s1

/-- The highest epoch that a message lets see: its EPOCH_SEEN, and its EPOCH but for a proposal (R346). -/
def msgEpoch (bs : List Byte) : Nat :=
  if u8 bs 1 = lmRenew ∨ u8 bs 1 = lmAck ∨ u8 bs 1 = lmGrant ∨ u8 bs 1 = lmRelease then max (u32 bs 8) (u32 bs 4) else u32 bs 8

/-- A lease message of a type arrives. -/
def State.leaseIn (s0 : State) (path : Path) (ty : Nat) (bs : List Byte) : State :=
  if s0.hears path ∧ u8 bs 1 = ty ∧ u8 bs 0 ≠ 0 then
    let s := s0.lapse
    let t := s.twinTest bs 40 16 2 7
    if t = 0 then
      let s1 := s.peerHeard ty (u32 bs 8)
      (s1.seeEpoch (msgEpoch bs) ty (decide (0 < msgEpoch bs))).leaseAct ty (u32 bs 4) (u32 bs 12)
    else s.twinBad t
  else s0

/-- The twin takes what the CRF path has accepted for it (R81, R344). -/
def State.twinInbox (s : State) : State :=
  if s.tw.inbox = [] then s
  else
    s.tw.inbox.foldl (fun s m => if m.1 = 2 then s.heartbeatIn .crf m.2 else s.leaseIn .crf (u8 m.2 1) m.2) { s with tw := { s.tw with inbox := [] } }
/-- A whole slot of the CRF path arrives, all its frames in sequence: the receiver of the twin link takes it while it is in SYNC with multiframe lock (R81). -/
def State.slotArrives (s : State) (i : Nat) (bs : List Byte) : State :=
  let p := s.fld Fld.TW_CFG_LINK_PORT
  if s.twinPort p ∧ s.crfRuns p ∧ s.isSync p ∧ s.mfLock p ∧ bs.length = slotBytes i then (s.slotDone p i bs).twinInbox else s
/-- A heartbeat, or a lease message of a type, arrives on a path. -/
def State.heartbeatRow (s : State) (path : Path) (bs : List Byte) : State :=
  match path with
  | .pin => s.heartbeatIn .pin bs
  | .crf => s.slotArrives 2 bs
def State.leaseRow (s : State) (path : Path) (ty : Nat) (bs : List Byte) : State :=
  match path with
  | .pin => s.leaseIn .pin ty bs
  | .crf => if u8 bs 1 = ty then s.slotArrives 3 bs else s

/-! ### Timed events of the lease -/

/-- A standby claims: the guard has passed and the peer, alive, has been without DUTY for `LEASE`, or without `PREFER` for two. -/
def State.claimDue (s : State) : State :=
  match s.tw.dutyOff with
  | some t =>
    let t0 := max s.tw.guard (t + s.leaseTime)
    let due := if s.bit Fld.TW_CFG_PREFER then t0 else t0 + s.leaseTime
    if s.lease = lsStandby ∧ s.mayClaim ∧ s.peerDead = false ∧ due ≤ s.now then s.claimNow 0 else s
  | none => s
def State.soloDue (s : State) : State :=
  if s.lease = lsStandby ∧ s.mayClaim ∧ s.peerDead ∧ s.bit Fld.TW_CFG_SOLO_EN ∧ s.tw.guard ≤ s.now then s.soloNow else s
def State.claimTimeout (s : State) : State :=
  if s.lease = lsClaiming ∧ s.tw.claimAt + 2 * s.renewTime ≤ s.now then s.leaseDo 0 (fun s => s.leaseTo lsStandby 0 false) else s
/-- The holder renews; a solo holder whose peer is dead extends X itself. -/
def State.renewDue (s0 : State) : State :=
  let s := s0.lapse
  if s.lease = lsHolder ∧ s.tw.renewAt + s.renewTime ≤ s.now then
    let s1 := s.leaseAsk lmRenew s.epochHeld
    let x := if s1.bit Fld.TW_STATUS_SOLO ∧ s1.peerDead then s1.now + s1.leaseTime else s1.tw.expiry
    { s1 with tw := { s1.tw with renewAt := s1.now, expiry := x } }
  else s

/-! ### Enabling, and commands (R348, R352) -/

def State.twinEnable (s : State) : State :=
  if s.twinOn then s
  else
    let s1 := s.setF Fld.TW_CFG_EN 1
    let s2 := { s1 with tw := { s1.tw with onAt := s1.now } }
    s2.leaseDo 0 (fun s => s.leaseTo (if s.epochValid then lsStandby else lsLearn) 0 false)
def State.twinDisable (s : State) : State :=
  if s.twinOn then
    ((s.releaseNow lsDisabled).leaseDo 0 (fun s => s.leaseTo lsDisabled 0 false)).setF Fld.TW_CFG_EN 0
  else s

/-- What a command that is allowed does; none where it is refused. -/
def State.leaseOp (s : State) (op : Nat) : Option State :=
  if s.mayClaim = false ∧ op ≠ 1 ∧ op ≠ 3 then none
  else if s.epochSeen = 2 ^ 32 - 1 then none
  else if op = 0 then (if s.lease = lsStandby then some (s.claimNow 0) else none)
  else if op = 1 then (if s.lease = lsHolder then some (s.releaseNow lsStandby) else none)
  else if op = 2 then
    (if s.peerDead ∧ ((s.lease = lsLearn ∧ s.epochValid) ∨ s.lease = lsStandby ∨ s.lease = lsLapsed) then some s.soloNow else none)
  else if op = 3 then
    (if s.lease = lsLearn ∧ s.fld Fld.TW_LEASE_ARG_ARG ≠ 0 then
      some (s.leaseDo 0 (fun s => ((s.setF Fld.TW_EPOCH_SEEN_EPOCH (s.fld Fld.TW_LEASE_ARG_ARG)).setF Fld.TW_STATUS_EPOCH_VALID 1).leaseTo lsStandby 0 false))
     else none)
  else none

/-- A write of 1 to `TW_LEASE_CMD.GO` with an OP. -/
def State.leaseGo (s0 : State) (op : Nat) : State :=
  if s0.busy Reg.TW_LEASE_CMD then s0.setF Fld.TW_LEASE_CMD_OVERRUN 1
  else
    let s := ((s0.setF Fld.TW_LEASE_CMD_OP op).startGo Reg.TW_LEASE_CMD tUs).lapse
    match s.leaseOp op with
    | some s1 => s1.setF Fld.TW_LEASE_CMD_ERR 0
    | none => s.setF Fld.TW_LEASE_CMD_ERR 1

/-- `TW_LEASE_REMAIN`: microseconds until X while DUTY is 1. -/
def State.leaseRemain (s : State) : Nat := if s.duty then (s.tw.expiry - s.now) / tUs else 0

end Sys2Proof.Machine
end

