-- ==== Sys2Proof/Machine/Commit.lean ====
section
/-!
DEFINITION. Commit groups (R411 to R416), timed commits (R322 to R326), and the writing and reading of the journal
(R417 to R423).
-/
namespace Sys2Proof.Machine

/-! ### Units and groups (R411) -/

/-- The commit unit of a word with RWS fields. -/
def unitOf (a : Nat) : Option Nat :=
  if 0x100000 ≤ a ∧ a < 0x190000 then (if a % 0x1000 = 0 then some (groupOf ((a - 0x100000) / 0x1000)) else none)
  else if 0x800000 ≤ a ∧ a < 0xC00000 then
    (if 0x80040 ≤ a % 0x100000 ∧ a % 0x100000 < 0x80060 then some (12 + (a - 0x800000) / 0x100000) else none)
  else if 0xC01000 ≤ a ∧ a < 0xC01200 then (if a % 16 < 12 then some 16 else none)
  else if plRws a then some 17
  else if 0x41000 ≤ a ∧ a < 0x42200 then
    (if a % 32 = 0 ∨ a % 32 = 4 ∨ a % 32 = 16 ∨ a % 32 = 20 ∨ a % 32 = 24 then some 18 else none)
  else if 0x44000 ≤ a ∧ a < 0x4D000 then some 18
  else none

def State.unitGroup (s : State) (u : Nat) : Nat := s.fld (Fld.CM_UNIT_GROUP_GROUP u)
/-- A write to an RWS field marks its unit's group as pending (R413). -/
def State.markPending (s : State) (u : Nat) : State := s.orF Fld.CM_PENDING_GROUPS (2 ^ s.unitGroup u)

/-- The active copy of a word as it stands committed: a `PT_MODE` that waits for the frame in transmission (R33) has been committed. -/
def State.committed (s : State) (a : Nat) : Word :=
  match (if 0x100000 ≤ a ∧ a < 0x190000 ∧ a % 0x1000 = 0 then (s.port ((a - 0x100000) / 0x1000)).modeDue else none) with
  | some w => w
  | none => s.actReg a
/-- The `PT_MODE` words whose commit waits. -/
def State.modesDue (s : State) : List Nat := ((List.range 144).filter (fun p => (s.port p).modeDue.isSome)).map (fun p => Reg.PT_MODE p)
/-- The words of a unit whose shadow differs from the active copy. -/
def State.unitChanged (s : State) (u : Nat) : List Nat :=
  ((s.regs.map (fun e => e.1)) ++ ((s.act.map (fun e => e.1)).filter (fun a => (SMap.look s.regs a).isNone))).filter
    (fun a => decide (unitOf a = some u) && !(decide (s.reg a = s.actReg a)))
/-- The words of a unit whose shadow a revert changes. -/
def State.unitReverts (s : State) (u : Nat) : List Nat :=
  (s.unitChanged u ++ s.modesDue).filter (fun a => decide (unitOf a = some u) && !(decide (s.reg a = s.committed a)))
/-- Shadow copied to active, word by word. -/
def State.copyActive (s : State) (l : List Nat) : State := l.foldl (fun t a => t.setAct a (s.reg a)) s

/-- The commit of one unit, under its block's own rule for its commit cycle (R31, R137, R220, R272, R321). -/
def State.unitCommit (s : State) (u : Nat) : State :=
  if u < 12 then (portsOfGroup u).foldl (fun s p => if s.portAbsent p then s else s.modeCommit p) s
  else if u = 17 then s.planishCommit
  else if u = 18 then (List.range 144).foldl (fun s q => s.gateCommit q) (s.copyActive (s.unitChanged 18))
  else s.copyActive (s.unitChanged u)

/-- The units of a mask of groups. -/
def State.unitsOf (s : State) (mask : Nat) : List Nat := (List.range 19).filter (fun u => bitOf mask (s.unitGroup u))

/-- A commit of the groups of a mask: every unit once, and the groups are no longer pending (R412, R413). -/
def State.commitGroups (s : State) (mask : Nat) : State :=
  let s1 := (s.unitsOf mask).foldl (fun s u => s.unitCommit u) s
  let pend := s1.fld Fld.CM_PENDING_GROUPS
  (s1.setF Fld.CM_PENDING_GROUPS (pend - (pend &&& mask))).count 0x2760008 1

/-! ### Timed commits (R322 to R326) -/

def State.slotArmed (s : State) (n : Nat) : Bool := s.bit (Fld.CM_TIMED_CTRL_ARM n)
/-- TIME of a slot, in units of 2^-16 ns, its nanoseconds carried. -/
def State.slotTime (s : State) (n : Nat) : Nat := s.timeAt (Reg.CM_TIMED_TIME0 n)
def State.slotMask (s : State) (n : Nat) : Nat := (s.reg (Reg.CM_TIMED_MASK n)).toNat
def resFired : Nat := 1
def resMissed : Nat := 2
def resCancelled : Nat := 3

/-- The slots that are due: armed, with the counter at or after TIME. -/
def State.slotsDue (s : State) : List Nat := (List.range 4).filter (fun n => s.slotArmed n && decide (s.slotTime n ≤ s.hm16))
/-- A slot that was armed late. -/
def State.slotLate (s : State) (n : Nat) : Bool := decide (SMap.get (fun _ => 0) s.hm.armLate n = 1)

/-- A slot fires. -/
def State.slotFire (s : State) (n : Nat) : State :=
  (((s.setF (Fld.CM_TIMED_CTRL_ARM n) 0).setF (Fld.CM_TIMED_CTRL_RESULT n) resFired).setF (Fld.CM_TIMED_CTRL_LATE n) (b2n (s.slotLate n))).raise
    Fld.HM_INT_STATUS_TCOMMIT_FIRED

/-- One commit of the union of the slots that are due and of a `CM_COMMIT` write, if there is one (R324), with its one record (R421). -/
def State.commitUnion (s : State) (origin : Nat) (mask : Nat) (written : Bool) (reload : Bool) : State :=
  let due := s.slotsDue
  let all := due.foldl (fun m n => m ||| s.slotMask n) mask
  let w5 := (due.foldl (fun k n => k + 2 ^ n) 0) + b2n written * 16 + b2n reload * 32 + b2n (due.any (fun n => s.slotLate n)) * 64
  ((due.foldl (fun s n => s.slotFire n) s).commitGroups all).journal 1 origin 0 [all, w5]

/-- A write of a mask to `CM_COMMIT` (R415). -/
def State.commitWrite (s : State) (origin : Nat) (mask : Nat) : State :=
  if mask = 0 then s else s.commitUnion origin mask true false
/-- Slots fire at their time. -/
def State.slotsFire (s : State) : State := if s.slotsDue.isEmpty then s else s.commitUnion orgInternal 0 false false

/-- A write of a mask to `CM_REVERT`: active copied back to shadow (R413). A slot that is due in its cycle commits first (R414). -/
def State.revertWrite (s0 : State) (origin : Nat) (mask : Nat) : State :=
  if mask = 0 then s0
  else
    let s := s0.slotsFire
    let l := (s.unitsOf mask).flatMap (fun u => s.unitReverts u)
    let s1 := l.foldl (fun t a => t.setReg a (s.committed a)) s
    let pend := s1.fld Fld.CM_PENDING_GROUPS
    (s1.setF Fld.CM_PENDING_GROUPS (pend - (pend &&& mask))).journal 1 origin 4 [mask]

/-- A write of 1 to ARM: a slot that misses keeps LATE, which tells of the last firing (R329). ARM with LATE_FIRE as written (R322, R323). -/
def State.slotArm (s : State) (origin n : Nat) (lateFire : Bool) : State :=
  if s.slotArmed n then s
  else
    let t := s.slotTime n
    let passed := decide (t ≤ s.hm16)
    let s1 := s.setF (Fld.CM_TIMED_CTRL_LATE_FIRE n) (b2n lateFire)
    let s2 := s1.journal 1 origin 1 [s1.slotMask n, n, (s1.reg (Reg.CM_TIMED_TIME1 n)).toNat, (s1.reg (Reg.CM_TIMED_TIME0 n)).toNat % 2 ^ 30]
    if passed && !lateFire then
      ((s2.setF (Fld.CM_TIMED_CTRL_RESULT n) resMissed).raise Fld.HM_INT_STATUS_TCOMMIT_MISSED).journal 1 orgInternal 3 [0, n]
    else
      let s3 := { s2 with hm := { s2.hm with armLate := SMap.put (fun _ => 0) s2.hm.armLate n (b2n passed) } }
      s3.setF (Fld.CM_TIMED_CTRL_ARM n) 1

/-- A write of 1 to CANCEL; a slot that fires in the same tick fires (R322, R323). -/
def State.slotCancel (s : State) (origin n : Nat) : State :=
  if s.slotArmed n ∧ s.slotsDue.contains n = false then
    (((s.setF (Fld.CM_TIMED_CTRL_ARM n) 0).setF (Fld.CM_TIMED_CTRL_RESULT n) resCancelled).journal 1 origin 2 [0, n])
  else s

/-! ### The journal (R417 to R423) -/

def State.jnMark (s : State) : Nat := s.fld Fld.JN_MARK1_MARK * 2 ^ 32 + (s.reg Reg.JN_MARK0).toNat
/-- The sequence number of a record. -/
def seqOf (ws : List Word) : Nat := (ws.getD 1 0).toNat % 2 ^ 16 * 2 ^ 32 + (ws.getD 0 0).toNat

/-- The oldest queued record is written into the journal, one every 160 ns (R419). -/
def State.journalWrite (s0 : State) : State :=
  let s := s0.jnRipe
  match s.jn.queue with
  | [] => s
  | r :: t =>
    if s.jn.nextAt ≤ s.now then
      let q := seqOf r
      let slot := (q - 1) % 2048
      let past := decide (2048 < q)
      let j := s.jn
      let s1 := { s with jn := { j with slots := SMap.ins j.slots slot r, head := q, wraps := if past && decide (slot = 0) then (j.wraps + 1) % 2 ^ 32 else j.wraps,
                                        queue := t, nextAt := s.now + 160 * tNs } }
      if past && decide (s.jnMark < q - 2048) && s.mainUp then s1.raise Fld.CM_INT_STATUS_JN_UNREAD_LOST else s1
    else s

/-- A selection of a record by an initiator: BUSY until the copy is made (R422). -/
def State.jnSelect (s : State) (i seq : Nat) : State :=
  s.setIni i { s.ini i with jnSel := seq % 2 ^ 48, jnStat := 3, jnBusy := true }
/-- The copy of the selected record into the initiator's `JN_REC`. -/
def State.jnCopy (s : State) (i : Nat) : State :=
  let x := s.ini i
  if x.jnBusy then
    let q := x.jnSel
    let zeros : List Word := List.replicate 8 0
    let r : Nat × List Word :=
      if q = 0 ∨ q + 2048 ≤ s.jn.head then (1, zeros)
      else if s.jn.head < q then (2, zeros)
      else (0, SMap.get (fun _ => zeros) s.jn.slots ((q - 1) % 2048))
    s.setIni i { x with jnStat := r.1, jnBusy := false, jnRec := r.2 }
  else s

end Sys2Proof.Machine
end

