-- ==== Sys2Proof/Machine/Host.lean ====
section
/-!
DEFINITION. The host interface (chapter 13): doorbells and the windows of BAR2, submission entries and jobs, fetched frames, copies to rings,
completions, aborts, shutdown and function-level reset. Image loads and attestation end their jobs in files of their own.
-/
namespace Sys2Proof.Machine

/-! ### Shared tests of a ring -/

/-- Jobs that await completion (R378, `HI_RING_PENDING`): begun and not written yet; in an RX ring each buffer that has been read is a job (R391). -/
def State.ringPending (s : State) (r : Nat) : Nat :=
  (s.ring r).jobs.length + (s.ring r).bufs.length + ((s.waitingOf (s.rCq r)).filter (fun e => decide (e.1 = r))).length

/-- `HI_RING_STATUS` (R394). -/
def State.ringStatus (s : State) (r : Nat) : Word :=
  let x := s.ring r
  let n := s.rN r
  w32 (x.state * 2 ^ 30 + b2n x.parked.isSome * 2 ^ 29 + x.dev / n % 2 * 2 ^ 16 + x.dev % n)

/-- `HI_RING_CFG2` as it reads: the fields of the ring's KIND (R394). MOD_COUNT is 1 until the register is first written. -/
def State.cfg2View (s : State) (r : Nat) : Word :=
  let k := s.rKind r
  if k = kindCq ∨ k = kindSample then (if s.hi.cfg2Set.contains r then s.reg (Reg.HI_RING_CFG2 r) &&& 0x87FFFFFF else 0x100)
  else if k = kindTx then s.reg (Reg.HI_RING_CFG2 r) &&& 0xFF800000
  else if k = kindRx then s.reg (Reg.HI_RING_CFG2 r) &&& 0x3FFF
  else 0

/-- Whether the device may read the next entry (R372, R378, R389): it may send requests, it owns one, fewer than 1,024 jobs await completion, and in a CMD ring the job
before has ended. -/
def State.entryDue (s : State) (r : Nat) : Bool :=
  let x := s.ring r
  s.pciRuns && s.rSubmits r && decide (x.state = ringEnabled ∨ x.state = ringDraining) && decide (x.dev ≠ x.host) && decide (s.ringPending r < 1024) &&
  !(decide (s.rKind r = kindCmd) && x.jobs.any (fun j => j.ready && j.done.isNone))

/-- The words of a byte string, little-endian (R6). -/
def bytesWords (bs : List Byte) (n : Nat) : List Word := (List.range n).map (fun i => w32 (leNat (byteSlice bs (4 * i) 4)))

/-! ### Fields of a job's first entry (R382, R389): `words` holds words 3 to 7 -/

def Job.w (j : Job) (i : Nat) : Nat := (j.words.getD (i - 3) 0).toNat
def Job.fwd (j : Job) : Nat := bitsOf (j.w 3) 30 2
def Job.cls (j : Job) : Nat := bitsOf (j.w 3) 27 3
def Job.colour (j : Job) : Nat := colourOf (bitsOf (j.w 3) 25 2)
def Job.target (j : Job) : Nat := j.w 3 % 2 ^ 17
def Job.dwEn (j : Job) : Bool := bitOf (j.w 4) 31
def Job.dw (j : Job) : Nat := bitsOf (j.w 4) 16 14
def Job.tsReq (j : Job) : Bool := bitOf (j.w 4) 15
def Job.launchEn (j : Job) : Bool := bitOf (j.w 4) 14
def Job.ptpAct (j : Job) : Nat := bitsOf (j.w 4) 12 2
def Job.launch (j : Job) : Nat := j.w 4 % 256 * 2 ^ 30 + j.w 5 % 2 ^ 30
def Job.ref (j : Job) : Nat := j.w 7 * 2 ^ 32 + j.w 6
def Job.cmd (j : Job) : Nat := bitsOf (j.w 3) 28 4
def Job.mode (j : Job) : Nat := bitsOf (j.w 3) 26 2

/-- The length of a job's frame once it is known: padded to 60 bytes, with its FCS (R382, R8). -/
def Job.frameLen (j : Job) : Nat := if j.ready then max 60 j.total + 4 else 0

/-! ### Ends of jobs -/

/-- An image load that ends before its image is verified is journalled as a load refused (R450), with SEQ and SVN as far as the header has been read. -/
def State.loadKilled (s : State) (j : Job) (status : Nat) : State :=
  s.journal 5 orgPcie 2 [leNat (byteSlice j.payload 12 4), leNat (byteSlice j.payload 9 1) + status * 2 ^ 16, 0, 2]

/-- A job that has not been passed on ends: its cells go back with claim 0x08 (R263, R365), a TX job counts as dropped (R384), and an image load is journalled. -/
def State.jobKillW (s : State) (r : Nat) (j : Job) (status w0 : Nat) : State :=
  let s1 := if s.rKind r = kindTx then s.countDrop (hostQ r) j.frameLen
            else if s.rKind r = kindCmd ∧ j.cmd = 2 then s.loadKilled j status else s
  let s2 := s1.releaseCells relHost 8 j.cells
  let s3 := match j.fid with
            | some f => s2.freeFrame f
            | none => s2
  s3.jobEnd r j.num status w0 0
def State.jobKill (s : State) (r : Nat) (j : Job) (status : Nat) : State := s.jobKillW r j status 0

/-- A job takes its place behind the others of its ring. -/
def State.jobPush (s : State) (r : Nat) (j : Job) : State :=
  s.setRing r { s.ring r with jobs := (s.ring r).jobs ++ [j], cur := none, parked := none }

/-- A job ends at one of its entries; unless that entry has LAST, the entries after it are skipped (R376). While the abort of an entry that has not been read
waits, that entry may be one of them: the job's error then waits for the end of the skipping (R391). -/
def State.entryFail (s : State) (r : Nat) (j : Job) (status : Nat) (last : Bool) : State :=
  let s1 := s.jobPush r j
  if last = false ∧ status ≠ stAborted ∧ (s1.ring r).abortAt ≠ [] then s1.setRing r { s1.ring r with skip := true, held := some (j.num, status) }
  else
    let s2 := s1.jobKill r j status
    s2.setRing r { s2.ring r with skip := !last }
/-- The error that waited ends its job, unless an entry of the job has been aborted. -/
def State.heldEnd (s : State) (r : Nat) (aborted : Bool) : State :=
  match (s.ring r).held with
  | none => s
  | some (n, status) =>
    let s1 := s.setRing r { s.ring r with held := none }
    match (s.ring r).jobs.find? (fun j => decide (j.num = n)) with
    | some j => s1.jobKill r j (if aborted then stAborted else status)
    | none => s1

/-- The chain in progress ends with a status, and the rest of it is skipped. -/
def State.curFail (s : State) (r status : Nat) : State :=
  match (s.ring r).cur with
  | none => s
  | some j => s.entryFail r j status false

/-- Whether a job has reached its natural completion point (R391): a frame passed to stage 6, the last entry of an image load or an attestation read. -/
def State.jobPassed (s : State) (r : Nat) (j : Job) : Bool :=
  if s.rKind r = kindTx then
    j.passed && (match j.fid with
      | some f => (match s.frame? f with
        | some x => decide (x.stage ≠ .stored)
        | none => true)
      | none => true)
  else j.ready

/-! ### Entries (R374 to R376, R382, R389) -/

/-- Whether an image load, or a live reload, is in progress (R446); a boot from flash is one until its image has been applied (stages 1 to 5 of R451). -/
def State.loadBusy (s : State) : Bool :=
  let stage := s.fld Fld.GL_BOOT_STATUS_STAGE
  s.bt.reload.isSome || decide (1 ≤ stage ∧ stage ≤ 5) || s.hi.rings.any (fun e => decide (s.rKind e.1 = kindCmd) && e.2.jobs.any (fun j => decide (j.cmd = 2) && j.ready && j.done.isNone))

/-- The status of BUSY (R440, R446). -/
def ilBusy : Nat := 0x54

/-- What is wrong with an entry, as it joins its job. The first descriptor of a singleton ring's frame is tested against DUTY as it is fetched (R353). -/
def State.entryErr (s : State) (r : Nat) (j : Job) (len addr : Nat) (last : Bool) : Option Nat :=
  if s.rKind r = kindTx then
    if j.fwd = 3 ∨ j.ptpAct = 3 ∨ 1000000000 ≤ j.w 5 % 2 ^ 30 ∨ (j.fwd = 2 ∧ j.dwEn) then some stBadField
    else if len = 0 then some stBadLen
    else if 64 < j.count then some stBadChain
    else if 10236 < j.total then some stBadLen
    else if j.count = 1 ∧ bitOf (s.reg (Reg.TW_SGL_RING (r / 32))).toNat (r % 32) ∧ s.duty = false then some stNotHolder
    else none
  else if j.cmd = 1 then
    (if last = false then some stBadChain else if len ≠ 64 ∨ addr % 64 ≠ 0 then some stBadLen else none)
  else if j.cmd = 2 then
    (if j.mode = 3 then some stBadField else if last ∧ s.loadBusy then some ilBusy else none)
  else if j.cmd = 3 then
    (if last = false then some stBadChain else if len ≠ 32 then some stBadLen else none)
  else some stBadField

/-- A job whose last entry has been read. A TABLE command is executed, its results reach memory, and its job ends (R389); the others wait. -/
def State.jobReady (s : State) (r : Nat) (j : Job) (addr : Nat) (payload : List Byte) : State :=
  if s.rKind r = kindCmd ∧ j.cmd = 1 then
    let t := s.tblRun s.now orgPcie ⟨bytesWords payload 8⟩
    let s1 := (t.2.emit (.dma (addr + 32) (wordsLe t.1))).jobPush r { j with ready := true, readyAt := s.now }
    s1.jobEnd r j.num stOk (t.1.getD 0 0).toNat 0
  else s.jobPush r { j with ready := true, readyAt := s.now, payload := if j.cmd = 2 then j.payload else byteSlice payload 0 32 }

/-- An entry joins its job; `ok` says that the device could read its buffer (R364). -/
def State.jobGrow (s : State) (r idx : Nat) (j : Job) (ws : List Word) (payload : List Byte) (ok : Bool) : State :=
  let x := s.ring r
  let w2 := (ws.getD 2 0).toNat
  let addr := (ws.getD 1 0).toNat * 2 ^ 32 + (ws.getD 0 0).toNat
  let last := bitOf w2 30
  let j1 := { j with last := idx, count := j.count + 1, total := j.total + bitsOf w2 16 14,
                     payload := if j.cmd = 2 then (j.payload ++ payload).take 32 else j.payload }
  let s1 := s.setRing r { x with abortAt := x.abortAt.filter (fun i => decide (i ≠ idx)) }
  let err := if x.state = ringDraining ∨ x.abortAt.contains idx then some stAborted
             else match s.entryErr r j1 (bitsOf w2 16 14) addr last with
               | some e => some e
               | none => if ok then none else some stDmaErr
  match err with
  | some e =>
    let t := s1.entryFail r j1 e last
    if e = stDmaErr then t.ringDmaErr r else t
  | none =>
    if last then s1.jobReady r j1 addr payload
    else s1.setRing r { s1.ring r with cur := some j1, parked := if x.dev = x.host then some s.now else none }

/-- A new job begins with an entry. -/
def State.jobStart (s : State) (r idx : Nat) (ws : List Word) : Job × State :=
  let x := s.ring r
  (⟨x.nextJob, idx, idx, (ws.getD 2 0).toNat % 2 ^ 16, (ws.drop 3).take 5, 0, 0, [], [], none, false, false, none, 0⟩,
   s.setRing r { x with nextJob := x.nextJob + 1 })

def abAborted : Nat := 1
def abNothing : Nat := 2
def abNotOwned : Nat := 3
def abBadRing : Nat := 4
/-- An entry whose abort was asked for before it was read turns out to be one of a job that has completed (R391). -/
def State.abortMoot (s : State) (r idx : Nat) : State :=
  if s.fld (Fld.HI_RING_ABORT_INDEX r) = idx ∧ s.fld (Fld.HI_RING_ABORT_RESULT r) = abAborted then s.setF (Fld.HI_RING_ABORT_RESULT r) abNothing else s

/-- An entry of a TX or CMD ring. An entry that starts no job is one job of its own. -/
def State.jobEntry (s : State) (r idx : Nat) (ws : List Word) (payload : List Byte) (ok : Bool) : State :=
  let x := s.ring r
  let w2 := (ws.getD 2 0).toNat
  if bitOf w2 31 then
    let s1 := ((s.heldEnd r false).curFail r stBadChain).heldEnd r false
    let s2 := s1.setRing r { s1.ring r with skip := false }
    let b := s2.jobStart r idx ws
    b.2.jobGrow r idx b.1 ws payload ok
  else if x.skip then
    let hit := x.abortAt.contains idx
    let s1 := s.setRing r { x with skip := !(bitOf w2 30), abortAt := x.abortAt.filter (fun i => decide (i ≠ idx)) }
    if hit && x.held.isNone then s1.abortMoot r idx else if hit || bitOf w2 30 then s1.heldEnd r hit else s1
  else
    match x.cur with
    | some j => s.jobGrow r idx j ws payload ok
    | none =>
      let b := s.jobStart r idx ws
      let s1 := b.2.setRing r { b.2.ring r with abortAt := x.abortAt.filter (fun i => decide (i ≠ idx)) }
      s1.entryFail r { b.1 with count := 1 } (if x.state = ringDraining ∨ x.abortAt.contains idx then stAborted else stBadChain) true

/-! ### Empty buffers (R385) -/

/-- The two entries of an RX record that carries no frame (R392). -/
def rxEmpty (idx tag : Nat) : List Word := [0, 0, w32 (idx * 2 ^ 16 + tag), 0, 0, 1]

/-- Completions of buffers that carry no frame, once they are the oldest of their ring (R378). -/
def State.rxFlush (s : State) (r : Nat) : Nat → State
  | 0 => s
  | k + 1 =>
    match (s.ring r).bufs with
    | (st, 0, tag, idx) :: t =>
      let cq := s.rCq r
      ((s.setRing r { s.ring r with bufs := t }).setWaiting cq (s.waitingOf cq ++ [(r, rxEmpty idx tag, st, kindRx)])).rxFlush r k
    | _ => s

/-- Every buffer of a list is kept as a completion with a status. -/
def deadBufs (st : Nat) (l : List (Nat × Nat × Nat × Nat)) : List (Nat × Nat × Nat × Nat) :=
  l.map (fun b => if b.2.1 = 0 then b else (st, 0, b.2.2))

/-- An entry of an RX ring. -/
def State.rxEntry (s : State) (r idx : Nat) (ws : List Word) : State :=
  let x := s.ring r
  let w2 := (ws.getD 2 0).toNat
  let addr := (ws.getD 1 0).toNat * 2 ^ 32 + (ws.getD 0 0).toNat
  let len := bitsOf w2 16 14
  let tag := w2 % 2 ^ 16
  let buf : Nat × Nat × Nat × Nat :=
    if x.state = ringDraining ∨ x.abortAt.contains idx then (stAborted, 0, tag, idx)
    else if !(bitOf w2 31 && bitOf w2 30) then (stBadChain, 0, tag, idx)
    else if len < 64 then (stBadLen, 0, tag, idx)
    else (addr, len, tag, idx)
  let s1 := s.setRing r { x with bufs := x.bufs ++ [buf], abortAt := x.abortAt.filter (fun i => decide (i ≠ idx)) }
  s1.rxFlush r (x.bufs.length + 1)

/-- The device's position moves over one entry; the answer is that entry's index. -/
def State.takeEntry (s : State) (r : Nat) : Nat × State :=
  let x := s.ring r
  let n := s.rN r
  (x.dev % n, s.setRing r { x with dev := (x.dev + 1) % (2 * n), taken := min (x.taken + 1) n, parked := none })

/-- The device reads the next entry of a submission ring: its words, and the bytes of its buffer where a command needs them. -/
def State.entryTake (s : State) (r : Nat) (ws : List Word) (payload : List Byte) (ok : Bool) : State :=
  if s.entryDue r then
    let t := s.takeEntry r
    if s.rKind r = kindRx then t.2.rxEntry r t.1 ws else t.2.jobEntry r t.1 ws payload ok
  else s
def State.entryRead (s : State) (r : Nat) (ws : List Word) (payload : List Byte) : State := s.entryTake r ws payload true

/-- The timer of a parked chain reaches `HI_RING_CHAIN_TO` (R375). -/
def State.chainTimeout (s : State) (r : Nat) : State :=
  match (s.ring r).parked with
  | none => s
  | some t =>
    let lim := s.fld (Fld.HI_RING_CHAIN_TO_TIMEOUT r)
    if lim ≠ 0 ∧ t + lim * tUs ≤ s.now then s.curFail r stChainTimeout else s

/-! ### Doorbells and the other windows of BAR2 (R363, R371) -/

/-- A doorbell. -/
def State.doorbell (s : State) (r nbytes v : Nat) : State :=
  let x := s.ring r
  let n := s.rN r
  let idx := v % 2 ^ 16
  let pos := bitsOf v 16 1 * n + idx
  let ok := if s.rSubmits r then decide (posDiff n pos x.dev ≤ n ∧ posDiff n x.host x.dev ≤ posDiff n pos x.dev)
            else decide (posDiff n x.dev pos ≤ posDiff n x.dev x.host)
  if 4 ≤ nbytes ∧ x.state = ringEnabled ∧ idx < n ∧ ok then
    (s.setF (Fld.HI_RING_DB_POS r) (v % 2 ^ 17)).setRing r { x with host := pos, parked := if pos = x.host then x.parked else none }
  else s.ringDbErr r

/-- Whether a vector's pending bit is set (R363). -/
def State.msixPends (s : State) (v : Nat) : Bool := s.hi.pba.contains v || s.hi.srcPba.contains v
/-- Vectors that owe their messages send them, now that nothing keeps them; one that is still masked owes its message further. -/
def State.msixOwed (s : State) (due : Nat → Bool) : State :=
  let go (v : Nat) : Bool := due v && !(s.msixMasked v)
  let vs := (List.range 2048).filter (fun v => s.msixPends v && go v)
  vs.foldl (fun s v => s.msixOut v)
    { s with hi := { s.hi with pba := s.hi.pba.filter (fun v => !(go v)), srcPba := s.hi.srcPba.filter (fun v => !(go v)) } }

/-- What word `i` of the MSI-X table keeps of a value: a control word its mask bit, an address word all but bits 1:0. -/
def msixEntry (i : Nat) (v : Word) : Word := if i % 4 = 3 then w32 (v.toNat % 2) else if i % 4 = 0 then w32 (v.toNat / 4 * 4) else v
/-- A word of the MSI-X table is written; a vector that is unmasked sends the message it owes (R363). -/
def State.msixWrite (s : State) (i : Nat) (v : Word) : State :=
  let s1 := { s with hi := { s.hi with table := SMap.put msixReset s.hi.table i (msixEntry i v) } }
  if i % 4 = 3 ∧ v.toNat % 2 = 0 then s1.msixOwed (fun x => decide (x = i / 4)) else s1

/-- A write to BAR2; its reserved offsets and the PBA take none. The table takes whole words, one or two (R363). -/
def State.bar2Write (s : State) (offset nbytes : Nat) (v : Nat) : State :=
  if offset < 0x8000 then (if offset % 8 = 0 then s.doorbell (offset / 8) nbytes v else s)
  else if 0x10000 ≤ offset ∧ offset < 0x18000 ∧ offset % 4 = 0 ∧ 4 ≤ nbytes then
    let s1 := s.msixWrite ((offset - 0x10000) / 4) (w32 v)
    if offset % 8 = 0 ∧ nbytes = 8 then s1.msixWrite ((offset - 0x10000) / 4 + 1) (w32 (v / 2 ^ 32)) else s1
  else s
/-- A word of BAR2 as it reads: a doorbell's last position accepted is not readable here and reads 0, as reserved offsets do (notes/assumptions/46.md). -/
def State.bar2Read (s : State) (offset : Nat) : Word :=
  if 0x10000 ≤ offset ∧ offset < 0x18000 then SMap.get msixReset s.hi.table ((offset - 0x10000) / 4)
  else if 0x18000 ≤ offset ∧ offset < 0x18100 then
    w32 (((List.range 32).filter (fun i => s.msixPends ((offset - 0x18000) / 4 * 32 + i))).foldl (fun n i => n + 2 ^ i) 0)
  else 0

/-- A write of `HI_VEC_EOI` arms a vector (R367). -/
def State.vecEoi (s : State) (v : Nat) : State :=
  { s with hi := { s.hi with unarmed := s.hi.unarmed.filter (fun x => decide (x ≠ v)) } }

/-! ### Frames from a ring (R382 to R384, R263) -/

/-- The TX job whose frame the device fetches next. -/
def State.fetchJob (s : State) (r : Nat) : Option Job :=
  if s.pciRuns ∧ s.rOn r ∧ s.rKind r = kindTx then (s.ring r).jobs.find? (fun j => j.ready && !j.passed && j.done.isNone) else none

def State.setJob (s : State) (r : Nat) (j : Job) : State :=
  s.setRing r { s.ring r with jobs := (s.ring r).jobs.map (fun x => if x.num = j.num then j else x) }

/-- The host interface asks for one cell for the frame that it fetches; a refusal ends the job with NOBUF (R263). -/
def State.hostCell (s : State) (r : Nat) : State :=
  match s.fetchJob r with
  | none => s
  | some j =>
    match s.alloc (s.rPool r) 8 slotHost with
    | (some c, s1) => (s1.chain j.cells c).setJob r { j with cells := j.cells ++ [c] }
    | (none, s1) => s1.jobKill r j stNoBuf

/-- The rest of a frame's cells. -/
def State.hostFill (s : State) (r num : Nat) : Nat → State
  | 0 => s
  | k + 1 =>
    match s.fetchJob r with
    | none => s
    | some j => if j.num = num then (s.hostCell r).hostFill r num k else s

/-- The destination that a job names; none where it is invalid (R383). -/
def State.jobFate (s : State) (j : Job) : Option Fate :=
  if j.fwd = 2 then some ⟨.nowhere, none, none, none⟩
  else if j.dwEn && !(s.dwValid j.dw) then none
  else if j.fwd = 0 then
    if j.dwEn then some (s.dwFate j.dw) else if j.target < 144 then some ⟨.port j.target, none, none, none⟩ else none
  else
    let t := s.queueFate j.target
    if t.ctr.isSome then none else some t

/-- The descriptor of a fetched frame enters stage 3 or stage 6. A frame from a host ring has no RX timestamp: the value is free. -/
def State.hostFrame (s : State) (r : Nat) (j : Job) (t : Fate) (bs : List Byte) : State :=
  let f0 := Frame.fresh (withFcs bs) j.cells 8 (s.rPool r) (s.rPipe r) 1 r s.freeVal s.now
  let tag : HostTag := ⟨r, j.num, j.tsReq, j.ptpAct, j.ref, if j.launchEn then some j.launch else none⟩
  let f1 := { f0 with host := some tag, cls := t.cls.getD j.cls, colour := j.colour, dest := t.dest, dstDw := t.dst,
                      stage := if j.fwd = 2 then .stored else .looked,
                      parse := if j.fwd = 2 then f0.parse else s.parse (s.rPipe r) f0.data }
  (s.drawn.addFrame f1).setJob r { j with passed := true, fid := some s.fab.nextFid, cells := [] }

/-- A TX job's frame is fetched. -/
def State.txFetch (s : State) (r : Nat) (bytes : List Byte) : State :=
  match s.fetchJob r with
  | none => s
  | some j =>
    match s.jobFate j with
    | none => s.jobKillW r j stRefused 7
    | some t =>
      let bs := byteSlice bytes 0 j.total
      let body := bs ++ List.replicate (60 - bs.length) 0
      let s1 := s.hostFill r j.num (cellsFor (body.length + 4) - j.cells.length)
      match s1.fetchJob r with
      | none => s1
      | some j1 => if j1.num = j.num then s1.hostFrame r j1 t body else s1

/-! ### DMA errors (R364) -/

/-- A read of the device fails. With words, an entry of a TX or CMD ring has been read and its buffer could not be. Without, it is the data of the oldest
job, or the next entry itself, or a buffer of the chain in progress: what an unread entry holds is unknown, its TAG is a free value, and the rest of its chain
is skipped. -/
def State.dmaErr (s : State) (r : Nat) (ws : List Word) : State :=
  if ws ≠ [] ∧ s.rKind r ≠ kindRx then s.entryTake r ws [] false
  else
    match (s.ring r).jobs.find? (fun j => j.ready && !j.passed && j.done.isNone) with
    | some j => (s.jobKill r j stDmaErr).ringDmaErr r
    | none =>
      if s.entryDue r then
        let t := s.takeEntry r
        let w : List Word := [0, 0, w32 (s.freeVal % 2 ^ 16)]
        if s.rKind r = kindRx then
          let x := t.2.ring r
          ((t.2.drawn.setRing r { x with bufs := x.bufs ++ [(stDmaErr, 0, s.freeVal % 2 ^ 16, t.1)] }).rxFlush r (x.bufs.length + 1)).ringDmaErr r
        else
          match (t.2.ring r).cur with
          | some j => (t.2.entryFail r { j with last := t.1, count := j.count + 1 } stDmaErr false).ringDmaErr r
          | none => (let b := t.2.drawn.jobStart r t.1 w
                     (b.2.entryFail r { b.1 with count := 1 } stDmaErr false).ringDmaErr r)
      else if (s.ring r).cur.isSome then (s.curFail r stDmaErr).ringDmaErr r
      else s

/-! ### Copies to rings (R386 to R388) -/

/-- The bytes of a copy in a ring's buffers: chunks written, buffers used, and buffers left. -/
def fillBufs : List Byte → List (Nat × Nat × Nat × Nat) → List (Nat × List Byte) × List (Nat × Nat) × List (Nat × Nat × Nat × Nat)
  | _, [] => ([], [], [])
  | bs, (a, l, tag, idx) :: t =>
    if bs = [] then ([], [], (a, l, tag, idx) :: t)
    else if l = 0 then
      let r := fillBufs bs t
      (r.1, r.2.1, (a, l, tag, idx) :: r.2.2)
    else
      let r := fillBufs (bs.drop l) t
      ((a, bs.take l) :: r.1, (tag, idx) :: r.2.1, r.2.2)

/-- SNAP of a ring: 0 for the whole frame (R386). -/
def State.snapLen (s : State) (r len : Nat) : Nat := if s.rSnap r = 0 then len else min len (max 64 (s.rSnap r))

/-- The words of an RX record (R387). -/
def rxWords (f : Frame) (x : QEnt) (written nbuf tag idx : Nat) : List Word :=
  let t := ts64 f.rxTime
  let dw := match f.srcDw with
            | some d => some d
            | none => if f.srcKind = 0 ∧ 128 ≤ f.src then f.dstDw else none
  let sess := match x.mirror with
              | some n => if n < 8 then 2 ^ 31 + n * 2 ^ 28 else 0
              | none => 0
  [w32 t, w32 (t / 2 ^ 32), w32 (idx * 2 ^ 16 + tag),
   w32 (written * 2 ^ 18 + x.data.length),
   w32 (optBits 14 dw * 2 ^ 17 + f.cls * 2 ^ 14 + f.srcKind * 2 ^ 12 + f.src),
   w32 (sess + b2n f.fgEntry.isNone * 2 ^ 27 + planeOf f.pipe * 2 ^ 25 + (f.fgEntry.getD 0) * 2 ^ 12 + nbuf)]

/-- A copy is lost (R388). -/
def State.copyLost (s : State) (q r w : Nat) (x : QEnt) : State :=
  let s1 := s.countDrop (hostQ r) w
  let s2 := match x.mirror with
            | some n => if n < 8 then s1.count (0x2140408 + n * 0x10) 1 else s1
            | none => s1
  (s2.setQueue q ((s2.queue q).drop 1)).leaveEgress x

/-- A copy is written: its bytes, then its record. -/
def State.copyWrite (s : State) (q r w : Nat) (x : QEnt) (f : Frame) : State :=
  let b := fillBufs (x.data.take w) (s.ring r).bufs
  let first := b.2.1.headD (0, 0)
  let ws := rxWords f x w b.2.1.length first.1 first.2
  let s1 := b.1.foldl (fun s c => s.emit (.dma c.1 c.2)) s
  let s2 := s1.setRing r { s1.ring r with bufs := b.2.2 }
  let s3 := ((s2.cqRecord (s.rCq r) [ws.take 3, ws.drop 3] stOk kindRx r).rxFlush r b.2.2.length).countAdmit (hostQ r) w
  let s4 := s3.count (Ctr.hi 0x18) 1
  (s4.setQueue q ((s4.queue q).drop 1)).leaveEgress x

/-- The queue numbers of the copies that the host interface reads: the copy queues of the eight pipelines, then their mirror queues. -/
def copyQueue (i : Nat) : Nat := if i < 8 then cpyId i else mirId ((i - 8) / 8) ((i - 8) % 8)

/-- The head copy of a queue is written to its ring, or lost. It waits while the device owns unread buffers that it needs, and while completions of the ring
are still to be written. -/
def State.rxCopy (s : State) (i : Nat) : State :=
  let q := copyQueue i
  if s.pciRuns = false then s
  else match s.queue q with
  | [] => s
  | x :: _ =>
    if x.port < 4096 then s
    else
      match s.frame? x.fid with
      | none => s.copyLost q (x.port - 4096) 0 x
      | some f =>
        let r := x.port - 4096
        let w := s.snapLen r x.data.length
        let g := s.ring r
        let have_ := g.bufs.foldl (fun k b => k + b.2.1) 0
        if !(s.rOn r) || decide (s.rKind r ≠ kindRx) then s.copyLost q r w x
        else if have_ < w then (if g.dev = g.host then s.copyLost q r w x else s)
        else if s.rFree (s.rCq r) < 2 then s.copyLost q r w x
        else if (s.waitingOf (s.rCq r)).any (fun e => decide (e.1 = r)) then s
        else s.copyWrite q r w x f

/-! ### Completions (R377 to R380) -/

/-- Words in groups of three. -/
def groups3 : Nat → List Word → List (List Word)
  | 0, _ => []
  | k + 1, ws => ws.take 3 :: groups3 k (ws.drop 3)

/-- The oldest completion that waits for a CQ is written, if it fits. -/
def State.completionWrite (s : State) (cq : Nat) : State :=
  match s.waitingOf cq with
  | [] => s
  | (r, ws, status, kind) :: t =>
    let k := (ws.length + 2) / 3
    if s.pciRuns ∧ s.rOn cq ∧ s.rKind cq = kindCq ∧ k ≤ s.rFree cq then (s.setWaiting cq t).cqRecord cq (groups3 k ws) status kind r else s

/-- `MOD_US` has passed since the first entry of a completion ring that no message covers (R380). -/
def State.cqTimeout (s : State) (cq : Nat) : State :=
  let x := s.ring cq
  if s.rOn cq ∧ 3 ≤ s.rKind cq ∧ s.rCfg2 cq 31 1 = 1 ∧ 0 < x.u ∧ x.uAt + s.rCfg2 cq 0 8 * tUs ≤ s.now then
    (s.setRing cq { x with u := 0 }).msixSend (s.rCfg2 cq 16 11)
  else s

/-! ### Enable, disable, reset (R369, R392) -/

/-- A ring at the start of its work: positions 0, ENABLED; job numbers go on. -/
def State.ringFresh (s : State) (r : Nat) : State :=
  s.setRing r { Ring.reset with state := ringEnabled, nextJob := (s.ring r).nextJob }

/-- A write to `HI_RING_CFG` that sets EN (R369, R444). -/
def State.ringEnable (s : State) (origin r : Nat) (cfg : Word) : State :=
  if (s.ring r).state ≠ ringIdle then s.ringCfgErr r
  else
    let k := bitsOf cfg.toNat 28 3
    let lg := bitsOf cfg.toNat 23 5
    let cq := bitsOf cfg.toNat 11 12
    let s1 := (((s.setF (Fld.HI_RING_CFG_KIND r) k).setF (Fld.HI_RING_CFG_LOG2SIZE r) lg).setF (Fld.HI_RING_CFG_CQ r) cq)
    let bad := decide (5 ≤ k) || decide (lg < 4) || decide (16 < lg) ||
               (decide (k ≤ 2) && !(s.rOn cq && decide (s.rKind cq = kindCq))) ||
               (s.bt.regions.isEmpty && !(decide (k = kindCmd ∨ k = kindCq)))
    if bad then s1.ringCfgErr r
    else ((s1.setF (Fld.HI_RING_CFG_EN r) 1).ringFresh r).ringJournal r 0 origin

/-- Whether a job is an image load whose last entry has been read: it can no longer be aborted (R446). -/
def State.loadBegun (s : State) (r : Nat) (j : Job) : Bool := decide (s.rKind r = kindCmd ∧ j.cmd = 2) && j.ready

/-- The shutdown of a submission ring begins (R392). An image load that is being carried out goes on to its end (R446), and so does the ring's shutdown. -/
def State.ringDrain (s : State) (r : Nat) (rerun : Bool) : State :=
  let s0 := s.curFail r stAborted
  let x := s0.ring r
  let s1 := s0.setRing r { x with state := ringDraining, rerun := rerun, abortAt := [], held := none, bufs := deadBufs stAborted x.bufs, parked := none }
  let s2 := x.jobs.foldl (fun s j =>
    if j.done.isSome ∨ s.loadBegun r j then s else if s.jobPassed r j then s.jobEnd r j.num stAborted 0 0 else s.jobKill r j stAborted) s1
  s2.rxFlush r x.bufs.length

/-- Whether an enabled submission ring names a CQ (R369). -/
def State.cqNamed (s : State) (cq : Nat) : Bool :=
  s.hi.rings.any (fun e => decide (e.2.state ≠ ringIdle) && s.rSubmits e.1 && s.bit (Fld.HI_RING_CFG_EN e.1) && decide (s.rCq e.1 = cq))

/-- A write to `HI_RING_CFG` that clears EN. -/
def State.ringDisable (s : State) (origin r : Nat) : State :=
  if (s.ring r).state = ringIdle then s
  else if (s.ring r).state = ringDraining then s.ringCfgErr r
  else if s.rKind r = kindCq ∧ s.cqNamed r then s.ringCfgErr r
  else
    let s1 := (s.setF (Fld.HI_RING_CFG_EN r) 0).ringJournal r 1 origin
    if s.rSubmits r then s1.ringDrain r false
    else s1.setRing r { Ring.reset with nextJob := (s1.ring r).nextJob }

/-- A write of 1 to `HI_RING_CTRL.RESET`. -/
def State.ringReset (s : State) (origin r : Nat) : State :=
  if (s.ring r).state ≠ ringEnabled then s
  else
    let s1 := s.ringJournal r 2 origin
    if s.rSubmits r then (s1.setF (Fld.HI_RING_CTRL_RESET r) 1).ringDrain r true
    else s1.ringFresh r

/-- Whether every completion of a ring has been written. -/
def State.ringQuiet (s : State) (r : Nat) : Bool :=
  let x := s.ring r
  decide (x.dev = x.host) && x.jobs.isEmpty && x.bufs.isEmpty && x.cur.isNone && !((s.waitingOf (s.rCq r)).any (fun e => decide (e.1 = r)))

/-- The shutdown of a ring ends: it is IDLE, or starts afresh where a reset asked for it. -/
def State.ringIdle_ (s : State) (r : Nat) : State :=
  if (s.ring r).state = ringDraining ∧ s.ringQuiet r then
    if (s.ring r).rerun then (s.setF (Fld.HI_RING_CTRL_RESET r) 0).ringFresh r
    else s.setRing r { Ring.reset with nextJob := (s.ring r).nextJob }
  else s

/-! ### Abort (R391) -/

/-- Whether a job's entries cover an index. -/
def Job.covers (j : Job) (n idx : Nat) : Bool := decide ((idx + n - j.first % n) % n < j.count)

/-- What an abort finds and does. -/
def State.abortJob (s : State) (r idx : Nat) : Nat × State :=
  let x := s.ring r
  let n := s.rN r
  if !(s.rSubmits r && s.rOn r) then (abBadRing, s)
  else if n ≤ idx then (abNotOwned, s)
  else if (idx + n - x.dev % n) % n < posDiff n x.host x.dev then (abAborted, s.setRing r { x with abortAt := idx :: x.abortAt })
  else if (match x.cur with | some j => j.covers n idx | none => false) then (abAborted, s.curFail r stAborted)
  else
    match x.jobs.reverse.find? (fun j => j.covers n idx) with
    | some j =>
      if j.done.isSome ∨ s.jobPassed r j then (abNothing, s) else (abAborted, s.jobKill r j stAborted)
    | none =>
      if x.bufs.any (fun b => decide (b.2.2.2 = idx ∧ b.2.1 ≠ 0)) then
        (abAborted, (s.setRing r { x with bufs := x.bufs.map (fun b => if b.2.2.2 = idx ∧ b.2.1 ≠ 0 then (stAborted, 0, b.2.2) else b) }).rxFlush r x.bufs.length)
      else if idx < x.taken then (abNothing, s) else (abNotOwned, s)

/-- A write of `HI_RING_ABORT` with GO. -/
def State.ringAbort (s : State) (r idx : Nat) : State :=
  if s.busy (Reg.HI_RING_ABORT r) then s.setF (Fld.HI_RING_ABORT_OVERRUN r) 1
  else
    let a := (s.setF (Fld.HI_RING_ABORT_INDEX r) idx).abortJob r idx
    (a.2.setF (Fld.HI_RING_ABORT_RESULT r) a.1).startGo (Reg.HI_RING_ABORT r) (2 * tUs)

/-! ### Function-level reset (R365) -/

/-- Every HI_ register at its reset value; rings disabled at once and without a record; jobs not yet passed to stage 6 discarded. -/
def State.hostClear (s : State) : State :=
  let s1 := s.hi.rings.foldl (fun s e =>
    ((e.2.jobs ++ e.2.cur.toList).foldl (fun s j =>
      if j.done.isSome ∨ s.jobPassed e.1 j then s
      else
        let t := s.releaseCells relHost 8 j.cells
        match j.fid with
        | some f => t.freeFrame f
        | none => t) s)) s
  let rings := s1.hi.rings.filterMap (fun e => if e.2.nextJob = 0 then none else some (e.1, { Ring.reset with nextJob := e.2.nextJob }))
  let pci := { PciFn.reset with mps := s1.hi.pci.mps, aer := s1.hi.pci.aer }
  { s1 with regs := s1.regs.drop (fun a => decide (0x80000 ≤ a ∧ a < 0xD0000)), goBusy := s1.goBusy.drop (fun a => decide (0x80000 ≤ a ∧ a < 0xD0000)),
            hi := { HostIf.reset with rings := rings, pci := pci } }

/-- A function-level reset, with its record: ring number 0, and `HI_RING_CFG` after the event, which is its reset value (R421). Max_Payload_Size and the AER
status stay, as PCI Express keeps them. -/
def State.flr (s : State) (origin : Nat) : State := (s.hostClear).journal 3 origin 3 [0, 0x02000000]

/-! ### The PCIe function (R3, R362, R363): its configuration space, in the layout of PCI Express (PRESUMED, notes/assumptions/46.md) -/

/-- Where BAR2 and the configuration space lie among the addresses of a PCIe access. -/
def bar2At : Nat := 0x4000000
def cfgAt : Nat := 0x4020000

/-- A word of the configuration space: the header, then the capabilities of power management (0x40), PCI Express (0x70) and MSI-X (0xB0), and AER (0x100). -/
def State.cfgRead (s : State) (o : Nat) : Word :=
  let x := s.hi.pci
  if o = 0x00 then w32 (Config.pciDevice * 2 ^ 16 + Config.pciVendor)
  else if o = 0x04 then 0x00100006
  else if o = 0x08 then w32 (Config.pciClass * 2 ^ 8 + Config.pciRevision)
  else if o = 0x10 then w32 (x.bar0 + 4)
  else if o = 0x14 then w32 (x.bar0 / 2 ^ 32)
  else if o = 0x18 then w32 (x.bar2 + 4)
  else if o = 0x1C then w32 (x.bar2 / 2 ^ 32)
  else if o = 0x2C then w32 (Config.pciSubsystem * 2 ^ 16 + Config.pciSubVendor)
  else if o = 0x34 then 0x40
  else if o = 0x40 then 0x00037001
  else if o = 0x44 then w32 (8 + 3 * b2n x.d3)
  else if o = 0x70 then 0x0002B010
  else if o = 0x74 then 0x10008022
  else if o = 0x78 then w32 (x.mrrs * 2 ^ 12 + x.mps * 2 ^ 5)
  else if o = 0x7C then 0x00000885
  else if o = 0x94 then 0x00030000
  else if o = 0x98 then w32 (b2n x.tag10 * 2 ^ 12)
  else if o = 0xB0 then w32 (b2n x.msixEn * 2 ^ 31 + b2n x.fnMask * 2 ^ 30 + 2047 * 2 ^ 16 + 0x11)
  else if o = 0xB4 then 0x00010002
  else if o = 0xB8 then 0x00018002
  else if o = 0x100 then 0x00020001
  else if o = 0x104 then w32 x.aer
  else 0

/-- The function's own configuration changes; messages that nothing keeps back any longer are sent. -/
def State.setPci (s : State) (x : PciFn) : State :=
  let s1 := { s with hi := { s.hi with pci := x } }
  if s1.msixOpen && !s.msixOpen then s1.msixOwed (fun _ => true) else s1

/-- Unsupported Request is reported through AER (R399). -/
def State.aerUr (s : State) : State := s.setPci { s.hi.pci with aer := s.hi.pci.aer ||| 2 ^ 20 }

/-- A write of a configuration word, within a mask of bits: the power state (D0 and D3hot), Max_Payload_Size up to 512 and Max_Read_Request_Size up to 4,096 bytes,
a function-level reset, 10-bit tags, the base addresses (in steps of the 64 MiB of BAR0 and the 128 KiB of BAR2), MSI-X, and the AER status (W1C). Other values
of these fields, and every other word, change nothing. -/
def State.cfgWrite (s : State) (o mask : Nat) (v : Word) : State :=
  let x := s.hi.pci
  let m := mask % 2 ^ 32
  let n := ((s.cfgRead o).toNat &&& (2 ^ 32 - 1 - m)) ||| (v.toNat &&& m)
  if o = 0x10 then s.setPci { x with bar0 := setBits x.bar0 0 32 (n / 2 ^ 26 * 2 ^ 26) }
  else if o = 0x14 then s.setPci { x with bar0 := setBits x.bar0 32 32 n }
  else if o = 0x18 then s.setPci { x with bar2 := setBits x.bar2 0 32 (n / 2 ^ 17 * 2 ^ 17) }
  else if o = 0x1C then s.setPci { x with bar2 := setBits x.bar2 32 32 n }
  else if o = 0x98 then s.setPci { x with tag10 := bitOf n 12 }
  else if o = 0x44 then (if n % 4 = 0 then s.setPci { x with d3 := false } else if n % 4 = 3 then s.setPci { x with d3 := true } else s)
  else if o = 0x78 then
    let s1 := s.setPci { x with mps := if bitsOf n 5 3 < 3 then bitsOf n 5 3 else x.mps, mrrs := if bitsOf n 12 3 < 6 then bitsOf n 12 3 else x.mrrs }
    if bitOf n 15 then s1.flr orgPcie else s1
  else if o = 0xB0 then s.setPci { x with msixEn := bitOf n 31, fnMask := bitOf n 30 }
  else if o = 0x104 then s.setPci { x with aer := x.aer - (x.aer &&& (v.toNat &&& m)) }
  else s

end Sys2Proof.Machine
end

