-- ==== Sys2Proof/Machine/Foundry.lean ====
section
/-!
DEFINITION. The regions of the configuration image as they come into effect (R431 to R438), the moves between VOQ and Foundry mode (R228 to R234), calibration
and the bank test (R235), and the end of a live reload (R448 to R450).
-/
namespace Sys2Proof.Machine

/-! ### Regions in effect -/

/-- The payload of a region in effect. -/
def State.region (s : State) (r : Nat) : List Byte := (SMap.look s.bt.regions r).getD []
def State.setRegion (s : State) (r : Nat) (bs : List Byte) : State := { s with bt := { s.bt with regions := SMap.ins s.bt.regions r bs } }

/-- The regions that MEM lays over a bank (R432). -/
def memRegions (bs : List Byte) (b : Nat) : List Nat :=
  (List.range 8).filter (fun p => decide (u8 bs (4 * p) ≤ b ∧ b < u8 bs (4 * p) + u8 bs (4 * p + 1)))
/-- What MEM says of a pool: its segments, and the regions that name it (R432). -/
def memFirst (bs : List Byte) (n : Nat) : Nat := leNat (byteSlice bs (32 + 4 * n) 2)
def memSegs (bs : List Byte) (n : Nat) : Nat := leNat (byteSlice bs (34 + 4 * n) 2)
def memPool (bs : List Byte) (n : Nat) : Nat × Nat × List Nat :=
  (memFirst bs n, memSegs bs n, (List.range 8).filter (fun p => decide (u8 bs (4 * p + 1) ≠ 0 ∧ u8 bs (4 * p + 2) = n)))
/-- Whether a pool has a segment from one to below another. -/
def memIn (bs : List Byte) (n lo hi : Nat) : Bool := decide (max lo (memFirst bs n) < min hi (memFirst bs n + memSegs bs n))
/-- Whether the segments from one to below another belong, before or after, to a pool that a MEM reload rebuilds. -/
def memRebuilt (old new : List Byte) (lo hi : Nat) : Bool :=
  (List.range 64).any (fun n => decide (memPool old n ≠ memPool new n) && (memIn old n lo hi || memIn new n lo hi))
/-- The banks whose assignment a MEM reload changes, one bit each: those of other regions, and those with a segment of a pool that it rebuilds (R234, R251;
notes/assumptions/32.md). -/
def memDiff (old new : List Byte) : Nat :=
  (List.range 32).foldl (fun m b =>
    if memRegions old b ≠ memRegions new b ∨ memRebuilt old new (16 * b) (16 * b + 16) = true then m + 2 ^ b else m) 0

/-- The cells of the pools that a MEM reload rebuilds are as out of reset: FREE, with owner 0x3F (R251, R252). -/
def State.cellsFresh (s : State) (old new : List Byte) : State :=
  let gone := fun c => memRebuilt old new (c / 1024) (c / 1024 + 1)
  { s with pool := { s.pool with cells := s.pool.cells.drop gone, freed := s.pool.freed.filter (fun c => !(gone c)) } }
/-- The registers of R220 and R266 show a partition (R432). -/
def State.memLoad (s : State) (bs : List Byte) : State :=
  let s1 := (List.range 8).foldl (fun s p =>
    let nb := u8 bs (4 * p + 1)
    s.setReg (Reg.CB_REGION p) (w32 ((if nb = 0 then 0 else u8 bs (4 * p + 2) % 64) * 2 ^ 24 + nb * 2 ^ 16 + u8 bs (4 * p)))) s
  let s2 := (List.range 64).foldl (fun s n =>
    let owner := (List.range 8).find? (fun p => decide (u8 bs (4 * p + 1) ≠ 0 ∧ u8 bs (4 * p + 2) = n))
    let id := match owner with
              | some p => 2 ^ 31 + p * 2 ^ 28
              | none => 0
    (s.setReg (Reg.CB_POOL_CFG n) (w32 (id + leNat (byteSlice bs (34 + 4 * n) 2) * 2 ^ 16 + leNat (byteSlice bs (32 + 4 * n) 2)))).touchPool n) s1
  s2.setRegion 2 bs

/-- The groups' ports and the dwellings' groups in the shadows (R433, R447). -/
def State.qshapeShadow (s : State) (bs : List Byte) : State :=
  let s1 := (List.range 1024).foldl (fun s g => s.setF (Fld.PL_L1_PARENT_PORT g) (u8 bs g)) s
  (List.range 16384).foldl (fun s d => s.setF (Fld.PL_L2_PARENT_GROUP d) (leNat (byteSlice bs (1024 + 2 * d) 2))) s1
/-- How many of a QSHAPE region's entries are not in effect after its commit: the moves that R272 refused (R449). -/
def State.qshapeRefused (s : State) (bs : List Byte) : Nat :=
  ((List.range 1024).filter (fun g => decide (s.afld (Fld.PL_L1_PARENT_PORT g) ≠ u8 bs g))).length +
  ((List.range 16384).filter (fun d => decide (s.afld (Fld.PL_L2_PARENT_GROUP d) ≠ leNat (byteSlice bs (1024 + 2 * d) 2)))).length
/-- At boot the tree is the image's (R269, R443). -/
def State.qshapeLoad (s : State) (bs : List Byte) : State :=
  let s1 := s.qshapeShadow bs
  let s2 := (List.range 1024).foldl (fun s g => s.setAct (Reg.PL_L1_PARENT g) (s.reg (Reg.PL_L1_PARENT g))) s1
  ((List.range 16384).foldl (fun s d => s.setAct (Reg.PL_L2_PARENT d) (s.reg (Reg.PL_L2_PARENT d))) s2).setRegion 3 bs

/-- FABRIC's two registers (R436). -/
def State.fabricLoad (s : State) (bs : List Byte) : State :=
  ((s.setReg Reg.FB_ARB_CTRL (w32 (leNat (byteSlice bs 0 4)))).setReg Reg.FB_ARB_PRIO (w32 (leNat (byteSlice bs 4 4)))).setRegion 5 bs

/-- The islands that CLK enables (R437). -/
def State.clkLoad (s : State) (bs : List Byte) : State :=
  let v := leNat (byteSlice bs 0 2)
  ({ s with isl := { s.isl with pair := v % 16, pg := v / 16 } }).setRegion 6 bs
/-- The groups of the commit units (R438). -/
def State.cgLoad (s : State) (bs : List Byte) : State :=
  ((List.range 19).foldl (fun s u => s.setF (Fld.CM_UNIT_GROUP_GROUP u) (u8 bs u)) s).setRegion 7 bs

/-! ### Boot stages (R451) -/

def stRom : Nat := 0
def stRead : Nat := 1
def stVerify : Nat := 2
def stApply : Nat := 3
def stDomains : Nat := 4
def stDefaults : Nat := 5
def stSelftest : Nat := 6
def stFoundry : Nat := 7
def stCal : Nat := 8
def stService : Nat := 9
def stWait : Nat := 14
def stHeld : Nat := 15
def State.stage (s : State) : Nat := s.fld Fld.GL_BOOT_STATUS_STAGE
def State.toStage (s : State) (n : Nat) : State :=
  if s.stage = n then s else (s.setF Fld.GL_BOOT_STATUS_STAGE n).raise Fld.GL_INT_STATUS_STAGE_CHG

/-! ### Image records (R450) -/

def ilOk : Nat := 0x40
/-- Words 4 to 7 of an IMAGE record. -/
def State.imageJournal (s : State) (origin sub seq svn regions status digest src : Nat) : State :=
  s.journal 5 origin sub [seq, svn + regions * 2 ^ 8 + status * 2 ^ 16, digest, src]

/-- The image in effect: SEQ, SVN and digest (R451). -/
def State.imageShow (s : State) (seq svn regions : Nat) (digest : List Byte) : State :=
  (((s.setReg Reg.GL_IMAGE_SEQ (w32 seq)).setReg Reg.GL_IMAGE_INFO (w32 (svn * 2 ^ 8 + regions)))).putWords (Reg.GL_IMAGE_DIGEST 0) (bytesWords digest 16)

/-- A region of a live reload has been applied; after the last one the load completes and is journalled (R448 to R450). -/
def State.reloadDone (s : State) (bit : Nat) : State :=
  match s.bt.reload with
  | none => s
  | some x =>
    let left := if bitOf x.left bit then x.left - 2 ^ bit else x.left
    if left ≠ 0 then { s with bt := { s.bt with reload := some { x with left := left } } }
    else
      let s1 := ({ s with bt := { s.bt with reload := none } }).imageShow x.seq x.svn x.regions x.digest
      (s1.imageJournal orgPcie 1 x.seq x.svn x.regions ilOk (leNat (x.digest.take 4)) 2).jobEnd x.ring x.job ilOk (min x.refused 0xFFFF) x.regions

/-! ### Frames in banks that MEM reassigns (R234) -/

/-- A frame's entry leaves a queue for good. -/
def State.flushEntry (s : State) (q : Nat) (x : QEnt) : State :=
  let s1 := if x.left = [] ∧ x.eq = q then s else s.lenOut q (s.ncells x.fid)
  if x.left = [] then s1.discard x else s1.decRef x.fid

/-- The frames with a cell in such a bank that wait: on their way to stage 6, in a queue or in an intake. What a port is sending goes on. -/
def State.flushFrames (s : State) : List Nat :=
  let waits (f : Nat) : Bool := s.fab.queues.any (fun e => e.2.any (fun x => decide (x.fid = f))) ||
    s.fab.intake.any (fun e => e.2.any (fun x => decide (x.fid = f)))
  (s.fab.frames.filter (fun e => s.inMemFlush e.2.cells && (decide (e.2.stage ≠ .admitted) || waits e.1))).map (fun e => e.1)

/-- They are discarded from every queue and counted. -/
def State.memFlush (s : State) : State :=
  let fids := s.flushFrames
  let hit (x : QEnt) : Bool := fids.contains x.fid
  let s1 := fids.foldl (fun s f =>
    match s.frame? f with
    | some x => s.count (Ctr.pipe (s.homePipe x.pool x.pipe) 0x60) 1
    | none => s) s
  let s2 := s1.fab.queues.foldl (fun s e =>
    if e.2.any hit then (e.2.filter hit).foldl (fun s x => s.flushEntry e.1 x) (s.setQueue e.1 (e.2.filter (fun x => !(hit x)))) else s) s1
  let s3 := s2.fab.intake.foldl (fun s e =>
    if e.2.any hit then (e.2.filter hit).foldl (fun s x => s.decRef x.fid) (s.setIntake e.1 (e.2.filter (fun x => !(hit x)))) else s) s2
  fids.foldl (fun s f =>
    match s.frame? f with
    | some x =>
      if x.stage = .admitted then s
      else
        let t := s.freeFrame f
        match x.host with
        | some h => t.jobEnd h.ring h.job stDiscarded 0 0
        | none => t
    | none => s) s3

/-! ### Work in FOUNDRY (R229, R232 to R235) -/

/-- A calibration begins (R232). -/
def State.calStart (s : State) : State :=
  let s1 := ((s.setF Fld.FB_MODE_STATUS_CAL_FAIL 0).setF Fld.FB_MODE_STATUS_CAL_OK 0).orF Fld.FB_MODE_STATUS_REASON reasonCal
  { s1 with fab := { s1.fab with calAt := some s1.now } }

/-- A verified FABRIC region is applied, and the arbiter calibrates on it (R233). -/
def State.fabricApply (s : State) : State :=
  if s.fab.fabNew = [] then s
  else
    let s1 := (s.fabricLoad s.fab.fabNew).calStart
    let s2 := s1.setF Fld.FB_MODE_STATUS_REASON (s1.reasons - (s1.reasons &&& reasonFabric))
    ({ s2 with fab := { s2.fab with fabNew := [] } }).reloadDone 4

/-- What waits for FOUNDRY: a FABRIC region, the frames of a MEM region's banks, the bank test. -/
def State.fdyWork (s : State) : State :=
  if s.fbState = fbFoundry then
    let s1 := s.fabricApply
    let s2 := if s1.fab.memMask = 0 then s1 else s1.memFlush
    if s2.reasons &&& reasonTest ≠ 0 ∧ s2.fab.testBank.isNone then { s2.touchPools with fab := { s2.fab with testBank := some (0, false, s2.now) } } else s2
  else s

/-- A reason appears (R228). -/
def State.fdyReason (s : State) (r : Nat) : State := (s.addReason r).fdyWork

/-- `FB_MODE_CTRL.MODE_REQ`. -/
def State.modeReq (s : State) (v : Bool) : State :=
  let s1 := s.setF Fld.FB_MODE_CTRL_MODE_REQ (b2n v)
  if v then s1.fdyReason reasonSw else s1.dropReason reasonSw
/-- `FB_MODE_CTRL.RECAL` (R232). -/
def State.recal (s : State) : State := (((s.setF Fld.FB_MODE_CTRL_RECAL 1).calStart).fbMove).fdyWork
/-- `FB_MODE_CTRL.TEST` (R235); while a test runs it changes nothing. -/
def State.bankTest (s : State) : State :=
  if s.bit Fld.FB_MODE_CTRL_TEST then s else ((s.setF Fld.FB_MODE_CTRL_TEST 1).setF Fld.FB_TEST_SKIP_BANKS 0).fdyReason reasonTest

/-- A calibration ends (R232). -/
def State.calComplete (s : State) (ok : Bool) : State :=
  match s.fab.calAt with
  | none => s
  | some _ =>
    let s1 := ({ s with fab := { s.fab with calAt := none } }).setF Fld.FB_MODE_CTRL_RECAL 0
    if ok then (s1.setF Fld.FB_MODE_STATUS_CAL_OK 1).dropReason reasonCal
    else (s1.setF Fld.FB_MODE_STATUS_CAL_FAIL 1).raise Fld.FB_INT_STATUS_CAL_FAIL

def State.dropFence (s : State) (q : Nat) : State := { s with fab := { s.fab with fence := s.fab.fence.filter (fun x => decide (x ≠ q)) } }
/-- The fence on a port lifts once what it waits for is empty (R230). -/
def State.liftInward (s : State) (q : Nat) : State := if s.fbState = fbEntering ∧ s.fenced q ∧ s.voqsEmpty q then s.dropFence q else s
def State.liftOutward (s : State) (q : Nat) : State := if s.fbState = fbLeaving ∧ s.fenced q ∧ s.listsEmpty q then s.dropFence q else s

/-- No VOQ holds a descriptor: FOUNDRY (R229). -/
def State.foundryReached (s : State) : State :=
  if s.fbState = fbEntering ∧ s.noVoq then
    let s1 := (s.setFb fbFoundry).raise Fld.FB_INT_STATUS_MODE_CHG
    (({ s1 with fab := { s1.fab with fence := [] } }).fdyWork).fbMove
  else s

/-- No Foundry list holds a descriptor: VOQ (R229); the first arrival opens every receive path and ends the boot (R231, R443). -/
def State.voqReached (s : State) : State :=
  if s.fbState = fbLeaving ∧ s.noList then
    let s1 := (s.setFb fbVoq).raise Fld.FB_INT_STATUS_MODE_CHG
    let s2 := { s1 with fab := { s1.fab with fence := [], everVoq := true },
                        isl := { s1.isl with rxOpen := s1.isl.rxOpen || (!s1.fab.everVoq && !s1.isl.keep) } }
    (if s2.stage = stCal then s2.toStage stService else s2).fbMove
  else s

/-- Whether a mask of banks holds no cell in use. -/
def State.banksFree (s : State) (mask : Nat) : Bool := s.pool.cells.all (fun e => !(bitOf mask (e.1 / 16384) && e.2.used))

/-- The affected banks hold no cell in use: the new partition is applied and MEM clears (R234). -/
def State.memApply (s : State) : State :=
  if s.fbState = fbFoundry ∧ s.fab.memNew ≠ [] then
    let s1 := s.memFlush
    if s1.banksFree s1.fab.memMask then
      let s2 := (s1.cellsFresh (s1.region 2) s1.fab.memNew).memLoad s1.fab.memNew
      (({ s2 with fab := { s2.fab with memNew := [], memMask := 0 } }).reloadDone 1).dropReason reasonMem
    else s1
  else s

/-! ### The bank test (R235) -/

/-- The next bank, or the end of the test. -/
def State.testNext (s : State) (b : Nat) : State :=
  if b < 31 then { s.touchPools with fab := { s.fab with testBank := some (b + 1, false, s.now) } }
  else ((({ s with fab := { s.fab with testBank := none } }).setF Fld.FB_MODE_CTRL_TEST 0).raise Fld.FB_INT_STATUS_TEST_DONE).dropReason reasonTest

def State.bankStart (s : State) (b : Nat) : State :=
  match s.fab.testBank with
  | some (t, false, _) =>
    if t = b ∧ s.fbState = fbFoundry ∧ s.banksFree (2 ^ b) then { s with fab := { s.fab with testBank := some (b, true, s.now) } } else s
  | _ => s
def State.bankDone (s : State) (b : Nat) (pass : Bool) : State :=
  match s.fab.testBank with
  | some (t, true, at_) =>
    if t = b ∧ at_ + tMs / 2 ≤ s.now then (if pass then s else s.orF Fld.FB_TEST_FAIL_BANKS (2 ^ b)).testNext b else s
  | _ => s
def State.bankSkip (s : State) (b : Nat) : State :=
  match s.fab.testBank with
  | some (t, false, at_) =>
    if t = b ∧ at_ + 100 * tMs ≤ s.now ∧ s.banksFree (2 ^ b) = false then (s.orF Fld.FB_TEST_SKIP_BANKS (2 ^ b)).testNext b else s
  | _ => s

end Sys2Proof.Machine
end

