-- ==== Sys2Proof/Machine/Keccak.lean ====
section
/-!
DEFINITION. SHAKE256 over the Keccak permutation (FIPS 202, which the scope names as the standard for it; notes/assumptions/41.md): the digest of an image
(R430), the hash of a key (R453) and the values derived from secrets (R454, R468).
-/
namespace Sys2Proof.Machine

/-- 64 bits turned left by `n` places. -/
def turn (n x : Nat) : Nat := (x * 2 ^ (n % 64)) % 2 ^ 64 + x / 2 ^ (64 - n % 64)

/-- The lane at column `x` and row `y` of a state, which is a list of five rows of five lanes, one row after another. -/
def laneAt (st : List Nat) (x y : Nat) : Nat := st.getD (5 * (y % 5) + x % 5) 0

/-- A state from what stands at each column and row. -/
def fromCells (cell : Nat → Nat → Nat) : List Nat :=
  (List.range 5).flatMap (fun y => (List.range 5).map (fun x => cell x y))

/-- The exclusive or of a column's lanes. -/
def columnSum (st : List Nat) (x : Nat) : Nat := (List.range 5).foldl (fun p y => p ^^^ laneAt st x y) 0

/-- Step theta: every lane takes in the column to its left, and the column to its right turned by one. -/
def theta (st : List Nat) : List Nat :=
  let sums := (List.range 5).map (columnSum st)
  let near (x : Nat) : Nat := sums.getD ((x + 4) % 5) 0 ^^^ turn 1 (sums.getD ((x + 1) % 5) 0)
  let mix := (List.range 5).map near
  fromCells (fun x y => laneAt st x y ^^^ mix.getD x 0)

/-- Where the walk of steps rho and pi stands: column, row, and the state so far. -/
abbrev Walker := Nat × Nat × List Nat
/-- One stride of the walk: the lane at the walker's place goes to the next place, turned by the next triangular number. -/
def stride (st : List Nat) (w : Walker) (t : Nat) : Walker :=
  let y := (2 * w.1 + 3 * w.2.1) % 5
  (w.2.1, y, w.2.2.set (5 * y + w.2.1) (turn ((t + 1) * (t + 2) / 2) (laneAt st w.1 w.2.1)))
/-- Steps rho and pi: the walk begins at column 1 of row 0 and visits every lane but the first. -/
def rhoPi (st : List Nat) : List Nat := ((List.range 24).foldl (stride st) (1, 0, st)).2.2

/-- Step chi: each lane is changed where the next lane of its row is 0 and the one after it is 1. -/
def chi (st : List Nat) : List Nat :=
  fromCells (fun x y => laneAt st x y ^^^ (laneAt st (x + 2) y - (laneAt st (x + 2) y &&& laneAt st (x + 1) y)))

/-- The shift register of step iota, over x^8 + x^6 + x^5 + x^4 + 1. -/
def iotaShift (r : Nat) : Nat := if r < 128 then 2 * r else (2 * r) ^^^ 0x171
/-- Seven bits of the register, laid at the places 2^j - 1 of a lane, with the register after them. -/
def iotaLane : Nat → Nat → Nat × Nat
  | 0, r => (0, r)
  | k + 1, r =>
    let rest := iotaLane k (iotaShift r)
    (r % 2 * 2 ^ (2 ^ (6 - k) - 1) + rest.1, rest.2)

/-- Rounds of the permutation, from a value of the register on. -/
def keccakRounds : Nat → Nat → List Nat → List Nat
  | 0, _, st => st
  | n + 1, r, st =>
    let c := iotaLane 7 r
    keccakRounds n c.2 ((chi (rhoPi (theta st))).modify 0 (fun x => x ^^^ c.1))

/-- The permutation: 24 rounds. -/
def keccakF (st : List Nat) : List Nat := keccakRounds 24 1 st

/-- The bytes that one permutation takes in or gives out. -/
def shakeRate : Nat := 136

/-- A block of the message enters the state. -/
def absorbBlock (a : List Nat) (block : List Byte) : List Nat :=
  keccakF (a.zipIdx.map (fun x => x.1 ^^^ leNat (byteSlice block (8 * x.2) 8)))

/-- The blocks of a message, one after another. -/
def absorb : Nat → List Nat → List Byte → List Nat
  | 0, a, _ => a
  | n + 1, a, bs => absorb n (absorbBlock a (bs.take shakeRate)) (bs.drop shakeRate)

/-- The first bytes of the state. -/
def squeezeBlock (a : List Nat) : List Byte := ((a.take 17).map (leBytes 8)).flatten

/-- Output block after output block. -/
def squeeze : Nat → List Nat → List Byte
  | 0, _ => []
  | n + 1, a => squeezeBlock a ++ squeeze n (keccakF a)

/-- The message with its padding: 0x1F, zeros, and 0x80 in the last byte of a block. -/
def shakePad (bs : List Byte) : List Byte :=
  let z := shakeRate - 1 - bs.length % shakeRate
  if z = 0 then bs ++ [0x9F#8] else bs ++ 0x1F#8 :: List.replicate (z - 1) 0#8 ++ [0x80#8]

/-- SHAKE256 of a byte string, cut to `n` bytes. -/
@[irreducible]
def shake256 (bs : List Byte) (n : Nat) : List Byte :=
  let p := shakePad bs
  (squeeze (n / shakeRate + 1) (absorb (p.length / shakeRate) (List.replicate 25 0) p)).take n

end Sys2Proof.Machine
end

