-- ==== Sys2Proof/Machine/Image.lean ====
section
/-!
DEFINITION. The Eldun configuration image (chapter 15): its layout, the checks of R440 in their order, and image loads (R445 to R450).
-/
namespace Sys2Proof.Machine

/-! ### Layout (R427 to R430) -/

def le (bs : List Byte) (o n : Nat) : Nat := leNat (byteSlice bs o n)
def imgSvn (im : List Byte) : Nat := le im 9 1
def imgFlags (im : List Byte) : Nat := le im 10 2
def imgSeq (im : List Byte) : Nat := le im 12 4
def imgBody (im : List Byte) : Nat := le im 16 4
def imgLen (im : List Byte) : Nat := le im 20 4
def imgNsect (im : List Byte) : Nat := le im 24 2
/-- The length of a signature block. -/
def sigLen : Nat := 29864

/-- Whether `n` bytes from an offset are 0. -/
def zeros (bs : List Byte) (o n : Nat) : Bool := (byteSlice bs o n).all (fun b => decide (b = 0))

/-- The payload length that a region must have (R429); none for an unknown region. -/
def regionLen (r : Nat) : Option Nat :=
  if r = 1 then some 1152 else if r = 2 then some 288 else if r = 3 then some 33792 else if r = 4 then some 4096
  else if r = 5 then some 16 else if r = 6 then some 8 else if r = 7 then some 32 else none

/-- The sections from an offset: region, offset of the section header, length of the payload; or the offset of a header at fault (R429). -/
def sections (im : List Byte) (body : Nat) : Nat → Nat → Nat → Option Nat ⊕ List (Nat × Nat × Nat)
  | 0, o, _ => .inl (some o)
  | k + 1, o, last =>
    if o = body then .inr []
    else
      let r := le im o 1
      let n := le im (o + 4) 4
      let ok := decide (o + 8 ≤ body) && decide (last < r) && decide (le im (o + 1) 1 = 1) && zeros im (o + 2) 2 && decide (n % 8 = 0) &&
                decide (o + 8 + n ≤ body) &&
                (match regionLen r with
                 | some l => decide (n = l)
                 | none => decide (r = 8) && decide (8 ≤ n))
      if ok then
        match sections im body k (o + 8 + n) r with
        | .inr l => .inr ((r, o, n) :: l)
        | .inl e => .inl e
      else .inl (some o)

def imgSections (im : List Byte) : Option Nat ⊕ List (Nat × Nat × Nat) := sections im (imgBody im) 9 64 0
/-- The sections of an image that passed check 5. -/
def sectionList (im : List Byte) : List (Nat × Nat × Nat) := match imgSections im with | .inr l => l | .inl _ => []
/-- The offset of a region's payload, and the payload. -/
def payloadAt (im : List Byte) (r : Nat) : Nat := match (sectionList im).find? (fun x => decide (x.1 = r)) with | some x => x.2.1 + 8 | none => 0
def payload (im : List Byte) (r : Nat) : List Byte :=
  match (sectionList im).find? (fun x => decide (x.1 = r)) with
  | some x => byteSlice im (x.2.1 + 8) x.2.2
  | none => []

/-- The digest of the body (R430). -/
def imgDigest (im : List Byte) : List Byte := shake256 (byteSlice im 0 (imgBody im)) 64

/-! ### Checks 1 to 6 (R440) -/

/-- What a check answers: none where it passes, else the status and the offset at fault. -/
abbrev Verdict := Option (Nat × Nat)
/-- The first check that fails. -/
def firstBad : List Verdict → Verdict
  | [] => none
  | v :: t => match v with
    | some e => some e
    | none => firstBad t
/-- A check of one thing. -/
def chk (ok : Bool) (status detail : Nat) : Verdict := if ok then none else some (status, detail)

def check1 (im : List Byte) : Verdict := chk (decide (im.take 4 = [0x45, 0x4C, 0x44, 0x4E])) 0x41 0
def check2 (im : List Byte) : Verdict :=
  firstBad [chk (decide (le im 4 2 = 1)) 0x42 4, chk (decide (imgFlags im < 2)) 0x42 10, chk (decide (imgSvn im ≤ 64)) 0x42 9, chk (zeros im 26 38) 0x42 26]
def check3 (im : List Byte) : Verdict := firstBad [chk (decide (le im 6 2 = 0x9144)) 0x43 6, chk (decide (le im 8 1 = 0xA1)) 0x43 8]
/-- `supplied` is the length that the image's source gives for it. -/
def check4 (im : List Byte) (supplied : Nat) : Verdict :=
  firstBad [chk (decide (64 ≤ imgBody im)) 0x44 16,
            chk (decide ((imgLen im = imgBody im + sigLen ∨ imgLen im = imgBody im + 2 * sigLen) ∧ imgLen im ≤ 16777216 ∧ imgLen im = supplied ∧
                         imgLen im ≤ im.length)) 0x44 20]
def check5 (im : List Byte) : Verdict :=
  match imgSections im with
  | .inl o => some (0x45, o.getD 0)
  | .inr l => firstBad [chk (decide (l.length = imgNsect im)) 0x45 24,
                        chk ([1, 2, 3, 4, 5, 6, 7].all (fun r => l.any (fun x => decide (x.1 = r)))) 0x45 24]
def State.check6 (s : State) (im : List Byte) : Verdict := chk (decide (s.sg.svn ≤ imgSvn im)) 0x46 9

/-! ### Checks 7 to 10: signatures -/

/-- The security state (R455): 0 Blank, 1 Provisioned, 2 Secured, 3 Retired. -/
def State.secState (s : State) : Nat :=
  if bitOf s.sg.fuseState 2 then 3 else if bitOf s.sg.fuseState 1 then 2 else if bitOf s.sg.fuseState 0 then 1 else 0

/-- A secret or a hash that is absent (all zeros) or zeroised (all ones) (R453). -/
def blankSecret (bs : List Byte) : Bool := bs.all (fun b => decide (b = 0)) || bs.all (fun b => decide (b = 0xFF))
/-- The slot in use: the highest used one whose hash is neither absent nor zeroised (R458). -/
def State.slotInUse (s : State) : Option Nat :=
  if s.secState < 2 then none
  else if bitOf s.sg.slotUsed 1 && !(blankSecret s.sg.hashB) then some 1
  else if bitOf s.sg.slotUsed 0 && !(blankSecret s.sg.hashA) then some 0
  else none
/-- The customer key hash of the slot in use. -/
def State.custHash (s : State) : Option (List Byte) := s.slotInUse.map (fun k => if k = 1 then s.sg.hashB else s.sg.hashA)

/-- The hash of a public key as fuses and ROM keep it. -/
def keyHash (key : List Byte) : List Byte := shake256 key 32

/-- The blocks of R430. -/
def blockKey (im : List Byte) (o : Nat) : List Byte := byteSlice im (o + 8) 64
def blockSig (im : List Byte) (o : Nat) : List Byte := byteSlice im (o + 72) 29792
/-- The check of a block's KIND and reserved bytes. -/
def blockForm (im : List Byte) (o kind status : Nat) : Verdict := firstBad [chk (decide (le im o 4 = kind)) status o, chk (zeros im (o + 4) 4) status (o + 4)]
def hasCust (im : List Byte) : Bool := decide (imgLen im = imgBody im + 2 * sigLen)

def check7 (im : List Byte) : Verdict :=
  let o := imgBody im
  firstBad [blockForm im o 1 0x47, chk (decide (keyHash (blockKey im o) = Config.imuriHash)) 0x47 (o + 8),
            chk (Config.slhVerify (blockKey im o) (imgDigest im) (blockSig im o)) 0x47 (o + 72)]
def State.checkCust (s : State) (im : List Byte) : Verdict :=
  let o := imgBody im + sigLen
  firstBad [chk (hasCust im || decide (s.secState ≠ 2)) 0x48 o,
            chk (decide (s.secState ≠ 2) || decide (some (keyHash (blockKey im o)) = s.custHash)) 0x4A (o + 8),
            if hasCust im then
              firstBad [blockForm im o 2 0x49, chk (Config.slhVerify (blockKey im o) (imgDigest im) (blockSig im o)) 0x49 (o + 72)]
            else none]

/-! ### Checks 11 to 17: regions -/

/-- The lanes of one of a port's lists (R431). -/
def laneList (bs : List Byte) (p : Nat) (rx : Bool) : List Nat :=
  let w := le bs (8 * p + (if rx then 2 else 0)) 2
  (List.range (u8 bs (8 * p + (if rx then 5 else 4)) % 8)).map (fun k => bitsOf w (4 * k) 4)
/-- Whether a port's entry is in form. -/
def laneForm (bs : List Byte) (p : Nat) : Bool :=
  let nt := u8 bs (8 * p + 4)
  let nr := u8 bs (8 * p + 5)
  let mx := if p < 128 then 1 else 4
  decide (nt ≤ mx) && decide (nr ≤ mx) && decide (le bs (8 * p) 2 / 2 ^ (4 * nt) = 0) && decide (le bs (8 * p + 2) 2 / 2 ^ (4 * nr) = 0) &&
  decide (u8 bs (8 * p + 6) % 16 / 2 ^ nt = 0) && decide (u8 bs (8 * p + 6) / 16 / 2 ^ nr = 0) && decide (u8 bs (8 * p + 7) = 0)
/-- Whether a port's lanes repeat none of its own and none of an earlier port of its group (R26, R28). -/
def laneOnce (bs : List Byte) (p : Nat) (rx : Bool) : Bool :=
  let mine := laneList bs p rx
  let before := ((portsOfGroup (groupOf p)).filter (fun q => decide (q < p))).flatMap (fun q => laneList bs q rx)
  mine.all (fun l => !(before.contains l)) && decide (mine.eraseDups = mine)
def checkLane (im : List Byte) : Verdict :=
  let bs := payload im 1
  let o := payloadAt im 1
  match (List.range 144).find? (fun p => !(laneForm bs p && laneOnce bs p false && laneOnce bs p true)) with
  | some p => some (0x4B, o + 8 * p)
  | none => none

/-- Whether two ranges, given by first and count, overlap. -/
def overlap (a n b m : Nat) : Bool := decide (a < b + m ∧ b < a + n)
/-- The pair that an image enables. -/
def clkPair (im : List Byte) (k : Nat) : Bool := bitOf (le (payload im 6) 0 2) k

/-- Whether a region's entry of MEM is in form (R432, R247). -/
def memRegionOk (im bs : List Byte) (p : Nat) : Bool :=
  let f := u8 bs (4 * p)
  let n := u8 bs (4 * p + 1)
  let pool := u8 bs (4 * p + 2)
  let first := le bs (32 + 4 * pool) 2
  let segs := le bs (34 + 4 * pool) 2
  decide (u8 bs (4 * p + 3) = 0) && decide (f + n ≤ 32) && decide (clkPair im (p / 2) = decide (1 ≤ n)) &&
  (if n = 0 then decide (pool = 0xFF)
   else decide (pool < 64) && decide (1 ≤ segs) && decide (16 * f ≤ first) && decide (first + segs ≤ 16 * (f + n)) &&
     (List.range p).all (fun q => decide (u8 bs (4 * q + 1) = 0) ||
       (!(overlap f n (u8 bs (4 * q)) (u8 bs (4 * q + 1))) && decide (u8 bs (4 * q + 2) ≠ pool))))
/-- Whether a pool's entry is in form. -/
def memPoolOk (bs : List Byte) (n : Nat) : Bool :=
  let f := le bs (32 + 4 * n) 2
  let k := le bs (34 + 4 * n) 2
  decide (f + k ≤ 512) && (List.range n).all (fun m => !(overlap f k (le bs (32 + 4 * m) 2) (le bs (34 + 4 * m) 2)) || decide (k = 0) || decide (le bs (34 + 4 * m) 2 = 0))
def checkMem (im : List Byte) : Verdict :=
  let bs := payload im 2
  let o := payloadAt im 2
  match (List.range 8).find? (fun p => !(memRegionOk im bs p)) with
  | some p => some (0x4C, o + 4 * p)
  | none =>
    match (List.range 64).find? (fun n => !(memPoolOk bs n)) with
    | some n => some (0x4C, o + 32 + 4 * n)
    | none => none

def checkQshape (im : List Byte) : Verdict :=
  let bs := payload im 3
  let o := payloadAt im 3
  match (List.range 1024).find? (fun g => decide (127 < u8 bs g)) with
  | some g => some (0x4D, o + g)
  | none =>
    match (List.range 16384).find? (fun d => decide (1023 < le bs (1024 + 2 * d) 2)) with
    | some d => some (0x4D, o + 1024 + 2 * d)
    | none => none

/-- Whether a slot of the calendar holds a TASK and ARG of R434. -/
def calSlotOk (bs : List Byte) (i : Nat) : Bool :=
  let t := u8 bs (4 * i)
  let a := le bs (4 * i + 2) 2
  decide (u8 bs (4 * i + 1) = 0) &&
  (if t = 0 ∨ t = 4 then decide (a = 0) else if t = 1 then decide (a < 128) else if t = 2 then decide (a < 144) else decide (t = 3 ∧ a < 256))
def checkCal (im : List Byte) : Verdict :=
  match (List.range 1024).find? (fun i => !(calSlotOk (payload im 4) i)) with
  | some i => some (0x4E, payloadAt im 4 + 4 * i)
  | none => none

def checkFabric (im : List Byte) : Verdict :=
  let bs := payload im 5
  let o := payloadAt im 5
  firstBad [chk (decide (le bs 0 4 &&& 0xFF00FFFC = 0)) 0x4F o, chk (decide (1 ≤ le bs 8 4 ∧ le bs 8 4 ≤ 15)) 0x4F (o + 8), chk (zeros bs 12 4) 0x4F (o + 12)]

/-- Every port group that CLK enables has the pair that it feeds (R20). -/
def checkClk (im : List Byte) : Verdict :=
  let v := le (payload im 6) 0 2
  chk (zeros (payload im 6) 2 6 && (List.range 12).all (fun g => !(bitOf v (4 + g)) || bitOf v (if g < 8 then g / 2 else g - 8))) 0x50 (payloadAt im 6)

def checkCg (im : List Byte) : Verdict :=
  let bs := payload im 7
  match (List.range 32).find? (fun u => if u < 19 then decide (31 < u8 bs u) else decide (u8 bs u ≠ 0)) with
  | some u => some (0x51, payloadAt im 7 + u)
  | none => none

/-! ### Check 18: DEFAULTS (R439) -/

/-- Whether a DEFAULTS record may write an address. -/
def defaultsAddr (a : Nat) : Bool :=
  decide (a % 4 = 0) &&
  (decide (0x100000 ≤ a ∧ a < 0x190000) || decide (0x400000 ≤ a ∧ a < 0x600000) || decide (0x800000 ≤ a ∧ a < 0xE00000) ||
   decide (0x1000000 ≤ a ∧ a < 0x2000000) || decide (0x40000 ≤ a ∧ a < 0x80000) || decide (0x3000000 ≤ a ∧ a < 0x3100000)) &&
  !(decide (0x3000108 ≤ a ∧ a < 0x3000118))

/-- The records of a DEFAULTS payload: offset, kind and words; or the offset of one at fault. -/
def defaultsList (bs : List Byte) : Nat → Nat → Nat ⊕ List (Nat × Nat × List Word)
  | 0, _ => .inr []
  | k + 1, o =>
    if bs.length ≤ o then .inr []
    else
      let w := le bs o 4
      let kind := w / 2 ^ 24
      let n := w % 2 ^ 24
      let ws := bytesWords (byteSlice bs (o + 4) (4 * n)) n
      let a := (ws.getD 0 0).toNat
      let cnt := (ws.getD 1 0).toNat
      let tc : TC := ⟨ws⟩
      let ok :=
        if kind = 0 then decide (n = 0)
        else if kind = 1 then decide (n = 2) && defaultsAddr a
        else if kind = 2 then decide (n = 8) && decide (tc.op = 1)
        else decide (kind = 3 ∧ n = 3 ∧ 1 ≤ cnt ∧ cnt ≤ 65536) && (List.range cnt).all (fun i => defaultsAddr (a + 4 * i))
      if !ok || decide (bs.length < o + 4 + 4 * n) then .inl o
      else if kind = 0 then .inr []
      else
        match defaultsList bs k (o + 4 + 4 * n) with
        | .inr l => .inr ((o, kind, ws) :: l)
        | .inl e => .inl e

def checkDefaults (im : List Byte) : Verdict :=
  let bs := payload im 8
  match defaultsList bs (bs.length / 4) 0 with
  | .inl o => some (0x52, payloadAt im 8 + o)
  | .inr _ => none

/-! ### Verification -/

/-- Checks 1 to 18 in order, with RETIRED before them (R440). -/
def State.imgCheck (s : State) (im : List Byte) (supplied : Nat) : Verdict :=
  firstBad [chk (decide (s.secState ≠ 3)) 0x55 0, check1 im, check2 im, check3 im, check4 im supplied, check5 im, s.check6 im, check7 im, s.checkCust im,
            checkLane im, checkMem im, checkQshape im, checkCal im, checkFabric im, checkClk im, checkCg im, checkDefaults im]

/-- SEQ for a record of a refused load: 0 if the header failed (R450). -/
def refusedSeq (im : List Byte) (status : Nat) : Nat := if 0x41 ≤ status ∧ status ≤ 0x43 then 0 else imgSeq im
def State.refuseImage (s : State) (origin : Nat) (im : List Byte) (status src : Nat) : State :=
  s.imageJournal origin 2 (refusedSeq im status) (imgSvn im) 0 status 0 src

/-- The bits of the regions that an image holds. -/
def imgRegions (im : List Byte) : Nat := (sectionList im).foldl (fun m x => m + 2 ^ (x.1 - 1)) 0

/-! ### The APPLY stage of a boot (R443) -/

/-- LANE, MEM, CLK, CG, QSHAPE, CAL and FABRIC are loaded into the structure; what follows is the DOMAINS stage. -/
def State.bootApply (s : State) (im : List Byte) (src : Nat) : State :=
  let s1 := ((((((s.setRegion 1 (payload im 1)).memLoad (payload im 2)).clkLoad (payload im 6)).cgLoad (payload im 7)).qshapeLoad (payload im 3)).setRegion 4
    (payload im 4)).fabricLoad (payload im 5)
  let s2 := { s1 with bt := { s1.bt with image := im, source := src } }
  let s3 := (s2.setF Fld.GL_BOOT_STATUS_SOURCE src).setF Fld.GL_BOOT_STATUS_EARLY_FWD (imgFlags im % 2)
  (s3.imageShow (imgSeq im) (imgSvn im) 0 (imgDigest im)).toStage stDomains

/-! ### Image loads by a ring (R445 to R449) -/

/-- The IMAGE_LOAD job of a ring that waits: the oldest whose last entry has been read, with a TAG and a MODE. A ring's shutdown does not end it (R446). -/
def State.loadJob (s : State) (r tag mode : Nat) : Option Job :=
  if (s.ring r).state ≠ ringIdle ∧ s.rKind r = kindCmd then
    (s.ring r).jobs.find? (fun j => decide (j.cmd = 2 ∧ j.mode = mode ∧ j.tag = tag) && j.ready && j.done.isNone)
  else none

/-- The verdict on a job's image: the length of word 4 and of the buffers, then the checks. -/
def State.loadCheck (s : State) (j : Job) (im : List Byte) : Verdict := s.imgCheck im (if j.total = j.w 4 then j.total else 0)

/-- A load ends refused. -/
def State.loadRefused (s : State) (r : Nat) (j : Job) (im : List Byte) (e : Nat × Nat) (src : Nat) : State :=
  (s.refuseImage orgPcie im e.1 src).jobEnd r j.num e.1 e.2 0

/-- The groups that a QSHAPE reload commits (R416, R447). -/
def State.plMask (s : State) : Nat := 2 ^ s.unitGroup 17

/-- FABRIC and MEM of a live reload raise their reasons together (R448); an empty region is one that does not change. -/
def State.reloadFabric (s : State) (fabric mem : List Byte) : State :=
  let s1 := { s with fab := { s.fab with fabNew := if fabric = [] then s.fab.fabNew else fabric,
                                         memNew := if mem = [] then s.fab.memNew else mem,
                                         memMask := if mem = [] then s.fab.memMask else memDiff (s.region 2) mem } }
  let s2 := if mem = [] then s1 else s1.touchPools
  if fabric ≠ [] ∨ mem ≠ [] then s2.fdyReason ((if fabric = [] then 0 else reasonFabric) + (if mem = [] then 0 else reasonMem)) else s2

/-- A live reload (R447, R448): QSHAPE is committed and CAL awaits its turn; then FABRIC and MEM raise their reasons together. -/
def State.liveReload (s : State) (r : Nat) (j : Job) (im : List Byte) : State :=
  let diff (x : Nat) : Bool := decide (payload im x ≠ s.region x)
  if diff 1 || diff 6 || diff 7 then s.loadRefused r j im (0x53, 0) 2
  else if diff 3 && decide (s.fld Fld.CM_PENDING_GROUPS &&& s.plMask ≠ 0) then s.loadRefused r j im (0x57, 0) 2
  else
    let regions := b2n (diff 2) * 2 + b2n (diff 3) * 4 + b2n (diff 4) * 8 + b2n (diff 5) * 16
    let dig := imgDigest im
    if regions = 0 then
      (s.imageJournal orgPcie 1 (imgSeq im) (imgSvn im) 0 ilOk (leNat (dig.take 4)) 2).jobEnd r j.num ilOk 0 0
    else
      let s1 := { s with bt := { s.bt with reload := some ⟨r, j.num, dig, imgSeq im, imgSvn im, regions, regions, 0,
                                             if diff 4 && diff 5 then payload im 5 else [], if diff 4 && diff 2 then payload im 2 else []⟩,
                                           calNew := if diff 4 then some (payload im 4) else s.bt.calNew } }
      let s2 := if diff 3 then
                  (let t := ((s1.qshapeShadow (payload im 3)).commitUnion orgPcie s1.plMask false true).setRegion 3 (payload im 3)
                   match t.bt.reload with
                   | some x => ({ t with bt := { t.bt with reload := some { x with refused := t.qshapeRefused (payload im 3) } } }).reloadDone 2
                   | none => t)
                else s1
      if diff 4 then s2 else s2.reloadFabric (if diff 5 then payload im 5 else []) (if diff 2 then payload im 2 else [])

/-- The load that a boot or a reload answers. -/
def State.setBtReload (s : State) (x : Option Reload) : State := { s with bt := { s.bt with reload := x } }

/-- MODE APPLY: a boot from the image in WAIT_IMAGE, a live reload once an image has been applied. -/
def State.loadApply (s : State) (r tag : Nat) (image : List Byte) : State :=
  match s.loadJob r tag 0 with
  | none => s
  | some j =>
    let im := byteSlice image 0 j.total
    match s.loadCheck j im with
    | some e => s.loadRefused r j im e 2
    | none =>
      if s.stage = stWait then
        (s.bootApply im 2).setBtReload (some ⟨r, j.num, imgDigest im, imgSeq im, imgSvn im, imgRegions im, 0, 0, [], []⟩)
      else if s.bt.regions ≠ [] then s.liveReload r j im
      else s.loadRefused r j im (ilBusy, 0) 2
/-- MODE VERIFY: the checks only. -/
def State.loadVerify (s : State) (r tag : Nat) (image : List Byte) : State :=
  match s.loadJob r tag 1 with
  | none => s
  | some j =>
    let im := byteSlice image 0 j.total
    match s.loadCheck j im with
    | some e => s.loadRefused r j im e 2
    | none => (s.imageJournal orgPcie 3 (imgSeq im) (imgSvn im) 0 ilOk (leNat ((imgDigest im).take 4)) 2).jobEnd r j.num ilOk 0 0

/-- The slot that a FLASH load writes: the one not booted, or after a host boot the one with the lower SEQ, as the device reads it in the flash; slot 0 where
both are equal (DESIGN CHOICE, notes/assumptions/33.md). -/
def State.flashSlot (s : State) (seq0 seq1 : Nat) : Nat :=
  if s.bt.source = 0 then 1 else if s.bt.source = 1 then 0 else if seq1 < seq0 then 1 else 0

/-- Where a slot begins in the flash (R442). -/
def slotBase (k : Nat) : Nat := k * 0x1000000
/-- The reads of both slots' headers (R504). -/
def headerReads : List OutEv := [.spi 0x13 (slotBase 0) 64 [], .spi 0x13 (slotBase 1) 64 []]
/-- One erase or program, between its write enable and the poll that ends it (R504). -/
def flashStep (cmd addr : Nat) (bytes : List Byte) : List OutEv := [.spi 0x06 0 0 [], .spi cmd addr 0 bytes, .spi 0x05 0 1 []]
/-- The write of an image to a slot: the sectors that cover it are erased, its pages programmed, and it is read back (R445, R504). -/
def flashWrite (k : Nat) (im : List Byte) : List OutEv :=
  (List.range ((im.length + 65535) / 65536)).flatMap (fun i => flashStep 0xDC (slotBase k + 65536 * i) []) ++
  (List.range ((im.length + 255) / 256)).flatMap (fun i => flashStep 0x12 (slotBase k + 256 * i) ((im.drop (256 * i)).take 256)) ++
  [.spi 0xEC (slotBase k) im.length []]
/-- What a FLASH load does on the flash's pins; after a host boot it reads both headers for their SEQ. -/
def State.flashOps (s : State) (k : Nat) (im : List Byte) : List OutEv := (if s.bt.source < 2 then [] else headerReads) ++ flashWrite k im
/-- Events leave the device one after another. -/
def State.emitAll (s : State) (l : List OutEv) : State := l.foldl (fun s e => s.emit e) s

/-- MODE FLASH: the checks, then the write and the read-back. -/
def State.loadFlash (s : State) (r tag : Nat) (image : List Byte) (seq0 seq1 : Nat) (readBackOk : Bool) : State :=
  match s.loadJob r tag 2 with
  | none => s
  | some j =>
    let im := byteSlice image 0 j.total
    match s.loadCheck j im with
    | some e => s.loadRefused r j im e 2
    | none =>
      let k := s.flashSlot seq0 seq1
      let s1 := s.emitAll (s.flashOps k im)
      if readBackOk then
        let s2 := { s1 with bt := { s1.bt with slot0 := if k = 0 then im else s1.bt.slot0, slot1 := if k = 1 then im else s1.bt.slot1 } }
        (s2.imageJournal orgPcie 4 (imgSeq im) (imgSvn im) 0 ilOk (leNat ((imgDigest im).take 4)) k).jobEnd r j.num ilOk 0 0
      else s1.loadRefused r j im (0x56, 0) 2

/-- A reloaded calendar comes into effect with the next turn (R447); what the reload holds back until then follows (R448). -/
def State.calReload (s : State) : State :=
  match s.bt.calNew with
  | none => s
  | some bs =>
    let held := match s.bt.reload with
                | some x => (x.fabric, x.mem)
                | none => ([], [])
    ((({ s with bt := { s.bt with calNew := none } }).setRegion 4 bs).reloadDone 3).reloadFabric held.1 held.2

end Sys2Proof.Machine
end

