-- ==== Sys2Proof/Machine/Signet.lean ====
section
/-!
DEFINITION. Signet (R452 to R471): debug levels, tokens, the anti-rollback count and attestation; Loupe's trace and snapshots (R466, R467); the reset of the main
islands (R496, R513) and the preparation of Keep (R476).
-/
namespace Sys2Proof.Machine

/-! ### The always-on subset (R513) -/

/-- Whether a register lies in the always-on island. -/
def isAon (a : Nat) : Bool :=
  decide (a = 0) || decide (a = 0x20) || decide (0x18000 ≤ a ∧ a < 0x18048) || decide (a = 0x20000) || decide (a = 0x20010) || decide (a = 0x20014) ||
  decide (a = 0x30000) || decide (a = 0x30004) || decide (a = 0x30010) || decide (a = 0x30014) || decide (0x40000 ≤ a ∧ a < 0x41000) ||
  decide (0x50000 ≤ a ∧ a < 0x51000) || decide (0x2740040 ≤ a ∧ a < 0x2740070)

/-- What an initiator keeps when the main islands are reset: its journal selection, which is always-on. -/
def IniBus.mainReset (b : IniBus) : IniBus :=
  { IniBus.reset with jnSel := b.jnSel, jnStat := b.jnStat, jnBusy := b.jnBusy, jnRec := b.jnRec }

/-- Every island but the always-on one returns to its reset state; its registers and counters are lost (R496, R513). -/
def State.mainClear (s : State) : State :=
  { s with regs := s.regs.drop (fun a => !(isAon a)), act := [], ctrs := s.ctrs.drop (fun a => !(isAon a)), goBusy := s.goBusy.drop (fun a => !(isAon a)),
           bus := s.bus.map (fun e => (e.1, e.2.mainReset)),
           pool := Pool.reset, fab := Fab.reset, ports := [], pl := Planish.reset, pt := Planes.reset, hi := HostIf.reset, av := Anvil.reset,
           pw := Power.reset, db := Debug.reset, crfs := [], pms := [], bt := Boot.reset,
           hm := { s.hm with gates := [], armLate := [], crfVals := [] }, jn := { s.jnRipe.jn with soon := [] },
           tw := { s.tw with streams := [], recov := [], records := [], mseq := 0, mseqRx := none, digests := [], lastDiff := 0, auditSec := none,
                               diffSec := none, resend := 0 },
           isl := { s.isl with pair := 0, pg := 0, rxOpen := false, keep := false }, sg := { s.sg with doneAt := none } }

/-- The reset of the main islands; the strap BOOT_SRC shows what was last sampled (R491). -/
def State.mainReset (s : State) : State := s.mainClear.setF Fld.GL_BOOT_STATUS_BOOT_SRC (s.fld Fld.GL_BOOT_STATUS_BOOT_SRC)

/-- The always-on registers that show the state of the main islands follow their reset: the measures of Doze and KEEP_READY are gone. -/
def State.pwClear (s : State) : State :=
  ((s.setF Fld.PW_STATUS_LANE1_OFF 0).setF Fld.PW_STATUS_PG_GATED 0).setF Fld.PW_STATUS_KEEP_READY 0

/-! ### Debug levels (R464, R465, R471) -/

/-- The level changes; the change is journalled. -/
def State.setLevel (s : State) (origin lvl cause dur : Nat) : State :=
  if s.dbgLevel = lvl then s
  else
    let s1 := ((s.setF Fld.SG_STATUS_DEBUG lvl).raise Fld.SG_INT_STATUS_DEBUG_CHG).journal 6 origin 1 [s.dbgLevel, lvl, cause, dur]
    if lvl = lvInspect then s1 else { s1 with db := { s1.db with endAt := none } }

/-- Observe and Inspect end; a Maker session goes on. -/
def State.endSession (s : State) (origin cause : Nat) : State := if s.dbgLevel = lvMaker then s else s.setLevel origin lvNone cause 0

/-- A write of `SG_OBSERVE.EN`; on a retired device it is stored and the level stays (R480). -/
def State.observeWrite (s : State) (origin : Nat) (v : Bool) : State :=
  let s1 := s.setF Fld.SG_OBSERVE_EN (b2n v)
  if v then (if s1.dbgLevel = lvNone ∧ s1.secState ≠ 3 then s1.setLevel origin lvObserve 1 0 else s1)
  else if s1.dbgLevel = lvObserve then s1.setLevel origin lvNone 1 0
  else s1

/-- An Inspect session's DURATION has run out. -/
def State.inspectExpire (s : State) : State :=
  match s.db.endAt with
  | some t => if s.dbgLevel = lvInspect ∧ t ≤ s.now then s.setLevel orgInternal lvNone 3 0 else s
  | none => s

/-! ### Tokens (R456 to R463) -/

def rcOk : Nat := 0
def rcBadFormat : Nat := 1
def rcWrongUid : Nat := 2
def rcStale : Nat := 3
def rcNotAllowed : Nat := 4
def rcInitiator : Nat := 5
def rcKey : Nat := 6
def rcSig : Nat := 7
def rcFuse : Nat := 8
def tkInspect : Nat := 1
def tkMaker : Nat := 2
def tkSecure : Nat := 3
def tkRetire : Nat := 4

/-- The token in `SG_TOKEN_BUF`, and `SG_NONCE`. -/
def State.tokenBytes (s : State) : List Byte := wordsLe ((List.range 7480).map (fun i => s.reg (Reg.SG_TOKEN_BUF i)))
def State.nonceBytes (s : State) : List Byte := wordsLe ((List.range 8).map (fun i => s.reg (Reg.SG_NONCE i)))
def State.seedBytes (s : State) : List Byte := wordsLe ((List.range 8).map (fun i => s.reg (Reg.SG_SEED i)))
/-- A new nonce from the TRNG (R463). -/
def State.newNonce (s : State) : State := (List.range 8).foldl (fun s i => (s.setReg (Reg.SG_NONCE i) (w32 s.freeVal)).drawn) s

/-- The slot that SECURE would take: the lowest unused (R456). -/
def State.freeSlot (s : State) : Option Nat :=
  if bitOf s.sg.slotUsed 0 = false then some 0 else if bitOf s.sg.slotUsed 1 = false then some 1 else none

/-- Checks 1 to 6 of R462. -/
def State.tokenCheck (s : State) (ini : Initiator) (t : List Byte) : Nat :=
  let kind := u8 t 5
  let key := byteSlice t 64 64
  if !(decide (t.take 4 = [0x4C, 0x50, 0x54, 0x4B]) && decide (u8 t 4 = 1) && decide (1 ≤ kind ∧ kind ≤ 4) && zeros t 6 2 && zeros t 52 12 &&
       (decide (kind = tkInspect) || zeros t 48 4)) then rcBadFormat
  else if le t 8 8 ≠ s.sg.uid then rcWrongUid
  else if byteSlice t 16 32 ≠ s.nonceBytes then rcStale
  else if (kind = tkInspect ∧ (s.secState = 3 ∨ s.dbgLevel = lvMaker)) ∨ (kind = tkSecure ∧ (s.secState ≠ 1 ∨ s.freeSlot = none)) ∨
      (kind = tkRetire ∧ s.secState = 3) then rcNotAllowed
  else if (kind = tkSecure ∨ kind = tkRetire) ∧ ini ≠ .pcie then rcInitiator
  else if (kind = tkMaker ∧ keyHash key ≠ Config.imuriHash) ∨
      ((kind = tkRetire ∨ kind = tkInspect) ∧ s.secState = 2 ∧ some (keyHash key) ≠ s.custHash) ∨
      (kind = tkRetire ∧ s.secState ≠ 2 ∧ keyHash key ≠ Config.imuriHash) then rcKey
  else if !(Config.slhVerify key (t.take 64) (byteSlice t 128 29792)) then rcSig
  else rcOk

def zeroised : List Byte := List.replicate 32 0xFF

/-- Fuses are being programmed for a free time of at most 25 ms (R462). -/
def State.burn (s : State) (f : Signet) (p : Option FuseProg) : State :=
  { s.drawn with sg := { f with fuseEnd := s.now + s.freeVal % (25 * tMs), prog := p } }
/-- Whether fuses are being programmed (R460). -/
def State.fuseBusy (s : State) : Bool := decide (s.now < s.sg.fuseEnd)
/-- The bytes of a fuse whose programming from `old` to `new` was cut off: what was blown of the rest is free. -/
def fusePartial (old new : List Byte) (v : Nat) : List Byte := (old.zip new).zip (leBytes 32 v) |>.map (fun x => x.1.1 ||| (x.1.2 &&& x.2))
/-- Power is lost: programming under way ends where it stands, as the table of R460 gives it. A SECURE leaves SECURED blown or not, which is free. -/
def State.fuseLoss (s : State) : State :=
  if s.fuseBusy then
    let f := { s.sg with fuseEnd := 0, prog := none }
    match s.sg.prog with
    | none => { s with sg := f }
    | some (.advance old) => { s.drawn with sg := { f with svn := old + s.freeVal % (f.svn - old + 1) } }
    | some (.secure k seed) =>
      if s.freeVal % 2 = 0 then { s.drawn with sg := f }
      else
        let h (v : List Byte) : List Byte := fusePartial (List.replicate 32 0) v s.drawn.freeVal
        let c (v : List Byte) : List Byte := fusePartial seed v s.drawn.drawn.freeVal
        { s.drawn.drawn.drawn with sg := { f with fuseState := f.fuseState - (f.fuseState &&& 2),
                                                  hashA := if k = 0 then h f.hashA else f.hashA, hashB := if k = 1 then h f.hashB else f.hashB,
                                                  custA := if k = 0 then c f.custA else f.custA, custB := if k = 1 then c f.custB else f.custB } }
  else s

/-- The security state changes (R455, R465, R471). -/
def State.secChange (s : State) (old kind slot : Nat) : State :=
  ((s.journal 6 orgPcie 0 [old, s.secState, kind, slot]).raise Fld.SG_INT_STATUS_STATE_CHG).endSession orgPcie 6

/-- Bytes of a fuse with more bits blown: one that is blown stays so (R452). -/
def orBytes (old new : List Byte) : List Byte := (old.zip new).map (fun x => x.1 ||| x.2)

/-- SECURE (R456). -/
def State.secure (s : State) (t : List Byte) : State :=
  match s.freeSlot with
  | none => s
  | some k =>
    let h := keyHash (byteSlice t 64 64)
    let c := s.seedBytes
    let none_ := c.all (fun b => decide (b = 0))
    let f := s.sg
    let f1 := { f with slotUsed := f.slotUsed ||| 2 ^ k, fuseState := f.fuseState ||| 2,
                       hashA := if k = 0 then orBytes f.hashA h else f.hashA, hashB := if k = 1 then orBytes f.hashB h else f.hashB,
                       custA := if k = 0 ∧ none_ = false then orBytes f.custA c else f.custA,
                       custB := if k = 1 ∧ none_ = false then orBytes f.custB c else f.custB }
    (s.burn f1 (some (.secure k (if k = 0 then f.custA else f.custB)))).secChange s.secState tkSecure k

/-- RETIRE (R457): the main islands are reset as by SYS_RST_N. -/
def State.retire (s : State) : State :=
  let f := { s.sg with fuseState := s.sg.fuseState ||| 4, seed := zeroised, custA := zeroised, custB := zeroised }
  ((((s.burn f none).secChange s.secState tkRetire 0).leaseRelease).mainReset).pwClear

/-- Maker entry (R464). -/
def State.makerEnter (s : State) (origin : Nat) : State :=
  (s.burn { s.sg with makerUsed := true, custA := zeroised, custB := zeroised } none).setLevel origin lvMaker 0 0

/-- What a token that passed the checks does; programming of fuses may fail (check 7). A SECURE that fails has spent its slot (R460). -/
def State.tokenDo (s : State) (origin : Nat) (t : List Byte) (fuseOk : Bool) : Nat × State :=
  let kind := u8 t 5
  if kind = tkInspect then
    let d := le t 48 4
    let s1 := s.setLevel origin lvInspect 0 d
    (rcOk, { s1 with db := { s1.db with endAt := if d = 0 then none else some (s1.now + d * tSec) } })
  else if fuseOk = false then
    (rcFuse, if kind = tkSecure then s.burn { s.sg with slotUsed := s.sg.slotUsed ||| 2 ^ (s.freeSlot.getD 0) } none else s)
  else if kind = tkMaker then (rcOk, s.makerEnter origin)
  else if kind = tkSecure then (rcOk, s.secure t)
  else (rcOk, s.retire)

/-- The end of a command: RESULT, and CMD_DONE as GO clears. -/
def State.sgDone (s : State) (rc : Nat) : State := { s.setF Fld.SG_CMD_RESULT rc with sg := { s.sg with doneAt := some (s.goEnd Reg.SG_CMD) } }

/-- A token is refused: TOKENS_REFUSED and its interrupt. -/
def State.tokenRefuse (s : State) : State := (s.count 0x2780000 1).raise Fld.SG_INT_STATUS_TOKEN_REFUSED

/-- OP TOKEN. -/
def State.tokenRun (s : State) (ini : Initiator) (fuseOk : Bool) : State :=
  let t := s.tokenBytes
  let c := s.tokenCheck ini t
  let r := if c = rcOk then s.tokenDo (Initiator.origin ini) t fuseOk else (c, s)
  let s1 := if r.1 = rcOk then r.2 else r.2.tokenRefuse
  let s2 := (List.range 8).foldl (fun s i => s.setReg (Reg.SG_SEED i) 0) s1
  if r.1 = rcOk ∧ u8 t 5 = tkRetire then s2.newNonce else (s2.newNonce).sgDone r.1

/-- OP ADVANCE_SVN (R459); where programming fails, the count lies between the old value and the new (R460). -/
def State.advanceSvn (s : State) (ini : Initiator) (fuseOk : Bool) : State :=
  let v := s.fld Fld.GL_IMAGE_INFO_SVN
  if s.secState = 3 then s.sgDone rcNotAllowed
  else if ini ≠ .pcie then s.sgDone rcInitiator
  else if v ≤ s.sg.svn then s.sgDone rcOk
  else if fuseOk then (s.burn { s.sg with svn := v } (some (.advance s.sg.svn))).sgDone rcOk
  else ((s.drawn).burn { s.sg with svn := s.sg.svn + s.freeVal % (v - s.sg.svn) } (some (.advance s.sg.svn))).sgDone rcFuse

/-- OP DEBUG_END (R481). -/
def State.debugEnd (s : State) (origin : Nat) : State :=
  if s.dbgLevel = lvMaker then s.sgDone rcNotAllowed
  else ((s.setF Fld.SG_OBSERVE_EN 0).setLevel origin lvNone 2 0).sgDone rcOk

/-- A write of 1 to GO of `SG_CMD` (R520). -/
def State.sgGo (s : State) (ini : Initiator) (op : Nat) (fuseOk : Bool) : State :=
  if s.busy Reg.SG_CMD then s.setF Fld.SG_CMD_OVERRUN 1
  else
    let s1 := ((s.intTake Reg.SG_INT_STATUS).setF Fld.SG_CMD_OP op).startGo Reg.SG_CMD (40 * tMs)
    if op = 1 then s1.advanceSvn ini fuseOk else if op = 2 then s1.debugEnd (Initiator.origin ini) else s1.tokenRun ini fuseOk

/-! ### Attestation (R468 to R470) -/

/-- The seed of the identity key's pair (R454). -/
def State.idSeed (s : State) : List Byte := shake256 (1 :: s.sg.seed) 48
/-- `SG_ID_PK`: none where no key is derived (R453). -/
def State.idKey (s : State) : List Byte := if blankSecret s.sg.seed ∨ s.secState = 0 ∨ s.secState = 3 then List.replicate 32 0 else Config.slhKey s.idSeed
/-- The customer seed in use. -/
def State.custSeed (s : State) : List Byte := if s.slotInUse = some 1 then s.sg.custB else s.sg.custA
def State.seedOff (s : State) : Bool := blankSecret s.custSeed

/-- The time of a report: the fields of R80's TX_TIME, seconds, nanoseconds and fraction, each little-endian as R469 has it. -/
def State.reportTime (s : State) : List Byte :=
  leBytes 6 (s.hm16 / 65536 / 1000000000) ++ leBytes 4 (s.hm16 / 65536 % 1000000000) ++ leBytes 2 (s.hm16 % 65536)

/-- Bytes 0 to 255 of a report (R469). -/
def State.reportBody (s : State) (nonce : List Byte) : List Byte :=
  let flags := b2n s.sg.makerUsed + b2n s.seedOff * 2 + (s.slotInUse.getD 0) * 4 + s.fld Fld.PW_STATUS_STATE * 16
  let bind := if s.seedOff then List.replicate 32 0 else shake256 (2 :: (s.custSeed ++ nonce)) 32
  let digest := wordsLe ((List.range 16).map (fun i => s.reg (Reg.GL_IMAGE_DIGEST i)))
  [0x41, 0x54, 0x53, 0x54, 1] ++ leBytes 1 s.secState ++ leBytes 1 s.dbgLevel ++ leBytes 1 flags ++ leBytes 8 s.sg.uid ++ nonce ++ digest ++
    leBytes 4 (s.reg Reg.GL_IMAGE_SEQ).toNat ++ leBytes 1 (s.fld Fld.GL_IMAGE_INFO_SVN) ++ leBytes 1 s.sg.svn ++ [0, 0] ++ leBytes 8 s.sg.mono ++
    s.reportTime ++ leBytes 1 s.servo ++ [0, 0, 0] ++ bind ++ s.idKey ++ List.replicate 48 0

/-- The oldest ATTEST job of a ring that waits. -/
def State.attestWaits (s : State) (r : Nat) : Option Job :=
  if s.rOn r ∧ s.rKind r = kindCmd then (s.ring r).jobs.find? (fun j => decide (j.cmd = 3) && j.ready && j.done.isNone) else none
/-- Whether an image is being verified: by the boot from flash, or as an image load whose last entry has been read and which is not yet being applied. -/
def State.verifying (s : State) : Bool :=
  decide (s.stage = stVerify) ||
  s.hi.rings.any (fun e => decide (s.rKind e.1 = kindCmd) && e.2.jobs.any (fun j => decide (j.cmd = 2) && j.ready && j.done.isNone &&
    !(match s.bt.reload with | some x => decide (x.ring = e.1 ∧ x.job = j.num) | none => false)))
/-- Whether an ATTEST job's turn has come: no image is being verified, and no job of another ring has waited longer; of two that became ready together the one of
the lower ring goes first (R468). -/
def State.attestTurn (s : State) (r : Nat) (j : Job) : Bool :=
  !s.verifying && s.hi.rings.all (fun e =>
    match s.attestWaits e.1 with
    | some k => decide (j.readyAt < k.readyAt ∨ (j.readyAt = k.readyAt ∧ r ≤ e.1))
    | none => true)
/-- The ATTEST job of a ring that is served next, if its turn has come. -/
def State.attestJob (s : State) (r : Nat) : Option Job :=
  match s.attestWaits r with
  | some j => if s.attestTurn r j then some j else none
  | none => none

/-- An ATTEST job is served. -/
def State.attest (s : State) (r : Nat) : State :=
  match s.attestJob r with
  | none => s
  | some j =>
    if s.secState = 0 ∨ s.secState = 3 ∨ blankSecret s.sg.seed then s.jobEnd r j.num 0x61 0 (s.sg.mono % 2 ^ 32)
    else if j.w 6 % 2 ^ 16 < 17344 then s.jobEnd r j.num 0x62 0 (s.sg.mono % 2 ^ 32)
    else
      let s1 := { s with sg := { s.sg with mono := (s.sg.mono + 1) % 2 ^ 64 } }
      let b := s1.reportBody j.payload
      let s2 := s1.emit (.dma (j.w 5 * 2 ^ 32 + j.w 4) (b ++ byteSlice (Config.slhSign s.idSeed b) 0 17088))
      s2.jobEnd r j.num 0x60 17344 (s2.sg.mono % 2 ^ 32)

/-! ### Loupe (R466, R467) -/

/-- The oldest trace entry is discarded. -/
def State.tracePop (s : State) : State := { s with db := { s.db with trace := s.db.trace.drop 1 } }

/-- A snapshot of a counter window; at level None GO ignores writes. -/
def State.snapGo (s : State) (w : Nat) : State :=
  if s.observing then
    let s1 := (s.setF Fld.DB_SNAP_CTRL_WINDOW w).startGo Reg.DB_SNAP_CTRL (5 * tUs)
    ({ s1 with db := { s1.db with snap := (List.range 512).map (fun k => s1.ctrNow (0x2000000 + w * 0x1000 + k * 8)) } }).raise Fld.DB_INT_STATUS_SNAP_DONE
  else s.setF Fld.DB_SNAP_CTRL_WINDOW w

/-! ### Keep (R476) -/

/-- Every receive path closes; frames in reception end as refused (R193). -/
def State.closeReceive (s : State) : State :=
  { s with isl := { s.isl with rxOpen := false }, ports := s.ports.map (fun e => if e.2.rxOn then (e.1, { e.2 with rxRefused := true }) else e) }

/-- A write of KEEP to `PW_CTRL.TARGET`; while the main islands do not run it is stored. -/
def State.targetKeep (s : State) : State :=
  let s1 := s.setF Fld.PW_CTRL_TARGET 2
  if s1.mainUp then (({ s1 with isl := { s1.isl with keep := true } }).closeReceive.leaseRelease).endSession orgInternal 5 else s1

/-- Whether a token command or an ATTEST job is under way. -/
def State.sgWork (s : State) : Bool :=
  s.busy Reg.SG_CMD || s.hi.rings.any (fun e => decide (s.rKind e.1 = kindCmd) && e.2.jobs.any (fun j => decide (j.cmd = 3) && j.ready && j.done.isNone))

/-- Nothing holds Keep back any longer. -/
def State.keepReady (s : State) : State :=
  if s.isl.keep ∧ s.mainUp ∧ s.bit Fld.PW_STATUS_KEEP_READY = false ∧ s.fuseBusy = false ∧ s.sgWork = false then
    (s.setF Fld.PW_STATUS_KEEP_READY 1).raise Fld.PW_INT_STATUS_KEEP_READY
  else s

/-- A write of `PW_CTRL.TARGET`. A write of FULL or DOZE withdraws a request for Keep. -/
def State.targetWrite (s : State) (v : Nat) : State :=
  if v = 2 then s.targetKeep
  else
    let s0 := s.setF Fld.PW_STATUS_KEEP_READY 0
    let s1 := { s0 with isl := { s0.isl with keep := false, oldTgt := false } }
    if v = 1 then s1.targetDoze else s1.targetFull v

/-- `GL_BOOT_CTRL.RELEASE`: in HELD the boot goes on from flash (R441). -/
def State.bootRelease (s : State) : State := if s.stage = stHeld then s.toStage stRead else s

end Sys2Proof.Machine
end

