-- ==== Sys2Proof/Machine/Mirror.lean ====
section
/-!
DEFINITION. Mirroring between the twins (R354 to R356): mirror frames, their records, RESEND, and the audits.
-/
namespace Sys2Proof.Machine

/-! ### Fields of a word -/

/-- The mask of a field. -/
def FieldDef.mask (f : FieldDef) : Nat := (2 ^ (f.hi - f.lo + 1) - 1) * 2 ^ f.lo
/-- The bits of a word whose fields have a type that passes a test. -/
def fieldMask (fs : List FieldDef) (p : FTy → Bool) : Nat := fs.foldl (fun m f => if p f.ty then m + f.mask else m) 0
def fieldsAt (a : Nat) : List FieldDef := match regAt a with | some (r, _) => r.fields | none => []

/-- A write to a word with RWS fields: the shadow changes, its group is pending, and a mirrored item is noted (R412, R413, R355). -/
def State.shadowWrite (s : State) (a : Nat) (w : Word) : State :=
  let v := w32 (w.toNat &&& fieldMask (fieldsAt a) (fun t => decide (t = .rws)))
  let s1 := s.setReg a v
  let s2 := match unitOf a with
            | some u => s1.markPending u
            | none => s1
  if plRws a then s2.mirrorNote 3 a [v] else s2

/-! ### The mirrored areas -/

/-- The addresses of Planish's RWS words, rising (R354). -/
def plWords : List Nat :=
  let recs (base n : Nat) (offs : List Nat) : List Nat := (List.range n).flatMap (fun i => offs.map (fun o => base + i * 0x20 + o))
  [0x1000000] ++ (List.range 16).map (fun i => 0x1000040 + 4 * i) ++ (List.range 16).map (fun i => 0x1000080 + 4 * i) ++
    recs 0x1010000 144 [0, 4, 8] ++ recs 0x1012000 1152 [0, 4, 8] ++ recs 0x1020000 1024 [0, 4, 8, 16] ++ recs 0x1040000 16384 [0, 4, 8, 16] ++
    recs 0x1100000 65536 [0, 4, 8] ++ recs 0x1400000 36864 [0, 4, 8, 12, 16]

/-- Every mirrored item, in ascending index by area. -/
def State.mirrorAll (s : State) : List (Nat × Nat × List Word) :=
  (List.range 16384).map (fun i => (1, i, (s.tblEnt tDwell i).take 3)) ++ (List.range 8192).map (fun i => (2, i, s.tblEnt tMcg i)) ++
    plWords.map (fun a => (3, a, [s.reg a]))

/-- A write of 1 to RESEND on the holder (R356): every item is queued, and RESEND reads 1 until the last of them has been sent (R9). -/
def State.mirrorResend (s : State) : State :=
  if s.duty then
    let l := s.tw.records ++ s.mirrorAll
    { s with tw := { s.tw with records := l, resend := l.length } }
  else s

/-! ### Frames -/

/-- Words most significant byte first. -/
def wordsBe (ws : List Word) : List Byte := ws.foldr (fun w t => beBytes 4 w.toNat ++ t) []
/-- A mirror record as it is sent (R355). -/
def recordBytes (r : Nat × Nat × List Word) : List Byte := beBytes 1 r.1 ++ beBytes 1 r.2.2.length ++ [0, 0] ++ beBytes 4 r.2.1 ++ wordsBe r.2.2

/-- The records that fit in a number of bytes, and those that stay. -/
def fitRecords : List (Nat × Nat × List Word) → Nat → List (Nat × Nat × List Word) × List (Nat × Nat × List Word)
  | [], _ => ([], [])
  | r :: t, n =>
    let k := 8 + 4 * r.2.2.length
    if k ≤ n then (let x := fitRecords t (n - k); (r :: x.1, x.2)) else ([], r :: t)

/-- A frame of the control EtherType for the twin. The spec gives it no MAC addresses: they are a free value (notes/assumptions/3.md). -/
def State.twinFrame (s : State) (subtype count seq : Nat) (body : List Byte) : List Byte × State :=
  (withFcs (beBytes 12 s.freeVal ++ beBytes 2 (s.fld (Fld.PP_PARSE_CFG_CTRL_ETYPE 0)) ++ beBytes 1 subtype ++ [1] ++ beBytes 2 count ++ beBytes 4 seq ++
    beBytes 4 (s.reg Reg.TW_PAIR_ID).toNat ++ body ++ List.replicate (34 - body.length) 0), s.drawn)

def State.mirrorOn (s : State) : Bool := s.bit Fld.TW_CFG_EN && s.bit Fld.TW_MIRROR_CTRL_EN

/-- Anvil's TASK 0x04: one mirror frame of the records that wait (R355, R434); what RESEND has queued goes whatever EN is (R356). -/
def State.twinTask (s : State) : State :=
  if (s.mirrorOn ∨ (s.bit Fld.TW_CFG_EN ∧ 0 < s.tw.resend)) ∧ s.calHas 4 0 ∧ s.tw.records ≠ [] then
    let x := fitRecords s.tw.records (1518 - 4 - 26)
    let seq := (s.tw.mseq + 1) % 2 ^ 32
    let f := s.twinFrame 0x10 x.1.length seq (x.1.flatMap recordBytes)
    match f.2.anvilSend (f.2.fld Fld.TW_CFG_LINK_PORT) 7 f.1 with
    | (true, s1) => ({ s1 with tw := { s1.tw with records := x.2, mseq := seq, resend := s1.tw.resend - x.1.length } }).count (Ctr.tw 0x70) x.1.length
    | (false, s1) => s1
  else s

/-! ### Reception (R355, R356) -/

/-- The records of a mirror frame. -/
def parseRecords : Nat → List Byte → List (Nat × Nat × List Word)
  | 0, _ => []
  | k + 1, bs =>
    let n := u8 bs 1
    (u8 bs 0, u32 bs 4, (List.range n).map (fun i => w32 (u32 bs (8 + 4 * i)))) :: parseRecords k (bs.drop (8 + 4 * n))

/-- A record is applied as a write by originator twin. -/
def State.applyRecord (s : State) (r : Nat × Nat × List Word) : State :=
  let ws := r.2.2
  if r.1 = 1 ∨ r.1 = 2 then
    let t := if r.1 = 1 then tDwell else tMcg
    ((s.tblRun s.now orgTwin ⟨[w32 (2 ^ 28 + t * 2 ^ 25), w32 r.2.1, 0] ++ ws ++ List.replicate (5 - ws.length) 0⟩).2).count (Ctr.tw 0x78) 1
  else if r.1 = 3 ∧ plRws r.2.1 then
    ((s.shadowWrite r.2.1 (ws.getD 0 0)).journal 2 orgTwin 9 [r.2.1, (ws.getD 0 0).toNat]).count (Ctr.tw 0x78) 1
  else s

/-- A mirror frame arrives: the part after the EtherType. -/
def State.mirrorFrame (s : State) (bs : List Byte) : State :=
  if s.mirrorOn ∧ u8 bs 0 = 0x10 ∧ u8 bs 1 = 1 ∧ u32 bs 8 = (s.reg Reg.TW_PAIR_ID).toNat then
    let seq := u32 bs 4
    let gap := match s.tw.mseqRx with
               | some m => decide (seq ≠ (m + 1) % 2 ^ 32)
               | none => false
    let s1 := if gap then (s.count (Ctr.tw 0x80) 1).raise Fld.TW_INT_STATUS_MIRROR_GAP else s
    let s2 := { s1 with tw := { s1.tw with mseqRx := some seq } }
    (parseRecords (u16 bs 2) (bs.drop 12)).foldl (fun s r => s.applyRecord r) s2
  else s

/-! ### Audits (R356) -/

/-- The digests of the three areas: a CRC-32 as in R148 over their active words, most significant byte first. -/
def State.areaDigests (s : State) : List Nat :=
  let crc (bs : List Byte) : Nat := crcMsb 0x04C11DB7 0xFFFFFFFF bs
  [crc ((List.range 16384).flatMap (fun i => wordsBe ((s.tblEnt tDwell i).take 3))),
   crc ((List.range 8192).flatMap (fun i => wordsBe (s.tblEnt tMcg i))),
   crc (plWords.flatMap (fun a => wordsBe [s.actReg a]))]

def State.auditOn (s : State) : Bool := s.bit Fld.TW_CFG_EN && s.bit Fld.TW_MIRROR_CTRL_AUDIT_EN
/-- The audit of a second, at half past it. -/
def State.audit (s : State) : State :=
  if s.auditOn ∧ 500000000 ≤ s.hmNs % 1000000000 ∧ s.tw.auditSec ≠ some s.hmSec then
    let d := s.areaDigests
    let s1 := { s with tw := { s.tw with auditSec := some s.hmSec, digests := ((s.hmSec, d) :: s.tw.digests).take 3 } }
    let f := s1.twinFrame 0x11 3 (s1.hmSec % 2 ^ 32) (d.flatMap (fun v => beBytes 4 v))
    (f.2.anvilSend (f.2.fld Fld.TW_CFG_LINK_PORT) 7 f.1).2
  else s

/-- The peer's digests of a second arrive, once for each audit; an area that differs in two consecutive audits sets its bit of DIFF. -/
def State.auditIn (s : State) (bs : List Byte) : State :=
  if s.auditOn ∧ u8 bs 0 = 0x11 ∧ u8 bs 1 = 1 ∧ u32 bs 8 = (s.reg Reg.TW_PAIR_ID).toNat then
    match s.tw.digests.dropWhile (fun e => decide (e.1 % 2 ^ 32 ≠ u32 bs 4)) with
    | [] => s
    | e :: older =>
      if s.tw.diffSec = some e.1 then s
      else
      let diff := (List.range 3).foldl (fun m k => if e.2.getD k 0 = u32 bs (12 + 4 * k) then m else m + 2 ^ k) 0
      let both := if s.tw.diffSec.isSome ∧ s.tw.diffSec = older.head?.map (fun x => x.1) then diff &&& s.tw.lastDiff else 0
      let s1 := { s with tw := { s.tw with lastDiff := diff, diffSec := some e.1 } }
      if both = 0 then s1 else (s1.orF Fld.TW_MIRROR_STATUS_DIFF both).raise Fld.TW_INT_STATUS_MIRROR_DIFF
  else s

end Sys2Proof.Machine
end

