-- ==== Sys2Proof/Machine/View.lean ====
section
/-!
DEFINITION. What a read of a word of BAR0 shows (R397, R402, R407, R511): the stored word, or the value that the block derives from its state.
-/
namespace Sys2Proof.Machine

/-! ### Locations that are there (R402, R511, R518) -/

/-- Whether a register's island is disabled, or it is a CRF register of a trunk port (R87): the location reads 0 and ignores writes (R511). -/
def State.absent (s : State) (a : Nat) : Bool :=
  if 0x100000 ≤ a ∧ a < 0x190000 then
    let p := (a - 0x100000) / 0x1000
    s.portAbsent p || (decide (128 ≤ p ∧ 0x800 ≤ a % 0x1000 ∧ a % 0x1000 < 0xD80))
  else if 0x400000 ≤ a ∧ a < 0x600000 then !(s.planeOn ((a - 0x400000) / 0x80000))
  else if 0x800000 ≤ a ∧ a < 0xC00000 then !(s.planeOn ((a - 0x800000) / 0x100000))
  else if 0x41000 ≤ a ∧ a < 0x42200 then s.portAbsent ((a - 0x41000) / 0x20)
  else if 0x44000 ≤ a ∧ a < 0x4D000 then s.portAbsent ((a - 0x44000) / 0x100)
  else false

/-- The bits of trunk-only fields on a drop port and of drop-only fields on a trunk port: they read 0 and ignore writes (R55). -/
def hiddenMask (a : Nat) : Nat :=
  if 0x100000 ≤ a ∧ a < 0x180000 then (if a % 0x1000 = 0x004 then 0xC0 else if a % 0x1000 = 0x020 then 3 else 0)
  else if 0x180000 ≤ a ∧ a < 0x190000 then (if a % 0x1000 = 0x000 then 0x40 else if a % 0x1000 = 0x004 then 0x30 else 0)
  else 0

/-- The offsets of a port's counters (R57, R88, R121, R222, R245, R330, R484). -/
def portCtrOk (o : Nat) : Bool :=
  decide (o ≤ 0xE8) || decide (0x100 ≤ o ∧ o ≤ 0x178) || decide (0x200 ≤ o ∧ o ≤ 0x238) || decide (0x300 ≤ o ∧ o ≤ 0x350) ||
  decide (0x358 ≤ o ∧ o ≤ 0x370) || decide (0x378 ≤ o ∧ o ≤ 0x398) || decide (0x3A0 ≤ o ∧ o ≤ 0x3B8) || decide (0x3C0 ≤ o ∧ o ≤ 0x3E0) || decide (o = 0x3E8)

/-- Whether a counter lies at an address, and its island is enabled (R518, R511, R426, R122, R267). -/
def State.ctrAt (s : State) (a : Nat) : Bool :=
  if a % 8 ≠ 0 then false
  else if 0x2000000 ≤ a ∧ a < 0x2024000 then portCtrOk ((a - 0x2000000) % 0x400) && !(s.portAbsent ((a - 0x2000000) / 0x400))
  else if 0x2100000 ≤ a ∧ a < 0x2140000 then s.planeOn ((a - 0x2100000) / 0x10000)
  else if 0x2140000 ≤ a ∧ a < 0x2140400 then decide ((a - 0x2140000) % 0x100 < 0x78) && s.planeOn ((a - 0x2140000) / 0x100)
  else if 0x2140400 ≤ a ∧ a < 0x2140480 then true
  else if 0x2140800 ≤ a ∧ a < 0x2140840 then s.planeOn ((a - 0x2140800) / 16)
  else if 0x2180000 ≤ a ∧ a < 0x2180800 then decide ((a - 0x2180000) % 0x100 < 0x78) && s.planeOn ((a - 0x2180000) / 0x200)
  else if 0x2200000 ≤ a ∧ a < 0x247B200 then true
  else if 0x2500000 ≤ a ∧ a < 0x2500820 then true
  else if 0x2600000 ≤ a ∧ a < 0x2720000 then true
  else if a = 0x2720000 then true
  else if 0x2730000 ≤ a ∧ a < 0x2730020 then true
  else if 0x2740000 ≤ a ∧ a < 0x2740088 then decide (a ≠ 0x2740038)
  else if 0x2750000 ≤ a ∧ a < 0x2750028 then true
  else if 0x2760000 ≤ a ∧ a < 0x2760010 then true
  else if 0x2770000 ≤ a ∧ a < 0x2770018 then true
  else if a = 0x2780000 ∨ a = 0x2790000 then true
  else if 0x27A0000 ≤ a ∧ a < 0x27C0000 then true
  else decide (a = 0x3000108 ∨ a = 0x3000110)

/-! ### Words that a block derives -/

/-- Signet: `SG_STATUS`, `SG_UID` and `SG_ID_PK`; `SG_SEED` is write-only (R453, R481). -/
def State.viewSg (s : State) (a : Nat) : Word :=
  if a = Reg.SG_STATUS then
    (if s.rst.aonReady then
      w32 (s.secState * 2 ^ 30 + s.dbgLevel * 2 ^ 28 + b2n s.sg.makerUsed * 2 ^ 27 + b2n s.seedOff * 2 ^ 26 + b2n s.fuseBusy * 2 ^ 25 +
        (s.slotInUse.getD 0) * 2 ^ 23 + s.sg.svn)
     else 0)
  else if a = 0x20010 then w32 s.sg.uid
  else if a = 0x20014 then w32 (s.sg.uid / 2 ^ 32)
  else if 0x20040 ≤ a ∧ a < 0x20060 then (bytesWords s.idKey 8).getD ((a - 0x20040) / 4) 0
  else if 0x20060 ≤ a ∧ a < 0x20080 then 0
  else s.intNow a

/-- The journal: `JN_HEAD`, counts, and the initiator's own selection (R425). -/
def State.viewJn (s0 : State) (i a : Nat) : Word :=
  let s := s0.jnRipe
  let x := s.ini i
  if a = 0x18000 then w32 s.jn.head
  else if a = 0x18004 then w32 (s.jn.head / 2 ^ 32)
  else if a = 0x18008 then w32 s.jn.wraps
  else if a = 0x1800C then w32 s.jn.lost
  else if a = 0x18010 then w32 x.jnSel
  else if a = 0x18014 then w32 (x.jnSel / 2 ^ 32)
  else if a = 0x18018 then w32 x.jnStat
  else if 0x18020 ≤ a ∧ a < 0x18040 then x.jnRec.getD ((a - 0x18020) / 4) 0
  else s.reg a

/-- Hallmark: the counter, the active addend, the servo's source and the captures (R295, R297, R303, R315). -/
def State.viewHm (s : State) (a : Nat) : Word :=
  let cap (i k : Nat) : Word := match (s.pin i).caps with
    | t :: _ => timeWord t k
    | [] => 0
  if a < 0x4000C then timeWord s.hm16 ((a - 0x40000) / 4)
  else if a = 0x40028 then w32 (unsign 40 s.time.addend)
  else if a = 0x4002C then w32 (unsign 40 s.time.addend / 2 ^ 32)
  else if a = 0x4003C then w32 (s.servo + b2n s.srcValid * 4)
  else if 0x400F0 ≤ a ∧ a < 0x400FC then cap 0 ((a - 0x400F0) / 4)
  else if 0x40130 ≤ a ∧ a < 0x4013C then cap 1 ((a - 0x40130) / 4)
  else if a = Reg.HM_EVT_CTRL 0 then w32 (setBits (s.reg a).toNat 26 1 (b2n (s.evtArmed 0)))
  else if a = Reg.HM_EVT_CTRL 1 then w32 (setBits (s.reg a).toNat 26 1 (b2n (s.evtArmed 1)))
  else if a = 0x400FC then w32 (s.pin 0).caps.length
  else if a = 0x4013C then w32 (s.pin 1).caps.length
  else s.reg a

/-- The twin: DUTY, what is left of the lease, and RESEND while it runs (R348, R356, R359). -/
def State.viewTw (s : State) (a : Nat) : Word :=
  if a = Reg.TW_STATUS then w32 (setBits (s.reg a).toNat 31 1 (b2n s.duty))
  else if a = Reg.TW_LEASE_REMAIN then w32 s.leaseRemain
  else if a = Reg.TW_MIRROR_CTRL then w32 (setBits (s.reg a).toNat 30 1 (b2n (decide (0 < s.tw.resend))))
  else s.reg a

/-- The host interface: `HI_RING_STATUS`, `HI_RING_PENDING`, and the pending sources (R366, R394). -/
def State.viewHi (s : State) (a : Nat) : Word :=
  if a < 0xC0000 then
    let r := (a - 0x80000) / 0x40
    if a % 0x40 = 0x0C then s.cfg2View r else if a % 0x40 = 0x14 then s.ringStatus r else if a % 0x40 = 0x24 then w32 (s.ringPending r) else s.reg a
  else if 0xC0800 ≤ a ∧ a < 0xC0840 then
    w32 ((List.range 32).foldl (fun v k => if s.srcPending (8 * (a - 0xC0800) + k) then v + 2 ^ k else v) 0)
  else s.reg a

/-- The bits of a port's register at an offset that show nothing in an Ethernet mode: the far-end, CRF-defect and report fields that the device writes
(R120). What software has written to an RW field, and an event that it has not cleared, still show (DEDUCED from R9, notes/assumptions/45.md). -/
def ethHidden (o : Nat) : Nat :=
  if o = 0xD8C then 0xFFFFFEFE
  else if o = 0xDC8 then 0x020F0000
  else if (0xDE4 ≤ o ∧ o < 0xDFC) ∨ (0xE00 ≤ o ∧ o < 0xE54) then 0xFFFFFFFF
  else 0

/-- A port: its stops, its hold, the constants of its mode, and what an Ethernet mode does not show (R44 to R46, R238, R305, R120). -/
def State.viewPt (s : State) (a : Nat) : Word :=
  let p := (a - 0x100000) / 0x1000
  let o := a % 0x1000
  if ethHidden o ≠ 0 ∧ s.ethPort p then w32 (dropBits (s.reg a).toNat (ethHidden o))
  else
  if o = 0x008 then
    w32 (setBits (setBits (s.reg a).toNat 24 8 ((List.range 8).foldl (fun v c => if s.pfcStopped p c then v + 2 ^ c else v) 0)) 9 1 (b2n (s.paused p)))
  else if o = 0x040 then w32 (setBits (setBits (s.reg a).toNat 30 2 (s.port p).hold) 16 10 (s.holdElapsed p))
  else if o = 0x108 then w32 ((s.tsConst p).2.1 * 2 ^ 16 + (s.tsConst p).1)
  else s.reg a

/-- Crucible and the cell pool (R220, R266). -/
def State.viewCb (s : State) (a : Nat) : Word :=
  if 0xC00140 ≤ a ∧ a < 0xC00160 then w32 (s.regionFree ((a - 0xC00140) / 4))
  else if 0xC40000 ≤ a ∧ a < 0xC90000 then s.qStat ((a - 0xC40000) / 4)
  else if 0xCC0000 ≤ a ∧ a < 0xCC0400 then
    let n := (a - 0xCC0000) / 16
    if a % 16 = 4 then w32 (s.poolFree n) else if a % 16 = 8 then w32 (s.minFree n) else s.reg a
  else if 0xCC0400 ≤ a ∧ a < 0xCC0500 then w32 (s.ownerUsed ((a - 0xCC0400) / 4))
  else if 0xCC0700 ≤ a ∧ a < 0xCC0714 then (s.pool.log.headD []).getD ((a - 0xCC0700) / 4) 0
  else if a = 0xCC0720 then w32 s.pool.log.length
  else s.intNow a

/-- Whether copies of a mirror session are still in the device (R241). -/
def State.mirrorBusy (s : State) (n : Nat) : Bool :=
  let mine (x : QEnt) : Bool := decide (x.mirror = some n)
  s.fab.queues.any (fun e => e.2.any mine) || s.fab.intake.any (fun e => e.2.any mine) ||
  s.ports.any (fun e => (match e.2.tx with | some t => mine t.ent | none => false) || e.2.aside.any (fun t => mine t.ent)) ||
  s.crfs.any (fun e => e.2.tx.units.any (fun t => mine t.ent) || (match e.2.tx.open_ with | some t => mine t.ent | none => false))
/-- STATE of a mirror session: ENABLED, DRAINING or IDLE. -/
def State.mirrorState (s : State) (n : Nat) : Nat :=
  if s.bit (Fld.FB_MIRROR_CTRL_EN n) then 1 else if s.mirrorBusy n then 2 else 0

/-- The fabric (R221, R244). -/
def State.viewFb (s : State) (a : Nat) : Word :=
  if a = 0xD00008 then w32 s.fab.mcUsed
  else if 0xD00110 ≤ a ∧ a < 0xD00124 then s.fenceWord ((a - 0xD00110) / 4)
  else if a = 0xD00124 then w32 s.fdyFree
  else if 0xD00800 ≤ a ∧ a < 0xD00880 then (if a % 16 = 8 then w32 (s.mirrorState ((a - 0xD00800) / 16)) else s.reg a)
  else s.reg a

/-- Planish: the levels of its buckets (R280, R291). -/
def State.viewPl (s : State) (a : Nat) : Word :=
  if 0x1010000 ≤ a ∧ a < 0x1300000 then (if a % 32 = 12 ∧ (regAt a).isSome then s.levelWord a else s.reg a)
  else if 0x1400000 ≤ a ∧ a < 0x1520000 then (if a % 32 = 20 ∨ a % 32 = 24 then s.levelWord a else s.reg a)
  else s.reg a

/-- A lookup plane: the results of the commands that have completed, and the entries in overflow (R187, R520). -/
def State.viewLp (s : State) (a : Nat) : Word :=
  let k := (a - 0x800000) / 0x100000
  if a % 0x100000 = 0xB0110 then w32 ((s.overflow k).length * 2 ^ 16) else (s.landPlane k).reg a

/-- Loupe: the trace and the snapshot, which read 0 at level None (R466, R467, R483). -/
def State.viewDb (s : State) (a : Nat) : Word :=
  if a = 0x3100008 then w32 (setBits (s.reg a).toNat 0 13 s.db.trace.length)
  else if 0x3100020 ≤ a ∧ a < 0x3100040 then (if s.observing then (s.db.trace.headD []).getD ((a - 0x3100020) / 4) 0 else 0)
  else if 0x3101000 ≤ a ∧ a < 0x3102000 then
    let k := (a - 0x3101000) / 4
    if s.observing then w32 ((s.db.snap.getD (k / 2) 0) / 2 ^ (32 * (k % 2))) else 0
  else s.reg a

/-- A register's word as a block shows it. -/
def State.viewBlock (s : State) (i a : Nat) : Word :=
  if a < 0x18000 then s.reg a
  else if a < 0x20000 then s.viewJn i a
  else if a < 0x30000 then s.viewSg a
  else if a < 0x40000 then s.reg a
  else if a < 0x50000 then s.viewHm a
  else if a < 0x80000 then s.viewTw a
  else if a < 0x100000 then s.viewHi a
  else if a < 0x190000 then s.viewPt a
  else if a < 0x800000 then s.reg a
  else if a < 0xC00000 then s.viewLp a
  else if a < 0xD00000 then s.viewCb a
  else if a < 0xE00000 then s.viewFb a
  else if a < 0x2000000 then s.viewPl a
  else if a < 0x3100000 then s.reg a
  else s.viewDb a

/-- The word at an address as an initiator reads it, without the read's side effects: counters, 0 where nothing is (R402, R511), registers, and GO
while a command is under way (R520). -/
def State.view (s : State) (i a : Nat) : Word :=
  if s.ctrAt (a / 8 * 8) then w32 (s.ctrNow (a / 8 * 8) / 2 ^ (32 * (a % 8 / 4)))
  else if s.absent a || (regAt a).isNone then 0
  else
    let w := w32 (dropBits (s.viewBlock i a).toNat (hiddenMask a))
    if s.busy a then w ||| 0x80000000#32 else w

end Sys2Proof.Machine
end

