-- ==== Sys2Proof/Machine/Bus.lean ====
section
/-!
DEFINITION. The register bus (chapter 14): what a write to each kind of field does, the write and read shadows of multi-word values (R407, R408), the
registers whose writes start something, and the access error log (R397 to R410, R520).
-/
namespace Sys2Proof.Machine

/-! ### Multi-word values -/

/-- The value that a word belongs to: its word 0 and the number of its words; a counter, or one of the values that chapter 14 lists. -/
def State.multiOf (s : State) (a : Nat) : Option (Nat × Nat) :=
  let at_ (b n : Nat) : Option (Nat × Nat) := some (b, n)
  if s.ctrAt (a / 8 * 8) then at_ (a / 8 * 8) 2
  else if 0x10100 ≤ a ∧ a < 0x10180 then
    let b := (a - 0x10100) / 0x20 * 0x20 + 0x10110
    if b ≤ a ∧ a < b + 12 then at_ b 3 else none
  else if a = 0x18000 ∨ a = 0x18004 then at_ 0x18000 2
  else if a = 0x18010 ∨ a = 0x18014 then at_ 0x18010 2
  else if a = 0x18040 ∨ a = 0x18044 then at_ 0x18040 2
  else if 0x40000 ≤ a ∧ a < 0x4000C then at_ 0x40000 3
  else if 0x40010 ≤ a ∧ a < 0x4001C then at_ 0x40010 3
  else if a = 0x40020 ∨ a = 0x40024 then at_ 0x40020 2
  else if a = 0x40028 ∨ a = 0x4002C then at_ 0x40028 2
  else if a = 0x40040 ∨ a = 0x40044 then at_ 0x40040 2
  else if a = 0x40048 ∨ a = 0x4004C then at_ 0x40048 2
  else if 0x400D0 ≤ a ∧ a < 0x400DC then at_ 0x400D0 3
  else if 0x40110 ≤ a ∧ a < 0x4011C then at_ 0x40110 3
  else if 0x400F0 ≤ a ∧ a < 0x400FC then at_ 0x400F0 3
  else if 0x40130 ≤ a ∧ a < 0x4013C then at_ 0x40130 3
  else if 0x41000 ≤ a ∧ a < 0x42200 then
    (if 16 ≤ a % 32 ∧ a % 32 < 28 ∧ s.absent a = false then at_ (a / 32 * 32 + 16) 3 else none)
  else if a = 0x50030 ∨ a = 0x50034 then at_ 0x50030 2
  else if 0x100000 ≤ a ∧ a < 0x190000 ∧ s.absent a = false then
    let o := a % 0x1000
    if 0x8B0 ≤ o ∧ o < 0x8BC then at_ (a - o + 0x8B0) 3 else if 0x8C0 ≤ o ∧ o < 0x8CC then at_ (a - o + 0x8C0) 3 else none
  else none

/-- Whether software may write a multi-word value: the counters and the values of type RW or RWS. -/
def State.multiRw (s : State) (b : Nat) : Bool :=
  s.ctrAt b || (fieldsAt b).any (fun f => decide (f.ty = .rw ∨ f.ty = .rws))

/-! ### Fields (R9, R401) -/

/-- The bits that byte enables of a word select. -/
def beMask (be : Nat) : Nat := (List.range 4).foldl (fun m k => if bitOf be k then m + 0xFF * 2 ^ (8 * k) else m) 0
/-- A word with the bits of a mask taken from another. -/
def mergeBits (old new mask : Nat) : Nat := (old &&& (0xFFFFFFFF - mask % 2 ^ 32)) ||| (new &&& mask % 2 ^ 32)

/-- A write to the RW, RWS and W1C fields of a word, within a mask of bits. RO, RC, SC and WO fields stay; a word whose RWS fields lie outside the mask stays
as a whole, and no group is pending for it (R413). -/
def State.fieldWrite (s : State) (a mask : Nat) (w : Word) : State :=
  let fs := fieldsAt a
  let rw := fieldMask fs (fun t => decide (t = .rw))
  let w1 := fieldMask fs (fun t => decide (t = .w1c))
  let sh := fieldMask fs (fun t => decide (t = .rws))
  let old := (s.reg a).toNat
  let n := w.toNat
  if sh ≠ 0 then (if mask &&& sh = 0 then s else s.shadowWrite a (w32 (mergeBits old n mask)))
  else
    let kept := mergeBits old n (mask &&& rw)
    s.setReg a (w32 (kept - (kept &&& (n &&& mask &&& w1))))

/-- Whether a register holds an SC or a WO field: a narrow write to it is logged (R401). -/
def isCmdReg (a : Nat) : Bool := (fieldsAt a).any (fun f => decide (f.ty = .sc ∨ f.ty = .wo))

/-- The fields of a command register as a write with GO takes them (R520): with GO at 1 while a command runs, OVERRUN alone changes, which the command's
own operation sees to. -/
def State.cmdWrite (s : State) (a mask : Nat) (w : Word) (go : State → State) : State :=
  if bitOf w.toNat 31 then (if s.busy a then go s else go (s.fieldWrite a mask w)) else s.fieldWrite a mask w

/-! ### Access errors (R406) -/

def ekUnaligned : Nat := 1
def ekNarrowCmd : Nat := 2
def ekNarrowCtr : Nat := 3

/-- An access is logged: first byte, kind, initiator, write, byte enables. -/
def State.accessError (s : State) (kind ini addr be : Nat) (write : Bool) : State :=
  let s1 := (s.count 0x2760000 1).raise Fld.CM_INT_STATUS_ACCESS_ERR
  if s1.bit Fld.CM_ACC_ERR_INFO_VALID then s1
  else (s1.setReg Reg.CM_ACC_ERR_ADDR (w32 (addr % 2 ^ 26))).setReg Reg.CM_ACC_ERR_INFO
    (w32 (2 ^ 31 + kind * 2 ^ 28 + ini * 2 ^ 26 + b2n write * 2 ^ 25 + be % 256))

/-! ### Ports (R34 to R37, R54, R525) -/

/-- ENABLE goes from 0 to 1, from DRAINING too: receiver, transmitter and defects restart (R74, R525). -/
def State.portOn (s : State) (p : Nat) : State :=
  if s.bit (Fld.PT_CTRL_ENABLE p) then s
  else
    (((s.pmTouch p).portEnable p).lineRestart p).pmTouch p
/-- ENABLE is cleared: no defect is shown any longer (R54, R525). -/
def State.portOff (s : State) (p : Nat) : State :=
  if s.bit (Fld.PT_CTRL_ENABLE p) then (((s.pmTouch p).portDisable p).defRestart p).pmTouch p else s
/-- Auto-negotiation, or training, starts again. -/
def State.anRestart (s : State) (p : Nat) : State := if s.enabled p then s.anStart p else s
def State.retrain (s : State) (p : Nat) : State := if s.enabled p then s.ltStart p else s

/-- `AN_EN` and `LT_EN` have been written: what they start starts on an enabled port, what they end is off, and the candidate state follows (R34, R36,
R38, R52). -/
def State.lineEnables (s : State) (p : Nat) (t : State) : State :=
  let an (t : State) : State :=
    if s.anRuns p = t.anRuns p then t else if t.anRuns p then t.anRestart p else t.setF (Fld.PT_STATUS_AN_STATE p) 0
  let lt (t : State) : State :=
    if s.ltRuns p = t.ltRuns p then t else if t.ltRuns p then t.retrain p else t.setF (Fld.PT_STATUS_LT_STATE p) 0
  s.candFollow p (lt (an t))

/-- A write of `PT_CTRL`. -/
def State.ptCtrlWrite (s : State) (p mask : Nat) (w : Word) : State :=
  let en := bitOf w.toNat 0
  let s1 := s.lineEnables p (s.fieldWrite (Reg.PT_CTRL p) (dropBits mask 1) w)
  let s2 := if en then s1.portOn p else s1.portOff p
  let s3 := if bitOf w.toNat 5 then s2.anRestart p else s2
  if bitOf w.toNat 7 then s3.retrain p else s3

/-- A write of a port's registers. `LF_HMC_TX_CTRL` has no OVERRUN field (R520); a write of 1 to its GO while GO reads 1 is ignored as a whole, as R520 has it
for the registers that have one (DESIGN CHOICE, notes/assumptions/45.md). -/
def State.writePt (s : State) (a mask : Nat) (w : Word) : State :=
  let p := (a - 0x100000) / 0x1000
  let o := a % 0x1000
  let s1 := s.fieldWrite a mask w
  if o = 0x004 then s.ptCtrlWrite p mask w
  else if o = 0x01C then (if s1.lpiMode p then s1 else s1.lpiExit p)
  else if o = 0x024 then s.clsFollow p s1
  else if o = 0x040 then (if bitsOf mask 0 10 ≠ 0 then s1.holdWrite p else s1)
  else if o = 0x800 then s.holdStep p s1
  else if o = 0x814 then (if bitOf w.toNat 31 then (if s.bit (Fld.LF_HMC_TX_CTRL_GO p) then s else s.hmcSend p (w.toNat % 1024)) else s1)
  else if 0x900 ≤ o ∧ o < 0xB3C then (if s.bit (Fld.LF_HMC_TX_CTRL_GO p) then s else s1)
  else if o = 0xD80 then (s1.defUpdate p).modeNext p
  else if o = 0xD98 then ((s.pmTouch p).fieldWrite a mask w).pmTouch p
  else if o = 0xDC4 then (if bitOf mask 0 then s1.pmSnapshot p (s1.fld (Fld.LF_PM_SEL_BIN p)) else s1)
  else s1

/-! ### The registers of the other blocks whose writes start something -/

/-- Boot, commit and timed commits (R413, R415, R322, R441). -/
def State.writeCm (s : State) (ini : Initiator) (a mask : Nat) (w : Word) : State :=
  let org := Initiator.origin ini
  if a = Reg.GL_BOOT_CTRL then (if bitOf w.toNat 31 then s.bootRelease else s)
  else if a = Reg.CM_COMMIT then s.commitWrite org w.toNat
  else if a = Reg.CM_REVERT then s.revertWrite org w.toNat
  else if 0x10100 ≤ a ∧ a < 0x10180 then
    let n := (a - 0x10100) / 0x20
    if a % 0x20 = 0 then
      let s0 := s.fieldWrite a mask w
      let s1 := if bitOf w.toNat 30 then s0.slotCancel org n else s0
      if bitOf w.toNat 31 then s1.slotArm org n (bitOf w.toNat 27) else s1
    else if s.slotArmed n then s else s.fieldWrite a mask w
  else s.fieldWrite a mask w

/-- Signet and power (R462, R464, R473). -/
def State.writeSg (s : State) (ini : Initiator) (a mask : Nat) (w : Word) (fuseOk : Bool) : State :=
  if a = Reg.SG_CMD then s.cmdWrite a mask w (fun s => s.sgGo ini (bitsOf w.toNat 29 2) fuseOk)
  else if a = Reg.SG_OBSERVE then (if bitOf mask 0 then s.observeWrite (Initiator.origin ini) (bitOf w.toNat 0) else s)
  else if 0x20060 ≤ a ∧ a < 0x20080 then s.setReg a w
  else if a = Reg.PW_CTRL then (if bitOf mask 0 then s.targetWrite (w.toNat % 4) else s)
  else (s.intTake a).fieldWrite a mask w

/-- Hallmark (R298, R301, R312, R315). -/
def State.writeHm (s : State) (a mask : Nat) (w : Word) : State :=
  if a = Reg.HM_PPS_CTRL then s.ppsWrite (s.fieldWrite a mask w)
  else if a = Reg.HM_PPS_OUT_OFS then s.todRenew (s.ppsWrite (s.fieldWrite a mask w))
  else if a = Reg.HM_TOD_CTRL then s.todWrite (s.fieldWrite a mask w)
  else if a = Reg.HM_SET_CTRL then s.cmdWrite a mask w (fun s => s.hmSetGo (bitsOf w.toNat 29 2))
  else if a = Reg.HM_SERVO_CTRL then
    s.servoCtrlWrite (w32 (mergeBits (s.reg a).toNat w.toNat mask)) (decide ((mask / 2 ^ 16) % 2 ^ 16 ≠ 0))
  else if a = Reg.HM_EVT_CTRL 0 then s.evtCtrlWrite 0 w
  else if a = Reg.HM_EVT_CTRL 1 then s.evtCtrlWrite 1 w
  else if a = Reg.HM_EVT_CAP_STAT 0 then (if bitOf w.toNat 31 then s.evtCapPop 0 else s)
  else if a = Reg.HM_EVT_CAP_STAT 1 then (if bitOf w.toNat 31 then s.evtCapPop 1 else s)
  else s.fieldWrite a mask w

/-- The twin (R344, R352, R356). -/
def State.writeTw (s : State) (a mask : Nat) (w : Word) : State :=
  let s1 := s.fieldWrite a mask w
  if a = Reg.TW_CFG then
    (if s.twinOn = false ∧ s1.twinOn then (s1.setF Fld.TW_CFG_EN 0).twinEnable
     else if s.twinOn ∧ s1.twinOn = false then (s1.setF Fld.TW_CFG_EN 1).twinDisable else s1)
  else if a = Reg.TW_LEASE_CMD then s.cmdWrite a mask w (fun s => s.leaseGo (bitsOf w.toNat 28 3))
  else if a = Reg.TW_MIRROR_CTRL then (if bitOf w.toNat 30 then s1.mirrorResend else s1)
  else s1

/-- A write of `HI_RING_CFG2` of an idle ring. What it holds beyond the fields of the ring's KIND is kept unseen, for a KIND that is written later
(notes/assumptions/31.md). -/
def State.cfg2Write (s : State) (r mask : Nat) (w : Word) : State :=
  let base := if s.hi.cfg2Set.contains r then s.reg (Reg.HI_RING_CFG2 r) else s.cfg2View r
  let s1 := { s with hi := { s.hi with cfg2Set := if s.hi.cfg2Set.contains r then s.hi.cfg2Set else r :: s.hi.cfg2Set } }
  s1.setReg (Reg.HI_RING_CFG2 r) (w32 (mergeBits base.toNat w.toNat mask))

/-- A write of `HI_RING_CFG` (R369, R392). -/
def State.ringCfgWrite (s : State) (org r mask : Nat) (w : Word) : State :=
  let v := w32 (mergeBits (s.reg (Reg.HI_RING_CFG r)).toNat w.toNat mask)
  if bitOf v.toNat 31 then (if (s.ring r).state = ringIdle then s.ringEnable org r v else s.ringCfgErr r)
  else if (s.ring r).state = ringEnabled then s.ringDisable org r
  else if (s.ring r).state = ringIdle then s.fieldWrite (Reg.HI_RING_CFG r) mask w
  else s.ringCfgErr r

/-- The host interface (R367, R369, R391, R392). -/
def State.writeHi (s : State) (ini : Initiator) (a mask : Nat) (w : Word) : State :=
  let org := Initiator.origin ini
  let s1 := s.fieldWrite a mask w
  if a < 0xC0000 then
    let r := (a - 0x80000) / 0x40
    let o := a % 0x40
    if o = 0x08 then s.ringCfgWrite org r mask w
    else if o = 0x0C then (if (s.ring r).state = ringIdle then s.cfg2Write r mask w else s.ringCfgErr r)
    else if o = 0x00 ∨ o = 0x04 ∨ o = 0x10 then (if (s.ring r).state = ringIdle then s1 else s.ringCfgErr r)
    else if o = 0x1C then (if bitOf w.toNat 31 then s1.ringReset org r else s1)
    else if o = 0x20 then s.cmdWrite a mask w (fun s => s.ringAbort r (w.toNat % 2 ^ 16))
    else s1
  else if a = Reg.HI_VEC_EOI then s.vecEoi (w.toNat % 2048)
  else s1

/-- `LP_TBL_GO` of a plane: the command in TC0 to TC7 runs and answers in TR0 to TR7 (R177, R185). -/
def State.tblGo (s : State) (org k : Nat) : State :=
  if s.busy (Reg.LP_TBL_GO k) then s.setF (Fld.LP_TBL_GO_OVERRUN k) 1
  else
    let t := s.tcWords k
    let s1 := (s.land (Reg.LP_TBL_GO k)).startGo (Reg.LP_TBL_GO k) (tblBound t)
    let r := s1.tblRun (s1.goEnd (Reg.LP_TBL_GO k)) org t
    r.2.stageRes (Reg.LP_TBL_GO k) (resWords (Reg.LP_TBL_RES k 0) r.1)

/-- Lookup planes (R135, R147, R172, R173, R177). -/
def State.writeLp (s0 : State) (ini : Initiator) (a mask : Nat) (w : Word) : State :=
  let org := Initiator.origin ini
  let k := (a - 0x800000) / 0x100000
  let s := s0.landPlane k
  let o := a % 0x100000
  if o = 0x80000 then s.cmdWrite a mask w (fun s => s.fgGo org k w.toNat)
  else if o = 0x90000 then s.cmdWrite a mask w (fun s => s.patGo org k w.toNat)
  else if o = 0xB0020 then s.cmdWrite a mask w (fun s => s.tblGo org k)
  else if o = 0xB0108 then s.learnRateWrite k (w32 (mergeBits (s.reg a).toNat w.toNat mask))
  else if o = 0xB010C then s.agePeriodWrite k (w32 (mergeBits (s.reg a).toNat w.toNat mask))
  else s.fieldWrite a mask w

/-- Crucible and the cell pool (R205, R262, R265, R266). -/
def State.writeCb (s : State) (a mask : Nat) (w : Word) : State :=
  if 0xC00180 ≤ a ∧ a < 0xC001A0 then
    let s1 := s.fieldWrite a mask w
    let v := (s1.reg a).toNat % 65536
    s1.setLfsr ((a - 0xC00180) / 4) (if v = 0 then 0xACE1 else v)
  else if 0xCC0000 ≤ a ∧ a < 0xCC0400 ∧ a % 16 = 8 then (if bitOf w.toNat 31 then s.wmReset ((a - 0xCC0000) / 16) else s)
  else if a = Reg.CB_CELL_CMD then
    s.cmdWrite a mask w (fun s => s.cellGo (bitsOf w.toNat 28 3) (bitsOf w.toNat 20 6) (w.toNat % 2 ^ 19))
  else if a = Reg.CB_PM_ERR_POP then (if bitOf w.toNat 31 then s.errPop else s)
  else (s.intTake a).fieldWrite a mask w

/-- The fabric (R228, R232, R235). -/
def State.writeFb (s : State) (a mask : Nat) (w : Word) : State :=
  if a = Reg.FB_MODE_CTRL then
    let s1 := if bitOf w.toNat 0 = s.bit Fld.FB_MODE_CTRL_MODE_REQ then s else s.modeReq (bitOf w.toNat 0)
    let s2 := if bitOf w.toNat 2 then s1.recal else s1
    if bitOf w.toNat 1 then s2.bankTest else s2
  else s.fieldWrite a mask w

/-- Planish (R283). -/
def State.writePl (s : State) (ini : Initiator) (a mask : Nat) (w : Word) : State :=
  if a = Reg.PL_LEVEL_CMD then
    s.cmdWrite a mask w (fun s => s.levelGo (Initiator.origin ini) w.toNat)
  else s.fieldWrite a mask w

/-- Every port of the device. -/
def allPorts : List Nat := List.range 144

/-- Anvil (R96, R114). -/
def State.writeAv (s : State) (a mask : Nat) (w : Word) : State :=
  if a = Reg.AV_PM_CTRL then
    allPorts.foldl (fun s p => s.pmTouch p) ((allPorts.foldl (fun s p => s.pmTouch p) s).fieldWrite a mask w)
  else if 0x3010000 ≤ a ∧ a < 0x3050000 ∧ a % 0x40 = 0 then
    let m := (a - 0x3010000) / 0x40
    let s1 := s.fieldWrite a mask w
    if s1.bit (Fld.AV_MEP_CFG_EN m) then s1.mepEnable m else s1.mepDisable m
  else s.fieldWrite a mask w

/-- Loupe (R466, R467, R483). -/
def State.writeDb (s : State) (a mask : Nat) (w : Word) : State :=
  if a = Reg.DB_CTRL then s.fieldWrite a (if s.observing then mask else mask &&& 0x7FFFFFFF) w
  else if a = Reg.DB_TRACE_STAT then (let s1 := s.fieldWrite a mask w; if bitOf w.toNat 31 then s1.tracePop else s1)
  else if a = Reg.DB_SNAP_CTRL then
    (if bitOf w.toNat 31 then s.snapGo (w.toNat % 4096) else s.fieldWrite a mask w)
  else s.fieldWrite a mask w

/-- A write to a register that is no word of a multi-word value. -/
def State.writeBlock (s : State) (ini : Initiator) (a mask : Nat) (w : Word) (fuseOk : Bool) : State :=
  if a < 0x18000 then s.writeCm ini a mask w
  else if a < 0x20000 then s.fieldWrite a mask w
  else if a < 0x40000 then s.writeSg ini a mask w fuseOk
  else if a < 0x50000 then s.writeHm a mask w
  else if a < 0x80000 then s.writeTw a mask w
  else if a < 0x100000 then s.writeHi ini a mask w
  else if a < 0x190000 then s.writePt a mask w
  else if a < 0x800000 then s.fieldWrite a mask w
  else if a < 0xC00000 then s.writeLp ini a mask w
  else if a < 0xD00000 then s.writeCb a mask w
  else if a < 0xE00000 then s.writeFb a mask w
  else if a < 0x2000000 then s.writePl ini a mask w
  else if a < 0x3100000 then s.writeAv a mask w
  else s.writeDb a mask w

/-! ### Writes of multi-word values (R408, R410) -/

/-- What a value holds before the write: a word of it as software would read it. -/
def State.multiWord (s : State) (i b k : Nat) : Word := s.view i (b + 4 * k)

/-- A whole value is applied: its words, oldest first. -/
def State.multiApply (s : State) (ini : Initiator) (b : Nat) (ws : List Word) : State :=
  if s.ctrAt b then s.ctrWrite b ((ws.getD 0 0).toNat + (ws.getD 1 0).toNat * 2 ^ 32)
  else if b = 0x18010 then s.jnSelect (Initiator.num ini) ((ws.getD 0 0).toNat + (ws.getD 1 0).toNat * 2 ^ 32)
  else if 0x10100 ≤ b ∧ b < 0x10180 ∧ s.slotArmed ((b - 0x10100) / 0x20) then s
  else if b = Reg.HM_SW_OFFSET0 ∧ s.swTakes = false then s
  else
    let s1 := (List.range ws.length).foldl (fun s k => s.fieldWrite (b + 4 * k) 0xFFFFFFFF (ws.getD k 0)) s
    if b = Reg.HM_ADDEND0 then s1.addendTake
    else if b = Reg.HM_SW_OFFSET0 then s1.swSubmit
    else s1

/-- A write to a word of a multi-word value, within a mask of bits: held, or, with the last word, applied with what is held. -/
def State.multiWrite (s : State) (ini : Initiator) (b n a mask : Nat) (w : Word) : State :=
  let i := Initiator.num ini
  let x := s.ini i
  if s.multiRw b = false then s.setIni i { x with wrTag := none, wrHeld := [] }
  else
    let held := if x.wrTag = some b then x.wrHeld else []
    let k := (a - b) / 4
    let old := (SMap.look held k).getD (s.multiWord i b k)
    let v := w32 (mergeBits old.toNat w.toNat mask)
    if k + 1 = n then
      (s.setIni i { x with wrTag := none, wrHeld := [] }).multiApply ini b
        ((List.range n).map (fun j => if j = k then v else (SMap.look held j).getD (s.multiWord i b j)))
    else s.setIni i { x with wrTag := some b, wrHeld := SMap.ins held k v }

/-! ### Accesses -/

/-- Whether Loupe may reach a register: below Inspect, the token buffer and the command that takes a token alone (R464). -/
def State.loupeMay (s : State) (a : Nat) (w : Word) : Bool :=
  decide (lvInspect ≤ s.dbgLevel) || decide (0x28000 ≤ a ∧ a < 0x30000) || (decide (a = Reg.SG_CMD) && decide (bitsOf w.toNat 29 2 = 0))
/-! ### The I²C slave (R499, R501, R502) -/

def i2cOk : Nat := 0
def i2cRefused : Nat := 1
def i2cUnaligned : Nat := 2

/-- Whether the slave answers: from 1 ms after the rise of AON_RST_N. -/
def State.i2cAnswers (s : State) : Bool := s.aonUp && (s.rst.aonReady || decide (s.rst.aonAt + tMs ≤ s.now))
def State.setI2cStat (s : State) (v : Nat) : State := { s with rst := { s.rst with i2cStat := v } }
/-- Whether the main rails are present: MAIN_OK shows them again from their return on (R478); until they are first lost it need not (notes/assumptions/8.md). -/
def State.railsOk (s : State) : Bool := !s.isl.mainOff || s.bit Fld.PW_STATUS_MAIN_OK
/-- STATUS of an access: unaligned, refused (without the main rails, or where they are lost before the access is made, outside the always-on subset), or OK. -/
def State.i2cVerdict (s : State) (addr : Nat) (lost : Bool) : Nat :=
  if addr % 4 ≠ 0 then i2cUnaligned else if !(isAon addr) && (lost || !s.railsOk) then i2cRefused else i2cOk
/-- An access by the I²C slave leaves its STATUS, whichever row it comes by. -/
def State.i2cDone (s : State) (ini : Initiator) (a : Nat) : State :=
  match ini with
  | .i2c => if s.i2cAnswers then s.setI2cStat (s.i2cVerdict a false) else s
  | _ => s
/-- What a read that reaches no register answers: 0, but over I²C, with the main rails up and the main islands held in reset, the register's reset value. -/
def State.heldWord (s : State) (ini : Initiator) (a : Nat) : Word :=
  match ini with
  | .i2c => if s.i2cAnswers && s.railsOk && (regAt a).isSome then regReset a else 0
  | _ => 0

/-- Whether an initiator's access reaches the bus: PCIe and Loupe need the main islands, and PCIe its
endpoint, which PERST_N holds in reset, in D0 (R362); I²C reaches the always-on subset without them (R405). -/
def State.reaches (s : State) (ini : Initiator) (a : Nat) (w : Word) : Bool :=
  match ini with
  | .pcie => s.mainUp && s.pciRuns
  | .i2c => s.i2cAnswers && (s.mainUp || isAon a)
  | .loupe => s.mainUp && s.loupeMay a w

/-- An access to a register of a gated drop port group wakes the group, and keeps it awake for 100 µs (R403): its ports' registers and their counters lie in the
group's own domain. -/
def State.regUse (s : State) (a : Nat) : State :=
  let g := (if a < 0x2000000 then (a - 0x100000) / 0x1000 else (a - 0x2000000) / 0x400) / 16
  if s.doze ∧ ((0x100000 ≤ a ∧ a < 0x180000) ∨ (0x2000000 ≤ a ∧ a < 0x2020000)) ∧ s.groupOn g then
    let s1 := s.pgWake g
    { s1 with pw := { s1.pw with regAt := SMap.ins s1.pw.regAt g (s1.now + 100 * tUs) } }
  else s

/-- The narrow write that the bytes `be` of a word would be: ignored, and logged with this kind (R401). -/
def State.narrowErr (s : State) (a be : Nat) : Option Nat :=
  if be = 0 ∨ be = 15 then none
  else
    match s.multiOf a with
    | some (b, _) => if s.ctrAt b then some ekNarrowCtr else none
    | none => if s.absent a || (regAt a).isNone then none else if isCmdReg a then some ekNarrowCmd else none

/-- A write of the bytes `be` of one word (R401, R402, R408); a narrow write that R401 ignores changes nothing. -/
def State.writeWord (s : State) (ini : Initiator) (a be : Nat) (w : Word) (fuseOk : Bool) : State :=
  if be = 0 ∨ s.reaches ini a w = false ∨ (s.narrowErr a be).isSome then s
  else
    match s.multiOf a with
    | some (b, n) => s.multiWrite ini b n a (beMask be) w
    | none =>
      if s.absent a || (regAt a).isNone then s
      else s.writeBlock ini a (dropBits (beMask be) (hiddenMask a)) (w32 (dropBits w.toNat (hiddenMask a))) fuseOk

/-- Whether a register's low word starts something that takes a field of the high word with it: both are written in one cycle (R398), so the fields of a
plain high word are in place before. -/
def State.takesHigh (s : State) (a : Nat) : Bool :=
  (isCmdReg a || decide (0x80000 ≤ a ∧ a < 0xC0000 ∧ a % 0x40 = 0x08)) && !(isCmdReg (a + 4)) && (s.multiOf (a + 4)).isNone

/-- A write of bytes of one naturally aligned 8-byte span, as one access: the low word's side effects first (R398), and at most one entry in the error log (R406).
Fuse programming that it starts succeeds unless the free value says otherwise (R460). -/
def State.busWrite (s : State) (ini : Initiator) (addr be : Nat) (v : Nat) : State :=
  let a := addr / 8 * 8
  let first := a + (List.range 8).foldr (fun k n => if bitOf be k then k else n) 0
  let ok := decide (s.freeVal % 2 = 0)
  let i := Initiator.num ini
  let s1 := (if s.reaches ini a 0 ∧ be % 256 ≠ 0 then s.drawn.regUse a else s.drawn).setIni i { s.ini i with ur := false }
  let err := if s.reaches ini a (w32 v) && (s.narrowErr a (be % 16)).isSome then s.narrowErr a (be % 16)
             else if s.reaches ini (a + 4) (w32 (v / 2 ^ 32)) then s.narrowErr (a + 4) (be / 16 % 16) else none
  let low (t : State) : State := t.writeWord ini a (be % 16) (w32 v) ok
  let high (t : State) : State := t.writeWord ini (a + 4) (be / 16 % 16) (w32 (v / 2 ^ 32)) ok
  let s2 := if s.takesHigh a then low (high s1) else high (low s1)
  match err with
  | some k => s2.accessError k i first be true
  | none => s2

/-- A write of one whole word. -/
def State.busWord (s : State) (ini : Initiator) (a : Nat) (w : Word) : State :=
  (if s.reaches ini a 0 then s.regUse a else s).writeWord ini a 15 w true

/-! ### Reads (R400, R407) -/

/-- What a read of a whole word clears: the RC fields. -/
def State.readClear (s : State) (a : Nat) : State :=
  let rc := fieldMask (fieldsAt a) (fun t => decide (t = .rc))
  if rc = 0 ∨ s.absent a then s else s.setReg a (w32 ((s.reg a).toNat - ((s.reg a).toNat &&& rc)))

/-- A read of the bytes `be` of one word (R400, R407): what it returns, and the state after. With byte 0, word 0 of a multi-word value fills the initiator's
read shadow, and another register clears its RC fields; another word of the value that the shadow is tagged with comes from the shadow. -/
def State.readWord (s : State) (ini : Initiator) (a be : Nat) : Word × State :=
  let i := Initiator.num ini
  let x := s.ini i
  let lanes := w32 (beMask be)
  if be = 0 then (0, s)
  else if s.reaches ini a 0 = false then (s.heldWord ini a &&& lanes, s)
  else
    match s.multiOf a with
    | some (b, n) =>
      if a = b then
        (s.view i a &&& lanes,
          if bitOf be 0 then s.setIni i { x with shTag := some b, shWords := (List.range n).map (fun k => s.view i (b + 4 * k)) } else s)
      else if x.shTag = some b then (x.shWords.getD ((a - b) / 4) 0 &&& lanes, s)
      else (s.view i a &&& lanes, s)
    | none => (s.view i a &&& lanes, if bitOf be 0 then s.readClear a else s)

/-- What a read returned to an initiator. -/
def State.answer (s : State) (i v : Nat) : State := s.setIni i { s.ini i with rdata := v, ur := false }

/-- A read of one whole word. -/
def State.busRead (s : State) (ini : Initiator) (addr : Nat) : State :=
  let r := (if s.reaches ini addr 0 then s.regUse addr else s).readWord ini (addr / 4 * 4) 15
  r.2.answer (Initiator.num ini) r.1.toNat

/-- A read of bytes of one naturally aligned 8-byte span: the low word first, both from one cycle (R398). A read within one word answers that word's
lanes, a read of both words all eight. -/
def State.busReadSpan (s : State) (ini : Initiator) (addr be : Nat) : State :=
  let a := addr / 8 * 8
  let lo := (if s.reaches ini a 0 ∧ be % 256 ≠ 0 then s.regUse a else s).readWord ini a (be % 16)
  let hi := lo.2.readWord ini (a + 4) (be / 16 % 16)
  hi.2.answer (Initiator.num ini) (if be % 16 = 0 then hi.1.toNat else lo.1.toNat + hi.1.toNat * 2 ^ 32)

/-- A PCIe access to BAR2 or to the configuration space, one or both words of a span. -/
def State.pciRead (s : State) (a be : Nat) : State :=
  let word (a : Nat) : Word := if a < cfgAt then (if s.pciRuns then s.bar2Read (a - bar2At) else 0) else s.cfgRead (a - cfgAt)
  let lo := word (a / 8 * 8) &&& w32 (beMask (be % 16))
  let hi := word (a / 8 * 8 + 4) &&& w32 (beMask (be / 16 % 16))
  if s.mainUp && !s.rst.perstLow then s.answer 0 (if be % 16 = 0 then hi.toNat else lo.toNat + hi.toNat * 2 ^ 32) else s
/-- How many bytes of a word are enabled. -/
def lanes (be : Nat) : Nat := (List.range 4).foldl (fun n k => n + b2n (bitOf be k)) 0
/-- A write to BAR2: both whole words as one write (R371), or each word by its bytes enabled. -/
def State.bar2Span (s : State) (o be v : Nat) : State :=
  if be % 256 = 255 then s.bar2Write o 8 v
  else
    let s1 := if be % 16 = 0 then s else s.bar2Write o (lanes (be % 16)) (v % 2 ^ 32)
    if be / 16 % 16 = 0 then s1 else s1.bar2Write (o + 4) (lanes (be / 16 % 16)) (v / 2 ^ 32)
/-- A write there: BAR2, or a configuration word, takes the bytes enabled. -/
def State.pciWrite (s : State) (a be v : Nat) : State :=
  let b := a / 8 * 8
  if s.mainUp && !s.rst.perstLow then
    (if b < cfgAt then (if s.pciRuns then s.bar2Span (b - bar2At) be v else s)
     else
       let s1 := if be % 16 = 0 then s else s.cfgWrite (b - cfgAt) (beMask (be % 16)) (w32 v)
       if be / 16 % 16 = 0 then s1 else s1.cfgWrite (b - cfgAt + 4) (beMask (be / 16 % 16)) (w32 (v / 2 ^ 32)))
  else s

/-- An access of a row that gives any address of an initiator. -/
def State.busWriteAt (s : State) (ini : Initiator) (addr be v : Nat) : State :=
  if addr < bar2At then (s.busWrite ini addr be v).i2cDone ini (addr / 8 * 8 + 4 * b2n (decide (be % 16 = 0))) else s.pciWrite addr be v
def State.busReadAt (s : State) (ini : Initiator) (addr be : Nat) : State :=
  if addr < bar2At then (s.busReadSpan ini addr be).i2cDone ini (addr / 8 * 8 + 4 * b2n (decide (be % 16 = 0))) else s.pciRead addr be
/-- A write of one whole word of a register, by any initiator. -/
def State.busWordAt (s : State) (ini : Initiator) (a : Nat) (w : Word) : State := (s.busWord ini a w).i2cDone ini a
/-- A write of both words of a span: one access over PCIe, one after the other over I²C and Loupe, whose accesses are of one word (R397, R501). -/
def State.busPair (s : State) (ini : Initiator) (a v : Nat) : State :=
  match ini with
  | .pcie => s.busWrite .pcie a 0xFF v
  | _ => (s.busWordAt ini a (w32 v)).busWordAt ini (a + 4) (w32 (v / 2 ^ 32))

/-- An access that no 8-byte span holds (R399): Unsupported Request, and the log. -/
def State.unalignedAccess (s : State) (ini : Initiator) (addr : Nat) (write : Bool) : State :=
  let i := Initiator.num ini
  let x := s.ini i
  ((s.setIni i { x with rdata := 0, ur := true }).emit (.unsupported addr)).accessError ekUnaligned i addr 0 write

end Sys2Proof.Machine
end

