-- ==== Sys2Proof/Machine/Boot.lean ====
section
/-!
DEFINITION. The boot sequence (R441 to R443): Signet ROM, the flash slots, verification, the domains, the DEFAULTS records with the boot commit, and the
self-test.
-/
namespace Sys2Proof.Machine

/-! ### Which image (R441, R442) -/

/-- Boot waits for an image from the host. -/
def State.toWait (s : State) : State := (s.toStage stWait).raise Fld.GL_INT_STATUS_WAIT_IMAGE

/-- Signet ROM ends its checks; a retired device stays in it (R455). -/
def State.romDone (s : State) : State :=
  if s.stage = stRom ∧ s.rst.aonReady ∧ s.secState ≠ 3 then
    let src := s.fld Fld.GL_BOOT_STATUS_BOOT_SRC
    if src = 0 then s.toStage stRead else if src = 2 then s.toStage stHeld else s.toWait
  else s

/-- Whether a slot's header passes checks 1 to 3 and 6. -/
def State.slotOk (s : State) (im : List Byte) : Bool :=
  (check1 im).isNone && (check2 im).isNone && (check3 im).isNone && (s.check6 im).isNone
def State.slotTried (s : State) (k : Nat) : Bool :=
  decide (s.fld (if k = 0 then Fld.GL_BOOT_STATUS_SLOT0_STATUS else Fld.GL_BOOT_STATUS_SLOT1_STATUS) ≠ 0)
def State.slotImage (s : State) (k : Nat) : List Byte := if k = 0 then s.bt.slot0 else s.bt.slot1
/-- A slot that may be verified next. -/
def State.slotCand (s : State) (k : Nat) : Bool := s.slotOk (s.slotImage k) && !(s.slotTried k)

/-- The slot to verify: the candidate with the higher SEQ, slot 0 where both are equal. -/
def State.slotNext (s : State) : Option Nat :=
  if s.slotCand 0 && s.slotCand 1 then some (if imgSeq (s.slotImage 0) < imgSeq (s.slotImage 1) then 1 else 0)
  else if s.slotCand 0 then some 0 else if s.slotCand 1 then some 1 else none

/-- The bytes that the flash supplies of an image: IMAGE_LEN of them, its header at least, within the slot's 16 MiB. -/
def slotBytesOf (im : List Byte) : Nat := max 64 (min (imgLen im) 0x1000000)

/-- The flash has been read: the candidate's image is verified next, or the boot waits. Both headers are read first, once (R442, R504). -/
def State.flashRead (s : State) (slot0 slot1 : List Byte) : State :=
  if s.stage = stRead then
    let s0 := if s.slotTried 0 || s.slotTried 1 then s else s.emitAll headerReads
    let s1 := { s0 with bt := { s0.bt with slot0 := slot0, slot1 := slot1 } }
    match s1.slotNext with
    | none => s1.toWait
    | some k =>
      let im := byteSlice (s1.slotImage k) 0 (slotBytesOf (s1.slotImage k))
      let s2 := s1.emit (.spi 0xEC (slotBase k) im.length [])
      ({ s2 with bt := { s2.bt with image := im, source := k } }).toStage stVerify
  else s

/-- The status of the slot in verification. -/
def State.slotStatus (s : State) (v : Nat) : State :=
  s.setF (if s.bt.source = 0 then Fld.GL_BOOT_STATUS_SLOT0_STATUS else Fld.GL_BOOT_STATUS_SLOT1_STATUS) v

/-- Verification ends: the image is applied, or the other slot is read, or the boot waits (R440, R442). -/
def State.verifyDone (s : State) : State :=
  if s.stage = stVerify then
    match s.imgCheck s.bt.image s.bt.image.length with
    | none => (s.slotStatus ilOk).bootApply s.bt.image s.bt.source
    | some e =>
      let s1 := ((s.slotStatus e.1).raise Fld.GL_INT_STATUS_SLOT_FAIL).refuseImage orgInternal s.bt.image e.1 s.bt.source
      if s1.slotNext.isSome then s1.toStage stRead else s1.toWait
  else s

/-! ### From DOMAINS to CAL (R443) -/

def State.domainsDone (s : State) : State := if s.stage = stDomains then s.toStage stDefaults else s

/-- Whether TR0 of a table command reports a failure in some plane. -/
def trFailed (tr0 : Word) : Bool :=
  (List.range 4).any (fun k => let c := bitsOf tr0.toNat (16 + 4 * k) 4; decide (c ≠ rsOk ∧ c ≠ rsReplaced ∧ c ≠ rsNone))

/-- A word that the boot writes, whatever PERST_N and the function's power state are. -/
def State.bootWord (s : State) (a : Nat) (w : Word) : State :=
  let t := ({ s with rst := { s.rst with perstLow := false }, hi := { s.hi with pci := { s.hi.pci with d3 := false } } }).busWord .pcie a w
  { t with rst := s.rst, hi := { t.hi with pci := s.hi.pci } }

/-- One DEFAULTS record: whether it failed, and the state. Nothing of it is journalled, and the device waits for each command it starts (R439). -/
def State.defaultsRecord (s : State) (kind : Nat) (ws : List Word) : Bool × State :=
  let a := (ws.getD 0 0).toNat
  let r : Bool × State :=
    if kind = 1 then (false, s.bootWord a (ws.getD 1 0))
    else if kind = 2 then (let t := s.tblRun s.now orgInternal ⟨ws⟩; (trFailed (t.1.getD 0 0), t.2))
    else (false, (List.range (ws.getD 1 0).toNat).foldl (fun t i => { t.bootWord (a + 4 * i) (ws.getD 2 0) with goBusy := s.goBusy }) s)
  (r.1, { r.2 with jn := s.jn, goBusy := s.goBusy })

/-- The DEFAULTS region of the image that boots: whether a record failed, and the state. -/
def State.defaultsApply (s : State) : Bool × State :=
  let bs := payload s.bt.image 8
  match defaultsList bs (bs.length / 4) 0 with
  | .inl _ => (true, s)
  | .inr l => l.foldl (fun a x => let r := a.2.defaultsRecord x.2.1 x.2.2; (a.1 || r.1, r.2)) (false, s)

/-- The end of a boot's load: the record of the image, and the completion of a host's job (R443, R449, R450). -/
def State.bootRecord (s : State) (status : Nat) : State :=
  let im := s.bt.image
  let d := leNat ((imgDigest im).take 4)
  match s.bt.reload with
  | none => (s.slotStatus status).imageJournal orgInternal 0 (imgSeq im) (imgSvn im) (imgRegions im) status d s.bt.source
  | some x =>
    ((s.setBtReload none).imageJournal orgPcie 0 (imgSeq im) (imgSvn im) (imgRegions im) status d 2).jobEnd x.ring x.job status 0
      (imgRegions im)

/-- The DEFAULTS records are applied and every group is committed once. -/
def State.defaultsDone (s : State) : State :=
  if s.stage = stDefaults then
    let r := s.defaultsApply
    ((r.2.commitGroups 0xFFFFFFFF).bootRecord (if r.1 then 0x52 else ilOk)).toStage stSelftest
  else s

/-- The self-test ends: failing banks stay out; with EARLY_FWD the receive paths open; the arbiter calibrates. -/
def State.selftestDone (s : State) (failing : Word) : State :=
  if s.stage = stSelftest then
    let s1 := s.setF Fld.FB_TEST_FAIL_BANKS failing.toNat
    let s2 := s1.touchPools
    let s3 := s2.toStage stFoundry
    let s4 := if s3.bit Fld.GL_BOOT_STATUS_EARLY_FWD ∧ s3.isl.keep = false then { s3 with isl := { s3.isl with rxOpen := true } } else s3
    (s4.toStage stCal).calStart
  else s

end Sys2Proof.Machine
end

