-- ==== Sys2Proof/Machine/Resets.lean ====
section
/-!
DEFINITION. Power and reset events (R452, R477 to R479, R495 to R500), PERST_N, and the I²C slave (R499, R501, R502, R514).
-/
namespace Sys2Proof.Machine

/-! ### The main islands (R477, R478, R496) -/

/-- The state that the device runs in after a boot: Full, or Doze where DOZE has been written to TARGET since the main rails were last lost (R478). -/
def State.bootPower (s : State) : State :=
  let v := if s.fld Fld.PW_CTRL_TARGET = 1 ∧ s.isl.oldTgt = false then 1 else 0
  if s.fld Fld.PW_STATUS_STATE = v then s else (s.setF Fld.PW_STATUS_STATE v).raise Fld.PW_INT_STATUS_STATE_CHG

/-- What the main islands' registers and counters have taken while they had no power or were held in reset is nothing: they start from their reset values
(R513). -/
def State.mainFresh (s : State) : State :=
  ({ s with regs := s.regs.drop (fun a => !(isAon a)), ctrs := s.ctrs.drop (fun a => !(isAon a)) }).setF Fld.GL_BOOT_STATUS_BOOT_SRC
    (s.fld Fld.GL_BOOT_STATUS_BOOT_SRC)
/-- The main islands start to boot: a new nonce (R463) and stage ROM. -/
def State.bootStart (s : State) : State :=
  if s.mainUp then (let t := s.mainFresh.newNonce.bootPower; { t with isl := { t.isl with upAt := t.now, upSec := t.hmSec } }) else s

/-- Loss of the main rails (R477); lost again before the boot, they take nothing with them but MAIN_OK. -/
def State.mainLost (s0 : State) : State :=
  let s := s0.fuseLoss
  if s.railsOk = false then s
  else if s.aonUp = false then { s.setF Fld.PW_STATUS_MAIN_OK 0 with isl := { s.isl with mainOff := true } }
  else
    let s0 := ((s.setF Fld.PW_STATUS_MAIN_OK 0).raise Fld.PW_INT_STATUS_MAIN_LOST).raise Fld.GL_RESET_CAUSE_MAIN_LOSS
    let s1 := if s0.isl.mainOff then s0 else { s0 with isl := { s0.isl with oldTgt := true } }
    let s2 := if s1.fld Fld.PW_STATUS_STATE = 2 then s1 else (s1.setF Fld.PW_STATUS_STATE 2).raise Fld.PW_INT_STATUS_STATE_CHG
    let s3 := ((s2.leaseRelease.claimEnd).endSession orgInternal 5).mainReset.pwClear
    { s3 with isl := { s3.isl with mainOff := true } }

/-- The main rails are back; the boot waits for SYS_RST_N to rise (R478). -/
def State.railsReturn (s : State) : State := if s.isl.mainOff then s.setF Fld.PW_STATUS_MAIN_OK 1 else s

/-- SYS_RST_N falls (R496). -/
def State.sysFall (s : State) : State :=
  if s.isl.sysRst then s
  else
    let s1 := if s.aonUp then ((s.leaseRelease).endSession orgInternal 4).mainReset.pwClear else s
    { s1 with isl := { s1.isl with sysRst := true } }

/-- SYS_RST_N rises: BOOT_SRC is sampled and the boot starts, if the rails and the AON island are there (R491, R498). -/
def State.sysRise (s : State) (bootSrc : Nat) : State :=
  if s.isl.sysRst then
    let s1 := { s with isl := { s.isl with sysRst := false, mainOff := !s.railsOk } }
    let s2 := s1.setF Fld.GL_BOOT_STATUS_BOOT_SRC bootSrc
    if s2.aonUp then (s2.raise Fld.GL_RESET_CAUSE_SYS_RESET).bootStart else s2
  else s

/-! ### The always-on island (R495, R496, R500) -/

/-- Everything but the fuses returns to its reset state; what has left the device, free values and the pins' levels stay. -/
def State.allClear (s : State) : State :=
  { State.reset with time := s.time, timeReq := ⟨some (-(s.time.raw : Int)), some 0⟩, isl := { Islands.reset with off := s.isl.off, aonRst := s.isl.aonRst, sysRst := s.isl.sysRst, mainOff := s.isl.mainOff },
                     sg := { s.sg with mono := 0, doneAt := none }, rst := { Pins.reset with aonReady := false, cold := s.rst.cold, perstLow := s.rst.perstLow },
                     out := s.out, free := s.free, pending := s.pending }

/-- The reset of the AON island, which holds every other island in reset; the strap BOOT_SRC stays as sampled, and MAIN_OK shows the rails. -/
def State.aonClear (s : State) : State :=
  (s.allClear.setF Fld.GL_BOOT_STATUS_BOOT_SRC (s.fld Fld.GL_BOOT_STATUS_BOOT_SRC)).setF Fld.PW_STATUS_MAIN_OK (s.fld Fld.PW_STATUS_MAIN_OK)

def State.aonFall (s : State) : State :=
  if s.isl.off ∨ s.isl.aonRst then s else (let t := s.aonClear; { t with isl := { t.isl with aonRst := true } })

/-- AON_RST_N rises: the I²C address is sampled, the counter starts from 0, and AON_RESET is set but at the first rise after VAON (R491, R515). -/
def State.aonRise (s : State) (i2cAddr : Nat) : State :=
  if s.isl.off = false ∧ s.isl.aonRst then
    let s1 := { s with isl := { s.isl with aonRst := false }, timeReq := ⟨some (-(s.time.raw : Int)), some 0⟩,
                       rst := { s.rst with i2cAddr := i2cAddr % 4, aonAt := s.now, aonReady := false, cold := false } }
    let s2 := if s.rst.cold then s1 else s1.raise Fld.GL_RESET_CAUSE_AON_RESET
    s2.bootStart
  else s

/-- The AON island is ready 20 ms after the rise of AON_RST_N (R500). -/
def State.aonIsReady (s : State) : State :=
  if s.aonUp ∧ s.rst.aonReady = false ∧ s.rst.aonAt + 20 * tMs ≤ s.now then { s with rst := { s.rst with aonReady := true } } else s

/-- Loss of VAON: Off. What follows is a cold boot. The main rails and SYS_RST_N stay as the board has them (R495). -/
def State.vaonLoss (s : State) : State :=
  if s.isl.off then s else (let t := s.fuseLoss.aonClear; { t with isl := { t.isl with off := true, aonRst := true } })

/-- VAON rises, with AON_RST_N held low (R497). -/
def State.powerOn (s : State) : State :=
  if s.isl.off then
    let t := s.aonClear
    { t with isl := { t.isl with off := false, aonRst := true }, rst := { t.rst with cold := true } }
  else s

/-! ### PERST_N (R496) -/

def State.perst (s : State) (rising : Bool) : State :=
  if rising then
    (if s.rst.perstLow then
      let s1 := { s with rst := { s.rst with perstLow := false } }
      if s1.aonUp then s1.raise Fld.GL_RESET_CAUSE_PERST else s1
     else s)
  else if s.rst.perstLow then s
  else
    let s1 := { s with rst := { s.rst with perstLow := true } }
    let s2 := if s1.mainUp then s1.flr orgInternal else s1
    { s2 with hi := { s2.hi with pci := PciFn.reset } }

/-! ### The I²C slave (R499, R501, R502, R514) -/

/-- Whether a transaction to a 7-bit address is for this slave: 0x5C + I2C_ADDR as sampled (R491). -/
def State.i2cMine (s : State) (dev : Nat) : Bool := s.i2cAnswers && decide (dev = 0x5C + s.rst.i2cAddr)
/-- What a read over I²C answers. -/
def State.i2cData (s : State) (v : Nat) : State := s.setIni 1 { s.ini 1 with rdata := v, ur := false }

/-- A write transaction. -/
def State.i2cWrite (s : State) (dev addr : Nat) (v : Word) (lost : Bool) : State :=
  if s.i2cMine dev then
    let k := s.i2cVerdict addr lost
    (if k = i2cOk then s.busWord .i2c addr v else s).setI2cStat k
  else s

/-- A read transaction. -/
def State.i2cRead (s : State) (dev addr : Nat) (lost : Bool) : State :=
  if s.i2cMine dev then
    let k := s.i2cVerdict addr lost
    (if k = i2cOk then s.busRead .i2c addr else s.i2cData 0).setI2cStat k
  else s

/-- A status transaction: STATUS of the last write or read. -/
def State.i2cStatus (s : State) (dev : Nat) : State := if s.i2cMine dev then s.i2cData s.rst.i2cStat else s

end Sys2Proof.Machine
end

