-- ==== Sys2Proof/Machine/Links.lean ====
section
/-!
DEFINITION. The line's own events on a port: auto-negotiation and training (R34 to R37), lock and faults, and LINK in an Ethernet mode (R52).
-/
namespace Sys2Proof.Machine

/-- A port's event happens only on a port that is there (R21, R511). -/
def State.onPort (s : State) (p : Nat) (f : State → State) : State := if s.portAbsent p then s else f s
/-- A command that is a write of one of a port's registers, which lie in the port group's domain (R403). -/
def State.onPortReg (s : State) (p : Nat) (f : State → State) : State := s.onPort p (fun s => f (s.regUse (Reg.PT_CTRL p)))

/-- Auto-negotiation ends: complete, or the partner is incompatible. -/
def State.anDone (s : State) (p : Nat) (ok : Bool) : State :=
  if s.anRuns p ∧ s.fld (Fld.PT_STATUS_AN_STATE p) = 1 then
    s.candFollow p ((s.setF (Fld.PT_STATUS_AN_STATE p) (if ok then 2 else 3)).raise (Fld.PT_INT_STATUS_AN_DONE p))
  else s

/-- The taps of a lane's transmitter after the partner's requests, which the device accepts within the ranges of `PT_TXEQ`: 0 to 63 steps each (R36). -/
def LtLane.taken (l : LtLane) : Nat × Nat × Nat := (min l.pre 63, min l.main 63, min l.post 63)
/-- Training succeeds when every active lane reports ready in both directions (R36): `lanes` says what it has reached, by PCS lane. -/
def State.ltReady (s : State) (p : Nat) (lanes : List LtLane) : Bool :=
  decide (lanes.length = modeLanes (s.mode p)) && lanes.all (fun l => l.own && l.partner)
/-- Lanes report what training has reached: the transmit taps follow the partner's requests, and where every active lane is ready training is done. -/
def State.ltDone (s : State) (p : Nat) (lanes : List LtLane) : State :=
  if s.ltRuns p ∧ s.fld (Fld.PT_STATUS_LT_STATE p) = 1 then
    let s1 := s.setPort p { s.port p with taps := (lanes.map LtLane.taken).take (modeLanes (s.mode p)) }
    if s.ltReady p lanes then s.candFollow p (s1.setF (Fld.PT_STATUS_LT_STATE p) 2) else s1
  else s

/-- Training has not succeeded within TIMEOUT, in steps of 10 ms (R37). -/
def State.ltFail (s : State) (p : Nat) : State :=
  if s.ltRuns p ∧ s.fld (Fld.PT_STATUS_LT_STATE p) = 1 ∧ (s.port p).ltAt + s.fld (Fld.PT_LT_CTRL_TIMEOUT p) * 10 * tMs ≤ s.now then
    let s1 := (s.setF (Fld.PT_STATUS_LT_STATE p) 3).raise (Fld.PT_INT_STATUS_LT_FAIL p)
    s1.setPort p { s1.port p with ltAt := s1.now }
  else s

/-- RETRY_DELAY after the failure the port trains again. -/
def State.ltRetry (s : State) (p : Nat) : State :=
  if s.ltRuns p ∧ s.fld (Fld.PT_STATUS_LT_STATE p) = 3 ∧ (s.port p).ltAt + s.fld (Fld.PT_LT_CTRL_RETRY_DELAY p) * 10 * tMs ≤ s.now then
    (if s.enabled p then s.ltStart p else s)
  else s

/-- Signal, block lock and marker lock are there, and HI_BER clears. -/
def State.lockGained (s : State) (p : Nat) : State :=
  if s.mode p ≠ 0 ∧ s.enState p ≠ enIdle then
    s.lineTouch p (fun s => s.candFollow p ((((s.setF (Fld.PT_STATUS_SIGNAL p) 1).setF (Fld.PT_STATUS_BLOCK_LOCK p) 1).setF (Fld.PT_STATUS_ALIGN p)
      (b2n (s.markers p))).setF (Fld.PT_STATUS_HI_BER p) 0))
  else s

/-- A local or a remote fault begins or ends; the beginning of a remote fault raises REMOTE_FAULT. -/
def State.faultSeen (s : State) (p : Nat) (near begins : Bool) : State :=
  if s.mode p = 0 ∨ s.crfOn p ∨ s.enState p = enIdle then s
  else if near then (s.candFollow p (s.setF (Fld.PT_STATUS_LOCAL_FAULT p) (b2n begins))).anTell p
  else
    let s1 := s.candFollow p (s.setF (Fld.PT_STATUS_REMOTE_FAULT p) (b2n begins))
    if begins ∧ s.bit (Fld.PT_STATUS_REMOTE_FAULT p) = false then s1.raise (Fld.PT_INT_STATUS_REMOTE_FAULT p) else s1

/-- The partner enters or leaves LPI. In every mode, FEC or framing without LPI, a received LPI signal is an errored block of the PCS (R39). With LPI_EN 0 in
a mode that has LPI the device does not accept it either, and R39 does not say how it counts: the model counts an errored block there too (DESIGN CHOICE,
notes/assumptions/45.md). -/
def State.lpiReceive (s : State) (p : Nat) (enter : Bool) : State :=
  if s.lpiMode p then
    let was := s.bit (Fld.PT_STATUS_LPI_RX p)
    let s1 := s.setF (Fld.PT_STATUS_LPI_RX p) (b2n enter)
    if enter && !was then s1.count (Ctr.port p 0x230) 1 else s1
  else if enter then s.lineCount p ⟨1, 0, 0, 0⟩
  else s

/-! ### What a line brings, and loopbacks (R55) -/

/-- What arrives on a port's line: in the near-end loopback the receiver is cut off from the line, and in the far-end loopback what arrives goes back on to it
while the MAC receives nothing. -/
def State.fromLine (s : State) (p : Nat) (bs : List Byte) (f : State → State) : State :=
  if s.fld (Fld.PT_CTRL_LOOPBACK p) = 1 then s else f (s.echo p bs)

/-- A frame's last byte, or its cut, and the errors of the line up to then. Without any byte it is errors alone: of a line without frames, or of a CRF port's
line, whose frames come in blocks (notes/assumptions/42.md). -/
def State.frameHeard (s : State) (p : Nat) (bs : List Byte) (cut : Bool) (e : LineErrs) : State :=
  let s1 := s.lineCount p e
  if bs = [] ∧ cut = false then s1 else s1.frameIn p bs cut

/-- A block of a CRF port's line; what it completes for the twin, the twin takes. -/
def State.blockHeard (s : State) (p : Nat) (bs : List Byte) : State := (s.crfBlock p bs).twinInbox

/-- What a port's transmitter has looped reaches its own receiver. -/
def State.loopFeed (s : State) (p : Nat) : State :=
  if (s.port p).loop = [] then s
  else
    (s.port p).loop.foldl (fun s x =>
      if s.crfOn p then ((List.range (x.1.length / 8)).map (fun i => byteSlice x.1 (8 * i) 8)).foldl (fun s b => s.blockHeard p b) s
      else s.frameIn p x.1 x.2) (s.setPort p { s.port p with loop := [] })

/-- LINK rises once the candidate state has held for UP (R52). -/
def State.linkUpDue (s : State) (p rxVar : Nat) : State :=
  if s.mode p ≠ 0 ∧ s.crfOn p = false ∧ s.enabled p ∧ s.linkUp p = false ∧ s.candidate p ∧ (s.port p).candAt + s.fld (Fld.PT_DEBOUNCE_UP p) * tMs ≤ s.now then
    s.linkRise p rxVar
  else s

/-- LINK falls once the candidate state has been lost for DOWN, in steps of 10 µs (R52). -/
def State.linkDownDue (s : State) (p : Nat) : State :=
  if s.mode p ≠ 0 ∧ s.crfOn p = false ∧ s.linkUp p ∧ s.candidate p = false ∧ (s.port p).candAt + s.fld (Fld.PT_DEBOUNCE_DOWN p) * 10 * tUs ≤ s.now then
    s.linkFall p
  else s

end Sys2Proof.Machine
end

