-- ==== Sys2Proof/Machine/Rows.lean ====
section
/-!
DEFINITION. What single rows of the table need beside the operations of the blocks: where an initiator's command reaches, register writes that a row makes
in one step, releases as they walk their chain (R258, R260), and refills (R280).
-/
namespace Sys2Proof.Machine

/-! ### Where a command reaches -/

/-- A command that an initiator gives through a register: it has its effect where the access reaches the bus (R405, R464). -/
def State.onBus (s : State) (ini : Initiator) (a : Nat) (f : State → State) : State := (if s.reaches ini a 0 then f s else s).i2cDone ini a
/-- A command of `SG_CMD`, whose OP decides whether Loupe may give it. -/
def State.onSg (s : State) (ini : Initiator) (op : Nat) (f : State → State) : State :=
  (if s.reaches ini Reg.SG_CMD (w32 (op * 2 ^ 29)) then f s else s).i2cDone ini Reg.SG_CMD
/-- A lookup plane's command has its effect where the plane is there (R511). -/
def State.onPlane (s : State) (k : Nat) (f : State → State) : State := if s.planeOn k then f s else s
/-- What arrives over PCI Express arrives while the endpoint runs and the function is in D0. -/
def State.onPcie (s : State) (f : State → State) : State := if s.pciRuns then f s else s

/-! ### Register writes that a row makes in one step -/

/-- The words of a table command (R177). -/
def tblTc (op : Nat) (t : TblArgs) : TC :=
  ⟨[w32 (op % 16 * 2 ^ 28 + t.table % 8 * 2 ^ 25 + b2n t.bcast * 2 ^ 24 + t.plane % 4 * 2 ^ 22 + t.tag % 2 ^ 16),
    t.w1, t.w2, t.w3, t.w4, t.w5, t.w6, t.w7]⟩
/-- `LP_TBL_CMD` is written with the words of a table command, and GO (R177). -/
def State.tblCommand (s : State) (origin k op : Nat) (t : TblArgs) : State := (s.putWords (Reg.LP_TBL_CMD k 0) (tblTc op t).w).tblGo origin k

/-- Both words of `HM_ADDEND` are written (R297). -/
def State.addendCommand (s : State) (v : BitVec 40) : State :=
  ((s.setReg Reg.HM_ADDEND0 (w32 v.toNat)).setReg Reg.HM_ADDEND1 (w32 (v.toNat / 2 ^ 32))).addendTake
/-- Both words of `HM_SW_OFFSET` are written (R304). -/
def State.swCommand (s : State) (ns : BitVec 32) (frac : Nat) : State :=
  if s.swTakes then ((s.setReg Reg.HM_SW_OFFSET0 ns).setF Fld.HM_SW_OFFSET1_FRAC (frac % 2 ^ 16)).swSubmit else s
/-- Both words of `JN_SEL` are written by one initiator (R408, R422). -/
def State.jnSelWrite (s : State) (ini : Initiator) (seq : Nat) : State :=
  (s.busWordAt ini Reg.JN_SEL0 (w32 seq)).busWordAt ini Reg.JN_SEL1 (w32 (seq / 2 ^ 32 % 2 ^ 16))
/-- An access that no aligned span of 8 bytes holds (R399), over Loupe one that is no aligned word (R397); an I²C transaction with such an address is answered by its STATUS alone (R502). -/
def State.unalignedRow (s : State) (ini : Initiator) (addr nbytes : Nat) (write : Bool) : State :=
  match ini with
  | .i2c => if addr % 4 ≠ 0 ∧ s.i2cAnswers then (s.i2cData 0).setI2cStat i2cUnaligned else s
  | .pcie => if 8 < addr % 8 + nbytes ∧ s.reaches .pcie addr 0 then (s.unalignedAccess .pcie addr write).aerUr else s
  | .loupe => if addr % 4 ≠ 0 ∧ s.reaches .loupe addr 0 then s.unalignedAccess .loupe addr write else s
/-- `CB_WRED_SEED` of a pipeline is written (R205). -/
def State.wredSeed (s : State) (i seed : Nat) : State := s.writeCb (0xC00180 + 4 * i) 0xFFFF (w32 seed)
/-- EN of a queue's byte in `CB_QCFG` is cleared (R241). -/
def State.queueOff (s : State) (q : Nat) : State := s.fieldWrite (0xC10000 + q / 4 * 4) (2 ^ (8 * (q % 4) + 7)) 0
/-- EN of a servo control word, and its source, as one write. -/
def State.servoEn (s : State) (en : Nat) : State := s.servoCtrlWrite (w32 (setBits (s.reg Reg.HM_SERVO_CTRL).toNat 31 1 en)) false
def State.servoSrcWrite (s : State) (src crfPort : Nat) : State :=
  s.servoCtrlWrite (w32 (setBits (setBits (s.reg Reg.HM_SERVO_CTRL).toNat 28 3 src) 16 7 crfPort)) true

/-! ### Timers, refills and cells -/

/-- The bucket that KIND and INDEX name rises to what it holds now (R280). -/
def State.bucketRefill (s : State) (kind index : Nat) : State :=
  match levelAddr kind index with
  | some a => s.refill a
  | none => s

/-- A requester asks for one cell (R254). -/
def State.cellAsk (s : State) (req : CellReq) : State :=
  match req with
  | .rxPort p => s.rxByte p
  | .host r => s.hostCell r
  | .anvil => s.anvilCell.2

/-- The place of a release in a cycle's order, by the owner that it claims (R259, R260). -/
def claimRank (owner : Nat) : Nat := if owner = 0x3E then relSw else if owner = 8 ∨ owner = 9 then relHost else relRef
/-- A release begins, with the place of its owner in the cycle's order (R258, R260). -/
def State.releaseStart (s : State) (owner first n : Nat) : State := s.release (claimRank owner) owner first n

/-- The main counter's value is broadcast at the carry of the seconds (R300). -/
def State.broadcast (s : State) : State :=
  if s.hm.bcastSec = some s.hmSec then s else { s with hm := { s.hm with bcastSec := some s.hmSec } }

/-- The bytes `be` of the sojourn watermark of a queue are read; byte 0 among them clears it (R289, R400). -/
def State.sojRead (s : State) (ini : Initiator) (q be : Nat) : State :=
  let r := s.readWord ini (0x1600000 + 4 * q) be
  (r.2.answer (Initiator.num ini) r.1.toNat).i2cDone ini (0x1600000 + 4 * q)

end Sys2Proof.Machine
end

