-- ==== Sys2Proof/Machine/Anvil.lean ====
section
/-!
DEFINITION. The meanings of the rows: Continuity checks, the calendar and Planish's own commands (R113 to R119, R281 to R290, R434).
-/
namespace Sys2Proof.Machine

/-- `TWIN_TASK` (R434). Anvil's TASK 0x04 service forms the twin's heartbeat, lease and mirror frames. -/
def execTwinTask (dt : Nat) (s : State) : Host.Outcome State Fault Refusal :=
  s.cmdMain (Instr.twinTask dt).wellFormed dt (fun s => s.twinTask)

/-- `MEP_ENABLE` (R114). Setting AV_MEP.EN makes the MEP active if its key is unique. -/
def execMepEnable (dt : Nat) (m : Nat) (s : State) : Host.Outcome State Fault Refusal :=
  s.cmdMain (Instr.mepEnable dt m).wellFormed dt (fun s => s.mepEnable m)

/-- `MEP_DISABLE` (R114). Clearing AV_MEP.EN stops new CCMs and clears the MEP's defects and timers. -/
def execMepDisable (dt : Nat) (m : Nat) (s : State) : Host.Outcome State Fault Refusal :=
  s.cmdMain (Instr.mepDisable dt m).wellFormed dt (fun s => s.mepDisable m)

/-- `CCM_SERVICE` (R115). Anvil's TASK 0x03 service forms the due CCMs of a group of 16 MEPs. -/
def execCcmService (dt : Nat) (a : Nat) (s : State) : Host.Outcome State Fault Refusal :=
  s.cmdMain (Instr.ccmService dt a).wellFormed dt (fun s => s.ccmService a)

/-- `CCM_EXAMINE` (R116). Anvil examines a consumed CCM and raises its events. -/
def execCcmExamine (dt : Nat) (m : Nat) (s : State) : Host.Outcome State Fault Refusal :=
  s.cmdMain (Instr.ccmExamine dt m).wellFormed dt (fun s => s.ccmExamine m)

/-- `LOC` (R117). No valid CCM has arrived for T, and LOC is set. -/
def execMepLoc (dt : Nat) (m : Nat) (s : State) : Host.Outcome State Fault Refusal :=
  s.cmdMain (Instr.mepLoc dt m).wellFormed dt (fun s => s.mepLocDue m)

/-- `MEP_DEFECT_CLEAR` (R117). No event of a defect has occurred for T, and the defect clears. -/
def execMepDefectClear (dt : Nat) (m : Nat) (d : Nat) (s : State) : Host.Outcome State Fault Refusal :=
  s.cmdMain (Instr.mepDefectClear dt m d).wellFormed dt (fun s => s.mepClearDue m d)

/-- `CAL_RELOAD_APPLY` (R447). A reloaded CAL replaces the calendar at the start of the next turn. -/
def execCalReloadApply (dt : Nat) (s : State) : Host.Outcome State Fault Refusal :=
  s.cmdMain (Instr.calReloadApply dt).wellFormed dt (fun s => s.calReload)

/-- `LEVEL_ZERO` (R283). A PL_LEVEL_CMD ZERO sets a bucket's level to 0. -/
def execLevelZero (dt : Nat) (ini : Initiator) (kind : Nat) (index : Nat) (s : State) : Host.Outcome State Fault Refusal :=
  s.cmdAon (Instr.levelZero dt ini kind index).wellFormed dt (fun s => s.onBus ini Reg.PL_LEVEL_CMD (fun s => s.levelGo (Initiator.origin ini) (levelWrite 0 kind index)))

/-- `LEVEL_FULL` (R283). A PL_LEVEL_CMD FULL sets a bucket's level to its burst. -/
def execLevelFull (dt : Nat) (ini : Initiator) (kind : Nat) (index : Nat) (s : State) : Host.Outcome State Fault Refusal :=
  s.cmdAon (Instr.levelFull dt ini kind index).wellFormed dt (fun s => s.onBus ini Reg.PL_LEVEL_CMD (fun s => s.levelGo (Initiator.origin ini) (levelWrite 1 kind index)))

/-- `SOJ_WM_READ` (R289). A read of PL_SOJ_WM returns the sojourn watermark and clears it. -/
def execSojWmRead (dt : Nat) (ini : Initiator) (q : Nat) (be : Nat) (s : State) : Host.Outcome State Fault Refusal :=
  s.cmdAon (Instr.sojWmRead dt ini q be).wellFormed dt (fun s => s.sojRead ini q be)

/-- `SAMPLE_POST` (R290). Every PERIOD × 8 ns, the sampler posts one queue record to its ring. -/
def execSamplePost (dt : Nat) (s : State) : Host.Outcome State Fault Refusal :=
  s.cmdMain (Instr.samplePost dt).wellFormed dt (fun s => s.sample)

end Sys2Proof.Machine
end

