-- ==== Sys2Proof/Machine/Cell.lean ====
section
/-!
DEFINITION. The meanings of the rows: The cell pool manager (chapter 9).
-/
namespace Sys2Proof.Machine

/-- `CELL_ALLOC` (R254). A requester asks one pool for one cell, and the pool grants or refuses it in the same cycle. -/
def execCellAlloc (dt : Nat) (req : CellReq) (s : State) : Host.Outcome State Fault Refusal :=
  s.cmdMain (Instr.cellAlloc dt req).wellFormed dt (fun s => s.cellAsk req)

/-- `CELL_RELEASE` (R258). A release with a claimed owner starts walking its chain of cells. -/
def execCellRelease (dt : Nat) (owner : Nat) (first : Nat) (n : Nat) (s : State) : Host.Outcome State Fault Refusal :=
  s.cmdMain (Instr.cellRelease dt owner first n).wellFormed dt (fun s => s.releaseStart owner first n)

/-- `CELL_RELEASE_DONE` (R258). The chain walk completes, and the freed cells become available from the next cycle: the walk makes its checks as the
CD23 cycles pass (`State.begun`), and the command brings the time at which it has. -/
def execCellReleaseDone (dt : Nat) (s : State) : Host.Outcome State Fault Refusal :=
  s.cmdMain (Instr.cellReleaseDone dt).wellFormed dt (fun s => s)

/-- `CELL_QUERY` (R265). A CB_CELL_CMD QUERY returns the cell's state, owner, pool and link. -/
def execCellQuery (dt : Nat) (cell : Nat) (s : State) : Host.Outcome State Fault Refusal :=
  s.cmdMain (Instr.cellQuery dt cell).wellFormed dt (fun s => s.cellGo 0 0 cell)

/-- `CELL_CMD_ALLOC` (R265). A CB_CELL_CMD ALLOC requests one cell as owner 0x3E. -/
def execCellCmdAlloc (dt : Nat) (pool : Nat) (s : State) : Host.Outcome State Fault Refusal :=
  s.cmdMain (Instr.cellCmdAlloc dt pool).wellFormed dt (fun s => s.cellGo 1 pool 0)

/-- `CELL_FREE` (R265). A CB_CELL_CMD FREE releases a cell with claim 0x3E. -/
def execCellFree (dt : Nat) (cell : Nat) (s : State) : Host.Outcome State Fault Refusal :=
  s.cmdMain (Instr.cellFree dt cell).wellFormed dt (fun s => s.cellGo 2 0 cell)

/-- `CELL_RECLAIM` (R265). A CB_CELL_CMD RECLAIM frees a USED cell whatever its owner. -/
def execCellReclaim (dt : Nat) (cell : Nat) (s : State) : Host.Outcome State Fault Refusal :=
  s.cmdMain (Instr.cellReclaim dt cell).wellFormed dt (fun s => s.cellGo 3 0 cell)

/-- `POOL_WM_RESET` (R266). A write of CB_POOL_WM.RESET sets MIN_FREE to the current FREE. -/
def execPoolWmReset (dt : Nat) (n : Nat) (s : State) : Host.Outcome State Fault Refusal :=
  s.cmdMain (Instr.poolWmReset dt n).wellFormed dt (fun s => s.wmReset n)

/-- `PM_ERR_POP` (R262). A write of CB_PM_ERR_POP.POP discards the oldest error record. -/
def execPmErrPop (dt : Nat) (s : State) : Host.Outcome State Fault Refusal :=
  s.cmdMain (Instr.pmErrPop dt).wellFormed dt (fun s => s.errPop)

end Sys2Proof.Machine
end

