-- ==== Sys2Proof/Machine/Commits.lean ====
section
/-!
DEFINITION. The meanings of the rows: Commits, timed commits, the register bus and the journal (chapter 14, R322 to R326).
-/
namespace Sys2Proof.Machine

/-- `TIMED_ARM` (R322). A write of ARM arms a timed-commit slot. -/
def execTimedArm (dt : Nat) (ini : Initiator) (n : Nat) (lateFire : Bool) (s : State) : Host.Outcome State Fault Refusal :=
  s.cmdAon (Instr.timedArm dt ini n lateFire).wellFormed dt (fun s => s.onBus ini (Reg.CM_TIMED_CTRL n) (fun s => s.slotArm (Initiator.origin ini) n lateFire))

/-- `TIMED_CANCEL` (R322). A write of CANCEL disarms an armed slot and sets it CANCELLED. -/
def execTimedCancel (dt : Nat) (ini : Initiator) (n : Nat) (s : State) : Host.Outcome State Fault Refusal :=
  s.cmdAon (Instr.timedCancel dt ini n).wellFormed dt (fun s => s.onBus ini (Reg.CM_TIMED_CTRL n) (fun s => s.slotCancel (Initiator.origin ini) n))

/-- `TCOMMIT_FIRED` (R323). The counter reaches TIME, and the slot commits its groups. -/
def execTcommitFired (dt : Nat) (s : State) : Host.Outcome State Fault Refusal :=
  s.cmdMain (Instr.tcommitFired dt).wellFormed dt (fun s => s.slotsFire)

/-- `COMMIT` (R415). A write of a non-zero mask to CM_COMMIT commits the named groups at the next CD01 tick. -/
def execCommit (dt : Nat) (ini : Initiator) (mask : Word) (s : State) : Host.Outcome State Fault Refusal :=
  s.cmdAon (Instr.commit dt ini mask).wellFormed dt (fun s => s.onBus ini Reg.CM_COMMIT (fun s => s.commitWrite (Initiator.origin ini) mask.toNat))

/-- `REVERT` (R413). A write to CM_REVERT copies the active copies back to the shadows. -/
def execRevert (dt : Nat) (ini : Initiator) (mask : Word) (s : State) : Host.Outcome State Fault Refusal :=
  s.cmdAon (Instr.revert dt ini mask).wellFormed dt (fun s => s.onBus ini Reg.CM_REVERT (fun s => s.revertWrite (Initiator.origin ini) mask.toNat))

/-- `REGISTER_WRITE` (R9). A write to a register with no row of its own acts by its field types. -/
def execRegisterWrite (dt : Nat) (ini : Initiator) (addr : Nat) (be : Nat) (value : BitVec 64) (s : State) : Host.Outcome State Fault Refusal :=
  s.cmdAon (Instr.registerWrite dt ini addr be value).wellFormed dt (fun s => s.busWriteAt ini addr be value.toNat)

/-- `UNALIGNED` (R399). An access that crosses an 8-byte span completes with Unsupported Request and is logged. -/
def execUnaligned (dt : Nat) (ini : Initiator) (addr : Nat) (nbytes : Nat) (write : Bool) (s : State) : Host.Outcome State Fault Refusal :=
  s.cmdAon (Instr.unaligned dt ini addr nbytes write).wellFormed dt (fun s => s.unalignedRow ini addr nbytes write)

/-- `COUNTER_WRITE` (R410). A write of a 64-bit counter replaces the count, and that cycle's increment is added. -/
def execCounterWrite (dt : Nat) (ini : Initiator) (addr : Nat) (value : BitVec 64) (s : State) : Host.Outcome State Fault Refusal :=
  s.cmdAon (Instr.counterWrite dt ini addr value).wellFormed dt (fun s => s.busPair ini (addr / 8 * 8) value.toNat)

/-- `MULTIWORD_READ` (R407). A read of word 0 of a multi-word value latches its other words in the initiator's read shadow. -/
def execMultiwordRead (dt : Nat) (ini : Initiator) (addr : Nat) (be : Nat) (s : State) : Host.Outcome State Fault Refusal :=
  s.cmdAon (Instr.multiwordRead dt ini addr be).wellFormed dt (fun s => s.busReadAt ini addr be)

/-- `MULTIWORD_WRITE` (R408). A write of the last word of a multi-word value applies it with the held words. -/
def execMultiwordWrite (dt : Nat) (ini : Initiator) (addr : Nat) (value : Word) (s : State) : Host.Outcome State Fault Refusal :=
  s.cmdAon (Instr.multiwordWrite dt ini addr value).wellFormed dt (fun s => s.busWordAt ini (addr / 4 * 4) value)

/-- `JOURNAL_WRITE` (R419). Every 160 ns, the journal writes the next queued record. -/
def execJournalWrite (dt : Nat) (s : State) : Host.Outcome State Fault Refusal :=
  s.cmdAon (Instr.journalWrite dt).wellFormed dt (fun s => s.journalWrite)

/-- `JN_SEL` (R422). A write of the last word of JN_SEL selects a journal record. -/
def execJnSel (dt : Nat) (ini : Initiator) (seq : Nat) (s : State) : Host.Outcome State Fault Refusal :=
  s.cmdAon (Instr.jnSel dt ini seq).wellFormed dt (fun s => s.jnSelWrite ini seq)

/-- `JOURNAL_COPY` (R422). The selected record is copied into JN_REC and JN_SEL_STATUS is set. -/
def execJournalCopy (dt : Nat) (ini : Initiator) (s : State) : Host.Outcome State Fault Refusal :=
  s.cmdAon (Instr.journalCopy dt ini).wellFormed dt (fun s => s.jnCopy (Initiator.num ini))

end Sys2Proof.Machine
end

