-- ==== Sys2Proof/Machine/Fabric.lean ====
section
/-!
DEFINITION. The meanings of the rows: Fabric modes (R228 to R235).
-/
namespace Sys2Proof.Machine

/-- `MODE_REQ` (R228). A write of FB_MODE_CTRL.MODE_REQ raises or removes the reason SW. -/
def execModeReq (dt : Nat) (v : Bool) (s : State) : Host.Outcome State Fault Refusal :=
  s.cmdMain (Instr.modeReq dt v).wellFormed dt (fun s => if v = s.bit Fld.FB_MODE_CTRL_MODE_REQ then s else s.modeReq v)

/-- `RECAL` (R232). A write of FB_MODE_CTRL.RECAL clears CAL_FAIL and starts an arbiter calibration. -/
def execRecal (dt : Nat) (s : State) : Host.Outcome State Fault Refusal :=
  s.cmdMain (Instr.recal dt).wellFormed dt (fun s => s.recal)

/-- `CAL_COMPLETE` (R232). An arbiter calibration succeeds, or fails and sets CAL_FAIL. -/
def execCalComplete (dt : Nat) (ok : Bool) (s : State) : Host.Outcome State Fault Refusal :=
  s.cmdMain (Instr.calComplete dt ok).wellFormed dt (fun s => s.calComplete ok)

/-- `FENCE_LIFT_INWARD` (R230). All VOQs of a port empty, and its inward fence lifts. -/
def execFenceLiftInward (dt : Nat) (q : Nat) (s : State) : Host.Outcome State Fault Refusal :=
  s.cmdMain (Instr.fenceLiftInward dt q).wellFormed dt (fun s => s.liftInward q)

/-- `FOUNDRY_REACHED` (R229). All VOQs of the device empty. The arbiter stops and the state goes to FOUNDRY. -/
def execFoundryReached (dt : Nat) (s : State) : Host.Outcome State Fault Refusal :=
  s.cmdMain (Instr.foundryReached dt).wellFormed dt (fun s => s.foundryReached)

/-- `FENCE_LIFT_OUTWARD` (R230). All Foundry lists of a port empty, and its outward fence lifts. -/
def execFenceLiftOutward (dt : Nat) (q : Nat) (s : State) : Host.Outcome State Fault Refusal :=
  s.cmdMain (Instr.fenceLiftOutward dt q).wellFormed dt (fun s => s.liftOutward q)

/-- `VOQ_REACHED` (R229). All Foundry lists empty and the state goes to VOQ. -/
def execVoqReached (dt : Nat) (s : State) : Host.Outcome State Fault Refusal :=
  s.cmdMain (Instr.voqReached dt).wellFormed dt (fun s => s.voqReached)

/-- `MEM_RELOAD_APPLY` (R234). The affected banks hold no cell in use. The new partition is applied and MEM clears. -/
def execMemReloadApply (dt : Nat) (s : State) : Host.Outcome State Fault Refusal :=
  s.cmdMain (Instr.memReloadApply dt).wellFormed dt (fun s => s.memApply)

/-- `BANK_TEST` (R235). A write of FB_MODE_CTRL.TEST raises the reason TEST and starts the bank test. -/
def execBankTest (dt : Nat) (s : State) : Host.Outcome State Fault Refusal :=
  s.cmdMain (Instr.bankTest dt).wellFormed dt (fun s => s.bankTest)

/-- `BANK_TEST_BANK_START` (R235). A bank under test has no cell left in use, and its test begins. -/
def execBankTestBankStart (dt : Nat) (b : Nat) (s : State) : Host.Outcome State Fault Refusal :=
  s.cmdMain (Instr.bankTestBankStart dt b).wellFormed dt (fun s => s.bankStart b)

/-- `BANK_TEST_BANK_DONE` (R235). A bank's 0.5 ms test ends. A passing bank returns to allocation and a failing bank sets FB_TEST_FAIL. The last bank raises TEST_DONE. -/
def execBankTestBankDone (dt : Nat) (b : Nat) (pass : Bool) (s : State) : Host.Outcome State Fault Refusal :=
  s.cmdMain (Instr.bankTestBankDone dt b pass).wellFormed dt (fun s => s.bankDone b pass)

/-- `BANK_TEST_SKIP` (R235). A bank's cells stay in use for 100 ms, and the bank is skipped. -/
def execBankTestSkip (dt : Nat) (b : Nat) (s : State) : Host.Outcome State Fault Refusal :=
  s.cmdMain (Instr.bankTestSkip dt b).wellFormed dt (fun s => s.bankSkip b)

end Sys2Proof.Machine
end

