-- ==== Sys2Proof/Machine/Frame.lean ====
section
/-!
DEFINITION. The meanings of the rows: The path of a frame (chapters 5 to 8): reception, lookup, admission, arbiter, replication, list manager.
-/
namespace Sys2Proof.Machine

/-- `FRAME_RX_END` (R49). A frame's last byte is received. R49 classifies it and admits or discards it, and the cells of a discarded frame are freed. -/
def execFrameRxEnd (dt : Nat) (p : Nat) (bytes : List Byte) (cut : Bool) (errs : LineErrs) (s : State) : Host.Outcome State Fault Refusal :=
  s.cmdMain (Instr.frameRxEnd dt p bytes cut errs).wellFormed dt (fun s => s.onPort p (fun s => s.fromLine p bytes (fun s => s.frameHeard p bytes cut errs)))

/-- `INGRESS_LOOKUP` (R160). An admitted frame is parsed, looked up in its plane's tables and in Filigree, and policed in stages 3–5. -/
def execIngressLookup (dt : Nat) (f : Nat) (s : State) : Host.Outcome State Fault Refusal :=
  s.cmdMain (Instr.ingressLookup dt f).wellFormed dt (fun s => s.lookupFrame f)

/-- `STAGE6_ADMIT` (R200). A frame, or a copy of it, is tested at stage 6 and enqueued or refused. -/
def execStage6Admit (dt : Nat) (f : Nat) (lane : Nat) (s : State) : Host.Outcome State Fault Refusal :=
  s.cmdMain (Instr.stage6Admit dt f lane).wellFormed dt (fun s => s.admitFrame f lane)

/-- `ARBITER_CYCLE` (R216). The arbiter matches inputs to egress pipelines and passes head descriptors across the crossbar. -/
def execArbiterCycle (dt : Nat) (s : State) : Host.Outcome State Fault Refusal :=
  s.cmdMain (Instr.arbiterCycle dt).wellFormed dt (fun s => s.arbiterCycle)

/-- `EGRESS_REPLICATE` (R210). An egress pipeline replicates a multicast descriptor to the ports of its group, and tests each copy. -/
def execEgressReplicate (dt : Nat) (e : Nat) (s : State) : Host.Outcome State Fault Refusal :=
  s.cmdMain (Instr.egressReplicate dt e).wellFormed dt (fun s => s.replicate e)

/-- `LIST_MANAGER_CYCLE` (R226). In FOUNDRY, the list manager reads one cell and passes descriptors to the egress pipelines. -/
def execListManagerCycle (dt : Nat) (s : State) : Host.Outcome State Fault Refusal :=
  s.cmdMain (Instr.listManagerCycle dt).wellFormed dt (fun s => s.lmCycle)

/-- `BUCKET_REFILL` (R280). A periodic refill raises a shaper's level, which may make its node eligible. -/
def execBucketRefill (dt : Nat) (kind : Nat) (index : Nat) (s : State) : Host.Outcome State Fault Refusal :=
  s.cmdMain (Instr.bucketRefill dt kind index).wellFormed dt (fun s => s.bucketRefill kind index)

/-- `WRED_SEED_WRITE` (R205). A write of CB_WRED_SEED loads the pipeline's LFSR. -/
def execWredSeedWrite (dt : Nat) (i : Nat) (seed : Nat) (s : State) : Host.Outcome State Fault Refusal :=
  s.cmdMain (Instr.wredSeedWrite dt i seed).wellFormed dt (fun s => s.wredSeed i seed)

/-- `QUEUE_DISABLE` (R241). Clearing CB_QCFG.EN stops admission to the queue and sets it DRAINING. -/
def execQueueDisable (dt : Nat) (q : Nat) (s : State) : Host.Outcome State Fault Refusal :=
  s.cmdMain (Instr.queueDisable dt q).wellFormed dt (fun s => s.queueOff q)

/-- `QUEUE_DRAINED` (R201). A DRAINING queue empties and goes to IDLE. -/
def execQueueDrained (dt : Nat) (q : Nat) (s : State) : Host.Outcome State Fault Refusal :=
  s.cmdMain (Instr.queueDrained dt q).wellFormed dt (fun s => s)

/-- `MIRROR_SESSION_DISABLE` (R241). Clearing FB_MIRROR_CTRL.EN stops new copies of the session. -/
def execMirrorSessionDisable (dt : Nat) (n : Nat) (s : State) : Host.Outcome State Fault Refusal :=
  s.cmdMain (Instr.mirrorSessionDisable dt n).wellFormed dt (fun s => s.setF (Fld.FB_MIRROR_CTRL_EN n) 0)

/-- `MIRROR_SESSION_DRAINED` (R241). The session's last copy completes and its status goes to IDLE. -/
def execMirrorSessionDrained (dt : Nat) (n : Nat) (s : State) : Host.Outcome State Fault Refusal :=
  s.cmdMain (Instr.mirrorSessionDrained dt n).wellFormed dt (fun s => s)

/-- `RECOVERY_RESET_TIMEOUT` (R340). The reset timeout RESET_MS of a dwelling's 802.1CB vector recovery runs out and its recovery history is reset. -/
def execRecoveryResetTimeout (dt : Nat) (d : Nat) (s : State) : Host.Outcome State Fault Refusal :=
  s.cmdMain (Instr.recoveryResetTimeout dt d).wellFormed dt (fun s => s.recoveryTimeout d)

end Sys2Proof.Machine
end

