-- ==== Sys2Proof/Machine/Line.lean ====
section
/-!
DEFINITION. The meanings of the rows: CRF, line defects and performance monitoring (chapters 3 and 4).
-/
namespace Sys2Proof.Machine

/-- `CRF_FRAME_TX` (R60). The CRF transmitter sends the next 8,192-byte frame with its FAS, overhead and payload. -/
def execCrfFrameTx (dt : Nat) (p : Nat) (s : State) : Host.Outcome State Fault Refusal :=
  s.cmdMain (Instr.crfFrameTx dt p).wellFormed dt (fun s => ((s.crfFrame p).modeNext p).loopFeed p)

/-- `HMC_SEND` (R84). A write of LF_HMC_TX_CTRL with GO = 1 queues the host message for the next superframe. -/
def execHmcSend (dt : Nat) (p : Nat) (len : Nat) (s : State) : Host.Outcome State Fault Refusal :=
  s.cmdMain (Instr.hmcSend dt p len).wellFormed dt (fun s => s.onPortReg p (fun s => if 128 ≤ p ∨ s.bit (Fld.LF_HMC_TX_CTRL_GO p) then s else s.hmcSend p (len % 1024)))

/-- `FORCE_AIS_WRITE` (R70). A write of LF_CTRL.FORCE_AIS starts or stops AIS, and the port is treated as down while AIS is forced. -/
def execForceAisWrite (dt : Nat) (p : Nat) (v : Bool) (s : State) : Host.Outcome State Fault Refusal :=
  s.cmdMain (Instr.forceAisWrite dt p v).wellFormed dt (fun s => s.onPortReg p (fun s => if 128 ≤ p then s else s.forceAis p v))

/-- `CRF_BLOCK_RX` (R72). A received 8-byte block is tested against the FAS under the alignment state machine. -/
def execCrfBlockRx (dt : Nat) (p : Nat) (block : List Byte) (s : State) : Host.Outcome State Fault Refusal :=
  s.cmdMain (Instr.crfBlockRx dt p block).wellFormed dt (fun s => s.fromLine p block (fun s => (s.blockHeard p block).modeNext p))

/-- `DLOS_DETECT` (R89). dLOS is detected within 1 µs of a loss condition. -/
def execDlosDetect (dt : Nat) (p : Nat) (cause : Nat) (s : State) : Host.Outcome State Fault Refusal :=
  s.cmdMain (Instr.dlosDetect dt p cause).wellFormed dt (fun s => (s.losDetect p cause).modeNext p)

/-- `DLOS_CLEAR` (R89). No loss condition has held for 1 ms, and dLOS clears. -/
def execDlosClear (dt : Nat) (p : Nat) (s : State) : Host.Outcome State Fault Refusal :=
  s.cmdMain (Instr.dlosClear dt p).wellFormed dt (fun s => s.losClear p)

/-- `DLOF_DETECT` (R89). The receiver has not been in SYNC for 3 ms, and dLOF is declared. -/
def execDlofDetect (dt : Nat) (p : Nat) (s : State) : Host.Outcome State Fault Refusal :=
  s.cmdMain (Instr.dlofDetect dt p).wellFormed dt (fun s => (s.lofDetect p).modeNext p)

/-- `DLOF_CLEAR` (R89). The receiver has been in SYNC for 3 ms, and dLOF clears. -/
def execDlofClear (dt : Nat) (p : Nat) (s : State) : Host.Outcome State Fault Refusal :=
  s.cmdMain (Instr.dlofClear dt p).wellFormed dt (fun s => s.lofClear p)

/-- `DLOM_DETECT` (R89). MF_LOCK has been 0 in SYNC for 3 ms, and dLOM is declared. -/
def execDlomDetect (dt : Nat) (p : Nat) (s : State) : Host.Outcome State Fault Refusal :=
  s.cmdMain (Instr.dlomDetect dt p).wellFormed dt (fun s => s.lomDetect p)

/-- `DLOM_CLEAR` (R89). MF_LOCK has been 1 for 3 ms, and dLOM clears. -/
def execDlomClear (dt : Nat) (p : Nat) (s : State) : Host.Outcome State Fault Refusal :=
  s.cmdMain (Instr.dlomClear dt p).wellFormed dt (fun s => s.lomClear p)

/-- `FAILURE_DECLARE` (R93). A defect has been present and unmasked for SET, and its failure is declared. -/
def execFailureDeclare (dt : Nat) (p : Nat) (d : Nat) (s : State) : Host.Outcome State Fault Refusal :=
  s.cmdMain (Instr.failureDeclare dt p d).wellFormed dt (fun s => s.failDeclare p d)

/-- `FAILURE_CLEAR` (R93). A defect has been absent or masked for CLEAR, and its failure clears. -/
def execFailureClear (dt : Nat) (p : Nat) (d : Nat) (s : State) : Host.Outcome State Fault Refusal :=
  s.cmdMain (Instr.failureClear dt p d).wellFormed dt (fun s => s.failClear p d)

/-- `CRF_LINK_UP` (R95). No port-down defect has been present for UP_HOLD, and LINK rises. -/
def execCrfLinkUp (dt : Nat) (p : Nat) (rxVar : Nat) (s : State) : Host.Outcome State Fault Refusal :=
  s.cmdMain (Instr.crfLinkUp dt p rxVar).wellFormed dt (fun s => s.crfLinkUp p rxVar)

/-- `PM_SECOND_GRADE` (R96). Anvil's TASK 0x02 service grades a port's ended second and counts it in its bin. -/
def execPmSecondGrade (dt : Nat) (p : Nat) (s : State) : Host.Outcome State Fault Refusal :=
  s.cmdMain (Instr.pmSecondGrade dt p).wellFormed dt (fun s => (s.secondGrade p).modeNext p)

/-- `SECOND_FINAL` (R105). A second becomes final 10 s after it ends. -/
def execSecondFinal (dt : Nat) (p : Nat) (s : State) : Host.Outcome State Fault Refusal :=
  s.cmdMain (Instr.secondFinal dt p).wellFormed dt (fun s => s.secondFinal p)

/-- `BIN_END` (R107). A 15-minute or 24-hour bin ends and shifts to the past bins with OPEN at 1. -/
def execBinEnd (dt : Nat) (p : Nat) (s : State) : Host.Outcome State Fault Refusal :=
  s.cmdMain (Instr.binEnd dt p).wellFormed dt (fun s => s.binEnd p)

/-- `BIN_CLOSE` (R105). A bin closes 10 s after its last second, and its contents are fixed. -/
def execBinClose (dt : Nat) (p : Nat) (s : State) : Host.Outcome State Fault Refusal :=
  s.cmdMain (Instr.binClose dt p).wellFormed dt (fun s => s.binClose p)

/-- `PM_SNAPSHOT` (R111). A write of LF_PM_SEL.BIN copies that bin into LF_PM_WIN. -/
def execPmSnapshot (dt : Nat) (p : Nat) (bin : Nat) (s : State) : Host.Outcome State Fault Refusal :=
  s.cmdMain (Instr.pmSnapshot dt p bin).wellFormed dt (fun s => s.onPortReg p (fun s => s.pmSnapshot p bin))

/-- `OH_SLOT_FORM` (R435). Anvil's TASK 0x01 service forms a CRF port's overhead-channel slots due within 100 µs. -/
def execOhSlotForm (dt : Nat) (p : Nat) (s : State) : Host.Outcome State Fault Refusal :=
  s.cmdMain (Instr.ohSlotForm dt p).wellFormed dt (fun s => s.slotsForm p)

end Sys2Proof.Machine
end

