-- ==== Sys2Proof/Machine/Pair.lean ====
section
/-!
DEFINITION. The meanings of the rows: The twin (chapter 12).
-/
namespace Sys2Proof.Machine

/-- `TWIN_ENABLE` (R348). Setting TW_CFG.EN moves the lease state to LEARN or STANDBY. -/
def execTwinEnable (dt : Nat) (s : State) : Host.Outcome State Fault Refusal :=
  s.cmdAon (Instr.twinEnable dt).wellFormed dt (fun s => s.twinEnable)

/-- `TWIN_DISABLE` (R348). Clearing TW_CFG.EN drops DUTY, sends RELEASE if the device holds the lease, and goes to DISABLED. -/
def execTwinDisable (dt : Nat) (s : State) : Host.Outcome State Fault Refusal :=
  s.cmdAon (Instr.twinDisable dt).wellFormed dt (fun s => s.twinDisable)

/-- `HB_PIN_TX` (R343). Every PIN_PERIOD, a heartbeat frame is sent on HB_TX. -/
def execHbPinTx (dt : Nat) (s : State) : Host.Outcome State Fault Refusal :=
  s.cmdAon (Instr.hbPinTx dt).wellFormed dt (fun s => s.pinSend)

/-- `HEARTBEAT_RX` (R344). A heartbeat received on either path is validated and updates the peer status. -/
def execHeartbeatRx (dt : Nat) (path : Path) (hb : List Byte) (s : State) : Host.Outcome State Fault Refusal :=
  s.cmdAon (Instr.heartbeatRx dt path hb).wellFormed dt (fun s => s.heartbeatRow path hb)

/-- `PATH_LOSS` (R344). No valid heartbeat has arrived on a path for PATH_LOSS, and the path's status falls. -/
def execPathLoss (dt : Nat) (path : Path) (s : State) : Host.Outcome State Fault Refusal :=
  s.cmdAon (Instr.pathLoss dt path).wellFormed dt (fun s => s.pathLost path)

/-- `PEER_DEAD` (R345). Nothing valid has arrived on either path for T_DEAD, and PEER_DEAD is set. -/
def execPeerDead (dt : Nat) (s : State) : Host.Outcome State Fault Refusal :=
  s.cmdAon (Instr.peerDead dt).wellFormed dt (fun s => s.peerDies)

/-- `RENEW_RX` (R349). A received RENEW is handled: DENY, ACK with guard, step-down, or no reply. -/
def execRenewRx (dt : Nat) (path : Path) (msg : List Byte) (s : State) : Host.Outcome State Fault Refusal :=
  s.cmdAon (Instr.renewRx dt path msg).wellFormed dt (fun s => s.leaseRow path lmRenew msg)

/-- `ACK_RX` (R349). A received ACK extends the holder's expiry X. -/
def execAckRx (dt : Nat) (path : Path) (msg : List Byte) (s : State) : Host.Outcome State Fault Refusal :=
  s.cmdAon (Instr.ackRx dt path msg).wellFormed dt (fun s => s.leaseRow path lmAck msg)

/-- `CLAIM_RX` (R349). A received CLAIM is answered with GRANT or DENY. -/
def execClaimRx (dt : Nat) (path : Path) (msg : List Byte) (s : State) : Host.Outcome State Fault Refusal :=
  s.cmdAon (Instr.claimRx dt path msg).wellFormed dt (fun s => s.leaseRow path lmClaim msg)

/-- `GRANT_RX` (R348). A received GRANT for a claim makes the claimant HOLDER. -/
def execGrantRx (dt : Nat) (path : Path) (msg : List Byte) (s : State) : Host.Outcome State Fault Refusal :=
  s.cmdAon (Instr.grantRx dt path msg).wellFormed dt (fun s => s.leaseRow path lmGrant msg)

/-- `DENY_RX` (R348). A received DENY returns a claimant to STANDBY. -/
def execDenyRx (dt : Nat) (path : Path) (msg : List Byte) (s : State) : Host.Outcome State Fault Refusal :=
  s.cmdAon (Instr.denyRx dt path msg).wellFormed dt (fun s => s.leaseRow path lmDeny msg)

/-- `RELEASE_RX` (R349). A received RELEASE sets the guard to now and starts a claim. -/
def execReleaseRx (dt : Nat) (path : Path) (msg : List Byte) (s : State) : Host.Outcome State Fault Refusal :=
  s.cmdAon (Instr.releaseRx dt path msg).wellFormed dt (fun s => s.leaseRow path lmRelease msg)

/-- `LEASE_CLAIM` (R348). The guard has passed with the peer alive and not holding, and the standby sends a CLAIM. -/
def execLeaseClaim (dt : Nat) (s : State) : Host.Outcome State Fault Refusal :=
  s.cmdAon (Instr.leaseClaim dt).wellFormed dt (fun s => s.claimDue)

/-- `SOLO_HOLD` (R348). The guard has passed with PEER_DEAD and SOLO_EN, and the standby holds solo. -/
def execSoloHold (dt : Nat) (s : State) : Host.Outcome State Fault Refusal :=
  s.cmdAon (Instr.soloHold dt).wellFormed dt (fun s => s.soloDue)

/-- `CLAIM_TIMEOUT` (R348). No GRANT arrives within 2 × RENEW, and the claimant returns to STANDBY. -/
def execClaimTimeout (dt : Nat) (s : State) : Host.Outcome State Fault Refusal :=
  s.cmdAon (Instr.claimTimeout dt).wellFormed dt (fun s => s.claimTimeout)

/-- `RENEW_TX` (R348). RENEW elapses, and the holder sends a RENEW. -/
def execRenewTx (dt : Nat) (s : State) : Host.Outcome State Fault Refusal :=
  s.cmdAon (Instr.renewTx dt).wellFormed dt (fun s => s.renewDue)

/-- `LEASE_LAPSED` (R348). The lease timer reaches X. DUTY falls and the state goes to LAPSED. -/
def execLeaseLapsed (dt : Nat) (s : State) : Host.Outcome State Fault Refusal :=
  s.cmdAon (Instr.leaseLapsed dt).wellFormed dt (fun s => s.lapse)

/-- `CLAIM` (R352). A TW_LEASE_CMD CLAIM in STANDBY starts claiming at once. -/
def execCmdClaim (dt : Nat) (s : State) : Host.Outcome State Fault Refusal :=
  s.cmdAon (Instr.cmdClaim dt).wellFormed dt (fun s => s.leaseGo 0)

/-- `RELEASE` (R352). A TW_LEASE_CMD RELEASE on the holder drops DUTY and sends RELEASE. -/
def execCmdRelease (dt : Nat) (s : State) : Host.Outcome State Fault Refusal :=
  s.cmdAon (Instr.cmdRelease dt).wellFormed dt (fun s => s.leaseGo 1)

/-- `CLAIM_SOLO` (R352). A TW_LEASE_CMD CLAIM_SOLO with the peer dead takes the lease solo. -/
def execCmdClaimSolo (dt : Nat) (s : State) : Host.Outcome State Fault Refusal :=
  s.cmdAon (Instr.cmdClaimSolo dt).wellFormed dt (fun s => s.leaseGo 2)

/-- `SET_EPOCH` (R352). A TW_LEASE_CMD SET_EPOCH in LEARN sets TW_EPOCH_SEEN. -/
def execCmdSetEpoch (dt : Nat) (epoch : Word) (s : State) : Host.Outcome State Fault Refusal :=
  s.cmdAon (Instr.cmdSetEpoch dt epoch).wellFormed dt (fun s => (s.setReg Reg.TW_LEASE_ARG epoch).leaseGo 3)

/-- `MIRROR_FRAME_RX` (R355). A received mirror frame is checked for MSEQ gaps and its records are applied. -/
def execMirrorFrameRx (dt : Nat) (bytes : List Byte) (s : State) : Host.Outcome State Fault Refusal :=
  s.cmdMain (Instr.mirrorFrameRx dt bytes).wellFormed dt (fun s => s.mirrorFrame bytes)

/-- `MIRROR_RESEND` (R356). A write of TW_MIRROR_CTRL.RESEND sends every mirrored item in full. -/
def execMirrorResend (dt : Nat) (s : State) : Host.Outcome State Fault Refusal :=
  s.cmdMain (Instr.mirrorResend dt).wellFormed dt (fun s => s.mirrorResend)

/-- `AUDIT` (R356). At s + 0.5 s, each device computes and sends its area digests. -/
def execAudit (dt : Nat) (s : State) : Host.Outcome State Fault Refusal :=
  s.cmdMain (Instr.audit dt).wellFormed dt (fun s => s.audit)

/-- `AUDIT_RX` (R356). Received audit digests are compared, and DIFF is set after two mismatches. -/
def execAuditRx (dt : Nat) (bytes : List Byte) (s : State) : Host.Outcome State Fault Refusal :=
  s.cmdMain (Instr.auditRx dt bytes).wellFormed dt (fun s => s.auditIn bytes)

end Sys2Proof.Machine
end

