-- ==== Sys2Proof/Machine/Port.lean ====
section
/-!
DEFINITION. The meanings of the rows: Ports (chapter 2, R29 to R57; R238, R275 to R277, R305 to R318; LINK of a CRF port, R95).
-/
namespace Sys2Proof.Machine

/-- `PORT_ENABLE` (R74). Software sets PT_CTRL.ENABLE from 0 to 1. The port's receiver, transmitter and defects restart afresh. -/
def execPortEnable (dt : Nat) (p : Nat) (s : State) : Host.Outcome State Fault Refusal :=
  s.cmdMain (Instr.portEnable dt p).wellFormed dt (fun s => s.onPortReg p (fun s => s.portOn p))

/-- `PORT_DISABLE` (R54). Software clears PT_CTRL.ENABLE. The port stops receiving further frames and goes to DRAINING. -/
def execPortDisable (dt : Nat) (p : Nat) (s : State) : Host.Outcome State Fault Refusal :=
  s.cmdMain (Instr.portDisable dt p).wellFormed dt (fun s => s.onPortReg p (fun s => s.portOff p))

/-- `PORT_DRAINED` (R54). The frames in reception and transmission complete. The transmitters idle, LINK falls and EN_STATE goes to IDLE. -/
def execPortDrained (dt : Nat) (p : Nat) (s : State) : Host.Outcome State Fault Refusal :=
  s.cmdMain (Instr.portDrained dt p).wellFormed dt (fun s => s.portDrained p)

/-- `AN_RESTART` (R34). A write of 1 to PT_CTRL.AN_RESTART restarts 1000BASE-X auto-negotiation. -/
def execAnRestart (dt : Nat) (p : Nat) (s : State) : Host.Outcome State Fault Refusal :=
  s.cmdMain (Instr.anRestart dt p).wellFormed dt (fun s => s.onPortReg p (fun s => s.anRestart p))

/-- `AN_DONE` (R34). Auto-negotiation completes and AN_DONE is raised. -/
def execAnDone (dt : Nat) (p : Nat) (ok : Bool) (s : State) : Host.Outcome State Fault Refusal :=
  s.cmdMain (Instr.anDone dt p ok).wellFormed dt (fun s => s.onPort p (fun s => s.anDone p ok))

/-- `RETRAIN` (R37). A write of 1 to PT_CTRL.RETRAIN restarts link training at once, including during a retry delay. -/
def execRetrain (dt : Nat) (p : Nat) (s : State) : Host.Outcome State Fault Refusal :=
  s.cmdMain (Instr.retrain dt p).wellFormed dt (fun s => s.onPortReg p (fun s => if p < 128 then s else s.retrain p))

/-- `LT_DONE` (R36). Every active lane reports ready in both directions, and training succeeds. -/
def execLtDone (dt : Nat) (rep : LtReport) (s : State) : Host.Outcome State Fault Refusal :=
  s.cmdMain (Instr.ltDone dt rep).wellFormed dt (fun s => s.ltDone rep.port rep.lanes)

/-- `LT_FAIL` (R37). Training has not succeeded within PT_LT_CTRL.TIMEOUT. LT_STATE goes to FAILED and LT_FAIL is raised. -/
def execLtFail (dt : Nat) (p : Nat) (s : State) : Host.Outcome State Fault Refusal :=
  s.cmdMain (Instr.ltFail dt p).wellFormed dt (fun s => s.ltFail p)

/-- `RETRY_DELAY` (R37). The retry delay expires and the port trains again. -/
def execRetryDelay (dt : Nat) (p : Nat) (s : State) : Host.Outcome State Fault Refusal :=
  s.cmdMain (Instr.retryDelay dt p).wellFormed dt (fun s => s.ltRetry p)

/-- `LPI_ENTRY` (R40). The transmitter enters LPI after its queues have been empty for IDLE_US, or at a Doze request. -/
def execLpiEntry (dt : Nat) (p : Nat) (s : State) : Host.Outcome State Fault Refusal :=
  s.cmdMain (Instr.lpiEntry dt p).wellFormed dt (fun s => s.lpiEnter p)

/-- `LPI_WAKE_DONE` (R40). TW_NS elapses after LPI exit, and the held frame starts. -/
def execLpiWakeDone (dt : Nat) (p : Nat) (s : State) : Host.Outcome State Fault Refusal :=
  s.cmdMain (Instr.lpiWakeDone dt p).wellFormed dt (fun s => s.txAdvance p)

/-- `LPI_RX` (R40). The link partner enters or leaves LPI. The link stays up. -/
def execLpiRx (dt : Nat) (p : Nat) (enter : Bool) (s : State) : Host.Outcome State Fault Refusal :=
  s.cmdMain (Instr.lpiRx dt p enter).wellFormed dt (fun s => s.onPort p (fun s => s.lpiReceive p enter))

/-- `PAUSE_RX` (R44). A received PAUSE frame with a good FCS stops the trunk port for its pause time, replacing any time remaining. -/
def execPauseRx (dt : Nat) (p : Nat) (quanta : Nat) (s : State) : Host.Outcome State Fault Refusal :=
  s.cmdMain (Instr.pauseRx dt p quanta).wellFormed dt (fun s => s.onPort p (fun s => if s.receives p then s.pauseAct p quanta else s))

/-- `PFC_RX` (R45). A received PFC frame stops the mapped classes for each enabled priority's time. -/
def execPfcRx (dt : Nat) (p : Nat) (enables : Nat) (quanta : List Nat) (s : State) : Host.Outcome State Fault Refusal :=
  s.cmdMain (Instr.pfcRx dt p enables quanta).wellFormed dt (fun s => s.onPort p (fun s => if s.receives p then s.pfcAct p enables quanta else s))

/-- `PAUSE_EXPIRE` (R44). A PAUSE or PFC stop time runs out and the port or class resumes: what the stop lasted is accounted (R521), and a frame that
the stop held in the MAC goes on. -/
def execPauseExpire (dt : Nat) (p : Nat) (s : State) : Host.Outcome State Fault Refusal :=
  s.cmdMain (Instr.pauseExpire dt p).wellFormed dt (fun s => (s.stopAccount p).txAdvance p)

/-- `PAUSE_WD` (R48). The pause watchdog expires. It ends every stop on the port, and PAUSE and PFC frames are ignored until software clears PAUSE_WD. -/
def execPauseWd (dt : Nat) (p : Nat) (s : State) : Host.Outcome State Fault Refusal :=
  s.cmdMain (Instr.pauseWd dt p).wellFormed dt (fun s => s.pauseWatch p)

/-- `LINK_UP` (R52). The candidate-up state has held for the UP debounce, and LINK rises. -/
def execLinkUp (dt : Nat) (p : Nat) (rxVar : Nat) (s : State) : Host.Outcome State Fault Refusal :=
  s.cmdMain (Instr.linkUp dt p rxVar).wellFormed dt (fun s => s.linkUpDue p rxVar)

/-- `LINK_DOWN` (R52). The candidate state has been lost for the DOWN debounce, and LINK falls. -/
def execLinkDown (dt : Nat) (p : Nat) (s : State) : Host.Outcome State Fault Refusal :=
  s.cmdMain (Instr.linkDown dt p).wellFormed dt (fun s => (s.linkDownDue p).modeNext p)

/-- `HOLD_EXPIRE` (R238). The elapsed time reaches HOLD_MS with the port still down. The queued frames are doomed and the state goes to FLUSH. -/
def execHoldExpire (dt : Nat) (p : Nat) (s : State) : Host.Outcome State Fault Refusal :=
  s.cmdMain (Instr.holdExpire dt p).wellFormed dt (fun s => s.holdExpire p)

/-- `SELECT_FRAME` (R275). A port's selection engine walks the hierarchy to a leaf and deducts the shapers and deficits on the path. -/
def execSelectFrame (dt : Nat) (p : Nat) (s : State) : Host.Outcome State Fault Refusal :=
  s.cmdMain (Instr.selectFrame dt p).wellFormed dt (fun s => s.select p)

/-- `DOOMED_DISCARD` (R239). A doomed frame reaches the head of its egress queue and is discarded without transmission. -/
def execDoomedDiscard (dt : Nat) (q : Nat) (s : State) : Host.Outcome State Fault Refusal :=
  s.cmdMain (Instr.doomedDiscard dt q).wellFormed dt (fun s => s.doomedDiscard q)

/-- `LAUNCH_FAR` (R316). A frame whose launch time lies more than MAX_S ahead reaches its queue head and is discarded. -/
def execLaunchFar (dt : Nat) (q : Nat) (s : State) : Host.Outcome State Fault Refusal :=
  s.cmdMain (Instr.launchFar dt q).wellFormed dt (fun s => s.launchFarDiscard q)

/-- `GATE_OVERSIZE` (R320). A head frame too long for every gate window of its class is discarded. -/
def execGateOversize (dt : Nat) (q : Nat) (s : State) : Host.Outcome State Fault Refusal :=
  s.cmdMain (Instr.gateOversize dt q).wellFormed dt (fun s => s.gateDiscard q)

/-- `LAUNCH_TIME_REACHED` (R317). The counter reaches the launch time T, and the MAC starts the held frame. -/
def execLaunchTimeReached (dt : Nat) (p : Nat) (s : State) : Host.Outcome State Fault Refusal :=
  s.cmdMain (Instr.launchTimeReached dt p).wellFormed dt (fun s => s.txAdvance p)

/-- `TX_LAST_BYTE` (R212). The last byte of a frame crosses the MAC. The frame is counted and its reference is released. -/
def execTxLastByte (dt : Nat) (p : Nat) (s : State) : Host.Outcome State Fault Refusal :=
  s.cmdMain (Instr.txLastByte dt p).wellFormed dt (fun s => ((s.txLast p).modeNext p).loopFeed p)

/-- `BLOCK_LOCK_GAINED` (R52). Signal, block lock and alignment-marker lock are regained and HI_BER clears on a port's active lanes, so the port becomes a candidate for up and its UP debounce starts. -/
def execBlockLockGained (dt : Nat) (p : Nat) (s : State) : Host.Outcome State Fault Refusal :=
  s.cmdMain (Instr.blockLockGained dt p).wellFormed dt (fun s => s.onPort p (fun s => s.lockGained p))

/-- `REMOTE_FAULT` (R52). A local or remote fault begins or ends on an Ethernet port, which removes or restores the candidate state and raises PT_INT_STATUS.REMOTE_FAULT when a remote fault begins. -/
def execRemoteFault (dt : Nat) (p : Nat) (near : Bool) (begins : Bool) (s : State) : Host.Outcome State Fault Refusal :=
  s.cmdMain (Instr.remoteFault dt p near begins).wellFormed dt (fun s => s.onPort p (fun s => s.faultSeen p near begins))

end Sys2Proof.Machine
end

