-- ==== Sys2Proof/Machine/Rings.lean ====
section
/-!
DEFINITION. The meanings of the rows: The host interface (chapter 13).
-/
namespace Sys2Proof.Machine

/-- `FLR` (R365). A function-level reset disables all rings, resets the HI_ registers and discards the unadmitted jobs. -/
def execFlr (dt : Nat) (s : State) : Host.Outcome State Fault Refusal :=
  s.cmdMain (Instr.flr dt).wellFormed dt (fun s => s.onPcie (fun s => s.flr orgPcie))

/-- `VEC_EOI` (R367). A write to HI_VEC_EOI re-arms a vector, which signals again if it is still raised. -/
def execVecEoi (dt : Nat) (v : Nat) (s : State) : Host.Outcome State Fault Refusal :=
  s.cmdMain (Instr.vecEoi dt v).wellFormed dt (fun s => s.vecEoi v)

/-- `RING_ENABLE` (R369). A write that sets HI_RING_CFG.EN enables the ring, or refuses it with CFG_ERR. -/
def execRingEnable (dt : Nat) (ini : Initiator) (r : Nat) (cfg : Word) (s : State) : Host.Outcome State Fault Refusal :=
  s.cmdAon (Instr.ringEnable dt ini r cfg).wellFormed dt (fun s => s.onBus ini (Reg.HI_RING_CFG r) (fun s => s.ringCfgWrite (Initiator.origin ini) r 0xFFFFFFFF (w32 (setBits cfg.toNat 31 1 1))))

/-- `RING_DISABLE` (R392). Clearing EN shuts a ring down and completes its outstanding jobs ABORTED. -/
def execRingDisable (dt : Nat) (ini : Initiator) (r : Nat) (s : State) : Host.Outcome State Fault Refusal :=
  s.cmdAon (Instr.ringDisable dt ini r).wellFormed dt (fun s => s.onBus ini (Reg.HI_RING_CFG r) (fun s => s.ringCfgWrite (Initiator.origin ini) r 0x80000000 0))

/-- `RING_RESET` (R392). A write of HI_RING_CTRL.RESET shuts the ring down and re-enables it. -/
def execRingReset (dt : Nat) (ini : Initiator) (r : Nat) (s : State) : Host.Outcome State Fault Refusal :=
  s.cmdAon (Instr.ringReset dt ini r).wellFormed dt (fun s => s.onBus ini (Reg.HI_RING_CTRL r) (fun s => s.ringReset (Initiator.origin ini) r))

/-- `RING_IDLE` (R392). The last shutdown completion is written, and the ring goes to IDLE. -/
def execRingIdle (dt : Nat) (r : Nat) (s : State) : Host.Outcome State Fault Refusal :=
  s.cmdMain (Instr.ringIdle dt r).wellFormed dt (fun s => s.ringIdle_ r)

/-- `DOORBELL` (R371). A doorbell write carries a new tail or head, which the device accepts or ignores. -/
def execDoorbell (dt : Nat) (offset : Nat) (nbytes : Nat) (value : BitVec 64) (s : State) : Host.Outcome State Fault Refusal :=
  s.cmdMain (Instr.doorbell dt offset nbytes value).wellFormed dt (fun s => s.onPcie (fun s => s.bar2Write offset nbytes value.toNat))

/-- `RING_ABORT` (R391). A write of HI_RING_ABORT aborts the job containing INDEX, or reports why not. -/
def execRingAbort (dt : Nat) (r : Nat) (index : Nat) (s : State) : Host.Outcome State Fault Refusal :=
  s.cmdMain (Instr.ringAbort dt r index).wellFormed dt (fun s => s.ringAbort r index)

/-- `ENTRY_READ` (R372). The device reads submission entries between its head and the tail. -/
def execEntryRead (dt : Nat) (r : Nat) (words : List Word) (payload : List Byte) (s : State) : Host.Outcome State Fault Refusal :=
  s.cmdMain (Instr.entryRead dt r words payload).wellFormed dt (fun s => s.entryRead r words payload)

/-- `CHAIN_TIMEOUT` (R375). A parked open chain reaches HI_RING_CHAIN_TO and completes CHAIN_TIMEOUT. -/
def execChainTimeout (dt : Nat) (r : Nat) (s : State) : Host.Outcome State Fault Refusal :=
  s.cmdMain (Instr.chainTimeout dt r).wellFormed dt (fun s => s.chainTimeout r)

/-- `TX_FETCH` (R383). A TX job's frame is fetched into cells and sent into its pipeline. -/
def execTxFetch (dt : Nat) (r : Nat) (bytes : List Byte) (s : State) : Host.Outcome State Fault Refusal :=
  s.cmdMain (Instr.txFetch dt r bytes).wellFormed dt (fun s => s.txFetch r bytes)

/-- `DMA_ERR` (R364). A failed or timed-out DMA read fails its job with DMA_ERR. -/
def execDmaErr (dt : Nat) (err : ReadErr) (s : State) : Host.Outcome State Fault Refusal :=
  s.cmdMain (Instr.dmaErr dt err).wellFormed dt (fun s => s.dmaErr err.ring err.words)

/-- `COMPLETION_WRITE` (R377). A completion record is written to its CQ when room is available. -/
def execCompletionWrite (dt : Nat) (cq : Nat) (s : State) : Host.Outcome State Fault Refusal :=
  s.cmdMain (Instr.completionWrite dt cq).wellFormed dt (fun s => s.completionWrite cq)

/-- `CQ_MOD_TIMEOUT` (R380). MOD_US passes since the first unsignalled entry, and the CQ sends its MSI-X message. -/
def execCqModTimeout (dt : Nat) (cq : Nat) (s : State) : Host.Outcome State Fault Refusal :=
  s.cmdMain (Instr.cqModTimeout dt cq).wellFormed dt (fun s => s.cqTimeout cq)

/-- `RX_COPY_WRITE` (R386). A copy to processor or a mirror copy is written into RX buffers with its record, or lost. -/
def execRxCopyWrite (dt : Nat) (i : Nat) (s : State) : Host.Outcome State Fault Refusal :=
  s.cmdMain (Instr.rxCopyWrite dt i).wellFormed dt (fun s => s.rxCopy i)

/-- `IMAGE_LOAD_APPLY` (R445). An IMAGE_LOAD with MODE APPLY boots from the image or live-reloads it. -/
def execImageLoadApply (dt : Nat) (r : Nat) (tag : Nat) (image : List Byte) (s : State) : Host.Outcome State Fault Refusal :=
  s.cmdMain (Instr.imageLoadApply dt r tag image).wellFormed dt (fun s => s.loadApply r tag image)

/-- `IMAGE_LOAD_VERIFY` (R445). An IMAGE_LOAD with MODE VERIFY runs checks 1–18 only. -/
def execImageLoadVerify (dt : Nat) (r : Nat) (tag : Nat) (image : List Byte) (s : State) : Host.Outcome State Fault Refusal :=
  s.cmdMain (Instr.imageLoadVerify dt r tag image).wellFormed dt (fun s => s.loadVerify r tag image)

/-- `IMAGE_LOAD_FLASH` (R445). An IMAGE_LOAD with MODE FLASH verifies the image, writes it to a flash slot and reads it back. -/
def execImageLoadFlash (dt : Nat) (r : Nat) (tag : Nat) (image : List Byte) (seen : FlashSeen) (s : State) : Host.Outcome State Fault Refusal :=
  s.cmdMain (Instr.imageLoadFlash dt r tag image seen).wellFormed dt (fun s => s.loadFlash r tag image seen.seq0 seen.seq1 seen.readBackOk)

/-- `ATTEST` (R468). An ATTEST job writes a signed report bound to its nonce. -/
def execAttest (dt : Nat) (r : Nat) (s : State) : Host.Outcome State Fault Refusal :=
  s.cmdMain (Instr.attest dt r).wellFormed dt (fun s => s.attest r)

end Sys2Proof.Machine
end

