-- ==== Sys2Proof/Machine/System.lean ====
section
/-!
DEFINITION. The meanings of the rows: Boot, Signet, Loupe, power states, resets and the I²C slave (chapters 15 to 17).
-/
namespace Sys2Proof.Machine

/-- `BOOT_RELEASE` (R441). A write of GL_BOOT_CTRL.RELEASE in HELD continues the boot from flash. -/
def execBootRelease (dt : Nat) (s : State) : Host.Outcome State Fault Refusal :=
  s.cmdMain (Instr.bootRelease dt).wellFormed dt (fun s => s.bootRelease)

/-- `BOOT_ROM_DONE` (R443). Signet ROM finishes its checks and the boot source is read. -/
def execBootRomDone (dt : Nat) (s : State) : Host.Outcome State Fault Refusal :=
  s.cmdMain (Instr.bootRomDone dt).wellFormed dt (fun s => s.romDone)

/-- `FLASH_READ_DONE` (R442). A flash slot's image has been read, and its verification follows. -/
def execFlashReadDone (dt : Nat) (slot0 : List Byte) (slot1 : List Byte) (s : State) : Host.Outcome State Fault Refusal :=
  s.cmdMain (Instr.flashReadDone dt slot0 slot1).wellFormed dt (fun s => s.flashRead slot0 slot1)

/-- `VERIFY_DONE` (R440). Image verification ends, and the device applies the image or reports the failing check. -/
def execVerifyDone (dt : Nat) (s : State) : Host.Outcome State Fault Refusal :=
  s.cmdMain (Instr.verifyDone dt).wellFormed dt (fun s => s.verifyDone)

/-- `DOMAINS_DONE` (R443). The enabled islands are powered, their PLLs lock and their domains leave reset. -/
def execDomainsDone (dt : Nat) (s : State) : Host.Outcome State Fault Refusal :=
  s.cmdMain (Instr.domainsDone dt).wellFormed dt (fun s => s.domainsDone)

/-- `DEFAULTS_DONE` (R443). The DEFAULTS records are applied and the boot commit is made. -/
def execDefaultsDone (dt : Nat) (s : State) : Host.Outcome State Fault Refusal :=
  s.cmdMain (Instr.defaultsDone dt).wellFormed dt (fun s => s.defaultsDone)

/-- `SELFTEST_DONE` (R443). The bank self-test completes and boot proceeds to FOUNDRY and CAL. -/
def execSelftestDone (dt : Nat) (failing : Word) (s : State) : Host.Outcome State Fault Refusal :=
  s.cmdMain (Instr.selftestDone dt failing).wellFormed dt (fun s => s.selftestDone failing)

/-- `TOKEN` (R462). An SG_CMD TOKEN checks the token in the buffer and acts on its KIND. -/
def execToken (dt : Nat) (ini : Initiator) (fuseOk : Bool) (s : State) : Host.Outcome State Fault Refusal :=
  s.cmdAon (Instr.token dt ini fuseOk).wellFormed dt (fun s => s.onSg ini 0 (fun s => s.sgGo ini 0 fuseOk))

/-- `ADVANCE_SVN` (R459). An SG_CMD ADVANCE_SVN blows fuse bits up to the image's SVN. -/
def execAdvanceSvn (dt : Nat) (ini : Initiator) (fuseOk : Bool) (s : State) : Host.Outcome State Fault Refusal :=
  s.cmdAon (Instr.advanceSvn dt ini fuseOk).wellFormed dt (fun s => s.onSg ini 1 (fun s => s.sgGo ini 1 fuseOk))

/-- `DEBUG_END` (R481). An SG_CMD DEBUG_END ends Observe or Inspect. -/
def execDebugEnd (dt : Nat) (ini : Initiator) (s : State) : Host.Outcome State Fault Refusal :=
  s.cmdAon (Instr.debugEnd dt ini).wellFormed dt (fun s => s.onSg ini 2 (fun s => s.sgGo ini 2 true))

/-- `OBSERVE_WRITE` (R464). A write of SG_OBSERVE.EN enters or ends Observe. -/
def execObserveWrite (dt : Nat) (v : Bool) (s : State) : Host.Outcome State Fault Refusal :=
  s.cmdMain (Instr.observeWrite dt v).wellFormed dt (fun s => s.observeWrite orgPcie v)

/-- `INSPECT_EXPIRE` (R464). An Inspect session's DURATION runs out and the level falls to None. -/
def execInspectExpire (dt : Nat) (s : State) : Host.Outcome State Fault Refusal :=
  s.cmdMain (Instr.inspectExpire dt).wellFormed dt (fun s => s.inspectExpire)

/-- `TRACE_POP` (R483). A write of DB_TRACE_STAT.POP discards the oldest trace entry. -/
def execTracePop (dt : Nat) (s : State) : Host.Outcome State Fault Refusal :=
  s.cmdMain (Instr.tracePop dt).wellFormed dt (fun s => s.tracePop)

/-- `SNAP` (R467). A write of DB_SNAP_CTRL.GO copies a counter window into DB_SNAP_BUF. -/
def execSnap (dt : Nat) (window : Nat) (s : State) : Host.Outcome State Fault Refusal :=
  s.cmdMain (Instr.snap dt window).wellFormed dt (fun s => s.snapGo window)

/-- `TARGET_FULL` (R473). A write of PW_CTRL.TARGET FULL lifts every Doze measure. -/
def execTargetFull (dt : Nat) (s : State) : Host.Outcome State Fault Refusal :=
  s.cmdAon (Instr.targetFull dt).wellFormed dt (fun s => s.targetWrite 0)

/-- `TARGET_DOZE` (R473). A write of PW_CTRL.TARGET DOZE enables the Doze measures. -/
def execTargetDoze (dt : Nat) (s : State) : Host.Outcome State Fault Refusal :=
  s.cmdAon (Instr.targetDoze dt).wellFormed dt (fun s => s.targetWrite 1)

/-- `TARGET_KEEP` (R476). A write of PW_CTRL.TARGET KEEP closes the receive paths, releases the lease and ends debug sessions. -/
def execTargetKeep (dt : Nat) (s : State) : Host.Outcome State Fault Refusal :=
  s.cmdAon (Instr.targetKeep dt).wellFormed dt (fun s => s.targetWrite 2)

/-- `KEEP_READY` (R476). No fuse, token or ATTEST work remains, and KEEP_READY is set. -/
def execKeepReady (dt : Nat) (s : State) : Host.Outcome State Fault Refusal :=
  s.cmdMain (Instr.keepReady dt).wellFormed dt (fun s => s.keepReady)

/-- `PG_GATE` (R474). A drop group has been idle for PG_IDLE_US in Doze, and its MAC client path is gated. -/
def execPgGate (dt : Nat) (g : Nat) (s : State) : Host.Outcome State Fault Refusal :=
  s.cmdMain (Instr.pgGate dt g).wellFormed dt (fun s => s.pgGate g)

/-- `PG_WAKE` (R474). A received frame or a selection starts the wake of a gated group. -/
def execPgWake (dt : Nat) (g : Nat) (s : State) : Host.Outcome State Fault Refusal :=
  s.cmdMain (Instr.pgWake dt g).wellFormed dt (fun s => s.pgWake g)

/-- `WAKE_DONE` (R475). The group's wake completes, and the wake buffer drains to the pipeline. -/
def execWakeDone (dt : Nat) (g : Nat) (s : State) : Host.Outcome State Fault Refusal :=
  s.cmdMain (Instr.wakeDone dt g).wellFormed dt (fun s => s.wakeDone g)

/-- `LANE1_SLEEP` (R474). Packet lane 1 has been idle for LANE_IDLE_US and sleeps. -/
def execLane1Sleep (dt : Nat) (i : Nat) (s : State) : Host.Outcome State Fault Refusal :=
  s.cmdMain (Instr.lane1Sleep dt i).wellFormed dt (fun s => s.laneSleep i)

/-- `LANE1_WAKE` (R474). The pipeline's input backlog reaches LANE_WAKE, and packet lane 1 wakes. -/
def execLane1Wake (dt : Nat) (i : Nat) (backlog : Nat) (s : State) : Host.Outcome State Fault Refusal :=
  s.cmdMain (Instr.lane1Wake dt i backlog).wellFormed dt (fun s => s.laneBacklog i backlog)

/-- `BANK_RETENTION` (R474). A bank has held no USED cell for BANK_IDLE_US and enters retention. -/
def execBankRetention (dt : Nat) (b : Nat) (s : State) : Host.Outcome State Fault Refusal :=
  s.cmdMain (Instr.bankRetention dt b).wellFormed dt (fun s => s.bankRetain b)

/-- `MAIN_LOST` (R477). Loss of the main rails puts the device in Keep, and MAIN_LOST is raised. -/
def execMainLost (dt : Nat) (s : State) : Host.Outcome State Fault Refusal :=
  s.cmd (Instr.mainLost dt).wellFormed dt (fun s => s.mainLost)

/-- `VAON_LOSS` (R495). Loss of VAON stops forwarding, sets every output to high impedance and puts the device Off. -/
def execVaonLoss (dt : Nat) (s : State) : Host.Outcome State Fault Refusal :=
  s.cmd (Instr.vaonLoss dt).wellFormed dt (fun s => s.vaonLoss)

/-- `POWER_ON` (R452). VAON rises, the fuses are read and the identity key is derived. -/
def execPowerOn (dt : Nat) (s : State) : Host.Outcome State Fault Refusal :=
  s.cmd (Instr.powerOn dt).wellFormed dt (fun s => s.powerOn)

/-- `AON_RST_FALL` (R496). AON_RST_N held low resets the AON island and holds every other island in reset. -/
def execAonRstFall (dt : Nat) (s : State) : Host.Outcome State Fault Refusal :=
  s.cmd (Instr.aonRstFall dt).wellFormed dt (fun s => s.aonFall)

/-- `AON_RST_RISE` (R496). AON_RST_N rises and I2C_ADDR is sampled. -/
def execAonRstRise (dt : Nat) (i2cAddr : Nat) (s : State) : Host.Outcome State Fault Refusal :=
  s.cmd (Instr.aonRstRise dt i2cAddr).wellFormed dt (fun s => s.aonRise i2cAddr)

/-- `AON_READY` (R500). 20 ms after AON_RST_N rises, the AON island is ready and SG_STATUS is set. -/
def execAonReady (dt : Nat) (s : State) : Host.Outcome State Fault Refusal :=
  s.cmdAon (Instr.aonReady dt).wellFormed dt (fun s => s.aonIsReady)

/-- `SYS_RST_FALL` (R496). SYS_RST_N low resets every island but AON and releases the lease. -/
def execSysRstFall (dt : Nat) (s : State) : Host.Outcome State Fault Refusal :=
  s.cmd (Instr.sysRstFall dt).wellFormed dt (fun s => s.sysFall)

/-- `SYS_RST_RISE` (R496). SYS_RST_N rises, BOOT_SRC is sampled and the boot starts. -/
def execSysRstRise (dt : Nat) (bootSrc : Nat) (s : State) : Host.Outcome State Fault Refusal :=
  s.cmd (Instr.sysRstRise dt bootSrc).wellFormed dt (fun s => s.sysRise bootSrc)

/-- `PERST` (R496). PERST_N resets the PCIe endpoint and handles the rings as an FLR. -/
def execPerst (dt : Nat) (rising : Bool) (s : State) : Host.Outcome State Fault Refusal :=
  s.cmd (Instr.perst dt rising).wellFormed dt (fun s => s.perst rising)

/-- `I2C_WRITE` (R501). An I²C write transaction writes one BAR0 word. -/
def execI2cWrite (dt : Nat) (dev : Nat) (addr : Nat) (value : Word) (lost : Bool) (s : State) : Host.Outcome State Fault Refusal :=
  s.cmd (Instr.i2cWrite dt dev addr value lost).wellFormed dt (fun s => (s.i2cWrite dev addr value lost).afterStep)

/-- `I2C_READ` (R501). An I²C read transaction reads one BAR0 word and returns its STATUS. -/
def execI2cRead (dt : Nat) (dev : Nat) (addr : Nat) (lost : Bool) (s : State) : Host.Outcome State Fault Refusal :=
  s.cmd (Instr.i2cRead dt dev addr lost).wellFormed dt (fun s => s.i2cRead dev addr lost)

/-- `I2C_STATUS` (R502). An I²C status read returns the STATUS of the last access. -/
def execI2cStatus (dt : Nat) (dev : Nat) (s : State) : Host.Outcome State Fault Refusal :=
  s.cmd (Instr.i2cStatus dt dev).wellFormed dt (fun s => s.i2cStatus dev)

/-- `MAIN_RAILS_RETURN` (R478). The main rails come back while VAON is present, and PW_STATUS.MAIN_OK goes to 1 before SYS_RST_N releases the boot. -/
def execMainRailsReturn (dt : Nat) (s : State) : Host.Outcome State Fault Refusal :=
  s.cmd (Instr.mainRailsReturn dt).wellFormed dt (fun s => s.railsReturn)

end Sys2Proof.Machine
end

