-- ==== Sys2Proof/Machine/Table.lean ====
section
/-!
DEFINITION. The meanings of the rows: Filigree, patterns and table commands (chapters 5 and 6).
-/
namespace Sys2Proof.Machine

/-- `FG_READ` (R135). An LP_FG_CMD READ returns a Filigree entry to the staging registers. -/
def execFgRead (dt : Nat) (ini : Initiator) (k : Nat) (index : Nat) (bcast : Bool) (s : State) : Host.Outcome State Fault Refusal :=
  s.cmdAon (Instr.fgRead dt ini k index bcast).wellFormed dt (fun s => s.onBus ini (Reg.LP_FG_CMD k) (fun s => s.onPlane k (fun s => s.fgGo (Initiator.origin ini) k (planeWrite 0 index bcast))))

/-- `FG_WRITE` (R135). An LP_FG_CMD WRITE loads an entry and sets it valid. -/
def execFgWrite (dt : Nat) (ini : Initiator) (k : Nat) (index : Nat) (bcast : Bool) (s : State) : Host.Outcome State Fault Refusal :=
  s.cmdAon (Instr.fgWrite dt ini k index bcast).wellFormed dt (fun s => s.onBus ini (Reg.LP_FG_CMD k) (fun s => s.onPlane k (fun s => s.fgGo (Initiator.origin ini) k (planeWrite 1 index bcast))))

/-- `FG_INVALIDATE` (R135). An LP_FG_CMD INVALIDATE clears an entry's valid bit. -/
def execFgInvalidate (dt : Nat) (ini : Initiator) (k : Nat) (index : Nat) (bcast : Bool) (s : State) : Host.Outcome State Fault Refusal :=
  s.cmdAon (Instr.fgInvalidate dt ini k index bcast).wellFormed dt (fun s => s.onBus ini (Reg.LP_FG_CMD k) (fun s => s.onPlane k (fun s => s.fgGo (Initiator.origin ini) k (planeWrite 2 index bcast))))

/-- `PATTERN_READ` (R147). An LP_PM_CMD READ returns a payload pattern. -/
def execPatternRead (dt : Nat) (ini : Initiator) (k : Nat) (index : Nat) (bcast : Bool) (s : State) : Host.Outcome State Fault Refusal :=
  s.cmdAon (Instr.patternRead dt ini k index bcast).wellFormed dt (fun s => s.onBus ini (Reg.LP_PM_CMD k) (fun s => s.onPlane k (fun s => s.patGo (Initiator.origin ini) k (planeWrite 0 index bcast))))

/-- `PATTERN_WRITE` (R147). An LP_PM_CMD WRITE loads a payload pattern. -/
def execPatternWrite (dt : Nat) (ini : Initiator) (k : Nat) (index : Nat) (bcast : Bool) (s : State) : Host.Outcome State Fault Refusal :=
  s.cmdAon (Instr.patternWrite dt ini k index bcast).wellFormed dt (fun s => s.onBus ini (Reg.LP_PM_CMD k) (fun s => s.onPlane k (fun s => s.patGo (Initiator.origin ini) k (planeWrite 1 index bcast))))

/-- `PATTERN_INVALIDATE` (R147). An LP_PM_CMD INVALIDATE clears a pattern's valid bit. -/
def execPatternInvalidate (dt : Nat) (ini : Initiator) (k : Nat) (index : Nat) (bcast : Bool) (s : State) : Host.Outcome State Fault Refusal :=
  s.cmdAon (Instr.patternInvalidate dt ini k index bcast).wellFormed dt (fun s => s.onBus ini (Reg.LP_PM_CMD k) (fun s => s.onPlane k (fun s => s.patGo (Initiator.origin ini) k (planeWrite 2 index bcast))))

/-- `INSERT` (R178). A table command INSERT writes a MAC entry or an indexed entry. -/
def execTblInsert (dt : Nat) (ini : Initiator) (k : Nat) (args : TblArgs) (s : State) : Host.Outcome State Fault Refusal :=
  s.cmdAon (Instr.tblInsert dt ini k args).wellFormed dt (fun s => s.onBus ini (Reg.LP_TBL_GO k) (fun s => s.onPlane k (fun s => s.tblCommand (Initiator.origin ini) k 1 args)))

/-- `DELETE` (R178). A table command DELETE removes a MAC key or resets an indexed entry. -/
def execTblDelete (dt : Nat) (ini : Initiator) (k : Nat) (args : TblArgs) (s : State) : Host.Outcome State Fault Refusal :=
  s.cmdAon (Instr.tblDelete dt ini k args).wellFormed dt (fun s => s.onBus ini (Reg.LP_TBL_GO k) (fun s => s.onPlane k (fun s => s.tblCommand (Initiator.origin ini) k 2 args)))

/-- `SEARCH` (R178). A table command SEARCH returns an entry. -/
def execTblSearch (dt : Nat) (ini : Initiator) (k : Nat) (args : TblArgs) (s : State) : Host.Outcome State Fault Refusal :=
  s.cmdAon (Instr.tblSearch dt ini k args).wellFormed dt (fun s => s.onBus ini (Reg.LP_TBL_GO k) (fun s => s.onPlane k (fun s => s.tblCommand (Initiator.origin ini) k 3 args)))

/-- `NEXT` (R180). A table command NEXT scans from the cursor for the next qualifying entry. -/
def execTblNext (dt : Nat) (ini : Initiator) (k : Nat) (args : TblArgs) (s : State) : Host.Outcome State Fault Refusal :=
  s.cmdAon (Instr.tblNext dt ini k args).wellFormed dt (fun s => s.onBus ini (Reg.LP_TBL_GO k) (fun s => s.onPlane k (fun s => s.tblCommand (Initiator.origin ini) k 4 args)))

/-- `FLUSH_BY_PORT` (R181). A table command FLUSH_BY_PORT deletes the qualifying MAC entries for a DEST. -/
def execFlushByPort (dt : Nat) (ini : Initiator) (k : Nat) (args : TblArgs) (s : State) : Host.Outcome State Fault Refusal :=
  s.cmdAon (Instr.flushByPort dt ini k args).wellFormed dt (fun s => s.onBus ini (Reg.LP_TBL_GO k) (fun s => s.onPlane k (fun s => s.tblCommand (Initiator.origin ini) k 5 args)))

/-- `FLUSH_ALL` (R181). A table command FLUSH_ALL deletes every qualifying MAC entry. -/
def execFlushAll (dt : Nat) (ini : Initiator) (k : Nat) (args : TblArgs) (s : State) : Host.Outcome State Fault Refusal :=
  s.cmdAon (Instr.flushAll dt ini k args).wellFormed dt (fun s => s.onBus ini (Reg.LP_TBL_GO k) (fun s => s.onPlane k (fun s => s.tblCommand (Initiator.origin ini) k 6 args)))

/-- `LEARN_SERVE` (R172). A queued learn request is served when a token is available, and inserts a dynamic entry. -/
def execLearnServe (dt : Nat) (k : Nat) (s : State) : Host.Outcome State Fault Refusal :=
  s.cmdMain (Instr.learnServe dt k).wellFormed dt (fun s => s.onPlane k (fun s => s.learnServe k))

/-- `LEARN_RATE_WRITE` (R172). A write of LP_LEARN_RATE clips the tokens to the new BURST, and tokens accrue at the new RATE. -/
def execLearnRateWrite (dt : Nat) (k : Nat) (v : Word) (s : State) : Host.Outcome State Fault Refusal :=
  s.cmdMain (Instr.learnRateWrite dt k v).wellFormed dt (fun s => s.onPlane k (fun s => s.learnRateWrite k v))

/-- `AGING_SWEEP` (R173). The PERIOD timer starts a sweep that ages or deletes the dynamic MAC entries. -/
def execAgingSweep (dt : Nat) (k : Nat) (s : State) : Host.Outcome State Fault Refusal :=
  s.cmdMain (Instr.agingSweep dt k).wellFormed dt (fun s => s.onPlane k (fun s => s.agingSweep k))

/-- `AGE_PERIOD_WRITE` (R173). A write of LP_AGE_CTRL.PERIOD takes effect at once and restarts the sweep timing. -/
def execAgePeriodWrite (dt : Nat) (k : Nat) (v : Word) (s : State) : Host.Outcome State Fault Refusal :=
  s.cmdMain (Instr.agePeriodWrite dt k v).wellFormed dt (fun s => s.onPlane k (fun s => s.agePeriodWrite k v))

end Sys2Proof.Machine
end

