-- ==== Sys2Proof/Machine/Time.lean ====
section
/-!
DEFINITION. The meanings of the rows: Hallmark (chapter 11).
-/
namespace Sys2Proof.Machine

/-- `ADDEND_WRITE` (R297). A write of the high word of HM_ADDEND applies the addend at the next tick. -/
def execAddendWrite (dt : Nat) (v : BitVec 40) (s : State) : Host.Outcome State Fault Refusal :=
  s.cmdAon (Instr.addendWrite dt v).wellFormed dt (fun s => s.addendCommand v)

/-- `TIME_SET` (R298). An HM_SET_CTRL SET loads HM_SET into the counter as a step. -/
def execTimeSet (dt : Nat) (sec : Nat) (ns : Nat) (frac : Nat) (s : State) : Host.Outcome State Fault Refusal :=
  s.cmdAon (Instr.timeSet dt sec ns frac).wellFormed dt (fun s => (s.putHmSet sec ns frac).hmSetGo 0)

/-- `TIME_ADD` (R298). An HM_SET_CTRL ADD adds HM_SET to the counter as a step. -/
def execTimeAdd (dt : Nat) (sec : Nat) (ns : Nat) (frac : Nat) (s : State) : Host.Outcome State Fault Refusal :=
  s.cmdAon (Instr.timeAdd dt sec ns frac).wellFormed dt (fun s => (s.putHmSet sec ns frac).hmSetGo 1)

/-- `TIME_SUB` (R298). An HM_SET_CTRL SUB subtracts HM_SET from the counter as a step. -/
def execTimeSub (dt : Nat) (sec : Nat) (ns : Nat) (frac : Nat) (s : State) : Host.Outcome State Fault Refusal :=
  s.cmdAon (Instr.timeSub dt sec ns frac).wellFormed dt (fun s => (s.putHmSet sec ns frac).hmSetGo 2)

/-- `COUNTER_BROADCAST` (R300). At each seconds carry the main counter is broadcast, and every copy is realigned to it. -/
def execCounterBroadcast (dt : Nat) (s : State) : Host.Outcome State Fault Refusal :=
  s.cmdAon (Instr.counterBroadcast dt).wellFormed dt (fun s => s.broadcast)

/-- `SW_OFFSET_SAMPLE` (R304). A write of word 1 of HM_SW_OFFSET submits one software servo sample. -/
def execSwOffsetSample (dt : Nat) (ns : BitVec 32) (frac : Nat) (s : State) : Host.Outcome State Fault Refusal :=
  s.cmdAon (Instr.swOffsetSample dt ns frac).wellFormed dt (fun s => s.swCommand ns frac)

/-- `CRF_SAMPLE` (R304). Anvil completes the mean of 2^AVG CRF offsets as one servo sample. -/
def execCrfSample (dt : Nat) (s : State) : Host.Outcome State Fault Refusal :=
  s.cmdMain (Instr.crfSample dt).wellFormed dt (fun s => s.crfMean)

/-- `PPS_IN_EDGE` (R304). A captured rising edge on PPS_IN gives a servo sample. -/
def execPpsInEdge (dt : Nat) (s : State) : Host.Outcome State Fault Refusal :=
  s.cmdAon (Instr.ppsInEdge dt).wellFormed dt (fun s => s.ppsIn)

/-- `SERVO_ENABLE` (R303). Setting HM_SERVO_CTRL.EN moves the servo from FREERUN to ACQUIRE. -/
def execServoEnable (dt : Nat) (s : State) : Host.Outcome State Fault Refusal :=
  s.cmdAon (Instr.servoEnable dt).wellFormed dt (fun s => s.servoEn 1)

/-- `SERVO_DISABLE` (R303). Clearing EN returns the servo to FREERUN with HM_ADDEND active. -/
def execServoDisable (dt : Nat) (s : State) : Host.Outcome State Fault Refusal :=
  s.cmdAon (Instr.servoDisable dt).wellFormed dt (fun s => s.servoEn 0)

/-- `SRC_LOST` (R303). No sample arrives for TIMEOUT, and the servo goes to HOLDOVER. -/
def execSrcLost (dt : Nat) (s : State) : Host.Outcome State Fault Refusal :=
  s.cmdAon (Instr.srcLost dt).wellFormed dt (fun s => s.srcLost)

/-- `SERVO_SRC_WRITE` (R303). A write of SRC or CRF_PORT puts the servo in HOLDOVER. -/
def execServoSrcWrite (dt : Nat) (src : Nat) (crfPort : Nat) (s : State) : Host.Outcome State Fault Refusal :=
  s.cmdAon (Instr.servoSrcWrite dt src crfPort).wellFormed dt (fun s => s.servoSrcWrite src crfPort)

/-- `PPS_OUT_RISE` (R312). The counter reaches s + HM_PPS_OUT_OFS, and PPS_OUT rises. -/
def execPpsOutRise (dt : Nat) (s : State) : Host.Outcome State Fault Refusal :=
  s.cmdAon (Instr.ppsOutRise dt).wellFormed dt (fun s => s.ppsRise)

/-- `PPS_OUT_FALL` (R312). OUT_WIDTH elapses, and PPS_OUT falls. -/
def execPpsOutFall (dt : Nat) (s : State) : Host.Outcome State Fault Refusal :=
  s.cmdAon (Instr.ppsOutFall dt).wellFormed dt (fun s => s.ppsFallDue)

/-- `TOD_TX` (R313). TOD_TX sends the second's 16-byte ToD message. -/
def execTodTx (dt : Nat) (s : State) : Host.Outcome State Fault Refusal :=
  s.cmdAon (Instr.todTx dt).wellFormed dt (fun s => s.todSend)

/-- `TOD_RX` (R314). A ToD message received on TOD_RX is checked and copied, or counted as an error. -/
def execTodRx (dt : Nat) (msg : List Byte) (gap : Bool) (s : State) : Host.Outcome State Fault Refusal :=
  s.cmdAon (Instr.todRx dt msg gap).wellFormed dt (fun s => s.todReceive msg gap)

/-- `EVT_ARM` (R315). A write of ARM schedules an event-pin pulse, or raises EVT_MISS. -/
def execEvtArm (dt : Nat) (i : Nat) (s : State) : Host.Outcome State Fault Refusal :=
  s.cmdAon (Instr.evtArm dt i).wellFormed dt (fun s => s.evtArmRow i)

/-- `EVT_PULSE` (R315). The counter reaches an event pin's edge instant, and the pulse starts. -/
def execEvtPulse (dt : Nat) (i : Nat) (s : State) : Host.Outcome State Fault Refusal :=
  s.cmdAon (Instr.evtPulse dt i).wellFormed dt (fun s => s.evtPulse i)

/-- `EVT_PULSE_END` (R315). WIDTH elapses, and the event-pin pulse ends. -/
def execEvtPulseEnd (dt : Nat) (i : Nat) (s : State) : Host.Outcome State Fault Refusal :=
  s.cmdAon (Instr.evtPulseEnd dt i).wellFormed dt (fun s => s.evtPulseEnd i)

/-- `EVT_CAPTURE` (R315). A selected edge on an input event pin is captured into its FIFO, or lost. -/
def execEvtCapture (dt : Nat) (i : Nat) (rising : Bool) (s : State) : Host.Outcome State Fault Refusal :=
  s.cmdAon (Instr.evtCapture dt i rising).wellFormed dt (fun s => s.evtCapture i rising)

/-- `EVT_CAP_POP` (R315). A write of HM_EVT_CAP_STAT.POP discards the oldest capture. -/
def execEvtCapPop (dt : Nat) (i : Nat) (s : State) : Host.Outcome State Fault Refusal :=
  s.cmdAon (Instr.evtCapPop dt i).wellFormed dt (fun s => s.evtCapPop i)

/-- `EVT_MODE_WRITE` (R315). A write of MODE ends the event pin's pulse train. -/
def execEvtModeWrite (dt : Nat) (i : Nat) (v : Word) (s : State) : Host.Outcome State Fault Refusal :=
  s.cmdAon (Instr.evtModeWrite dt i v).wellFormed dt (fun s => s.evtCtrlWrite i v)

/-- `GATE_EDGE` (R319). A gate calendar moves to its next entry or cycle, and gates open or close. -/
def execGateEdge (dt : Nat) (q : Nat) (s : State) : Host.Outcome State Fault Refusal :=
  s.cmdMain (Instr.gateEdge dt q).wellFormed dt (fun s => s.gateSettle q)

/-- `GATE_CALENDAR_SWITCH` (R321). The first cycle start of the new calendar settings is reached, and the new calendar runs from entry 0. -/
def execGateCalendarSwitch (dt : Nat) (q : Nat) (s : State) : Host.Outcome State Fault Refusal :=
  s.cmdMain (Instr.gateCalendarSwitch dt q).wellFormed dt (fun s => s.gateSettle q)

end Sys2Proof.Machine
end

