-- ==== Sys2Proof/Machine/Dispatch.lean ====
section
/-!
DEFINITION. The one table from commands to their meanings.
-/
namespace Sys2Proof.Machine

def exec (i : Instr) (s : State) : Host.Outcome State Fault Refusal :=
  match i with
  | .portEnable dt p => Sys2Proof.Machine.execPortEnable dt p s
  | .portDisable dt p => Sys2Proof.Machine.execPortDisable dt p s
  | .portDrained dt p => Sys2Proof.Machine.execPortDrained dt p s
  | .anRestart dt p => Sys2Proof.Machine.execAnRestart dt p s
  | .anDone dt p ok => Sys2Proof.Machine.execAnDone dt p ok s
  | .retrain dt p => Sys2Proof.Machine.execRetrain dt p s
  | .ltDone dt rep => Sys2Proof.Machine.execLtDone dt rep s
  | .ltFail dt p => Sys2Proof.Machine.execLtFail dt p s
  | .retryDelay dt p => Sys2Proof.Machine.execRetryDelay dt p s
  | .lpiEntry dt p => Sys2Proof.Machine.execLpiEntry dt p s
  | .lpiWakeDone dt p => Sys2Proof.Machine.execLpiWakeDone dt p s
  | .lpiRx dt p enter => Sys2Proof.Machine.execLpiRx dt p enter s
  | .pauseRx dt p quanta => Sys2Proof.Machine.execPauseRx dt p quanta s
  | .pfcRx dt p enables quanta => Sys2Proof.Machine.execPfcRx dt p enables quanta s
  | .pauseExpire dt p => Sys2Proof.Machine.execPauseExpire dt p s
  | .pauseWd dt p => Sys2Proof.Machine.execPauseWd dt p s
  | .linkUp dt p rxVar => Sys2Proof.Machine.execLinkUp dt p rxVar s
  | .linkDown dt p => Sys2Proof.Machine.execLinkDown dt p s
  | .holdExpire dt p => Sys2Proof.Machine.execHoldExpire dt p s
  | .frameRxEnd dt p bytes cut errs => Sys2Proof.Machine.execFrameRxEnd dt p bytes cut errs s
  | .ingressLookup dt f => Sys2Proof.Machine.execIngressLookup dt f s
  | .stage6Admit dt f lane => Sys2Proof.Machine.execStage6Admit dt f lane s
  | .arbiterCycle dt => Sys2Proof.Machine.execArbiterCycle dt s
  | .egressReplicate dt e => Sys2Proof.Machine.execEgressReplicate dt e s
  | .listManagerCycle dt => Sys2Proof.Machine.execListManagerCycle dt s
  | .selectFrame dt p => Sys2Proof.Machine.execSelectFrame dt p s
  | .doomedDiscard dt q => Sys2Proof.Machine.execDoomedDiscard dt q s
  | .launchFar dt q => Sys2Proof.Machine.execLaunchFar dt q s
  | .gateOversize dt q => Sys2Proof.Machine.execGateOversize dt q s
  | .launchTimeReached dt p => Sys2Proof.Machine.execLaunchTimeReached dt p s
  | .txLastByte dt p => Sys2Proof.Machine.execTxLastByte dt p s
  | .bucketRefill dt kind index => Sys2Proof.Machine.execBucketRefill dt kind index s
  | .cellAlloc dt req => Sys2Proof.Machine.execCellAlloc dt req s
  | .cellRelease dt owner first n => Sys2Proof.Machine.execCellRelease dt owner first n s
  | .cellReleaseDone dt => Sys2Proof.Machine.execCellReleaseDone dt s
  | .cellQuery dt cell => Sys2Proof.Machine.execCellQuery dt cell s
  | .cellCmdAlloc dt pool => Sys2Proof.Machine.execCellCmdAlloc dt pool s
  | .cellFree dt cell => Sys2Proof.Machine.execCellFree dt cell s
  | .cellReclaim dt cell => Sys2Proof.Machine.execCellReclaim dt cell s
  | .poolWmReset dt n => Sys2Proof.Machine.execPoolWmReset dt n s
  | .pmErrPop dt => Sys2Proof.Machine.execPmErrPop dt s
  | .wredSeedWrite dt g seed => Sys2Proof.Machine.execWredSeedWrite dt g seed s
  | .queueDisable dt q => Sys2Proof.Machine.execQueueDisable dt q s
  | .queueDrained dt q => Sys2Proof.Machine.execQueueDrained dt q s
  | .mirrorSessionDisable dt n => Sys2Proof.Machine.execMirrorSessionDisable dt n s
  | .mirrorSessionDrained dt n => Sys2Proof.Machine.execMirrorSessionDrained dt n s
  | .modeReq dt v => Sys2Proof.Machine.execModeReq dt v s
  | .recal dt => Sys2Proof.Machine.execRecal dt s
  | .calComplete dt ok => Sys2Proof.Machine.execCalComplete dt ok s
  | .fenceLiftInward dt q => Sys2Proof.Machine.execFenceLiftInward dt q s
  | .foundryReached dt => Sys2Proof.Machine.execFoundryReached dt s
  | .fenceLiftOutward dt q => Sys2Proof.Machine.execFenceLiftOutward dt q s
  | .voqReached dt => Sys2Proof.Machine.execVoqReached dt s
  | .memReloadApply dt => Sys2Proof.Machine.execMemReloadApply dt s
  | .bankTest dt => Sys2Proof.Machine.execBankTest dt s
  | .bankTestBankStart dt b => Sys2Proof.Machine.execBankTestBankStart dt b s
  | .bankTestBankDone dt b pass => Sys2Proof.Machine.execBankTestBankDone dt b pass s
  | .bankTestSkip dt b => Sys2Proof.Machine.execBankTestSkip dt b s
  | .fgRead dt ini k index bcast => Sys2Proof.Machine.execFgRead dt ini k index bcast s
  | .fgWrite dt ini k index bcast => Sys2Proof.Machine.execFgWrite dt ini k index bcast s
  | .fgInvalidate dt ini k index bcast => Sys2Proof.Machine.execFgInvalidate dt ini k index bcast s
  | .patternRead dt ini k index bcast => Sys2Proof.Machine.execPatternRead dt ini k index bcast s
  | .patternWrite dt ini k index bcast => Sys2Proof.Machine.execPatternWrite dt ini k index bcast s
  | .patternInvalidate dt ini k index bcast => Sys2Proof.Machine.execPatternInvalidate dt ini k index bcast s
  | .tblInsert dt ini k args => Sys2Proof.Machine.execTblInsert dt ini k args s
  | .tblDelete dt ini k args => Sys2Proof.Machine.execTblDelete dt ini k args s
  | .tblSearch dt ini k args => Sys2Proof.Machine.execTblSearch dt ini k args s
  | .tblNext dt ini k args => Sys2Proof.Machine.execTblNext dt ini k args s
  | .flushByPort dt ini k args => Sys2Proof.Machine.execFlushByPort dt ini k args s
  | .flushAll dt ini k args => Sys2Proof.Machine.execFlushAll dt ini k args s
  | .learnServe dt k => Sys2Proof.Machine.execLearnServe dt k s
  | .learnRateWrite dt k v => Sys2Proof.Machine.execLearnRateWrite dt k v s
  | .agingSweep dt k => Sys2Proof.Machine.execAgingSweep dt k s
  | .agePeriodWrite dt k v => Sys2Proof.Machine.execAgePeriodWrite dt k v s
  | .crfFrameTx dt p => Sys2Proof.Machine.execCrfFrameTx dt p s
  | .hmcSend dt p len => Sys2Proof.Machine.execHmcSend dt p len s
  | .forceAisWrite dt p v => Sys2Proof.Machine.execForceAisWrite dt p v s
  | .crfBlockRx dt p block => Sys2Proof.Machine.execCrfBlockRx dt p block s
  | .dlosDetect dt p cause => Sys2Proof.Machine.execDlosDetect dt p cause s
  | .dlosClear dt p => Sys2Proof.Machine.execDlosClear dt p s
  | .dlofDetect dt p => Sys2Proof.Machine.execDlofDetect dt p s
  | .dlofClear dt p => Sys2Proof.Machine.execDlofClear dt p s
  | .dlomDetect dt p => Sys2Proof.Machine.execDlomDetect dt p s
  | .dlomClear dt p => Sys2Proof.Machine.execDlomClear dt p s
  | .failureDeclare dt p d => Sys2Proof.Machine.execFailureDeclare dt p d s
  | .failureClear dt p d => Sys2Proof.Machine.execFailureClear dt p d s
  | .crfLinkUp dt p rxVar => Sys2Proof.Machine.execCrfLinkUp dt p rxVar s
  | .pmSecondGrade dt p => Sys2Proof.Machine.execPmSecondGrade dt p s
  | .secondFinal dt p => Sys2Proof.Machine.execSecondFinal dt p s
  | .binEnd dt p => Sys2Proof.Machine.execBinEnd dt p s
  | .binClose dt p => Sys2Proof.Machine.execBinClose dt p s
  | .pmSnapshot dt p bin => Sys2Proof.Machine.execPmSnapshot dt p bin s
  | .ohSlotForm dt p => Sys2Proof.Machine.execOhSlotForm dt p s
  | .twinTask dt => Sys2Proof.Machine.execTwinTask dt s
  | .mepEnable dt m => Sys2Proof.Machine.execMepEnable dt m s
  | .mepDisable dt m => Sys2Proof.Machine.execMepDisable dt m s
  | .ccmService dt a => Sys2Proof.Machine.execCcmService dt a s
  | .ccmExamine dt m => Sys2Proof.Machine.execCcmExamine dt m s
  | .mepLoc dt m => Sys2Proof.Machine.execMepLoc dt m s
  | .mepDefectClear dt m d => Sys2Proof.Machine.execMepDefectClear dt m d s
  | .calReloadApply dt => Sys2Proof.Machine.execCalReloadApply dt s
  | .levelZero dt ini kind index => Sys2Proof.Machine.execLevelZero dt ini kind index s
  | .levelFull dt ini kind index => Sys2Proof.Machine.execLevelFull dt ini kind index s
  | .sojWmRead dt ini q be => Sys2Proof.Machine.execSojWmRead dt ini q be s
  | .samplePost dt => Sys2Proof.Machine.execSamplePost dt s
  | .addendWrite dt v => Sys2Proof.Machine.execAddendWrite dt v s
  | .timeSet dt sec ns frac => Sys2Proof.Machine.execTimeSet dt sec ns frac s
  | .timeAdd dt sec ns frac => Sys2Proof.Machine.execTimeAdd dt sec ns frac s
  | .timeSub dt sec ns frac => Sys2Proof.Machine.execTimeSub dt sec ns frac s
  | .counterBroadcast dt => Sys2Proof.Machine.execCounterBroadcast dt s
  | .swOffsetSample dt ns frac => Sys2Proof.Machine.execSwOffsetSample dt ns frac s
  | .crfSample dt => Sys2Proof.Machine.execCrfSample dt s
  | .ppsInEdge dt => Sys2Proof.Machine.execPpsInEdge dt s
  | .servoEnable dt => Sys2Proof.Machine.execServoEnable dt s
  | .servoDisable dt => Sys2Proof.Machine.execServoDisable dt s
  | .srcLost dt => Sys2Proof.Machine.execSrcLost dt s
  | .servoSrcWrite dt src crfPort => Sys2Proof.Machine.execServoSrcWrite dt src crfPort s
  | .ppsOutRise dt => Sys2Proof.Machine.execPpsOutRise dt s
  | .ppsOutFall dt => Sys2Proof.Machine.execPpsOutFall dt s
  | .todTx dt => Sys2Proof.Machine.execTodTx dt s
  | .todRx dt msg gap => Sys2Proof.Machine.execTodRx dt msg gap s
  | .evtArm dt k => Sys2Proof.Machine.execEvtArm dt k s
  | .evtPulse dt k => Sys2Proof.Machine.execEvtPulse dt k s
  | .evtPulseEnd dt k => Sys2Proof.Machine.execEvtPulseEnd dt k s
  | .evtCapture dt k rising => Sys2Proof.Machine.execEvtCapture dt k rising s
  | .evtCapPop dt k => Sys2Proof.Machine.execEvtCapPop dt k s
  | .evtModeWrite dt k v => Sys2Proof.Machine.execEvtModeWrite dt k v s
  | .gateEdge dt q => Sys2Proof.Machine.execGateEdge dt q s
  | .gateCalendarSwitch dt q => Sys2Proof.Machine.execGateCalendarSwitch dt q s
  | .timedArm dt ini n lateFire => Sys2Proof.Machine.execTimedArm dt ini n lateFire s
  | .timedCancel dt ini n => Sys2Proof.Machine.execTimedCancel dt ini n s
  | .tcommitFired dt => Sys2Proof.Machine.execTcommitFired dt s
  | .commit dt ini mask => Sys2Proof.Machine.execCommit dt ini mask s
  | .revert dt ini mask => Sys2Proof.Machine.execRevert dt ini mask s
  | .twinEnable dt => Sys2Proof.Machine.execTwinEnable dt s
  | .twinDisable dt => Sys2Proof.Machine.execTwinDisable dt s
  | .hbPinTx dt => Sys2Proof.Machine.execHbPinTx dt s
  | .heartbeatRx dt path hb => Sys2Proof.Machine.execHeartbeatRx dt path hb s
  | .pathLoss dt path => Sys2Proof.Machine.execPathLoss dt path s
  | .peerDead dt => Sys2Proof.Machine.execPeerDead dt s
  | .renewRx dt path msg => Sys2Proof.Machine.execRenewRx dt path msg s
  | .ackRx dt path msg => Sys2Proof.Machine.execAckRx dt path msg s
  | .claimRx dt path msg => Sys2Proof.Machine.execClaimRx dt path msg s
  | .grantRx dt path msg => Sys2Proof.Machine.execGrantRx dt path msg s
  | .denyRx dt path msg => Sys2Proof.Machine.execDenyRx dt path msg s
  | .releaseRx dt path msg => Sys2Proof.Machine.execReleaseRx dt path msg s
  | .leaseClaim dt => Sys2Proof.Machine.execLeaseClaim dt s
  | .soloHold dt => Sys2Proof.Machine.execSoloHold dt s
  | .claimTimeout dt => Sys2Proof.Machine.execClaimTimeout dt s
  | .renewTx dt => Sys2Proof.Machine.execRenewTx dt s
  | .leaseLapsed dt => Sys2Proof.Machine.execLeaseLapsed dt s
  | .cmdClaim dt => Sys2Proof.Machine.execCmdClaim dt s
  | .cmdRelease dt => Sys2Proof.Machine.execCmdRelease dt s
  | .cmdClaimSolo dt => Sys2Proof.Machine.execCmdClaimSolo dt s
  | .cmdSetEpoch dt epoch => Sys2Proof.Machine.execCmdSetEpoch dt epoch s
  | .mirrorFrameRx dt bytes => Sys2Proof.Machine.execMirrorFrameRx dt bytes s
  | .mirrorResend dt => Sys2Proof.Machine.execMirrorResend dt s
  | .audit dt => Sys2Proof.Machine.execAudit dt s
  | .auditRx dt bytes => Sys2Proof.Machine.execAuditRx dt bytes s
  | .flr dt => Sys2Proof.Machine.execFlr dt s
  | .vecEoi dt v => Sys2Proof.Machine.execVecEoi dt v s
  | .ringEnable dt ini r cfg => Sys2Proof.Machine.execRingEnable dt ini r cfg s
  | .ringDisable dt ini r => Sys2Proof.Machine.execRingDisable dt ini r s
  | .ringReset dt ini r => Sys2Proof.Machine.execRingReset dt ini r s
  | .ringIdle dt r => Sys2Proof.Machine.execRingIdle dt r s
  | .doorbell dt offset nbytes value => Sys2Proof.Machine.execDoorbell dt offset nbytes value s
  | .ringAbort dt r index => Sys2Proof.Machine.execRingAbort dt r index s
  | .entryRead dt r words payload => Sys2Proof.Machine.execEntryRead dt r words payload s
  | .chainTimeout dt r => Sys2Proof.Machine.execChainTimeout dt r s
  | .txFetch dt r bytes => Sys2Proof.Machine.execTxFetch dt r bytes s
  | .dmaErr dt err => Sys2Proof.Machine.execDmaErr dt err s
  | .completionWrite dt cq => Sys2Proof.Machine.execCompletionWrite dt cq s
  | .cqModTimeout dt cq => Sys2Proof.Machine.execCqModTimeout dt cq s
  | .rxCopyWrite dt k => Sys2Proof.Machine.execRxCopyWrite dt k s
  | .imageLoadApply dt r tag image => Sys2Proof.Machine.execImageLoadApply dt r tag image s
  | .imageLoadVerify dt r tag image => Sys2Proof.Machine.execImageLoadVerify dt r tag image s
  | .imageLoadFlash dt r tag image seen => Sys2Proof.Machine.execImageLoadFlash dt r tag image seen s
  | .attest dt r => Sys2Proof.Machine.execAttest dt r s
  | .registerWrite dt ini addr be value => Sys2Proof.Machine.execRegisterWrite dt ini addr be value s
  | .unaligned dt ini addr nbytes write => Sys2Proof.Machine.execUnaligned dt ini addr nbytes write s
  | .counterWrite dt ini addr value => Sys2Proof.Machine.execCounterWrite dt ini addr value s
  | .multiwordRead dt ini addr be => Sys2Proof.Machine.execMultiwordRead dt ini addr be s
  | .multiwordWrite dt ini addr value => Sys2Proof.Machine.execMultiwordWrite dt ini addr value s
  | .journalWrite dt => Sys2Proof.Machine.execJournalWrite dt s
  | .jnSel dt ini seq => Sys2Proof.Machine.execJnSel dt ini seq s
  | .journalCopy dt ini => Sys2Proof.Machine.execJournalCopy dt ini s
  | .bootRelease dt => Sys2Proof.Machine.execBootRelease dt s
  | .bootRomDone dt => Sys2Proof.Machine.execBootRomDone dt s
  | .flashReadDone dt slot0 slot1 => Sys2Proof.Machine.execFlashReadDone dt slot0 slot1 s
  | .verifyDone dt => Sys2Proof.Machine.execVerifyDone dt s
  | .domainsDone dt => Sys2Proof.Machine.execDomainsDone dt s
  | .defaultsDone dt => Sys2Proof.Machine.execDefaultsDone dt s
  | .selftestDone dt failing => Sys2Proof.Machine.execSelftestDone dt failing s
  | .token dt ini fuseOk => Sys2Proof.Machine.execToken dt ini fuseOk s
  | .advanceSvn dt ini fuseOk => Sys2Proof.Machine.execAdvanceSvn dt ini fuseOk s
  | .debugEnd dt ini => Sys2Proof.Machine.execDebugEnd dt ini s
  | .observeWrite dt v => Sys2Proof.Machine.execObserveWrite dt v s
  | .inspectExpire dt => Sys2Proof.Machine.execInspectExpire dt s
  | .tracePop dt => Sys2Proof.Machine.execTracePop dt s
  | .snap dt window => Sys2Proof.Machine.execSnap dt window s
  | .targetFull dt => Sys2Proof.Machine.execTargetFull dt s
  | .targetDoze dt => Sys2Proof.Machine.execTargetDoze dt s
  | .targetKeep dt => Sys2Proof.Machine.execTargetKeep dt s
  | .keepReady dt => Sys2Proof.Machine.execKeepReady dt s
  | .pgGate dt g => Sys2Proof.Machine.execPgGate dt g s
  | .pgWake dt g => Sys2Proof.Machine.execPgWake dt g s
  | .wakeDone dt g => Sys2Proof.Machine.execWakeDone dt g s
  | .lane1Sleep dt k => Sys2Proof.Machine.execLane1Sleep dt k s
  | .lane1Wake dt k n => Sys2Proof.Machine.execLane1Wake dt k n s
  | .bankRetention dt b => Sys2Proof.Machine.execBankRetention dt b s
  | .mainLost dt => Sys2Proof.Machine.execMainLost dt s
  | .vaonLoss dt => Sys2Proof.Machine.execVaonLoss dt s
  | .powerOn dt => Sys2Proof.Machine.execPowerOn dt s
  | .aonRstFall dt => Sys2Proof.Machine.execAonRstFall dt s
  | .aonRstRise dt i2cAddr => Sys2Proof.Machine.execAonRstRise dt i2cAddr s
  | .aonReady dt => Sys2Proof.Machine.execAonReady dt s
  | .sysRstFall dt => Sys2Proof.Machine.execSysRstFall dt s
  | .sysRstRise dt bootSrc => Sys2Proof.Machine.execSysRstRise dt bootSrc s
  | .perst dt rising => Sys2Proof.Machine.execPerst dt rising s
  | .i2cWrite dt dev addr value lost => Sys2Proof.Machine.execI2cWrite dt dev addr value lost s
  | .i2cRead dt dev addr lost => Sys2Proof.Machine.execI2cRead dt dev addr lost s
  | .i2cStatus dt dev => Sys2Proof.Machine.execI2cStatus dt dev s
  | .blockLockGained dt p => Sys2Proof.Machine.execBlockLockGained dt p s
  | .remoteFault dt p near begins => Sys2Proof.Machine.execRemoteFault dt p near begins s
  | .recoveryResetTimeout dt d => Sys2Proof.Machine.execRecoveryResetTimeout dt d s
  | .mainRailsReturn dt => Sys2Proof.Machine.execMainRailsReturn dt s

end Sys2Proof.Machine
end

