-- ==== Sys2Proof/Machine/Pins.lean ====
section
/-!
DEFINITION. What each output pin of the device drives as the state stands (R333, R367, R487, R488).
-/
namespace Sys2Proof.Machine

/-- What a pin drives: nothing (high-impedance), a level, or the signal of the unit behind it. -/
inductive Drive where
  | z
  | low
  | high
  | active
  deriving DecidableEq, Repr

/-- The pins of the device that are outputs or in/out (R487). -/
inductive OutPin where
  | intN
  | leaseOut
  | spiClk
  | spiCsN
  | spiIo (i : Nat)
  | tdo
  | i2cSda
  | ppsOut
  | todTx
  | evt (i : Nat)
  | hbTx
  | laneTx (g k : Nat)
  | pcieTx (k : Nat)
  deriving DecidableEq, Repr

def Drive.when (c : Bool) (d : Drive) : Drive := if c then d else .z

/-- INT_N is asserted low while any vector is raised and PIN_EN is 1 (R367, R487). -/
def State.intLow (s : State) : Bool := s.mainUp && s.bit Fld.GL_INT_CTRL_PIN_EN && !(s.raised.isEmpty)
/-- LEASE_OUT is low while this device holds the lease (R333). -/
def State.leaseOutLow (s : State) : Bool := s.aonUp && s.duty
/-- The device reads or writes the flash (R488): it does so throughout the stage READ; the writes of a FLASH load are one event of the model. -/
def State.spiBusy (s : State) : Bool := s.mainUp && decide (s.stage = stRead)

/-- What a pin drives between two commands (R488): every output is high-impedance while its supply is absent or its island is held or disabled. A Loupe access
and an I²C access are one event each, so that TDO and I2C_SDA drive nothing between commands. -/
def State.drive (s : State) : OutPin → Drive
  | .intN => .when s.intLow .low
  | .leaseOut => .when s.leaseOutLow .low
  | .spiClk => .when s.spiBusy .active
  | .spiCsN => .when s.spiBusy .active
  | .spiIo i => .when (s.spiBusy && decide (i < 4)) .active
  | .tdo => .z
  | .i2cSda => .z
  | .ppsOut => .when s.aonUp (if s.hm.ppsHigh then .high else .low)
  | .todTx => .when s.aonUp .high
  | .evt i => .when (s.aonUp && decide (i < 2 ∧ s.fld (Fld.HM_EVT_CTRL_MODE i) = 1)) (if (s.pin i).high then .high else .low)
  | .hbTx => .when s.aonUp .active
  | .laneTx g k => .when (s.mainUp && s.groupOn g && s.lanePowered g k false) .active
  | .pcieTx k => .when (s.mainUp && decide (k < 8)) .active

end Sys2Proof.Machine
end

