-- ==== Sys2Proof/Safety.lean ====
section
/-!
DEFINITION. What claims are said in: what a command leaves alone, and what every reachable state keeps.
-/
namespace Sys2Proof

/-! ### Which island a command needs -/

/-- The commands of pins, supplies and the I²C slave, which no island answers for. -/
def Instr.ofPins (i : Instr) : Bool :=
  match i with
  | .mainLost .. | .vaonLoss .. | .powerOn .. | .aonRstFall .. | .aonRstRise .. | .sysRstFall .. | .sysRstRise .. | .perst .. | .i2cWrite ..
  | .i2cRead .. | .i2cStatus .. | .mainRailsReturn .. => true
  | _ => false

/-- The commands of the always-on island (R513). -/
def Instr.ofAon (i : Instr) : Bool :=
  match i with
  | .addendWrite .. | .timeSet .. | .timeAdd .. | .timeSub .. | .counterBroadcast .. | .swOffsetSample .. | .crfSample .. | .ppsInEdge ..
  | .servoEnable .. | .servoDisable .. | .srcLost .. | .servoSrcWrite .. | .ppsOutRise .. | .ppsOutFall .. | .todTx .. | .todRx ..
  | .evtArm .. | .evtPulse .. | .evtPulseEnd .. | .evtCapture .. | .evtCapPop .. | .evtModeWrite .. | .twinEnable .. | .twinDisable ..
  | .hbPinTx .. | .heartbeatRx .. | .pathLoss .. | .peerDead .. | .renewRx .. | .ackRx .. | .claimRx .. | .grantRx .. | .denyRx ..
  | .releaseRx .. | .leaseClaim .. | .soloHold .. | .claimTimeout .. | .renewTx .. | .leaseLapsed .. | .cmdClaim .. | .cmdRelease ..
  | .cmdClaimSolo .. | .cmdSetEpoch .. | .registerWrite .. | .unaligned .. | .counterWrite .. | .multiwordRead .. | .multiwordWrite ..
  | .sojWmRead .. | .journalWrite .. | .jnSel .. | .journalCopy .. | .targetFull .. | .targetDoze .. | .targetKeep .. | .aonReady .. => true
  | _ => false

/-- The other commands that are accesses of the I²C slave, which runs while the always-on island does (R405, R502). -/
def Instr.ofI2c (i : Instr) : Bool :=
  match i with
  | .fgRead _ c .. | .fgWrite _ c .. | .fgInvalidate _ c .. | .patternRead _ c .. | .patternWrite _ c .. | .patternInvalidate _ c .. | .tblInsert _ c ..
  | .tblDelete _ c .. | .tblSearch _ c .. | .tblNext _ c .. | .flushByPort _ c .. | .flushAll _ c .. | .levelZero _ c .. | .levelFull _ c ..
  | .timedArm _ c .. | .timedCancel _ c .. | .commit _ c .. | .revert _ c .. | .ringEnable _ c .. | .ringDisable _ c .. | .ringReset _ c ..
  | .token _ c .. | .advanceSvn _ c .. | .debugEnd _ c .. => decide (c = .i2c)
  | _ => false

namespace Machine

/-! ### What a command leaves alone -/

/-- The parts of the state beside registers, counters, ports and rings. -/
inductive Part where
  | time | act | bus | goBusy | jn | pool | fab | pl | hm | pt | hi | isl | tw | av | pw | db | crfs | pms | bt | sg | rst | out | free
  deriving DecidableEq, Repr

/-- Whether something that left the device is an MSI-X message. -/
def OutEv.isMsix : OutEv → Bool
  | .msix _ => true
  | _ => false

/-- A part is the same in two states. MSI-X messages, with the vectors that they disarm or leave pending, may follow from any command (R367): they are
no part of `out` and `hi` here. -/
def Part.same (k : Part) (s t : State) : Prop :=
  match k with
  | .time => t.time = s.time
  | .act => t.act = s.act
  | .bus => t.bus = s.bus
  | .goBusy => t.goBusy = s.goBusy
  | .jn => t.jn = s.jn
  | .pool => t.pool = s.pool
  | .fab => t.fab = s.fab
  | .pl => t.pl = s.pl
  | .hm => t.hm = s.hm
  | .pt => t.pt = s.pt
  | .hi => t.hi.waiting = s.hi.waiting ∧ t.hi.table = s.hi.table ∧ t.hi.cfg2Set = s.hi.cfg2Set ∧ t.hi.pci = s.hi.pci
  | .isl => t.isl = s.isl
  | .tw => t.tw = s.tw
  | .av => t.av = s.av
  | .pw => t.pw = s.pw
  | .db => t.db = s.db
  | .crfs => t.crfs = s.crfs
  | .pms => t.pms = s.pms
  | .bt => t.bt = s.bt
  | .sg => t.sg = s.sg
  | .rst => t.rst = s.rst
  | .out => t.out.filter (fun e => !e.isMsix) = s.out.filter (fun e => !e.isMsix)
  | .free => t.free = s.free

/-- What a command may touch: parts, and registers, counters, ports and rings one by one. -/
structure Touch where
  parts : List Part := []
  regs  : Nat → Prop := fun _ => False
  ctrs  : Nat → Prop := fun _ => False
  ports : List Nat := []
  rings : List Nat := []

/-- Everything but what is named is unchanged. The counter of MSI-X messages (R396) may count with any command. -/
def State.frame (s t : State) (x : Touch) : Prop :=
  (∀ k, k ∉ x.parts → Part.same k s t) ∧ (∀ a, ¬ x.regs a → t.reg a = s.reg a) ∧
  (∀ a, a ≠ Ctr.hi 0x20 → ¬ x.ctrs a → t.ctr a = s.ctr a) ∧ (∀ p, p ∉ x.ports → t.port p = s.port p) ∧
  (∀ r, r ∉ x.rings → t.ring r = s.ring r)

/-- The twin's CRF path is open through its link port: the port's receiver is in SYNC with multiframe lock, and nothing waits for the twin (R81). -/
def State.slotOpen (s : State) : Bool :=
  let p := s.fld Fld.TW_CFG_LINK_PORT
  s.mainUp && s.twinPort p && s.crfRuns p && s.isSync p && s.mfLock p && s.tw.inbox.isEmpty
/-- The twin hears what a path carries in slot `i` of a superframe, or in a pin frame (R81, R344). -/
def State.pathOpen (s : State) (path : Path) (i : Nat) (bs : List Byte) : Bool :=
  match path with
  | .pin => s.hears .pin
  | .crf => s.slotOpen && decide (bs.length = slotBytes i)

/-- A ring's only job has completed with a status and words 0 and 1: its completion waits for the ring's CQ (R377, R378). -/
def State.onlyJobDone (s t : State) (r : Nat) (j : Job) (status w0 w1 : Nat) : Prop :=
  (t.ring r).jobs = [] ∧
  t.waitingOf (s.rCq r) = s.waitingOf (s.rCq r) ++ [(r, [w32 w0, w32 w1, w32 (j.last % 2 ^ 16 * 2 ^ 16 + j.tag)], status, s.rKind r)]

/-! ### What every reachable state keeps -/

/-- The Hallmark counter lies below its modulus of 2^48 s (R295), and the active addend within its clamp (R296). -/
def Time.ok (t : Time) : Prop := t.raw < hmMod ∧ -(2 ^ 30) ≤ t.addend ∧ t.addend ≤ 2 ^ 30

/-- Between two commands nothing is asked of the time group. -/
def State.calm (s : State) : Prop := s.timeReq.step = none ∧ s.timeReq.addend = none

/-- No raised vector is armed: its message has been sent, or is kept while the vector is masked (R367). -/
def State.noArmedRaised (s : State) : Prop := ∀ v, v ∈ s.raised → v ∈ s.hi.unarmed

/-- The invariant of the machine. -/
def State.Inv (s : State) : Prop := s.time.ok ∧ s.calm ∧ s.noArmedRaised

end Machine

end Sys2Proof
end

