-- ==== Sys2Proof/Certificates/Slice0/Obligations.lean ====
section
/-!
DEFINITION. The statements for the provers, family by family. `s.begun dt` is the state in which a command acts: `s` with time moved on by `dt`.
A statement's `frame` says that everything but what it names is as it was; MSI-X messages may follow any command (R367).
-/
open Sys2Proof Sys2Proof.Machine

/-! ### Ports (chapter 2) -/

/-- R54, R74: ENABLE set takes a disabled port to ENABLED; ENABLE cleared takes an ENABLED port to DRAINING; a DRAINING port with no frame in reception,
in transmission or in its framer goes to IDLE, with LINK 0. PT_CTRL and PT_STATUS of every other port stay as they were when ENABLE is set or cleared. -/
def Obligations.PortEnables : Prop :=
  (∀ (s : State) (dt p : Nat), p < 144 → s.mainUp = true → s.portAbsent p = false → s.fld (Fld.PT_CTRL_ENABLE p) = 0 →
    ∃ t, exec (.portEnable dt p) s = .next t ∧ t.fld (Fld.PT_CTRL_ENABLE p) = 1 ∧ t.fld (Fld.PT_STATUS_EN_STATE p) = 1 ∧
      (∀ q, q < 144 → q ≠ p → t.reg (Reg.PT_CTRL q) = s.reg (Reg.PT_CTRL q) ∧ t.reg (Reg.PT_STATUS q) = s.reg (Reg.PT_STATUS q))) ∧
  (∀ (s : State) (dt p : Nat), p < 144 → s.mainUp = true → s.portAbsent p = false → s.fld (Fld.PT_CTRL_ENABLE p) = 1 →
    s.fld (Fld.PT_STATUS_EN_STATE p) = 1 →
    ∃ t, exec (.portDisable dt p) s = .next t ∧ t.fld (Fld.PT_CTRL_ENABLE p) = 0 ∧ t.fld (Fld.PT_STATUS_EN_STATE p) = 2 ∧
      (∀ q, q < 144 → q ≠ p → t.reg (Reg.PT_CTRL q) = s.reg (Reg.PT_CTRL q) ∧ t.reg (Reg.PT_STATUS q) = s.reg (Reg.PT_STATUS q))) ∧
  (∀ (s : State) (dt p : Nat), p < 144 → s.mainUp = true → s.fld (Fld.PT_STATUS_EN_STATE p) = 2 → (s.port p).rxOn = false →
    (s.crf p).rx.take = false → (s.port p).tx = none → (s.port p).aside = [] → (s.crf p).tx.units = [] → (s.crf p).tx.open_ = none →
    ∃ t, exec (.portDrained dt p) s = .next t ∧ t.fld (Fld.PT_STATUS_EN_STATE p) = 0 ∧ t.fld (Fld.PT_STATUS_LINK p) = 0)

/-- R34, R36, R37: On an enabled port AN_RESTART sets AN_STATE to running and sends the base page (its bits are the model's presumption from IEEE 802.3,
log entry 6), and AN_DONE ends it as complete or incompatible and raises AN_DONE (for an incompatible partner too, which is the model's choice, log
entry 19). RETRAIN on an enabled trunk port starts training. A report of all active lanes moves their taps as the partner asks, within 0 to 63, and
ends training where every lane is ready in both directions. Once TIMEOUT has passed LT_FAIL goes to FAILED and raises LT_FAIL; RETRY_DELAY later the
port trains again. Nothing else changes but the named status registers, the page that leaves and the port's own timers and taps, beside what a write
of the port's registers does to a gated group (R403). -/
def Obligations.LineTraining : Prop :=
  (∀ (s : State) (dt p : Nat), p < 144 → s.mainUp = true → s.portAbsent p = false → s.fld (Fld.PT_STATUS_EN_STATE p) = 1 → s.anRuns p = true →
    ∃ t, exec (.anRestart dt p) s = .next t ∧ t.fld (Fld.PT_STATUS_AN_STATE p) = 1 ∧
      t.out.filter (fun e => !e.isMsix) =
        .an p (w32 (0x20 + s.fld (Fld.PT_STATUS_LOCAL_FAULT p) * 0x1000)) :: s.out.filter (fun e => !e.isMsix) ∧
      ((s.begun dt).regUse (Reg.PT_CTRL p)).frame t { parts := [.out], regs := (· = Reg.PT_STATUS p), ports := [p] }) ∧
  (∀ (s : State) (dt p : Nat) (ok : Bool), p < 144 → s.mainUp = true → s.portAbsent p = false → s.anRuns p = true →
    s.fld (Fld.PT_STATUS_AN_STATE p) = 1 →
    ∃ t, exec (.anDone dt p ok) s = .next t ∧ t.fld (Fld.PT_STATUS_AN_STATE p) = (if ok then 2 else 3) ∧
      t.fld (Fld.PT_INT_STATUS_AN_DONE p) = 1 ∧
      (s.begun dt).frame t { regs := (· ∈ [Reg.PT_STATUS p, Reg.PT_INT_STATUS p]), ports := [p] }) ∧
  (∀ (s : State) (dt p : Nat), 128 ≤ p → p < 144 → s.mainUp = true → s.portAbsent p = false → s.fld (Fld.PT_STATUS_EN_STATE p) = 1 →
    s.ltRuns p = true →
    ∃ t, exec (.retrain dt p) s = .next t ∧ t.fld (Fld.PT_STATUS_LT_STATE p) = 1 ∧
      ((s.begun dt).regUse (Reg.PT_CTRL p)).frame t { regs := (· = Reg.PT_STATUS p), ports := [p] }) ∧
  (∀ (s : State) (dt p : Nat) (lanes : List LtLane), p < 144 → s.mainUp = true → s.ltRuns p = true → s.fld (Fld.PT_STATUS_LT_STATE p) = 1 →
    lanes.length = modeLanes (s.mode p) →
    ∃ t, exec (.ltDone dt ⟨p, lanes⟩) s = .next t ∧
      t.fld (Fld.PT_STATUS_LT_STATE p) = (if lanes.all (fun l => l.own && l.partner) then 2 else 1) ∧
      (t.port p).taps = lanes.map (fun l => (min l.pre 63, min l.main 63, min l.post 63)) ∧
      (s.begun dt).frame t { regs := (· = Reg.PT_STATUS p), ports := [p] }) ∧
  (∀ (s : State) (dt p : Nat), p < 144 → s.mainUp = true → s.ltRuns p = true → s.fld (Fld.PT_STATUS_LT_STATE p) = 1 →
    (s.port p).ltAt + s.fld (Fld.PT_LT_CTRL_TIMEOUT p) * 10 * tMs ≤ s.now + dt →
    ∃ t, exec (.ltFail dt p) s = .next t ∧ t.fld (Fld.PT_STATUS_LT_STATE p) = 3 ∧ t.fld (Fld.PT_INT_STATUS_LT_FAIL p) = 1 ∧
      (t.port p).ltAt = s.now + dt ∧
      (s.begun dt).frame t { regs := (· ∈ [Reg.PT_STATUS p, Reg.PT_INT_STATUS p]), ports := [p] }) ∧
  (∀ (s : State) (dt p : Nat), p < 144 → s.mainUp = true → s.ltRuns p = true → s.fld (Fld.PT_STATUS_LT_STATE p) = 3 →
    s.fld (Fld.PT_STATUS_EN_STATE p) = 1 →
    (s.port p).ltAt + s.fld (Fld.PT_LT_CTRL_RETRY_DELAY p) * 10 * tMs ≤ s.now + dt →
    ∃ t, exec (.retryDelay dt p) s = .next t ∧ t.fld (Fld.PT_STATUS_LT_STATE p) = 1 ∧ (t.port p).ltAt = s.now + dt ∧
      (s.begun dt).frame t { regs := (· = Reg.PT_STATUS p), ports := [p] })

/-- R39, R40, R41, R317: An enabled port with LINK 1 whose egress queues are empty, with no frame in hand, enters LPI after IDLE_US (0: never) or while
Doze is in force; the entry is counted. The partner's LPI is shown and its beginning counted; on a running port without LPI it counts as a PCS error
instead (with LPI_EN 0 in a mode that has LPI this is the model's choice, log entry 45). A frame that waits for the wake or for its launch time starts
once the wake has ended and the launch time is reached, where no PAUSE or PFC stops its queue. -/
def Obligations.LowPowerIdle : Prop :=
  (∀ (s : State) (dt p : Nat), p < 144 → s.mainUp = true → s.lpiMode p = true → s.fld (Fld.PT_STATUS_EN_STATE p) = 1 →
    s.fld (Fld.PT_STATUS_LINK p) = 1 → s.fld (Fld.PT_STATUS_LPI_TX p) = 0 → (s.port p).tx = none → (s.port p).aside = [] → s.portEmpty p = true →
    ((s.fld (Fld.PT_LPI_CTRL_IDLE_US p) ≠ 0 ∧ (s.port p).emptyAt + s.fld (Fld.PT_LPI_CTRL_IDLE_US p) * tUs ≤ s.now + dt) ∨ s.doze = true) →
    ∃ t, exec (.lpiEntry dt p) s = .next t ∧ t.fld (Fld.PT_STATUS_LPI_TX p) = 1 ∧
      t.ctr (Ctr.port p 0x228) = (s.ctr (Ctr.port p 0x228) + 1) % 2 ^ 64 ∧
      (s.begun dt).frame t { regs := (· = Reg.PT_STATUS p), ctrs := (· = Ctr.port p 0x228) }) ∧
  (∀ (s : State) (dt p : Nat) (enter : Bool), p < 144 → s.mainUp = true → s.portAbsent p = false → s.lpiMode p = true →
    ∃ t, exec (.lpiRx dt p enter) s = .next t ∧ t.fld (Fld.PT_STATUS_LPI_RX p) = b2n enter ∧
      t.ctr (Ctr.port p 0x230) = (s.ctr (Ctr.port p 0x230) + (if enter ∧ s.fld (Fld.PT_STATUS_LPI_RX p) = 0 then 1 else 0)) % 2 ^ 64 ∧
      (s.begun dt).frame t { regs := (· = Reg.PT_STATUS p), ctrs := (· = Ctr.port p 0x230) }) ∧
  (∀ (s : State) (dt p : Nat), p < 144 → s.mainUp = true → s.portAbsent p = false → s.lpiMode p = false →
    s.fld (Fld.PT_STATUS_ACTIVE_MODE p) ≠ 0 → s.fld (Fld.PT_STATUS_EN_STATE p) ≠ 0 →
    ∃ t, exec (.lpiRx dt p true) s = .next t ∧ t.ctr (Ctr.port p 0x200) = (s.ctr (Ctr.port p 0x200) + 1) % 2 ^ 64 ∧
      t.reg (Reg.PT_STATUS p) = s.reg (Reg.PT_STATUS p)) ∧
  (∀ (s : State) (dt p : Nat) (x : TxSt), p < 144 → s.mainUp = true → (s.port p).tx = some x → x.phase = .lpiWait →
    s.pgAsleep (groupOf p) = false → (s.port p).lpiAt ≤ s.now + dt →
    (∀ T, s.launchOf x.ent.fid = some T → T ≤ (s.begun dt).txStamp p) → (s.begun dt).queueStopped p x.ent.eq = false →
    ∃ t, exec (.lpiWakeDone dt p) s = .next t ∧ (t.port p).tx = some ⟨x.ent, .sending, s.now + dt, (s.begun dt).txStamp p⟩ ∧
      (s.begun dt).frame t { ctrs := (· = Ctr.port p 0x3C0), ports := [p] }) ∧
  (∀ (s : State) (dt p : Nat) (x : TxSt), p < 144 → s.mainUp = true → (s.port p).tx = some x → x.phase = .launchWait →
    s.pgAsleep (groupOf p) = false → (s.port p).lpiAt ≤ s.now + dt →
    (∀ T, s.launchOf x.ent.fid = some T → T ≤ (s.begun dt).txStamp p) → (s.begun dt).queueStopped p x.ent.eq = false →
    ∃ t, exec (.launchTimeReached dt p) s = .next t ∧ (t.port p).tx = some ⟨x.ent, .sending, s.now + dt, (s.begun dt).txStamp p⟩ ∧
      (s.begun dt).frame t { ctrs := (· = Ctr.port p 0x3C0), ports := [p] })

/-- R44, R45, R48: A PAUSE frame replaces what is left of a trunk port's stop, and a PFC frame that of each class it enables, each quantum 64 bytes' time
of the line. A stop whose time has run out ends. Once a class has been stopped without a break for WD_MS the watchdog ends every stop and raises
PAUSE_WD, and while PAUSE_WD is 1 a PAUSE frame does nothing. That these rows count no received frame is the model's choice (log entry 19): R43's
counters step with the frame's own FRAME_RX_END. -/
def Obligations.PauseStops : Prop :=
  (∀ (s : State) (dt p q : Nat), 128 ≤ p → p < 144 → s.mainUp = true → s.receives p = true → s.fld (Fld.PT_PAUSE_CTRL_PAUSE_EN p) = 1 →
    s.fld (Fld.PT_INT_STATUS_PAUSE_WD p) = 0 →
    ∃ t, exec (.pauseRx dt p q) s = .next t ∧ (t.port p).pauseEnd = s.now + dt + s.lineTime p (64 * q) ∧
      (t.port p).pfcEnd = (s.port p).pfcEnd ∧
      (s.begun dt).frame t { ctrs := (· = Ctr.port p 0x238), ports := [p] }) ∧
  (∀ (s : State) (dt p en : Nat) (qs : List Nat), 128 ≤ p → p < 144 → s.mainUp = true → s.receives p = true →
    s.fld (Fld.PT_PAUSE_CTRL_PFC_EN p) = 1 → s.fld (Fld.PT_INT_STATUS_PAUSE_WD p) = 0 →
    ∃ t, exec (.pfcRx dt p en qs) s = .next t ∧ (t.port p).pauseEnd = (s.port p).pauseEnd ∧
      (∀ k, k < 8 → (t.port p).pfcEnd.getD k 0 =
        if bitOf en k then s.now + dt + s.lineTime p (64 * qs.getD k 0) else (s.port p).pfcEnd.getD k 0) ∧
      (s.begun dt).frame t { ctrs := (· = Ctr.port p 0x238), ports := [p] }) ∧
  (∀ (s : State) (dt p : Nat), p < 144 → s.mainUp = true → (s.port p).stopFrom ≠ none → s.stopEnd p ≤ s.now + dt →
    ∃ t, exec (.pauseExpire dt p) s = .next t ∧ (t.port p).stopFrom = none ∧ t.stopped p = false ∧
      (s.begun dt).frame t { ctrs := (· ∈ [Ctr.port p 0x238, Ctr.port p 0x3C0]), ports := [p] }) ∧
  (∀ (s : State) (dt p c f : Nat), p < 144 → s.mainUp = true → c < 8 → (s.port p).clsFrom.getD c none = some f →
    (s.begun dt).clsStopped p c = true →
    0 < s.fld (Fld.PT_PAUSE_CTRL_WD_MS p) → f + s.fld (Fld.PT_PAUSE_CTRL_WD_MS p) * tMs ≤ s.now + dt →
    ∃ t, exec (.pauseWd dt p) s = .next t ∧ t.fld (Fld.PT_INT_STATUS_PAUSE_WD p) = 1 ∧ t.stopped p = false ∧ t.stopEnd p = 0 ∧
      (s.begun dt).frame t { regs := (· = Reg.PT_INT_STATUS p), ctrs := (· = Ctr.port p 0x238), ports := [p] }) ∧
  (∀ (s : State) (dt p q : Nat), p < 144 → s.mainUp = true → s.fld (Fld.PT_INT_STATUS_PAUSE_WD p) = 1 →
    ∃ t, exec (.pauseRx dt p q) s = .next t ∧ (s.begun dt).frame t {})

/-- R52, R53, R306: LINK rises once the port has been a candidate for UP, and falls (here with no new mode waiting) once it has not been one for DOWN;
both raise LINK_CHG, a fall is counted, a rise stores the variable delay up to its bound. Lock gained shows signal, lock and no high bit-error ratio;
a local or remote fault shows in its field, the beginning of a remote fault raises REMOTE_FAULT, and a port that negotiates sends its page anew with a
change of the local fault (the page's bits, and that it is sent anew, are the model's presumption from IEEE 802.3, log entry 6). -/
def Obligations.LinkChanges : Prop :=
  (∀ (s : State) (dt p v : Nat), p < 144 → s.mainUp = true → s.fld (Fld.PT_STATUS_ACTIVE_MODE p) ≠ 0 → s.crfOn p = false →
    s.fld (Fld.PT_STATUS_EN_STATE p) = 1 → s.fld (Fld.PT_STATUS_LINK p) = 0 → s.candidate p = true →
    (s.port p).candAt + s.fld (Fld.PT_DEBOUNCE_UP p) * tMs ≤ s.now + dt →
    ∃ t, exec (.linkUp dt p v) s = .next t ∧ t.fld (Fld.PT_STATUS_LINK p) = 1 ∧ t.fld (Fld.PT_INT_STATUS_LINK_CHG p) = 1 ∧
      t.fld (Fld.PT_TS_VAR_RX_VAR p) = min v (s.tsConst p).2.2 % 2 ^ (Fld.PT_TS_VAR_RX_VAR p).len ∧
      (s.begun dt).frame t { regs := (· ∈ [Reg.PT_STATUS p, Reg.PT_INT_STATUS p, Reg.PT_TS_VAR p]), ctrs := (· = Ctr.port p 0x3A8), ports := [p] }) ∧
  (∀ (s : State) (dt p : Nat), p < 144 → s.mainUp = true → s.fld (Fld.PT_STATUS_ACTIVE_MODE p) ≠ 0 → s.crfOn p = false →
    s.fld (Fld.PT_STATUS_LINK p) = 1 → s.candidate p = false → (s.port p).modeDue = none →
    (s.port p).candAt + s.fld (Fld.PT_DEBOUNCE_DOWN p) * 10 * tUs ≤ s.now + dt →
    ∃ t, exec (.linkDown dt p) s = .next t ∧ t.fld (Fld.PT_STATUS_LINK p) = 0 ∧ t.fld (Fld.PT_INT_STATUS_LINK_CHG p) = 1 ∧
      t.ctr (Ctr.port p 0x220) = (s.ctr (Ctr.port p 0x220) + 1) % 2 ^ 64 ∧ (t.port p).tx = none ∧ (t.port p).rxOn = false) ∧
  (∀ (s : State) (dt p : Nat), p < 144 → s.mainUp = true → s.portAbsent p = false → s.fld (Fld.PT_STATUS_ACTIVE_MODE p) ≠ 0 →
    s.fld (Fld.PT_STATUS_EN_STATE p) ≠ 0 →
    ∃ t, exec (.blockLockGained dt p) s = .next t ∧ t.fld (Fld.PT_STATUS_SIGNAL p) = 1 ∧ t.fld (Fld.PT_STATUS_BLOCK_LOCK p) = 1 ∧
      t.fld (Fld.PT_STATUS_HI_BER p) = 0 ∧
      (s.begun dt).frame t { parts := [.pms], regs := (· = Reg.PT_STATUS p), ports := [p] }) ∧
  (∀ (s : State) (dt p : Nat) (near begins : Bool), p < 144 → s.mainUp = true → s.portAbsent p = false →
    s.fld (Fld.PT_STATUS_ACTIVE_MODE p) ≠ 0 → s.crfOn p = false → s.fld (Fld.PT_STATUS_EN_STATE p) ≠ 0 →
    ∃ t, exec (.remoteFault dt p near begins) s = .next t ∧
      t.fld (if near then Fld.PT_STATUS_LOCAL_FAULT p else Fld.PT_STATUS_REMOTE_FAULT p) = b2n begins ∧
      (near = false → begins = true → s.fld (Fld.PT_STATUS_REMOTE_FAULT p) = 0 → t.fld (Fld.PT_INT_STATUS_REMOTE_FAULT p) = 1) ∧
      t.out.filter (fun e => !e.isMsix) =
        (if near = true ∧ s.anRuns p = true ∧ s.fld (Fld.PT_STATUS_AN_STATE p) = 1 then [.an p (w32 (0x20 + b2n begins * 0x1000))] else []) ++
          s.out.filter (fun e => !e.isMsix) ∧
      (s.begun dt).frame t { parts := [.out], regs := (· ∈ [Reg.PT_STATUS p, Reg.PT_INT_STATUS p]), ports := [p] })

/-- R238, R239, R277, R316, R320: Once a CD24 cycle has begun after the one in which a port has been down for HOLD_MS, its state goes to FLUSH and every
frame queued for it is doomed. A doomed head of an egress queue, a head whose launch time lies beyond MAX_S, and a head too long for every window of
its gate leave the queue, each with its counter of the output port; a port discards at most one doomed head in a CD24 cycle. -/
def Obligations.HeadsDiscarded : Prop :=
  (∀ (s : State) (dt p : Nat), p < 144 → s.mainUp = true → (s.port p).hold = holdHold → s.portDown p = true →
    s.holdEnd p / 60 < (s.begun dt).cyc24 →
    ∃ t, exec (.holdExpire dt p) s = .next t ∧ (t.port p).hold = holdFlush ∧
      (∀ q x, x ∈ t.queue q → x.port = p → x.left = [] → x.doomed = true) ∧
      (s.begun dt).frame t { parts := [.fab], ports := [p] }) ∧
  (∀ (s : State) (dt q : Nat) (x : QEnt) (r : List QEnt), isQueue q = true → s.mainUp = true → s.queue q = x :: r → isEgress q = true →
    x.doomed = true → x.port < 144 → (s.begun dt).mayDrop x.port = true →
    ∃ t, exec (.doomedDiscard dt q) s = .next t ∧ t.queue q = r ∧
      t.ctr (Ctr.port x.port 0x3B0) = (s.ctr (Ctr.port x.port 0x3B0) + 1) % 2 ^ 64 ∧
      t.ctr (Ctr.port x.port 0x3B8) = (s.ctr (Ctr.port x.port 0x3B8) + x.data.length) % 2 ^ 64 ∧
      (t.begun 0).mayDrop x.port = false ∧ (∀ q', q' ≠ q → t.queue q' = s.queue q')) ∧
  (∀ (s : State) (dt q : Nat) (x : QEnt) (r : List QEnt), isQueue q = true → s.mainUp = true → s.queue q = x :: r → isEgress q = true →
    x.doomed = true → (s.begun dt).mayDrop x.port = false → ∃ t, exec (.doomedDiscard dt q) s = .next t ∧ (s.begun dt).frame t {}) ∧
  (∀ (s : State) (dt q : Nat) (x : QEnt) (r : List QEnt), isQueue q = true → s.mainUp = true → s.queue q = x :: r → isEgress q = true →
    x.doomed = false → x.port < 144 → (s.begun dt).launchFar x = true →
    ∃ t, exec (.launchFar dt q) s = .next t ∧ t.queue q = r ∧
      t.ctr (Ctr.port x.port 0x3C8) = (s.ctr (Ctr.port x.port 0x3C8) + 1) % 2 ^ 64 ∧ (∀ q', q' ≠ q → t.queue q' = s.queue q')) ∧
  (∀ (s : State) (dt q : Nat) (x : QEnt) (r : List QEnt), isQueue q = true → s.mainUp = true → s.queue q = x :: r → isEgress q = true →
    x.doomed = false → x.port < 144 → (s.begun dt).gateTooLong q x = true →
    ∃ t, exec (.gateOversize dt q) s = .next t ∧ t.queue q = r ∧
      t.ctr (Ctr.port x.port 0x3D0) = (s.ctr (Ctr.port x.port 0x3D0) + 1) % 2 ^ 64 ∧ (∀ q', q' ≠ q → t.queue q' = s.queue q'))

/-- R212, R275, R277: A port that is up, enabled and idle, with a leaf to serve, takes that queue's head into its transmitter, as long as its group's
engine and the port itself may still select in this CD24 cycle. When the last byte of a frame has crossed the MAC of an Ethernet port that loops
nothing back to itself the transmitter is free, the frame and its bytes are counted, and its reference goes: with the last one all its cells in one
release that claims its owner, and its descriptor. -/
def Obligations.Transmission : Prop :=
  (∀ (s : State) (dt p q : Nat) (pl : Planish) (x : QEnt) (r : List QEnt), p < 144 → s.mainUp = true → s.portDown p = false →
    s.fld (Fld.PT_STATUS_EN_STATE p) = 1 → (s.port p).tx = none → (s.port p).aside = [] → (s.port p).modeDue = none → s.portAbsent p = false →
    s.framerRoom p = true → (s.begun dt).maySelect p = true → (s.begun dt).walkPort p = some (q, pl) → s.queue q = x :: r → (s.begun dt).singleton x = false →
    ∃ t y, exec (.selectFrame dt p) s = .next t ∧ (t.port p).tx = some y ∧ y.ent = x ∧ t.queue q = r ∧
      (∀ q', q' ≠ q → t.queue q' = s.queue q') ∧ (∀ p', p' ≠ p → t.port p' = s.port p')) ∧
  (∀ (s : State) (dt p : Nat) (x : TxSt) (f : Frame), p < 144 → s.mainUp = true → (s.port p).tx = some x → x.phase = .sending →
    x.since + s.lineTime p x.ent.data.length ≤ s.now + dt → (s.port p).modeDue = none → s.frame? x.ent.fid = some f →
    s.crfOn p = false → s.fld (Fld.PT_CTRL_LOOPBACK p) ≠ 1 → (s.port p).loop = [] →
    ∃ t, exec (.txLastByte dt p) s = .next t ∧ (t.port p).tx = none ∧
      t.ctr (Ctr.port p 0x108) = (s.ctr (Ctr.port p 0x108) + 1) % 2 ^ 64 ∧
      t.ctr (Ctr.port p 0x100) = (s.ctr (Ctr.port p 0x100) + x.ent.data.length) % 2 ^ 64 ∧
      (1 < f.ref → t.frame? x.ent.fid = some { f with ref := f.ref - 1 } ∧ t.pool = (s.begun dt).pool) ∧
      (f.ref ≤ 1 → t.frame? x.ent.fid = none ∧ t.pool = ((s.begun dt).releaseCells relRef f.owner f.cells).pool) ∧
      (∀ p', p' ≠ p → p' ≠ x.ent.port → t.port p' = s.port p'))

/-! ### The path of a frame (chapters 5 to 8) -/

/-- R49, R50, R57, R192, R193: A frame cut short, longer than 10,240 bytes, longer than the MTU, shorter than 64 bytes with a bad or a good FCS, or with a
bad FCS, adds 1 to the counter of its case and stores nothing; its cells go back. A good frame that is no MAC control frame, all of whose cells the
port has been granted, becomes a new frame with its bytes, its port and its cells, and its bytes are counted. The line's errors are counted either
way. (The port is in a mode and does not loop back to itself; without any byte the command brings the line's errors alone, by the model's choice of
log entry 42.) -/
def Obligations.Reception : Prop :=
  (∀ (s : State) (dt p : Nat) (bs : List Byte) (cut : Bool) (e : LineErrs), p < 144 → s.mainUp = true → s.portAbsent p = false → s.receives p = true →
    s.fld (Fld.PT_STATUS_ACTIVE_MODE p) ≠ 0 → s.fld (Fld.PT_CTRL_LOOPBACK p) ≠ 1 → (bs ≠ [] ∨ cut = true) →
    s.pgAsleep (groupOf p) = false → s.rxCase p bs cut ≠ .good →
    ∃ t, exec (.frameRxEnd dt p bs cut e) s = .next t ∧ (t.port p).rxOn = false ∧ (t.port p).rxCells = [] ∧ t.fab.frames = s.fab.frames ∧
      t.ctr (Ctr.port p 0x200) = (s.ctr (Ctr.port p 0x200) + e.blocks) % 2 ^ 64 ∧
      t.ctr (Ctr.port p 0x210) = (s.ctr (Ctr.port p 0x210) + e.uncorrected) % 2 ^ 64 ∧
      (cut = true → t.ctr (Ctr.port p 0x050) = (s.ctr (Ctr.port p 0x050) + 1) % 2 ^ 64) ∧
      (cut = false → 10240 < bs.length → t.ctr (Ctr.port p 0x048) = (s.ctr (Ctr.port p 0x048) + 1) % 2 ^ 64) ∧
      (cut = false → bs.length ≤ 10240 → s.mtu p < bs.length → t.ctr (Ctr.port p 0x040) = (s.ctr (Ctr.port p 0x040) + 1) % 2 ^ 64) ∧
      (cut = false → bs.length < 64 → fcsGood bs = false → t.ctr (Ctr.port p 0x038) = (s.ctr (Ctr.port p 0x038) + 1) % 2 ^ 64) ∧
      (cut = false → bs.length < 64 → fcsGood bs = true → t.ctr (Ctr.port p 0x030) = (s.ctr (Ctr.port p 0x030) + 1) % 2 ^ 64) ∧
      (cut = false → 64 ≤ bs.length → bs.length ≤ s.mtu p → fcsGood bs = false →
        t.ctr (Ctr.port p 0x028) = (s.ctr (Ctr.port p 0x028) + 1) % 2 ^ 64)) ∧
  (∀ (s : State) (dt p : Nat) (bs : List Byte) (e : LineErrs), p < 144 → s.mainUp = true → s.portAbsent p = false → s.receives p = true →
    s.fld (Fld.PT_STATUS_ACTIVE_MODE p) ≠ 0 → s.fld (Fld.PT_CTRL_LOOPBACK p) ≠ 1 → s.pgAsleep (groupOf p) = false → 64 ≤ bs.length → bs.length ≤ s.mtu p → fcsGood bs = true → isMacCtl bs = false →
    (s.port p).rxRefused = false → (s.port p).rxCells.length = cellsFor bs.length → s.inMemFlush (s.port p).rxCells = false →
    ∃ t f, exec (.frameRxEnd dt p bs false e) s = .next t ∧ t.frame? s.fab.nextFid = some f ∧ f.data = bs ∧ f.src = p ∧
      f.cells = (s.port p).rxCells ∧ f.stage = .stored ∧ (t.port p).rxOn = false ∧
      t.ctr (Ctr.port p 0x000) = (s.ctr (Ctr.port p 0x000) + bs.length) % 2 ^ 64 ∧
      t.ctr (Ctr.port p 0x008) = (s.ctr (Ctr.port p 0x008) + 1) % 2 ^ 64 ∧
      t.ctr (Ctr.port p 0x200) = (s.ctr (Ctr.port p 0x200) + e.blocks) % 2 ^ 64 ∧
      t.ctr (Ctr.port p 0x210) = (s.ctr (Ctr.port p 0x210) + e.uncorrected) % 2 ^ 64 ∧
      (∀ p', p' ≠ p → t.port p' = s.port p')) ∧
  (∀ (s : State) (dt p : Nat) (e : LineErrs), p < 144 → s.mainUp = true → s.fld (Fld.PT_CTRL_LOOPBACK p) = 0 → s.portAbsent p = false →
    s.fld (Fld.PT_STATUS_ACTIVE_MODE p) ≠ 0 → s.fld (Fld.PT_STATUS_EN_STATE p) ≠ 0 →
    ∃ t, exec (.frameRxEnd dt p [] false e) s = .next t ∧ t.ctr (Ctr.port p 0x200) = (s.ctr (Ctr.port p 0x200) + e.blocks) % 2 ^ 64 ∧
      t.ctr (Ctr.port p 0x208) = (s.ctr (Ctr.port p 0x208) + e.corrected) % 2 ^ 64 ∧
      t.ctr (Ctr.port p 0x210) = (s.ctr (Ctr.port p 0x210) + e.uncorrected) % 2 ^ 64 ∧
      t.ctr (Ctr.port p 0x218) = (s.ctr (Ctr.port p 0x218) + e.symbols) % 2 ^ 64 ∧ (∀ q, t.port q = s.port q) ∧
      t.fab.frames = s.fab.frames)

/-- R14, R160, R196, R200, R212: INGRESS_LOOKUP takes the oldest stored frame of an input through stages 3 to 5 (no policer having served a later place of
the cycle's turn): it keeps its bytes and cells and no other frame and no queue changes. STAGE6_ADMIT queues a unicast frame without a destination
dwelling or copies, whose tests pass, behind the others of its VOQ or Foundry list, with one reference; a frame that has been dropped and has no copy
leaves nothing behind. That a command for a frame that would pass an older one of its input leaves it as it is, and one for a packet lane that sleeps,
is the model's reading of R14 and R474 (log entries 18 and 29). -/
def Obligations.StagesThreeToSix : Prop :=
  (∀ (s : State) (dt f : Nat) (x : Frame), s.mainUp = true → s.frame? f = some x → x.stage = .stored → s.behind f x = false →
    (∀ n, (s.begun dt).outOfTurn x.pipe [n] = false) →
    ∃ t y, exec (.ingressLookup dt f) s = .next t ∧ t.frame? f = some y ∧ y.stage = .looked ∧ y.data = x.data ∧ y.cells = x.cells ∧
      (∀ g, g ≠ f → t.frame? g = s.frame? g) ∧ (∀ q, t.queue q = s.queue q)) ∧
  (∀ (s : State) (dt f : Nat) (x : Frame), s.mainUp = true → s.frame? f = some x → s.behind f x = true →
    ∃ t, exec (.ingressLookup dt f) s = .next t ∧ (s.begun dt).frame t {}) ∧
  (∀ (s : State) (dt f lane q : Nat) (x : Frame), lane < 2 → s.mainUp = true → s.frame? f = some x → x.stage = .looked → x.drop = false →
    x.dest = .port q → x.dstDw = none → x.mirror = none → x.copyRing = none → x.host = none → (lane = 1 → s.laneOff x.pipe = false) →
    (s.begun dt).overtakes f x = false →
    ((s.begun dt).admitTests lane x (if s.useLists then fdyId q x.cls else voqId x.pipe q x.cls) 0x10 (some q) (some (pcqId q x.cls))
      x.parse.ect).1 = 0 →
    ∃ t y e, exec (.stage6Admit dt f lane) s = .next t ∧ t.frame? f = some y ∧ y.stage = .admitted ∧ y.ref = 1 ∧
      t.queue (if s.useLists then fdyId q x.cls else voqId x.pipe q x.cls) =
        s.queue (if s.useLists then fdyId q x.cls else voqId x.pipe q x.cls) ++ [e] ∧
      e.fid = f ∧ e.port = q ∧ e.cls = x.cls ∧ e.eq = pcqId q x.cls) ∧
  (∀ (s : State) (dt f lane : Nat) (x : Frame), lane < 2 → s.mainUp = true → s.frame? f = some x → x.stage = .looked → x.drop = true →
    x.mirror = none → x.copyRing = none → x.host = none → (lane = 1 → s.laneOff x.pipe = false) →
    (s.begun dt).overtakes f x = false →
    ∃ t, exec (.stage6Admit dt f lane) s = .next t ∧ t.frame? f = none ∧ (∀ q, t.queue q = s.queue q) ∧
      (∀ g, g ≠ f → t.frame? g = s.frame? g)) ∧
  (∀ (s : State) (dt f lane : Nat) (x : Frame), lane < 2 → s.mainUp = true → s.frame? f = some x → (s.begun dt).overtakes f x = true →
    ∃ t, exec (.stage6Admit dt f lane) s = .next t ∧ (s.begun dt).frame t {}) ∧
  (∀ (s : State) (dt f : Nat) (x : Frame), s.mainUp = true → s.frame? f = some x → s.laneOff x.pipe = true →
    ∃ t, exec (.stage6Admit dt f 1) s = .next t ∧ (s.begun dt).frame t {})

/-- R210, R212, R213, R216, R217, R226, R229: With one unicast descriptor waiting in a VOQ and a free intake credit, a cycle of the arbiter takes it to
its egress queue with the bytes that stage 8 gives it; in FOUNDRY the arbiter is stopped, and the list manager does the same from a Foundry list. An
egress pipeline that replicates a multicast descriptor to the one port of its group that is there, up, enabled and below its threshold, without WRED,
queues one copy with its own bytes and its frame's admission time, and REF stays. That a unicast head goes through stage 8 in the step of its grant is
the model's choice (log entry 18). -/
def Obligations.Crossbar : Prop :=
  (∀ (s : State) (dt q : Nat) (x : QEnt) (f : Frame), s.mainUp = true → s.fab.queues = [(q, [x])] → isVoq q = true → s.fbState = fbVoq →
    x.left = [] → x.port < 144 → isEgress x.eq = true → (s.begun dt).credit (pipeOf x.port) = true → s.frame? x.fid = some f → x.data = [] →
    (s.egressData f x.port false).length ≤ s.mtu x.port →
    ∃ t, exec (.arbiterCycle dt) s = .next t ∧ t.queue q = [] ∧ t.queue x.eq = [{ x with data := s.egressData f x.port false }] ∧
      (s.begun dt).frame t { parts := [.fab, .pw] }) ∧
  (∀ (s : State) (dt : Nat), s.mainUp = true → s.fbState = fbFoundry →
    ∃ t, exec (.arbiterCycle dt) s = .next t ∧ (s.begun dt).frame t {}) ∧
  (∀ (s : State) (dt q : Nat) (x : QEnt) (f : Frame), s.mainUp = true → s.fab.queues = [(q, [x])] → isList q = true →
    s.fbState = fbFoundry → x.left = [] → x.port < 144 → isEgress x.eq = true → (s.begun dt).credit (pipeOf x.port) = true → s.frame? x.fid = some f →
    x.data = [] → (s.egressData f x.port false).length ≤ s.mtu x.port →
    ∃ t, exec (.listManagerCycle dt) s = .next t ∧ t.queue q = [] ∧ t.queue x.eq = [{ x with data := s.egressData f x.port false }] ∧
      (s.begun dt).frame t { parts := [.fab, .pw] }) ∧
  (∀ (s : State) (dt e g q : Nat) (x : QEnt) (r : List QEnt) (f : Frame) (ps : List Nat), e < 8 → q < 144 → s.mainUp = true →
    s.intakeOf e = x :: r → s.frame? x.fid = some f → f.dest = .group g → s.mcgPorts g = some ps →
    ps.filter (fun p => decide (pipeOf p = e) && !(decide (f.srcKind = 0 ∧ f.src = p))) = [q] →
    s.portAbsent q = false → s.fld (Fld.PT_STATUS_LINK q) = 1 → s.qEn (pcqId q f.cls) = true →
    (s.begun dt).threshOk (pcqId q f.cls) ((s.begun dt).qSnap (pcqId q f.cls)) f.cells.length ((s.begun dt).freeFor f.pool) = true →
    s.afld (Fld.CB_QPROF0_WRED_EN (s.qProf (pcqId q f.cls))) = 0 → s.fab.mcUsed < 262144 → 0 < f.ref →
    (s.egressData { f with ecn := false, dstDw := none } q true).length ≤ s.mtu q →
    ∃ t y c, exec (.egressReplicate dt e) s = .next t ∧ t.intakeOf e = r ∧ t.frame? x.fid = some y ∧ y.ref = f.ref ∧
      t.queue (pcqId q f.cls) = s.queue (pcqId q f.cls) ++ [c] ∧ c.port = q ∧ c.copy = true ∧ c.fid = x.fid ∧ c.atTime = x.atTime ∧
      c.data = s.egressData { f with ecn := false, dstDw := none } q true)

/-- R143, R201, R205, R241, R280, R283, R340: A refill brings a bucket to the level it has reached at the start of its CD24 cycle: an enabled one rises at
its rate up to its burst. A WRED seed goes into its pipeline's register and random source, 0 as 0xACE1, and into no other. Clearing EN of a queue
leaves it DRAINING while it holds cells, else IDLE (a spare identifier names no queue and nothing changes); an empty disabled queue is IDLE. Clearing
EN of a mirror session stops it: STATE reads DRAINING while a copy of it is queued, in an intake or in a transmitter, and IDLE once none is. That
QUEUE_DRAINED and MIRROR_SESSION_DRAINED themselves store nothing, since STATE follows from what is left, is the model's choice (log entry 32). When
RESET_MS has run out a dwelling's recovery forgets its history and takes any number next. -/
def Obligations.QueueControls : Prop :=
  (∀ (s : State) (dt k i a : Nat), bucketIs k i = true → s.mainUp = true → levelAddr k i = some a →
    ∃ t, exec (.bucketRefill dt k i) s = .next t ∧
      t.bucket a = { (s.begun dt).bucketNow a with level := (s.begun dt).level a, atTime := (s.now + dt) / 60 * 60 } ∧
      ((s.bucket a).setCyc = none → (t.bucket a).level =
        if (s.bcfg a).en then min (((s.bcfg a).burst : Int) * byteUnit)
          ((s.bucket a).level + ((s.bcfg a).rate : Int) * (((s.now + dt) / 60 * 60 - (s.bucket a).atTime : Nat) : Int))
        else (s.bucket a).level) ∧
      (∀ b, b ≠ a → t.bucket b = s.bucket b) ∧ (s.begun dt).frame t { parts := [.pl] }) ∧
  (∀ (s : State) (dt i v : Nat), i < 8 → s.mainUp = true →
    ∃ t, exec (.wredSeedWrite dt i v) s = .next t ∧ t.lfsr i = (if v % 65536 = 0 then 0xACE1 else v % 65536) ∧
      (t.reg (0xC00180 + 4 * i)).toNat % 65536 = v % 65536 ∧ (∀ j, j ≠ i → t.lfsr j = s.lfsr j) ∧
      t.fab = { (s.begun dt).fab with lfsr := t.fab.lfsr } ∧
      (s.begun dt).frame t { parts := [.fab], regs := (· = 0xC00180 + 4 * i) }) ∧
  (∀ (s : State) (dt q : Nat), q < 0x13D90 → s.mainUp = true →
    ∃ t, exec (.queueDisable dt q) s = .next t ∧ t.qEn q = false ∧ t.qState q = (if 0 < s.qLen q then 2 else 0) ∧
      (∀ q', q' ≠ q → t.qEn q' = s.qEn q') ∧
      (s.begun dt).frame t { regs := (· = 0xC10000 + q / 4 * 4) }) ∧
  (∀ (s : State) (dt q : Nat), isQueue q = true → 0x13D90 ≤ q → s.mainUp = true →
    ∃ t, exec (.queueDisable dt q) s = .next t ∧ (s.begun dt).frame t {}) ∧
  (∀ (s : State) (dt q : Nat), isQueue q = true → s.mainUp = true → s.qEn q = false → s.qLen q = 0 →
    ∃ t, exec (.queueDrained dt q) s = .next t ∧ t.qState q = 0 ∧ (s.begun dt).frame t {}) ∧
  (∀ (s : State) (dt n : Nat), n < 8 → s.mainUp = true →
    ∃ t, exec (.mirrorSessionDisable dt n) s = .next t ∧ t.fld (Fld.FB_MIRROR_CTRL_EN n) = 0 ∧
      (t.view 0 (Reg.FB_MIRROR_STAT n)).toNat = (if s.mirrorBusy n then 2 else 0) ∧
      (s.begun dt).frame t { regs := (· = Reg.FB_MIRROR_CTRL n) }) ∧
  (∀ (s : State) (dt n : Nat), n < 8 → s.mainUp = true → s.fld (Fld.FB_MIRROR_CTRL_EN n) = 0 →
    (∀ q x, x ∈ s.queue q → x.mirror ≠ some n) → (∀ e x, x ∈ s.intakeOf e → x.mirror ≠ some n) →
    (∀ e ∈ s.ports, (∀ y, e.2.tx = some y → y.ent.mirror ≠ some n) ∧ ∀ y ∈ e.2.aside, y.ent.mirror ≠ some n) →
    (∀ e ∈ s.crfs, (∀ y ∈ e.2.tx.units, y.ent.mirror ≠ some n) ∧ ∀ y, e.2.tx.open_ = some y → y.ent.mirror ≠ some n) →
    (∀ e ∈ s.fab.queues, s.queue e.1 = e.2) → (∀ e ∈ s.fab.intake, s.intakeOf e.1 = e.2) →
    ∃ t, exec (.mirrorSessionDrained dt n) s = .next t ∧ (t.view 0 (Reg.FB_MIRROR_STAT n)).toNat = 0 ∧ (s.begun dt).frame t {}) ∧
  (∀ (s : State) (dt n q : Nat) (x : QEnt), n < 8 → s.mainUp = true → s.fld (Fld.FB_MIRROR_CTRL_EN n) = 0 → x ∈ s.queue q →
    x.mirror = some n →
    ∃ t, exec (.mirrorSessionDrained dt n) s = .next t ∧ (t.view 0 (Reg.FB_MIRROR_STAT n)).toNat = 2 ∧ (s.begun dt).frame t {}) ∧
  (∀ (s : State) (dt d : Nat), d < 16384 → s.mainUp = true → (s.recovery d).take = false → (s.recovery d).lastAt + s.recReset d ≤ s.now + dt →
    ∃ t, exec (.recoveryResetTimeout dt d) s = .next t ∧ (t.recovery d).take = true ∧ (t.recovery d).hist = 0 ∧
      (∀ d', d' ≠ d → t.recovery d' = s.recovery d') ∧ (s.begun dt).frame t { parts := [.tw] })

/-! ### Cells (chapter 9) -/

/-- R250, R251, R254, R256, R258, R259, R260, R261, R263: A reception that asks for a cell of a pool with one available gets it, USED and owned by its
pipeline (in FOUNDRY and LEAVING by 0x0A); so does the host interface for the frame that it fetches, with owner 0x08, and Anvil with 0x09. A release
of n USED cells of its claimed owner, chained by their links and each in a pool, has freed them all, and no other cell, once the cycle of its last
checks has come: n / 8 cycles, rounded up, from the one in which it begins. It stops at the first cell that another owner holds: that cell and every
other one keep their state, and FOREIGN_FREE is counted and raised. The checks come with time, and CELL_RELEASE_DONE itself changes nothing. Which
place in a cycle's order a command's request or release has, and that a release commanded after a later place of its cycle begins in the next one, is
the model's choice (log entry 43). -/
def Obligations.CellRequests : Prop :=
  (∀ (s : State) (dt p n c : Nat) (u : State), p < 144 → s.mainUp = true → s.receives p = true → s.pgAsleep (groupOf p) = false →
    (s.port p).rxRefused = false → (s.port p).rxCells = [] → (s.port p).rxOn = false → s.isl.rxOpen = true →
    (s.begun dt).rxPoolFor (pipeOf p) = some n →
    ((s.begun dt).pgUse (groupOf p)).alloc n (if s.shared then 0x0A else pipeOf p) (pipeOf p) = (some c, u) →
    ∃ t, exec (.cellAlloc dt (.rxPort p)) s = .next t ∧ (t.port p).rxCells = [c] ∧ (t.port p).rxOn = true ∧ (t.cell c).used = true ∧
      (t.cell c).owner = (if s.shared then 0x0A else pipeOf p)) ∧
  (∀ (s : State) (dt r c : Nat) (j : Job) (u : State), r < 4096 → s.mainUp = true → s.fetchJob r = some j → j.cells = [] →
    (s.begun dt).alloc (s.rPool r) 8 slotHost = (some c, u) →
    ∃ t, exec (.cellAlloc dt (.host r)) s = .next t ∧ (t.cell c).used = true ∧ (t.cell c).owner = 8 ∧
      (t.ring r).jobs = (s.ring r).jobs.map (fun x => if x.num = j.num then { j with cells := [c] } else x) ∧
      (∀ r', r' ≠ r → t.ring r' = s.ring r')) ∧
  (∀ (s : State) (dt c : Nat) (u : State), s.mainUp = true → s.pool.avCells = [] →
    (s.begun dt).alloc (s.fld Fld.CB_ANVIL_POOL_POOL) 9 slotAnvil = (some c, u) →
    ∃ t, exec (.cellAlloc dt .anvil) s = .next t ∧ t.pool.avCells = [c] ∧ (t.cell c).used = true ∧ (t.cell c).owner = 9) ∧
  (∀ (s : State) (dt d o : Nat) (cs : List Nat), o < 64 → 1 ≤ cs.length → cs.length ≤ 40 → s.mainUp = true → s.pool.walks = [] →
    cs.headD 0 < 524288 → cs.Nodup → (∀ c ∈ cs, (s.cell c).used = true ∧ (s.cell c).owner = o ∧ (s.poolOf c).isSome = true) →
    (∀ k, k + 1 < cs.length → (s.cell (cs.getD k 0)).link = cs.getD (k + 1) 0) →
    ((s.begun dt).relTurn (claimRank o)).1 + (cs.length + 7) / 8 - 1 ≤ (s.now + dt + d) / 50 →
    ∃ t u, exec (.cellRelease dt o (cs.headD 0) cs.length) s = .next t ∧ (s.begun dt).frame t { parts := [.pool] } ∧
      exec (.cellReleaseDone d) t = .next u ∧ u.pool.walks = [] ∧ (∀ c ∈ cs, (u.cell c).used = false) ∧
      (∀ c, c ∉ cs → u.cell c = s.cell c) ∧ (∀ a, u.reg a = s.reg a)) ∧
  (∀ (s : State) (dt d o n x : Nat) (cs : List Nat), o < 64 → cs.length < n → n ≤ 40 → s.mainUp = true → s.pool.walks = [] →
    (cs ++ [x]).headD 0 < 524288 → cs.Nodup → (∀ c ∈ cs, (s.cell c).used = true ∧ (s.cell c).owner = o ∧ (s.poolOf c).isSome = true) →
    (∀ k, k < cs.length → (s.cell (cs.getD k 0)).link = (cs ++ [x]).getD (k + 1) 0) →
    (s.cell x).used = true → (s.cell x).owner ≠ o → (s.poolOf x).isSome = true →
    (SMap.get (fun _ => CellSt.reset) (s.begun dt).pool.snap x).used = true →
    ((s.begun dt).relTurn (claimRank o)).1 + (n + 7) / 8 - 1 ≤ (s.now + dt + d) / 50 →
    ∃ t u, exec (.cellRelease dt o ((cs ++ [x]).headD 0) n) s = .next t ∧ exec (.cellReleaseDone d) t = .next u ∧ u.pool.walks = [] ∧
      (∀ c ∈ cs, (u.cell c).used = false) ∧ (∀ c, c ∉ cs → u.cell c = s.cell c) ∧
      u.ctrNow 0x2500808 = (s.ctrNow 0x2500808 + 1) % 2 ^ 64 ∧ bitOf (u.intNow Reg.CB_PM_INT_STATUS).toNat Fld.CB_PM_INT_STATUS_FOREIGN_FREE.lo = true) ∧
  (∀ (s : State) (dt : Nat), s.mainUp = true →
    ∃ t, exec (.cellReleaseDone dt) s = .next t ∧ (s.begun dt).frame t {} ∧ (s.pool.walks = [] → ∀ c, t.cell c = s.cell c))

/-- R251, R254, R257, R258, R262, R265, R266: While no command is under way: a QUERY changes no cell and shows the cell's state, owner, pool, number and
link. ALLOC, granted a cell, makes it USED with owner 0x3E and shows it; refused, it sets ERR and shows zeros. FREE frees a USED cell of owner 0x3E
and RECLAIM one of any owner, which it counts; on any other cell both set ERR and free nothing. That they act at once, after the checks of the
releases before them in their cycle (State.relSoft), is the model's choice (log entry 43), as is that a cell granted in that cycle counts as FREE. A
write of RESET sets a pool's MIN_FREE to its FREE. A write of POP discards the oldest error record. -/
def Obligations.CellCommands : Prop :=
  (∀ (s : State) (dt c : Nat), c < 524288 → s.mainUp = true → (s.begun dt).busy Reg.CB_CELL_CMD = false →
    ∃ t, exec (.cellQuery dt c) s = .next t ∧ t.fld Fld.CB_CELL_CMD_ERR = 0 ∧
      t.reg Reg.CB_CELL_RES = w32 (b2n ((s.poolOf c).isSome && ((s.begun dt).cell c).used) * 2 ^ 31 +
        (if (s.poolOf c).isSome then ((s.begun dt).cell c).owner else 0x3F) * 2 ^ 25 + (s.poolOf c).getD 0 * 2 ^ 19 + c) ∧
      t.reg Reg.CB_CELL_LINK = w32 (b2n (s.poolOf c).isNone * 2 ^ 31 + ((s.begun dt).cell c).link) ∧
      (s.begun dt).frame t { parts := [.goBusy, .free], regs := (· ∈ [Reg.CB_CELL_CMD, Reg.CB_CELL_RES, Reg.CB_CELL_LINK]) }) ∧
  (∀ (s : State) (dt n c : Nat) (u : State), n < 64 → s.mainUp = true → (s.begun dt).busy Reg.CB_CELL_CMD = false →
    ((s.begun dt).cellStart 1 n 0).alloc n 0x3E slotSw = (some c, u) →
    ∃ t, exec (.cellCmdAlloc dt n) s = .next t ∧ (t.cell c).used = true ∧ (t.cell c).owner = 0x3E ∧ (∀ d, d ≠ c → t.cell d = (s.begun dt).cell d) ∧
      t.fld Fld.CB_CELL_CMD_ERR = 0 ∧
      t.reg Reg.CB_CELL_RES = w32 (b2n (s.poolOf c).isSome * 2 ^ 31 + (if (s.poolOf c).isSome then 0x3E else 0x3F) * 2 ^ 25 +
        (s.poolOf c).getD 0 * 2 ^ 19 + c)) ∧
  (∀ (s : State) (dt n : Nat) (u : State), n < 64 → s.mainUp = true → (s.begun dt).busy Reg.CB_CELL_CMD = false →
    ((s.begun dt).cellStart 1 n 0).alloc n 0x3E slotSw = (none, u) →
    ∃ t, exec (.cellCmdAlloc dt n) s = .next t ∧ (∀ d, t.cell d = (s.begun dt).cell d) ∧ t.fld Fld.CB_CELL_CMD_ERR = 1 ∧ t.reg Reg.CB_CELL_RES = 0 ∧
      t.reg Reg.CB_CELL_LINK = 0) ∧
  (∀ (s : State) (dt c cyc : Nat) (u : Pool), c < 524288 → s.mainUp = true → (s.begun dt).busy Reg.CB_CELL_CMD = false →
    ((s.begun dt).cellStart 2 0 c).relSoft = (cyc, u) →
    ∃ t, exec (.cellFree dt c) s = .next t ∧ (∀ d, d ≠ c → t.cell d = u.cell d) ∧
      (if (u.cell c).used = true ∧ (s.poolOf c).isSome = true ∧ (u.cell c).owner = 0x3E then
        (t.cell c).used = false ∧ t.fld Fld.CB_CELL_CMD_ERR = 0
       else t.cell c = u.cell c ∧ t.fld Fld.CB_CELL_CMD_ERR = 1)) ∧
  (∀ (s : State) (dt c cyc : Nat) (u : Pool), c < 524288 → s.mainUp = true → (s.begun dt).busy Reg.CB_CELL_CMD = false →
    ((s.begun dt).cellStart 3 0 c).relSoft = (cyc, u) →
    ∃ t, exec (.cellReclaim dt c) s = .next t ∧ (∀ d, d ≠ c → t.cell d = u.cell d) ∧
      (if (u.cell c).used = true ∧ (s.poolOf c).isSome = true ∧ (s.begun dt).grantedNow 0x3E cyc c u = false then
        (t.cell c).used = false ∧ t.fld Fld.CB_CELL_CMD_ERR = 0 ∧ t.ctr 0x2500818 = (s.ctr 0x2500818 + 1) % 2 ^ 64
       else t.cell c = u.cell c ∧ t.fld Fld.CB_CELL_CMD_ERR = 1)) ∧
  (∀ (s : State) (dt n : Nat), n < 64 → s.mainUp = true →
    ∃ t, exec (.poolWmReset dt n) s = .next t ∧ t.minFree n = (s.begun dt).poolFree n ∧ (s.begun dt).frame t { parts := [.pool] }) ∧
  (∀ (s : State) (dt : Nat), s.mainUp = true →
    ∃ t, exec (.pmErrPop dt) s = .next t ∧ t.pool = { (s.begun dt).pool with log := (s.begun dt).pool.log.drop 1 } ∧
      (s.begun dt).frame t { parts := [.pool] })

/-! ### Fabric modes (chapter 8) -/

/-- R228, R229, R230, R231, R232: In VOQ a request for Foundry mode or a recalibration fences every port and goes to ENTERING; a port's fence lifts when
its VOQs are empty, and with no VOQ holding a descriptor the state is FOUNDRY. With its only reason gone and the arbiter calibrated it goes to
LEAVING, fences every port, and with no list holding one it is VOQ. Both arrivals raise MODE_CHG. A calibration ends with CAL_OK and its reason gone,
or with CAL_FAIL and its event; that it ends so in whatever fabric state it is under way is the model's choice (log entry 32), as R232 speaks of
FOUNDRY alone. -/
def Obligations.FabricModes : Prop :=
  (∀ (s : State) (dt : Nat), s.mainUp = true → s.fbState = fbVoq → s.fld Fld.FB_MODE_CTRL_MODE_REQ = 0 →
    ∃ t, exec (.modeReq dt true) s = .next t ∧ t.fld Fld.FB_MODE_CTRL_MODE_REQ = 1 ∧ t.reasons = s.reasons ||| reasonSw ∧ t.fbState = fbEntering ∧
      t.fab.fence = List.range 144 ∧
      (s.begun dt).frame t { parts := [.fab], regs := (· ∈ [Reg.FB_MODE_CTRL, Reg.FB_MODE_STATUS]) }) ∧
  (∀ (s : State) (dt : Nat), s.mainUp = true → s.fbState = fbFoundry → s.fld Fld.FB_MODE_CTRL_MODE_REQ = 1 → s.reasons = reasonSw →
    s.fld Fld.FB_MODE_STATUS_CAL_OK = 1 →
    ∃ t, exec (.modeReq dt false) s = .next t ∧ t.fld Fld.FB_MODE_CTRL_MODE_REQ = 0 ∧ t.reasons = 0 ∧ t.fbState = fbLeaving ∧
      t.fab.fence = List.range 144 ∧
      (s.begun dt).frame t { parts := [.fab], regs := (· ∈ [Reg.FB_MODE_CTRL, Reg.FB_MODE_STATUS]) }) ∧
  (∀ (s : State) (dt : Nat), s.mainUp = true → s.fbState = fbVoq →
    ∃ t, exec (.recal dt) s = .next t ∧ t.fld Fld.FB_MODE_CTRL_RECAL = 1 ∧ t.fld Fld.FB_MODE_STATUS_CAL_FAIL = 0 ∧
      t.fld Fld.FB_MODE_STATUS_CAL_OK = 0 ∧ t.fab.calAt = some (s.now + dt) ∧ t.fbState = fbEntering ∧
      (s.begun dt).frame t { parts := [.fab], regs := (· ∈ [Reg.FB_MODE_CTRL, Reg.FB_MODE_STATUS]) }) ∧
  (∀ (s : State) (dt : Nat), s.mainUp = true → s.fab.calAt ≠ none → s.fbState = fbFoundry → s.reasons = reasonCal →
    ∃ t, exec (.calComplete dt true) s = .next t ∧ t.fld Fld.FB_MODE_STATUS_CAL_OK = 1 ∧ t.fab.calAt = none ∧ t.reasons = 0 ∧
      t.fbState = fbLeaving ∧ t.fab.fence = List.range 144) ∧
  (∀ (s : State) (dt : Nat), s.mainUp = true → s.fab.calAt ≠ none →
    ∃ t, exec (.calComplete dt true) s = .next t ∧ t.fld Fld.FB_MODE_STATUS_CAL_OK = 1 ∧ t.fld Fld.FB_MODE_CTRL_RECAL = 0 ∧ t.fab.calAt = none ∧
      t.reasons = s.reasons - (s.reasons &&& reasonCal)) ∧
  (∀ (s : State) (dt : Nat), s.mainUp = true → s.fab.calAt ≠ none →
    ∃ t, exec (.calComplete dt false) s = .next t ∧ t.fld Fld.FB_MODE_STATUS_CAL_FAIL = 1 ∧ t.fld Fld.FB_INT_STATUS_CAL_FAIL = 1 ∧
      t.fbState = s.fbState ∧ t.reasons = s.reasons) ∧
  (∀ (s : State) (dt q : Nat), q < 144 → s.mainUp = true → s.fbState = fbEntering → s.fenced q = true → s.voqsEmpty q = true →
    ∃ t, exec (.fenceLiftInward dt q) s = .next t ∧ t.fenced q = false ∧ (∀ q', q' ≠ q → t.fenced q' = s.fenced q') ∧
      (s.begun dt).frame t { parts := [.fab] }) ∧
  (∀ (s : State) (dt : Nat), s.mainUp = true → s.fbState = fbEntering → s.noVoq = true → s.reasons ≠ 0 → s.fab.fabNew = [] →
    s.fab.memMask = 0 →
    ∃ t, exec (.foundryReached dt) s = .next t ∧ t.fbState = fbFoundry ∧ t.fab.fence = [] ∧ t.fld Fld.FB_INT_STATUS_MODE_CHG = 1 ∧
      t.fab.testBank = (if s.reasons &&& reasonTest ≠ 0 ∧ s.fab.testBank = none then some (0, false, s.now + dt) else s.fab.testBank) ∧
      (s.begun dt).frame t { parts := [.fab, .pool], regs := (· ∈ [Reg.FB_MODE_STATUS, Reg.FB_INT_STATUS]) }) ∧
  (∀ (s : State) (dt q : Nat), q < 144 → s.mainUp = true → s.fbState = fbLeaving → s.fenced q = true → s.listsEmpty q = true →
    ∃ t, exec (.fenceLiftOutward dt q) s = .next t ∧ t.fenced q = false ∧ (∀ q', q' ≠ q → t.fenced q' = s.fenced q') ∧
      (s.begun dt).frame t { parts := [.fab] }) ∧
  (∀ (s : State) (dt : Nat), s.mainUp = true → s.fbState = fbLeaving → s.noList = true → s.reasons = 0 →
    ∃ t, exec (.voqReached dt) s = .next t ∧ t.fbState = fbVoq ∧ t.fab.fence = [] ∧ t.fld Fld.FB_INT_STATUS_MODE_CHG = 1 ∧
      (s.fab.everVoq = false → s.isl.keep = false → t.isl.rxOpen = true) ∧ (s.stage = stCal → t.stage = stService))

/-- R234, R235, R432: A write of TEST clears the list of skipped banks and raises the reason TEST. In FOUNDRY a bank without a USED cell begins its test;
0.5 ms later it passes or is marked failing, and one still in use after 100 ms is skipped; the next bank follows, and after bank 31 the test ends,
TEST clears and TEST_DONE is raised. A reloaded partition is applied once no frame and no USED cell lies in its banks; the cells of every pool that it
rebuilds, and no others, are then as out of reset. That a write of TEST clears the skipped banks, and which pools a partition rebuilds (those whose
range or owner it changes), are the model's choices (log entry 32). -/
def Obligations.BankTests : Prop :=
  (∀ (s : State) (dt : Nat), s.mainUp = true → s.fbState = fbVoq → s.fld Fld.FB_MODE_CTRL_TEST = 0 →
    ∃ t, exec (.bankTest dt) s = .next t ∧ t.fld Fld.FB_MODE_CTRL_TEST = 1 ∧ t.fld Fld.FB_TEST_SKIP_BANKS = 0 ∧
      t.reasons = s.reasons ||| reasonTest ∧ t.fbState = fbEntering ∧
      (s.begun dt).frame t { parts := [.fab], regs := (· ∈ [Reg.FB_MODE_CTRL, Reg.FB_MODE_STATUS, Reg.FB_TEST_SKIP]) }) ∧
  (∀ (s : State) (dt b at_ : Nat), b < 32 → s.mainUp = true → s.fab.testBank = some (b, false, at_) → s.fbState = fbFoundry →
    (s.begun dt).banksFree (2 ^ b) = true →
    ∃ t, exec (.bankTestBankStart dt b) s = .next t ∧ t.fab.testBank = some (b, true, s.now + dt) ∧
      (s.begun dt).frame t { parts := [.fab] }) ∧
  (∀ (s : State) (dt b at_ : Nat) (pass : Bool), b < 31 → s.mainUp = true → s.fab.testBank = some (b, true, at_) → at_ + tMs / 2 ≤ s.now + dt →
    ∃ t, exec (.bankTestBankDone dt b pass) s = .next t ∧ t.fab.testBank = some (b + 1, false, s.now + dt) ∧
      t.fld Fld.FB_TEST_FAIL_BANKS = (if pass then s.fld Fld.FB_TEST_FAIL_BANKS else s.fld Fld.FB_TEST_FAIL_BANKS ||| 2 ^ b) ∧
      (s.begun dt).frame t { parts := [.fab, .pool], regs := (· = Reg.FB_TEST_FAIL) }) ∧
  (∀ (s : State) (dt at_ : Nat) (pass : Bool), s.mainUp = true → s.fab.testBank = some (31, true, at_) → at_ + tMs / 2 ≤ s.now + dt →
    ∃ t, exec (.bankTestBankDone dt 31 pass) s = .next t ∧ t.fab.testBank = none ∧ t.fld Fld.FB_MODE_CTRL_TEST = 0 ∧
      t.fld Fld.FB_INT_STATUS_TEST_DONE = 1 ∧ t.reasons = s.reasons - (s.reasons &&& reasonTest)) ∧
  (∀ (s : State) (dt b at_ : Nat), b < 31 → s.mainUp = true → s.fab.testBank = some (b, false, at_) → at_ + 100 * tMs ≤ s.now + dt →
    (s.begun dt).banksFree (2 ^ b) = false →
    ∃ t, exec (.bankTestSkip dt b) s = .next t ∧ t.fab.testBank = some (b + 1, false, s.now + dt) ∧
      t.fld Fld.FB_TEST_SKIP_BANKS = s.fld Fld.FB_TEST_SKIP_BANKS ||| 2 ^ b ∧
      (s.begun dt).frame t { parts := [.fab, .pool], regs := (· = Reg.FB_TEST_SKIP) }) ∧
  (∀ (s : State) (dt at_ : Nat), s.mainUp = true → s.fab.testBank = some (31, false, at_) → at_ + 100 * tMs ≤ s.now + dt →
    (s.begun dt).banksFree (2 ^ 31) = false →
    ∃ t, exec (.bankTestSkip dt 31) s = .next t ∧ t.fab.testBank = none ∧ t.fld Fld.FB_MODE_CTRL_TEST = 0 ∧
      t.fld Fld.FB_TEST_SKIP_BANKS = s.fld Fld.FB_TEST_SKIP_BANKS ||| 2 ^ 31 ∧ t.fld Fld.FB_INT_STATUS_TEST_DONE = 1 ∧
      t.reasons = s.reasons - (s.reasons &&& reasonTest)) ∧
  (∀ (s : State) (dt : Nat), s.mainUp = true → s.fbState = fbFoundry → s.fab.memNew ≠ [] → s.fab.frames = [] → s.fab.queues = [] →
    s.fab.intake = [] → (s.begun dt).banksFree s.fab.memMask = true → s.bt.reload = none →
    ∃ t, exec (.memReloadApply dt) s = .next t ∧ t.fab.memNew = [] ∧ t.fab.memMask = 0 ∧ t.region 2 = s.fab.memNew ∧
      (∀ c, memRebuilt (s.region 2) s.fab.memNew (c / 1024) (c / 1024 + 1) = true → t.cell c = ⟨false, 0x3F, 0, none⟩) ∧
      (∀ c, memRebuilt (s.region 2) s.fab.memNew (c / 1024) (c / 1024 + 1) = false → t.cell c = (s.begun dt).cell c) ∧
      t.reasons = s.reasons - (s.reasons &&& reasonMem))

/-! ### Lookup planes (chapters 5 and 6) -/

/-- R130, R131, R135, R146, R147, R520: Given by an initiator that reaches the plane while no command is under way there, on a Filigree entry of a bank
whose format is in use: WRITE makes the entry valid with VALUE, CARE and ACTION of the staging registers, INVALIDATE clears its valid bit and keeps
the rest (in a 640-bit bank entry n + 1 takes words 10 to 19 and the action, and goes with n: the model's choice, log entry 26), READ changes no entry
and, once GO reads 0, shows the entry's VALUE, CARE and valid bit. In a bank whose format is not in use a WRITE sets ERR and changes no entry. On a
payload pattern: WRITE makes it valid with the staging registers' VALUE, CARE, configuration and port; INVALIDATE clears its valid bit and keeps the
rest; READ changes no pattern and, once GO reads 0, shows its VALUE, CARE, valid bit, configuration and port. With BCAST a WRITE or INVALIDATE acts so
on every plane that is there and on no other. (`u` is the state with the results of the plane's last command in their registers.) -/
def Obligations.EntryCommands : Prop :=
  (∀ (s u : State) (dt k n : Nat) (ini : Initiator), k < 4 → n < 8192 → s.mainUp = true → s.planeOn k = true →
    s.reaches ini (Reg.LP_FG_CMD k) 0 = true → (s.begun dt).busy (Reg.LP_FG_CMD k) = false → fmtOn (s.fgFormat k (n / 1024)) = true →
    (fmtWide (s.fgFormat k (n / 1024)) = true → n % 2 = 0) → (s.begun dt).land (Reg.LP_FG_CMD k) = u →
    (∃ t, exec (.fgWrite dt ini k n false) s = .next t ∧ t.fld (Fld.LP_FG_CMD_ERR k) = 0 ∧
      t.fgEnt k n = ⟨true, u.wordsNat (Reg.LP_FG_VALUE k 0) 10, u.wordsNat (Reg.LP_FG_CARE k 0) 10,
        (List.range 3).map (fun i => u.reg (Reg.LP_FG_ACTION k i))⟩ ∧
      (fmtWide (s.fgFormat k (n / 1024)) = true → t.fgEnt k (n + 1) = ⟨true, u.wordsNat (Reg.LP_FG_VALUE k 0 + 40) 10,
        u.wordsNat (Reg.LP_FG_CARE k 0 + 40) 10, (List.range 3).map (fun i => u.reg (Reg.LP_FG_ACTION k i))⟩) ∧
      (u.i2cDone ini (Reg.LP_FG_CMD k)).frame t { parts := [.pt, .goBusy, .free, .jn], regs := (· ∈ [Reg.LP_FG_CMD k, Reg.CM_INT_STATUS]) }) ∧
    (∃ t, exec (.fgInvalidate dt ini k n false) s = .next t ∧ t.fgEnt k n = { s.fgEnt k n with valid := false } ∧
      (fmtWide (s.fgFormat k (n / 1024)) = true → t.fgEnt k (n + 1) = { s.fgEnt k (n + 1) with valid := false }) ∧
      (u.i2cDone ini (Reg.LP_FG_CMD k)).frame t { parts := [.pt, .goBusy, .free, .jn], regs := (· ∈ [Reg.LP_FG_CMD k, Reg.CM_INT_STATUS]) }) ∧
    (∃ t, exec (.fgRead dt ini k n false) s = .next t ∧ t.pt = { s.pt with staged := t.pt.staged } ∧ t.jn = s.jn ∧
      (∀ e, (t.begun e).busy (Reg.LP_FG_CMD k) = false →
        ((t.begun e).land (Reg.LP_FG_CMD k)).fld (Fld.LP_FG_CMD_RD_VALID k) = b2n (s.fgEnt k n).valid ∧
        (∀ i, i < 10 → ((t.begun e).land (Reg.LP_FG_CMD k)).reg (Reg.LP_FG_VALUE k 0 + 4 * i) = w32 ((s.fgEnt k n).value / 2 ^ (32 * i)) ∧
          ((t.begun e).land (Reg.LP_FG_CMD k)).reg (Reg.LP_FG_CARE k 0 + 4 * i) = w32 ((s.fgEnt k n).care / 2 ^ (32 * i)))))) ∧
  (∀ (s : State) (dt k n : Nat) (ini : Initiator), k < 4 → n < 8192 → s.mainUp = true → s.planeOn k = true →
    s.reaches ini (Reg.LP_FG_CMD k) 0 = true → (s.begun dt).busy (Reg.LP_FG_CMD k) = false → fmtOn (s.fgFormat k (n / 1024)) = false →
    ∃ t, exec (.fgWrite dt ini k n false) s = .next t ∧ t.fld (Fld.LP_FG_CMD_ERR k) = 1 ∧ t.pt = { s.pt with staged := t.pt.staged }) ∧
  (∀ (s u : State) (dt k n : Nat) (ini : Initiator), k < 4 → n < 8192 → s.mainUp = true → s.planeOn k = true →
    s.reaches ini (Reg.LP_FG_CMD k) 0 = true → (s.begun dt).busy (Reg.LP_FG_CMD k) = false →
    (∀ j, j < 4 → s.planeOn j = true → fmtOn (s.fgFormat j (n / 1024)) = true ∧ fmtWide (s.fgFormat j (n / 1024)) = false) →
    (s.begun dt).land (Reg.LP_FG_CMD k) = u →
    (∃ t, exec (.fgWrite dt ini k n true) s = .next t ∧ t.fld (Fld.LP_FG_CMD_ERR k) = 0 ∧
      ∀ j m, j < 4 → m < 8192 → t.fgEnt j m = if s.planeOn j = true ∧ m = n then ⟨true, u.wordsNat (Reg.LP_FG_VALUE k 0) 10,
        u.wordsNat (Reg.LP_FG_CARE k 0) 10, (List.range 3).map (fun i => u.reg (Reg.LP_FG_ACTION k i))⟩ else s.fgEnt j m) ∧
    (∃ t, exec (.fgInvalidate dt ini k n true) s = .next t ∧ t.fld (Fld.LP_FG_CMD_ERR k) = 0 ∧
      ∀ j m, j < 4 → m < 8192 → t.fgEnt j m = if s.planeOn j = true ∧ m = n then { s.fgEnt j m with valid := false } else s.fgEnt j m)) ∧
  (∀ (s u : State) (dt k n : Nat) (ini : Initiator), k < 4 → n < 1024 → s.mainUp = true → s.planeOn k = true →
    s.reaches ini (Reg.LP_PM_CMD k) 0 = true → (s.begun dt).busy (Reg.LP_PM_CMD k) = false → (s.begun dt).land (Reg.LP_PM_CMD k) = u →
    (∃ t, exec (.patternWrite dt ini k n true) s = .next t ∧
      ∀ j m, j < 4 → m < 1024 → t.pattern j m = if s.planeOn j = true ∧ m = n then ⟨true, u.wordsNat (Reg.LP_PM_VALUE k 0) 4,
        u.wordsNat (Reg.LP_PM_CARE k 0) 4, (u.reg (Reg.LP_PM_CFG k)).toNat, (u.reg (Reg.LP_PM_PORT k)).toNat⟩ else s.pattern j m) ∧
    (∃ t, exec (.patternInvalidate dt ini k n true) s = .next t ∧
      ∀ j m, j < 4 → m < 1024 → t.pattern j m = if s.planeOn j = true ∧ m = n then { s.pattern j m with valid := false } else s.pattern j m)) ∧
  (∀ (s u : State) (dt k n : Nat) (ini : Initiator), k < 4 → n < 1024 → s.mainUp = true → s.planeOn k = true →
    s.reaches ini (Reg.LP_PM_CMD k) 0 = true → (s.begun dt).busy (Reg.LP_PM_CMD k) = false → (s.begun dt).land (Reg.LP_PM_CMD k) = u →
    (∃ t, exec (.patternWrite dt ini k n false) s = .next t ∧
      t.pattern k n = ⟨true, u.wordsNat (Reg.LP_PM_VALUE k 0) 4, u.wordsNat (Reg.LP_PM_CARE k 0) 4, (u.reg (Reg.LP_PM_CFG k)).toNat,
        (u.reg (Reg.LP_PM_PORT k)).toNat⟩ ∧
      (u.i2cDone ini (Reg.LP_PM_CMD k)).frame t { parts := [.pt, .goBusy, .free, .jn], regs := (· ∈ [Reg.LP_PM_CMD k, Reg.CM_INT_STATUS]) }) ∧
    (∃ t, exec (.patternInvalidate dt ini k n false) s = .next t ∧ t.pattern k n = { s.pattern k n with valid := false } ∧
      (u.i2cDone ini (Reg.LP_PM_CMD k)).frame t { parts := [.pt, .goBusy, .free, .jn], regs := (· ∈ [Reg.LP_PM_CMD k, Reg.CM_INT_STATUS]) }) ∧
    (∃ t, exec (.patternRead dt ini k n false) s = .next t ∧ t.pt = { s.pt with staged := t.pt.staged } ∧ t.jn = s.jn ∧
      (∀ e, (t.begun e).busy (Reg.LP_PM_CMD k) = false →
        ((t.begun e).land (Reg.LP_PM_CMD k)).fld (Fld.LP_PM_CMD_RD_VALID k) = b2n (s.pattern k n).valid ∧
        ((t.begun e).land (Reg.LP_PM_CMD k)).reg (Reg.LP_PM_CFG k) = w32 (s.pattern k n).cfg ∧
        ((t.begun e).land (Reg.LP_PM_CMD k)).reg (Reg.LP_PM_PORT k) = w32 (s.pattern k n).port ∧
        (∀ i, i < 4 → ((t.begun e).land (Reg.LP_PM_CMD k)).reg (Reg.LP_PM_VALUE k 0 + 4 * i) = w32 ((s.pattern k n).value / 2 ^ (32 * i)) ∧
          ((t.begun e).land (Reg.LP_PM_CMD k)).reg (Reg.LP_PM_CARE k 0 + 4 * i) = w32 ((s.pattern k n).care / 2 ^ (32 * i))))))

/-- R164, R168, R177, R178, R180, R181, R186, R520: On a plane that is there, with arguments in range and no command under way: INSERT of a new key takes
the lowest free place, and INSERT on an indexed table replaces the entry; DELETE empties the key's place, or gives an indexed entry its reset value;
no other entry changes. SEARCH and NEXT return the entry found and change no table. A flush leaves no qualifying entry and every other one. With BCAST
an INSERT or DELETE acts so on every plane that is there and on no other. Once GO reads 0, each shows its answer: OK in the nibbles of its planes, 0xF
in the others. What the data words of a DELETE show on an indexed table is the model's choice (log entry 15) and is not stated. -/
def Obligations.TableCommands : Prop :=
  (∀ (s : State) (dt k p : Nat) (ini : Initiator) (a : TblArgs), k < 4 → s.mainUp = true → s.planeOn k = true →
    s.reaches ini (Reg.LP_TBL_GO k) 0 = true → (s.begun dt).busy (Reg.LP_TBL_GO k) = false → a.table = tMac → a.bcast = false → a.plane < 4 →
    s.badArg (tblTc 1 a) = false → s.macFind a.plane (tblTc 1 a).key = none → s.macFree a.plane (tblTc 1 a).key = some p →
    ∃ t, exec (.tblInsert dt ini k a) s = .next t ∧ (t.macAt a.plane p).key = (tblTc 1 a).key ∧
      macDest (t.macAt a.plane p).data = macDest a.w3.toNat ∧ macDk (t.macAt a.plane p).data = macDk a.w3.toNat ∧
      (∀ e, (t.begun e).busy (Reg.LP_TBL_GO k) = false → bitsOf (((t.begun e).land (Reg.LP_TBL_GO k)).reg (Reg.LP_TBL_RES k 0)).toNat (16 + 4 * a.plane) 4 = rsOk) ∧
      (∀ j q, q < 2 ^ 19 → j ≠ a.plane ∨ q ≠ p → t.macAt j q = s.macAt j q) ∧
      t.pt.tbl = s.pt.tbl ∧ t.pt.fg = s.pt.fg ∧ t.pt.pat = s.pt.pat) ∧
  (∀ (s : State) (dt k : Nat) (ini : Initiator) (a : TblArgs), k < 4 → s.mainUp = true → s.planeOn k = true →
    s.reaches ini (Reg.LP_TBL_GO k) 0 = true → (s.begun dt).busy (Reg.LP_TBL_GO k) = false → 1 ≤ a.table → a.table ≤ 5 →
    s.badArg (tblTc 1 a) = false →
    ∃ t, exec (.tblInsert dt ini k a) s = .next t ∧ t.tblEnt a.table (tblTc 1 a).index = [a.w3, a.w4, a.w5, a.w6, a.w7] ∧
      (∀ e, (t.begun e).busy (Reg.LP_TBL_GO k) = false → bitsOf (((t.begun e).land (Reg.LP_TBL_GO k)).reg (Reg.LP_TBL_RES k 0)).toNat (16 + 4 * k) 4 = rsOk) ∧
      (∀ tb i, i < 2 ^ 20 → tb ≠ a.table ∨ i ≠ (tblTc 1 a).index → t.tblEnt tb i = s.tblEnt tb i) ∧ t.pt.mac = s.pt.mac) ∧
  (∀ (s : State) (dt k : Nat) (ini : Initiator) (a : TblArgs), k < 4 → s.mainUp = true → s.planeOn k = true →
    s.reaches ini (Reg.LP_TBL_GO k) 0 = true → (s.begun dt).busy (Reg.LP_TBL_GO k) = false → 1 ≤ a.table → a.table ≤ 5 →
    s.badArg (tblTc 2 a) = false →
    ∃ t, exec (.tblDelete dt ini k a) s = .next t ∧ t.tblEnt a.table (tblTc 2 a).index = (if a.table = 1 then [0, 0, 0x40000000, 0, 0] else [0, 0, 0, 0, 0]) ∧
      (∀ e, (t.begun e).busy (Reg.LP_TBL_GO k) = false → bitsOf (((t.begun e).land (Reg.LP_TBL_GO k)).reg (Reg.LP_TBL_RES k 0)).toNat (16 + 4 * k) 4 = rsOk) ∧
      (∀ tb i, i < 2 ^ 20 → tb ≠ a.table ∨ i ≠ (tblTc 2 a).index → t.tblEnt tb i = s.tblEnt tb i) ∧ t.pt.mac = s.pt.mac) ∧
  (∀ (s : State) (dt k : Nat) (ini : Initiator) (a : TblArgs), k < 4 → s.mainUp = true → s.planeOn k = true →
    s.reaches ini (Reg.LP_TBL_GO k) 0 = true → (s.begun dt).busy (Reg.LP_TBL_GO k) = false → 1 ≤ a.table → a.table ≤ 5 →
    s.badArg (tblTc 3 a) = false →
    ∃ t, exec (.tblSearch dt ini k a) s = .next t ∧ t.pt = { s.pt with staged := t.pt.staged } ∧
      (∀ d, (t.begun d).busy (Reg.LP_TBL_GO k) = false →
        ((t.begun d).land (Reg.LP_TBL_GO k)).reg (Reg.LP_TBL_RES k 1) = w32 (tblTc 3 a).index ∧
        (∀ w, w < 5 → ((t.begun d).land (Reg.LP_TBL_GO k)).reg (Reg.LP_TBL_RES k (3 + w)) = (s.tblEnt a.table (tblTc 3 a).index).getD w 0) ∧
        bitsOf (((t.begun d).land (Reg.LP_TBL_GO k)).reg (Reg.LP_TBL_RES k 0)).toNat (16 + 4 * k) 4 = rsOk)) ∧
  (∀ (s : State) (dt k i : Nat) (ini : Initiator) (a : TblArgs), k < 4 → s.mainUp = true → s.planeOn k = true →
    s.reaches ini (Reg.LP_TBL_GO k) 0 = true → (s.begun dt).busy (Reg.LP_TBL_GO k) = false → 1 ≤ a.table → a.table ≤ 5 →
    s.badArg (tblTc 4 a) = false →
    ((s.pt.tbl.filter (fun e => decide (e.1 / 2 ^ 20 = a.table) && tblValid a.table e.2)).map (fun e => e.1 % 2 ^ 20)).find?
      (fun i => decide ((tblTc 4 a).index ≤ i)) = some i → i < (tblTc 4 a).index + 4096 →
    ∃ t, exec (.tblNext dt ini k a) s = .next t ∧ t.pt = { s.pt with staged := t.pt.staged } ∧
      (∀ d, (t.begun d).busy (Reg.LP_TBL_GO k) = false →
        ((t.begun d).land (Reg.LP_TBL_GO k)).reg (Reg.LP_TBL_RES k 1) = w32 i ∧
        (∀ w, w < 5 → ((t.begun d).land (Reg.LP_TBL_GO k)).reg (Reg.LP_TBL_RES k (3 + w)) = (s.tblEnt a.table i).getD w 0) ∧
        bitsOf (((t.begun d).land (Reg.LP_TBL_GO k)).reg (Reg.LP_TBL_RES k 0)).toNat (16 + 4 * k) 4 = rsOk)) ∧
  (∀ (s : State) (dt k : Nat) (ini : Initiator) (a : TblArgs), k < 4 → s.mainUp = true → s.planeOn k = true →
    s.reaches ini (Reg.LP_TBL_GO k) 0 = true → (s.begun dt).busy (Reg.LP_TBL_GO k) = false → a.table = tMac → a.bcast = true → s.badArg (tblTc 1 a) = false →
    (∀ j, j < 4 → s.planeOn j = true → s.macFind j (tblTc 1 a).key = none ∧ (s.macFree j (tblTc 1 a).key).isSome = true) →
    ∃ t, exec (.tblInsert dt ini k a) s = .next t ∧
      (∀ j p, j < 4 → s.planeOn j = true → s.macFree j (tblTc 1 a).key = some p → (t.macAt j p).key = (tblTc 1 a).key ∧
        ∀ q, q < 2 ^ 19 → q ≠ p → t.macAt j q = s.macAt j q) ∧
      (∀ j q, j < 4 → q < 2 ^ 19 → s.planeOn j = false → t.macAt j q = s.macAt j q) ∧
      (∀ e j, j < 4 → (t.begun e).busy (Reg.LP_TBL_GO k) = false →
        bitsOf (((t.begun e).land (Reg.LP_TBL_GO k)).reg (Reg.LP_TBL_RES k 0)).toNat (16 + 4 * j) 4 = if s.planeOn j = true then rsOk else 15)) ∧
  (∀ (s : State) (dt k : Nat) (ini : Initiator) (a : TblArgs), k < 4 → s.mainUp = true → s.planeOn k = true →
    s.reaches ini (Reg.LP_TBL_GO k) 0 = true → (s.begun dt).busy (Reg.LP_TBL_GO k) = false → a.table = tMac → a.bcast = true → s.badArg (tblTc 2 a) = false →
    (∀ j, j < 4 → s.planeOn j = true → (s.macFind j (tblTc 2 a).key).isSome = true) →
    ∃ t, exec (.tblDelete dt ini k a) s = .next t ∧
      (∀ j p e, j < 4 → s.planeOn j = true → s.macFind j (tblTc 2 a).key = some (p, e) → t.macAt j p = MacEnt.empty ∧
        ∀ q, q < 2 ^ 19 → q ≠ p → t.macAt j q = s.macAt j q) ∧
      (∀ j q, j < 4 → q < 2 ^ 19 → s.planeOn j = false → t.macAt j q = s.macAt j q) ∧
      (∀ e j, j < 4 → (t.begun e).busy (Reg.LP_TBL_GO k) = false →
        bitsOf (((t.begun e).land (Reg.LP_TBL_GO k)).reg (Reg.LP_TBL_RES k 0)).toNat (16 + 4 * j) 4 = if s.planeOn j = true then rsOk else 15)) ∧
  (∀ (s : State) (dt k p : Nat) (ini : Initiator) (a : TblArgs) (e : MacEnt), k < 4 → s.mainUp = true → s.planeOn k = true →
    s.reaches ini (Reg.LP_TBL_GO k) 0 = true → (s.begun dt).busy (Reg.LP_TBL_GO k) = false → a.table = tMac → a.bcast = false → a.plane < 4 →
    s.badArg (tblTc 2 a) = false → s.macFind a.plane (tblTc 2 a).key = some (p, e) →
    ∃ t, exec (.tblDelete dt ini k a) s = .next t ∧ t.macAt a.plane p = MacEnt.empty ∧
      (∀ e, (t.begun e).busy (Reg.LP_TBL_GO k) = false → bitsOf (((t.begun e).land (Reg.LP_TBL_GO k)).reg (Reg.LP_TBL_RES k 0)).toNat (16 + 4 * a.plane) 4 = rsOk) ∧
      (∀ j q, q < 2 ^ 19 → j ≠ a.plane ∨ q ≠ p → t.macAt j q = s.macAt j q) ∧ t.pt.tbl = s.pt.tbl) ∧
  (∀ (s : State) (dt k p : Nat) (ini : Initiator) (a : TblArgs) (e : MacEnt), k < 4 → s.mainUp = true → s.planeOn k = true →
    s.reaches ini (Reg.LP_TBL_GO k) 0 = true → (s.begun dt).busy (Reg.LP_TBL_GO k) = false → a.table = tMac → a.bcast = false → a.plane < 4 →
    s.badArg (tblTc 3 a) = false → s.macFind a.plane (tblTc 3 a).key = some (p, e) →
    ∃ t, exec (.tblSearch dt ini k a) s = .next t ∧ t.pt = { s.pt with staged := t.pt.staged } ∧
      (∀ d, (t.begun d).busy (Reg.LP_TBL_GO k) = false →
        ((t.begun d).land (Reg.LP_TBL_GO k)).reg (Reg.LP_TBL_RES k 3) = w32 (e.data + 2 ^ 31) ∧
        ((t.begun d).land (Reg.LP_TBL_GO k)).reg (Reg.LP_TBL_RES k 4) = w32 p ∧
        bitsOf (((t.begun d).land (Reg.LP_TBL_GO k)).reg (Reg.LP_TBL_RES k 0)).toNat (16 + 4 * a.plane) 4 = rsOk)) ∧
  (∀ (s : State) (dt k p : Nat) (ini : Initiator) (a : TblArgs) (e : MacEnt), k < 4 → s.mainUp = true → s.planeOn k = true →
    s.reaches ini (Reg.LP_TBL_GO k) 0 = true → (s.begun dt).busy (Reg.LP_TBL_GO k) = false → a.table = tMac → a.bcast = false → a.plane < 4 →
    s.badArg (tblTc 4 a) = false →
    (s.macList a.plane).find? (fun e => decide ((tblTc 4 a).index ≤ e.1) && macPasses a.w2.toNat a.w3.toNat true e.2) = some (p, e) →
    p < (tblTc 4 a).index + 4096 →
    ∃ t, exec (.tblNext dt ini k a) s = .next t ∧ t.pt = { s.pt with staged := t.pt.staged } ∧
      (∀ d, (t.begun d).busy (Reg.LP_TBL_GO k) = false →
        ((t.begun d).land (Reg.LP_TBL_GO k)).reg (Reg.LP_TBL_RES k 1) = w32 (e.key % 2 ^ 32) ∧
        ((t.begun d).land (Reg.LP_TBL_GO k)).reg (Reg.LP_TBL_RES k 2) = w32 (e.key / 2 ^ 32) ∧
        ((t.begun d).land (Reg.LP_TBL_GO k)).reg (Reg.LP_TBL_RES k 3) = w32 (e.data + 2 ^ 31) ∧
        ((t.begun d).land (Reg.LP_TBL_GO k)).reg (Reg.LP_TBL_RES k 4) = w32 p ∧
        bitsOf (((t.begun d).land (Reg.LP_TBL_GO k)).reg (Reg.LP_TBL_RES k 0)).toNat (16 + 4 * a.plane) 4 = rsOk)) ∧
  (∀ (s : State) (dt k : Nat) (ini : Initiator) (a : TblArgs), k < 4 → s.mainUp = true → s.planeOn k = true →
    s.reaches ini (Reg.LP_TBL_GO k) 0 = true → (s.begun dt).busy (Reg.LP_TBL_GO k) = false → a.table = tMac → a.bcast = false → a.plane < 4 →
    s.badArg (tblTc 5 a) = false →
    ∃ t, exec (.flushByPort dt ini k a) s = .next t ∧ (∀ e, e ∈ t.macList a.plane → macPasses a.w2.toNat a.w3.toNat true e.2 = false) ∧
      (∀ e, e ∈ t.macList a.plane → e ∈ s.macList a.plane) ∧
      (∀ e, e ∈ s.macList a.plane → (∀ f, f ∈ s.macList a.plane → f.1 = e.1 → macPasses a.w2.toNat a.w3.toNat true f.2 = false) → e ∈ t.macList a.plane) ∧
      (∀ j, j ≠ a.plane → t.macList j = s.macList j) ∧
      (∀ e, (t.begun e).busy (Reg.LP_TBL_GO k) = false → bitsOf (((t.begun e).land (Reg.LP_TBL_GO k)).reg (Reg.LP_TBL_RES k 0)).toNat (16 + 4 * a.plane) 4 = rsOk) ∧
      t.pt.tbl = s.pt.tbl) ∧
  (∀ (s : State) (dt k : Nat) (ini : Initiator) (a : TblArgs), k < 4 → s.mainUp = true → s.planeOn k = true →
    s.reaches ini (Reg.LP_TBL_GO k) 0 = true → (s.begun dt).busy (Reg.LP_TBL_GO k) = false → a.table = tMac → a.bcast = false → a.plane < 4 →
    s.badArg (tblTc 6 a) = false →
    ∃ t, exec (.flushAll dt ini k a) s = .next t ∧ (∀ e, e ∈ t.macList a.plane → macPasses a.w2.toNat a.w3.toNat false e.2 = false) ∧
      (∀ e, e ∈ t.macList a.plane → e ∈ s.macList a.plane) ∧
      (∀ e, e ∈ s.macList a.plane → (∀ f, f ∈ s.macList a.plane → f.1 = e.1 → macPasses a.w2.toNat a.w3.toNat false f.2 = false) → e ∈ t.macList a.plane) ∧
      (∀ j, j ≠ a.plane → t.macList j = s.macList j) ∧
      (∀ e, (t.begun e).busy (Reg.LP_TBL_GO k) = false → bitsOf (((t.begun e).land (Reg.LP_TBL_GO k)).reg (Reg.LP_TBL_RES k 0)).toNat (16 + 4 * a.plane) 4 = rsOk) ∧
      t.pt.tbl = s.pt.tbl)

/-- R172, R173, R183: With RATE not 0 and a token there, the oldest learn request of a new key takes the lowest free place and is counted. A write of
LP_LEARN_RATE clips the tokens to BURST; a write of PERIOD restarts the sweep timing. A sweep due on a table of one entry leaves a static one and one
that a source lookup has hit in the same cycle, deletes another dynamic one at AGE 3 and counts it, and makes a younger one older by 1. -/
def Obligations.Learning : Prop :=
  (∀ (s : State) (dt k p : Nat) (r : Nat × Nat) (l : List (Nat × Nat)), k < 4 → s.mainUp = true → s.planeOn k = true →
    (s.learn k).reqs = r :: l → tMs ≤ (s.learn k).tok → s.fld (Fld.LP_LEARN_RATE_RATE k) ≠ 0 → s.macFind k r.1 = none → s.macFree k r.1 = some p →
    ∃ t, exec (.learnServe dt k) s = .next t ∧ t.macAt k p = ⟨r.1, r.2⟩ ∧ (t.learn k).reqs = l ∧
      t.ctr (Ctr.plane k 0x40) = (s.ctr (Ctr.plane k 0x40) + 1) % 2 ^ 64 ∧ t.pt.tbl = s.pt.tbl) ∧
  (∀ (s : State) (dt k : Nat) (v : Word), k < 4 → s.mainUp = true → s.planeOn k = true →
    ∃ t, exec (.learnRateWrite dt k v) s = .next t ∧ t.reg (Reg.LP_LEARN_RATE k) = v &&& 0x00FF0FFF#32 ∧ (t.learn k).tok ≤ t.learnBurst k ∧
      (t.learn k).reqs = (s.learn k).reqs ∧ (s.begun dt).frame t { parts := [.pt], regs := (· = Reg.LP_LEARN_RATE k) }) ∧
  (∀ (s : State) (dt k : Nat) (v : Word), k < 4 → s.mainUp = true → s.planeOn k = true →
    ∃ t, exec (.agePeriodWrite dt k v) s = .next t ∧ t.reg (Reg.LP_AGE_CTRL k) = v &&& 0x0000FFFF#32 ∧ (t.learn k).sweepAt = s.now + dt ∧
      (s.begun dt).frame t { parts := [.pt], regs := (· = Reg.LP_AGE_CTRL k) }) ∧
  (∀ (s : State) (dt k p : Nat) (e : MacEnt), k < 4 → p < 2 ^ 19 → s.mainUp = true → s.planeOn k = true → s.pt.mac = [(k * 2 ^ 19 + p, e)] →
    e ≠ MacEnt.empty → 0 < s.fld (Fld.LP_AGE_CTRL_PERIOD k) → max (s.learn k).sweepAt s.isl.upAt + s.fld (Fld.LP_AGE_CTRL_PERIOD k) * tSec ≤ s.now + dt →
    ∃ t, exec (.agingSweep dt k) s = .next t ∧ (macStatic e.data = true → t.macAt k p = e) ∧
      (((s.begun dt).hitsNow k).contains p = true → t.macAt k p = e) ∧
      (((s.begun dt).hitsNow k).contains p = false → macStatic e.data = false → macAge e.data = 3 → t.macAt k p = MacEnt.empty ∧
        t.ctr (Ctr.plane k 0x68) = (s.ctr (Ctr.plane k 0x68) + 1) % 2 ^ 64) ∧
      (((s.begun dt).hitsNow k).contains p = false → macStatic e.data = false → macAge e.data < 3 → (t.macAt k p).key = e.key ∧ macAge (t.macAt k p).data = macAge e.data + 1))

/-! ### CRF and line defects (chapters 3 and 4) -/

/-- R60, R61, R70, R84, R435, R55: Once a frame period has passed a CRF port that is not in the near-end loopback, with no new mode waiting, sends the
next frame, which begins with FAS, MFAS and the BIP of the payload before, and is counted; MFAS moves on by one; in the far-end loopback (R55) the
frame does not go to the line, which is the model's choice (log 19). What fills the slots is log 21. While its framer holds no frame nothing else
changes but the overhead's own state. HMC_SEND sets GO and LEN where GO is 0 and does nothing where it is 1. FORCE_AIS is kept. With a TASK 0x01 slot
in the calendar, every slot due within 100 µs is formed, and one formed already is kept; without it nothing happens. A write wakes a gated port group
(R403, log 29). -/
def Obligations.CrfFrames : Prop :=
  (∀ (s : State) (dt p : Nat), p < 128 → s.mainUp = true → s.crfRuns p = true → s.fld (Fld.PT_CTRL_LOOPBACK p) ≠ 1 → (s.port p).loop = [] →
    (s.port p).modeDue = none →
    (∀ a, (s.crf p).tx.at_ = some a → a + s.crfPeriod p ≤ s.now + dt) →
    ∃ t rest, exec (.crfFrameTx dt p) s = .next t ∧
      t.out.filter (fun e => !e.isMsix) =
        s.lineOut p (.crf p (fasBytes ++ rest)) ++ s.out.filter (fun e => !e.isMsix) ∧
      u8 rest 0 = (s.crf p).tx.mfas % 256 ∧ u8 rest 1 = (s.crf p).tx.bip % 256 ∧
      (t.crf p).tx.mfas = ((s.crf p).tx.mfas + 1) % 256 ∧ (t.crf p).tx.at_ = some (s.now + dt) ∧
      t.ctr (Ctr.port p 0x300) = (s.ctr (Ctr.port p 0x300) + 1) % 2 ^ 64 ∧
      ((s.crf p).tx.units = [] → (s.crf p).tx.open_ = none →
        (s.begun dt).frame t { parts := [.crfs, .tw, .out], ctrs := (· ∈ [Ctr.port p 0x300, Ctr.port p 0x348]),
                               regs := (· ∈ [Reg.LF_MARK_TX p 0, Reg.LF_MARK_TX p 1, Reg.LF_MARK_TX p 2, Reg.LF_DEFECTS p, Reg.LF_HMC_TX_CTRL p,
                                             Reg.LF_INT_STATUS p, Reg.AV_INT_STATUS]) })) ∧
  (∀ (s : State) (dt p len : Nat), p < 128 → s.mainUp = true → s.portAbsent p = false →
    (s.fld (Fld.LF_HMC_TX_CTRL_GO p) = 0 →
      ∃ t, exec (.hmcSend dt p len) s = .next t ∧ t.fld (Fld.LF_HMC_TX_CTRL_GO p) = 1 ∧ t.fld (Fld.LF_HMC_TX_CTRL_LEN p) = len % 1024 ∧
        (t.crf p).tx.hmcLen = len ∧ ((s.begun dt).regUse (Reg.PT_CTRL p)).frame t { parts := [.crfs], regs := (· = Reg.LF_HMC_TX_CTRL p) }) ∧
    (s.fld (Fld.LF_HMC_TX_CTRL_GO p) = 1 →
      ∃ t, exec (.hmcSend dt p len) s = .next t ∧ ((s.begun dt).regUse (Reg.PT_CTRL p)).frame t {})) ∧
  (∀ (s : State) (dt p : Nat) (v : Bool), p < 128 → s.mainUp = true → s.portAbsent p = false →
    ∃ t, exec (.forceAisWrite dt p v) s = .next t ∧ t.fld (Fld.LF_CTRL_FORCE_AIS p) = b2n v ∧
      ((s.begun dt).regUse (Reg.PT_CTRL p)).frame t { parts := [.fab], regs := (· = Reg.LF_CTRL p), ctrs := (· ∈ [Ctr.port p 0x3A0, Ctr.port p 0x3A8]), ports := [p] }) ∧
  (∀ (s : State) (dt p : Nat), p < 128 → s.mainUp = true → s.crfRuns p = true → s.calHas 1 p = true →
    ∃ t, exec (.ohSlotForm dt p) s = .next t ∧
      (∀ i, i < 6 →
        max (s.now + dt) (((s.crf p).tx.at_.getD 0) + (if (s.crf p).tx.at_ = none then 0 else s.crfPeriod p)) +
          (((slotSpan i).1 + 256 - (s.crf p).tx.mfas) % 256) * s.crfPeriod p ≤ s.now + dt + 100 * tUs →
        (SMap.look (t.crf p).tx.slots i).isSome = true) ∧
      (∀ i c, SMap.look (s.crf p).tx.slots i = some c → SMap.look (t.crf p).tx.slots i = some c) ∧
      (s.begun dt).frame t { parts := [.crfs, .pms, .tw] }) ∧
  (∀ (s : State) (dt p : Nat), p < 128 → s.mainUp = true → s.calHas 1 p = false →
    ∃ t, exec (.ohSlotForm dt p) s = .next t ∧ (s.begun dt).frame t {})

/-- R72, R73, R55: Outside SYNC a FAS at an offset without tracker takes a free one with count 1, a FAS at the offset of a tracker whose count it brings
to N enters SYNC and raises SYNC_CHG, and a block that is no FAS there frees the tracker and is counted. In SYNC a FAS with at most TOL bit errors
adds them to its counter and ends the run; one with more, the M-th in a row, leaves SYNC. Without signal or lock, or off CRF, nothing happens but that
the far-end loopback (R55) sends the block back; in the near-end loopback what arrives on the line is not received (both as log 19 chooses). (No
change of mode and no message of the twin waits.) -/
def Obligations.CrfAlignment : Prop :=
  (∀ (s : State) (dt p : Nat), p < 128 → s.mainUp = true → s.crfRuns p = true → s.bit (Fld.PT_STATUS_SIGNAL p) = true →
    s.bit (Fld.PT_STATUS_BLOCK_LOCK p) = true → s.fld (Fld.PT_CTRL_LOOPBACK p) = 0 → (s.port p).modeDue = none → s.tw.inbox = [] → s.isSync p = false →
    ((∀ e, e ∈ (s.crfRx p).trk → e.1 ≠ (s.crfRx p).blk) → (s.crfRx p).trk.length < s.lfCands p →
      ∃ t, exec (.crfBlockRx dt p fasBytes) s = .next t ∧ (t.crfRx p).trk = (s.crfRx p).trk ++ [((s.crfRx p).blk, 1)] ∧
        (t.crfRx p).blk = ((s.crfRx p).blk + 1) % 1024 ∧ t.isSync p = false ∧
        (s.begun dt).frame t { parts := [.crfs], regs := (· = Reg.LF_STATUS p) }) ∧
    (∀ c, (s.crfRx p).trk.find? (fun e => decide (e.1 = (s.crfRx p).blk)) = some ((s.crfRx p).blk, c) → s.lfN p ≤ c + 1 →
      ∃ t, exec (.crfBlockRx dt p fasBytes) s = .next t ∧ t.isSync p = true ∧ t.fld (Fld.LF_INT_STATUS_SYNC_CHG p) = 1 ∧
        (t.crfRx p).pos = (s.crfRx p).blk ∧
        (s.begun dt).frame t { parts := [.crfs, .pms], regs := (· ∈ [Reg.LF_STATUS p, Reg.LF_INT_STATUS p]), ctrs := (· = Ctr.port p 0x308) }) ∧
    (∀ c (b : List Byte), (s.crfRx p).trk.find? (fun e => decide (e.1 = (s.crfRx p).blk)) = some ((s.crfRx p).blk, c) → b.length = 8 → b ≠ fasBytes →
      ∃ t, exec (.crfBlockRx dt p b) s = .next t ∧ (∀ e, e ∈ (t.crfRx p).trk → e.1 ≠ (s.crfRx p).blk) ∧ t.isSync p = false ∧
        t.ctr (Ctr.port p 0x320) = (s.ctr (Ctr.port p 0x320) + 1) % 2 ^ 64 ∧
        (s.begun dt).frame t { parts := [.crfs], regs := (· = Reg.LF_STATUS p), ctrs := (· = Ctr.port p 0x320) })) ∧
  (∀ (s : State) (dt p : Nat) (b : List Byte), p < 128 → b.length = 8 → s.mainUp = true → s.crfRuns p = true →
    s.bit (Fld.PT_STATUS_SIGNAL p) = true → s.bit (Fld.PT_STATUS_BLOCK_LOCK p) = true →
    s.fld (Fld.PT_CTRL_LOOPBACK p) = 0 → (s.port p).modeDue = none → s.tw.inbox = [] → s.isSync p = true → (s.crfRx p).blk = (s.crfRx p).pos →
    (fasErrors b ≤ s.lfTol p →
      ∃ t, exec (.crfBlockRx dt p b) s = .next t ∧ t.isSync p = true ∧ (t.crfRx p).run = 0 ∧
        t.ctr (Ctr.port p 0x310) = (s.ctr (Ctr.port p 0x310) + fasErrors b) % 2 ^ 64 ∧
        (s.begun dt).frame t { parts := [.crfs], ctrs := (· ∈ [Ctr.port p 0x308, Ctr.port p 0x310]) }) ∧
    (s.lfTol p < fasErrors b → s.lfM p ≤ (s.crfRx p).run + 1 →
      ∃ t, exec (.crfBlockRx dt p b) s = .next t ∧ t.isSync p = false ∧ t.fld (Fld.LF_INT_STATUS_SYNC_CHG p) = 1 ∧ (t.crfRx p).trk = [] ∧
        t.fld (Fld.LF_STATUS_MF_LOCK p) = 0 ∧ t.fld (Fld.LF_STATUS_DELIN p) = 0 ∧ t.ctr (Ctr.port p 0x318) = (s.ctr (Ctr.port p 0x318) + 1) % 2 ^ 64)) ∧
  (∀ (s : State) (dt p : Nat) (b : List Byte), p < 144 → b.length = 8 → s.mainUp = true →
    (s.port p).modeDue = none → s.tw.inbox = [] →
    (s.crfRuns p = false ∨ s.fld (Fld.PT_STATUS_SIGNAL p) = 0 ∨ s.fld (Fld.PT_STATUS_BLOCK_LOCK p) = 0) →
    ∃ t, exec (.crfBlockRx dt p b) s = .next t ∧
      (s.fld (Fld.PT_CTRL_LOOPBACK p) ≠ 2 → (s.begun dt).frame t {}) ∧
      (s.fld (Fld.PT_CTRL_LOOPBACK p) = 2 → t.out.filter (fun e => !e.isMsix) = .echoed p b :: s.out.filter (fun e => !e.isMsix) ∧
        (s.begun dt).frame t { parts := [.out] })) ∧
  (∀ (s : State) (dt p : Nat) (b : List Byte), p < 144 → b.length = 8 → s.mainUp = true → s.fld (Fld.PT_CTRL_LOOPBACK p) = 1 →
    ∃ t, exec (.crfBlockRx dt p b) s = .next t ∧ (s.begun dt).frame t {})

/-- R89, R90, R95: A loss of signal clears SIGNAL and lock and, on a port that watches its line, detects dLOS at once; 1 ms without a loss condition
clears it. dLOF and dLOM follow 3 ms out of, or in, SYNC and multiframe lock. LF_DEFECTS shows those detected and not masked, DEF_CHG gains what
changed, and LINK of a CRF port is 0 with a port-down defect. (No change of mode waits where a defect is detected: with LINK down it would take
effect.) -/
def Obligations.LineDefects : Prop :=
  (∀ (s : State) (dt p : Nat), p < 144 → s.mainUp = true → s.fld (Fld.PT_STATUS_ACTIVE_MODE p) ≠ 0 → s.fld (Fld.PT_STATUS_EN_STATE p) ≠ 0 →
    s.watches p = true → (s.port p).modeDue = none →
    ∃ t, exec (.dlosDetect dt p 0) s = .next t ∧ t.fld (Fld.PT_STATUS_SIGNAL p) = 0 ∧ t.fld (Fld.PT_STATUS_BLOCK_LOCK p) = 0 ∧ t.hasDef p dLOS = true ∧
      (s.hasDef p dLOS = false → bitOf (t.defs p) dLOS = true ∧ (s.crfOn p = true → t.fld (Fld.PT_STATUS_LINK p) = 0))) ∧
  (∀ (s : State) (dt p d : Nat), p < 144 → s.mainUp = true → s.watches p = true → s.hasDef p d = true →
    (d = dLOS ∧ s.losCond p = false ∧ (s.pm p).losAt + tMs ≤ s.now + dt ∨
     d = dLOF ∧ s.crfOn p = true ∧ s.isSync p = true ∧ (s.pm p).lofAt + 3 * tMs ≤ s.now + dt ∨
     d = dLOM ∧ s.crfOn p = true ∧ s.mfLock p = true ∧ (s.pm p).lomAt + 3 * tMs ≤ s.now + dt) →
    ∃ t, exec (if d = dLOS then .dlosClear dt p else if d = dLOF then .dlofClear dt p else .dlomClear dt p) s = .next t ∧
      t.hasDef p d = false ∧ bitOf (t.defs p) d = false ∧ t.defs p = t.defView p ∧
      (∀ e, e < 6 → bitOf (t.fld (Fld.LF_DEF_INT_STATUS_DEF_CHG p)) e =
        (bitOf (s.fld (Fld.LF_DEF_INT_STATUS_DEF_CHG p)) e || (bitOf (s.defs p) e != bitOf (t.defs p) e)))) ∧
  (∀ (s : State) (dt p d : Nat), p < 144 → s.mainUp = true → s.watches p = true → s.hasDef p d = false → s.crfOn p = true → (s.port p).modeDue = none →
    (d = dLOF ∧ s.isSync p = false ∧ (s.pm p).lofAt + 3 * tMs ≤ s.now + dt ∨
     d = dLOM ∧ s.isSync p = true ∧ s.mfLock p = false ∧ (s.pm p).lomAt + 3 * tMs ≤ s.now + dt) →
    ∃ t, exec (if d = dLOF then .dlofDetect dt p else .dlomDetect dt p) s = .next t ∧ t.hasDef p d = true ∧ t.defs p = t.defView p ∧
      (d = dLOF → t.fld (Fld.PT_STATUS_LINK p) = 0) ∧
      (∀ e, e < 6 → bitOf (t.fld (Fld.LF_DEF_INT_STATUS_DEF_CHG p)) e =
        (bitOf (s.fld (Fld.LF_DEF_INT_STATUS_DEF_CHG p)) e || (bitOf (s.defs p) e != bitOf (t.defs p) e))) ∧
      (t.fld (Fld.PT_STATUS_LINK p) = s.fld (Fld.PT_STATUS_LINK p) →
        (s.begun dt).frame t { parts := [.pms], regs := (· ∈ [Reg.LF_DEFECTS p, Reg.LF_DEF_INT_STATUS p]) }))

/-- R93, R95: FAILURE_DECLARE and FAILURE_CLEAR set and clear one bit of FAIL once the defect has been shown, or not shown, for the configured time, with
FAIL_CHG. CRF_LINK_UP raises LINK once no port-down defect has been present for UP_HOLD. Nothing else changes but the named status and the port's flow
on the fabric. -/
def Obligations.LineFailures : Prop :=
  (∀ (s : State) (dt p d : Nat), p < 144 → d < 6 → s.mainUp = true → bitOf (s.defs p) d = true → bitOf (s.fails p) d = false →
    (s.pm p).failAt.getD d 0 + tenths (s.fld (Fld.LF_FAIL_TIME_SET p)) ≤ s.now + dt →
    ∃ t, exec (.failureDeclare dt p d) s = .next t ∧ (∀ e, e < 6 → bitOf (t.fails p) e = (bitOf (s.fails p) e || decide (e = d))) ∧
      bitOf (t.fld (Fld.LF_DEF_INT_STATUS_FAIL_CHG p)) d = true ∧ t.defs p = s.defs p ∧
      (s.begun dt).frame t { regs := (· ∈ [Reg.LF_DEFECTS p, Reg.LF_DEF_INT_STATUS p]) }) ∧
  (∀ (s : State) (dt p d : Nat), p < 144 → d < 6 → s.mainUp = true → bitOf (s.defs p) d = false → bitOf (s.fails p) d = true →
    (s.pm p).failAt.getD d 0 + tenths (s.fld (Fld.LF_FAIL_TIME_CLEAR p)) ≤ s.now + dt →
    ∃ t, exec (.failureClear dt p d) s = .next t ∧ (∀ e, e < 6 → bitOf (t.fails p) e = (bitOf (s.fails p) e && !decide (e = d))) ∧
      bitOf (t.fld (Fld.LF_DEF_INT_STATUS_FAIL_CHG p)) d = true ∧ t.defs p = s.defs p ∧
      (s.begun dt).frame t { regs := (· ∈ [Reg.LF_DEFECTS p, Reg.LF_DEF_INT_STATUS p]) }) ∧
  (∀ (s : State) (dt p v a : Nat), p < 144 → s.mainUp = true → s.crfOn p = true → s.watches p = true → s.fld (Fld.PT_STATUS_EN_STATE p) = 1 →
    s.fld (Fld.PT_STATUS_LINK p) = 0 → (s.pm p).upAt = some a → a + s.fld (Fld.LF_DEF_CTRL_UP_HOLD p) * tMs ≤ s.now + dt →
    ∃ t, exec (.crfLinkUp dt p v) s = .next t ∧ t.fld (Fld.PT_STATUS_LINK p) = 1 ∧ t.fld (Fld.PT_INT_STATUS_LINK_CHG p) = 1 ∧
      (s.begun dt).frame t { parts := [.fab], regs := (· ∈ [Reg.PT_STATUS p, Reg.PT_INT_STATUS p, Reg.PT_TS_VAR p]),
                             ctrs := (· ∈ [Ctr.port p 0x3A0, Ctr.port p 0x3A8]), ports := [p] }) ∧
  (∀ (s : State) (dt p v : Nat), p < 144 → s.mainUp = true → (s.pm p).upAt = none →
    ∃ t, exec (.crfLinkUp dt p v) s = .next t ∧ (s.begun dt).frame t {})

/-- R96, R98, R103, R104, R106, R434: The oldest second that waits, in the current 15-minute bin: where it is monitored, a TASK 0x02 slot names the port,
it passed in CRF, the near end is available and no run of ten completes, the grades of R98 are added to the bin and the run moves on; passed in an
Ethernet mode, it is graded by its defect and errors. Where it is not monitored, or no slot names the port, the bin becomes SUSPECT with its counts as
they were, and the runs restart. The tenth SES in a row sets NE_UNAVAIL and its change bit. A TASK 0x02 slot names a port as R434 says. That a waiting
second is graded by the mode it was gathered in, and that an early one counts in the bin it was gathered under, are the model's choices (log 24, with
log 23 for the waiting). (No change of mode waits.) -/
def Obligations.SecondsGraded : Prop :=
  (∀ (s : State) (dt p : Nat) (a c : PmSec) (w : List PmSec), p < 144 → s.mainUp = true → (s.pm p).wait = a :: w → a.n = 1 → a.unmon = false →
    (s.pm p).acc = some c → (s.port p).modeDue = none → s.calHas 2 p = true → a.crf = true → (s.pm p).bin15.start ≤ max a.sec a.low → s.fld (Fld.LF_PM_NOW_NE_UNAVAIL p) = 0 →
    s.fld (Fld.LF_PM_NOW_NE_RUN p) < 9 →
    ∃ t, exec (.pmSecondGrade dt p) s = .next t ∧
      (t.pm p).bin15.ne = (s.pm p).bin15.ne.add (gradeOf (s.sesPct p) a.ne a.eb a.chk) ∧ (t.pm p).bin15.valid = true ∧
      t.fld (Fld.LF_PM_NOW_NE_UNAVAIL p) = 0 ∧
      t.fld (Fld.LF_PM_NOW_NE_RUN p) = (if (gradeOf (s.sesPct p) a.ne a.eb a.chk).ses = 1 then s.fld (Fld.LF_PM_NOW_NE_RUN p) + 1 else 0)) ∧
  (∀ (s : State) (dt p : Nat) (a c : PmSec) (w : List PmSec), p < 144 → s.mainUp = true → (s.pm p).wait = a :: w → a.n = 1 → a.unmon = false →
    (s.pm p).acc = some c → (s.port p).modeDue = none → s.calHas 2 p = true → a.crf = true → s.fld (Fld.LF_PM_NOW_NE_UNAVAIL p) = 0 →
    s.fld (Fld.LF_PM_NOW_NE_RUN p) = 9 → (gradeOf (s.sesPct p) a.ne a.eb a.chk).ses = 1 →
    ∃ t, exec (.pmSecondGrade dt p) s = .next t ∧ t.fld (Fld.LF_PM_NOW_NE_UNAVAIL p) = 1 ∧ t.fld (Fld.LF_PM_NOW_NE_RUN p) = 0 ∧
      t.fld (Fld.LF_DEF_INT_STATUS_UAS_CHG_NE p) = 1) ∧
  (∀ (s : State) (dt p : Nat) (a c : PmSec) (w : List PmSec), p < 144 → s.mainUp = true → (s.pm p).wait = a :: w → a.n = 1 → a.unmon = false →
    (s.pm p).acc = some c → (s.port p).modeDue = none → s.calHas 2 p = true → a.crf = false → (s.pm p).bin15.start ≤ max a.sec a.low →
    ∃ t, exec (.pmSecondGrade dt p) s = .next t ∧ (t.pm p).bin15.valid = true ∧
      (t.pm p).bin15.ne = (s.pm p).bin15.ne.add
        ⟨b2n (a.ne || decide (1 ≤ a.errs)), b2n (a.ne || decide (max (s.fld (Fld.LF_ETH_SES_THR p)) 1 ≤ a.errs)), 0, 0⟩) ∧
  (∀ (s : State) (dt p : Nat) (a c : PmSec) (w : List PmSec), p < 144 → s.mainUp = true → (s.pm p).wait = a :: w → a.unmon = true ∨ s.calHas 2 p = false →
    (s.pm p).acc = some c → (s.port p).modeDue = none → (s.pm p).bin15.start ≤ max a.sec a.low →
    ∃ t, exec (.pmSecondGrade dt p) s = .next t ∧ (t.pm p).bin15.suspect = true ∧ (t.pm p).bin15.ne = (s.pm p).bin15.ne ∧
      (t.pm p).bin15.mon = (s.pm p).bin15.mon ∧ t.fld (Fld.LF_PM_NOW_NE_RUN p) = 0 ∧ t.fld (Fld.LF_PM_NOW_FE_RUN p) = 0)

/-- R105, R107, R109, R110, R111: Ten seconds of ticks after its end, whatever the counter steps (log 24), the oldest graded second leaves the correction
window and counts for the alerts of its bin, whose thresholds set T15 and TCA. At its end the 15-minute bin moves to the past bins, still open, and
the 24-hour bin at its end with it; a 15-minute bin closes 10 s later, which sets BIN15_CLOSED. A port that nothing has touched since its island left
reset has the bins of that time, which end likewise. A write of BIN copies that bin into the window. -/
def Obligations.BinsAndWindow : Prop :=
  (∀ (s : State) (dt p : Nat) (h : PmHist) (w : List PmHist) (c : PmSec), p < 144 → s.mainUp = true → (s.pm p).acc = some c → (s.begun dt).hmSec ≤ c.sec →
    (s.pm p).hist = h :: w → h.fin + (10 * hmSecond : Nat) ≤ (s.begun dt).time.flow →
    (∀ a, a ∈ (s.pm p).wait → h.fin + (10 * hmSecond : Nat) ≤ a.fin) → (s.pm p).bin15.start ≤ h.bin →
    ∃ t, exec (.secondFinal dt p) s = .next t ∧ (t.pm p).hist = w ∧ (t.pm p).bin15.finNe = (s.pm p).bin15.finNe.add h.ne ∧
      (t.pm p).bin15.finFe = (s.pm p).bin15.finFe.add h.fe ∧
      (∀ k, k < 4 → 0 < s.tcaThr p false k → s.tcaThr p false k ≤ ((s.pm p).bin15.finNe.add h.ne).nth k → bitOf (s.pm p).bin15.alerts k = false →
        bitOf (t.fld (Fld.LF_TCA_STATUS_T15 p)) k = true ∧ bitOf (t.pm p).bin15.alerts k = true ∧ t.fld (Fld.LF_DEF_INT_STATUS_TCA p) = 1) ∧
      (∀ k, k < 4 → 0 < s.tcaThr p false k → s.tcaThr p false k ≤ ((s.pm p).bin15.finFe.add h.fe).nth k → bitOf (s.pm p).bin15.alerts (4 + k) = false →
        bitOf (t.fld (Fld.LF_TCA_STATUS_T15 p)) (4 + k) = true ∧ bitOf (t.pm p).bin15.alerts (4 + k) = true ∧ t.fld (Fld.LF_DEF_INT_STATUS_TCA p) = 1) ∧
      (s.begun dt).frame t { parts := [.pms], regs := (· ∈ [Reg.LF_TCA_STATUS p, Reg.LF_DEF_INT_STATUS p]) }) ∧
  (∀ (s : State) (dt p : Nat) (c : PmSec), p < 144 → s.mainUp = true → (s.pm p).acc = some c → (s.pm p).bin15.start + 900 ≤ (s.begun dt).hmSec →
    ∃ t, exec (.binEnd dt p) s = .next t ∧ (t.pm p).past15 = ((s.begun dt).binOver (s.pm p).bin15 ((s.pm p).bin15.start + 900) :: (s.pm p).past15).take 32 ∧
      (t.pm p).bin15 = PmBin.current (start15 (s.begun dt).hmSec) false ∧
      (s.dayOfs = (s.pm p).dayOfs → end24 (s.pm p).bin24.start s.dayOfs ≤ (s.begun dt).hmSec →
        (t.pm p).prev24 = (s.begun dt).binOver (s.pm p).bin24 (end24 (s.pm p).bin24.start s.dayOfs) ∧ (t.pm p).bin24 = PmBin.current (start24 (s.begun dt).hmSec s.dayOfs) false) ∧ (s.begun dt).frame t { parts := [.pms] }) ∧
  (∀ (s : State) (dt p : Nat), p < 144 → s.mainUp = true → (s.pm p).acc = none → start15 s.isl.upSec + 900 ≤ (s.begun dt).hmSec →
    ∃ t, exec (.binEnd dt p) s = .next t ∧ (t.pm p).bin15 = PmBin.current (start15 (s.begun dt).hmSec) false ∧
      (t.pm p).past15 = ((s.begun dt).binOver (PmBin.current (start15 s.isl.upSec) true) (start15 s.isl.upSec + 900) :: (s.pm p).past15).take 32 ∧
      (s.begun dt).frame t { parts := [.pms] }) ∧
  (∀ (s : State) (dt p i : Nat) (c : PmSec), p < 144 → s.mainUp = true → (s.pm p).acc = some c → (s.begun dt).hmSec ≤ c.sec → i < 32 →
    (s.pm p).past15.length = 32 → ((s.pm p).past15.getD i PmBin.empty).open_ = true → (∀ j, i < j → j < 32 → ((s.pm p).past15.getD j PmBin.empty).open_ = false) →
    ((s.pm p).past15.getD i PmBin.empty).fin + (10 * hmSecond : Nat) ≤ (s.begun dt).time.flow → (s.pm p).wait = [] → (s.pm p).hist = [] →
    s.fld Fld.AV_PM_CTRL_RING_EN = 0 →
    ∃ t, exec (.binClose dt p) s = .next t ∧ ((t.pm p).past15.getD i PmBin.empty).open_ = false ∧ t.fld (Fld.LF_DEF_INT_STATUS_BIN15_CLOSED p) = 1 ∧
      (∀ j, j ≠ i → (t.pm p).past15.getD j PmBin.empty = (s.pm p).past15.getD j PmBin.empty) ∧
      (s.begun dt).frame t { parts := [.pms], regs := (· = Reg.LF_DEF_INT_STATUS p) }) ∧
  (∀ (s : State) (dt p i : Nat) (b : PmBin), p < 144 → i < 35 → s.mainUp = true → s.portAbsent p = false → (s.pm p).bin i = some b →
    ∃ t, exec (.pmSnapshot dt p i) s = .next t ∧ t.fld (Fld.LF_PM_SEL_BIN p) = i ∧ (∀ k, k < 11 → t.reg (Reg.LF_PM_WIN p k) = b.words.getD k 0) ∧
      ((s.begun dt).regUse (Reg.PT_CTRL p)).frame t { regs := fun a => a = Reg.LF_PM_SEL p ∨ ∃ k, k < 11 ∧ a = Reg.LF_PM_WIN p k })

/-! ### Hallmark (chapter 11) -/

/-- R296, R297, R298, R299, R300: With no GO under way: SET leaves the counter at the time of HM_SET, modulo 2^48 s, and with no servo step in the same
tick ADD and SUB move it by that time, modulo 2^48 s; the step is counted and raises STEP, and a servo that is not in FREERUN goes to ACQUIRE. While
GO is 1 a command sets OVERRUN and leaves the counter alone. (A step also ends the seconds of performance monitoring, and lets journal records that
are due enter their queue.) In FREERUN a write of HM_ADDEND gives the active addend, clamped. NS at or above 10^9 carrying into the seconds and the
hidden bits kept by ADD and SUB are the model's choices (log 10), and so is a broadcast that only marks a second (log 11). Between commands the
counter adds 4 ns × (1 + A × 2^-40) a tick. -/
def Obligations.CounterSteps : Prop :=
  (∀ (s : State) (dt sec ns frac : Nat), s.aonUp = true → sec < 2 ^ 48 → ns < 2 ^ 30 → frac < 2 ^ 16 → (s.begun dt).busy Reg.HM_SET_CTRL = false →
    ∃ t, exec (.timeSet dt sec ns frac) s = .next t ∧ t.time.now = s.now + dt ∧
      t.hm16 = ((sec * 1000000000 + ns) * 2 ^ 16 + frac) % (2 ^ 48 * 1000000000 * 2 ^ 16) ∧ t.time.addend = s.time.addend ∧
      (s.hm.svTick ≠ (s.now + dt) / 240 + 1 → t.ctr (Ctr.hm 0) = (s.ctr (Ctr.hm 0) + 1) % 2 ^ 64 ∧ t.fld Fld.HM_INT_STATUS_STEP = 1 ∧
        t.servo = (if s.servo = svFree then svFree else svAcquire)) ∧
      (s.begun dt).frame t { parts := [.time, .hm, .goBusy, .free, .pms, .out, .jn], ctrs := (· = Ctr.hm 0),
                             regs := (· ∈ [Reg.HM_SET0, Reg.HM_SET1, Reg.HM_SET2, Reg.HM_SET_CTRL, Reg.HM_INT_STATUS, Reg.HM_SERVO_STATUS,
                                           Reg.CM_INT_STATUS]) }) ∧
  (∀ (s : State) (dt sec ns frac v : Nat) (sub : Bool), s.aonUp = true → sec < 2 ^ 48 → ns < 2 ^ 30 → frac < 2 ^ 16 →
    (s.begun dt).busy Reg.HM_SET_CTRL = false → s.hm.svTick ≠ (s.now + dt) / 240 + 1 →
    v = ((sec * 1000000000 + ns) * 2 ^ 16 + frac) * 2 ^ 24 →
    ∃ t, exec (if sub then .timeSub dt sec ns frac else .timeAdd dt sec ns frac) s = .next t ∧ t.time.now = s.now + dt ∧
      (t.time.raw : Int) = (((s.begun dt).time.raw : Int) + (if sub then -(v : Int) else (v : Int))) % (hmMod : Int) ∧
      t.time.addend = s.time.addend ∧ t.ctr (Ctr.hm 0) = (s.ctr (Ctr.hm 0) + 1) % 2 ^ 64 ∧ t.fld Fld.HM_INT_STATUS_STEP = 1 ∧
      t.servo = (if s.servo = svFree then svFree else svAcquire) ∧
      (s.begun dt).frame t { parts := [.time, .hm, .goBusy, .free, .pms, .out, .jn], ctrs := (· = Ctr.hm 0),
                             regs := (· ∈ [Reg.HM_SET0, Reg.HM_SET1, Reg.HM_SET2, Reg.HM_SET_CTRL, Reg.HM_INT_STATUS, Reg.HM_SERVO_STATUS,
                                           Reg.CM_INT_STATUS]) }) ∧
  (∀ (s : State) (dt sec ns frac : Nat) (c : Instr), s.aonUp = true → sec < 2 ^ 48 → ns < 2 ^ 30 → frac < 2 ^ 16 →
    c ∈ [.timeSet dt sec ns frac, .timeAdd dt sec ns frac, .timeSub dt sec ns frac] → (s.begun dt).busy Reg.HM_SET_CTRL = true →
    ∃ t, exec c s = .next t ∧ t.fld Fld.HM_SET_CTRL_OVERRUN = 1 ∧
      (s.begun dt).frame t { regs := (· ∈ [Reg.HM_SET0, Reg.HM_SET1, Reg.HM_SET2, Reg.HM_SET_CTRL]) }) ∧
  (∀ (s : State) (dt : Nat) (v : BitVec 40), s.aonUp = true →
    ∃ t, exec (.addendWrite dt v) s = .next t ∧ t.addendReg = v.toInt ∧
      t.time.addend = (if s.servo = svFree then clampAddend v.toInt else s.time.addend) ∧ t.time.raw = (s.begun dt).time.raw ∧
      (s.begun dt).frame t { parts := [.time, .jn], regs := (· ∈ [Reg.HM_ADDEND0, Reg.HM_ADDEND1, Reg.CM_INT_STATUS]) }) ∧
  (∀ (s : State) (dt : Nat), s.aonUp = true →
    ∃ t, exec (.counterBroadcast dt) s = .next t ∧
      (t.time.raw : Int) = ((s.time.raw : Int) + (((s.now + dt) / 240 - s.now / 240 : Nat) : Int) * (4 * 2 ^ 40 + 4 * s.time.addend)) % (hmMod : Int) ∧
      t.time.addend = s.time.addend ∧ t.hm.bcastSec = some t.hmSec ∧ (s.begun dt).frame t { parts := [.hm] })

/-- R297, R303: Setting EN takes FREERUN to ACQUIRE with I from HM_ADDEND; clearing it returns to FREERUN with HM_ADDEND active. A write of SRC or
CRF_PORT, and TIMEOUT without a sample, take ACQUIRE and LOCKED to HOLDOVER with A set to I; the latter raises SRC_LOST. Every change raises
STATE_CHG. (With a new addend journal records that are due enter their queue.) -/
def Obligations.ServoStates : Prop :=
  (∀ (s : State) (dt : Nat), s.aonUp = true → s.fld Fld.HM_SERVO_CTRL_EN = 0 → s.servo = svFree →
    ∃ t, exec (.servoEnable dt) s = .next t ∧ t.fld Fld.HM_SERVO_CTRL_EN = 1 ∧ t.servo = svAcquire ∧ t.hm.integ = s.addendReg ∧ t.hm.lastAt = none ∧
      t.hm.srun = 0 ∧ t.fld Fld.HM_INT_STATUS_STATE_CHG = 1 ∧
      (s.begun dt).frame t { parts := [.hm, .out], regs := (· ∈ [Reg.HM_SERVO_CTRL, Reg.HM_SERVO_STATUS, Reg.HM_INT_STATUS]) }) ∧
  (∀ (s : State) (dt : Nat), s.aonUp = true → s.servo ≠ svFree →
    ∃ t, exec (.servoDisable dt) s = .next t ∧ t.fld Fld.HM_SERVO_CTRL_EN = 0 ∧ t.servo = svFree ∧ t.time.addend = clampAddend s.addendReg ∧
      t.fld Fld.HM_INT_STATUS_STATE_CHG = 1 ∧ t.time.raw = (s.begun dt).time.raw ∧
      (s.begun dt).frame t { parts := [.time, .hm, .out, .jn], regs := (· ∈ [Reg.HM_SERVO_CTRL, Reg.HM_SERVO_STATUS, Reg.HM_INT_STATUS, Reg.CM_INT_STATUS]) }) ∧
  (∀ (s : State) (dt : Nat), s.aonUp = true → s.servo = svAcquire ∨ s.servo = svLocked → s.hm.sampleAt + s.servoTimeout ≤ s.now + dt →
    ∃ t, exec (.srcLost dt) s = .next t ∧ t.servo = svHoldover ∧ t.time.addend = clampAddend s.hm.integ ∧ t.fld Fld.HM_INT_STATUS_SRC_LOST = 1 ∧
      t.fld Fld.HM_INT_STATUS_STATE_CHG = 1 ∧ t.time.raw = (s.begun dt).time.raw ∧
      (s.begun dt).frame t { parts := [.time, .hm, .out, .jn], regs := (· ∈ [Reg.HM_SERVO_STATUS, Reg.HM_INT_STATUS, Reg.CM_INT_STATUS]) }) ∧
  (∀ (s : State) (dt : Nat), s.aonUp = true → s.servo = svFree ∨ s.servo = svHoldover ∨ s.now + dt < s.hm.sampleAt + s.servoTimeout →
    ∃ t, exec (.srcLost dt) s = .next t ∧ (s.begun dt).frame t {}) ∧
  (∀ (s : State) (dt src q : Nat), s.aonUp = true → src < 8 → q < 128 → s.fld Fld.HM_SERVO_CTRL_EN = 1 → s.servo = svAcquire ∨ s.servo = svLocked →
    ∃ t, exec (.servoSrcWrite dt src q) s = .next t ∧ t.fld Fld.HM_SERVO_CTRL_SRC = src ∧ t.fld Fld.HM_SERVO_CTRL_CRF_PORT = q ∧ t.servo = svHoldover ∧
      t.time.addend = clampAddend s.hm.integ ∧ t.hm.crfVals = [] ∧ t.fld Fld.HM_INT_STATUS_STATE_CHG = 1 ∧
      (s.begun dt).frame t { parts := [.time, .hm, .out, .jn], regs := (· ∈ [Reg.HM_SERVO_CTRL, Reg.HM_SERVO_STATUS, Reg.HM_INT_STATUS, Reg.CM_INT_STATUS]) })

/-- R301, R302, R303, R304: A software offset in ACQUIRE or LOCKED, T ns after the last sample and with no step: e = floor(θ 2^24 / T), I loses floor(e /
2^KI), A is I less floor(e / 2^KP), both clamped; it shows in LAST_OFFSET. In LOCKED an offset beyond UNLOCK returns to ACQUIRE. In HOLDOVER, and as
the first in ACQUIRE, it only starts the interval. That I is clamped before A is formed from it is the model's choice (log 11). One beyond STEP_NS
with STEP_EN steps the counter by -θ. 2^AVG CRF values give their mean as one sample, fewer give none. An edge on PPS_IN gives the distance of its
capture, a whole nanosecond within 2 ns of it, from the nearest second. -/
def Obligations.ServoSamples : Prop :=
  (∀ (s : State) (dt fr t0 T : Nat) (ns : BitVec 32) (θ e : Int), s.aonUp = true → fr < 2 ^ 16 → s.fld Fld.HM_SERVO_CTRL_EN = 1 → s.servoSrc = 0 →
    s.servo = svAcquire ∨ s.servo = svLocked → s.fld Fld.HM_SERVO_CTRL_STEP_EN = 0 → s.hm.lastAt = some t0 → T = ((s.now + dt) / 240 - t0) * 4 → 0 < T →
    θ = ns.toInt * 65536 + (fr : Int) → e = (θ * 2 ^ 24).fdiv (T : Int) →
    ∃ t, exec (.swOffsetSample dt ns fr) s = .next t ∧ t.hm.integ = clampAddend (s.hm.integ - e.fdiv (2 ^ s.fld Fld.HM_SERVO_CTRL_KI)) ∧
      t.time.addend = clampAddend (t.hm.integ - e.fdiv (2 ^ s.fld Fld.HM_SERVO_CTRL_KP)) ∧ t.time.raw = (s.begun dt).time.raw ∧
      t.reg Reg.HM_LAST_OFFSET0 = ns ∧ t.reg Reg.HM_LAST_OFFSET1 = w32 fr ∧ t.hm.lastAt = some ((s.now + dt) / 240) ∧
      (s.servo = svLocked → t.servo = (if s.fld Fld.HM_SERVO_THR_UNLOCK * 8 * 65536 < θ.natAbs then svAcquire else svLocked)) ∧
      (s.servo = svAcquire → t.servo = (if θ.natAbs ≤ s.fld Fld.HM_SERVO_THR_LOCK * 65536 ∧ max (s.fld Fld.HM_SERVO_THR_LOCK_CNT) 1 ≤ s.hm.srun + 1
        then svLocked else svAcquire)) ∧
      (s.begun dt).frame t { parts := [.time, .hm, .out, .free, .jn],
                             regs := (· ∈ [Reg.HM_SW_OFFSET0, Reg.HM_SW_OFFSET1, Reg.HM_LAST_OFFSET0, Reg.HM_LAST_OFFSET1, Reg.HM_SERVO_STATUS,
                                           Reg.HM_INT_STATUS, Reg.CM_INT_STATUS]) }) ∧
  (∀ (s : State) (dt fr : Nat) (ns : BitVec 32), s.aonUp = true → fr < 2 ^ 16 → s.fld Fld.HM_SERVO_CTRL_EN = 1 → s.servoSrc = 0 →
    s.fld Fld.HM_SERVO_CTRL_STEP_EN = 0 → s.servo = svHoldover ∨ (s.servo = svAcquire ∧ s.hm.lastAt = none) →
    ∃ t, exec (.swOffsetSample dt ns fr) s = .next t ∧ t.servo = svAcquire ∧ t.hm.lastAt = some ((s.now + dt) / 240) ∧ t.hm.sampleAt = s.now + dt ∧
      t.hm.integ = s.hm.integ ∧ (s.servo = svHoldover → t.hm.srun = 0 ∧ t.fld Fld.HM_INT_STATUS_STATE_CHG = 1) ∧ t.reg Reg.HM_LAST_OFFSET0 = ns ∧
      t.reg Reg.HM_LAST_OFFSET1 = w32 fr ∧
      (s.begun dt).frame t { parts := [.hm, .out],
                             regs := (· ∈ [Reg.HM_SW_OFFSET0, Reg.HM_SW_OFFSET1, Reg.HM_LAST_OFFSET0, Reg.HM_LAST_OFFSET1, Reg.HM_SERVO_STATUS,
                                           Reg.HM_INT_STATUS]) }) ∧
  (∀ (s : State) (dt fr : Nat) (ns : BitVec 32) (θ : Int), s.aonUp = true → fr < 2 ^ 16 → s.fld Fld.HM_SERVO_CTRL_EN = 1 → s.servoSrc = 0 →
    s.servo ≠ svFree → s.fld Fld.HM_SERVO_CTRL_STEP_EN = 1 → 0 < s.fld Fld.HM_STEP_NS_STEP_NS → s.hm.swTick ≠ (s.now + dt) / 240 + 1 →
    θ = ns.toInt * 65536 + (fr : Int) → s.fld Fld.HM_STEP_NS_STEP_NS * 65536 < θ.natAbs →
    ∃ t, exec (.swOffsetSample dt ns fr) s = .next t ∧ (t.time.raw : Int) = (((s.begun dt).time.raw : Int) - θ * 2 ^ 24) % (hmMod : Int) ∧
      t.time.addend = s.time.addend ∧ t.servo = svAcquire ∧ t.fld Fld.HM_INT_STATUS_STEP = 1 ∧ t.ctr (Ctr.hm 0) = (s.ctr (Ctr.hm 0) + 1) % 2 ^ 64 ∧
      t.hm.integ = s.hm.integ) ∧
  (∀ (s : State) (dt : Nat), s.mainUp = true → s.hm.crfVals.length < 2 ^ min (s.fld Fld.HM_SERVO_CTRL_AVG) 8 →
    ∃ t, exec (.crfSample dt) s = .next t ∧ (s.begun dt).frame t {}) ∧
  (∀ (s : State) (dt n : Nat) (θ : Int), s.mainUp = true → s.fld Fld.HM_SERVO_CTRL_EN = 1 → s.servoSrc = 1 → s.servo ≠ svFree →
    s.fld Fld.HM_SERVO_CTRL_STEP_EN = 0 → n = 2 ^ min (s.fld Fld.HM_SERVO_CTRL_AVG) 8 → n ≤ s.hm.crfVals.length → (s.hm.crfVals.take n).foldl (· + ·) 0 = 2 * (n : Int) * θ →
    ∃ t, exec (.crfSample dt) s = .next t ∧ t.hm.crfVals = s.hm.crfVals.drop n ∧ t.reg Reg.HM_LAST_OFFSET0 = w32 (unsign 32 (θ.fdiv 65536)) ∧
      t.reg Reg.HM_LAST_OFFSET1 = w32 (unsign 16 θ) ∧ t.hm.sampleAt = s.now + dt ∧ t.hm.lastAt ≠ none ∧
      (t.servo = svAcquire ∨ t.servo = svLocked)) ∧
  (∀ (s : State) (dt : Nat), s.aonUp = true → s.fld Fld.HM_PPS_CTRL_IN_EN = 1 → s.fld Fld.HM_SERVO_CTRL_EN = 1 → s.servoSrc = 2 → s.servo ≠ svFree →
    ∃ t, ∃ c d : Int, exec (.ppsInEdge dt) s = .next t ∧ (c * 65536 - (s.begun dt).hmRel 0).natAbs ≤ 2 * 65536 ∧ -500000000 < d ∧ d ≤ 500000000 ∧
      (c - signed 32 (s.reg Reg.HM_PPS_IN_OFS).toNat - d) % 1000000000 = 0 ∧
      t.reg Reg.HM_LAST_OFFSET0 = w32 (unsign 32 d) ∧ t.reg Reg.HM_LAST_OFFSET1 = 0 ∧ t.hm.sampleAt = s.now + dt) ∧
  (∀ (s : State) (dt : Nat), s.aonUp = true → s.fld Fld.HM_PPS_CTRL_IN_EN = 0 ∨ s.servoSrc ≠ 2 →
    ∃ t, exec (.ppsInEdge dt) s = .next t ∧ (s.begun dt).frame t {})

/-- R312, R313: PPS_OUT rises for a second that it has not risen for, unless OUT_EN is 0 or OUT_QUAL holds it low, and falls once its width has passed.
The message of a second is 16 bytes: marker, VERSION 1, servo state, seconds, UTC offset, clock class, 0 and CRC, each byte sent with a start bit, its
bits from the least significant on, and a stop bit, at the rate of BAUD; it goes out once, and none with TX_EN 0. -/
def Obligations.PpsAndTod : Prop :=
  (∀ (s : State) (dt : Nat), s.aonUp = true → s.fld Fld.HM_PPS_CTRL_OUT_EN = 1 → 0 ≤ (s.begun dt).ppsIndex 0 → s.hm.ppsSec ≠ some ((s.begun dt).ppsIndex 0) → s.ppsQuiet = false →
    ∃ t, exec (.ppsOutRise dt) s = .next t ∧ t.hm.ppsHigh = true ∧ t.hm.ppsSec = some ((s.begun dt).ppsIndex 0) ∧
      (s.hm.ppsHigh = false → t.out.filter (fun e => !e.isMsix) = .pps true :: s.out.filter (fun e => !e.isMsix)) ∧
      (s.begun dt).frame t { parts := [.hm, .out] }) ∧
  (∀ (s : State) (dt : Nat), s.aonUp = true → s.ppsQuiet = true →
    ∃ t, exec (.ppsOutRise dt) s = .next t ∧ t.hm.ppsHigh = s.hm.ppsHigh ∧ (s.begun dt).frame t { parts := [.hm] }) ∧
  (∀ (s : State) (dt : Nat), s.aonUp = true → s.hm.ppsHigh = true → s.hm.ppsFall ≤ (s.begun dt).hmNs →
    ∃ t, exec (.ppsOutFall dt) s = .next t ∧ t.hm = { s.hm with ppsHigh := false } ∧
      t.out.filter (fun e => !e.isMsix) = .pps false :: s.out.filter (fun e => !e.isMsix) ∧ (s.begun dt).frame t { parts := [.hm, .out] }) ∧
  (∀ (s : State) (dt : Nat), s.aonUp = true → s.fld Fld.HM_TOD_CTRL_TX_EN = 1 → 0 ≤ (s.begun dt).ppsIndex 10000000 →
    s.hm.todSec ≠ some ((s.begun dt).ppsIndex 10000000) →
    ∃ t m, exec (.todTx dt) s = .next t ∧
      t.out.filter (fun e => !e.isMsix) = .tod (match s.fld Fld.HM_TOD_CTRL_BAUD with | 0 => 9600 | 1 => 115200 | 2 => 460800 | _ => 921600)
        (m.flatMap (fun b => [false, b.getLsbD 0, b.getLsbD 1, b.getLsbD 2, b.getLsbD 3, b.getLsbD 4, b.getLsbD 5, b.getLsbD 6, b.getLsbD 7, true])) ::
        s.out.filter (fun e => !e.isMsix) ∧ m.length = 16 ∧
      u16 m 0 = 0x4354 ∧ u8 m 2 = 1 ∧ u8 m 3 = s.servo ∧ (beNat (byteSlice m 4 6) : Int) = (s.begun dt).ppsIndex 10000000 % 2 ^ 48 ∧
      u16 m 10 = s.fld Fld.HM_UTC_UTC_OFFSET ∧ u8 m 12 = s.fld Fld.HM_UTC_CLOCK_CLASS ∧ u8 m 13 = 0 ∧ u16 m 14 = crc16 (m.take 14) ∧
      t.hm = { s.hm with todSec := some ((s.begun dt).ppsIndex 10000000) } ∧ (s.begun dt).frame t { parts := [.hm, .out] }) ∧
  (∀ (s : State) (dt : Nat), s.aonUp = true → s.fld Fld.HM_TOD_CTRL_TX_EN = 0 ∨ s.hm.todSec = some ((s.begun dt).ppsIndex 10000000) →
    ∃ t, exec (.todTx dt) s = .next t ∧ (s.begun dt).frame t {})

/-- R314: While RX_EN is 1, a 16-byte message with SYNC, VER and CRC good and no gap is copied and raises TOD_RX. Any other message, and any gap, adds 1
to TOD_RX_ERR and raises TOD_RX_ERR. Nothing else changes: the counter moves on with time alone. With RX_EN 0 nothing changes at all. -/
def Obligations.TodReceived : Prop :=
  (∀ (s : State) (dt : Nat) (m : List Byte), s.aonUp = true → s.fld Fld.HM_TOD_CTRL_RX_EN = 1 → m.length = 16 → u16 m 0 = 0x4354 → u8 m 2 = 1 →
    u16 m 14 = crc16 (m.take 14) →
    ∃ t, exec (.todRx dt m false) s = .next t ∧ (∀ i, i < 4 → t.reg (Reg.HM_TOD_RX i) = w32 (leNat (byteSlice m (4 * i) 4))) ∧
      t.fld Fld.HM_INT_STATUS_TOD_RX = 1 ∧
      (s.begun dt).frame t { regs := (· ∈ [Reg.HM_TOD_RX 0, Reg.HM_TOD_RX 1, Reg.HM_TOD_RX 2, Reg.HM_TOD_RX 3, Reg.HM_INT_STATUS]) }) ∧
  (∀ (s : State) (dt : Nat) (m : List Byte) (gap : Bool), s.aonUp = true → s.fld Fld.HM_TOD_CTRL_RX_EN = 1 →
    gap = true ∨ m.length ≠ 16 ∨ u16 m 0 ≠ 0x4354 ∨ u8 m 2 ≠ 1 ∨ u16 m 14 ≠ crc16 (m.take 14) →
    ∃ t, exec (.todRx dt m gap) s = .next t ∧ t.ctr (Ctr.hm 0x18) = (s.ctr (Ctr.hm 0x18) + 1) % 2 ^ 64 ∧ t.fld Fld.HM_INT_STATUS_TOD_RX_ERR = 1 ∧
      (s.begun dt).frame t { regs := (· = Reg.HM_INT_STATUS), ctrs := (· = Ctr.hm 0x18) }) ∧
  (∀ (s : State) (dt : Nat) (m : List Byte) (gap : Bool), s.aonUp = true → s.fld Fld.HM_TOD_CTRL_RX_EN = 0 →
    ∃ t, exec (.todRx dt m gap) s = .next t ∧ (s.begun dt).frame t {})

/-- R315: In mode OUT a write with ARM 1 ends the pulse train, lowers the pin, and takes a time ahead as it is, moves a passed one by whole periods where
PERIODIC is 1, and raises EVT_MISS where it is 0. The pulse starts at its instant and ends after WIDTH, where the next does not begin by then. In mode
IN a selected edge is captured within 2 ns while fewer than eight captures wait, else it is lost and counted. POP drops the oldest capture. A write of
MODE with ARM 0 ends the pulse train and lowers the pin. -/
def Obligations.EventPins : Prop :=
  (∀ (s : State) (dt i : Nat), i < 2 → s.aonUp = true → s.fld (Fld.HM_EVT_CTRL_MODE i) = 1 →
    ((s.begun dt).hm16 < s.timeAt (Reg.HM_EVT_TIME0 i) → ∃ t, exec (.evtArm dt i) s = .next t ∧
      t.pin i = { s.pin i with next := some (s.timeAt (Reg.HM_EVT_TIME0 i)), until_ := none, high := false } ∧ (∀ j, j ≠ i → t.pin j = s.pin j) ∧
      (s.begun dt).frame t { parts := [.hm, .out], regs := (· = Reg.HM_EVT_CTRL i) }) ∧
    (s.timeAt (Reg.HM_EVT_TIME0 i) ≤ (s.begun dt).hm16 → s.fld (Fld.HM_EVT_CTRL_PERIODIC i) = 1 → ∃ t k, exec (.evtArm dt i) s = .next t ∧
      t.pin i = { s.pin i with next := some (s.timeAt (Reg.HM_EVT_TIME0 i) + k * s.evtPeriod i), until_ := none, high := false } ∧
      (s.begun dt).hm16 < s.timeAt (Reg.HM_EVT_TIME0 i) + k * s.evtPeriod i ∧
      s.timeAt (Reg.HM_EVT_TIME0 i) + k * s.evtPeriod i ≤ (s.begun dt).hm16 + s.evtPeriod i ∧
      (s.begun dt).frame t { parts := [.hm, .out], regs := (· = Reg.HM_EVT_CTRL i) }) ∧
    (s.timeAt (Reg.HM_EVT_TIME0 i) ≤ (s.begun dt).hm16 → s.fld (Fld.HM_EVT_CTRL_PERIODIC i) = 0 → ∃ t, exec (.evtArm dt i) s = .next t ∧
      t.fld Fld.HM_INT_STATUS_EVT_MISS = 1 ∧ t.pin i = { s.pin i with next := none, until_ := none, high := false } ∧
      (s.begun dt).frame t { parts := [.hm, .out], regs := (· ∈ [Reg.HM_INT_STATUS, Reg.HM_EVT_CTRL i]) })) ∧
  (∀ (s : State) (dt i T : Nat), i < 2 → s.aonUp = true → (s.pin i).next = some T → T ≤ (s.begun dt).hm16 →
    ∃ t, exec (.evtPulse dt i) s = .next t ∧ (t.pin i).high = true ∧ (t.pin i).until_ = some (T + s.fld (Fld.HM_EVT_WIDTH_WIDTH i) * 8 * 65536) ∧
      (t.pin i).next = (if s.fld (Fld.HM_EVT_CTRL_PERIODIC i) = 1 then some (T + s.evtPeriod i) else none) ∧ (t.pin i).caps = (s.pin i).caps ∧
      ((s.pin i).high = false → t.out.filter (fun e => !e.isMsix) = .evt i true :: s.out.filter (fun e => !e.isMsix)) ∧
      (s.begun dt).frame t { parts := [.hm, .out] }) ∧
  (∀ (s : State) (dt i T : Nat), i < 2 → s.aonUp = true → (s.pin i).until_ = some T → T ≤ (s.begun dt).hm16 →
    ∃ t, exec (.evtPulseEnd dt i) s = .next t ∧
      ((∀ u, (s.pin i).next = some u → T < u) → t.pin i = { s.pin i with until_ := none, high := false }) ∧
      (∀ u, (s.pin i).next = some u → u ≤ T → t.pin i = { s.pin i with until_ := none }) ∧ (s.begun dt).frame t { parts := [.hm, .out] }) ∧
  (∀ (s : State) (dt i : Nat) (r : Bool), i < 2 → s.aonUp = true → s.fld (Fld.HM_EVT_CTRL_MODE i) = 2 →
    bitOf (s.fld (Fld.HM_EVT_CTRL_EDGE i)) (if r then 0 else 1) = true →
    ((s.pin i).caps.length < 8 → ∃ t, ∃ c : Int, exec (.evtCapture dt i r) s = .next t ∧ (c * 65536 - (s.begun dt).hmRel 0).natAbs ≤ 2 * 65536 ∧
      (t.pin i).caps = (s.pin i).caps ++ [(c.toNat % (2 ^ 48 * 1000000000)) * 65536] ∧
      t.fld (if i = 0 then Fld.HM_INT_STATUS_EVT0_CAP else Fld.HM_INT_STATUS_EVT1_CAP) = 1 ∧
      (s.begun dt).frame t { parts := [.hm, .free], regs := (· = Reg.HM_INT_STATUS) }) ∧
    (8 ≤ (s.pin i).caps.length → ∃ t, exec (.evtCapture dt i r) s = .next t ∧ t.fld Fld.HM_INT_STATUS_EVT_OVF = 1 ∧
      t.ctr (Ctr.hm (8 + 8 * i)) = (s.ctr (Ctr.hm (8 + 8 * i)) + 1) % 2 ^ 64 ∧
      (s.begun dt).frame t { regs := (· = Reg.HM_INT_STATUS), ctrs := (· = Ctr.hm (8 + 8 * i)) })) ∧
  (∀ (s : State) (dt i : Nat), i < 2 → s.aonUp = true →
    ∃ t, exec (.evtCapPop dt i) s = .next t ∧ t.pin i = { s.pin i with caps := (s.pin i).caps.drop 1 } ∧ (s.begun dt).frame t { parts := [.hm] }) ∧
  (∀ (s : State) (dt i : Nat) (v : Word), i < 2 → s.aonUp = true → bitOf v.toNat 26 = false →
    ∃ t, exec (.evtModeWrite dt i v) s = .next t ∧ t.reg (Reg.HM_EVT_CTRL i) = v &&& 0xF8000000#32 ∧
      t.pin i = { s.pin i with next := none, until_ := none, high := false } ∧
      (s.begun dt).frame t { parts := [.hm, .out], regs := (· = Reg.HM_EVT_CTRL i) })

/-- R319, R321: Once the start of a waiting calendar is reached it is the calendar in force, and no other waits; before that the old one stays in force.
At any time the gates of a port are those that the calendar in force gives for the time; GATE_EDGE itself changes no gate and nothing else. That gates
are computed and not stored, and that a switch is stored at the first command after its start, are the model's choices (log 13). -/
def Obligations.GateCalendars : Prop :=
  (∀ (s : State) (dt q : Nat) (c : Calendar), q < 144 → s.mainUp = true → (s.gate q).next = some c → (s.gate q).nextAt ≤ (s.begun dt).hm16 →
    (∃ t, exec (.gateCalendarSwitch dt q) s = .next t ∧ t.gate q = ⟨c, none, 0⟩ ∧ t.gateMask q = c.mask (s.begun dt).hm16 ∧
      (∀ r, r ≠ q → t.gate r = s.gate r) ∧ (s.begun dt).frame t { parts := [.hm] }) ∧
    (∃ t, exec (.gateEdge dt q) s = .next t ∧ t.gate q = ⟨c, none, 0⟩ ∧ t.gateMask q = c.mask (s.begun dt).hm16 ∧
      (s.begun dt).frame t { parts := [.hm] })) ∧
  (∀ (s : State) (dt q : Nat) (c : Calendar), q < 144 → s.mainUp = true → (s.gate q).next = some c → (s.begun dt).hm16 < (s.gate q).nextAt →
    ∃ t, exec (.gateCalendarSwitch dt q) s = .next t ∧ t.gateMask q = (s.gate q).cur.mask (s.begun dt).hm16 ∧ (s.begun dt).frame t {}) ∧
  (∀ (s : State) (dt q : Nat), q < 144 → s.mainUp = true → (s.gate q).next = none →
    (∃ t, exec (.gateEdge dt q) s = .next t ∧ t.gateMask q = (s.gate q).cur.mask (s.begun dt).hm16 ∧ (s.begun dt).frame t {}) ∧
    (∃ t, exec (.gateCalendarSwitch dt q) s = .next t ∧ (s.begun dt).frame t {}))

/-! ### Continuity checks, Anvil and Planish's own commands (chapters 4, 10 and 15) -/

/-- R114, R115: MEP_ENABLE sets EN and nothing else; MEP_DISABLE clears EN, STATUS and the MEP's timers, and shows a change where a defect was present.
Served by its group's TASK 0x03 slot, an enabled MEP with a key of its own becomes active with its first CCM one period away, and one whose key a
lower MEP has is marked KEY_CLASH and is not active. Without such a slot nothing is served. The time of the first CCM, and a MEP in a clash without
defects, are the model's choices (log 25). -/
def Obligations.ContinuityMeps : Prop :=
  (∀ (s : State) (dt m : Nat), m < 4096 → s.mainUp = true →
    (∃ t, exec (.mepEnable dt m) s = .next t ∧ t.fld (Fld.AV_MEP_CFG_EN m) = 1 ∧ (s.begun dt).frame t { regs := (· = Reg.AV_MEP_CFG m) }) ∧
    (∃ t, exec (.mepDisable dt m) s = .next t ∧ t.fld (Fld.AV_MEP_CFG_EN m) = 0 ∧ t.reg (Reg.AV_MEP_STATUS m) = 0 ∧ SMap.look t.av.meps m = none ∧
      (s.mepDefs m ≠ 0 → bitOf (t.fld (Fld.AV_MEP_CHG_MEPS (m / 32))) (m % 32) = true ∧ t.fld Fld.AV_INT_STATUS_MEP_CHG = 1) ∧
      (s.begun dt).frame t { parts := [.av],
                             regs := (· ∈ [Reg.AV_MEP_CFG m, Reg.AV_MEP_STATUS m, Reg.AV_MEP_CHG (m / 32), Reg.AV_INT_STATUS]) })) ∧
  (∀ (s : State) (dt a m : Nat), a < 256 → m / 16 = a → s.mainUp = true → s.calHas 3 a = true →
    (∀ k, k / 16 = a → k ≠ m → s.fld (Fld.AV_MEP_CFG_EN k) = 0 ∧ SMap.look s.av.meps k = none) → s.fld (Fld.AV_MEP_CFG_EN m) = 1 →
    s.fld (Fld.AV_MEP_STATUS_ACTIVE m) = 0 →
    ((∀ e, e ∈ s.av.meps → e.1 < m → ¬ (e.2.port = ({ s.mep m with cfg := s.mepWords m }).port ∧
        e.2.vid = ({ s.mep m with cfg := s.mepWords m }).vid)) →
      ∃ t, exec (.ccmService dt a) s = .next t ∧ t.fld (Fld.AV_MEP_STATUS_ACTIVE m) = 1 ∧ t.fld (Fld.AV_MEP_STATUS_KEY_CLASH m) = 0 ∧ t.mepDefs m = 0 ∧
        (t.mep m).cfg = s.mepWords m ∧ (t.mep m).nextTx = s.now + dt + (t.mep m).period ∧ (t.mep m).prev = none ∧
        (s.begun dt).frame t { parts := [.av], regs := (· = Reg.AV_MEP_STATUS m) }) ∧
    (∀ e, e ∈ s.av.meps → e.1 < m → e.2.port = ({ s.mep m with cfg := s.mepWords m }).port →
        e.2.vid = ({ s.mep m with cfg := s.mepWords m }).vid →
      ∃ t, exec (.ccmService dt a) s = .next t ∧ t.fld (Fld.AV_MEP_STATUS_ACTIVE m) = 0 ∧ t.fld (Fld.AV_MEP_STATUS_KEY_CLASH m) = 1 ∧ t.mepDefs m = 0 ∧
        (s.begun dt).frame t { parts := [.av], regs := (· ∈ [Reg.AV_MEP_STATUS m, Reg.AV_MEP_CHG (m / 32), Reg.AV_INT_STATUS]) })) ∧
  (∀ (s : State) (dt a : Nat), a < 256 → s.mainUp = true → s.calHas 3 a = false →
    ∃ t, exec (.ccmService dt a) s = .next t ∧ (s.begun dt).frame t {})

/-- R116, R117: A waiting CCM of a lower level sets UNL, one of another MAID sets MMG, one of an unexpected MEPID sets UNM; each counts as a defect event.
A valid one of the expected interval counts, clears LOC, shows its RDI, and gives the number that the next is checked against. LOC is set T after the
last valid CCM, and clears RDI; the other defects clear T after their last event. The CCM examined waits no longer; with none that waits nothing
happens. Of a MEP whose group has no TASK 0x03 slot, nothing of this changes. -/
def Obligations.CcmEvents : Prop :=
  (∀ (s : State) (dt m : Nat) (c : Ccm) (w : List Ccm), m < 4096 → s.mainUp = true → s.av.ccm = c :: w → c.mep = m → s.mepActive m = true →
    s.calHas 3 (m / 16) = true →
    (u8 c.bytes c.parse.pay / 32 < (s.mep m).level → ∃ t, exec (.ccmExamine dt m) s = .next t ∧ bitOf (t.mepDefs m) mUNL = true ∧ t.av.ccm = w ∧
      t.ctr (Ctr.mep m 0x10) = (s.ctr (Ctr.mep m 0x10) + 1) % 2 ^ 64 ∧ (t.mep m).valid = (s.mep m).valid) ∧
    (¬ u8 c.bytes c.parse.pay / 32 < (s.mep m).level → byteSlice c.bytes (c.parse.pay + 10) 48 ≠ (s.mep m).maid →
      ∃ t, exec (.ccmExamine dt m) s = .next t ∧ bitOf (t.mepDefs m) mMMG = true ∧ t.av.ccm = w ∧
        t.ctr (Ctr.mep m 0x10) = (s.ctr (Ctr.mep m 0x10) + 1) % 2 ^ 64 ∧ (t.mep m).valid = (s.mep m).valid) ∧
    (¬ u8 c.bytes c.parse.pay / 32 < (s.mep m).level → byteSlice c.bytes (c.parse.pay + 10) 48 = (s.mep m).maid →
      u16 c.bytes (c.parse.pay + 8) % 8192 ≠ (s.mep m).rmepid →
      ∃ t, exec (.ccmExamine dt m) s = .next t ∧ bitOf (t.mepDefs m) mUNM = true ∧ t.av.ccm = w ∧
        t.ctr (Ctr.mep m 0x10) = (s.ctr (Ctr.mep m 0x10) + 1) % 2 ^ 64 ∧ (t.mep m).valid = (s.mep m).valid) ∧
    (¬ u8 c.bytes c.parse.pay / 32 < (s.mep m).level → byteSlice c.bytes (c.parse.pay + 10) 48 = (s.mep m).maid →
      u16 c.bytes (c.parse.pay + 8) % 8192 = (s.mep m).rmepid → u8 c.bytes (c.parse.pay + 2) % 8 = (s.mep m).code → c.parse.tags = [] →
      ∃ t, exec (.ccmExamine dt m) s = .next t ∧ bitOf (t.mepDefs m) mLOC = false ∧
        bitOf (t.mepDefs m) mRDI = bitOf (u8 c.bytes (c.parse.pay + 2)) 7 ∧ t.av.ccm = w ∧
        t.ctr (Ctr.mep m 0x08) = (s.ctr (Ctr.mep m 0x08) + 1) % 2 ^ 64 ∧ (t.mep m).valid = s.now + dt ∧
        (t.mep m).prev = some (u32 c.bytes (c.parse.pay + 4)) ∧
        (∀ d, 2 ≤ d → d < 7 → bitOf (t.mepDefs m) d = bitOf (s.mepDefs m) d) ∧
        (s.begun dt).frame t { parts := [.av], regs := (· ∈ [Reg.AV_MEP_STATUS m, Reg.AV_MEP_CHG (m / 32), Reg.AV_INT_STATUS]),
                               ctrs := (· ∈ [Ctr.mep m 0x08, Ctr.mep m 0x18]) })) ∧
  (∀ (s : State) (dt m : Nat), m < 4096 → s.mainUp = true → (∀ c, c ∈ s.av.ccm → c.mep ≠ m) →
    ∃ t, exec (.ccmExamine dt m) s = .next t ∧ (s.begun dt).frame t {}) ∧
  (∀ (s : State) (dt m : Nat), m < 4096 → s.mainUp = true → s.mepActive m = true → s.calHas 3 (m / 16) = true → bitOf (s.mepDefs m) mLOC = false →
    (s.mep m).valid + (s.mep m).t ≤ s.now + dt →
    ∃ t, exec (.mepLoc dt m) s = .next t ∧ bitOf (t.mepDefs m) mLOC = true ∧ bitOf (t.mepDefs m) mRDI = false ∧ (t.mep m).prev = none ∧
      (∀ d, 2 ≤ d → d < 7 → bitOf (t.mepDefs m) d = bitOf (s.mepDefs m) d) ∧ bitOf (t.fld (Fld.AV_MEP_CHG_MEPS (m / 32))) (m % 32) = true ∧
      t.fld Fld.AV_INT_STATUS_MEP_CHG = 1 ∧
      (s.begun dt).frame t { parts := [.av], regs := (· ∈ [Reg.AV_MEP_STATUS m, Reg.AV_MEP_CHG (m / 32), Reg.AV_INT_STATUS]) }) ∧
  (∀ (s : State) (dt m d : Nat), m < 4096 → 2 ≤ d → d < 7 → s.mainUp = true → s.mepActive m = true → s.calHas 3 (m / 16) = true →
    bitOf (s.mepDefs m) d = true →
    ((s.mep m).eventAt d + (s.mep m).t ≤ s.now + dt →
      ∃ t, exec (.mepDefectClear dt m d) s = .next t ∧ (∀ e, e < 7 → bitOf (t.mepDefs m) e = (bitOf (s.mepDefs m) e && !decide (e = d))) ∧
        t.fld Fld.AV_INT_STATUS_MEP_CHG = 1 ∧
        (s.begun dt).frame t { regs := (· ∈ [Reg.AV_MEP_STATUS m, Reg.AV_MEP_CHG (m / 32), Reg.AV_INT_STATUS]) }) ∧
    (s.now + dt < (s.mep m).eventAt d + (s.mep m).t → ∃ t, exec (.mepDefectClear dt m d) s = .next t ∧ (s.begun dt).frame t {})) ∧
  (∀ (s : State) (dt m d : Nat), m < 4096 → 2 ≤ d → d < 7 → s.mainUp = true → s.calHas 3 (m / 16) = false →
    (∃ t, exec (.mepLoc dt m) s = .next t ∧ (s.begun dt).frame t {}) ∧
    (∃ t, exec (.mepDefectClear dt m d) s = .next t ∧ (s.begun dt).frame t {}) ∧
    (∀ c w, s.av.ccm = c :: w → c.mep = m → ∃ t, exec (.ccmExamine dt m) s = .next t ∧ t.av = { s.av with ccm := w } ∧
      (s.begun dt).frame t { parts := [.av] }))

/-- R264, R280, R283, R289, R290, R355, R356, R434, R447, R501: TWIN_TASK takes as many waiting mirror records as fit, in order, into one frame of the
control EtherType with the next MSEQ, queued for (LINK_PORT, 7) where the port's MTU admits it, where the pool of CB_ANVIL_POOL grants it its cells;
where one is refused it keeps them (log 28) and raises NOBUF; without slot, records, or a reason to send it does nothing. A reloaded calendar replaces
the old one. ZERO and FULL set a bucket to 0 and to its burst at the end of their CD24 cycle; an index out of range sets ERR alone, and while GO is 1
OVERRUN alone. A read of a sojourn watermark returns the bytes that are read, and one with byte 0 clears it. A due sample of the next queue is posted
to its ring as two entries, or counted as dropped where the ring takes none; the next is due PERIOD × 8 ns later, a PERIOD below 5 acting as 5. -/
def Obligations.AnvilAndPlanish : Prop :=
  (∀ (s : State) (dt : Nat), s.mainUp = true →
    (s.mirrorOn = false ∧ (s.fld Fld.TW_CFG_EN = 0 ∨ s.tw.resend = 0)) ∨ s.calHas 4 0 = false ∨ s.tw.records = [] →
    ∃ t, exec (.twinTask dt) s = .next t ∧ (s.begun dt).frame t {}) ∧
  (∀ (s : State) (dt p n : Nat) (g : Bool) (r : List (Nat × Nat × List Word) × List (Nat × Nat × List Word)), s.mainUp = true →
    s.mirrorOn = true ∨ (s.fld Fld.TW_CFG_EN = 1 ∧ 0 < s.tw.resend) → s.calHas 4 0 = true → s.tw.records ≠ [] → p = s.fld Fld.TW_CFG_LINK_PORT →
    r = fitRecords s.tw.records 1488 → n = cellsFor (30 + max 34 (r.1.flatMap recordBytes).length) →
    g = ((s.begun dt).drawn.anvilCells (n - (s.begun dt).pool.avCells.length)).1 →
    ((s.begun dt).pool.avCells = [] → ((s.begun dt).drawn.alloc (s.fld Fld.CB_ANVIL_POOL_POOL) 9 slotAnvil).1 = none → g = false) ∧
    ((s.begun dt).pool.avCells = [] → n = 1 → (((s.begun dt).drawn.alloc (s.fld Fld.CB_ANVIL_POOL_POOL) 9 slotAnvil).1).isSome = true → g = true) ∧
    ∃ t, exec (.twinTask dt) s = .next t ∧
      (g = true → t.tw = { s.tw with records := r.2, mseq := (s.tw.mseq + 1) % 2 ^ 32, resend := s.tw.resend - r.1.length } ∧
          t.ctr (Ctr.tw 0x70) = (s.ctr (Ctr.tw 0x70) + r.1.length) % 2 ^ 64 ∧
          (1518 ≤ (s.begun dt).mtu p → ∃ x, t.queue (pcqId p 7) = s.queue (pcqId p 7) ++ [x] ∧ x.port = p ∧ x.data.length ≤ 1518 ∧
            u16 x.data 12 = s.fld (Fld.PP_PARSE_CFG_CTRL_ETYPE 0) ∧ u8 x.data 14 = 0x10 ∧ u8 x.data 15 = 1 ∧ u16 x.data 16 = r.1.length ∧
            u32 x.data 18 = (s.tw.mseq + 1) % 2 ^ 32 ∧ u32 x.data 22 = (s.reg Reg.TW_PAIR_ID).toNat ∧
            (x.data.drop 26).take (r.1.flatMap recordBytes).length = r.1.flatMap recordBytes)) ∧
      (g = false → t.tw = s.tw ∧ t.fld Fld.AV_INT_STATUS_NOBUF = 1 ∧ t.ctr 0x3000110 = (s.ctr 0x3000110 + 1) % 2 ^ 64)) ∧
  (∀ (s : State) (dt : Nat) (bs : List Byte), s.mainUp = true → s.bt.calNew = some bs →
    ∃ t, exec (.calReloadApply dt) s = .next t ∧ t.bt.calNew = none ∧ SMap.look t.bt.regions 4 = some bs ∧
      (s.bt.reload = none → (s.begun dt).frame t { parts := [.bt] })) ∧
  (∀ (s : State) (dt : Nat), s.mainUp = true → s.bt.calNew = none → ∃ t, exec (.calReloadApply dt) s = .next t ∧ (s.begun dt).frame t {}) ∧
  (∀ (s : State) (dt kind index : Nat) (ini : Initiator) (full : Bool), kind < 8 → index < 0x20000 → s.mainUp = true →
    s.reaches ini Reg.PL_LEVEL_CMD 0 = true →
    ((s.begun dt).busy Reg.PL_LEVEL_CMD = false → ∀ a, levelAddr kind index = some a →
      ∃ t, exec (if full then .levelFull dt ini kind index else .levelZero dt ini kind index) s = .next t ∧ t.fld Fld.PL_LEVEL_CMD_ERR = 0 ∧
        (∀ c, (s.begun dt).cyc24 < c → (t.bucket a).inCycle c =
          ⟨if full then ((s.bcfg a).burst : Int) * byteUnit else 0, ((s.begun dt).cyc24 + 1) * 60, none⟩) ∧
        (t.bucket a).inCycle (s.begun dt).cyc24 = { (s.begun dt).bucketNow a with setCyc := (t.bucket a).setCyc } ∧
        (∀ b, b ≠ a → t.bucket b = s.bucket b) ∧
        ((s.begun dt).i2cDone ini Reg.PL_LEVEL_CMD).frame t { parts := [.pl, .goBusy, .free, .jn], regs := (· ∈ [Reg.PL_LEVEL_CMD, Reg.CM_INT_STATUS]) }) ∧
    ((s.begun dt).busy Reg.PL_LEVEL_CMD = false → levelAddr kind index = none →
      ∃ t, exec (if full then .levelFull dt ini kind index else .levelZero dt ini kind index) s = .next t ∧ t.fld Fld.PL_LEVEL_CMD_ERR = 1 ∧
        ((s.begun dt).i2cDone ini Reg.PL_LEVEL_CMD).frame t { parts := [.goBusy, .free], regs := (· = Reg.PL_LEVEL_CMD) }) ∧
    ((s.begun dt).busy Reg.PL_LEVEL_CMD = true →
      ∃ t, exec (if full then .levelFull dt ini kind index else .levelZero dt ini kind index) s = .next t ∧ t.fld Fld.PL_LEVEL_CMD_OVERRUN = 1 ∧
        ((s.begun dt).i2cDone ini Reg.PL_LEVEL_CMD).frame t { regs := (· = Reg.PL_LEVEL_CMD) })) ∧
  (∀ (s : State) (dt q be : Nat) (ini : Initiator), isEgress q = true → be < 16 → be ≠ 0 → (ini = .pcie ∨ be = 15) → s.mainUp = true →
    s.reaches ini (0x1600000 + 4 * q) 0 = true →
    ∃ t, exec (.sojWmRead dt ini q be) s = .next t ∧
      (t.ini (Initiator.num ini)).rdata = (s.reg (0x1600000 + 4 * q) &&& w32 (beMask be)).toNat ∧
      t.reg (0x1600000 + 4 * q) = (if be % 2 = 1 then 0 else s.reg (0x1600000 + 4 * q)) ∧
      ((s.begun dt).i2cDone ini (0x1600000 + 4 * q)).frame t { parts := [.bus], regs := (· = 0x1600000 + 4 * q) }) ∧
  (∀ (s : State) (dt : Nat), s.mainUp = true → s.fld Fld.PL_SAMPLE_CTRL_EN = 0 ∨ s.now + dt < s.pl.sampleAt →
    ∃ t, exec (.samplePost dt) s = .next t ∧ (s.begun dt).frame t {}) ∧
  (∀ (s : State) (dt r d n : Nat), s.mainUp = true → s.fld Fld.PL_SAMPLE_CTRL_EN = 1 → s.pl.sampleAt ≤ s.now + dt → s.fld Fld.PL_SAMPLE_CTRL_RING = r →
    d = (s.ring r).dev → n = s.rN r →
    ∃ t, exec (.samplePost dt) s = .next t ∧ t.pl.sampleAt = s.now + dt + max (s.fld Fld.PL_SAMPLE_CTRL_PERIOD) 5 * 8 * tNs ∧
      (s.sampleNext = none → (s.begun dt).frame t { parts := [.pl] }) ∧
      (∀ q, s.sampleNext = some q → t.pl.sampleQ = q ∧
        (s.pciRuns = true → s.rOn r = true → s.rKind r = kindSample → 2 ≤ s.rFree r → (t.ring r).dev = (d + 2) % (2 * n) ∧
          t.out.filter (fun e => !e.isMsix) =
            .dma (s.rBase r + ((d + 1) % (2 * n) % n) * 16) (wordsLe [w32 (s.begun dt).hmSec, w32 ((s.begun dt).hmNs % 1000000000), w32 q,
              w32 ((1 - (d + 1) % (2 * n) / n % 2) * 2 ^ 31 + 1 * 2 ^ 22 + 3 * 2 ^ 18 + r)]) ::
            .dma (s.rBase r + (d % n) * 16) (wordsLe [w32 ((s.begun dt).headSojourn q), w32 (s.qLen q), w32 (s.qCnt q),
              w32 ((1 - d / n % 2) * 2 ^ 31 + 3 * 2 ^ 18 + r)]) :: s.out.filter (fun e => !e.isMsix) ∧
          (s.begun dt).frame t { parts := [.pl, .out], rings := [r] }) ∧
        (s.pciRuns = false ∨ s.rOn r = false ∨ s.rKind r ≠ kindSample ∨ s.rFree r < 2 → t.fld Fld.PL_INT_STATUS_SAMPLE_DROP = 1 ∧
          t.ctr 0x2720000 = (s.ctr 0x2720000 + 1) % 2 ^ 64 ∧
          (s.begun dt).frame t { parts := [.pl], regs := (· = Reg.PL_INT_STATUS), ctrs := (· = 0x2720000) })))

/-! ### Commits, the register bus and the journal (chapters 11 and 14) -/

/-- R413: A write whose enabled bytes hold an RWS field of a unit sets the bit of the unit's group, the last word of a gate's base time included; one
whose bytes hold none sets no bit and writes nothing. A commit, written or of a timed slot, clears the bits of its groups. CM_REVERT gives every
shadow word of its groups the value of its active copy (of a PT_MODE that waits, the committed one), clears their bits and changes no active copy;
nothing but the journal follows. A slot that is due commits first. -/
def Obligations.PendingGroups : Prop :=
  (∀ (s : State) (dt a be u : Nat) (ini : Initiator) (v : BitVec 64), a < 0x4000000 → a % 4 = 0 → s.aonUp = true →
    (∀ w, s.reaches ini a w = true) → unitOf a = some u → fieldMask (fieldsAt a) (fun t => decide (t = .rws)) ≠ 0 → s.absent a = false →
    (regAt a).isSome = true → isCmdReg a = false → s.multiOf a = none → be < 16 → be ≠ 0 → (ini = .pcie ∨ be = 15) →
    ∃ t, exec (.registerWrite dt ini (a / 8 * 8) (if a % 8 = 0 then be else be * 16) v) s = .next t ∧ t.act = s.act ∧
      (dropBits (beMask be) (hiddenMask a) &&& fieldMask (fieldsAt a) (fun t => decide (t = .rws)) ≠ 0 →
        bitOf (t.fld Fld.CM_PENDING_GROUPS) (s.unitGroup u) = true) ∧
      (dropBits (beMask be) (hiddenMask a) &&& fieldMask (fieldsAt a) (fun t => decide (t = .rws)) = 0 →
        t.reg Reg.CM_PENDING = s.reg Reg.CM_PENDING ∧ t.reg a = s.reg a)) ∧
  (∀ (s : State) (dt q : Nat) (ini : Initiator) (w : Word), q < 144 → s.aonUp = true → s.portAbsent q = false →
    (∀ v, s.reaches ini (Reg.HM_GATE_BASE2 q) v = true) →
    ∃ t, exec (.multiwordWrite dt ini (Reg.HM_GATE_BASE2 q) w) s = .next t ∧ bitOf (t.fld Fld.CM_PENDING_GROUPS) (s.unitGroup 18) = true ∧ t.act = s.act) ∧
  (∀ (s : State) (dt g : Nat) (ini : Initiator) (mask : Word), s.mainUp = true → s.reaches ini Reg.CM_COMMIT 0 = true → g < 32 → bitOf mask.toNat g = true →
    ∃ t, exec (.commit dt ini mask) s = .next t ∧ bitOf (t.fld Fld.CM_PENDING_GROUPS) g = false) ∧
  (∀ (s : State) (dt g n : Nat), s.mainUp = true → g < 32 → n ∈ (s.begun dt).slotsDue → bitOf (s.slotMask n) g = true →
    ∃ t, exec (.tcommitFired dt) s = .next t ∧ bitOf (t.fld Fld.CM_PENDING_GROUPS) g = false) ∧
  (∀ (s : State) (dt n : Nat) (ini : Initiator) (mask : Word), s.mainUp = true → s.reaches ini Reg.CM_REVERT 0 = true → mask ≠ 0 → n ∈ (s.begun dt).slotsDue →
    ∃ t, exec (.revert dt ini mask) s = .next t ∧
      (∀ a u, unitOf a = some u → 12 ≤ u → u < 19 → u ≠ 17 → bitOf mask.toNat (s.unitGroup u) = true → bitOf (s.slotMask n) (s.unitGroup u) = true →
        t.actReg a = s.reg a ∧ t.reg a = s.reg a)) ∧
  (∀ (s : State) (dt : Nat) (ini : Initiator) (mask : Word), s.mainUp = true → s.reaches ini Reg.CM_REVERT 0 = true → mask ≠ 0 → (s.begun dt).slotsDue = [] →
    ∃ t, exec (.revert dt ini mask) s = .next t ∧
      (∀ a u, unitOf a = some u → u < 19 → bitOf mask.toNat (s.unitGroup u) = true → t.reg a = s.committed a) ∧
      (∀ a, (∀ p, (s.port p).modeDue = none) → s.committed a = s.actReg a) ∧
      (∀ g, g < 32 → bitOf (t.fld Fld.CM_PENDING_GROUPS) g = (bitOf (s.fld Fld.CM_PENDING_GROUPS) g && !(bitOf mask.toNat g))) ∧ t.act = s.act ∧
      ((s.begun dt).i2cDone ini Reg.CM_REVERT).frame t { parts := [.jn],
                                                         regs := fun a => a = Reg.CM_PENDING ∨ a = Reg.CM_INT_STATUS ∨ ∃ u, unitOf a = some u ∧ bitOf mask.toNat (s.unitGroup u) = true })

/-- R31, R33, R272, R412, R415, R416, R322, R323, R324: A commit gives every word of units 12 to 16 and of the gates, in a group of its mask, the value of
its shadow as the active one, changes no shadow there, and counts. With no timed slot due, words of units whose group is not in the mask keep their
active value. A mask of 0 changes nothing. A changed PT_MODE waits while its port transmits; else it takes effect: the mode of a supported
combination, or DISABLED with MODE_ERR, and the link is down. Planish's words but the parents become active; a group moves to a port only where none
of its dwellings is busy, a dwelling to another port only where it is not, and a refused move keeps the old parent and raises MOVE_REFUSED. ARM of a
slot whose TIME lies ahead arms it; with TIME passed it is armed to fire late where LATE_FIRE is 1, else it ends MISSED with its event. CANCEL disarms
an armed slot that is not due. Every slot whose TIME the counter has reached fires: ARM clears, RESULT is FIRED, and its groups commit. An armed slot
is not armed again, LATE_FIRE included (the model's choice, log 30). -/
def Obligations.CommitsAndSlots : Prop :=
  (∀ (s : State) (dt : Nat) (ini : Initiator) (mask : Word), s.mainUp = true → s.reaches ini Reg.CM_COMMIT 0 = true → mask ≠ 0 →
    ∃ t, exec (.commit dt ini mask) s = .next t ∧
      (∀ a u, unitOf a = some u → 12 ≤ u → u < 19 → u ≠ 17 → bitOf mask.toNat (s.unitGroup u) = true → t.actReg a = s.reg a ∧ t.reg a = s.reg a) ∧
      ((s.begun dt).slotsDue = [] → ∀ a u, unitOf a = some u → u < 19 → bitOf mask.toNat (s.unitGroup u) = false → t.actReg a = s.actReg a) ∧
      t.ctr 0x2760008 = (s.ctr 0x2760008 + 1) % 2 ^ 64 ∧ (∀ u, u < 19 → t.unitGroup u = s.unitGroup u)) ∧
  (∀ (s : State) (dt p u n : Nat) (ini : Initiator) (mask : Word), s.mainUp = true → s.reaches ini Reg.CM_COMMIT 0 = true → (s.begun dt).slotsDue = [] →
    u < 12 → p ∈ portsOfGroup u → s.portAbsent p = false → bitOf mask.toNat (s.unitGroup u) = true →
    (∀ v, v < 19 → v ≠ u → bitOf mask.toNat (s.unitGroup v) = false) → (∀ q, q ≠ p → s.reg (Reg.PT_MODE q) = s.actReg (Reg.PT_MODE q)) →
    s.reg (Reg.PT_MODE p) ≠ s.actReg (Reg.PT_MODE p) → n = (s.reg (Reg.PT_MODE p)).toNat →
    ∃ t, exec (.commit dt ini mask) s = .next t ∧ t.reg (Reg.PT_MODE p) = s.reg (Reg.PT_MODE p) ∧
      (s.txRunning p = true → t.actReg (Reg.PT_MODE p) = s.actReg (Reg.PT_MODE p) ∧ (t.port p).modeDue = some (s.reg (Reg.PT_MODE p)) ∧
        t.fld (Fld.PT_STATUS_ACTIVE_MODE p) = s.fld (Fld.PT_STATUS_ACTIVE_MODE p) ∧ t.fld (Fld.PT_STATUS_LINK p) = s.fld (Fld.PT_STATUS_LINK p)) ∧
      (s.txRunning p = false → t.actReg (Reg.PT_MODE p) = s.reg (Reg.PT_MODE p) ∧ (t.port p).modeDue = none ∧ t.fld (Fld.PT_STATUS_LINK p) = 0 ∧
        (n % 16 = 0 → t.fld (Fld.PT_STATUS_ACTIVE_MODE p) = 0 ∧ t.fld (Fld.PT_STATUS_MODE_ERR p) = 0) ∧
        (n % 16 ≠ 0 → modeOk p (n % 16) (bitsOf n 4 2) (bitOf n 6) = true ∧ modeLanes (n % 16) ≤ s.portLanes p →
          t.fld (Fld.PT_STATUS_ACTIVE_MODE p) = n % 16 ∧ t.fld (Fld.PT_STATUS_MODE_ERR p) = 0) ∧
        (n % 16 ≠ 0 → ¬ (modeOk p (n % 16) (bitsOf n 4 2) (bitOf n 6) = true ∧ modeLanes (n % 16) ≤ s.portLanes p) →
          t.fld (Fld.PT_STATUS_ACTIVE_MODE p) = 0 ∧ t.fld (Fld.PT_STATUS_MODE_ERR p) = 1 ∧ t.fld (Fld.PT_INT_STATUS_MODE_ERR p) = 1))) ∧
  (∀ (s : State) (dt : Nat) (ini : Initiator) (mask : Word), s.mainUp = true → s.reaches ini Reg.CM_COMMIT 0 = true → (s.begun dt).slotsDue = [] →
    bitOf mask.toNat (s.unitGroup 17) = true → (∀ v, v < 19 → v ≠ 17 → bitOf mask.toNat (s.unitGroup v) = false) →
    ∃ t, exec (.commit dt ini mask) s = .next t ∧
      (∀ a, plRws a = true → (∀ g, g < 1024 → a ≠ Reg.PL_L1_PARENT g) → (∀ d, d < 16384 → a ≠ Reg.PL_L2_PARENT d) → t.actReg a = s.reg a) ∧
      (∀ g, g < 1024 →
        (s.fld (Fld.PL_L1_PARENT_PORT g) = s.portOfGroup g ∨ (∀ d, d ∈ (s.begun dt).busyDwellings → s.groupOfDw d ≠ g) →
          t.actReg (Reg.PL_L1_PARENT g) = s.reg (Reg.PL_L1_PARENT g)) ∧
        (s.fld (Fld.PL_L1_PARENT_PORT g) ≠ s.portOfGroup g → ∀ d, d ∈ (s.begun dt).busyDwellings → s.groupOfDw d = g →
          t.actReg (Reg.PL_L1_PARENT g) = s.actReg (Reg.PL_L1_PARENT g) ∧ t.fld Fld.PL_INT_STATUS_MOVE_REFUSED = 1)) ∧
      (∀ d, d < 16384 →
        (s.fld (Fld.PL_L2_PARENT_GROUP d) = s.groupOfDw d ∨ s.portOfGroup (s.groupOfDw d) = t.portOfGroup (s.fld (Fld.PL_L2_PARENT_GROUP d)) ∨
            (s.begun dt).busyDwellings.contains d = false → t.actReg (Reg.PL_L2_PARENT d) = s.reg (Reg.PL_L2_PARENT d)) ∧
        (s.fld (Fld.PL_L2_PARENT_GROUP d) ≠ s.groupOfDw d → s.portOfGroup (s.groupOfDw d) ≠ t.portOfGroup (s.fld (Fld.PL_L2_PARENT_GROUP d)) →
          (s.begun dt).busyDwellings.contains d = true → t.groupOfDw d = s.groupOfDw d ∧ t.fld Fld.PL_INT_STATUS_MOVE_REFUSED = 1))) ∧
  (∀ (s : State) (dt : Nat) (ini : Initiator), s.mainUp = true → ∃ t, exec (.commit dt ini 0) s = .next t ∧ ((s.begun dt).i2cDone ini Reg.CM_COMMIT).frame t {}) ∧
  (∀ (s : State) (dt : Nat) (ini : Initiator), s.mainUp = true → ∃ t, exec (.revert dt ini 0) s = .next t ∧ ((s.begun dt).i2cDone ini Reg.CM_REVERT).frame t {}) ∧
  (∀ (s : State) (dt n : Nat) (ini : Initiator) (late : Bool), n < 4 → s.mainUp = true → s.reaches ini (Reg.CM_TIMED_CTRL n) 0 = true →
    s.slotArmed n = false →
    (((s.begun dt).hm16 < s.slotTime n ∨ late = true) → ∃ t, exec (.timedArm dt ini n late) s = .next t ∧ t.slotArmed n = true ∧
      t.fld (Fld.CM_TIMED_CTRL_LATE_FIRE n) = b2n late ∧ t.slotLate n = decide (s.slotTime n ≤ (s.begun dt).hm16) ∧
      ((s.begun dt).i2cDone ini (Reg.CM_TIMED_CTRL n)).frame t { parts := [.hm, .jn], regs := (· ∈ [Reg.CM_TIMED_CTRL n, Reg.CM_INT_STATUS]) }) ∧
    (s.slotTime n ≤ (s.begun dt).hm16 → late = false → ∃ t, exec (.timedArm dt ini n late) s = .next t ∧ t.slotArmed n = false ∧
      t.fld (Fld.CM_TIMED_CTRL_RESULT n) = resMissed ∧ t.fld Fld.HM_INT_STATUS_TCOMMIT_MISSED = 1 ∧
      ((s.begun dt).i2cDone ini (Reg.CM_TIMED_CTRL n)).frame t { parts := [.jn], regs := (· ∈ [Reg.CM_TIMED_CTRL n, Reg.CM_INT_STATUS, Reg.HM_INT_STATUS]) })) ∧
  (∀ (s : State) (dt n : Nat) (ini : Initiator) (late : Bool), n < 4 → s.mainUp = true → s.slotArmed n = true →
    ∃ t, exec (.timedArm dt ini n late) s = .next t ∧ ((s.begun dt).i2cDone ini (Reg.CM_TIMED_CTRL n)).frame t {}) ∧
  (∀ (s : State) (dt n : Nat) (ini : Initiator), n < 4 → s.mainUp = true → s.reaches ini (Reg.CM_TIMED_CTRL n) 0 = true → s.slotArmed n = true →
    ((s.begun dt).hm16 < s.slotTime n → ∃ t, exec (.timedCancel dt ini n) s = .next t ∧ t.slotArmed n = false ∧
      t.fld (Fld.CM_TIMED_CTRL_RESULT n) = resCancelled ∧
      ((s.begun dt).i2cDone ini (Reg.CM_TIMED_CTRL n)).frame t { parts := [.jn], regs := (· ∈ [Reg.CM_TIMED_CTRL n, Reg.CM_INT_STATUS]) }) ∧
    (s.slotTime n ≤ (s.begun dt).hm16 → ∃ t, exec (.timedCancel dt ini n) s = .next t ∧
      ((s.begun dt).i2cDone ini (Reg.CM_TIMED_CTRL n)).frame t {})) ∧
  (∀ (s : State) (dt : Nat), s.mainUp = true →
    ((s.begun dt).slotsDue = [] → ∃ t, exec (.tcommitFired dt) s = .next t ∧ (s.begun dt).frame t {}) ∧
    (∀ n, n < 4 → s.slotArmed n = true → s.slotTime n ≤ (s.begun dt).hm16 → ∃ t, exec (.tcommitFired dt) s = .next t ∧ t.slotArmed n = false ∧
      t.fld (Fld.CM_TIMED_CTRL_RESULT n) = resFired ∧ t.fld (Fld.CM_TIMED_CTRL_LATE n) = b2n (s.slotLate n) ∧ t.fld Fld.HM_INT_STATUS_TCOMMIT_FIRED = 1 ∧
      (∀ a u, unitOf a = some u → 12 ≤ u → u < 19 → u ≠ 17 → bitOf (s.slotMask n) (s.unitGroup u) = true → t.actReg a = s.reg a)))

/-- R9, R399, R400, R401, R402, R403, R406, R410, R412, R520: RW bits take the written value, W1C bits written 1 clear, the others stay. A write to a
register of RO and RC fields changes nothing; RWS fields take it in the shadow alone; a write to a command register with GO and every other SC bit at
0 starts nothing, and one of zeros to a WO mask does nothing. A write that does not reach the bus, or names no register, changes nothing. A narrow
write to a command register or to a counter, and over PCIe an access that crosses a span, which no other is, are ignored, counted once for each
access, and raise ACCESS_ERR, and the first is captured; a crossing access is also an Unsupported Request for AER. A write of a counter replaces its
count. All this outside Doze, as far as port registers go; in Doze a write of a gated group's register wakes the group (what lies in its domain is log
29). That UNALIGNED does nothing on an aligned access, and the AER bit, are log 37. An I²C access leaves its STATUS. -/
def Obligations.RegisterWrites : Prop :=
  (∀ (s : State) (dt addr be : Nat) (ini : Initiator) (v : BitVec 64), addr < 0x4000000 → be < 256 → s.aonUp = true → (ini = .pcie ∨ be = 0x0F ∨ be = 0xF0) →
    (∀ w, (s.begun dt).reaches ini (addr / 8 * 8) w = false ∧ (s.begun dt).reaches ini (addr / 8 * 8 + 4) w = false) →
    ∃ t, exec (.registerWrite dt ini addr be v) s = .next t ∧
      ((s.begun dt).i2cDone ini (addr / 8 * 8 + (if be % 16 = 0 then 4 else 0))).frame t { parts := [.bus, .free] }) ∧
  (∀ (s : State) (dt a : Nat) (ini : Initiator) (v : BitVec 64), a < 0x4000000 → a % 4 = 0 → s.aonUp = true → s.doze = false → s.absent a = false →
    (regAt a).isSome = true → s.multiOf a = none → (fieldsAt a).all (fun f => decide (f.ty = .ro ∨ f.ty = .rc)) = true → (∀ w, s.reaches ini a w = true) →
    ∃ t, exec (.registerWrite dt ini (a / 8 * 8) (if a % 8 = 0 then 0x0F else 0xF0) v) s = .next t ∧
      ((s.begun dt).i2cDone ini a).frame t { parts := [.bus, .free] }) ∧
  (∀ (s : State) (dt a u : Nat) (ini : Initiator) (v : BitVec 64), a < 0x4000000 → a % 4 = 0 → s.aonUp = true → s.doze = false → s.absent a = false →
    (regAt a).isSome = true → s.multiOf a = none → isCmdReg a = false → unitOf a = some u →
    fieldMask (fieldsAt a) (fun t => decide (t = .rws)) ≠ 0 → (∀ w, s.reaches ini a w = true) →
    ∃ t, exec (.registerWrite dt ini (a / 8 * 8) (if a % 8 = 0 then 0x0F else 0xF0) v) s = .next t ∧
      (∀ i, i < 32 → bitOf (fieldMask (fieldsAt a) (fun t => decide (t = .rws))) i = true →
        bitOf (t.reg a).toNat i = if bitOf (hiddenMask a) i then bitOf (s.reg a).toNat i else bitOf v.toNat (i + 32 * (a % 8 / 4))) ∧
      ((s.begun dt).i2cDone ini a).frame t { parts := [.bus, .free, .tw], regs := (· ∈ [a, Reg.CM_PENDING]) }) ∧
  (∀ (s : State) (dt a : Nat) (ini : Initiator) (v : BitVec 64), a < 0x4000000 → a % 4 = 0 → s.aonUp = true → s.doze = false → s.absent a = false →
    (regAt a).isSome = true → s.multiOf a = none → (fieldsAt a).any (fun f => decide (f.ty = .sc) && decide (f.lo = 31)) = true →
    (∀ i, i < 32 → bitOf (fieldMask (fieldsAt a) (fun t => decide (t = .sc))) i = true → bitOf v.toNat (i + 32 * (a % 8 / 4)) = false) →
    (∀ w, s.reaches ini a w = true) →
    ∃ t, exec (.registerWrite dt ini (a / 8 * 8) (if a % 8 = 0 then 0x0F else 0xF0) v) s = .next t ∧
      (∀ i, i < 32 → bitOf (t.reg a).toNat i =
        if bitOf (fieldMask (fieldsAt a) (fun t => decide (t = .rw))) i then bitOf v.toNat (i + 32 * (a % 8 / 4))
        else if bitOf (fieldMask (fieldsAt a) (fun t => decide (t = .w1c))) i then bitOf (s.reg a).toNat i && !bitOf v.toNat (i + 32 * (a % 8 / 4))
        else bitOf (s.reg a).toNat i) ∧
      ((s.begun dt).i2cDone ini a).frame t { parts := [.bus, .free], regs := (· = a) }) ∧
  (∀ (s : State) (dt a : Nat) (ini : Initiator), a = Reg.CM_COMMIT ∨ a = Reg.CM_REVERT → s.aonUp = true →
    ∃ t, exec (.registerWrite dt ini (a / 8 * 8) (if a % 8 = 0 then 0x0F else 0xF0) 0) s = .next t ∧
      ((s.begun dt).i2cDone ini a).frame t { parts := [.bus, .free] }) ∧
  (∀ (s : State) (dt a : Nat) (ini : Initiator) (v : BitVec 64), 0x400000 ≤ a → a < 0x600000 → a % 8 = 0 → s.aonUp = true → s.absent a = false →
    (regAt a).isSome = true → (fieldsAt a).all (fun f => decide (f.ty = .rw)) = true → (∀ w, s.reaches ini a w = true) →
    ∃ t, exec (.registerWrite dt ini a 0x0F v) s = .next t ∧
      (∀ i, i < 32 → bitOf (t.reg a).toNat i = if bitOf (fieldMask (fieldsAt a) (fun t => decide (t = .rw))) i then bitOf v.toNat i else bitOf (s.reg a).toNat i) ∧
      ((s.begun dt).i2cDone ini a).frame t { parts := [.bus, .free], regs := (· = a) }) ∧
  (∀ (s : State) (dt p : Nat) (ini : Initiator) (v : BitVec 64), p < 144 → s.aonUp = true → s.portAbsent p = false → s.doze = false →
    (∀ w, s.reaches ini (Reg.PT_INT_STATUS p) w = true) →
    ∃ t, exec (.registerWrite dt ini (Reg.PT_INT_STATUS p - 4) 0xF0 v) s = .next t ∧
      (∀ i, i < 32 → bitOf (t.reg (Reg.PT_INT_STATUS p)).toNat i = (bitOf (s.reg (Reg.PT_INT_STATUS p)).toNat i &&
        !(bitOf (fieldMask (fieldsAt (Reg.PT_INT_STATUS p)) (fun t => decide (t = .w1c))) i && bitOf v.toNat (32 + i)))) ∧
      ((s.begun dt).i2cDone ini (Reg.PT_INT_STATUS p)).frame t { parts := [.bus, .free], regs := (· = Reg.PT_INT_STATUS p) }) ∧
  (∀ (s : State) (dt a : Nat) (ini : Initiator) (v : BitVec 64), a < 0x4000000 → a % 8 = 0 → s.aonUp = true → s.doze = false →
    s.multiOf a = none → (s.absent a = true ∨ regAt a = none) →
    ∃ t, exec (.registerWrite dt ini a 0x0F v) s = .next t ∧ ((s.begun dt).i2cDone ini a).frame t { parts := [.bus, .free] }) ∧
  (∀ (s : State) (dt a : Nat) (v : BitVec 64), a < 0x4000000 → a % 8 = 0 → s.aonUp = true → s.doze = false → (∀ w, s.reaches .pcie a w = true) →
    s.multiOf a = none → s.absent a = false → isCmdReg a = true → (regAt a).isSome = true →
    ∃ t, exec (.registerWrite dt .pcie a 0x02 v) s = .next t ∧ t.ctr 0x2760000 = (s.ctr 0x2760000 + 1) % 2 ^ 64 ∧
      t.fld Fld.CM_INT_STATUS_ACCESS_ERR = 1 ∧
      (s.fld Fld.CM_ACC_ERR_INFO_VALID = 0 → t.reg Reg.CM_ACC_ERR_ADDR = w32 (a + 1) ∧
        t.reg Reg.CM_ACC_ERR_INFO = w32 (2 ^ 31 + ekNarrowCmd * 2 ^ 28 + 2 ^ 25 + 2)) ∧
      (s.fld Fld.CM_ACC_ERR_INFO_VALID = 1 → t.reg Reg.CM_ACC_ERR_ADDR = s.reg Reg.CM_ACC_ERR_ADDR ∧ t.reg Reg.CM_ACC_ERR_INFO = s.reg Reg.CM_ACC_ERR_INFO) ∧
      (s.begun dt).frame t { parts := [.bus, .free], regs := (· ∈ [Reg.CM_INT_STATUS, Reg.CM_ACC_ERR_ADDR, Reg.CM_ACC_ERR_INFO]),
                             ctrs := (· = 0x2760000) }) ∧
  (∀ (s : State) (dt addr n : Nat) (wr : Bool), addr < 0x4000000 → addr % 8 + n ≤ 8 → s.aonUp = true →
    ∃ t, exec (.unaligned dt .pcie addr n wr) s = .next t ∧ (s.begun dt).frame t {}) ∧
  (∀ (s : State) (dt addr n : Nat) (wr : Bool), addr < 0x4000000 → 8 < addr % 8 + n → s.aonUp = true → s.reaches .pcie addr 0 = true →
    ∃ t, exec (.unaligned dt .pcie addr n wr) s = .next t ∧ (t.ini 0).ur = true ∧ (t.ini 0).rdata = 0 ∧
      t.ctr 0x2760000 = (s.ctr 0x2760000 + 1) % 2 ^ 64 ∧ t.fld Fld.CM_INT_STATUS_ACCESS_ERR = 1 ∧
      (s.fld Fld.CM_ACC_ERR_INFO_VALID = 0 → t.reg Reg.CM_ACC_ERR_ADDR = w32 addr ∧ t.fld Fld.CM_ACC_ERR_INFO_VALID = 1 ∧
        t.fld Fld.CM_ACC_ERR_INFO_KIND = ekUnaligned) ∧
      t.hi.pci = { s.hi.pci with aer := s.hi.pci.aer ||| 2 ^ 20 } ∧
      (s.begun dt).frame t { parts := [.bus, .out, .hi], regs := (· ∈ [Reg.CM_INT_STATUS, Reg.CM_ACC_ERR_ADDR, Reg.CM_ACC_ERR_INFO]), ctrs := (· = 0x2760000) }) ∧
  (∀ (s : State) (dt a be : Nat) (v : BitVec 64), a < 0x4000000 → a % 8 = 0 → be < 256 → be % 16 ≠ 0 → be % 16 ≠ 15 → be / 16 ≠ 15 → s.aonUp = true →
    s.doze = false → s.ctrAt a = true → (∀ w, s.reaches .pcie a w = true ∧ s.reaches .pcie (a + 4) w = true) →
    ∃ t, exec (.registerWrite dt .pcie a be v) s = .next t ∧ t.ctr 0x2760000 = (s.ctr 0x2760000 + 1) % 2 ^ 64 ∧ t.fld Fld.CM_INT_STATUS_ACCESS_ERR = 1 ∧
      (s.fld Fld.CM_ACC_ERR_INFO_VALID = 0 → t.fld Fld.CM_ACC_ERR_INFO_KIND = ekNarrowCtr) ∧
      (s.begun dt).frame t { parts := [.bus, .free], regs := (· ∈ [Reg.CM_INT_STATUS, Reg.CM_ACC_ERR_ADDR, Reg.CM_ACC_ERR_INFO]),
                             ctrs := (· = 0x2760000) }) ∧
  (∀ (s : State) (dt a : Nat) (ini : Initiator) (v : BitVec 64), a < 0x4000000 → a % 8 = 0 → s.aonUp = true → s.doze = false → s.ctrAt a = true →
    (∀ w, s.reaches ini a w = true ∧ s.reaches ini (a + 4) w = true) →
    ∃ t, exec (.counterWrite dt ini a v) s = .next t ∧ t.ctr a = v.toNat ∧
      ((s.begun dt).i2cDone ini (a + 4)).frame t { parts := [.bus, .free], ctrs := (· = a),
                                                   ports := if a < 0x2024000 ∧ a % 0x400 = 0x238 then [(a - 0x2000000) / 0x400] else [] }) ∧
  (∀ (s : State) (dt p : Nat) (ini : Initiator) (v : BitVec 64), p < 128 → s.aonUp = true → s.portAbsent p = false → s.doze = true →
    bitOf (s.fld Fld.PW_STATUS_PG_GATED) (groupOf p) = true → (∀ w, s.reaches ini (Reg.PT_INT_STATUS p - 4) w = true) →
    ∃ t, exec (.registerWrite dt ini (Reg.PT_INT_STATUS p - 4) 0xF0 v) s = .next t ∧
      bitOf (t.fld Fld.PW_STATUS_PG_GATED) (groupOf p) = false ∧ SMap.look t.pw.wakeAt (groupOf p) = some (s.now + dt) ∧
      t.ctr 0x2770000 = (s.ctr 0x2770000 + 1) % 2 ^ 64)

/-- R398, R400, R407, R408: A read of word 0 returns it and fills the initiator's read shadow with every word; a read of another word returns the shadow's
word while the shadow is of that value. A read that leaves out byte 0 of each word it touches has no side effect, and one without any byte enabled
answers 0. A read of a whole word of another register answers it and clears its RC fields, and changes no other field. A write of a word that is not
the last is held and changes no register; a write of the last word of JN_MARK, or of a counter, applies it with the held first word. (Outside Doze, in
which a read of a port's register may also wake its group.) -/
def Obligations.MultiwordValues : Prop :=
  (∀ (s : State) (dt b n : Nat) (ini : Initiator), b < 0x4000000 → b % 4 = 0 → s.aonUp = true → s.doze = false → s.reaches ini b 0 = true → s.multiOf b = some (b, n) →
    ∃ t, exec (.multiwordRead dt ini b (if b % 8 = 4 then 0xF0 else 0x0F)) s = .next t ∧ (t.ini (Initiator.num ini)).rdata = ((s.begun dt).view (Initiator.num ini) b).toNat ∧
      (t.ini (Initiator.num ini)).shTag = some b ∧
      (t.ini (Initiator.num ini)).shWords = (List.range n).map (fun k => (s.begun dt).view (Initiator.num ini) (b + 4 * k)) ∧
      (∀ j, j ≠ Initiator.num ini → t.ini j = s.ini j) ∧ ((s.begun dt).i2cDone ini b).frame t { parts := [.bus] }) ∧
  (∀ (s : State) (dt a : Nat) (ini : Initiator), a < 0x4000000 → a % 4 = 0 → s.aonUp = true → s.doze = false → s.reaches ini a 0 = true →
    s.multiOf a = none → s.absent a = false → (regAt a).isSome = true →
    ∃ t, exec (.multiwordRead dt ini a (if a % 8 = 4 then 0xF0 else 0x0F)) s = .next t ∧
      (t.ini (Initiator.num ini)).rdata = ((s.begun dt).view (Initiator.num ini) a).toNat ∧
      (∀ i, i < 32 → bitOf (t.reg a).toNat i = (bitOf (s.reg a).toNat i && !(bitOf (fieldMask (fieldsAt a) (fun t => decide (t = .rc))) i))) ∧
      (t.ini (Initiator.num ini)).shTag = (s.ini (Initiator.num ini)).shTag ∧ (∀ j, j ≠ Initiator.num ini → t.ini j = s.ini j) ∧
      ((s.begun dt).i2cDone ini a).frame t { parts := [.bus], regs := (· = a) }) ∧
  (∀ (s : State) (dt a b n : Nat) (ini : Initiator), a < 0x4000000 → a % 4 = 0 → a ≠ b → s.aonUp = true → s.doze = false → s.reaches ini a 0 = true → s.multiOf a = some (b, n) →
    (s.ini (Initiator.num ini)).shTag = some b →
    ∃ t, exec (.multiwordRead dt ini a (if a % 8 = 4 then 0xF0 else 0x0F)) s = .next t ∧
      (t.ini (Initiator.num ini)).rdata = ((s.ini (Initiator.num ini)).shWords.getD ((a - b) / 4) 0).toNat ∧
      (t.ini (Initiator.num ini)).shTag = some b ∧ ((s.begun dt).i2cDone ini a).frame t { parts := [.bus] }) ∧
  (∀ (s : State) (dt a be : Nat), a < 0x4000000 → be < 256 → be % 2 = 0 → be / 16 % 2 = 0 → s.aonUp = true → s.doze = false →
    ∃ t, exec (.multiwordRead dt .pcie a be) s = .next t ∧ (t.ini 0).shTag = (s.ini 0).shTag ∧ (t.ini 0).shWords = (s.ini 0).shWords ∧
      (be = 0 → (t.ini 0).rdata = 0) ∧ (∀ j, j ≠ 0 → t.ini j = s.ini j) ∧ (s.begun dt).frame t { parts := [.bus] }) ∧
  (∀ (s : State) (dt a b n : Nat) (ini : Initiator) (w : Word), a < 0x4000000 → a % 4 = 0 → s.aonUp = true → (∀ v, s.reaches ini a v = true) →
    s.doze = false → s.multiOf a = some (b, n) → s.multiRw b = true → b ≤ a → (a - b) / 4 + 1 < n →
    ∃ t, exec (.multiwordWrite dt ini a w) s = .next t ∧ (t.ini (Initiator.num ini)).wrTag = some b ∧
      SMap.look (t.ini (Initiator.num ini)).wrHeld ((a - b) / 4) = some w ∧ ((s.begun dt).i2cDone ini a).frame t { parts := [.bus] }) ∧
  (∀ (s : State) (dt : Nat) (ini : Initiator) (w w0 : Word), s.aonUp = true → (∀ v, s.reaches ini Reg.JN_MARK1 v = true) →
    (s.ini (Initiator.num ini)).wrTag = some Reg.JN_MARK0 → SMap.look (s.ini (Initiator.num ini)).wrHeld 0 = some w0 →
    ∃ t, exec (.multiwordWrite dt ini Reg.JN_MARK1 w) s = .next t ∧ t.reg Reg.JN_MARK0 = w0 ∧ t.fld Fld.JN_MARK1_MARK = w.toNat % 2 ^ 16 ∧
      (t.ini (Initiator.num ini)).wrTag = none ∧ ((s.begun dt).i2cDone ini Reg.JN_MARK1).frame t { parts := [.bus], regs := (· ∈ [Reg.JN_MARK0, Reg.JN_MARK1]) }) ∧
  (∀ (s : State) (dt a : Nat) (ini : Initiator) (w w0 : Word), a < 0x4000000 → a % 8 = 0 → s.aonUp = true → s.doze = false → s.ctrAt a = true →
    (∀ v, s.reaches ini (a + 4) v = true) → (s.ini (Initiator.num ini)).wrTag = some a → SMap.look (s.ini (Initiator.num ini)).wrHeld 0 = some w0 →
    ∃ t, exec (.multiwordWrite dt ini (a + 4) w) s = .next t ∧ t.ctr a = w0.toNat + w.toNat * 2 ^ 32 ∧
      ((s.begun dt).i2cDone ini (a + 4)).frame t { parts := [.bus], ctrs := (· = a),
                                                   ports := if a < 0x2024000 ∧ a % 0x400 = 0x238 then [(a - 0x2000000) / 0x400] else [] })

/-- R417, R419, R422, R423: While no record of a command that has completed is still to enter the queue: with a record that waits and 160 ns past since
the last, the record enters slot (SEQ - 1) mod 2,048 and JN_HEAD is its number; the other slots stay. JN_SEL makes the initiator's selection BUSY. The
copy then gives the record with status 0, or zeros with status 1 where it is overwritten or 0, and 2 where it lies beyond JN_HEAD. -/
def Obligations.JournalRecords : Prop :=
  (∀ (s : State) (dt : Nat) (r : List Word) (w : List (List Word)), s.aonUp = true → s.jn.queue = r :: w → s.jn.nextAt ≤ s.now + dt →
    (∀ e, e ∈ s.jn.soon → s.now + dt < e.at_) →
    ∃ t, exec (.journalWrite dt) s = .next t ∧ t.jn.head = seqOf r ∧ t.jn.queue = w ∧ SMap.look t.jn.slots ((seqOf r - 1) % 2048) = some r ∧
      (∀ k, k ≠ (seqOf r - 1) % 2048 → SMap.look t.jn.slots k = SMap.look s.jn.slots k) ∧ t.jn.nextAt = s.now + dt + 160 * tNs ∧
      (2048 < seqOf r → s.jnMark < seqOf r - 2048 → s.mainUp = true → t.fld Fld.CM_INT_STATUS_JN_UNREAD_LOST = 1) ∧
      (s.begun dt).frame t { parts := [.jn], regs := (· = Reg.CM_INT_STATUS) }) ∧
  (∀ (s : State) (dt : Nat), s.aonUp = true → (∀ e, e ∈ s.jn.soon → s.now + dt < e.at_) → s.jn.queue = [] ∨ s.now + dt < s.jn.nextAt →
    ∃ t, exec (.journalWrite dt) s = .next t ∧ (s.begun dt).frame t {}) ∧
  (∀ (s : State) (dt seq : Nat) (ini : Initiator), s.aonUp = true → (∀ w, s.reaches ini Reg.JN_SEL0 w = true ∧ s.reaches ini Reg.JN_SEL1 w = true) →
    ∃ t, exec (.jnSel dt ini seq) s = .next t ∧ (t.ini (Initiator.num ini)).jnSel = seq % 2 ^ 48 ∧ (t.ini (Initiator.num ini)).jnStat = 3 ∧
      (t.ini (Initiator.num ini)).jnBusy = true ∧ ((s.begun dt).i2cDone ini Reg.JN_SEL1).frame t { parts := [.bus] }) ∧
  (∀ (s : State) (dt : Nat) (ini : Initiator), s.aonUp = true → (s.ini (Initiator.num ini)).jnBusy = true →
    ∃ t, exec (.journalCopy dt ini) s = .next t ∧ (t.ini (Initiator.num ini)).jnBusy = false ∧
      (((s.ini (Initiator.num ini)).jnSel = 0 ∨ (s.ini (Initiator.num ini)).jnSel + 2048 ≤ s.jn.head) →
        (t.ini (Initiator.num ini)).jnStat = 1 ∧ (t.ini (Initiator.num ini)).jnRec = List.replicate 8 0) ∧
      (s.jn.head < (s.ini (Initiator.num ini)).jnSel →
        (t.ini (Initiator.num ini)).jnStat = 2 ∧ (t.ini (Initiator.num ini)).jnRec = List.replicate 8 0) ∧
      (0 < (s.ini (Initiator.num ini)).jnSel → (s.ini (Initiator.num ini)).jnSel ≤ s.jn.head → s.jn.head < (s.ini (Initiator.num ini)).jnSel + 2048 →
        (t.ini (Initiator.num ini)).jnStat = 0 ∧ (t.ini (Initiator.num ini)).jnRec =
          (SMap.look s.jn.slots (((s.ini (Initiator.num ini)).jnSel - 1) % 2048)).getD (List.replicate 8 0)) ∧
      (s.begun dt).frame t { parts := [.bus] })

/-! ### The twin (chapter 12) -/

/-- R81, R341, R342, R343, R344, R345, R348: Enabling takes the lease to STANDBY or, without a valid epoch, to LEARN; disabling ends it with EN 0. A pin
heartbeat goes out each period with the next number. A valid heartbeat of either path shows that path OK, the peer alive and its DUTY, and counts; a
bad one counts and tells nothing, and on the CRF path one with a bad CRC counts as a rejected slot too. Nothing follows from a heartbeat on a path
that the device does not listen on. A path without a valid heartbeat for PATH_LOSS is lost, and a peer not heard for T_DEAD is dead, which ends every
mute; each raises its event. That nothing is heard with EN 0 is the model's choice (log 27), and so is the whole slot that HEARTBEAT_RX brings on the
CRF path (log 21), where a slot of zeros or a rejected one is R81's. -/
def Obligations.TwinHeartbeats : Prop :=
  (∀ (s : State) (dt : Nat), s.aonUp = true → s.fld Fld.TW_CFG_EN = 0 →
    ∃ t, exec (.twinEnable dt) s = .next t ∧ t.fld Fld.TW_CFG_EN = 1 ∧ t.lease = (if s.epochValid = true then lsStandby else lsLearn) ∧ t.duty = false ∧
      t.tw.onAt = s.now + dt ∧
      (s.begun dt).frame t { parts := [.tw, .jn], regs := (· ∈ [Reg.TW_CFG, Reg.TW_STATUS, Reg.TW_EPOCH_HELD, Reg.TW_INT_STATUS, Reg.CM_INT_STATUS]) }) ∧
  (∀ (s : State) (dt : Nat), s.aonUp = true → s.fld Fld.TW_CFG_EN = 1 →
    ∃ t, exec (.twinDisable dt) s = .next t ∧ t.fld Fld.TW_CFG_EN = 0 ∧ t.lease = lsDisabled ∧ t.duty = false ∧
      (s.begun dt).frame t { parts := [.tw, .jn], ctrs := (· = Ctr.tw 0x60),
                             regs := (· ∈ [Reg.TW_CFG, Reg.TW_STATUS, Reg.TW_EPOCH_HELD, Reg.TW_INT_STATUS, Reg.CM_INT_STATUS]) }) ∧
  (∀ (s : State) (dt : Nat), s.aonUp = true → s.fld Fld.TW_CFG_EN = 1 → s.fld Fld.TW_CFG_PIN_EN = 1 →
    s.tw.txPinAt + max (s.fld Fld.TW_HB_CFG_PIN_PERIOD) 1 * 100 * tUs ≤ s.now + dt →
    ∃ t bs, exec (.hbPinTx dt) s = .next t ∧ t.out.filter (fun e => !e.isMsix) = .hb bs :: s.out.filter (fun e => !e.isMsix) ∧
      bs.take 4 = [0x55, 0x55, 0x55, 0xD5] ∧ u16 bs 6 = s.tw.seqPin % 65536 ∧ bs.length = 68 ∧ t.tw.seqPin = (s.tw.seqPin + 1) % 65536 ∧
      t.tw.txPinAt = s.now + dt ∧ (s.begun dt).frame t { parts := [.tw, .out] }) ∧
  (∀ (s : State) (dt : Nat) (hb : List Byte), s.hears .pin = true → s.twinTest hb 19 15 1 4 = 0 →
    ∃ t, exec (.heartbeatRx dt .pin hb) s = .next t ∧ t.fld Fld.TW_STATUS_PIN_OK = 1 ∧ t.fld Fld.TW_STATUS_PEER_DEAD = 0 ∧
      t.fld Fld.TW_STATUS_PEER_DUTY = b2n (bitOf (u8 hb 1) 6) ∧ t.fld Fld.TW_STATUS_PEER_FWD = b2n (bitOf (u8 hb 1) 7) ∧
      t.tw.pinAt = some (s.now + dt) ∧ t.tw.validAt = some (s.now + dt) ∧ t.fld Fld.TW_PEER_EPOCH_EPOCH = u32 hb 4 ∧
      t.ctr (Ctr.tw 0x40) = (s.ctr (Ctr.tw 0x40) + 1) % 2 ^ 64) ∧
  (∀ (s : State) (dt : Nat) (hb : List Byte), s.pathOpen .crf 2 hb = true → s.twinTest hb 19 15 1 4 = 0 →
    ∃ t, exec (.heartbeatRx dt .crf hb) s = .next t ∧ t.fld Fld.TW_STATUS_CRF_OK = 1 ∧ t.fld Fld.TW_STATUS_PEER_DEAD = 0 ∧
      t.fld Fld.TW_STATUS_PEER_DUTY = b2n (bitOf (u8 hb 1) 6) ∧ t.fld Fld.TW_STATUS_PEER_FWD = b2n (bitOf (u8 hb 1) 7) ∧
      t.tw.crfAt = some (s.now + dt) ∧ t.tw.validAt = some (s.now + dt) ∧ t.fld Fld.TW_PEER_EPOCH_EPOCH = u32 hb 4 ∧
      t.ctr (Ctr.tw 0x48) = (s.ctr (Ctr.tw 0x48) + 1) % 2 ^ 64) ∧
  (∀ (s : State) (dt : Nat) (path : Path) (hb : List Byte), s.pathOpen path 2 hb = true → s.twinTest hb 19 15 1 4 ≠ 0 → (path = .crf → ∃ b ∈ hb, b ≠ 0) →
    (s.lease ≠ lsHolder ∨ s.now + dt < s.tw.expiry) →
    ∃ t, exec (.heartbeatRx dt path hb) s = .next t ∧ t.ctr (Ctr.tw 0x50) = (s.ctr (Ctr.tw 0x50) + 1) % 2 ^ 64 ∧
      (path = .crf → crcGood hb 19 = false →
        t.ctr (Ctr.port (s.fld Fld.TW_CFG_LINK_PORT) 0x340) = (s.ctr (Ctr.port (s.fld Fld.TW_CFG_LINK_PORT) 0x340) + 1) % 2 ^ 64) ∧
      (s.begun dt).frame t { regs := (· = Reg.TW_INT_STATUS),
                             ctrs := (fun a => a = Ctr.tw 0x50 ∨ path = .crf ∧ a = Ctr.port (s.fld Fld.TW_CFG_LINK_PORT) 0x340) }) ∧
  (∀ (s : State) (dt : Nat) (path : Path) (hb : List Byte), s.hears path = false → s.tw.inbox = [] → (path = .crf → s.fld Fld.TW_CFG_EN = 0) →
    ∃ t, exec (.heartbeatRx dt path hb) s = .next t ∧ (s.begun dt).frame t {}) ∧
  (∀ (s : State) (dt p : Nat) (hb : List Byte), s.fld Fld.TW_CFG_LINK_PORT = p → s.tw.inbox = [] →
    s.twinPort p = false ∨ s.crfRuns p = false ∨ s.isSync p = false ∨ s.mfLock p = false ∨ hb.length ≠ slotBytes 2 ∨ (∀ b ∈ hb, b = 0) →
    ∃ t, exec (.heartbeatRx dt .crf hb) s = .next t ∧ (s.begun dt).frame t {}) ∧
  (∀ (s : State) (dt : Nat) (crf : Bool), s.aonUp = true → s.fld (if crf then Fld.TW_STATUS_CRF_OK else Fld.TW_STATUS_PIN_OK) = 1 →
    (∀ a, (if crf then s.tw.crfAt else s.tw.pinAt) = some a → a + s.pathLossTime ≤ s.now + dt) →
    ∃ t, exec (.pathLoss dt (if crf then .crf else .pin)) s = .next t ∧ t.fld (if crf then Fld.TW_STATUS_CRF_OK else Fld.TW_STATUS_PIN_OK) = 0 ∧
      t.fld (if crf then Fld.TW_INT_STATUS_CRF_PATH_LOSS else Fld.TW_INT_STATUS_PIN_PATH_LOSS) = 1 ∧
      (s.begun dt).frame t { regs := (· ∈ [Reg.TW_STATUS, Reg.TW_INT_STATUS]) }) ∧
  (∀ (s : State) (dt : Nat), s.aonUp = true → s.fld Fld.TW_CFG_EN = 1 → s.fld Fld.TW_STATUS_PEER_DEAD = 0 →
    max (s.tw.validAt.getD 0) s.tw.onAt + max (s.fld Fld.TW_HB_CFG_T_DEAD) 1 * tMs ≤ s.now + dt →
    ∃ t, exec (.peerDead dt) s = .next t ∧ t.fld Fld.TW_STATUS_PEER_DEAD = 1 ∧ t.fld Fld.TW_INT_STATUS_PEER_DEAD = 1 ∧ t.tw.dutyOff = none ∧
      (∀ e ∈ s.tw.streams, t.fld (Fld.TW_GEN_MUTED e.1) = 0) ∧
      (s.begun dt).frame t { parts := [.tw], regs := (fun a => a ∈ [Reg.TW_STATUS, Reg.TW_INT_STATUS] ∨ ∃ e ∈ s.tw.streams, a = Reg.TW_GEN e.1) })

/-- R81, R346, R347, R348, R349: A valid message not acted on before: a standby answers RENEW of an epoch not below the highest seen with ACK and sets its
guard, and one of a lower epoch with DENY; a holder's ACK extends X to its renewal's time plus LEASE; a standby grants a CLAIM of a new epoch; GRANT
makes the claimant HOLDER until LEASE after its claim; DENY sends it back to STANDBY; RELEASE ends the guard and lets a standby claim, unless the
device is in Keep. A message acted on before only shows that the peer is alive. A bad one counts and does nothing. No claim in Keep, and whole slots
on the CRF path, are the model's choices (logs 27, 21). Whatever the message, the path and the state, nothing beyond the lease and the journal's
record of it changes. -/
def Obligations.LeaseMessages : Prop :=
  (∀ (s : State) (dt e n : Nat) (path : Path) (m : List Byte), s.aonUp = true → s.pathOpen path 3 m = true → s.twinTest m 40 16 2 7 = 0 → u8 m 1 = lmRenew →
    u32 m 4 = e → u32 m 12 = n → s.tw.acted.contains (lmRenew, e, n) = false → s.lease = lsStandby →
    (s.epochSeen ≤ e → u32 m 8 ≤ e → ∃ t, exec (.renewRx dt path m) s = .next t ∧ t.lease = lsStandby ∧ t.epochSeen = e ∧ u8 t.tw.msg 1 = lmAck ∧
      u32 t.tw.msg 4 = e ∧ u32 t.tw.msg 12 = n ∧ t.tw.sent = false ∧ t.tw.guard = s.now + dt + s.guardTime ∧
      (s.begun dt).frame t { parts := [.tw, .jn], regs := (· ∈ [Reg.TW_STATUS, Reg.TW_EPOCH_SEEN, Reg.TW_PEER_EPOCH, Reg.TW_INT_STATUS,
                                                               Reg.CM_INT_STATUS]) }) ∧
    (e < s.epochSeen → ∃ t, exec (.renewRx dt path m) s = .next t ∧ t.lease = lsStandby ∧ u8 t.tw.msg 1 = lmDeny ∧ u32 t.tw.msg 4 = e ∧
      t.ctr (Ctr.tw 0x58) = (s.ctr (Ctr.tw 0x58) + 1) % 2 ^ 64 ∧ t.tw.guard = s.tw.guard)) ∧
  (∀ (s : State) (dt n a : Nat) (path : Path) (m : List Byte), s.aonUp = true → s.pathOpen path 3 m = true → s.twinTest m 40 16 2 7 = 0 → u8 m 1 = lmAck →
    u32 m 4 = s.epochHeld → u32 m 8 ≤ s.epochHeld → u32 m 12 = n → s.tw.acted.contains (lmAck, s.epochHeld, n) = false → s.lease = lsHolder →
    s.now + dt < s.tw.expiry → s.tw.renews.find? (fun r => decide (r.1 = n)) = some (n, a) →
    ∃ t, exec (.ackRx dt path m) s = .next t ∧ t.lease = lsHolder ∧ t.tw.expiry = max s.tw.expiry (a + s.leaseTime) ∧ t.epochHeld = s.epochHeld) ∧
  (∀ (s : State) (dt e n : Nat) (path : Path) (m : List Byte), s.aonUp = true → s.pathOpen path 3 m = true → s.twinTest m 40 16 2 7 = 0 → u8 m 1 = lmClaim →
    u32 m 4 = e → u32 m 12 = n → u32 m 8 < e → s.epochSeen < e → s.tw.acted.contains (lmClaim, e, n) = false →
    (s.lease = lsStandby → ∃ t, exec (.claimRx dt path m) s = .next t ∧ t.lease = lsStandby ∧ t.epochSeen = e ∧ u8 t.tw.msg 1 = lmGrant ∧
      u32 t.tw.msg 4 = e ∧ u32 t.tw.msg 12 = n ∧ t.tw.guard = s.now + dt + s.guardTime) ∧
    (s.lease = lsHolder → s.now + dt < s.tw.expiry → u32 m 8 ≤ s.epochHeld → ∃ t, exec (.claimRx dt path m) s = .next t ∧ t.lease = lsHolder ∧
      u8 t.tw.msg 1 = lmDeny ∧ u32 t.tw.msg 4 = e ∧ t.tw.expiry = s.tw.expiry)) ∧
  (∀ (s : State) (dt : Nat) (path : Path) (m : List Byte), s.aonUp = true → s.pathOpen path 3 m = true → s.twinTest m 40 16 2 7 = 0 → u8 m 1 = lmGrant →
    u32 m 4 = s.epochHeld → u32 m 8 ≤ s.epochHeld → s.epochSeen ≤ s.epochHeld → u32 m 12 = s.tw.num →
    s.tw.acted.contains (lmGrant, s.epochHeld, s.tw.num) = false → s.lease = lsClaiming →
    ∃ t, exec (.grantRx dt path m) s = .next t ∧ t.lease = lsHolder ∧ t.epochHeld = s.epochHeld ∧ t.epochSeen = s.epochHeld ∧
      t.fld Fld.TW_STATUS_DUTY = 1 ∧ t.fld Fld.TW_STATUS_SOLO = 0 ∧ t.tw.expiry = s.tw.claimAt + s.leaseTime) ∧
  (∀ (s : State) (dt : Nat) (path : Path) (m : List Byte), s.aonUp = true → s.pathOpen path 3 m = true → s.twinTest m 40 16 2 7 = 0 → u8 m 1 = lmDeny →
    u32 m 8 ≤ s.epochHeld → u32 m 12 = s.tw.num → s.tw.acted.contains (lmDeny, u32 m 4, s.tw.num) = false → s.lease = lsClaiming →
    ∃ t, exec (.denyRx dt path m) s = .next t ∧ t.lease = lsStandby ∧ t.epochHeld = 0 ∧ t.tw.msg = s.tw.msg) ∧
  (∀ (s : State) (dt e : Nat) (path : Path) (m : List Byte), s.aonUp = true → s.isl.mainOff = false → s.pathOpen path 3 m = true → s.twinTest m 40 16 2 7 = 0 →
    u8 m 1 = lmRelease → u32 m 4 = e → u32 m 8 ≤ e → s.epochSeen ≤ e → e + 1 < 2 ^ 32 → s.tw.acted.contains (lmRelease, e, u32 m 12) = false →
    s.lease = lsStandby →
    ∃ t, exec (.releaseRx dt path m) s = .next t ∧ t.lease = lsClaiming ∧ t.epochHeld = e + 1 ∧ u8 t.tw.msg 1 = lmClaim ∧ u32 t.tw.msg 4 = e + 1 ∧
      t.tw.guard = s.now + dt) ∧
  (∀ (s : State) (dt ty : Nat) (path : Path) (m : List Byte), s.aonUp = true → s.pathOpen path 3 m = true → s.twinTest m 40 16 2 7 ≠ 0 → u8 m 0 ≠ 0 →
    u8 m 1 = ty → (s.lease ≠ lsHolder ∨ s.now + dt < s.tw.expiry) → 1 ≤ ty → ty ≤ 6 →
    ∃ t, exec (if ty = 1 then .renewRx dt path m else if ty = 2 then .ackRx dt path m else if ty = 3 then .claimRx dt path m
        else if ty = 4 then .grantRx dt path m else if ty = 5 then .denyRx dt path m else .releaseRx dt path m) s = .next t ∧
      t.ctr (Ctr.tw 0x50) = (s.ctr (Ctr.tw 0x50) + 1) % 2 ^ 64 ∧
      (s.begun dt).frame t { regs := (· = Reg.TW_INT_STATUS),
                             ctrs := (fun a => a = Ctr.tw 0x50 ∨ path = .crf ∧ a = Ctr.port (s.fld Fld.TW_CFG_LINK_PORT) 0x340) }) ∧
  (∀ (s : State) (dt : Nat) (m : List Byte) (c : Instr),
    c ∈ [Instr.renewRx dt .pin m, .ackRx dt .pin m, .claimRx dt .pin m, .grantRx dt .pin m, .denyRx dt .pin m, .releaseRx dt .pin m] →
    ∃ t, exec c s = .next t ∧ (s.begun dt).frame t {
      parts := [.tw, .jn], ctrs := (· ∈ [Ctr.tw 0x50, Ctr.tw 0x58, Ctr.tw 0x60, Ctr.tw 0x68]),
      regs := (· ∈ [Reg.TW_STATUS, Reg.TW_EPOCH_SEEN, Reg.TW_EPOCH_HELD, Reg.TW_PEER_EPOCH, Reg.TW_INT_STATUS, Reg.CM_INT_STATUS]) }) ∧
  (∀ (s : State) (dt : Nat) (m : List Byte) (c : Instr), s.tw.inbox = [] →
    c ∈ [Instr.renewRx dt .crf m, .ackRx dt .crf m, .claimRx dt .crf m, .grantRx dt .crf m, .denyRx dt .crf m, .releaseRx dt .crf m] →
    ∃ t, exec c s = .next t ∧ (s.begun dt).frame t {
      parts := [.tw, .jn], ctrs := (· ∈ [Ctr.tw 0x50, Ctr.tw 0x58, Ctr.tw 0x60, Ctr.tw 0x68, Ctr.port (s.fld Fld.TW_CFG_LINK_PORT) 0x340]),
      regs := (· ∈ [Reg.TW_STATUS, Reg.TW_EPOCH_SEEN, Reg.TW_EPOCH_HELD, Reg.TW_PEER_EPOCH, Reg.TW_INT_STATUS, Reg.CM_INT_STATUS]) }) ∧
  (∀ (s : State) (dt ty : Nat) (path : Path) (m : List Byte), s.aonUp = true → s.pathOpen path 3 m = true → s.twinTest m 40 16 2 7 = 0 → u8 m 1 = ty →
    s.tw.acted.contains (ty, u32 m 4, u32 m 12) = true → msgEpoch m ≤ s.epochSeen →
    s.lease = lsStandby ∨ (s.lease = lsHolder ∧ s.now + dt < s.tw.expiry ∧ msgEpoch m ≤ s.epochHeld) ∨ (s.lease = lsClaiming ∧ msgEpoch m ≤ s.epochHeld) →
    1 ≤ ty → ty ≤ 6 →
    ∃ t, exec (if ty = 1 then .renewRx dt path m else if ty = 2 then .ackRx dt path m else if ty = 3 then .claimRx dt path m
        else if ty = 4 then .grantRx dt path m else if ty = 5 then .denyRx dt path m else .releaseRx dt path m) s = .next t ∧
      t.lease = s.lease ∧ t.duty = s.duty ∧ t.tw = { s.tw with validAt := some (s.now + dt), inbox := t.tw.inbox } ∧ t.fld Fld.TW_STATUS_PEER_DEAD = 0 ∧
      (s.begun dt).frame t { parts := [.tw], regs := (· ∈ [Reg.TW_STATUS, Reg.TW_PEER_EPOCH, Reg.TW_INT_STATUS]) })

/-- R348, R351: Once its guard and the peer's time without DUTY have passed, a standby claims the epoch after the highest seen. With the peer dead,
SOLO_EN and the guard passed it becomes HOLDER of the next epoch at once. A claim without an answer for two RENEW ends. The holder asks anew each
RENEW; alone, it extends X itself. At X DUTY falls and the lease has LAPSED. Away from these conditions, and in Keep, nothing happens (Keep is the
time without the main rails: log 27). -/
def Obligations.LeaseTimers : Prop :=
  (∀ (s : State) (dt o : Nat), s.aonUp = true → s.isl.mainOff = false → s.lease = lsStandby → s.epochSeen + 1 < 2 ^ 32 → s.fld Fld.TW_STATUS_PEER_DEAD = 0 →
    s.tw.dutyOff = some o →
    (max s.tw.guard (o + s.leaseTime) + (if s.fld Fld.TW_CFG_PREFER = 1 then 0 else s.leaseTime) ≤ s.now + dt →
      ∃ t, exec (.leaseClaim dt) s = .next t ∧ t.lease = lsClaiming ∧ t.epochHeld = s.epochSeen + 1 ∧ t.epochSeen = s.epochSeen ∧
        t.tw.num = (s.tw.num + 1) % 2 ^ 32 ∧ u8 t.tw.msg 1 = lmClaim ∧ u32 t.tw.msg 4 = s.epochSeen + 1 ∧ t.tw.claimAt = s.now + dt ∧
        (s.begun dt).frame t { parts := [.tw, .jn], regs := (· ∈ [Reg.TW_STATUS, Reg.TW_EPOCH_HELD, Reg.TW_INT_STATUS, Reg.CM_INT_STATUS]) }) ∧
    (s.now + dt < max s.tw.guard (o + s.leaseTime) + (if s.fld Fld.TW_CFG_PREFER = 1 then 0 else s.leaseTime) →
      ∃ t, exec (.leaseClaim dt) s = .next t ∧ (s.begun dt).frame t {})) ∧
  (∀ (s : State) (dt : Nat), s.aonUp = true → s.isl.mainOff = false → s.lease = lsStandby → s.epochSeen + 1 < 2 ^ 32 → s.fld Fld.TW_STATUS_PEER_DEAD = 1 →
    s.fld Fld.TW_CFG_SOLO_EN = 1 → s.tw.guard ≤ s.now + dt →
    ∃ t, exec (.soloHold dt) s = .next t ∧ t.lease = lsHolder ∧ t.epochHeld = s.epochSeen + 1 ∧ t.epochSeen = s.epochSeen + 1 ∧
      t.fld Fld.TW_STATUS_SOLO = 1 ∧ t.fld Fld.TW_STATUS_DUTY = 1 ∧ t.tw.expiry = s.now + dt + s.leaseTime ∧
      (s.begun dt).frame t { parts := [.tw, .jn], regs := (· ∈ [Reg.TW_STATUS, Reg.TW_EPOCH_SEEN, Reg.TW_EPOCH_HELD, Reg.TW_INT_STATUS,
                                                               Reg.CM_INT_STATUS]) }) ∧
  (∀ (s : State) (dt : Nat), s.aonUp = true → s.fld Fld.TW_STATUS_PEER_DEAD = 0 ∨ s.fld Fld.TW_CFG_SOLO_EN = 0 ∨ s.now + dt < s.tw.guard →
    ∃ t, exec (.soloHold dt) s = .next t ∧ (s.begun dt).frame t {}) ∧
  (∀ (s : State) (dt : Nat), s.isl.mainOff = true →
    (∃ t, exec (.leaseClaim dt) s = .next t ∧ (s.begun dt).frame t {}) ∧ (∃ t, exec (.soloHold dt) s = .next t ∧ (s.begun dt).frame t {})) ∧
  (∀ (s : State) (dt : Nat), s.aonUp = true → s.lease = lsClaiming →
    (s.tw.claimAt + 2 * s.renewTime ≤ s.now + dt → ∃ t, exec (.claimTimeout dt) s = .next t ∧ t.lease = lsStandby ∧ t.epochHeld = 0 ∧
      (s.begun dt).frame t { parts := [.jn], regs := (· ∈ [Reg.TW_STATUS, Reg.TW_EPOCH_HELD, Reg.TW_INT_STATUS, Reg.CM_INT_STATUS]) }) ∧
    (s.now + dt < s.tw.claimAt + 2 * s.renewTime → ∃ t, exec (.claimTimeout dt) s = .next t ∧ (s.begun dt).frame t {})) ∧
  (∀ (s : State) (dt : Nat), s.aonUp = true → s.lease = lsHolder → s.now + dt < s.tw.expiry → s.tw.renewAt + s.renewTime ≤ s.now + dt →
    ∃ t, exec (.renewTx dt) s = .next t ∧ t.lease = lsHolder ∧ u8 t.tw.msg 1 = lmRenew ∧ u32 t.tw.msg 4 = s.epochHeld ∧
      t.tw.num = (s.tw.num + 1) % 2 ^ 32 ∧ t.tw.renewAt = s.now + dt ∧
      t.tw.expiry = (if s.fld Fld.TW_STATUS_SOLO = 1 ∧ s.fld Fld.TW_STATUS_PEER_DEAD = 1 then s.now + dt + s.leaseTime else s.tw.expiry) ∧
      (s.begun dt).frame t { parts := [.tw] }) ∧
  (∀ (s : State) (dt : Nat), s.aonUp = true →
    s.lease ≠ lsHolder ∨ (s.now + dt < s.tw.expiry ∧ s.now + dt < s.tw.renewAt + s.renewTime) →
    ∃ t, exec (.renewTx dt) s = .next t ∧ (s.begun dt).frame t {}) ∧
  (∀ (s : State) (dt : Nat), s.aonUp = true → s.lease ≠ lsHolder → ∃ t, exec (.leaseLapsed dt) s = .next t ∧ (s.begun dt).frame t {}) ∧
  (∀ (s : State) (dt : Nat), s.aonUp = true → s.lease ≠ lsClaiming → ∃ t, exec (.claimTimeout dt) s = .next t ∧ (s.begun dt).frame t {}) ∧
  (∀ (s : State) (dt : Nat), s.aonUp = true → s.lease ≠ lsStandby ∨ s.tw.dutyOff = none →
    ∃ t, exec (.leaseClaim dt) s = .next t ∧ (s.begun dt).frame t {}) ∧
  (∀ (s : State) (dt : Nat), s.aonUp = true → s.lease = lsHolder →
    (s.tw.expiry ≤ s.now + dt → ∃ t, exec (.leaseLapsed dt) s = .next t ∧ t.lease = lsLapsed ∧ t.duty = false ∧ t.fld Fld.TW_STATUS_DUTY = 0 ∧
      t.epochHeld = 0 ∧ t.ctr (Ctr.tw 0x60) = (s.ctr (Ctr.tw 0x60) + 1) % 2 ^ 64 ∧ t.fld Fld.TW_INT_STATUS_LEASE_LAPSED = 1 ∧
      (s.begun dt).frame t { parts := [.jn], regs := (· ∈ [Reg.TW_STATUS, Reg.TW_EPOCH_HELD, Reg.TW_INT_STATUS, Reg.CM_INT_STATUS]),
                             ctrs := (· = Ctr.tw 0x60) }) ∧
    (s.now + dt < s.tw.expiry → ∃ t, exec (.leaseLapsed dt) s = .next t ∧ (s.begun dt).frame t {}))

/-- R348, R351, R352: CLAIM starts a claim of a standby, RELEASE gives a holder's lease up with a message, CLAIM_SOLO makes a device whose peer is dead
HOLDER, and SET_EPOCH gives a learning device its epoch; each clears ERR. A command that the state or the last epoch (R348) does not allow sets ERR
and leaves the lease as it was, and so does one to claim in Keep (R351; that Keep is the time without the main rails is log 27); while GO is 1 a
command sets OVERRUN alone. -/
def Obligations.LeaseCommands : Prop :=
  (∀ (s : State) (dt : Nat), s.aonUp = true → s.isl.mainOff = false → (s.begun dt).busy Reg.TW_LEASE_CMD = false → s.lease = lsStandby → s.epochSeen + 1 < 2 ^ 32 →
    ∃ t, exec (.cmdClaim dt) s = .next t ∧ t.fld Fld.TW_LEASE_CMD_ERR = 0 ∧ t.lease = lsClaiming ∧ t.epochHeld = s.epochSeen + 1 ∧
      u8 t.tw.msg 1 = lmClaim) ∧
  (∀ (s : State) (dt : Nat), s.aonUp = true → (s.begun dt).busy Reg.TW_LEASE_CMD = false → s.lease = lsHolder → s.now + dt < s.tw.expiry →
    s.epochSeen + 1 < 2 ^ 32 →
    ∃ t, exec (.cmdRelease dt) s = .next t ∧ t.fld Fld.TW_LEASE_CMD_ERR = 0 ∧ t.lease = lsStandby ∧ t.duty = false ∧ u8 t.tw.msg 1 = lmRelease ∧
      u32 t.tw.msg 4 = s.epochHeld) ∧
  (∀ (s : State) (dt : Nat), s.aonUp = true → s.isl.mainOff = false → (s.begun dt).busy Reg.TW_LEASE_CMD = false → s.fld Fld.TW_STATUS_PEER_DEAD = 1 →
    s.lease = lsLearn ∧ s.epochValid = true ∨ s.lease = lsStandby ∨ s.lease = lsLapsed → s.epochSeen + 1 < 2 ^ 32 →
    ∃ t, exec (.cmdClaimSolo dt) s = .next t ∧ t.fld Fld.TW_LEASE_CMD_ERR = 0 ∧ t.lease = lsHolder ∧ t.fld Fld.TW_STATUS_SOLO = 1 ∧
      t.epochHeld = s.epochSeen + 1 ∧ t.epochSeen = s.epochSeen + 1 ∧ t.tw.expiry = s.now + dt + s.leaseTime) ∧
  (∀ (s : State) (dt : Nat) (e : Word), s.aonUp = true → (s.begun dt).busy Reg.TW_LEASE_CMD = false → s.lease = lsLearn → e ≠ 0 → s.epochSeen + 1 < 2 ^ 32 →
    ∃ t, exec (.cmdSetEpoch dt e) s = .next t ∧ t.fld Fld.TW_LEASE_CMD_ERR = 0 ∧ t.lease = lsStandby ∧ t.epochSeen = e.toNat ∧ t.epochValid = true) ∧
  (∀ (s : State) (dt : Nat), s.aonUp = true → (s.begun dt).busy Reg.TW_LEASE_CMD = false → (s.lease ≠ lsHolder ∨ s.now + dt < s.tw.expiry) →
    (s.lease ≠ lsStandby → ∃ t, exec (.cmdClaim dt) s = .next t ∧ t.fld Fld.TW_LEASE_CMD_ERR = 1 ∧
      (s.begun dt).frame t { parts := [.goBusy, .free], regs := (· = Reg.TW_LEASE_CMD) }) ∧
    (s.lease ≠ lsHolder → ∃ t, exec (.cmdRelease dt) s = .next t ∧ t.fld Fld.TW_LEASE_CMD_ERR = 1 ∧
      (s.begun dt).frame t { parts := [.goBusy, .free], regs := (· = Reg.TW_LEASE_CMD) }) ∧
    (s.fld Fld.TW_STATUS_PEER_DEAD = 0 → ∃ t, exec (.cmdClaimSolo dt) s = .next t ∧ t.fld Fld.TW_LEASE_CMD_ERR = 1 ∧
      (s.begun dt).frame t { parts := [.goBusy, .free], regs := (· = Reg.TW_LEASE_CMD) }) ∧
    (s.lease ≠ lsLearn → ∀ e, ∃ t, exec (.cmdSetEpoch dt e) s = .next t ∧ t.fld Fld.TW_LEASE_CMD_ERR = 1 ∧ t.reg Reg.TW_LEASE_ARG = e ∧
      (s.begun dt).frame t { parts := [.goBusy, .free], regs := (· ∈ [Reg.TW_LEASE_CMD, Reg.TW_LEASE_ARG]) })) ∧
  (∀ (s : State) (dt : Nat) (c : Instr), s.aonUp = true → (s.begun dt).busy Reg.TW_LEASE_CMD = false → (s.lease ≠ lsHolder ∨ s.now + dt < s.tw.expiry) →
    (c ∈ [Instr.cmdClaim dt, .cmdClaimSolo dt] ∧ s.isl.mainOff = true) ∨ (c ∈ [Instr.cmdClaim dt, .cmdRelease dt, .cmdClaimSolo dt] ∧ s.epochSeen = 2 ^ 32 - 1) →
    ∃ t, exec c s = .next t ∧ t.fld Fld.TW_LEASE_CMD_ERR = 1 ∧ (s.begun dt).frame t { parts := [.goBusy, .free], regs := (· = Reg.TW_LEASE_CMD) }) ∧
  (∀ (s : State) (dt : Nat) (e : Word) (c : Instr), s.aonUp = true → (s.begun dt).busy Reg.TW_LEASE_CMD = true →
    c ∈ [Instr.cmdClaim dt, .cmdRelease dt, .cmdClaimSolo dt, .cmdSetEpoch dt e] →
    ∃ t, exec c s = .next t ∧ t.fld Fld.TW_LEASE_CMD_OVERRUN = 1 ∧ (c = .cmdSetEpoch dt e → t.reg Reg.TW_LEASE_ARG = e) ∧
      (s.begun dt).frame t { regs := (fun a => a = Reg.TW_LEASE_CMD ∨ c = .cmdSetEpoch dt e ∧ a = Reg.TW_LEASE_ARG) })

/-- R354, R355, R356: Of a mirror frame of the pair a Planish record writes the shadow and counts; a number out of sequence counts and raises MIRROR_GAP.
RESEND on the holder puts every item behind those that wait, and reads 1 until they have gone, whatever MIRROR_CTRL.EN is. An audit keeps the digests
of its second, once. A peer's audit is compared once; one that differs in an area that differed in the audit before it too sets its DIFF bit and
raises MIRROR_DIFF. Off, none of this happens. RESEND whatever EN is, and DIFF after audits of consecutive seconds, are the model's choices (log 28).
An audit also goes out as a frame of the pair, where Anvil gets its cells. -/
def Obligations.MirrorAndAudit : Prop :=
  (∀ (s : State) (dt q a : Nat) (w : Word) (bs : List Byte), s.mainUp = true → s.mirrorOn = true → u8 bs 0 = 0x10 → u8 bs 1 = 1 →
    u32 bs 8 = (s.reg Reg.TW_PAIR_ID).toNat → u32 bs 4 = q → u16 bs 2 = 1 → u8 bs 12 = 3 → u8 bs 13 = 1 → u32 bs 16 = a → u32 bs 20 = w.toNat → plRws a = true →
    ∃ t, exec (.mirrorFrameRx dt bs) s = .next t ∧ t.reg a = w32 (w.toNat &&& fieldMask (fieldsAt a) (fun t => decide (t = .rws))) ∧ t.tw.mseqRx = some q ∧
      t.ctr (Ctr.tw 0x78) = (s.ctr (Ctr.tw 0x78) + 1) % 2 ^ 64 ∧ t.act = s.act ∧
      (∀ m, s.tw.mseqRx = some m → q ≠ (m + 1) % 2 ^ 32 →
        t.ctr (Ctr.tw 0x80) = (s.ctr (Ctr.tw 0x80) + 1) % 2 ^ 64 ∧ t.fld Fld.TW_INT_STATUS_MIRROR_GAP = 1) ∧
      (s.begun dt).frame t { parts := [.tw, .jn], regs := (· ∈ [a, Reg.CM_PENDING, Reg.TW_INT_STATUS, Reg.CM_INT_STATUS]),
                             ctrs := (· ∈ [Ctr.tw 0x78, Ctr.tw 0x80]) }) ∧
  (∀ (s : State) (dt : Nat) (bs : List Byte), s.mainUp = true →
    s.mirrorOn = false ∨ u8 bs 0 ≠ 0x10 ∨ u8 bs 1 ≠ 1 ∨ u32 bs 8 ≠ (s.reg Reg.TW_PAIR_ID).toNat →
    ∃ t, exec (.mirrorFrameRx dt bs) s = .next t ∧ (s.begun dt).frame t {}) ∧
  (∀ (s : State) (dt : Nat), s.mainUp = true →
    ((s.begun dt).duty = true → ∃ t, exec (.mirrorResend dt) s = .next t ∧ t.tw.records = s.tw.records ++ s.mirrorAll ∧
      t.tw.resend = t.tw.records.length ∧ (s.begun dt).frame t { parts := [.tw] }) ∧
    ((s.begun dt).duty = false → ∃ t, exec (.mirrorResend dt) s = .next t ∧ (s.begun dt).frame t {})) ∧
  (∀ (s : State) (dt : Nat), s.mainUp = true →
    (s.auditOn = true → 500000000 ≤ (s.begun dt).hmNs % 1000000000 → s.tw.auditSec ≠ some (s.begun dt).hmSec →
      ∃ t, exec (.audit dt) s = .next t ∧ t.tw.auditSec = some (s.begun dt).hmSec ∧
        t.tw.digests = (((s.begun dt).hmSec, s.areaDigests) :: s.tw.digests).take 3 ∧ t.reg Reg.TW_MIRROR_STATUS = s.reg Reg.TW_MIRROR_STATUS ∧
        (∀ g p, g = ((s.begun dt).drawn.anvilCells (1 - (s.begun dt).pool.avCells.length)).1 → p = s.fld Fld.TW_CFG_LINK_PORT → 1518 ≤ (s.begun dt).mtu p →
          (g = true → ∃ x, t.queue (pcqId p 7) = s.queue (pcqId p 7) ++ [x] ∧ x.port = p ∧ x.data.length = 64 ∧
            u16 x.data 12 = s.fld (Fld.PP_PARSE_CFG_CTRL_ETYPE 0) ∧ u8 x.data 14 = 0x11 ∧ u8 x.data 15 = 1 ∧ u16 x.data 16 = 3 ∧
            u32 x.data 18 = (s.begun dt).hmSec % 2 ^ 32 ∧ u32 x.data 22 = (s.reg Reg.TW_PAIR_ID).toNat ∧
            (∀ k, k < 3 → u32 x.data (26 + 4 * k) = s.areaDigests.getD k 0 % 2 ^ 32)) ∧
          (g = false → t.fld Fld.AV_INT_STATUS_NOBUF = 1 ∧ t.queue (pcqId p 7) = s.queue (pcqId p 7)))) ∧
    (s.auditOn = false ∨ (s.begun dt).hmNs % 1000000000 < 500000000 ∨ s.tw.auditSec = some (s.begun dt).hmSec →
      ∃ t, exec (.audit dt) s = .next t ∧ (s.begun dt).frame t {})) ∧
  (∀ (s : State) (dt e : Nat) (d : List Nat) (l : List (Nat × List Nat)) (bs : List Byte), s.mainUp = true → s.auditOn = true → u8 bs 0 = 0x11 → u8 bs 1 = 1 →
    u32 bs 8 = (s.reg Reg.TW_PAIR_ID).toNat → s.tw.digests = (e, d) :: l → e % 2 ^ 32 = u32 bs 4 → s.tw.diffSec ≠ some e →
    ∃ t, exec (.auditRx dt bs) s = .next t ∧ t.tw.diffSec = some e ∧ (∀ k, k < 3 → bitOf t.tw.lastDiff k = decide (d.getD k 0 ≠ u32 bs (12 + 4 * k))) ∧
      (∀ k, k < 3 → bitOf (t.fld Fld.TW_MIRROR_STATUS_DIFF) k =
        (bitOf (s.fld Fld.TW_MIRROR_STATUS_DIFF) k || (decide (l.head?.isSome ∧ s.tw.diffSec = l.head?.map (fun x => x.1)) && bitOf s.tw.lastDiff k &&
          decide (d.getD k 0 ≠ u32 bs (12 + 4 * k))))) ∧
      (∀ k x, k < 3 → l.head? = some x → s.tw.diffSec = some x.1 → bitOf s.tw.lastDiff k = true → d.getD k 0 ≠ u32 bs (12 + 4 * k) → t.fld Fld.TW_INT_STATUS_MIRROR_DIFF = 1) ∧
      (s.begun dt).frame t { parts := [.tw], regs := (· ∈ [Reg.TW_MIRROR_STATUS, Reg.TW_INT_STATUS]) }) ∧
  (∀ (s : State) (dt e : Nat) (d : List Nat) (l : List (Nat × List Nat)) (bs : List Byte), s.mainUp = true →
    s.auditOn = false ∨ u8 bs 0 ≠ 0x11 ∨ u8 bs 1 ≠ 1 ∨ u32 bs 8 ≠ (s.reg Reg.TW_PAIR_ID).toNat ∨
      (s.tw.digests = (e, d) :: l ∧ e % 2 ^ 32 = u32 bs 4 ∧ s.tw.diffSec = some e) ∨ (∀ x ∈ s.tw.digests, x.1 % 2 ^ 32 ≠ u32 bs 4) →
    ∃ t, exec (.auditRx dt bs) s = .next t ∧ (s.begun dt).frame t {})

/-! ### Rings of the host interface (chapter 13) -/

/-- R444: With no image applied, enabling an idle ring of a KIND other than CMD and CQ leaves the ring idle with EN as it was and sets CFG_ERR; a CQ ring,
and a CMD ring whose CQ is enabled, of a size that R368 allows, are enabled. -/
def Obligations.BeforeImage : Prop :=
  (∀ (s : State) (dt r : Nat) (ini : Initiator) (cfg : Word), r < 4096 → s.reaches ini (Reg.HI_RING_CFG r) 0 = true → s.bt.regions = [] →
    (s.ring r).state = ringIdle → bitsOf cfg.toNat 28 3 ≠ kindCmd → bitsOf cfg.toNat 28 3 ≠ kindCq →
    ∃ t, exec (.ringEnable dt ini r cfg) s = .next t ∧ t.ring r = s.ring r ∧ t.fld (Fld.HI_RING_CFG_EN r) = s.fld (Fld.HI_RING_CFG_EN r) ∧
      t.fld (Fld.HI_RING_CTRL_CFG_ERR r) = 1 ∧ t.fld Fld.HI_INT_STATUS_CFG_ERR = 1) ∧
  (∀ (s : State) (dt r : Nat) (ini : Initiator) (cfg : Word), r < 4096 → s.reaches ini (Reg.HI_RING_CFG r) 0 = true → s.bt.regions = [] →
    (s.ring r).state = ringIdle → 4 ≤ bitsOf cfg.toNat 23 5 → bitsOf cfg.toNat 23 5 ≤ 16 →
    (bitsOf cfg.toNat 28 3 = kindCq ∨ (bitsOf cfg.toNat 28 3 = kindCmd ∧ s.rOn (bitsOf cfg.toNat 11 12) = true ∧ s.rKind (bitsOf cfg.toNat 11 12) = kindCq)) →
    ∃ t, exec (.ringEnable dt ini r cfg) s = .next t ∧ (t.ring r).state = ringEnabled ∧ t.fld (Fld.HI_RING_CFG_EN r) = 1)

/-- R365, R367, R369, R370, R392, R421: An enable of an idle ring with a valid KIND, size and CQ starts it at position 0 and is journalled; an invalid
one, or one of a ring that is not idle, sets CFG_ERR. A disable of a submission ring drains it, its only job completing ABORTED, but for an image load
that is being carried out; a CQ that an enabled ring names is not disabled. RESET drains and starts afresh. A drained ring goes IDLE or starts afresh.
FLR empties every ring, resets the HI_ registers and is journalled; of the PCIe function Max_Payload_Size and the AER status stay (the model's reading
of PCI Express, notes/assumptions/46.md). A disabled CQ idle at once, a fresh ring's kept job numbers, EN 0 and RESET on rings that are not enabled
are the model's choice (log 31); records of one CD01 cycle take R419's order. VEC_EOI arms its vector, which signals again where it is still raised,
or keeps its message pending while it or the function is masked. -/
def Obligations.RingControls : Prop :=
  (∀ (s : State) (dt r : Nat) (ini : Initiator) (cfg : Word), r < 4096 → s.reaches ini (Reg.HI_RING_CFG r) 0 = true → s.bt.regions ≠ [] →
    (s.ring r).state = ringIdle → bitsOf cfg.toNat 28 3 ≤ 4 → 4 ≤ bitsOf cfg.toNat 23 5 → bitsOf cfg.toNat 23 5 ≤ 16 →
    (3 ≤ bitsOf cfg.toNat 28 3 ∨ (s.rOn (bitsOf cfg.toNat 11 12) = true ∧ s.rKind (bitsOf cfg.toNat 11 12) = kindCq)) →
    ∃ t, exec (.ringEnable dt ini r cfg) s = .next t ∧ t.ring r = { Ring.reset with state := ringEnabled, nextJob := (s.ring r).nextJob } ∧
      t.fld (Fld.HI_RING_CFG_EN r) = 1 ∧ t.rKind r = bitsOf cfg.toNat 28 3 ∧ t.rN r = 2 ^ bitsOf cfg.toNat 23 5 ∧ t.rCq r = bitsOf cfg.toNat 11 12 ∧
      (s.jn.soon = [] → s.jn.lostDue = 0 → s.jn.queue.length < 256 → s.jn.tick ≠ (s.now + dt) / 240 → t.jn.queue = s.jn.queue ++
        [jnWords s.jn.nextSeq 3 (Initiator.origin ini) 0 (s.begun dt).hmNs [r, (t.reg (Reg.HI_RING_CFG r)).toNat]]) ∧
      ((s.begun dt).i2cDone ini (Reg.HI_RING_CFG r)).frame t { parts := [.jn], rings := [r], regs := (· ∈ [Reg.HI_RING_CFG r, Reg.CM_INT_STATUS]) }) ∧
  (∀ (s : State) (dt r : Nat) (ini : Initiator) (cfg : Word), r < 4096 → s.reaches ini (Reg.HI_RING_CFG r) 0 = true →
    ((s.ring r).state ≠ ringIdle ∨ 4 < bitsOf cfg.toNat 28 3 ∨ bitsOf cfg.toNat 23 5 < 4 ∨ 16 < bitsOf cfg.toNat 23 5 ∨
      (bitsOf cfg.toNat 28 3 ≤ 2 ∧ (s.rOn (bitsOf cfg.toNat 11 12) = false ∨ s.rKind (bitsOf cfg.toNat 11 12) ≠ kindCq))) →
    ∃ t, exec (.ringEnable dt ini r cfg) s = .next t ∧ t.fld (Fld.HI_RING_CFG_EN r) = s.fld (Fld.HI_RING_CFG_EN r) ∧
      t.fld (Fld.HI_RING_CTRL_CFG_ERR r) = 1 ∧ t.fld Fld.HI_INT_STATUS_CFG_ERR = 1 ∧ t.fld Fld.HI_ERR_RING_RING = r ∧
      ((s.begun dt).i2cDone ini (Reg.HI_RING_CFG r)).frame t { regs := (· ∈ [Reg.HI_RING_CFG r, Reg.HI_RING_CTRL r, Reg.HI_INT_STATUS, Reg.HI_ERR_RING]) }) ∧
  (∀ (s : State) (dt r : Nat) (ini : Initiator), r < 4096 → s.reaches ini (Reg.HI_RING_CFG r) 0 = true → (s.ring r).state = ringEnabled →
    s.rSubmits r = true →
    ∃ t, exec (.ringDisable dt ini r) s = .next t ∧ t.fld (Fld.HI_RING_CFG_EN r) = 0 ∧ (t.ring r).state = ringDraining ∧ (t.ring r).rerun = false ∧
      (t.ring r).cur = none ∧ (t.ring r).bufs = [] ∧ (∀ j ∈ (t.ring r).jobs, j.done ≠ none ∨ s.loadBegun r j = true) ∧ (t.ring r).dev = (s.ring r).dev ∧
      (t.ring r).host = (s.ring r).host ∧
      (∀ j, (s.ring r).jobs = [j] → (s.ring r).cur = none → (s.ring r).bufs = [] → j.done = none → s.loadBegun r j = false →
        s.onlyJobDone t r j stAborted 0 0) ∧
      ((∀ j ∈ (s.ring r).jobs ++ (s.ring r).cur.toList, j.cells = [] ∧ j.fid = none) →
        ((s.begun dt).i2cDone ini (Reg.HI_RING_CFG r)).frame t { parts := [.jn, .hi], rings := [r], regs := (· ∈ [Reg.HI_RING_CFG r, Reg.CM_INT_STATUS]),
                                                                 ctrs := (· ∈ [Ctr.queue (hostQ r) 0x10, Ctr.queue (hostQ r) 0x18]) })) ∧
  (∀ (s : State) (dt r : Nat) (ini : Initiator), r < 4096 → s.reaches ini (Reg.HI_RING_CFG r) 0 = true → (s.ring r).state = ringEnabled →
    s.rSubmits r = false →
    ((s.rKind r = kindCq ∧ s.cqNamed r = true) → ∃ t, exec (.ringDisable dt ini r) s = .next t ∧ t.ring r = s.ring r ∧
      t.fld (Fld.HI_RING_CTRL_CFG_ERR r) = 1 ∧
      ((s.begun dt).i2cDone ini (Reg.HI_RING_CFG r)).frame t { regs := (· ∈ [Reg.HI_RING_CTRL r, Reg.HI_INT_STATUS, Reg.HI_ERR_RING]) }) ∧
    ((s.rKind r ≠ kindCq ∨ s.cqNamed r = false) → ∃ t, exec (.ringDisable dt ini r) s = .next t ∧ (t.ring r).state = ringIdle ∧
      t.fld (Fld.HI_RING_CFG_EN r) = 0 ∧
      ((s.begun dt).i2cDone ini (Reg.HI_RING_CFG r)).frame t { parts := [.jn], rings := [r], regs := (· ∈ [Reg.HI_RING_CFG r, Reg.CM_INT_STATUS]) })) ∧
  (∀ (s : State) (dt r : Nat) (ini : Initiator), r < 4096 → s.reaches ini (Reg.HI_RING_CTRL r) 0 = true → (s.ring r).state = ringEnabled →
    ∃ t, exec (.ringReset dt ini r) s = .next t ∧ t.fld (Fld.HI_RING_CFG_EN r) = s.fld (Fld.HI_RING_CFG_EN r) ∧
      (s.rSubmits r = true → (t.ring r).state = ringDraining ∧ (t.ring r).rerun = true ∧ t.fld (Fld.HI_RING_CTRL_RESET r) = 1 ∧ (t.ring r).bufs = [] ∧
        (∀ j ∈ (t.ring r).jobs, j.done ≠ none ∨ s.loadBegun r j = true)) ∧
      (s.rSubmits r = false → t.ring r = { Ring.reset with state := ringEnabled, nextJob := (s.ring r).nextJob } ∧
        ((s.begun dt).i2cDone ini (Reg.HI_RING_CTRL r)).frame t { parts := [.jn], rings := [r], regs := (· = Reg.CM_INT_STATUS) })) ∧
  (∀ (s : State) (dt r : Nat), r < 4096 → s.mainUp = true → (s.ring r).state = ringDraining → s.ringQuiet r = true →
    ∃ t, exec (.ringIdle dt r) s = .next t ∧
      t.ring r = { Ring.reset with state := (if (s.ring r).rerun then ringEnabled else ringIdle), nextJob := (s.ring r).nextJob } ∧
      ((s.ring r).rerun = true → t.fld (Fld.HI_RING_CTRL_RESET r) = 0) ∧
      (s.begun dt).frame t { rings := [r], regs := (· = Reg.HI_RING_CTRL r) }) ∧
  (∀ (s : State) (dt r : Nat), r < 4096 → s.mainUp = true → ((s.ring r).state ≠ ringDraining ∨ s.ringQuiet r = false) →
    ∃ t, exec (.ringIdle dt r) s = .next t ∧ (s.begun dt).frame t {}) ∧
  (∀ (s : State) (dt : Nat), s.mainUp = true → s.pciRuns = true →
    ∃ t, exec (.flr dt) s = .next t ∧ t.hi.pci = { PciFn.reset with mps := s.hi.pci.mps, aer := s.hi.pci.aer } ∧
      (s.jn.soon = [] → s.jn.lostDue = 0 → s.jn.queue.length < 256 → s.jn.tick ≠ (s.now + dt) / 240 →
        t.jn.queue = s.jn.queue ++ [jnWords s.jn.nextSeq 3 orgPcie 3 (s.begun dt).hmNs [0, 0x02000000]]) ∧
      (∀ r, (t.ring r).state = ringIdle ∧ (t.ring r).jobs = [] ∧ (t.ring r).cur = none ∧ (t.ring r).bufs = []) ∧
      (∀ a, 0x80000 ≤ a → a < 0xD0000 → t.reg a = regReset a) ∧ t.hi.waiting = [] ∧ t.hi.table = [] ∧
      (s.begun dt).frame t { parts := [.jn, .hi, .pool, .fab, .goBusy], rings := s.hi.rings.map (fun e => e.1),
                             ctrs := (fun a => 0x2500000 ≤ a ∧ a < 0x2600000),
                             regs := (fun a => (0x80000 ≤ a ∧ a < 0xD0000) ∨ a = Reg.CM_INT_STATUS ∨ (0xC00000 ≤ a ∧ a < 0xD00000)) }) ∧
  (∀ (s : State) (dt v : Nat), v < 2048 → s.mainUp = true →
    ∃ t, exec (.vecEoi dt v) s = .next t ∧ (v ∉ (s.begun dt).raised → v ∉ t.hi.unarmed) ∧
      (v ∈ (s.begun dt).raised → bitOf (SMap.get msixReset s.hi.table (4 * v + 3)).toNat 0 = false → s.msixOpen = true →
        t.out.count (.msix v) = s.out.count (.msix v) + 1 ∧ v ∈ t.hi.unarmed) ∧
      (v ∈ (s.begun dt).raised → bitOf (SMap.get msixReset s.hi.table (4 * v + 3)).toNat 0 = true ∨ s.msixOpen = false → t.msixPends v = true) ∧ (s.begun dt).frame t {})

/-- R363, R370, R371, R395: A doorbell of at least four bytes at offset 8r to an enabled ring r whose new position takes back no entry, and gives or frees
no more than the ring holds, moves the host's position. Any other doorbell changes no position, sets DB_ERR and counts. The MSI-X table takes one word
or two; a write of a vector's control word that unmasks it sends the message it owes. The reserved offsets and the PBA take no write (that 8r + 4 is
reserved is the model's choice, notes/assumptions/31.md), and nothing is taken while the endpoint is in reset or in D3hot. -/
def Obligations.Doorbells : Prop :=
  (∀ (s : State) (dt r k : Nat) (v : BitVec 64), r < 4096 → 4 ≤ k → k ≤ 8 → s.mainUp = true → s.pciRuns = true → (s.ring r).state = ringEnabled →
    v.toNat % 2 ^ 16 < s.rN r →
    (s.rSubmits r = true →
      posDiff (s.rN r) (s.ring r).host (s.ring r).dev ≤ posDiff (s.rN r) (bitsOf v.toNat 16 1 * s.rN r + v.toNat % 2 ^ 16) (s.ring r).dev ∧
      posDiff (s.rN r) (bitsOf v.toNat 16 1 * s.rN r + v.toNat % 2 ^ 16) (s.ring r).dev ≤ s.rN r) →
    (s.rSubmits r = false → posDiff (s.rN r) (s.ring r).dev (bitsOf v.toNat 16 1 * s.rN r + v.toNat % 2 ^ 16) ≤ posDiff (s.rN r) (s.ring r).dev (s.ring r).host) →
    ∃ t, exec (.doorbell dt (8 * r) k v) s = .next t ∧ (t.ring r).host = bitsOf v.toNat 16 1 * s.rN r + v.toNat % 2 ^ 16 ∧
      (t.ring r).dev = (s.ring r).dev ∧ (t.ring r).jobs = (s.ring r).jobs ∧ t.fld (Fld.HI_RING_DB_POS r) = v.toNat % 2 ^ 17 ∧
      (s.begun dt).frame t { rings := [r], regs := (· = Reg.HI_RING_DB r) }) ∧
  (∀ (s : State) (dt r k : Nat) (v : BitVec 64), r < 4096 → 1 ≤ k → k ≤ 8 → s.mainUp = true → s.pciRuns = true →
    (k < 4 ∨ (s.ring r).state ≠ ringEnabled ∨ s.rN r ≤ v.toNat % 2 ^ 16 ∨
     (s.rSubmits r = true ∧ (s.rN r < posDiff (s.rN r) (bitsOf v.toNat 16 1 * s.rN r + v.toNat % 2 ^ 16) (s.ring r).dev ∨
       posDiff (s.rN r) (bitsOf v.toNat 16 1 * s.rN r + v.toNat % 2 ^ 16) (s.ring r).dev < posDiff (s.rN r) (s.ring r).host (s.ring r).dev)) ∨
     (s.rSubmits r = false ∧
       posDiff (s.rN r) (s.ring r).dev (s.ring r).host < posDiff (s.rN r) (s.ring r).dev (bitsOf v.toNat 16 1 * s.rN r + v.toNat % 2 ^ 16))) →
    ∃ t, exec (.doorbell dt (8 * r) k v) s = .next t ∧ t.fld (Fld.HI_RING_CTRL_DB_ERR r) = 1 ∧ t.fld Fld.HI_INT_STATUS_DB_ERR = 1 ∧
      t.fld Fld.HI_ERR_RING_RING = r ∧ t.ctr (Ctr.hi 0x00) = (s.ctr (Ctr.hi 0x00) + 1) % 2 ^ 64 ∧
      (s.begun dt).frame t { regs := (· ∈ [Reg.HI_RING_CTRL r, Reg.HI_INT_STATUS, Reg.HI_ERR_RING]), ctrs := (· = Ctr.hi 0x00) }) ∧
  (∀ (s : State) (dt i k : Nat) (v : BitVec 64), i < 8192 → 4 ≤ k → k ≤ 8 → s.mainUp = true → s.pciRuns = true →
    ∃ t, exec (.doorbell dt (0x10000 + 4 * i) k v) s = .next t ∧
      (∀ c w, (c = i ∧ w = w32 v.toNat) ∨ (i % 2 = 0 ∧ k = 8 ∧ c = i + 1 ∧ w = w32 (v.toNat / 2 ^ 32)) →
        SMap.get msixReset t.hi.table c = msixEntry c w ∧
        (c % 4 = 3 → w.toNat % 2 = 0 → c / 4 ∈ s.hi.pba → c / 4 ∈ s.hi.unarmed → s.msixOpen = true →
          c / 4 ∉ t.hi.pba ∧ t.out.count (.msix (c / 4)) = s.out.count (.msix (c / 4)) + 1)) ∧
      (∀ c, c ≠ i → ¬ (i % 2 = 0 ∧ k = 8 ∧ c = i + 1) → SMap.get msixReset t.hi.table c = SMap.get msixReset s.hi.table c) ∧
      t.hi.pci = s.hi.pci ∧ t.hi.waiting = s.hi.waiting ∧ (s.begun dt).frame t { parts := [.hi] }) ∧
  (∀ (s : State) (dt o k : Nat) (v : BitVec 64), o < 0x20000 → 1 ≤ k → k ≤ 8 → s.mainUp = true →
    s.pciRuns = false ∨ (o < 0x8000 ∧ o % 8 ≠ 0) ∨ (0x8000 ≤ o ∧ o < 0x10000) ∨ (0x10000 ≤ o ∧ o < 0x18000 ∧ (o % 4 ≠ 0 ∨ k < 4)) ∨ 0x18000 ≤ o →
    ∃ t, exec (.doorbell dt o k v) s = .next t ∧ (s.begun dt).frame t {})

/-- R353, R372, R374, R375, R376, R378, R382, R385, R389, R393: With an entry to read the device's position moves on by one; otherwise nothing happens. A
TX entry with FIRST and LAST makes a job that awaits its frame, one with FIRST alone a chain, parked at the tail; on a ring that SGL_RING marks, a
device without duty completes it NOT_HOLDER. LEN 0 completes BAD_LEN, a chain without FIRST BAD_CHAIN. An RX entry of 64 bytes or more is a buffer, a
smaller one BAD_LEN. A TABLE command answers in the host's memory and completes OK. The chain timer completes the chain CHAIN_TIMEOUT and skips the
rest. -/
def Obligations.Entries : Prop :=
  (∀ (s : State) (dt r : Nat) (ws : List Word) (pl : List Byte), r < 4096 → ws.length = 8 → s.mainUp = true →
    (s.entryDue r = false → ∃ t, exec (.entryRead dt r ws pl) s = .next t ∧ (s.begun dt).frame t {}) ∧
    (s.entryDue r = true → ∃ t, exec (.entryRead dt r ws pl) s = .next t ∧ (t.ring r).dev = ((s.ring r).dev + 1) % (2 * s.rN r) ∧
      (t.ring r).host = (s.ring r).host ∧ (t.ring r).state = (s.ring r).state ∧ (∀ q, q ≠ r → t.ring q = s.ring q))) ∧
  (∀ (s : State) (dt r : Nat) (ws : List Word) (pl : List Byte) (a : Job), r < 4096 → ws.length = 8 → s.mainUp = true → s.entryDue r = true →
    s.rKind r = kindTx → (s.ring r).state = ringEnabled → (s.ring r).cur = none → (s.ring r).abortAt = [] → (s.ring r).held = none →
    bitOf (ws.getD 2 0).toNat 31 = true → a.words = (ws.drop 3).take 5 → a.fwd ≠ 3 → a.ptpAct ≠ 3 → a.w 5 % 2 ^ 30 < 1000000000 → (a.fwd ≠ 2 ∨ a.dwEn = false) →
    (bitOf (s.reg (Reg.TW_SGL_RING (r / 32))).toNat (r % 32) = true → (s.begun dt).duty = false → bitsOf (ws.getD 2 0).toNat 16 14 ≠ 0 →
      bitsOf (ws.getD 2 0).toNat 16 14 ≤ 10236 → (s.ring r).jobs = [] →
      ∃ t, exec (.entryRead dt r ws pl) s = .next t ∧ (t.ring r).jobs = [] ∧ (t.ring r).cur = none ∧ (t.ring r).skip = !(bitOf (ws.getD 2 0).toNat 30) ∧
        t.waitingOf (s.rCq r) = s.waitingOf (s.rCq r) ++
          [(r, [0, 0, w32 ((s.ring r).dev % s.rN r % 2 ^ 16 * 2 ^ 16 + (ws.getD 2 0).toNat % 2 ^ 16)], stNotHolder, kindTx)] ∧
        t.ctr (Ctr.queue (hostQ r) 0x10) = (s.ctr (Ctr.queue (hostQ r) 0x10) + 1) % 2 ^ 64 ∧
        (s.begun dt).frame t { parts := [.hi], rings := [r], ctrs := (· ∈ [Ctr.queue (hostQ r) 0x10, Ctr.queue (hostQ r) 0x18]) }) ∧
    (bitOf (s.reg (Reg.TW_SGL_RING (r / 32))).toNat (r % 32) = false ∨ (s.begun dt).duty = true →
    (bitsOf (ws.getD 2 0).toNat 16 14 ≠ 0 → bitsOf (ws.getD 2 0).toNat 16 14 ≤ 10236 → bitOf (ws.getD 2 0).toNat 30 = true →
      ∃ t j, exec (.entryRead dt r ws pl) s = .next t ∧ (t.ring r).jobs = (s.ring r).jobs ++ [j] ∧ j.words = a.words ∧ j.ready = true ∧ j.done = none ∧
        j.tag = (ws.getD 2 0).toNat % 2 ^ 16 ∧ j.total = bitsOf (ws.getD 2 0).toNat 16 14 ∧ j.count = 1 ∧ j.first = (s.ring r).dev % s.rN r ∧
        j.last = (s.ring r).dev % s.rN r ∧ (t.ring r).cur = none ∧ (t.ring r).skip = false ∧ (s.begun dt).frame t { rings := [r] }) ∧
    (bitsOf (ws.getD 2 0).toNat 16 14 ≠ 0 → bitsOf (ws.getD 2 0).toNat 16 14 ≤ 10236 → bitOf (ws.getD 2 0).toNat 30 = false →
      ∃ t j, exec (.entryRead dt r ws pl) s = .next t ∧ (t.ring r).cur = some j ∧ j.words = a.words ∧ j.ready = false ∧ j.count = 1 ∧
        j.total = bitsOf (ws.getD 2 0).toNat 16 14 ∧ (t.ring r).jobs = (s.ring r).jobs ∧
        (t.ring r).parked = (if ((s.ring r).dev + 1) % (2 * s.rN r) = (s.ring r).host then some (s.now + dt) else none) ∧
        (s.begun dt).frame t { rings := [r] })) ∧
    (bitsOf (ws.getD 2 0).toNat 16 14 = 0 → (s.ring r).jobs = [] →
      ∃ t, exec (.entryRead dt r ws pl) s = .next t ∧ (t.ring r).jobs = [] ∧ (t.ring r).cur = none ∧ (t.ring r).skip = !(bitOf (ws.getD 2 0).toNat 30) ∧
        t.waitingOf (s.rCq r) = s.waitingOf (s.rCq r) ++
          [(r, [0, 0, w32 ((s.ring r).dev % s.rN r % 2 ^ 16 * 2 ^ 16 + (ws.getD 2 0).toNat % 2 ^ 16)], stBadLen, kindTx)] ∧
        (s.begun dt).frame t { parts := [.hi], rings := [r], ctrs := (· ∈ [Ctr.queue (hostQ r) 0x10, Ctr.queue (hostQ r) 0x18]) })) ∧
  (∀ (s : State) (dt r : Nat) (ws : List Word) (pl : List Byte), r < 4096 → ws.length = 8 → s.mainUp = true → s.entryDue r = true →
    (s.rKind r = kindTx ∨ s.rKind r = kindCmd) → (s.ring r).cur = none → (s.ring r).skip = false → (s.ring r).jobs = [] → (s.ring r).abortAt = [] →
    (s.ring r).state = ringEnabled → bitOf (ws.getD 2 0).toNat 31 = false →
    ∃ t, exec (.entryRead dt r ws pl) s = .next t ∧ (t.ring r).jobs = [] ∧
      t.waitingOf (s.rCq r) = s.waitingOf (s.rCq r) ++
        [(r, [0, 0, w32 ((s.ring r).dev % s.rN r % 2 ^ 16 * 2 ^ 16 + (ws.getD 2 0).toNat % 2 ^ 16)], stBadChain, s.rKind r)]) ∧
  (∀ (s : State) (dt r : Nat) (ws : List Word) (pl : List Byte), r < 4096 → ws.length = 8 → s.mainUp = true → s.entryDue r = true → s.rKind r = kindRx →
    (s.ring r).state = ringEnabled → (s.ring r).abortAt = [] → (∀ b ∈ (s.ring r).bufs, b.2.1 ≠ 0) → bitOf (ws.getD 2 0).toNat 31 = true →
    bitOf (ws.getD 2 0).toNat 30 = true →
    (64 ≤ bitsOf (ws.getD 2 0).toNat 16 14 → ∃ t, exec (.entryRead dt r ws pl) s = .next t ∧
      (t.ring r).bufs = (s.ring r).bufs ++ [((ws.getD 1 0).toNat * 2 ^ 32 + (ws.getD 0 0).toNat, bitsOf (ws.getD 2 0).toNat 16 14,
        (ws.getD 2 0).toNat % 2 ^ 16, (s.ring r).dev % s.rN r)] ∧ (s.begun dt).frame t { rings := [r] }) ∧
    (bitsOf (ws.getD 2 0).toNat 16 14 < 64 → (s.ring r).bufs = [] → ∃ t, exec (.entryRead dt r ws pl) s = .next t ∧ (t.ring r).bufs = [] ∧
      t.waitingOf (s.rCq r) = s.waitingOf (s.rCq r) ++ [(r, rxEmpty ((s.ring r).dev % s.rN r) ((ws.getD 2 0).toNat % 2 ^ 16), stBadLen, kindRx)] ∧
      (s.begun dt).frame t { parts := [.hi], rings := [r] })) ∧
  (∀ (s : State) (dt r : Nat) (ws : List Word) (pl : List Byte), r < 4096 → ws.length = 8 → s.mainUp = true → s.entryDue r = true → s.rKind r = kindCmd →
    (s.ring r).state = ringEnabled → (s.ring r).abortAt = [] → (s.ring r).cur = none → (s.ring r).jobs = [] → bitsOf (ws.getD 2 0).toNat 30 2 = 3 →
    bitsOf (ws.getD 3 0).toNat 28 4 = 1 → bitsOf (ws.getD 2 0).toNat 16 14 = 64 → (ws.getD 0 0).toNat % 64 = 0 →
    ∃ t, exec (.entryRead dt r ws pl) s = .next t ∧ (t.ring r).jobs = [] ∧
      (∃ tr : List Word, (OutEv.dma ((ws.getD 1 0).toNat * 2 ^ 32 + (ws.getD 0 0).toNat + 32) (wordsLe tr)) ∈ t.out ∧
        t.waitingOf (s.rCq r) = s.waitingOf (s.rCq r) ++ [(r, [tr.getD 0 0, 0,
          w32 ((s.ring r).dev % s.rN r % 2 ^ 16 * 2 ^ 16 + (ws.getD 2 0).toNat % 2 ^ 16)], stOk, kindCmd)])) ∧
  (∀ (s : State) (dt r a : Nat) (j : Job), r < 4096 → s.mainUp = true → (s.ring r).parked = some a → (s.ring r).cur = some j → (s.ring r).jobs = [] →
    j.done = none → j.cells = [] → j.fid = none → (s.ring r).abortAt = [] →
    (s.fld (Fld.HI_RING_CHAIN_TO_TIMEOUT r) ≠ 0 → a + s.fld (Fld.HI_RING_CHAIN_TO_TIMEOUT r) * tUs ≤ s.now + dt →
      ∃ t, exec (.chainTimeout dt r) s = .next t ∧ (t.ring r).cur = none ∧ (t.ring r).skip = true ∧ (t.ring r).parked = none ∧
        s.onlyJobDone t r j stChainTimeout 0 0 ∧
        (s.begun dt).frame t { parts := [.hi, .jn], rings := [r], regs := (· = Reg.CM_INT_STATUS), ctrs := (· ∈ [Ctr.queue (hostQ r) 0x10, Ctr.queue (hostQ r) 0x18]) }) ∧
    (s.fld (Fld.HI_RING_CHAIN_TO_TIMEOUT r) = 0 ∨ s.now + dt < a + s.fld (Fld.HI_RING_CHAIN_TO_TIMEOUT r) * tUs →
      ∃ t, exec (.chainTimeout dt r) s = .next t ∧ (s.begun dt).frame t {}))

/-- R364, R382, R383, R384, R393: The oldest TX job that has been read and has its cells becomes a frame of the device: padded to 60 bytes, with its FCS,
with the job's class, colour and destination. A destination that does not exist ends it REFUSED. A failed read ends the oldest waiting job, or the
next entry's, or the chain in progress, with DMA_ERR and skips the rest of the chain; of an entry that was read itself, the completion carries its
TAG, else a free one. The free TAG and the skipping are the model's choices (notes/assumptions/3.md and 31.md). With no job to fetch nothing happens. -/
def Obligations.Fetches : Prop :=
  (∀ (s : State) (dt r : Nat) (bytes : List Byte) (j : Job) (d : Fate), r < 4096 → s.mainUp = true → s.fetchJob r = some j → (s.ring r).jobs = [j] → s.jobFate j = some d →
    cellsFor (max 60 j.total + 4) ≤ j.cells.length →
    ∃ t f, exec (.txFetch dt r bytes) s = .next t ∧ t.frame? s.fab.nextFid = some f ∧
      f.data = withFcs (byteSlice bytes 0 j.total ++ List.replicate (60 - j.total) 0) ∧ f.cells = j.cells ∧ f.owner = 8 ∧ f.dest = d.dest ∧
      f.dstDw = d.dst ∧ f.cls = d.cls.getD j.cls ∧ f.colour = j.colour ∧ f.srcKind = 1 ∧ f.src = r ∧ f.pipe = s.rPipe r ∧
      f.host = some ⟨r, j.num, j.tsReq, j.ptpAct, j.ref, if j.launchEn then some j.launch else none⟩ ∧
      (t.ring r).jobs = [{ j with passed := true, fid := some s.fab.nextFid, cells := [] }] ∧ t.fab.nextFid = s.fab.nextFid + 1 ∧
      (s.begun dt).frame t { parts := [.fab, .free], rings := [r] }) ∧
  (∀ (s : State) (dt r : Nat) (bytes : List Byte) (j : Job), r < 4096 → s.mainUp = true → s.fetchJob r = some j → (s.ring r).jobs = [j] → j.cells = [] →
    j.fid = none → s.jobFate j = none →
      ∃ t, exec (.txFetch dt r bytes) s = .next t ∧ s.onlyJobDone t r j stRefused 7 0 ∧
        t.ctr (Ctr.queue (hostQ r) 0x10) = (s.ctr (Ctr.queue (hostQ r) 0x10) + 1) % 2 ^ 64 ∧
        (s.begun dt).frame t { parts := [.hi], rings := [r], ctrs := (· ∈ [Ctr.queue (hostQ r) 0x10, Ctr.queue (hostQ r) 0x18]) }) ∧
  (∀ (s : State) (dt r : Nat) (bytes : List Byte), r < 4096 → s.mainUp = true → s.fetchJob r = none →
    ∃ t, exec (.txFetch dt r bytes) s = .next t ∧ (s.begun dt).frame t {}) ∧
  (∀ (s : State) (dt r : Nat) (j : Job), r < 4096 → s.mainUp = true → (s.ring r).jobs = [j] → j.ready = true → j.passed = false → j.done = none →
    j.cells = [] → j.fid = none →
    ∃ t, exec (.dmaErr dt ⟨r, []⟩) s = .next t ∧ s.onlyJobDone t r j stDmaErr 0 0 ∧ t.fld (Fld.HI_RING_CTRL_DMA_ERR r) = 1 ∧
      t.fld Fld.HI_INT_STATUS_DMA_ERR = 1 ∧ t.fld Fld.HI_ERR_RING_RING = r ∧ t.ctr (Ctr.hi 0x08) = (s.ctr (Ctr.hi 0x08) + 1) % 2 ^ 64 ∧
      (s.begun dt).frame t { parts := [.hi, .jn], rings := [r],
                             regs := (· ∈ [Reg.HI_RING_CTRL r, Reg.HI_INT_STATUS, Reg.HI_ERR_RING, Reg.CM_INT_STATUS]),
                             ctrs := (· ∈ [Ctr.hi 0x08, Ctr.queue (hostQ r) 0x10, Ctr.queue (hostQ r) 0x18]) }) ∧
  (∀ (s : State) (dt r : Nat), r < 4096 → s.mainUp = true → (s.ring r).jobs = [] →
    (s.entryDue r = false → (s.ring r).cur = none → ∃ t, exec (.dmaErr dt ⟨r, []⟩) s = .next t ∧ (s.begun dt).frame t {}) ∧
    (∀ j, s.entryDue r = false → (s.ring r).cur = some j → (s.ring r).abortAt = [] → j.done = none → j.cells = [] → j.fid = none →
      ∃ t, exec (.dmaErr dt ⟨r, []⟩) s = .next t ∧ s.onlyJobDone t r j stDmaErr 0 0 ∧ (t.ring r).cur = none ∧ (t.ring r).skip = true ∧
        t.fld (Fld.HI_RING_CTRL_DMA_ERR r) = 1 ∧ t.fld Fld.HI_INT_STATUS_DMA_ERR = 1 ∧ t.ctr (Ctr.hi 0x08) = (s.ctr (Ctr.hi 0x08) + 1) % 2 ^ 64) ∧
    (s.entryDue r = true → ∃ t, exec (.dmaErr dt ⟨r, []⟩) s = .next t ∧ (t.ring r).dev = ((s.ring r).dev + 1) % (2 * s.rN r) ∧
      t.fld (Fld.HI_RING_CTRL_DMA_ERR r) = 1 ∧ t.fld Fld.HI_INT_STATUS_DMA_ERR = 1 ∧ t.fld Fld.HI_ERR_RING_RING = r ∧
      (s.rKind r = kindRx → (s.ring r).bufs = [] → ∃ tag, t.waitingOf (s.rCq r) = s.waitingOf (s.rCq r) ++
        [(r, rxEmpty ((s.ring r).dev % s.rN r) tag, stDmaErr, kindRx)]) ∧
      (s.rKind r ≠ kindRx → (s.ring r).cur = none → (s.ring r).abortAt = [] → (t.ring r).skip = true ∧ (t.ring r).jobs = [] ∧
        ∃ tag, t.waitingOf (s.rCq r) = s.waitingOf (s.rCq r) ++
          [(r, [0, 0, w32 ((s.ring r).dev % s.rN r % 2 ^ 16 * 2 ^ 16 + tag)], stDmaErr, s.rKind r)]))) ∧
  (∀ (s : State) (dt r : Nat) (ws : List Word), r < 4096 → ws.length = 8 → s.mainUp = true → s.entryDue r = true → s.rKind r = kindCmd →
    (s.ring r).state = ringEnabled → (s.ring r).abortAt = [] → (s.ring r).cur = none → (s.ring r).jobs = [] → bitsOf (ws.getD 2 0).toNat 30 2 = 3 →
    bitsOf (ws.getD 3 0).toNat 28 4 = 1 → bitsOf (ws.getD 2 0).toNat 16 14 = 64 → (ws.getD 0 0).toNat % 64 = 0 →
    ∃ t, exec (.dmaErr dt ⟨r, ws⟩) s = .next t ∧ (t.ring r).jobs = [] ∧ (t.ring r).dev = ((s.ring r).dev + 1) % (2 * s.rN r) ∧
      t.waitingOf (s.rCq r) = s.waitingOf (s.rCq r) ++
        [(r, [0, 0, w32 ((s.ring r).dev % s.rN r % 2 ^ 16 * 2 ^ 16 + (ws.getD 2 0).toNat % 2 ^ 16)], stDmaErr, kindCmd)] ∧
      t.fld (Fld.HI_RING_CTRL_DMA_ERR r) = 1 ∧ t.fld Fld.HI_INT_STATUS_DMA_ERR = 1 ∧ t.ctr (Ctr.hi 0x08) = (s.ctr (Ctr.hi 0x08) + 1) % 2 ^ 64 ∧
      (s.begun dt).frame t { parts := [.hi], rings := [r], regs := (· ∈ [Reg.HI_RING_CTRL r, Reg.HI_INT_STATUS, Reg.HI_ERR_RING]), ctrs := (· = Ctr.hi 0x08) }) ∧
  (∀ (s : State) (dt r : Nat) (ws : List Word) (a : Job), r < 4096 → ws.length = 8 → s.mainUp = true → s.entryDue r = true → s.rKind r = kindTx →
    (s.ring r).state = ringEnabled → (s.ring r).cur = none → (s.ring r).jobs = [] → (s.ring r).abortAt = [] → bitOf (ws.getD 2 0).toNat 31 = true →
    a.words = (ws.drop 3).take 5 → a.fwd ≠ 3 → a.ptpAct ≠ 3 → a.w 5 % 2 ^ 30 < 1000000000 → (a.fwd ≠ 2 ∨ a.dwEn = false) →
    bitsOf (ws.getD 2 0).toNat 16 14 ≠ 0 → bitsOf (ws.getD 2 0).toNat 16 14 ≤ 10236 →
    bitOf (s.reg (Reg.TW_SGL_RING (r / 32))).toNat (r % 32) = false ∨ (s.begun dt).duty = true →
    ∃ t, exec (.dmaErr dt ⟨r, ws⟩) s = .next t ∧ (t.ring r).jobs = [] ∧ (t.ring r).cur = none ∧ (t.ring r).skip = !(bitOf (ws.getD 2 0).toNat 30) ∧
      t.waitingOf (s.rCq r) = s.waitingOf (s.rCq r) ++
        [(r, [0, 0, w32 ((s.ring r).dev % s.rN r % 2 ^ 16 * 2 ^ 16 + (ws.getD 2 0).toNat % 2 ^ 16)], stDmaErr, kindTx)] ∧
      t.fld (Fld.HI_RING_CTRL_DMA_ERR r) = 1 ∧ t.ctr (Ctr.hi 0x08) = (s.ctr (Ctr.hi 0x08) + 1) % 2 ^ 64 ∧
      t.ctr (Ctr.queue (hostQ r) 0x10) = (s.ctr (Ctr.queue (hostQ r) 0x10) + 1) % 2 ^ 64)

/-- R376, R378, R391, R520: On a ring that is no enabled submission ring the result is BAD_RING, for an index beyond the ring NOT_OWNED. An entry not yet
read is marked, and its job ends ABORTED when it is read; a chain in progress, a job read and not yet past its completion point and an unused buffer
complete ABORTED, a job behind older ones; a job that has ended or passed gives NOTHING, as does an index whose entry the device has taken before;
another is NOT_OWNED. An unread entry that is then skipped as one of a job that has ended gives NOTHING, and makes a job whose error was held back for
it end ABORTED instead: what an unread entry holds is known only when it is read (the model's reading, notes/assumptions/31.md). While GO reads 1 a
new abort only sets OVERRUN. -/
def Obligations.Aborts : Prop :=
  (∀ (s : State) (dt r idx : Nat), r < 4096 → idx < 0x10000 → s.mainUp = true → (s.begun dt).busy (Reg.HI_RING_ABORT r) = true →
    ∃ t, exec (.ringAbort dt r idx) s = .next t ∧ t.fld (Fld.HI_RING_ABORT_OVERRUN r) = 1 ∧
      (s.begun dt).frame t { regs := (· = Reg.HI_RING_ABORT r) }) ∧
  (∀ (s : State) (dt r idx : Nat), r < 4096 → idx < 0x10000 → s.mainUp = true → (s.begun dt).busy (Reg.HI_RING_ABORT r) = false →
    ((s.rSubmits r = false ∨ s.rOn r = false) → ∃ t, exec (.ringAbort dt r idx) s = .next t ∧ t.fld (Fld.HI_RING_ABORT_RESULT r) = abBadRing ∧
      (s.begun dt).frame t { parts := [.goBusy, .free], regs := (· = Reg.HI_RING_ABORT r) }) ∧
    (s.rSubmits r = true → s.rOn r = true → s.rN r ≤ idx →
      ∃ t, exec (.ringAbort dt r idx) s = .next t ∧ t.fld (Fld.HI_RING_ABORT_RESULT r) = abNotOwned ∧ t.fld (Fld.HI_RING_ABORT_INDEX r) = idx ∧
        (s.begun dt).frame t { parts := [.goBusy, .free], regs := (· = Reg.HI_RING_ABORT r) }) ∧
    (s.rSubmits r = true → s.rOn r = true → idx < s.rN r →
      (idx + s.rN r - (s.ring r).dev % s.rN r) % s.rN r < posDiff (s.rN r) (s.ring r).host (s.ring r).dev →
      ∃ t, exec (.ringAbort dt r idx) s = .next t ∧ t.fld (Fld.HI_RING_ABORT_RESULT r) = abAborted ∧
        t.ring r = { s.ring r with abortAt := idx :: (s.ring r).abortAt } ∧
        (s.begun dt).frame t { parts := [.goBusy, .free], rings := [r], regs := (· = Reg.HI_RING_ABORT r) })) ∧
  (∀ (s : State) (dt r idx : Nat) (j : Job), r < 4096 → idx < 0x10000 → s.mainUp = true → (s.begun dt).busy (Reg.HI_RING_ABORT r) = false →
    s.rSubmits r = true → s.rOn r = true → idx < s.rN r →
    posDiff (s.rN r) (s.ring r).host (s.ring r).dev ≤ (idx + s.rN r - (s.ring r).dev % s.rN r) % s.rN r → (s.ring r).cur = none → j.covers (s.rN r) idx = true →
    j.cells = [] → j.fid = none →
    ((s.ring r).jobs = [j] → j.done = none → s.jobPassed r j = false →
      ∃ t, exec (.ringAbort dt r idx) s = .next t ∧ t.fld (Fld.HI_RING_ABORT_RESULT r) = abAborted ∧ s.onlyJobDone t r j stAborted 0 0 ∧
        (s.begun dt).frame t { parts := [.goBusy, .free, .hi, .jn], rings := [r], regs := (· ∈ [Reg.HI_RING_ABORT r, Reg.CM_INT_STATUS]),
                               ctrs := (· ∈ [Ctr.queue (hostQ r) 0x10, Ctr.queue (hostQ r) 0x18]) }) ∧
    (∀ j0, (s.ring r).jobs = [j0, j] → j0.done = none → j0.num ≠ j.num → j.done = none → s.jobPassed r j = false →
      ∃ t, exec (.ringAbort dt r idx) s = .next t ∧ t.fld (Fld.HI_RING_ABORT_RESULT r) = abAborted ∧
        (t.ring r).jobs = [j0, { j with done := some (stAborted, 0, 0, 0) }] ∧ t.hi.waiting = s.hi.waiting) ∧
    ((s.ring r).jobs = [j] → (j.done ≠ none ∨ s.jobPassed r j = true) →
      ∃ t, exec (.ringAbort dt r idx) s = .next t ∧ t.fld (Fld.HI_RING_ABORT_RESULT r) = abNothing ∧
        (s.begun dt).frame t { parts := [.goBusy, .free], regs := (· = Reg.HI_RING_ABORT r) })) ∧
  (∀ (s : State) (dt r idx : Nat) (j : Job), r < 4096 → idx < 0x10000 → s.mainUp = true → (s.begun dt).busy (Reg.HI_RING_ABORT r) = false →
    s.rSubmits r = true → s.rOn r = true → idx < s.rN r →
    posDiff (s.rN r) (s.ring r).host (s.ring r).dev ≤ (idx + s.rN r - (s.ring r).dev % s.rN r) % s.rN r → (s.ring r).jobs = [] →
    ((s.ring r).cur = some j → j.covers (s.rN r) idx = true → j.cells = [] → j.fid = none → j.done = none →
      ∃ t, exec (.ringAbort dt r idx) s = .next t ∧ t.fld (Fld.HI_RING_ABORT_RESULT r) = abAborted ∧ s.onlyJobDone t r j stAborted 0 0 ∧
        (t.ring r).cur = none ∧ (t.ring r).skip = true) ∧
    (∀ a l tag, (s.ring r).cur = none → (s.ring r).bufs = [(a, l, tag, idx)] → l ≠ 0 →
      ∃ t, exec (.ringAbort dt r idx) s = .next t ∧ t.fld (Fld.HI_RING_ABORT_RESULT r) = abAborted ∧ (t.ring r).bufs = [] ∧
        t.waitingOf (s.rCq r) = s.waitingOf (s.rCq r) ++ [(r, rxEmpty idx tag, stAborted, kindRx)]) ∧
    ((s.ring r).cur = none → (s.ring r).bufs = [] →
      ∃ t, exec (.ringAbort dt r idx) s = .next t ∧
        t.fld (Fld.HI_RING_ABORT_RESULT r) = (if idx < (s.ring r).taken then abNothing else abNotOwned) ∧
        (s.begun dt).frame t { parts := [.goBusy, .free], regs := (· = Reg.HI_RING_ABORT r) })) ∧
  (∀ (s : State) (dt r : Nat) (ws : List Word) (pl : List Byte), r < 4096 → ws.length = 8 → s.mainUp = true → s.entryDue r = true → s.rKind r ≠ kindRx →
    (s.ring r).state = ringEnabled → (s.ring r).cur = none → (s.ring r).jobs = [] → bitOf (ws.getD 2 0).toNat 31 = true →
    (s.ring r).dev % s.rN r ∈ (s.ring r).abortAt →
    ∃ t, exec (.entryRead dt r ws pl) s = .next t ∧ (t.ring r).jobs = [] ∧ (t.ring r).skip = !(bitOf (ws.getD 2 0).toNat 30) ∧
      (s.ring r).dev % s.rN r ∉ (t.ring r).abortAt ∧
      t.waitingOf (s.rCq r) = s.waitingOf (s.rCq r) ++
        [(r, [0, 0, w32 ((s.ring r).dev % s.rN r % 2 ^ 16 * 2 ^ 16 + (ws.getD 2 0).toNat % 2 ^ 16)], stAborted, s.rKind r)]) ∧
  (∀ (s : State) (dt r : Nat) (ws : List Word) (pl : List Byte), r < 4096 → ws.length = 8 → s.mainUp = true → s.entryDue r = true → s.rKind r ≠ kindRx →
    (s.ring r).skip = true → bitOf (ws.getD 2 0).toNat 31 = false →
    ((s.ring r).held = none → (s.ring r).dev % s.rN r ∈ (s.ring r).abortAt → s.fld (Fld.HI_RING_ABORT_INDEX r) = (s.ring r).dev % s.rN r →
      s.fld (Fld.HI_RING_ABORT_RESULT r) = abAborted →
      ∃ t, exec (.entryRead dt r ws pl) s = .next t ∧ t.fld (Fld.HI_RING_ABORT_RESULT r) = abNothing ∧ (t.ring r).jobs = (s.ring r).jobs ∧
        (t.ring r).skip = !(bitOf (ws.getD 2 0).toNat 30) ∧ (s.begun dt).frame t { rings := [r], regs := (· = Reg.HI_RING_ABORT r) }) ∧
    (∀ (j : Job) (st : Nat), (s.ring r).jobs = [j] → (s.ring r).held = some (j.num, st) → j.done = none → j.cells = [] → j.fid = none →
      bitOf (ws.getD 2 0).toNat 30 = true →
      ∃ t, exec (.entryRead dt r ws pl) s = .next t ∧ (t.ring r).held = none ∧ (t.ring r).skip = false ∧
        s.onlyJobDone t r j (if (s.ring r).dev % s.rN r ∈ (s.ring r).abortAt then stAborted else st) 0 0))

/-- R373, R377, R379, R380, R386, R387: The oldest completion that waits for an enabled CQ with room is written at the device's position with the PHASE of
its lap, one entry after another; without room, or while the function may send nothing, it waits. When MOD_US has passed since the first entry that no
message covers, the CQ's message goes out or is kept pending. A copy in a pipeline's copy queue is written into the ring's buffer with its two-entry
record; to a ring that is not an enabled RX ring it is lost and counted; while the buffers it needs are unread it waits. -/
def Obligations.Completions : Prop :=
  (∀ (s : State) (dt cq r st kind : Nat) (a b c : Word) (rest : List (Nat × List Word × Nat × Nat)), cq < 4096 → s.mainUp = true →
    s.pciRuns = true → s.waitingOf cq = (r, [a, b, c], st, kind) :: rest → s.rOn cq = true → s.rKind cq = kindCq → 1 ≤ s.rFree cq →
    ∃ t, exec (.completionWrite dt cq) s = .next t ∧ t.waitingOf cq = rest ∧ (t.ring cq).dev = ((s.ring cq).dev + 1) % (2 * s.rN cq) ∧
      (t.ring cq).host = (s.ring cq).host ∧
      (t.ring cq).u = (if s.rCfg2 cq 31 1 = 1 ∧ (max (s.rCfg2 cq 8 8) 1 ≤ (s.ring cq).u + 1 ∨ s.rCfg2 cq 0 8 = 0) then 0 else (s.ring cq).u + 1) ∧
      t.out.filter (fun e => !e.isMsix) = OutEv.dma (s.rBase cq + (s.ring cq).dev % s.rN cq * 16)
        (wordsLe [a, b, c, w32 ((1 - (s.ring cq).dev / s.rN cq % 2) * 2 ^ 31 + st * 2 ^ 24 + 0 * 2 ^ 22 + kind * 2 ^ 18 + r)]) ::
        s.out.filter (fun e => !e.isMsix) ∧
      (s.begun dt).frame t { parts := [.hi, .out], rings := [cq] }) ∧
  (∀ (s : State) (dt cq r st kind : Nat) (ws : List Word) (rest : List (Nat × List Word × Nat × Nat)), cq < 4096 → s.mainUp = true →
    s.pciRuns = true → s.waitingOf cq = (r, ws, st, kind) :: rest → ws.length = 6 → s.rOn cq = true → s.rKind cq = kindCq → 2 ≤ s.rFree cq →
    ∃ t, exec (.completionWrite dt cq) s = .next t ∧ t.waitingOf cq = rest ∧ (t.ring cq).dev = ((s.ring cq).dev + 2) % (2 * s.rN cq) ∧
      (t.out.filter (fun e => !e.isMsix)).length = (s.out.filter (fun e => !e.isMsix)).length + 2) ∧
  (∀ (s : State) (dt cq : Nat), cq < 4096 → s.mainUp = true → (s.pciRuns = false ∨ s.waitingOf cq = [] ∨ s.rOn cq = false ∨ s.rKind cq ≠ kindCq ∨
      (∃ e ∈ (s.waitingOf cq).take 1, s.rFree cq < (e.2.1.length + 2) / 3)) →
    ∃ t, exec (.completionWrite dt cq) s = .next t ∧ (s.begun dt).frame t {}) ∧
  (∀ (s : State) (dt cq : Nat), cq < 4096 → s.mainUp = true → s.rOn cq = true → 3 ≤ s.rKind cq → s.rCfg2 cq 31 1 = 1 → 0 < (s.ring cq).u →
    ((s.ring cq).uAt + s.rCfg2 cq 0 8 * tUs ≤ s.now + dt →
      ∃ t, exec (.cqModTimeout dt cq) s = .next t ∧ t.ring cq = { s.ring cq with u := 0 } ∧
        (s.rCfg2 cq 16 11 ∉ (s.begun dt).raised → bitOf (SMap.get msixReset s.hi.table (4 * s.rCfg2 cq 16 11 + 3)).toNat 0 = false → s.msixOpen = true →
          t.out.count (.msix (s.rCfg2 cq 16 11)) = s.out.count (.msix (s.rCfg2 cq 16 11)) + 1) ∧
        (bitOf (SMap.get msixReset s.hi.table (4 * s.rCfg2 cq 16 11 + 3)).toNat 0 = true ∨ s.msixOpen = false → s.rCfg2 cq 16 11 ∈ t.hi.pba) ∧
        (s.begun dt).frame t { rings := [cq] }) ∧
    (s.now + dt < (s.ring cq).uAt + s.rCfg2 cq 0 8 * tUs → ∃ t, exec (.cqModTimeout dt cq) s = .next t ∧ (s.begun dt).frame t {})) ∧
  (∀ (s : State) (dt i r a l tag idx : Nat) (x : QEnt) (rest : List QEnt) (f : Frame), i < 72 → r < 4096 → s.mainUp = true → s.pciRuns = true → f.host = none →
    s.queue (copyQueue i) = x :: rest → x.port = 4096 + r → s.frame? x.fid = some f →
    (s.rOn r = true → s.rKind r = kindRx → (s.ring r).bufs = [(a, l, tag, idx)] → s.snapLen r x.data.length ≤ l → 0 < s.snapLen r x.data.length →
      s.rOn (s.rCq r) = true → s.rKind (s.rCq r) = kindCq → 2 ≤ s.rFree (s.rCq r) → (∀ e ∈ s.waitingOf (s.rCq r), e.1 ≠ r) →
      ∃ t m n, exec (.rxCopyWrite dt i) s = .next t ∧ t.queue (copyQueue i) = rest ∧ (t.ring r).bufs = [] ∧
        t.out.filter (fun e => !e.isMsix) = n :: m :: .dma a (x.data.take (s.snapLen r x.data.length)) :: s.out.filter (fun e => !e.isMsix) ∧
        (∃ w, m = .dma (s.rBase (s.rCq r) + (s.ring (s.rCq r)).dev % s.rN (s.rCq r) * 16)
          (wordsLe ((rxWords f x (s.snapLen r x.data.length) 1 tag idx).take 3 ++ [w]))) ∧
        (t.ring (s.rCq r)).dev = ((s.ring (s.rCq r)).dev + 2) % (2 * s.rN (s.rCq r)) ∧
        t.ctr (Ctr.hi 0x18) = (s.ctr (Ctr.hi 0x18) + 1) % 2 ^ 64 ∧ (∀ q, q ≠ r → q ≠ s.rCq r → t.ring q = s.ring q) ∧
        (∀ q, q ≠ copyQueue i → t.queue q = s.queue q)) ∧
    ((s.rOn r = false ∨ s.rKind r ≠ kindRx) →
      ∃ t, exec (.rxCopyWrite dt i) s = .next t ∧ t.queue (copyQueue i) = rest ∧
        t.ctr (Ctr.queue (hostQ r) 0x10) = (s.ctr (Ctr.queue (hostQ r) 0x10) + 1) % 2 ^ 64 ∧
        t.out.filter (fun e => !e.isMsix) = s.out.filter (fun e => !e.isMsix) ∧ (∀ q, t.ring q = s.ring q)) ∧
    (s.rOn r = true → s.rKind r = kindRx → (s.ring r).bufs = [] → 0 < s.snapLen r x.data.length → (s.ring r).dev ≠ (s.ring r).host →
      ∃ t, exec (.rxCopyWrite dt i) s = .next t ∧ (s.begun dt).frame t {})) ∧
  (∀ (s : State) (dt i : Nat), i < 72 → s.mainUp = true → s.queue (copyQueue i) = [] ∨ s.pciRuns = false →
    ∃ t, exec (.rxCopyWrite dt i) s = .next t ∧ (s.begun dt).frame t {})

/-- R440, R444, R445, R446, R447, R448, R468, R469, R470, R504: Whatever the verdict on the image: VERIFY completes with the failing check's status and
offset, or OK; FLASH with an image that passes erases, programs and reads back the slot not booted, and completes OK where the read-back holds, else
as a flash failure; APPLY of one that passes boots from it in WAIT_IMAGE, completes at once where no region differs, and is refused where LANE, CLK or
CG differ. ATTEST without an identity completes NO_ID, with too small a buffer BUF_SHORT; else it counts, writes report and signature, and completes
OK. With no such job, or while an image is being verified or a job of another ring has waited longer, nothing happens (what counts as being verified
is the model's reading, notes/assumptions/33.md). -/
def Obligations.ImagesAndReports : Prop :=
  (∀ (s : State) (dt r tag : Nat) (im : List Byte) (j : Job), r < 4096 → tag < 0x10000 → s.mainUp = true → s.loadJob r tag 1 = some j → (s.ring r).jobs = [j] →
    ∃ t, exec (.imageLoadVerify dt r tag im) s = .next t ∧
      (match s.loadCheck j (byteSlice im 0 j.total) with
        | some e => s.onlyJobDone t r j e.1 e.2 0
        | none => s.onlyJobDone t r j ilOk 0 0) ∧
      (s.begun dt).frame t { parts := [.hi, .jn], rings := [r], regs := (· = Reg.CM_INT_STATUS) }) ∧
  (∀ (s : State) (dt r tag : Nat) (im : List Byte) (q0 q1 : Nat) (ok : Bool) (j : Job), r < 4096 → tag < 0x10000 → s.mainUp = true → s.loadJob r tag 2 = some j →
    (s.ring r).jobs = [j] →
    ∃ t, exec (.imageLoadFlash dt r tag im ⟨q0, q1, ok⟩) s = .next t ∧
      (match s.loadCheck j (byteSlice im 0 j.total) with
        | some e => s.onlyJobDone t r j e.1 e.2 0 ∧ t.bt = s.bt ∧ t.out.filter (fun e => !e.isMsix) = s.out.filter (fun e => !e.isMsix)
        | none => t.out.filter (fun e => !e.isMsix) =
            (s.flashOps (s.flashSlot q0 q1) (byteSlice im 0 j.total)).reverse ++ s.out.filter (fun e => !e.isMsix) ∧
          (ok = true → s.onlyJobDone t r j ilOk 0 0 ∧ t.slotImage (s.flashSlot q0 q1) = byteSlice im 0 j.total ∧
            t.slotImage (1 - s.flashSlot q0 q1) = s.slotImage (1 - s.flashSlot q0 q1)) ∧
          (ok = false → s.onlyJobDone t r j 0x56 0 0 ∧ t.bt = s.bt)) ∧
      (s.begun dt).frame t { parts := [.hi, .jn, .bt, .out], rings := [r], regs := (· = Reg.CM_INT_STATUS) }) ∧
  (∀ (s : State) (dt r tag : Nat) (im : List Byte) (j : Job), r < 4096 → tag < 0x10000 → s.mainUp = true → s.loadJob r tag 0 = some j → (s.ring r).jobs = [j] →
    ∃ t, exec (.imageLoadApply dt r tag im) s = .next t ∧
      (match s.loadCheck j (byteSlice im 0 j.total) with
        | some e => s.onlyJobDone t r j e.1 e.2 0 ∧
          (s.begun dt).frame t { parts := [.hi, .jn], rings := [r], regs := (· = Reg.CM_INT_STATUS) }
        | none =>
          (s.stage = stWait → t.stage = stDomains ∧ (t.ring r).jobs = [j] ∧ t.bt.image = byteSlice im 0 j.total ∧
            (∀ k, 1 ≤ k → k ≤ 7 → t.region k = payload (byteSlice im 0 j.total) k) ∧ t.isl.pair = leNat (byteSlice (payload (byteSlice im 0 j.total) 6) 0 2) % 16 ∧
            t.reg Reg.GL_IMAGE_SEQ = w32 (imgSeq (byteSlice im 0 j.total))) ∧
          (s.stage ≠ stWait → s.bt.regions = [] → s.onlyJobDone t r j ilBusy 0 0) ∧
          (s.stage ≠ stWait → s.bt.regions ≠ [] → (∃ k, k ∈ [1, 6, 7] ∧ payload (byteSlice im 0 j.total) k ≠ s.region k) →
            s.onlyJobDone t r j 0x53 0 0 ∧ t.bt = s.bt) ∧
          (s.stage ≠ stWait → s.bt.regions ≠ [] → (∀ k, 1 ≤ k → k ≤ 7 → payload (byteSlice im 0 j.total) k = s.region k) →
            s.onlyJobDone t r j ilOk 0 0 ∧ t.bt = s.bt))) ∧
  (∀ (s : State) (dt r tag : Nat) (im : List Byte) (q0 q1 : Nat) (ok : Bool), r < 4096 → tag < 0x10000 → s.mainUp = true →
    (s.loadJob r tag 0 = none → ∃ t, exec (.imageLoadApply dt r tag im) s = .next t ∧ (s.begun dt).frame t {}) ∧
    (s.loadJob r tag 1 = none → ∃ t, exec (.imageLoadVerify dt r tag im) s = .next t ∧ (s.begun dt).frame t {}) ∧
    (s.loadJob r tag 2 = none → ∃ t, exec (.imageLoadFlash dt r tag im ⟨q0, q1, ok⟩) s = .next t ∧ (s.begun dt).frame t {})) ∧
  (∀ (s : State) (dt r : Nat) (j : Job), r < 4096 → s.mainUp = true → s.attestJob r = some j → (s.ring r).jobs = [j] →
    (s.secState = 0 ∨ s.secState = 3 ∨ blankSecret s.sg.seed = true → ∃ t, exec (.attest dt r) s = .next t ∧
      s.onlyJobDone t r j 0x61 0 (s.sg.mono % 2 ^ 32) ∧ (s.begun dt).frame t { parts := [.hi], rings := [r] }) ∧
    (s.secState ≠ 0 → s.secState ≠ 3 → blankSecret s.sg.seed = false → j.w 6 % 2 ^ 16 < 17344 → ∃ t, exec (.attest dt r) s = .next t ∧
      s.onlyJobDone t r j 0x62 0 (s.sg.mono % 2 ^ 32) ∧ (s.begun dt).frame t { parts := [.hi], rings := [r] }) ∧
    (s.secState ≠ 0 → s.secState ≠ 3 → blankSecret s.sg.seed = false → 17344 ≤ j.w 6 % 2 ^ 16 → j.payload.length = 32 →
      ∃ t b sig, exec (.attest dt r) s = .next t ∧ s.onlyJobDone t r j 0x60 17344 ((s.sg.mono + 1) % 2 ^ 64 % 2 ^ 32) ∧
        t.sg.mono = (s.sg.mono + 1) % 2 ^ 64 ∧
        t.out.filter (fun e => !e.isMsix) = .dma (j.w 5 * 2 ^ 32 + j.w 4) (b ++ sig) :: s.out.filter (fun e => !e.isMsix) ∧ sig.length = 17088 ∧
        b.take 5 = [0x41, 0x54, 0x53, 0x54, 1] ∧ u8 b 5 = s.secState % 256 ∧ u8 b 6 = s.dbgLevel % 256 ∧ byteSlice b 16 32 = j.payload ∧
        (s.begun dt).frame t { parts := [.hi, .out, .sg], rings := [r] })) ∧
  (∀ (s : State) (dt r : Nat), r < 4096 → s.mainUp = true → s.attestJob r = none → ∃ t, exec (.attest dt r) s = .next t ∧ (s.begun dt).frame t {}) ∧
  (∀ (s : State) (r q : Nat) (j k : Job), s.attestWaits r = some j → s.verifying = true ∨
    ((q, s.ring q) ∈ s.hi.rings ∧ s.attestWaits q = some k ∧ (k.readyAt < j.readyAt ∨ (k.readyAt = j.readyAt ∧ q < r))) → s.attestJob r = none)

/-! ### Boot, Signet, Loupe, power and resets (chapters 15 to 17) -/

/-- R439, R440, R441, R442, R443, R451, R504: The end of ROM leads to READ, HELD or WAIT_IMAGE as BOOT_SRC says; RELEASE goes on from HELD. Of the flash
slots whose headers pass, the one with the higher SEQ is verified, slot 0 where both are equal; with none the boot waits. Whatever the verdict: an
image that passes is applied and DOMAINS follows; one that fails leaves its status in its slot, and the other slot is read or the boot waits. DOMAINS
leads to DEFAULTS; its records write their registers, one or a run of them, and a table command that fails leaves the status 0x52; after the boot
commit SELFTEST follows, and the self-test keeps its failing banks, opens the receive paths where the image asks for it, and calibrates. In any other
stage each of these does nothing. -/
def Obligations.BootStages : Prop :=
  (∀ (s : State) (dt : Nat), s.mainUp = true →
    (s.stage = stHeld → ∃ t, exec (.bootRelease dt) s = .next t ∧ t.stage = stRead ∧ t.fld Fld.GL_INT_STATUS_STAGE_CHG = 1 ∧
      (s.begun dt).frame t { regs := (· ∈ [Reg.GL_BOOT_STATUS, Reg.GL_INT_STATUS]) }) ∧
    (s.stage ≠ stHeld → ∃ t, exec (.bootRelease dt) s = .next t ∧ (s.begun dt).frame t {})) ∧
  (∀ (s : State) (dt : Nat), s.mainUp = true →
    (s.stage = stRom → s.rst.aonReady = true → s.secState ≠ 3 → ∃ t, exec (.bootRomDone dt) s = .next t ∧
      t.stage = (if s.fld Fld.GL_BOOT_STATUS_BOOT_SRC = 0 then stRead else if s.fld Fld.GL_BOOT_STATUS_BOOT_SRC = 2 then stHeld else stWait) ∧
      t.fld Fld.GL_INT_STATUS_STAGE_CHG = 1 ∧ (t.stage = stWait → t.fld Fld.GL_INT_STATUS_WAIT_IMAGE = 1) ∧
      (s.begun dt).frame t { regs := (· ∈ [Reg.GL_BOOT_STATUS, Reg.GL_INT_STATUS]) }) ∧
    (s.stage ≠ stRom ∨ s.rst.aonReady = false ∨ s.secState = 3 → ∃ t, exec (.bootRomDone dt) s = .next t ∧ (s.begun dt).frame t {})) ∧
  (∀ (s : State) (dt : Nat) (b0 b1 : List Byte), s.mainUp = true → s.stage = stRead → s.slotTried 0 = false → s.slotTried 1 = false →
    ∃ t, exec (.flashReadDone dt b0 b1) s = .next t ∧ t.bt.slot0 = b0 ∧ t.bt.slot1 = b1 ∧
      (s.slotOk b0 = false → s.slotOk b1 = false → t.stage = stWait ∧ t.fld Fld.GL_INT_STATUS_WAIT_IMAGE = 1) ∧
      (s.slotOk b0 = true → (s.slotOk b1 = false ∨ imgSeq b1 ≤ imgSeq b0) → t.stage = stVerify ∧ t.bt.source = 0 ∧
        t.bt.image = byteSlice b0 0 (slotBytesOf b0) ∧
        t.out.filter (fun e => !e.isMsix) = .spi 0xEC 0 (slotBytesOf b0) [] :: (headerReads.reverse ++ s.out.filter (fun e => !e.isMsix))) ∧
      (s.slotOk b1 = true → (s.slotOk b0 = false ∨ imgSeq b0 < imgSeq b1) → t.stage = stVerify ∧ t.bt.source = 1 ∧
        t.bt.image = byteSlice b1 0 (slotBytesOf b1)) ∧
      (s.begun dt).frame t { parts := [.bt, .out], regs := (· ∈ [Reg.GL_BOOT_STATUS, Reg.GL_INT_STATUS]) }) ∧
  (∀ (s : State) (dt : Nat) (b0 b1 : List Byte), s.mainUp = true → s.stage ≠ stRead →
    ∃ t, exec (.flashReadDone dt b0 b1) s = .next t ∧ (s.begun dt).frame t {}) ∧
  (∀ (s : State) (dt : Nat), s.mainUp = true → s.stage = stVerify → s.bt.source = 0 → s.slotCand 1 = false →
    ∃ t, exec (.verifyDone dt) s = .next t ∧
      (match s.imgCheck s.bt.image s.bt.image.length with
        | some e => t.stage = stWait ∧ t.fld Fld.GL_INT_STATUS_SLOT_FAIL = 1 ∧ t.fld Fld.GL_INT_STATUS_WAIT_IMAGE = 1 ∧ t.bt = s.bt ∧ t.isl = s.isl ∧
          t.fld Fld.GL_BOOT_STATUS_SLOT0_STATUS = e.1 % 128
        | none => t.stage = stDomains ∧ t.fld Fld.GL_BOOT_STATUS_SLOT0_STATUS = ilOk ∧ (∀ k, 1 ≤ k → k ≤ 7 → t.region k = payload s.bt.image k) ∧
          t.isl.pair = leNat (byteSlice (payload s.bt.image 6) 0 2) % 16 ∧ t.isl.pg = leNat (byteSlice (payload s.bt.image 6) 0 2) / 16)) ∧
  (∀ (s : State) (dt : Nat), s.mainUp = true → s.stage = stVerify → s.bt.source = 1 → s.slotCand 0 = true →
    ∃ t, exec (.verifyDone dt) s = .next t ∧ (∀ e, s.imgCheck s.bt.image s.bt.image.length = some e → t.stage = stRead ∧ t.bt = s.bt)) ∧
  (∀ (s : State) (dt : Nat), s.mainUp = true → s.stage ≠ stVerify → ∃ t, exec (.verifyDone dt) s = .next t ∧ (s.begun dt).frame t {}) ∧
  (∀ (s : State) (dt : Nat), s.mainUp = true →
    (s.stage = stDomains → ∃ t, exec (.domainsDone dt) s = .next t ∧ t.stage = stDefaults ∧
      (s.begun dt).frame t { regs := (· ∈ [Reg.GL_BOOT_STATUS, Reg.GL_INT_STATUS]) }) ∧
    (s.stage ≠ stDomains → ∃ t, exec (.domainsDone dt) s = .next t ∧ (s.begun dt).frame t {})) ∧
  (∀ (s : State) (dt : Nat), s.mainUp = true →
    (s.stage = stDefaults → payload s.bt.image 8 = [] → ∃ t, exec (.defaultsDone dt) s = .next t ∧ t.stage = stSelftest ∧
      (∀ a u, unitOf a = some u → 12 ≤ u → u < 19 → u ≠ 17 → t.actReg a = s.reg a) ∧ t.bt.reload = none ∧
      (s.bt.reload = none → s.bt.source = 0 → t.fld Fld.GL_BOOT_STATUS_SLOT0_STATUS = ilOk)) ∧
    (s.stage ≠ stDefaults → ∃ t, exec (.defaultsDone dt) s = .next t ∧ (s.begun dt).frame t {})) ∧
  (∀ (s : State) (dt a n : Nat) (w : Word), s.mainUp = true → s.stage = stDefaults → 1 ≤ n → n ≤ 65536 → 0x400000 ≤ a → a + 4 * n ≤ 0x600000 → a % 4 = 0 →
    (∀ i, i < n → s.absent (a + 4 * i) = false ∧ (regAt (a + 4 * i)).isSome = true ∧ (fieldsAt (a + 4 * i)).all (fun f => decide (f.ty = .rw)) = true) →
    (payload s.bt.image 8 = leBytes 4 0x03000003 ++ leBytes 4 a ++ leBytes 4 n ++ leBytes 4 w.toNat ∨
      (n = 1 ∧ payload s.bt.image 8 = leBytes 4 0x01000002 ++ leBytes 4 a ++ leBytes 4 w.toNat ++ [0, 0, 0, 0])) →
    ∃ t, exec (.defaultsDone dt) s = .next t ∧ t.stage = stSelftest ∧
      (∀ i k, i < n → k < 32 → bitOf (t.reg (a + 4 * i)).toNat k =
        if bitOf (fieldMask (fieldsAt (a + 4 * i)) (fun t => decide (t = .rw))) k then bitOf w.toNat k else bitOf (s.reg (a + 4 * i)).toNat k)) ∧
  (∀ (s : State) (dt : Nat) (ws : List Word), s.mainUp = true → s.stage = stDefaults → ws.length = 8 → (⟨ws⟩ : TC).op = 1 → 6 ≤ (⟨ws⟩ : TC).table →
    s.planeOn (⟨ws⟩ : TC).plane = true → (⟨ws⟩ : TC).bcast = false → s.bt.reload = none → s.bt.source = 0 →
    payload s.bt.image 8 = leBytes 4 0x02000008 ++ wordsLe ws ++ [0, 0, 0, 0] →
    ∃ t, exec (.defaultsDone dt) s = .next t ∧ t.stage = stSelftest ∧ t.fld Fld.GL_BOOT_STATUS_SLOT0_STATUS = 0x52) ∧
  (∀ (s : State) (dt : Nat) (failing : Word), s.mainUp = true →
    (s.stage = stSelftest → ∃ t, exec (.selftestDone dt failing) s = .next t ∧ t.stage = stCal ∧ t.reg Reg.FB_TEST_FAIL = failing ∧
      t.fab.calAt = some (s.now + dt) ∧ bitOf t.reasons 1 = true ∧
      (s.isl.keep = false → s.fld Fld.GL_BOOT_STATUS_EARLY_FWD = 1 → t.isl.rxOpen = true) ∧
      (s.fld Fld.GL_BOOT_STATUS_EARLY_FWD = 0 → t.isl = s.isl)) ∧
    (s.stage ≠ stSelftest → ∃ t, exec (.selftestDone dt failing) s = .next t ∧ (s.begun dt).frame t {}))

/-- R456, R457, R459, R460, R462, R463, R464, R465, R466, R467, R481, R483: While SG_CMD is busy a command is an overrun; CMD_DONE shows from the time on
at which GO clears. A token refused leaves the fuses and the level, counts, and shows the check's result; the seed is cleared and a new nonce drawn. A
token that passes acts as its KIND says. ADVANCE_SVN raises the count to the image's SVN; over Loupe and I2C, or retired, it is turned away.
DEBUG_END, the end of Inspect and a cleared OBSERVE end a session; OBSERVE enters it. POP discards the oldest trace entry. A snapshot copies 512
counters at any level but None. -/
def Obligations.SignetCommands : Prop :=
  (∀ (s : State) (dt : Nat) (ini : Initiator) (ok : Bool), s.mainUp = true → (s.begun dt).busy Reg.SG_CMD = true →
    (s.reaches ini Reg.SG_CMD 0 = true → ∃ t, exec (.token dt ini ok) s = .next t ∧ t.fld Fld.SG_CMD_OVERRUN = 1 ∧
      ((s.begun dt).i2cDone ini Reg.SG_CMD).frame t { regs := (· = Reg.SG_CMD) }) ∧
    (s.reaches ini Reg.SG_CMD 0x20000000 = true → ∃ t, exec (.advanceSvn dt ini ok) s = .next t ∧ t.fld Fld.SG_CMD_OVERRUN = 1 ∧
      ((s.begun dt).i2cDone ini Reg.SG_CMD).frame t { regs := (· = Reg.SG_CMD) }) ∧
    (s.reaches ini Reg.SG_CMD 0x40000000 = true → ∃ t, exec (.debugEnd dt ini) s = .next t ∧ t.fld Fld.SG_CMD_OVERRUN = 1 ∧
      ((s.begun dt).i2cDone ini Reg.SG_CMD).frame t { regs := (· = Reg.SG_CMD) })) ∧
  (∀ (s : State) (dt : Nat) (ini : Initiator) (ok : Bool), s.mainUp = true → s.reaches ini Reg.SG_CMD 0 = true → (s.begun dt).busy Reg.SG_CMD = false →
    ∃ t, exec (.token dt ini ok) s = .next t ∧ (∀ i, i < 8 → t.reg (Reg.SG_SEED i) = 0) ∧
      (∀ c, s.tokenCheck ini s.tokenBytes = c → c ≠ rcOk → t.fld Fld.SG_CMD_RESULT = c ∧ t.sg = { s.sg with doneAt := some (t.goEnd Reg.SG_CMD) } ∧
        t.fld Fld.SG_INT_STATUS_TOKEN_REFUSED = 1 ∧ t.ctr 0x2780000 = (s.ctr 0x2780000 + 1) % 2 ^ 64 ∧
        ((s.begun dt).i2cDone ini Reg.SG_CMD).frame t { parts := [.goBusy, .free, .sg], ctrs := (· = 0x2780000),
                                                        regs := (fun a => a ∈ [Reg.SG_CMD, Reg.SG_INT_STATUS] ∨ ∃ i, i < 8 ∧ (a = Reg.SG_NONCE i ∨ a = Reg.SG_SEED i)) }) ∧
      (s.tokenCheck ini s.tokenBytes = rcOk →
        (u8 s.tokenBytes 5 = tkInspect → t.dbgLevel = lvInspect ∧ t.fld Fld.SG_CMD_RESULT = rcOk ∧ t.sg = { s.sg with doneAt := some (t.goEnd Reg.SG_CMD) }) ∧
        (u8 s.tokenBytes 5 ≠ tkInspect → ok = false → t.fld Fld.SG_CMD_RESULT = rcFuse ∧ t.dbgLevel = s.dbgLevel ∧ t.sg.fuseState = s.sg.fuseState ∧
          t.sg.hashA = s.sg.hashA ∧ t.sg.hashB = s.sg.hashB ∧ t.sg.svn = s.sg.svn) ∧
        (u8 s.tokenBytes 5 = tkMaker → ok = true → t.dbgLevel = lvMaker ∧ t.sg.makerUsed = true ∧ t.sg.custA = zeroised ∧ t.sg.custB = zeroised) ∧
        (u8 s.tokenBytes 5 = tkSecure → ok = true → bitOf t.sg.fuseState 1 = true ∧
          (bitOf s.sg.slotUsed 0 = false → t.sg.hashA = orBytes s.sg.hashA (keyHash (byteSlice s.tokenBytes 64 64)) ∧ bitOf t.sg.slotUsed 0 = true ∧ t.sg.hashB = s.sg.hashB)) ∧
        (u8 s.tokenBytes 5 = tkRetire → ok = true → t.secState = 3 ∧ t.sg.seed = zeroised ∧ t.fab = Fab.reset ∧ t.ports = [] ∧ t.isl.pair = 0))) ∧
  (∀ (s : State) (dt : Nat) (ini : Initiator) (ok : Bool), s.mainUp = true → s.reaches ini Reg.SG_CMD 0x20000000 = true →
    (s.begun dt).busy Reg.SG_CMD = false →
    ∃ t, exec (.advanceSvn dt ini ok) s = .next t ∧ t.sg.doneAt = some (t.goEnd Reg.SG_CMD) ∧
      (s.secState = 3 → t.fld Fld.SG_CMD_RESULT = rcNotAllowed ∧ t.sg = { s.sg with doneAt := t.sg.doneAt }) ∧
      (s.secState ≠ 3 → ini ≠ .pcie → t.fld Fld.SG_CMD_RESULT = rcInitiator ∧ t.sg = { s.sg with doneAt := t.sg.doneAt }) ∧
      (s.secState ≠ 3 → ini = .pcie → s.fld Fld.GL_IMAGE_INFO_SVN ≤ s.sg.svn → t.fld Fld.SG_CMD_RESULT = rcOk ∧ t.sg = { s.sg with doneAt := t.sg.doneAt }) ∧
      (s.secState ≠ 3 → ini = .pcie → s.sg.svn < s.fld Fld.GL_IMAGE_INFO_SVN → ok = true → t.fld Fld.SG_CMD_RESULT = rcOk ∧
        t.sg.svn = s.fld Fld.GL_IMAGE_INFO_SVN) ∧
      (s.secState ≠ 3 → ini = .pcie → s.sg.svn < s.fld Fld.GL_IMAGE_INFO_SVN → ok = false → t.fld Fld.SG_CMD_RESULT = rcFuse ∧
        s.sg.svn ≤ t.sg.svn ∧ t.sg.svn < s.fld Fld.GL_IMAGE_INFO_SVN) ∧
      t.sg.fuseState = s.sg.fuseState ∧
      ((s.begun dt).i2cDone ini Reg.SG_CMD).frame t { parts := [.goBusy, .free, .sg], regs := (· ∈ [Reg.SG_CMD, Reg.SG_INT_STATUS]) }) ∧
  (∀ (s : State) (dt : Nat) (ini : Initiator), s.mainUp = true → s.reaches ini Reg.SG_CMD 0x40000000 = true → (s.begun dt).busy Reg.SG_CMD = false →
    ∃ t, exec (.debugEnd dt ini) s = .next t ∧ t.sg.doneAt = some (t.goEnd Reg.SG_CMD) ∧
      (s.dbgLevel = lvMaker → t.fld Fld.SG_CMD_RESULT = rcNotAllowed ∧ t.dbgLevel = lvMaker) ∧
      (s.dbgLevel ≠ lvMaker → t.fld Fld.SG_CMD_RESULT = rcOk ∧ t.dbgLevel = lvNone ∧ t.fld Fld.SG_OBSERVE_EN = 0)) ∧
  (∀ (s : State) (d : Nat), s.sg.doneAt = some d → (d ≤ s.now → bitOf (s.intNow Reg.SG_INT_STATUS).toNat 0 = true) ∧
    (s.now < d → s.intNow Reg.SG_INT_STATUS = s.reg Reg.SG_INT_STATUS)) ∧
  (∀ (s : State) (dt : Nat), s.mainUp = true →
    (s.dbgLevel = lvNone → s.secState ≠ 3 → ∃ t, exec (.observeWrite dt true) s = .next t ∧ t.dbgLevel = lvObserve ∧ t.fld Fld.SG_OBSERVE_EN = 1 ∧
      t.fld Fld.SG_INT_STATUS_DEBUG_CHG = 1) ∧
    (s.dbgLevel ≠ lvNone ∨ s.secState = 3 → ∃ t, exec (.observeWrite dt true) s = .next t ∧ t.dbgLevel = s.dbgLevel ∧ t.fld Fld.SG_OBSERVE_EN = 1 ∧
      (s.begun dt).frame t { regs := (· = Reg.SG_OBSERVE) }) ∧
    (∃ t, exec (.observeWrite dt false) s = .next t ∧ t.dbgLevel = (if s.dbgLevel = lvObserve then lvNone else s.dbgLevel) ∧ t.fld Fld.SG_OBSERVE_EN = 0)) ∧
  (∀ (s : State) (dt e : Nat), s.mainUp = true → s.db.endAt = some e → s.dbgLevel = lvInspect →
    (e ≤ s.now + dt → ∃ t, exec (.inspectExpire dt) s = .next t ∧ t.dbgLevel = lvNone ∧ t.db.endAt = none ∧ t.fld Fld.SG_INT_STATUS_DEBUG_CHG = 1 ∧
      (s.begun dt).frame t { parts := [.jn, .db], regs := (· ∈ [Reg.SG_STATUS, Reg.SG_INT_STATUS, Reg.CM_INT_STATUS]) }) ∧
    (s.now + dt < e → ∃ t, exec (.inspectExpire dt) s = .next t ∧ (s.begun dt).frame t {})) ∧
  (∀ (s : State) (dt : Nat), s.mainUp = true →
    ∃ t, exec (.tracePop dt) s = .next t ∧ t.db.trace = s.db.trace.drop 1 ∧ (s.begun dt).frame t { parts := [.db] }) ∧
  (∀ (s : State) (dt w : Nat), w < 4096 → s.mainUp = true →
    (s.dbgLevel ≠ lvNone → ∃ t, exec (.snap dt w) s = .next t ∧ t.db.snap = (List.range 512).map (fun k => (s.begun dt).ctrNow (0x2000000 + w * 0x1000 + k * 8)) ∧
      t.fld Fld.DB_INT_STATUS_SNAP_DONE = 1 ∧ t.fld Fld.DB_SNAP_CTRL_WINDOW = w ∧
      (s.begun dt).frame t { parts := [.db, .goBusy, .free], regs := (· ∈ [Reg.DB_SNAP_CTRL, Reg.DB_INT_STATUS]) }) ∧
    (s.dbgLevel = lvNone → ∃ t, exec (.snap dt w) s = .next t ∧ (s.begun dt).frame t { regs := (· = Reg.DB_SNAP_CTRL) }))

/-- R403, R473, R474, R475, R476, R478: DOZE makes STATE Doze; FULL lifts every measure, and STATE is Full once no group is gated or waking; while the
main islands do not run TARGET is stored and nothing else happens. KEEP closes the receive paths, ends the lease and every session but Maker;
KEEP_READY comes when no fuse, token or report work is left. In Doze an idle group that no register access keeps awake is gated, an idle lane 1 sleeps
and an empty bank enters retention after their times; a wake counts, and takes back the measure. Otherwise and before their times these do nothing,
and a backlog below LANE_WAKE wakes no lane. That a claim goes on through KEEP, until the main rails are lost, is the model's reading
(notes/assumptions/27.md). -/
def Obligations.PowerStates : Prop :=
  (∀ (s : State) (dt : Nat), s.aonUp = true →
    (s.mainUp = true → s.fld Fld.PW_STATUS_STATE = 0 → ∃ t, exec (.targetDoze dt) s = .next t ∧ t.fld Fld.PW_CTRL_TARGET = 1 ∧ t.fld Fld.PW_STATUS_STATE = 1 ∧
      t.fld Fld.PW_INT_STATUS_STATE_CHG = 1 ∧ t.isl.keep = false ∧ t.fld Fld.PW_STATUS_KEEP_READY = 0 ∧
      (s.begun dt).frame t { parts := [.isl], regs := (· ∈ [Reg.PW_CTRL, Reg.PW_STATUS, Reg.PW_INT_STATUS]) }) ∧
    (s.mainUp = false → ∃ t, exec (.targetDoze dt) s = .next t ∧ t.fld Fld.PW_CTRL_TARGET = 1 ∧
      t.fld Fld.PW_STATUS_STATE = s.fld Fld.PW_STATUS_STATE ∧ (s.begun dt).frame t { parts := [.isl], regs := (· ∈ [Reg.PW_CTRL, Reg.PW_STATUS]) })) ∧
  (∀ (s : State) (dt : Nat), s.aonUp = true →
    (s.mainUp = true → s.fld Fld.PW_STATUS_STATE = 1 → ∃ t, exec (.targetFull dt) s = .next t ∧ t.fld Fld.PW_CTRL_TARGET = 0 ∧
      t.fld Fld.PW_STATUS_LANE1_OFF = 0 ∧ t.fld Fld.PW_STATUS_PG_GATED = 0 ∧ t.reg Reg.PW_BANK_RET = 0 ∧
      (∀ g, g < 8 → bitOf (s.fld Fld.PW_STATUS_PG_GATED) g = true → SMap.look t.pw.wakeAt g = some (s.now + dt)) ∧
      (s.fld Fld.PW_STATUS_PG_GATED = 0 → s.pw.wakeAt = [] → t.fld Fld.PW_STATUS_STATE = 0 ∧ t.fld Fld.PW_INT_STATUS_STATE_CHG = 1) ∧
      (s.fld Fld.PW_STATUS_PG_GATED ≠ 0 → t.fld Fld.PW_STATUS_STATE = 1) ∧
      (∀ p, p < 128 → t.fld (Fld.PT_STATUS_LPI_TX p) = (if (s.begun dt).lpiIdle p then s.fld (Fld.PT_STATUS_LPI_TX p) else 0)) ∧
      (s.begun dt).frame t {
        parts := [.isl, .pw], ports := List.range 128, ctrs := (· ∈ [0x2770000, 0x2770008, 0x2770010]),
        regs := (fun a => a ∈ [Reg.PW_CTRL, Reg.PW_STATUS, Reg.PW_INT_STATUS, Reg.PW_BANK_RET] ∨ ∃ p, p < 128 ∧ a = Reg.PT_STATUS p) }) ∧
    ((s.mainUp = false ∨ s.fld Fld.PW_STATUS_STATE ≠ 1) → ∃ t, exec (.targetFull dt) s = .next t ∧ t.fld Fld.PW_CTRL_TARGET = 0 ∧
      (s.begun dt).frame t { parts := [.isl], regs := (· ∈ [Reg.PW_CTRL, Reg.PW_STATUS]) })) ∧
  (∀ (s : State) (dt : Nat), s.aonUp = true →
    (s.mainUp = true → ∃ t, exec (.targetKeep dt) s = .next t ∧ t.fld Fld.PW_CTRL_TARGET = 2 ∧ t.isl.keep = true ∧ t.isl.rxOpen = false ∧
      (∀ p, (s.port p).rxOn = true → (t.port p).rxRefused = true) ∧ (s.twinOn = true → t.lease ≠ lsHolder) ∧
      t.dbgLevel = (if s.dbgLevel = lvMaker then lvMaker else lvNone)) ∧
    (s.mainUp = false → ∃ t, exec (.targetKeep dt) s = .next t ∧ t.fld Fld.PW_CTRL_TARGET = 2 ∧ (s.begun dt).frame t { regs := (· = Reg.PW_CTRL) })) ∧
  (∀ (s : State) (dt : Nat), s.mainUp = true →
    (s.isl.keep = true → s.fld Fld.PW_STATUS_KEEP_READY = 0 → (s.begun dt).fuseBusy = false → (s.begun dt).sgWork = false →
      ∃ t, exec (.keepReady dt) s = .next t ∧ t.fld Fld.PW_STATUS_KEEP_READY = 1 ∧ t.fld Fld.PW_INT_STATUS_KEEP_READY = 1 ∧
        (s.begun dt).frame t { regs := (· ∈ [Reg.PW_STATUS, Reg.PW_INT_STATUS]) }) ∧
    (s.isl.keep = false ∨ (s.begun dt).fuseBusy = true ∨ (s.begun dt).sgWork = true →
      ∃ t, exec (.keepReady dt) s = .next t ∧ (s.begun dt).frame t {})) ∧
  (∀ (s : State) (dt g : Nat), g < 8 → s.mainUp = true →
    (s.doze = true → s.groupOn g = true → s.pgAsleep g = false → (s.begun dt).pgIdle g = true → SMap.get (fun _ => 0) s.pw.regAt g ≤ s.now + dt → ∃ t, exec (.pgGate dt g) s = .next t ∧
      bitOf (t.fld Fld.PW_STATUS_PG_GATED) g = true ∧ (∀ k, k ≠ g → bitOf (t.fld Fld.PW_STATUS_PG_GATED) k = bitOf (s.fld Fld.PW_STATUS_PG_GATED) k) ∧
      (s.begun dt).frame t { regs := (· = Reg.PW_STATUS) }) ∧
    (s.doze = false ∨ s.groupOn g = false ∨ s.pgAsleep g = true ∨ (s.begun dt).pgIdle g = false ∨ s.now + dt < SMap.get (fun _ => 0) s.pw.regAt g →
      ∃ t, exec (.pgGate dt g) s = .next t ∧ (s.begun dt).frame t {})) ∧
  (∀ (s : State) (dt g n : Nat), g < 8 → s.mainUp = true →
    (bitOf (s.fld Fld.PW_STATUS_PG_GATED) g = true → ∃ t, exec (.pgWake dt g) s = .next t ∧ bitOf (t.fld Fld.PW_STATUS_PG_GATED) g = false ∧
      SMap.look t.pw.wakeAt g = some (s.now + dt) ∧ t.ctr 0x2770000 = (s.ctr 0x2770000 + 1) % 2 ^ 64 ∧
      (s.begun dt).frame t { parts := [.pw], regs := (· = Reg.PW_STATUS), ctrs := (· = 0x2770000) }) ∧
    (bitOf (s.fld Fld.PW_STATUS_PG_GATED) g = false → ∃ t, exec (.pgWake dt g) s = .next t ∧ (s.begun dt).frame t {}) ∧
    ((SMap.look s.pw.wakeAt g).isSome = true → bitOf (s.fld Fld.PW_STATUS_PG_GATED) g = false → ∃ t, exec (.wakeDone dt g) s = .next t ∧ SMap.look t.pw.wakeAt g = none ∧ t.wakeBuf g = [] ∧
      (∀ q, q ≠ g → SMap.look t.pw.wakeAt q = SMap.look s.pw.wakeAt q)) ∧
    (SMap.look s.pw.wakeAt g = none → ∃ t, exec (.wakeDone dt g) s = .next t ∧ (s.begun dt).frame t {}) ∧
    (s.doze = true → s.laneOff g = false →
      SMap.get (fun _ => 0) s.pw.laneAt g + max (s.fld Fld.PW_DOZE_CFG_LANE_IDLE_US) 1 * tUs ≤ s.now + dt →
      ∃ t, exec (.lane1Sleep dt g) s = .next t ∧ t.laneOff g = true ∧ (∀ k, k ≠ g → t.laneOff k = s.laneOff k) ∧
        (s.begun dt).frame t { regs := (· = Reg.PW_STATUS) }) ∧
    (s.doze = false ∨ s.laneOff g = true ∨ s.now + dt < SMap.get (fun _ => 0) s.pw.laneAt g + max (s.fld Fld.PW_DOZE_CFG_LANE_IDLE_US) 1 * tUs →
      ∃ t, exec (.lane1Sleep dt g) s = .next t ∧ (s.begun dt).frame t {}) ∧
    (s.laneOff g = true → max (s.fld Fld.PW_DOZE_CFG_LANE_WAKE) 1 ≤ n → ∃ t, exec (.lane1Wake dt g n) s = .next t ∧ t.laneOff g = false ∧ t.ctr 0x2770008 = (s.ctr 0x2770008 + 1) % 2 ^ 64 ∧
      (s.begun dt).frame t { parts := [.pw], regs := (· = Reg.PW_STATUS), ctrs := (· = 0x2770008) }) ∧
    (s.laneOff g = false ∨ n < max (s.fld Fld.PW_DOZE_CFG_LANE_WAKE) 1 → ∃ t, exec (.lane1Wake dt g n) s = .next t ∧ (s.begun dt).frame t {})) ∧
  (∀ (s : State) (dt b : Nat), b < 32 → s.mainUp = true →
    (s.doze = true → bitOf (s.fld Fld.PW_BANK_RET_BANKS) b = false → (∀ e ∈ (s.begun dt).pool.cells, e.1 / 16384 = b → e.2.used = false) →
      max ((s.begun dt).bankFreed b) (SMap.get (fun _ => 0) s.pw.bankAt b) + max (s.fld Fld.PW_DOZE_CFG_BANK_IDLE_US) 1 * tUs ≤ s.now + dt →
      ∃ t, exec (.bankRetention dt b) s = .next t ∧ bitOf (t.fld Fld.PW_BANK_RET_BANKS) b = true ∧
        (∀ k, k ≠ b → bitOf (t.fld Fld.PW_BANK_RET_BANKS) k = bitOf (s.fld Fld.PW_BANK_RET_BANKS) k) ∧
        (s.begun dt).frame t { regs := (· = Reg.PW_BANK_RET) }) ∧
    (s.doze = false ∨ bitOf (s.fld Fld.PW_BANK_RET_BANKS) b = true ∨ (∃ e ∈ (s.begun dt).pool.cells, e.1 / 16384 = b ∧ e.2.used = true) ∨
      s.now + dt < max ((s.begun dt).bankFreed b) (SMap.get (fun _ => 0) s.pw.bankAt b) + max (s.fld Fld.PW_DOZE_CFG_BANK_IDLE_US) 1 * tUs → ∃ t, exec (.bankRetention dt b) s = .next t ∧ (s.begun dt).frame t {}))

/-- R477, R478, R488, R491, R495, R496, R500, R501, R502, R513, R514, R515: SYS_RST_N low and the loss of the main rails reset every island but the
always-on one, whose registers, counters and time stay but for what records the event; their outputs are high-impedance. SYS_RST_N high samples
BOOT_SRC and, where the rails are back, boots with the main registers as after reset (what they took while held is lost: log 39). AON_RST_N low resets
everything but the fuses; high, it samples the address and starts the counter from 0, and 20 ms later the island is ready. Without VAON the device is
off and drives no pin; with it back AON_RST_N holds it. PERST_N low resets the endpoint and handles the rings as an FLR. The slave answers from 1 ms
on, at 0x5C plus the strap: an unaligned address gives STATUS 2, one outside the always-on subset without the main rails 1, else the access is made;
with the rails up and the main islands held it writes nothing (log 37). Fuses whose programming a loss of power cuts off are log 40, and stay out
here. -/
def Obligations.ResetsAndPins : Prop :=
  (∀ (s : State) (dt : Nat), s.aonUp = true → s.railsOk = true → (s.begun dt).fuseBusy = false →
    ∃ t, exec (.mainLost dt) s = .next t ∧ t.mainUp = false ∧ t.isl.mainOff = true ∧ t.fld Fld.PW_STATUS_MAIN_OK = 0 ∧ t.fld Fld.PW_STATUS_STATE = 2 ∧
      t.fld Fld.PW_INT_STATUS_MAIN_LOST = 1 ∧ t.fld Fld.GL_RESET_CAUSE_MAIN_LOSS = 1 ∧ t.fab = Fab.reset ∧ t.pool = Pool.reset ∧ t.ports = [] ∧
      t.hi = HostIf.reset ∧ t.crfs = [] ∧ t.pms = [] ∧ t.bt = Boot.reset ∧ t.act = [] ∧ t.sg = { s.sg with doneAt := none } ∧ t.time = (s.begun dt).time ∧
      (s.twinOn = true → t.lease ≠ lsHolder ∧ t.lease ≠ lsClaiming) ∧ t.dbgLevel = (if s.dbgLevel = lvMaker then lvMaker else lvNone) ∧
      (∀ a, isAon a = false → a ≠ Reg.GL_BOOT_STATUS → t.reg a = regReset a) ∧ (∀ a, isAon a = false → t.ctr a = 0) ∧
      t.fld Fld.GL_BOOT_STATUS_BOOT_SRC = s.fld Fld.GL_BOOT_STATUS_BOOT_SRC ∧
      (∀ a, isAon a = true → a ∉ [Reg.SG_STATUS, Reg.PW_STATUS, Reg.PW_INT_STATUS, Reg.GL_RESET_CAUSE, Reg.TW_STATUS, Reg.TW_EPOCH_HELD, Reg.TW_INT_STATUS] →
        t.reg a = s.reg a) ∧ (∀ a, isAon a = true → a ≠ Ctr.tw 0x60 → t.ctr a = s.ctr a) ∧
      t.drive .intN = .z ∧ t.drive .spiCsN = .z ∧ (∀ g k, t.drive (.laneTx g k) = .z ∧ t.drive (.pcieTx k) = .z)) ∧
  (∀ (s : State) (dt : Nat), s.railsOk = false → (s.begun dt).fuseBusy = false →
    ∃ t, exec (.mainLost dt) s = .next t ∧ (s.begun dt).frame t {}) ∧
  (∀ (s : State) (dt old : Nat), s.aonUp = true → s.isl.mainOff = false → (s.begun dt).fuseBusy = true → s.sg.prog = some (.advance old) → old ≤ s.sg.svn →
    ∃ t, exec (.mainLost dt) s = .next t ∧ old ≤ t.sg.svn ∧ t.sg.svn ≤ s.sg.svn ∧ t.sg.fuseState = s.sg.fuseState ∧ t.fuseBusy = false) ∧
  (∀ (s : State) (dt : Nat), s.isl.mainOff = true → ∃ t, exec (.mainRailsReturn dt) s = .next t ∧ t.fld Fld.PW_STATUS_MAIN_OK = 1 ∧ t.mainUp = false ∧
    (s.begun dt).frame t { regs := (· = Reg.PW_STATUS) }) ∧
  (∀ (s : State) (dt : Nat), s.isl.mainOff = false → ∃ t, exec (.mainRailsReturn dt) s = .next t ∧ (s.begun dt).frame t {}) ∧
  (∀ (s : State) (dt : Nat), s.aonUp = true → s.isl.sysRst = false →
    ∃ t, exec (.sysRstFall dt) s = .next t ∧ t.mainUp = false ∧ t.isl.sysRst = true ∧ t.fab = Fab.reset ∧ t.pool = Pool.reset ∧ t.ports = [] ∧
      t.hi = HostIf.reset ∧ t.crfs = [] ∧ t.pms = [] ∧ t.bt = Boot.reset ∧ t.sg = { s.sg with doneAt := none } ∧ t.time = (s.begun dt).time ∧
      (s.twinOn = true → t.lease ≠ lsHolder ∧ (s.lease = lsClaiming → t.lease = lsClaiming)) ∧
      t.dbgLevel = (if s.dbgLevel = lvMaker then lvMaker else lvNone) ∧
      (∀ a, isAon a = false → a ≠ Reg.GL_BOOT_STATUS → t.reg a = regReset a) ∧ (∀ a, isAon a = false → t.ctr a = 0) ∧
      (∀ a, isAon a = true → a ∉ [Reg.SG_STATUS, Reg.PW_STATUS, Reg.TW_STATUS, Reg.TW_EPOCH_HELD, Reg.TW_INT_STATUS] → t.reg a = s.reg a) ∧
      (∀ a, isAon a = true → a ≠ Ctr.tw 0x60 → t.ctr a = s.ctr a)) ∧
  (∀ (s : State) (dt k : Nat), k < 4 → s.aonUp = true → s.isl.sysRst = true → s.railsOk = true →
    ∃ t, exec (.sysRstRise dt k) s = .next t ∧ t.mainUp = true ∧ t.fld Fld.GL_BOOT_STATUS_BOOT_SRC = k ∧ t.fld Fld.GL_RESET_CAUSE_SYS_RESET = 1 ∧
      t.fld Fld.PW_STATUS_STATE = (if s.fld Fld.PW_CTRL_TARGET = 1 ∧ s.isl.oldTgt = false then 1 else 0) ∧ t.stage = stRom ∧
      (∀ a, isAon a = false → a ≠ Reg.GL_BOOT_STATUS → (∀ i, i < 8 → a ≠ Reg.SG_NONCE i) → t.reg a = regReset a) ∧ (∀ a, isAon a = false → t.ctr a = 0) ∧
      (s.begun dt).frame t { parts := [.isl, .free], ctrs := (fun a => isAon a = false),
                             regs := (fun a => isAon a = false ∨ a ∈ [Reg.GL_RESET_CAUSE, Reg.PW_STATUS, Reg.PW_INT_STATUS]) }) ∧
  (∀ (s : State) (dt k : Nat), k < 4 → s.aonUp = true → s.isl.sysRst = true → s.railsOk = false →
    ∃ t, exec (.sysRstRise dt k) s = .next t ∧ t.mainUp = false ∧ t.isl.sysRst = false ∧ t.fld Fld.GL_BOOT_STATUS_BOOT_SRC = k ∧
      (s.begun dt).frame t { parts := [.isl], regs := (· ∈ [Reg.GL_BOOT_STATUS, Reg.GL_RESET_CAUSE]) }) ∧
  (∀ (s : State) (dt : Nat), s.isl.off = false → s.isl.aonRst = false →
    ∃ t, exec (.aonRstFall dt) s = .next t ∧ t.aonUp = false ∧ t.time.raw = 0 ∧ t.time.addend = 0 ∧
      t.sg = { s.sg with mono := 0, doneAt := none } ∧ (∀ a, t.ctr a = 0) ∧ t.isl.sysRst = s.isl.sysRst ∧ t.isl.mainOff = s.isl.mainOff ∧
      (∀ a, a ≠ Reg.GL_BOOT_STATUS → a ≠ Reg.PW_STATUS → t.reg a = regReset a) ∧ t.jn = Journal.reset ∧ t.tw = Twin.reset ∧ t.hm = Hall.reset) ∧
  (∀ (s : State) (dt k : Nat), k < 4 → s.isl.off = false → s.isl.aonRst = true →
    ∃ t, exec (.aonRstRise dt k) s = .next t ∧ t.aonUp = true ∧ t.rst.i2cAddr = k ∧ t.rst.aonAt = s.now + dt ∧ t.rst.aonReady = false ∧ t.time.raw = 0 ∧
      (s.rst.cold = false → t.fld Fld.GL_RESET_CAUSE_AON_RESET = 1) ∧
      (s.rst.cold = true → t.fld Fld.GL_RESET_CAUSE_AON_RESET = s.fld Fld.GL_RESET_CAUSE_AON_RESET) ∧ t.jn = s.jn ∧ t.sg = s.sg) ∧
  (∀ (s : State) (dt : Nat), s.aonUp = true → s.rst.aonReady = false →
    (s.rst.aonAt + 20 * tMs ≤ s.now + dt → ∃ t, exec (.aonReady dt) s = .next t ∧ t.rst.aonReady = true ∧ (s.begun dt).frame t { parts := [.rst] }) ∧
    (s.now + dt < s.rst.aonAt + 20 * tMs → ∃ t, exec (.aonReady dt) s = .next t ∧ (s.begun dt).frame t {})) ∧
  (∀ (s : State) (dt : Nat),
    (s.isl.off = false → ∃ t, exec (.vaonLoss dt) s = .next t ∧ t.isl.off = true ∧ t.aonUp = false ∧
      (∀ a, a ≠ Reg.GL_BOOT_STATUS → a ≠ Reg.PW_STATUS → t.reg a = regReset a) ∧ t.fab = Fab.reset ∧
      t.isl.sysRst = s.isl.sysRst ∧ t.isl.mainOff = s.isl.mainOff ∧ (∀ q, t.drive q = .z)) ∧
    (s.isl.off = true → ∃ t, exec (.powerOn dt) s = .next t ∧ t.isl.off = false ∧ t.isl.aonRst = true ∧ t.rst.cold = true ∧
      t.isl.sysRst = s.isl.sysRst ∧ t.isl.mainOff = s.isl.mainOff ∧ (∀ a, a ≠ Reg.GL_BOOT_STATUS → a ≠ Reg.PW_STATUS → t.reg a = regReset a) ∧
      t.sg = { s.sg with mono := 0, doneAt := none }) ∧
    (s.isl.off = true → ∃ t, exec (.vaonLoss dt) s = .next t ∧ (s.begun dt).frame t {}) ∧
    (s.isl.off = false → ∃ t, exec (.powerOn dt) s = .next t ∧ (s.begun dt).frame t {})) ∧
  (∀ (s : State) (dt : Nat),
    (s.rst.perstLow = false → s.mainUp = true → ∃ t, exec (.perst dt false) s = .next t ∧ t.rst.perstLow = true ∧ t.hi.pci = PciFn.reset ∧
      (∀ r, (t.ring r).state = ringIdle) ∧ (∀ a, 0x80000 ≤ a → a < 0xD0000 → t.reg a = regReset a) ∧ t.tw = s.tw ∧ t.hm = s.hm) ∧
    (s.rst.perstLow = true → s.aonUp = true → ∃ t, exec (.perst dt true) s = .next t ∧ t.rst.perstLow = false ∧ t.fld Fld.GL_RESET_CAUSE_PERST = 1 ∧
      (s.begun dt).frame t { parts := [.rst], regs := (· = Reg.GL_RESET_CAUSE) })) ∧
  (∀ (s : State) (dt d a : Nat) (v : Word) (lost : Bool), d < 128 → (s.begun dt).i2cMine d = true →
    (a % 4 ≠ 0 → ∃ t, exec (.i2cWrite dt d a v lost) s = .next t ∧ t.rst.i2cStat = i2cUnaligned ∧ (s.begun dt).frame t { parts := [.rst] }) ∧
    (a % 4 = 0 → isAon a = false → (lost = true ∨ s.railsOk = false) → ∃ t, exec (.i2cWrite dt d a v lost) s = .next t ∧ t.rst.i2cStat = i2cRefused ∧
      (s.begun dt).frame t { parts := [.rst] }) ∧
    (a % 4 = 0 → isAon a = false → lost = false → s.railsOk = true → s.mainUp = false →
      ∃ t, exec (.i2cWrite dt d a v lost) s = .next t ∧ t.rst.i2cStat = i2cOk ∧ (s.begun dt).frame t { parts := [.rst] }) ∧
    (∃ t, exec (.i2cWrite dt d Reg.PW_INT_EN v lost) s = .next t ∧ t.rst.i2cStat = i2cOk ∧ t.fld Fld.PW_INT_EN_EN = v.toNat % 16 ∧
      (s.begun dt).frame t { parts := [.rst], regs := (· = Reg.PW_INT_EN) }) ∧
    (a % 4 ≠ 0 → ∃ t, exec (.i2cRead dt d a lost) s = .next t ∧ t.rst.i2cStat = i2cUnaligned ∧ (t.ini 1).rdata = 0 ∧
      (s.begun dt).frame t { parts := [.rst, .bus] }) ∧
    (a % 4 = 0 → isAon a = false → (lost = true ∨ s.railsOk = false) → ∃ t, exec (.i2cRead dt d a lost) s = .next t ∧ t.rst.i2cStat = i2cRefused ∧
      (t.ini 1).rdata = 0 ∧ (s.begun dt).frame t { parts := [.rst, .bus] }) ∧
    (a % 4 = 0 → isAon a = true → s.multiOf a = none → fieldMask (fieldsAt a) (fun t => decide (t = .rc)) = 0 →
      ∃ t, exec (.i2cRead dt d a lost) s = .next t ∧ t.rst.i2cStat = i2cOk ∧ (t.ini 1).rdata = ((s.begun dt).view 1 a).toNat ∧
        (s.begun dt).frame t { parts := [.rst, .bus] }) ∧
    (∃ t, exec (.i2cStatus dt d) s = .next t ∧ (t.ini 1).rdata = s.rst.i2cStat ∧ (s.begun dt).frame t { parts := [.bus] })) ∧
  (∀ (s : State) (dt d a : Nat) (v : Word) (lost : Bool), d < 128 → (s.begun dt).i2cMine d = false →
    ∃ t u w, exec (.i2cWrite dt d a v lost) s = .next t ∧ exec (.i2cRead dt d a lost) s = .next u ∧ exec (.i2cStatus dt d) s = .next w ∧
      (s.begun dt).frame t {} ∧ (s.begun dt).frame u {} ∧ (s.begun dt).frame w {})

/-! ### The whole machine -/

/-- R1, R496: With a command at the front of its queue the machine steps to what that command makes of the state with the queue's rest; the idling on an
empty queue is the model's choice (notes/assumptions/5.md). A command whose operands the device has answers a next state and leaves the queue as it
is; one whose operands it does not have is refused (notes/assumptions/1.md). -/
def Obligations.StepRunsFront : Prop :=
  (∀ (s : State) (c : Instr) (rest : List Instr), s.pending = c :: rest → step s = exec c { s with pending := rest }) ∧
  (∀ s : State, s.pending = [] → step s = .next s) ∧
  (∀ (s : State) (c : Instr), c.wellFormed = true → ∃ t, exec c s = .next t ∧ t.pending = s.pending) ∧
  (∀ (s : State) (c : Instr), c.wellFormed = false → exec c s = .refused .illFormed)

/-- R1, R57, R368, R411, R417, R451, R515: State.reset has every register at the reset value of the register tables (where a table gives none,
notes/assumptions/7.md names it), every counter at 0, the boot in its first stage, the Hallmark counter at 0, an empty queue of commands, and meets
the invariant. -/
def Obligations.ResetState : Prop :=
  (∀ a, State.reset.reg a = regReset a) ∧ (∀ a, State.reset.actReg a = regReset a) ∧ (∀ a, State.reset.ctr a = 0) ∧ State.reset.pending = [] ∧
  State.reset.stage = stRom ∧ State.reset.time.raw = 0 ∧ State.reset.mainUp = true ∧ (∀ p, State.reset.port p = Port.reset) ∧
  (∀ r, (State.reset.ring r).state = ringIdle) ∧ State.reset.jn.head = 0 ∧
  (∀ u, u < 32 → State.reset.unitGroup u = u) ∧ State.reset.fld Fld.GL_RESET_CAUSE_POWER_ON = 1 ∧ State.reset.Inv

/-- R477, R479, R495, R496, R513: Without the main rails, or in the reset of SYS_RST_N, a command that is neither of the always-on island nor of the pins
leaves everything but the time as it was, one that is an access over I²C leaves its STATUS; in Off and in the reset of AON_RST_N so does every command
that is not of the pins. -/
def Obligations.WithoutMain : Prop :=
  (∀ (s : State) (c : Instr), c.wellFormed = true → s.mainUp = false → c.ofPins = false → c.ofAon = false →
    c.ofI2c = false → ∃ t dt, exec c s = .next t ∧ (s.begun dt).frame t {}) ∧
  (∀ (s : State) (c : Instr), c.wellFormed = true → s.mainUp = false → c.ofI2c = true →
    ∃ t dt a, exec c s = .next t ∧ ((s.begun dt).i2cDone .i2c a).frame t {}) ∧
  (∀ (s : State) (c : Instr), c.wellFormed = true → s.aonUp = false → c.ofPins = false → ∃ t dt, exec c s = .next t ∧ (s.begun dt).frame t {})

/-- R295, R296, R297, R298, R366, R367: From every state that meets the invariant, a step that answers a next state answers one that meets it: the
Hallmark counter lies below 2^48 s, the active addend within its clamp, no command leaves a request to the time group behind, and every raised
interrupt vector has been sent or is kept while masked. -/
def Obligations.InvKept : Prop :=
  ∀ s t : State, s.Inv → step s = .next t → t.Inv
end

