-- ==== Sys2Proof/Laws/Maps.lean ====
section
/-!
SUPPORT. The laws of the map type: a read after a write, canonical form, and the arithmetic of bit fields.
-/
namespace Sys2Proof.Machine

/-! ### Reads -/

theorem SMap.look_del_self {α : Type} (m : SMap α) (k : Nat) : SMap.look (SMap.del m k) k = none := by
  induction m with
  | nil => rfl
  | cons e t ih => by_cases h : e.1 = k <;> simp [SMap.del, SMap.look, h, ih]

theorem SMap.look_del_ne {α : Type} (m : SMap α) (k j : Nat) (h : j ≠ k) : SMap.look (SMap.del m k) j = SMap.look m j := by
  induction m with
  | nil => rfl
  | cons e t ih =>
    by_cases hk : e.1 = k
    · simp [SMap.del, SMap.look, hk, ih, Ne.symm h]
    · by_cases hj : e.1 = j <;> simp [SMap.del, SMap.look, hk, hj, ih, h]

theorem SMap.look_ins_self {α : Type} (m : SMap α) (k : Nat) (v : α) : SMap.look (SMap.ins m k v) k = some v := by
  induction m with
  | nil => simp [SMap.ins, SMap.look]
  | cons e t ih =>
    by_cases h1 : k < e.1
    · simp [SMap.ins, SMap.look, h1]
    · by_cases h2 : e.1 = k <;> simp [SMap.ins, SMap.look, h1, h2, ih]

theorem SMap.look_ins_ne {α : Type} (m : SMap α) (k j : Nat) (v : α) (h : j ≠ k) :
    SMap.look (SMap.ins m k v) j = SMap.look m j := by
  induction m with
  | nil => simp [SMap.ins, SMap.look, Ne.symm h]
  | cons e t ih =>
    by_cases h1 : k < e.1
    · simp [SMap.ins, SMap.look, h1, Ne.symm h]
    · by_cases h2 : e.1 = k
      · simp [SMap.ins, SMap.look, h2, Ne.symm h]
      · by_cases h3 : e.1 = j
        · subst h3; simp [SMap.ins, SMap.look, h1, h2]
        · simp [SMap.ins, SMap.look, h1, h2, h3, ih]

/-- A read gives the value last written there. -/
@[simp] theorem SMap.get_put_self {α : Type} [DecidableEq α] (d : Nat → α) (m : SMap α) (k : Nat) (v : α) :
    SMap.get d (SMap.put d m k v) k = v := by
  by_cases h : v = d k
  · simp [SMap.put, SMap.get, h, SMap.look_del_self]
  · simp [SMap.put, SMap.get, h, SMap.look_ins_self]

/-- A write leaves every other key as it was. -/
theorem SMap.get_put_ne {α : Type} [DecidableEq α] (d : Nat → α) (m : SMap α) (k j : Nat) (v : α) (h : j ≠ k) :
    SMap.get d (SMap.put d m k v) j = SMap.get d m j := by
  by_cases hv : v = d k
  · simp [SMap.put, SMap.get, hv, SMap.look_del_ne m k j h]
  · simp [SMap.put, SMap.get, hv, SMap.look_ins_ne m k j v h]

/-! ### The canonical form -/

theorem SMap.sortedFrom_mono {α : Type} (m : SMap α) (a b : Nat) (h : a ≤ b) (hs : SMap.sortedFrom b m = true) :
    SMap.sortedFrom a m = true := by
  cases m with
  | nil => rfl
  | cons e t => simp [SMap.sortedFrom] at *; exact ⟨by omega, hs.2⟩

theorem SMap.sortedFrom_del {α : Type} (m : SMap α) (k b : Nat) (h : SMap.sortedFrom b m = true) :
    SMap.sortedFrom b (SMap.del m k) = true := by
  induction m generalizing b with
  | nil => rfl
  | cons e t ih =>
    simp [SMap.sortedFrom] at h
    by_cases hk : e.1 = k
    · simp only [SMap.del, hk, if_true]
      exact SMap.sortedFrom_mono _ _ _ (by omega) (ih _ h.2)
    · simp [SMap.del, hk, SMap.sortedFrom, h.1, ih _ h.2]

theorem SMap.sortedFrom_ins {α : Type} (m : SMap α) (k b : Nat) (v : α) (hb : b ≤ k) (h : SMap.sortedFrom b m = true) :
    SMap.sortedFrom b (SMap.ins m k v) = true := by
  induction m generalizing b with
  | nil => simp [SMap.ins, SMap.sortedFrom, hb]
  | cons e t ih =>
    simp [SMap.sortedFrom] at h
    by_cases h1 : k < e.1
    · simp [SMap.ins, h1, SMap.sortedFrom, hb, h.2]
    · by_cases h2 : e.1 = k
      · subst h2; simp [SMap.ins, SMap.sortedFrom, h.2, hb]
      · simp [SMap.ins, h1, h2, SMap.sortedFrom, h.1, ih (e.1 + 1) (by omega) h.2]

theorem SMap.mem_del {α : Type} (m : SMap α) (k : Nat) (e : Nat × α) (h : e ∈ SMap.del m k) : e ∈ m := by
  induction m with
  | nil => exact h
  | cons x t ih =>
    by_cases hk : x.1 = k
    · simp [SMap.del, hk] at h; exact List.mem_cons_of_mem _ (ih h)
    · simp [SMap.del, hk] at h; rcases h with rfl | h
      · simp
      · exact List.mem_cons_of_mem _ (ih h)

theorem SMap.mem_ins {α : Type} (m : SMap α) (k : Nat) (v : α) (e : Nat × α) (h : e ∈ SMap.ins m k v) : e = (k, v) ∨ e ∈ m := by
  induction m with
  | nil => simp [SMap.ins] at h; exact .inl h
  | cons x t ih =>
    by_cases h1 : k < x.1
    · simp [SMap.ins, h1] at h; rcases h with h | h | h <;> simp [h]
    · by_cases h2 : x.1 = k
      · simp [SMap.ins, h2] at h; rcases h with h | h <;> simp [h]
      · simp [SMap.ins, h1, h2] at h; rcases h with h | h
        · simp [h]
        · rcases ih h with h | h <;> simp [h]

/-- A write keeps the canonical form. -/
theorem SMap.wf_put {α : Type} [DecidableEq α] (d : Nat → α) (m : SMap α) (k : Nat) (v : α) (h : SMap.wf d m = true) :
    SMap.wf d (SMap.put d m k v) = true := by
  simp only [SMap.wf, Bool.and_eq_true, List.all_eq_true, Bool.not_eq_true', decide_eq_false_iff_not] at *
  by_cases hv : v = d k
  · simp only [SMap.put, hv, if_true]
    exact ⟨SMap.sortedFrom_del _ _ _ h.1, fun e he => h.2 e (SMap.mem_del _ _ _ he)⟩
  · simp only [SMap.put, hv, if_false]
    refine ⟨SMap.sortedFrom_ins _ _ _ _ (by omega) h.1, fun e he => ?_⟩
    rcases SMap.mem_ins _ _ _ _ he with rfl | he
    · exact hv
    · exact h.2 e he

theorem SMap.sortedFrom_drop {α : Type} (m : SMap α) (p : Nat → Bool) (b : Nat) (h : SMap.sortedFrom b m = true) :
    SMap.sortedFrom b (SMap.drop m p) = true := by
  induction m generalizing b with
  | nil => rfl
  | cons e t ih =>
    simp [SMap.sortedFrom] at h
    by_cases hp : p e.1
    · simp only [SMap.drop, List.filter, hp, Bool.not_true]
      exact SMap.sortedFrom_mono _ _ _ (by omega) (ih _ h.2)
    · have := ih _ h.2
      simp [SMap.drop] at this
      simp [SMap.drop, List.filter, hp, SMap.sortedFrom, h.1, this]

/-- Leaving keys out keeps the canonical form. -/
theorem SMap.wf_drop {α : Type} [DecidableEq α] (d : Nat → α) (m : SMap α) (p : Nat → Bool) (h : SMap.wf d m = true) :
    SMap.wf d (SMap.drop m p) = true := by
  simp only [SMap.wf, Bool.and_eq_true, List.all_eq_true] at *
  exact ⟨SMap.sortedFrom_drop _ _ _ h.1, fun e he => h.2 e (List.mem_of_mem_filter he)⟩

/-! ### Bit fields -/

/-- The number of a word. -/
@[simp] theorem w32_toNat (n : Nat) : (w32 n).toNat = n % 2 ^ 32 := by simp [w32]

/-- A field of a number below `2^n` with bits set within `n` stays below `2^n`. -/
theorem setBits_lt (w lo len v n : Nat) (hw : w < 2 ^ n) (h : lo + len ≤ n) : setBits w lo len v < 2 ^ n := by
  obtain ⟨c, hn⟩ := Nat.exists_eq_add_of_le h
  subst hn
  have hp : 2 ^ (lo + len + c) = 2 ^ c * (2 ^ len * 2 ^ lo) := by rw [← pow_add, ← pow_add]; ring_nf
  have ha : w / 2 ^ (lo + len) < 2 ^ c := by
    rw [Nat.div_lt_iff_lt_mul (by positivity)]; rw [hp] at hw; rw [pow_add, Nat.mul_comm (2 ^ lo)]; exact hw
  have hb : v % 2 ^ len < 2 ^ len := Nat.mod_lt _ (by positivity)
  have hc : w % 2 ^ lo < 2 ^ lo := Nat.mod_lt _ (by positivity)
  rw [hp]; unfold setBits; rw [pow_add, Nat.mul_comm (2 ^ lo) (2 ^ len)]
  rw [pow_add] at ha
  have ha' : w / (2 ^ len * 2 ^ lo) < 2 ^ c := by rw [Nat.mul_comm]; exact ha
  generalize w / (2 ^ len * 2 ^ lo) = A' at *
  generalize v % 2 ^ len = B at *
  generalize w % 2 ^ lo = C at *
  have h1 : (B + 1) * 2 ^ lo ≤ 2 ^ len * 2 ^ lo := Nat.mul_le_mul_right _ hb
  have h2 : (A' + 1) * (2 ^ len * 2 ^ lo) ≤ 2 ^ c * (2 ^ len * 2 ^ lo) := Nat.mul_le_mul_right _ ha'
  rw [Nat.add_mul] at h1 h2; omega

/-- A field reads as it was written. -/
theorem bitsOf_setBits_self (w lo len v : Nat) : bitsOf (setBits w lo len v) lo len = v % 2 ^ len := by
  unfold bitsOf setBits
  have hlo : 0 < 2 ^ lo := by positivity
  have e : w / 2 ^ (lo + len) * 2 ^ (lo + len) + v % 2 ^ len * 2 ^ lo + w % 2 ^ lo =
      w % 2 ^ lo + 2 ^ lo * (v % 2 ^ len + 2 ^ len * (w / 2 ^ (lo + len))) := by rw [pow_add]; ring
  rw [e, Nat.add_mul_div_left _ _ hlo, Nat.div_eq_of_lt (Nat.mod_lt _ hlo), Nat.zero_add, Nat.add_mul_mod_self_left, Nat.mod_mod]

/-- A field below the one written keeps its value. -/
theorem bitsOf_setBits_below (w lo len v lo' len' : Nat) (h : lo' + len' ≤ lo) :
    bitsOf (setBits w lo len v) lo' len' = bitsOf w lo' len' := by
  obtain ⟨c, hc⟩ := Nat.exists_eq_add_of_le h
  unfold bitsOf
  have key : ∀ x : Nat, x / 2 ^ lo' % 2 ^ len' = x % 2 ^ lo / 2 ^ lo' % 2 ^ len' := by
    intro x
    have e : x = x % 2 ^ lo + 2 ^ lo' * (2 ^ len' * (2 ^ c * (x / 2 ^ lo))) := by
      have := Nat.mod_add_div x (2 ^ lo)
      have hp : 2 ^ lo = 2 ^ lo' * (2 ^ len' * 2 ^ c) := by rw [hc, pow_add, pow_add]; ring
      calc x = x % 2 ^ lo + 2 ^ lo * (x / 2 ^ lo) := this.symm
        _ = _ := by conv_lhs => rw [hp]
                    conv_rhs => rw [hp]
                    ring
    conv_lhs => rw [e]
    rw [Nat.add_mul_div_left _ _ (by positivity), Nat.add_mul_mod_self_left]
  rw [key, key w]
  congr 2
  unfold setBits
  have e : w / 2 ^ (lo + len) * 2 ^ (lo + len) + v % 2 ^ len * 2 ^ lo + w % 2 ^ lo =
      w % 2 ^ lo + 2 ^ lo * (v % 2 ^ len + 2 ^ len * (w / 2 ^ (lo + len))) := by rw [pow_add]; ring
  rw [e, Nat.add_mul_mod_self_left, Nat.mod_mod]

/-- A field above the one written keeps its value. -/
theorem bitsOf_setBits_above (w lo len v lo' len' : Nat) (h : lo + len ≤ lo') :
    bitsOf (setBits w lo len v) lo' len' = bitsOf w lo' len' := by
  obtain ⟨c, hc⟩ := Nat.exists_eq_add_of_le h
  unfold bitsOf
  congr 1
  subst hc
  rw [pow_add 2 (lo + len) c, ← Nat.div_div_eq_div_mul, ← Nat.div_div_eq_div_mul]
  congr 1
  unfold setBits
  have hlo : w % 2 ^ lo < 2 ^ lo := Nat.mod_lt _ (by positivity)
  have hv : v % 2 ^ len < 2 ^ len := Nat.mod_lt _ (by positivity)
  have e : w / 2 ^ (lo + len) * 2 ^ (lo + len) + v % 2 ^ len * 2 ^ lo + w % 2 ^ lo =
      (v % 2 ^ len * 2 ^ lo + w % 2 ^ lo) + 2 ^ (lo + len) * (w / 2 ^ (lo + len)) := by ring
  rw [e, Nat.add_mul_div_left _ _ (by positivity), Nat.div_eq_of_lt, Nat.zero_add]
  have h1 : (v % 2 ^ len + 1) * 2 ^ lo ≤ 2 ^ len * 2 ^ lo := Nat.mul_le_mul_right _ hv
  rw [pow_add, Nat.mul_comm (2 ^ lo)]; rw [Nat.add_mul] at h1; omega

end Sys2Proof.Machine
end

