-- ==== Sys2Proof/Laws/State.lean ====
section
/-!
SUPPORT. What each update of the state leaves alone, field by field, and what registers, fields, counters, ports and rings read after an update.
-/
namespace Sys2Proof.Machine

/-! ### Every field that an update leaves alone -/

@[simp] theorem State.setReg_time (s : State) (a : Nat) (w : Word) : (s.setReg a w).time = s.time := rfl
@[simp] theorem State.setReg_timeReq (s : State) (a : Nat) (w : Word) : (s.setReg a w).timeReq = s.timeReq := rfl
@[simp] theorem State.setReg_act (s : State) (a : Nat) (w : Word) : (s.setReg a w).act = s.act := rfl
@[simp] theorem State.setReg_ctrs (s : State) (a : Nat) (w : Word) : (s.setReg a w).ctrs = s.ctrs := rfl
@[simp] theorem State.setReg_bus (s : State) (a : Nat) (w : Word) : (s.setReg a w).bus = s.bus := rfl
@[simp] theorem State.setReg_goBusy (s : State) (a : Nat) (w : Word) : (s.setReg a w).goBusy = s.goBusy := rfl
@[simp] theorem State.setReg_jn (s : State) (a : Nat) (w : Word) : (s.setReg a w).jn = s.jn := rfl
@[simp] theorem State.setReg_pool (s : State) (a : Nat) (w : Word) : (s.setReg a w).pool = s.pool := rfl
@[simp] theorem State.setReg_fab (s : State) (a : Nat) (w : Word) : (s.setReg a w).fab = s.fab := rfl
@[simp] theorem State.setReg_ports (s : State) (a : Nat) (w : Word) : (s.setReg a w).ports = s.ports := rfl
@[simp] theorem State.setReg_pl (s : State) (a : Nat) (w : Word) : (s.setReg a w).pl = s.pl := rfl
@[simp] theorem State.setReg_hm (s : State) (a : Nat) (w : Word) : (s.setReg a w).hm = s.hm := rfl
@[simp] theorem State.setReg_pt (s : State) (a : Nat) (w : Word) : (s.setReg a w).pt = s.pt := rfl
@[simp] theorem State.setReg_hi (s : State) (a : Nat) (w : Word) : (s.setReg a w).hi = s.hi := rfl
@[simp] theorem State.setReg_isl (s : State) (a : Nat) (w : Word) : (s.setReg a w).isl = s.isl := rfl
@[simp] theorem State.setReg_tw (s : State) (a : Nat) (w : Word) : (s.setReg a w).tw = s.tw := rfl
@[simp] theorem State.setReg_av (s : State) (a : Nat) (w : Word) : (s.setReg a w).av = s.av := rfl
@[simp] theorem State.setReg_pw (s : State) (a : Nat) (w : Word) : (s.setReg a w).pw = s.pw := rfl
@[simp] theorem State.setReg_db (s : State) (a : Nat) (w : Word) : (s.setReg a w).db = s.db := rfl
@[simp] theorem State.setReg_crfs (s : State) (a : Nat) (w : Word) : (s.setReg a w).crfs = s.crfs := rfl
@[simp] theorem State.setReg_pms (s : State) (a : Nat) (w : Word) : (s.setReg a w).pms = s.pms := rfl
@[simp] theorem State.setReg_bt (s : State) (a : Nat) (w : Word) : (s.setReg a w).bt = s.bt := rfl
@[simp] theorem State.setReg_sg (s : State) (a : Nat) (w : Word) : (s.setReg a w).sg = s.sg := rfl
@[simp] theorem State.setReg_rst (s : State) (a : Nat) (w : Word) : (s.setReg a w).rst = s.rst := rfl
@[simp] theorem State.setReg_out (s : State) (a : Nat) (w : Word) : (s.setReg a w).out = s.out := rfl
@[simp] theorem State.setReg_free (s : State) (a : Nat) (w : Word) : (s.setReg a w).free = s.free := rfl
@[simp] theorem State.setReg_pending (s : State) (a : Nat) (w : Word) : (s.setReg a w).pending = s.pending := rfl
@[simp] theorem State.setF_time (s : State) (f : Fld) (v : Nat) : (s.setF f v).time = s.time := rfl
@[simp] theorem State.setF_timeReq (s : State) (f : Fld) (v : Nat) : (s.setF f v).timeReq = s.timeReq := rfl
@[simp] theorem State.setF_act (s : State) (f : Fld) (v : Nat) : (s.setF f v).act = s.act := rfl
@[simp] theorem State.setF_ctrs (s : State) (f : Fld) (v : Nat) : (s.setF f v).ctrs = s.ctrs := rfl
@[simp] theorem State.setF_bus (s : State) (f : Fld) (v : Nat) : (s.setF f v).bus = s.bus := rfl
@[simp] theorem State.setF_goBusy (s : State) (f : Fld) (v : Nat) : (s.setF f v).goBusy = s.goBusy := rfl
@[simp] theorem State.setF_jn (s : State) (f : Fld) (v : Nat) : (s.setF f v).jn = s.jn := rfl
@[simp] theorem State.setF_pool (s : State) (f : Fld) (v : Nat) : (s.setF f v).pool = s.pool := rfl
@[simp] theorem State.setF_fab (s : State) (f : Fld) (v : Nat) : (s.setF f v).fab = s.fab := rfl
@[simp] theorem State.setF_ports (s : State) (f : Fld) (v : Nat) : (s.setF f v).ports = s.ports := rfl
@[simp] theorem State.setF_pl (s : State) (f : Fld) (v : Nat) : (s.setF f v).pl = s.pl := rfl
@[simp] theorem State.setF_hm (s : State) (f : Fld) (v : Nat) : (s.setF f v).hm = s.hm := rfl
@[simp] theorem State.setF_pt (s : State) (f : Fld) (v : Nat) : (s.setF f v).pt = s.pt := rfl
@[simp] theorem State.setF_hi (s : State) (f : Fld) (v : Nat) : (s.setF f v).hi = s.hi := rfl
@[simp] theorem State.setF_isl (s : State) (f : Fld) (v : Nat) : (s.setF f v).isl = s.isl := rfl
@[simp] theorem State.setF_tw (s : State) (f : Fld) (v : Nat) : (s.setF f v).tw = s.tw := rfl
@[simp] theorem State.setF_av (s : State) (f : Fld) (v : Nat) : (s.setF f v).av = s.av := rfl
@[simp] theorem State.setF_pw (s : State) (f : Fld) (v : Nat) : (s.setF f v).pw = s.pw := rfl
@[simp] theorem State.setF_db (s : State) (f : Fld) (v : Nat) : (s.setF f v).db = s.db := rfl
@[simp] theorem State.setF_crfs (s : State) (f : Fld) (v : Nat) : (s.setF f v).crfs = s.crfs := rfl
@[simp] theorem State.setF_pms (s : State) (f : Fld) (v : Nat) : (s.setF f v).pms = s.pms := rfl
@[simp] theorem State.setF_bt (s : State) (f : Fld) (v : Nat) : (s.setF f v).bt = s.bt := rfl
@[simp] theorem State.setF_sg (s : State) (f : Fld) (v : Nat) : (s.setF f v).sg = s.sg := rfl
@[simp] theorem State.setF_rst (s : State) (f : Fld) (v : Nat) : (s.setF f v).rst = s.rst := rfl
@[simp] theorem State.setF_out (s : State) (f : Fld) (v : Nat) : (s.setF f v).out = s.out := rfl
@[simp] theorem State.setF_free (s : State) (f : Fld) (v : Nat) : (s.setF f v).free = s.free := rfl
@[simp] theorem State.setF_pending (s : State) (f : Fld) (v : Nat) : (s.setF f v).pending = s.pending := rfl
@[simp] theorem State.raise_time (s : State) (f : Fld) : (s.raise f).time = s.time := rfl
@[simp] theorem State.raise_timeReq (s : State) (f : Fld) : (s.raise f).timeReq = s.timeReq := rfl
@[simp] theorem State.raise_act (s : State) (f : Fld) : (s.raise f).act = s.act := rfl
@[simp] theorem State.raise_ctrs (s : State) (f : Fld) : (s.raise f).ctrs = s.ctrs := rfl
@[simp] theorem State.raise_bus (s : State) (f : Fld) : (s.raise f).bus = s.bus := rfl
@[simp] theorem State.raise_goBusy (s : State) (f : Fld) : (s.raise f).goBusy = s.goBusy := rfl
@[simp] theorem State.raise_jn (s : State) (f : Fld) : (s.raise f).jn = s.jn := rfl
@[simp] theorem State.raise_pool (s : State) (f : Fld) : (s.raise f).pool = s.pool := rfl
@[simp] theorem State.raise_fab (s : State) (f : Fld) : (s.raise f).fab = s.fab := rfl
@[simp] theorem State.raise_ports (s : State) (f : Fld) : (s.raise f).ports = s.ports := rfl
@[simp] theorem State.raise_pl (s : State) (f : Fld) : (s.raise f).pl = s.pl := rfl
@[simp] theorem State.raise_hm (s : State) (f : Fld) : (s.raise f).hm = s.hm := rfl
@[simp] theorem State.raise_pt (s : State) (f : Fld) : (s.raise f).pt = s.pt := rfl
@[simp] theorem State.raise_hi (s : State) (f : Fld) : (s.raise f).hi = s.hi := rfl
@[simp] theorem State.raise_isl (s : State) (f : Fld) : (s.raise f).isl = s.isl := rfl
@[simp] theorem State.raise_tw (s : State) (f : Fld) : (s.raise f).tw = s.tw := rfl
@[simp] theorem State.raise_av (s : State) (f : Fld) : (s.raise f).av = s.av := rfl
@[simp] theorem State.raise_pw (s : State) (f : Fld) : (s.raise f).pw = s.pw := rfl
@[simp] theorem State.raise_db (s : State) (f : Fld) : (s.raise f).db = s.db := rfl
@[simp] theorem State.raise_crfs (s : State) (f : Fld) : (s.raise f).crfs = s.crfs := rfl
@[simp] theorem State.raise_pms (s : State) (f : Fld) : (s.raise f).pms = s.pms := rfl
@[simp] theorem State.raise_bt (s : State) (f : Fld) : (s.raise f).bt = s.bt := rfl
@[simp] theorem State.raise_sg (s : State) (f : Fld) : (s.raise f).sg = s.sg := rfl
@[simp] theorem State.raise_rst (s : State) (f : Fld) : (s.raise f).rst = s.rst := rfl
@[simp] theorem State.raise_out (s : State) (f : Fld) : (s.raise f).out = s.out := rfl
@[simp] theorem State.raise_free (s : State) (f : Fld) : (s.raise f).free = s.free := rfl
@[simp] theorem State.raise_pending (s : State) (f : Fld) : (s.raise f).pending = s.pending := rfl
@[simp] theorem State.orF_time (s : State) (f : Fld) (v : Nat) : (s.orF f v).time = s.time := rfl
@[simp] theorem State.orF_timeReq (s : State) (f : Fld) (v : Nat) : (s.orF f v).timeReq = s.timeReq := rfl
@[simp] theorem State.orF_act (s : State) (f : Fld) (v : Nat) : (s.orF f v).act = s.act := rfl
@[simp] theorem State.orF_ctrs (s : State) (f : Fld) (v : Nat) : (s.orF f v).ctrs = s.ctrs := rfl
@[simp] theorem State.orF_bus (s : State) (f : Fld) (v : Nat) : (s.orF f v).bus = s.bus := rfl
@[simp] theorem State.orF_goBusy (s : State) (f : Fld) (v : Nat) : (s.orF f v).goBusy = s.goBusy := rfl
@[simp] theorem State.orF_jn (s : State) (f : Fld) (v : Nat) : (s.orF f v).jn = s.jn := rfl
@[simp] theorem State.orF_pool (s : State) (f : Fld) (v : Nat) : (s.orF f v).pool = s.pool := rfl
@[simp] theorem State.orF_fab (s : State) (f : Fld) (v : Nat) : (s.orF f v).fab = s.fab := rfl
@[simp] theorem State.orF_ports (s : State) (f : Fld) (v : Nat) : (s.orF f v).ports = s.ports := rfl
@[simp] theorem State.orF_pl (s : State) (f : Fld) (v : Nat) : (s.orF f v).pl = s.pl := rfl
@[simp] theorem State.orF_hm (s : State) (f : Fld) (v : Nat) : (s.orF f v).hm = s.hm := rfl
@[simp] theorem State.orF_pt (s : State) (f : Fld) (v : Nat) : (s.orF f v).pt = s.pt := rfl
@[simp] theorem State.orF_hi (s : State) (f : Fld) (v : Nat) : (s.orF f v).hi = s.hi := rfl
@[simp] theorem State.orF_isl (s : State) (f : Fld) (v : Nat) : (s.orF f v).isl = s.isl := rfl
@[simp] theorem State.orF_tw (s : State) (f : Fld) (v : Nat) : (s.orF f v).tw = s.tw := rfl
@[simp] theorem State.orF_av (s : State) (f : Fld) (v : Nat) : (s.orF f v).av = s.av := rfl
@[simp] theorem State.orF_pw (s : State) (f : Fld) (v : Nat) : (s.orF f v).pw = s.pw := rfl
@[simp] theorem State.orF_db (s : State) (f : Fld) (v : Nat) : (s.orF f v).db = s.db := rfl
@[simp] theorem State.orF_crfs (s : State) (f : Fld) (v : Nat) : (s.orF f v).crfs = s.crfs := rfl
@[simp] theorem State.orF_pms (s : State) (f : Fld) (v : Nat) : (s.orF f v).pms = s.pms := rfl
@[simp] theorem State.orF_bt (s : State) (f : Fld) (v : Nat) : (s.orF f v).bt = s.bt := rfl
@[simp] theorem State.orF_sg (s : State) (f : Fld) (v : Nat) : (s.orF f v).sg = s.sg := rfl
@[simp] theorem State.orF_rst (s : State) (f : Fld) (v : Nat) : (s.orF f v).rst = s.rst := rfl
@[simp] theorem State.orF_out (s : State) (f : Fld) (v : Nat) : (s.orF f v).out = s.out := rfl
@[simp] theorem State.orF_free (s : State) (f : Fld) (v : Nat) : (s.orF f v).free = s.free := rfl
@[simp] theorem State.orF_pending (s : State) (f : Fld) (v : Nat) : (s.orF f v).pending = s.pending := rfl
@[simp] theorem State.setAct_time (s : State) (a : Nat) (w : Word) : (s.setAct a w).time = s.time := rfl
@[simp] theorem State.setAct_timeReq (s : State) (a : Nat) (w : Word) : (s.setAct a w).timeReq = s.timeReq := rfl
@[simp] theorem State.setAct_regs (s : State) (a : Nat) (w : Word) : (s.setAct a w).regs = s.regs := rfl
@[simp] theorem State.setAct_ctrs (s : State) (a : Nat) (w : Word) : (s.setAct a w).ctrs = s.ctrs := rfl
@[simp] theorem State.setAct_bus (s : State) (a : Nat) (w : Word) : (s.setAct a w).bus = s.bus := rfl
@[simp] theorem State.setAct_goBusy (s : State) (a : Nat) (w : Word) : (s.setAct a w).goBusy = s.goBusy := rfl
@[simp] theorem State.setAct_jn (s : State) (a : Nat) (w : Word) : (s.setAct a w).jn = s.jn := rfl
@[simp] theorem State.setAct_pool (s : State) (a : Nat) (w : Word) : (s.setAct a w).pool = s.pool := rfl
@[simp] theorem State.setAct_fab (s : State) (a : Nat) (w : Word) : (s.setAct a w).fab = s.fab := rfl
@[simp] theorem State.setAct_ports (s : State) (a : Nat) (w : Word) : (s.setAct a w).ports = s.ports := rfl
@[simp] theorem State.setAct_pl (s : State) (a : Nat) (w : Word) : (s.setAct a w).pl = s.pl := rfl
@[simp] theorem State.setAct_hm (s : State) (a : Nat) (w : Word) : (s.setAct a w).hm = s.hm := rfl
@[simp] theorem State.setAct_pt (s : State) (a : Nat) (w : Word) : (s.setAct a w).pt = s.pt := rfl
@[simp] theorem State.setAct_hi (s : State) (a : Nat) (w : Word) : (s.setAct a w).hi = s.hi := rfl
@[simp] theorem State.setAct_isl (s : State) (a : Nat) (w : Word) : (s.setAct a w).isl = s.isl := rfl
@[simp] theorem State.setAct_tw (s : State) (a : Nat) (w : Word) : (s.setAct a w).tw = s.tw := rfl
@[simp] theorem State.setAct_av (s : State) (a : Nat) (w : Word) : (s.setAct a w).av = s.av := rfl
@[simp] theorem State.setAct_pw (s : State) (a : Nat) (w : Word) : (s.setAct a w).pw = s.pw := rfl
@[simp] theorem State.setAct_db (s : State) (a : Nat) (w : Word) : (s.setAct a w).db = s.db := rfl
@[simp] theorem State.setAct_crfs (s : State) (a : Nat) (w : Word) : (s.setAct a w).crfs = s.crfs := rfl
@[simp] theorem State.setAct_pms (s : State) (a : Nat) (w : Word) : (s.setAct a w).pms = s.pms := rfl
@[simp] theorem State.setAct_bt (s : State) (a : Nat) (w : Word) : (s.setAct a w).bt = s.bt := rfl
@[simp] theorem State.setAct_sg (s : State) (a : Nat) (w : Word) : (s.setAct a w).sg = s.sg := rfl
@[simp] theorem State.setAct_rst (s : State) (a : Nat) (w : Word) : (s.setAct a w).rst = s.rst := rfl
@[simp] theorem State.setAct_out (s : State) (a : Nat) (w : Word) : (s.setAct a w).out = s.out := rfl
@[simp] theorem State.setAct_free (s : State) (a : Nat) (w : Word) : (s.setAct a w).free = s.free := rfl
@[simp] theorem State.setAct_pending (s : State) (a : Nat) (w : Word) : (s.setAct a w).pending = s.pending := rfl
@[simp] theorem State.setCtr_time (s : State) (a v : Nat) : (s.setCtr a v).time = s.time := rfl
@[simp] theorem State.setCtr_timeReq (s : State) (a v : Nat) : (s.setCtr a v).timeReq = s.timeReq := rfl
@[simp] theorem State.setCtr_regs (s : State) (a v : Nat) : (s.setCtr a v).regs = s.regs := rfl
@[simp] theorem State.setCtr_act (s : State) (a v : Nat) : (s.setCtr a v).act = s.act := rfl
@[simp] theorem State.setCtr_bus (s : State) (a v : Nat) : (s.setCtr a v).bus = s.bus := rfl
@[simp] theorem State.setCtr_goBusy (s : State) (a v : Nat) : (s.setCtr a v).goBusy = s.goBusy := rfl
@[simp] theorem State.setCtr_jn (s : State) (a v : Nat) : (s.setCtr a v).jn = s.jn := rfl
@[simp] theorem State.setCtr_pool (s : State) (a v : Nat) : (s.setCtr a v).pool = s.pool := rfl
@[simp] theorem State.setCtr_fab (s : State) (a v : Nat) : (s.setCtr a v).fab = s.fab := rfl
@[simp] theorem State.setCtr_ports (s : State) (a v : Nat) : (s.setCtr a v).ports = s.ports := rfl
@[simp] theorem State.setCtr_pl (s : State) (a v : Nat) : (s.setCtr a v).pl = s.pl := rfl
@[simp] theorem State.setCtr_hm (s : State) (a v : Nat) : (s.setCtr a v).hm = s.hm := rfl
@[simp] theorem State.setCtr_pt (s : State) (a v : Nat) : (s.setCtr a v).pt = s.pt := rfl
@[simp] theorem State.setCtr_hi (s : State) (a v : Nat) : (s.setCtr a v).hi = s.hi := rfl
@[simp] theorem State.setCtr_isl (s : State) (a v : Nat) : (s.setCtr a v).isl = s.isl := rfl
@[simp] theorem State.setCtr_tw (s : State) (a v : Nat) : (s.setCtr a v).tw = s.tw := rfl
@[simp] theorem State.setCtr_av (s : State) (a v : Nat) : (s.setCtr a v).av = s.av := rfl
@[simp] theorem State.setCtr_pw (s : State) (a v : Nat) : (s.setCtr a v).pw = s.pw := rfl
@[simp] theorem State.setCtr_db (s : State) (a v : Nat) : (s.setCtr a v).db = s.db := rfl
@[simp] theorem State.setCtr_crfs (s : State) (a v : Nat) : (s.setCtr a v).crfs = s.crfs := rfl
@[simp] theorem State.setCtr_pms (s : State) (a v : Nat) : (s.setCtr a v).pms = s.pms := rfl
@[simp] theorem State.setCtr_bt (s : State) (a v : Nat) : (s.setCtr a v).bt = s.bt := rfl
@[simp] theorem State.setCtr_sg (s : State) (a v : Nat) : (s.setCtr a v).sg = s.sg := rfl
@[simp] theorem State.setCtr_rst (s : State) (a v : Nat) : (s.setCtr a v).rst = s.rst := rfl
@[simp] theorem State.setCtr_out (s : State) (a v : Nat) : (s.setCtr a v).out = s.out := rfl
@[simp] theorem State.setCtr_free (s : State) (a v : Nat) : (s.setCtr a v).free = s.free := rfl
@[simp] theorem State.setCtr_pending (s : State) (a v : Nat) : (s.setCtr a v).pending = s.pending := rfl
@[simp] theorem State.count_time (s : State) (a n : Nat) : (s.count a n).time = s.time := rfl
@[simp] theorem State.count_timeReq (s : State) (a n : Nat) : (s.count a n).timeReq = s.timeReq := rfl
@[simp] theorem State.count_regs (s : State) (a n : Nat) : (s.count a n).regs = s.regs := rfl
@[simp] theorem State.count_act (s : State) (a n : Nat) : (s.count a n).act = s.act := rfl
@[simp] theorem State.count_bus (s : State) (a n : Nat) : (s.count a n).bus = s.bus := rfl
@[simp] theorem State.count_goBusy (s : State) (a n : Nat) : (s.count a n).goBusy = s.goBusy := rfl
@[simp] theorem State.count_jn (s : State) (a n : Nat) : (s.count a n).jn = s.jn := rfl
@[simp] theorem State.count_pool (s : State) (a n : Nat) : (s.count a n).pool = s.pool := rfl
@[simp] theorem State.count_fab (s : State) (a n : Nat) : (s.count a n).fab = s.fab := rfl
@[simp] theorem State.count_ports (s : State) (a n : Nat) : (s.count a n).ports = s.ports := rfl
@[simp] theorem State.count_pl (s : State) (a n : Nat) : (s.count a n).pl = s.pl := rfl
@[simp] theorem State.count_hm (s : State) (a n : Nat) : (s.count a n).hm = s.hm := rfl
@[simp] theorem State.count_pt (s : State) (a n : Nat) : (s.count a n).pt = s.pt := rfl
@[simp] theorem State.count_hi (s : State) (a n : Nat) : (s.count a n).hi = s.hi := rfl
@[simp] theorem State.count_isl (s : State) (a n : Nat) : (s.count a n).isl = s.isl := rfl
@[simp] theorem State.count_tw (s : State) (a n : Nat) : (s.count a n).tw = s.tw := rfl
@[simp] theorem State.count_av (s : State) (a n : Nat) : (s.count a n).av = s.av := rfl
@[simp] theorem State.count_pw (s : State) (a n : Nat) : (s.count a n).pw = s.pw := rfl
@[simp] theorem State.count_db (s : State) (a n : Nat) : (s.count a n).db = s.db := rfl
@[simp] theorem State.count_crfs (s : State) (a n : Nat) : (s.count a n).crfs = s.crfs := rfl
@[simp] theorem State.count_pms (s : State) (a n : Nat) : (s.count a n).pms = s.pms := rfl
@[simp] theorem State.count_bt (s : State) (a n : Nat) : (s.count a n).bt = s.bt := rfl
@[simp] theorem State.count_sg (s : State) (a n : Nat) : (s.count a n).sg = s.sg := rfl
@[simp] theorem State.count_rst (s : State) (a n : Nat) : (s.count a n).rst = s.rst := rfl
@[simp] theorem State.count_out (s : State) (a n : Nat) : (s.count a n).out = s.out := rfl
@[simp] theorem State.count_free (s : State) (a n : Nat) : (s.count a n).free = s.free := rfl
@[simp] theorem State.count_pending (s : State) (a n : Nat) : (s.count a n).pending = s.pending := rfl
@[simp] theorem State.setPort_time (s : State) (p : Nat) (x : Port) : (s.setPort p x).time = s.time := rfl
@[simp] theorem State.setPort_timeReq (s : State) (p : Nat) (x : Port) : (s.setPort p x).timeReq = s.timeReq := rfl
@[simp] theorem State.setPort_regs (s : State) (p : Nat) (x : Port) : (s.setPort p x).regs = s.regs := rfl
@[simp] theorem State.setPort_act (s : State) (p : Nat) (x : Port) : (s.setPort p x).act = s.act := rfl
@[simp] theorem State.setPort_ctrs (s : State) (p : Nat) (x : Port) : (s.setPort p x).ctrs = s.ctrs := rfl
@[simp] theorem State.setPort_bus (s : State) (p : Nat) (x : Port) : (s.setPort p x).bus = s.bus := rfl
@[simp] theorem State.setPort_goBusy (s : State) (p : Nat) (x : Port) : (s.setPort p x).goBusy = s.goBusy := rfl
@[simp] theorem State.setPort_jn (s : State) (p : Nat) (x : Port) : (s.setPort p x).jn = s.jn := rfl
@[simp] theorem State.setPort_pool (s : State) (p : Nat) (x : Port) : (s.setPort p x).pool = s.pool := rfl
@[simp] theorem State.setPort_fab (s : State) (p : Nat) (x : Port) : (s.setPort p x).fab = s.fab := rfl
@[simp] theorem State.setPort_pl (s : State) (p : Nat) (x : Port) : (s.setPort p x).pl = s.pl := rfl
@[simp] theorem State.setPort_hm (s : State) (p : Nat) (x : Port) : (s.setPort p x).hm = s.hm := rfl
@[simp] theorem State.setPort_pt (s : State) (p : Nat) (x : Port) : (s.setPort p x).pt = s.pt := rfl
@[simp] theorem State.setPort_hi (s : State) (p : Nat) (x : Port) : (s.setPort p x).hi = s.hi := rfl
@[simp] theorem State.setPort_isl (s : State) (p : Nat) (x : Port) : (s.setPort p x).isl = s.isl := rfl
@[simp] theorem State.setPort_tw (s : State) (p : Nat) (x : Port) : (s.setPort p x).tw = s.tw := rfl
@[simp] theorem State.setPort_av (s : State) (p : Nat) (x : Port) : (s.setPort p x).av = s.av := rfl
@[simp] theorem State.setPort_pw (s : State) (p : Nat) (x : Port) : (s.setPort p x).pw = s.pw := rfl
@[simp] theorem State.setPort_db (s : State) (p : Nat) (x : Port) : (s.setPort p x).db = s.db := rfl
@[simp] theorem State.setPort_crfs (s : State) (p : Nat) (x : Port) : (s.setPort p x).crfs = s.crfs := rfl
@[simp] theorem State.setPort_pms (s : State) (p : Nat) (x : Port) : (s.setPort p x).pms = s.pms := rfl
@[simp] theorem State.setPort_bt (s : State) (p : Nat) (x : Port) : (s.setPort p x).bt = s.bt := rfl
@[simp] theorem State.setPort_sg (s : State) (p : Nat) (x : Port) : (s.setPort p x).sg = s.sg := rfl
@[simp] theorem State.setPort_rst (s : State) (p : Nat) (x : Port) : (s.setPort p x).rst = s.rst := rfl
@[simp] theorem State.setPort_out (s : State) (p : Nat) (x : Port) : (s.setPort p x).out = s.out := rfl
@[simp] theorem State.setPort_free (s : State) (p : Nat) (x : Port) : (s.setPort p x).free = s.free := rfl
@[simp] theorem State.setPort_pending (s : State) (p : Nat) (x : Port) : (s.setPort p x).pending = s.pending := rfl
@[simp] theorem State.setIni_time (s : State) (i : Nat) (b : IniBus) : (s.setIni i b).time = s.time := rfl
@[simp] theorem State.setIni_timeReq (s : State) (i : Nat) (b : IniBus) : (s.setIni i b).timeReq = s.timeReq := rfl
@[simp] theorem State.setIni_regs (s : State) (i : Nat) (b : IniBus) : (s.setIni i b).regs = s.regs := rfl
@[simp] theorem State.setIni_act (s : State) (i : Nat) (b : IniBus) : (s.setIni i b).act = s.act := rfl
@[simp] theorem State.setIni_ctrs (s : State) (i : Nat) (b : IniBus) : (s.setIni i b).ctrs = s.ctrs := rfl
@[simp] theorem State.setIni_goBusy (s : State) (i : Nat) (b : IniBus) : (s.setIni i b).goBusy = s.goBusy := rfl
@[simp] theorem State.setIni_jn (s : State) (i : Nat) (b : IniBus) : (s.setIni i b).jn = s.jn := rfl
@[simp] theorem State.setIni_pool (s : State) (i : Nat) (b : IniBus) : (s.setIni i b).pool = s.pool := rfl
@[simp] theorem State.setIni_fab (s : State) (i : Nat) (b : IniBus) : (s.setIni i b).fab = s.fab := rfl
@[simp] theorem State.setIni_ports (s : State) (i : Nat) (b : IniBus) : (s.setIni i b).ports = s.ports := rfl
@[simp] theorem State.setIni_pl (s : State) (i : Nat) (b : IniBus) : (s.setIni i b).pl = s.pl := rfl
@[simp] theorem State.setIni_hm (s : State) (i : Nat) (b : IniBus) : (s.setIni i b).hm = s.hm := rfl
@[simp] theorem State.setIni_pt (s : State) (i : Nat) (b : IniBus) : (s.setIni i b).pt = s.pt := rfl
@[simp] theorem State.setIni_hi (s : State) (i : Nat) (b : IniBus) : (s.setIni i b).hi = s.hi := rfl
@[simp] theorem State.setIni_isl (s : State) (i : Nat) (b : IniBus) : (s.setIni i b).isl = s.isl := rfl
@[simp] theorem State.setIni_tw (s : State) (i : Nat) (b : IniBus) : (s.setIni i b).tw = s.tw := rfl
@[simp] theorem State.setIni_av (s : State) (i : Nat) (b : IniBus) : (s.setIni i b).av = s.av := rfl
@[simp] theorem State.setIni_pw (s : State) (i : Nat) (b : IniBus) : (s.setIni i b).pw = s.pw := rfl
@[simp] theorem State.setIni_db (s : State) (i : Nat) (b : IniBus) : (s.setIni i b).db = s.db := rfl
@[simp] theorem State.setIni_crfs (s : State) (i : Nat) (b : IniBus) : (s.setIni i b).crfs = s.crfs := rfl
@[simp] theorem State.setIni_pms (s : State) (i : Nat) (b : IniBus) : (s.setIni i b).pms = s.pms := rfl
@[simp] theorem State.setIni_bt (s : State) (i : Nat) (b : IniBus) : (s.setIni i b).bt = s.bt := rfl
@[simp] theorem State.setIni_sg (s : State) (i : Nat) (b : IniBus) : (s.setIni i b).sg = s.sg := rfl
@[simp] theorem State.setIni_rst (s : State) (i : Nat) (b : IniBus) : (s.setIni i b).rst = s.rst := rfl
@[simp] theorem State.setIni_out (s : State) (i : Nat) (b : IniBus) : (s.setIni i b).out = s.out := rfl
@[simp] theorem State.setIni_free (s : State) (i : Nat) (b : IniBus) : (s.setIni i b).free = s.free := rfl
@[simp] theorem State.setIni_pending (s : State) (i : Nat) (b : IniBus) : (s.setIni i b).pending = s.pending := rfl
@[simp] theorem State.setFrame_time (s : State) (f : Nat) (x : Frame) : (s.setFrame f x).time = s.time := rfl
@[simp] theorem State.setFrame_timeReq (s : State) (f : Nat) (x : Frame) : (s.setFrame f x).timeReq = s.timeReq := rfl
@[simp] theorem State.setFrame_regs (s : State) (f : Nat) (x : Frame) : (s.setFrame f x).regs = s.regs := rfl
@[simp] theorem State.setFrame_act (s : State) (f : Nat) (x : Frame) : (s.setFrame f x).act = s.act := rfl
@[simp] theorem State.setFrame_ctrs (s : State) (f : Nat) (x : Frame) : (s.setFrame f x).ctrs = s.ctrs := rfl
@[simp] theorem State.setFrame_bus (s : State) (f : Nat) (x : Frame) : (s.setFrame f x).bus = s.bus := rfl
@[simp] theorem State.setFrame_goBusy (s : State) (f : Nat) (x : Frame) : (s.setFrame f x).goBusy = s.goBusy := rfl
@[simp] theorem State.setFrame_jn (s : State) (f : Nat) (x : Frame) : (s.setFrame f x).jn = s.jn := rfl
@[simp] theorem State.setFrame_pool (s : State) (f : Nat) (x : Frame) : (s.setFrame f x).pool = s.pool := rfl
@[simp] theorem State.setFrame_ports (s : State) (f : Nat) (x : Frame) : (s.setFrame f x).ports = s.ports := rfl
@[simp] theorem State.setFrame_pl (s : State) (f : Nat) (x : Frame) : (s.setFrame f x).pl = s.pl := rfl
@[simp] theorem State.setFrame_hm (s : State) (f : Nat) (x : Frame) : (s.setFrame f x).hm = s.hm := rfl
@[simp] theorem State.setFrame_pt (s : State) (f : Nat) (x : Frame) : (s.setFrame f x).pt = s.pt := rfl
@[simp] theorem State.setFrame_hi (s : State) (f : Nat) (x : Frame) : (s.setFrame f x).hi = s.hi := rfl
@[simp] theorem State.setFrame_isl (s : State) (f : Nat) (x : Frame) : (s.setFrame f x).isl = s.isl := rfl
@[simp] theorem State.setFrame_tw (s : State) (f : Nat) (x : Frame) : (s.setFrame f x).tw = s.tw := rfl
@[simp] theorem State.setFrame_av (s : State) (f : Nat) (x : Frame) : (s.setFrame f x).av = s.av := rfl
@[simp] theorem State.setFrame_pw (s : State) (f : Nat) (x : Frame) : (s.setFrame f x).pw = s.pw := rfl
@[simp] theorem State.setFrame_db (s : State) (f : Nat) (x : Frame) : (s.setFrame f x).db = s.db := rfl
@[simp] theorem State.setFrame_crfs (s : State) (f : Nat) (x : Frame) : (s.setFrame f x).crfs = s.crfs := rfl
@[simp] theorem State.setFrame_pms (s : State) (f : Nat) (x : Frame) : (s.setFrame f x).pms = s.pms := rfl
@[simp] theorem State.setFrame_bt (s : State) (f : Nat) (x : Frame) : (s.setFrame f x).bt = s.bt := rfl
@[simp] theorem State.setFrame_sg (s : State) (f : Nat) (x : Frame) : (s.setFrame f x).sg = s.sg := rfl
@[simp] theorem State.setFrame_rst (s : State) (f : Nat) (x : Frame) : (s.setFrame f x).rst = s.rst := rfl
@[simp] theorem State.setFrame_out (s : State) (f : Nat) (x : Frame) : (s.setFrame f x).out = s.out := rfl
@[simp] theorem State.setFrame_free (s : State) (f : Nat) (x : Frame) : (s.setFrame f x).free = s.free := rfl
@[simp] theorem State.setFrame_pending (s : State) (f : Nat) (x : Frame) : (s.setFrame f x).pending = s.pending := rfl
@[simp] theorem State.dropFrame_time (s : State) (f : Nat) : (s.dropFrame f).time = s.time := rfl
@[simp] theorem State.dropFrame_timeReq (s : State) (f : Nat) : (s.dropFrame f).timeReq = s.timeReq := rfl
@[simp] theorem State.dropFrame_regs (s : State) (f : Nat) : (s.dropFrame f).regs = s.regs := rfl
@[simp] theorem State.dropFrame_act (s : State) (f : Nat) : (s.dropFrame f).act = s.act := rfl
@[simp] theorem State.dropFrame_ctrs (s : State) (f : Nat) : (s.dropFrame f).ctrs = s.ctrs := rfl
@[simp] theorem State.dropFrame_bus (s : State) (f : Nat) : (s.dropFrame f).bus = s.bus := rfl
@[simp] theorem State.dropFrame_goBusy (s : State) (f : Nat) : (s.dropFrame f).goBusy = s.goBusy := rfl
@[simp] theorem State.dropFrame_jn (s : State) (f : Nat) : (s.dropFrame f).jn = s.jn := rfl
@[simp] theorem State.dropFrame_pool (s : State) (f : Nat) : (s.dropFrame f).pool = s.pool := rfl
@[simp] theorem State.dropFrame_ports (s : State) (f : Nat) : (s.dropFrame f).ports = s.ports := rfl
@[simp] theorem State.dropFrame_pl (s : State) (f : Nat) : (s.dropFrame f).pl = s.pl := rfl
@[simp] theorem State.dropFrame_hm (s : State) (f : Nat) : (s.dropFrame f).hm = s.hm := rfl
@[simp] theorem State.dropFrame_pt (s : State) (f : Nat) : (s.dropFrame f).pt = s.pt := rfl
@[simp] theorem State.dropFrame_hi (s : State) (f : Nat) : (s.dropFrame f).hi = s.hi := rfl
@[simp] theorem State.dropFrame_isl (s : State) (f : Nat) : (s.dropFrame f).isl = s.isl := rfl
@[simp] theorem State.dropFrame_tw (s : State) (f : Nat) : (s.dropFrame f).tw = s.tw := rfl
@[simp] theorem State.dropFrame_av (s : State) (f : Nat) : (s.dropFrame f).av = s.av := rfl
@[simp] theorem State.dropFrame_pw (s : State) (f : Nat) : (s.dropFrame f).pw = s.pw := rfl
@[simp] theorem State.dropFrame_db (s : State) (f : Nat) : (s.dropFrame f).db = s.db := rfl
@[simp] theorem State.dropFrame_crfs (s : State) (f : Nat) : (s.dropFrame f).crfs = s.crfs := rfl
@[simp] theorem State.dropFrame_pms (s : State) (f : Nat) : (s.dropFrame f).pms = s.pms := rfl
@[simp] theorem State.dropFrame_bt (s : State) (f : Nat) : (s.dropFrame f).bt = s.bt := rfl
@[simp] theorem State.dropFrame_sg (s : State) (f : Nat) : (s.dropFrame f).sg = s.sg := rfl
@[simp] theorem State.dropFrame_rst (s : State) (f : Nat) : (s.dropFrame f).rst = s.rst := rfl
@[simp] theorem State.dropFrame_out (s : State) (f : Nat) : (s.dropFrame f).out = s.out := rfl
@[simp] theorem State.dropFrame_free (s : State) (f : Nat) : (s.dropFrame f).free = s.free := rfl
@[simp] theorem State.dropFrame_pending (s : State) (f : Nat) : (s.dropFrame f).pending = s.pending := rfl
@[simp] theorem State.setRing_time (s : State) (r : Nat) (x : Ring) : (s.setRing r x).time = s.time := rfl
@[simp] theorem State.setRing_timeReq (s : State) (r : Nat) (x : Ring) : (s.setRing r x).timeReq = s.timeReq := rfl
@[simp] theorem State.setRing_regs (s : State) (r : Nat) (x : Ring) : (s.setRing r x).regs = s.regs := rfl
@[simp] theorem State.setRing_act (s : State) (r : Nat) (x : Ring) : (s.setRing r x).act = s.act := rfl
@[simp] theorem State.setRing_ctrs (s : State) (r : Nat) (x : Ring) : (s.setRing r x).ctrs = s.ctrs := rfl
@[simp] theorem State.setRing_bus (s : State) (r : Nat) (x : Ring) : (s.setRing r x).bus = s.bus := rfl
@[simp] theorem State.setRing_goBusy (s : State) (r : Nat) (x : Ring) : (s.setRing r x).goBusy = s.goBusy := rfl
@[simp] theorem State.setRing_jn (s : State) (r : Nat) (x : Ring) : (s.setRing r x).jn = s.jn := rfl
@[simp] theorem State.setRing_pool (s : State) (r : Nat) (x : Ring) : (s.setRing r x).pool = s.pool := rfl
@[simp] theorem State.setRing_fab (s : State) (r : Nat) (x : Ring) : (s.setRing r x).fab = s.fab := rfl
@[simp] theorem State.setRing_ports (s : State) (r : Nat) (x : Ring) : (s.setRing r x).ports = s.ports := rfl
@[simp] theorem State.setRing_pl (s : State) (r : Nat) (x : Ring) : (s.setRing r x).pl = s.pl := rfl
@[simp] theorem State.setRing_hm (s : State) (r : Nat) (x : Ring) : (s.setRing r x).hm = s.hm := rfl
@[simp] theorem State.setRing_pt (s : State) (r : Nat) (x : Ring) : (s.setRing r x).pt = s.pt := rfl
@[simp] theorem State.setRing_isl (s : State) (r : Nat) (x : Ring) : (s.setRing r x).isl = s.isl := rfl
@[simp] theorem State.setRing_tw (s : State) (r : Nat) (x : Ring) : (s.setRing r x).tw = s.tw := rfl
@[simp] theorem State.setRing_av (s : State) (r : Nat) (x : Ring) : (s.setRing r x).av = s.av := rfl
@[simp] theorem State.setRing_pw (s : State) (r : Nat) (x : Ring) : (s.setRing r x).pw = s.pw := rfl
@[simp] theorem State.setRing_db (s : State) (r : Nat) (x : Ring) : (s.setRing r x).db = s.db := rfl
@[simp] theorem State.setRing_crfs (s : State) (r : Nat) (x : Ring) : (s.setRing r x).crfs = s.crfs := rfl
@[simp] theorem State.setRing_pms (s : State) (r : Nat) (x : Ring) : (s.setRing r x).pms = s.pms := rfl
@[simp] theorem State.setRing_bt (s : State) (r : Nat) (x : Ring) : (s.setRing r x).bt = s.bt := rfl
@[simp] theorem State.setRing_sg (s : State) (r : Nat) (x : Ring) : (s.setRing r x).sg = s.sg := rfl
@[simp] theorem State.setRing_rst (s : State) (r : Nat) (x : Ring) : (s.setRing r x).rst = s.rst := rfl
@[simp] theorem State.setRing_out (s : State) (r : Nat) (x : Ring) : (s.setRing r x).out = s.out := rfl
@[simp] theorem State.setRing_free (s : State) (r : Nat) (x : Ring) : (s.setRing r x).free = s.free := rfl
@[simp] theorem State.setRing_pending (s : State) (r : Nat) (x : Ring) : (s.setRing r x).pending = s.pending := rfl
@[simp] theorem State.emit_time (s : State) (e : OutEv) : (s.emit e).time = s.time := rfl
@[simp] theorem State.emit_timeReq (s : State) (e : OutEv) : (s.emit e).timeReq = s.timeReq := rfl
@[simp] theorem State.emit_regs (s : State) (e : OutEv) : (s.emit e).regs = s.regs := rfl
@[simp] theorem State.emit_act (s : State) (e : OutEv) : (s.emit e).act = s.act := rfl
@[simp] theorem State.emit_ctrs (s : State) (e : OutEv) : (s.emit e).ctrs = s.ctrs := rfl
@[simp] theorem State.emit_bus (s : State) (e : OutEv) : (s.emit e).bus = s.bus := rfl
@[simp] theorem State.emit_goBusy (s : State) (e : OutEv) : (s.emit e).goBusy = s.goBusy := rfl
@[simp] theorem State.emit_jn (s : State) (e : OutEv) : (s.emit e).jn = s.jn := rfl
@[simp] theorem State.emit_pool (s : State) (e : OutEv) : (s.emit e).pool = s.pool := rfl
@[simp] theorem State.emit_fab (s : State) (e : OutEv) : (s.emit e).fab = s.fab := rfl
@[simp] theorem State.emit_ports (s : State) (e : OutEv) : (s.emit e).ports = s.ports := rfl
@[simp] theorem State.emit_pl (s : State) (e : OutEv) : (s.emit e).pl = s.pl := rfl
@[simp] theorem State.emit_hm (s : State) (e : OutEv) : (s.emit e).hm = s.hm := rfl
@[simp] theorem State.emit_pt (s : State) (e : OutEv) : (s.emit e).pt = s.pt := rfl
@[simp] theorem State.emit_hi (s : State) (e : OutEv) : (s.emit e).hi = s.hi := rfl
@[simp] theorem State.emit_isl (s : State) (e : OutEv) : (s.emit e).isl = s.isl := rfl
@[simp] theorem State.emit_tw (s : State) (e : OutEv) : (s.emit e).tw = s.tw := rfl
@[simp] theorem State.emit_av (s : State) (e : OutEv) : (s.emit e).av = s.av := rfl
@[simp] theorem State.emit_pw (s : State) (e : OutEv) : (s.emit e).pw = s.pw := rfl
@[simp] theorem State.emit_db (s : State) (e : OutEv) : (s.emit e).db = s.db := rfl
@[simp] theorem State.emit_crfs (s : State) (e : OutEv) : (s.emit e).crfs = s.crfs := rfl
@[simp] theorem State.emit_pms (s : State) (e : OutEv) : (s.emit e).pms = s.pms := rfl
@[simp] theorem State.emit_bt (s : State) (e : OutEv) : (s.emit e).bt = s.bt := rfl
@[simp] theorem State.emit_sg (s : State) (e : OutEv) : (s.emit e).sg = s.sg := rfl
@[simp] theorem State.emit_rst (s : State) (e : OutEv) : (s.emit e).rst = s.rst := rfl
@[simp] theorem State.emit_free (s : State) (e : OutEv) : (s.emit e).free = s.free := rfl
@[simp] theorem State.emit_pending (s : State) (e : OutEv) : (s.emit e).pending = s.pending := rfl
@[simp] theorem State.drawn_time (s : State) : (s.drawn).time = s.time := rfl
@[simp] theorem State.drawn_timeReq (s : State) : (s.drawn).timeReq = s.timeReq := rfl
@[simp] theorem State.drawn_regs (s : State) : (s.drawn).regs = s.regs := rfl
@[simp] theorem State.drawn_act (s : State) : (s.drawn).act = s.act := rfl
@[simp] theorem State.drawn_ctrs (s : State) : (s.drawn).ctrs = s.ctrs := rfl
@[simp] theorem State.drawn_bus (s : State) : (s.drawn).bus = s.bus := rfl
@[simp] theorem State.drawn_goBusy (s : State) : (s.drawn).goBusy = s.goBusy := rfl
@[simp] theorem State.drawn_jn (s : State) : (s.drawn).jn = s.jn := rfl
@[simp] theorem State.drawn_pool (s : State) : (s.drawn).pool = s.pool := rfl
@[simp] theorem State.drawn_fab (s : State) : (s.drawn).fab = s.fab := rfl
@[simp] theorem State.drawn_ports (s : State) : (s.drawn).ports = s.ports := rfl
@[simp] theorem State.drawn_pl (s : State) : (s.drawn).pl = s.pl := rfl
@[simp] theorem State.drawn_hm (s : State) : (s.drawn).hm = s.hm := rfl
@[simp] theorem State.drawn_pt (s : State) : (s.drawn).pt = s.pt := rfl
@[simp] theorem State.drawn_hi (s : State) : (s.drawn).hi = s.hi := rfl
@[simp] theorem State.drawn_isl (s : State) : (s.drawn).isl = s.isl := rfl
@[simp] theorem State.drawn_tw (s : State) : (s.drawn).tw = s.tw := rfl
@[simp] theorem State.drawn_av (s : State) : (s.drawn).av = s.av := rfl
@[simp] theorem State.drawn_pw (s : State) : (s.drawn).pw = s.pw := rfl
@[simp] theorem State.drawn_db (s : State) : (s.drawn).db = s.db := rfl
@[simp] theorem State.drawn_crfs (s : State) : (s.drawn).crfs = s.crfs := rfl
@[simp] theorem State.drawn_pms (s : State) : (s.drawn).pms = s.pms := rfl
@[simp] theorem State.drawn_bt (s : State) : (s.drawn).bt = s.bt := rfl
@[simp] theorem State.drawn_sg (s : State) : (s.drawn).sg = s.sg := rfl
@[simp] theorem State.drawn_rst (s : State) : (s.drawn).rst = s.rst := rfl
@[simp] theorem State.drawn_out (s : State) : (s.drawn).out = s.out := rfl
@[simp] theorem State.drawn_pending (s : State) : (s.drawn).pending = s.pending := rfl
@[simp] theorem State.startGo_time (s : State) (a bound : Nat) : (s.startGo a bound).time = s.time := rfl
@[simp] theorem State.startGo_timeReq (s : State) (a bound : Nat) : (s.startGo a bound).timeReq = s.timeReq := rfl
@[simp] theorem State.startGo_regs (s : State) (a bound : Nat) : (s.startGo a bound).regs = s.regs := rfl
@[simp] theorem State.startGo_act (s : State) (a bound : Nat) : (s.startGo a bound).act = s.act := rfl
@[simp] theorem State.startGo_ctrs (s : State) (a bound : Nat) : (s.startGo a bound).ctrs = s.ctrs := rfl
@[simp] theorem State.startGo_bus (s : State) (a bound : Nat) : (s.startGo a bound).bus = s.bus := rfl
@[simp] theorem State.startGo_jn (s : State) (a bound : Nat) : (s.startGo a bound).jn = s.jn := rfl
@[simp] theorem State.startGo_pool (s : State) (a bound : Nat) : (s.startGo a bound).pool = s.pool := rfl
@[simp] theorem State.startGo_fab (s : State) (a bound : Nat) : (s.startGo a bound).fab = s.fab := rfl
@[simp] theorem State.startGo_ports (s : State) (a bound : Nat) : (s.startGo a bound).ports = s.ports := rfl
@[simp] theorem State.startGo_pl (s : State) (a bound : Nat) : (s.startGo a bound).pl = s.pl := rfl
@[simp] theorem State.startGo_hm (s : State) (a bound : Nat) : (s.startGo a bound).hm = s.hm := rfl
@[simp] theorem State.startGo_pt (s : State) (a bound : Nat) : (s.startGo a bound).pt = s.pt := rfl
@[simp] theorem State.startGo_hi (s : State) (a bound : Nat) : (s.startGo a bound).hi = s.hi := rfl
@[simp] theorem State.startGo_isl (s : State) (a bound : Nat) : (s.startGo a bound).isl = s.isl := rfl
@[simp] theorem State.startGo_tw (s : State) (a bound : Nat) : (s.startGo a bound).tw = s.tw := rfl
@[simp] theorem State.startGo_av (s : State) (a bound : Nat) : (s.startGo a bound).av = s.av := rfl
@[simp] theorem State.startGo_pw (s : State) (a bound : Nat) : (s.startGo a bound).pw = s.pw := rfl
@[simp] theorem State.startGo_db (s : State) (a bound : Nat) : (s.startGo a bound).db = s.db := rfl
@[simp] theorem State.startGo_crfs (s : State) (a bound : Nat) : (s.startGo a bound).crfs = s.crfs := rfl
@[simp] theorem State.startGo_pms (s : State) (a bound : Nat) : (s.startGo a bound).pms = s.pms := rfl
@[simp] theorem State.startGo_bt (s : State) (a bound : Nat) : (s.startGo a bound).bt = s.bt := rfl
@[simp] theorem State.startGo_sg (s : State) (a bound : Nat) : (s.startGo a bound).sg = s.sg := rfl
@[simp] theorem State.startGo_rst (s : State) (a bound : Nat) : (s.startGo a bound).rst = s.rst := rfl
@[simp] theorem State.startGo_out (s : State) (a bound : Nat) : (s.startGo a bound).out = s.out := rfl
@[simp] theorem State.startGo_pending (s : State) (a bound : Nat) : (s.startGo a bound).pending = s.pending := rfl
@[simp] theorem State.later_regs (s : State) (dt : Nat) : (s.later dt).regs = s.regs := rfl
@[simp] theorem State.later_act (s : State) (dt : Nat) : (s.later dt).act = s.act := rfl
@[simp] theorem State.later_ctrs (s : State) (dt : Nat) : (s.later dt).ctrs = s.ctrs := rfl
@[simp] theorem State.later_bus (s : State) (dt : Nat) : (s.later dt).bus = s.bus := rfl
@[simp] theorem State.later_goBusy (s : State) (dt : Nat) : (s.later dt).goBusy = s.goBusy := rfl
@[simp] theorem State.later_jn (s : State) (dt : Nat) : (s.later dt).jn = s.jn := rfl
@[simp] theorem State.later_pool (s : State) (dt : Nat) : (s.later dt).pool = s.pool := rfl
@[simp] theorem State.later_fab (s : State) (dt : Nat) : (s.later dt).fab = s.fab := rfl
@[simp] theorem State.later_ports (s : State) (dt : Nat) : (s.later dt).ports = s.ports := rfl
@[simp] theorem State.later_pl (s : State) (dt : Nat) : (s.later dt).pl = s.pl := rfl
@[simp] theorem State.later_hm (s : State) (dt : Nat) : (s.later dt).hm = s.hm := rfl
@[simp] theorem State.later_pt (s : State) (dt : Nat) : (s.later dt).pt = s.pt := rfl
@[simp] theorem State.later_hi (s : State) (dt : Nat) : (s.later dt).hi = s.hi := rfl
@[simp] theorem State.later_isl (s : State) (dt : Nat) : (s.later dt).isl = s.isl := rfl
@[simp] theorem State.later_tw (s : State) (dt : Nat) : (s.later dt).tw = s.tw := rfl
@[simp] theorem State.later_av (s : State) (dt : Nat) : (s.later dt).av = s.av := rfl
@[simp] theorem State.later_pw (s : State) (dt : Nat) : (s.later dt).pw = s.pw := rfl
@[simp] theorem State.later_db (s : State) (dt : Nat) : (s.later dt).db = s.db := rfl
@[simp] theorem State.later_crfs (s : State) (dt : Nat) : (s.later dt).crfs = s.crfs := rfl
@[simp] theorem State.later_pms (s : State) (dt : Nat) : (s.later dt).pms = s.pms := rfl
@[simp] theorem State.later_bt (s : State) (dt : Nat) : (s.later dt).bt = s.bt := rfl
@[simp] theorem State.later_sg (s : State) (dt : Nat) : (s.later dt).sg = s.sg := rfl
@[simp] theorem State.later_rst (s : State) (dt : Nat) : (s.later dt).rst = s.rst := rfl
@[simp] theorem State.later_out (s : State) (dt : Nat) : (s.later dt).out = s.out := rfl
@[simp] theorem State.later_free (s : State) (dt : Nat) : (s.later dt).free = s.free := rfl
@[simp] theorem State.later_pending (s : State) (dt : Nat) : (s.later dt).pending = s.pending := rfl
@[simp] theorem State.setCrf_time (s : State) (p : Nat) (x : Crf) : (s.setCrf p x).time = s.time := rfl
@[simp] theorem State.setCrf_timeReq (s : State) (p : Nat) (x : Crf) : (s.setCrf p x).timeReq = s.timeReq := rfl
@[simp] theorem State.setCrf_regs (s : State) (p : Nat) (x : Crf) : (s.setCrf p x).regs = s.regs := rfl
@[simp] theorem State.setCrf_act (s : State) (p : Nat) (x : Crf) : (s.setCrf p x).act = s.act := rfl
@[simp] theorem State.setCrf_ctrs (s : State) (p : Nat) (x : Crf) : (s.setCrf p x).ctrs = s.ctrs := rfl
@[simp] theorem State.setCrf_bus (s : State) (p : Nat) (x : Crf) : (s.setCrf p x).bus = s.bus := rfl
@[simp] theorem State.setCrf_goBusy (s : State) (p : Nat) (x : Crf) : (s.setCrf p x).goBusy = s.goBusy := rfl
@[simp] theorem State.setCrf_jn (s : State) (p : Nat) (x : Crf) : (s.setCrf p x).jn = s.jn := rfl
@[simp] theorem State.setCrf_pool (s : State) (p : Nat) (x : Crf) : (s.setCrf p x).pool = s.pool := rfl
@[simp] theorem State.setCrf_fab (s : State) (p : Nat) (x : Crf) : (s.setCrf p x).fab = s.fab := rfl
@[simp] theorem State.setCrf_ports (s : State) (p : Nat) (x : Crf) : (s.setCrf p x).ports = s.ports := rfl
@[simp] theorem State.setCrf_pl (s : State) (p : Nat) (x : Crf) : (s.setCrf p x).pl = s.pl := rfl
@[simp] theorem State.setCrf_hm (s : State) (p : Nat) (x : Crf) : (s.setCrf p x).hm = s.hm := rfl
@[simp] theorem State.setCrf_pt (s : State) (p : Nat) (x : Crf) : (s.setCrf p x).pt = s.pt := rfl
@[simp] theorem State.setCrf_hi (s : State) (p : Nat) (x : Crf) : (s.setCrf p x).hi = s.hi := rfl
@[simp] theorem State.setCrf_isl (s : State) (p : Nat) (x : Crf) : (s.setCrf p x).isl = s.isl := rfl
@[simp] theorem State.setCrf_tw (s : State) (p : Nat) (x : Crf) : (s.setCrf p x).tw = s.tw := rfl
@[simp] theorem State.setCrf_av (s : State) (p : Nat) (x : Crf) : (s.setCrf p x).av = s.av := rfl
@[simp] theorem State.setCrf_pw (s : State) (p : Nat) (x : Crf) : (s.setCrf p x).pw = s.pw := rfl
@[simp] theorem State.setCrf_db (s : State) (p : Nat) (x : Crf) : (s.setCrf p x).db = s.db := rfl
@[simp] theorem State.setCrf_pms (s : State) (p : Nat) (x : Crf) : (s.setCrf p x).pms = s.pms := rfl
@[simp] theorem State.setCrf_bt (s : State) (p : Nat) (x : Crf) : (s.setCrf p x).bt = s.bt := rfl
@[simp] theorem State.setCrf_sg (s : State) (p : Nat) (x : Crf) : (s.setCrf p x).sg = s.sg := rfl
@[simp] theorem State.setCrf_rst (s : State) (p : Nat) (x : Crf) : (s.setCrf p x).rst = s.rst := rfl
@[simp] theorem State.setCrf_out (s : State) (p : Nat) (x : Crf) : (s.setCrf p x).out = s.out := rfl
@[simp] theorem State.setCrf_free (s : State) (p : Nat) (x : Crf) : (s.setCrf p x).free = s.free := rfl
@[simp] theorem State.setCrf_pending (s : State) (p : Nat) (x : Crf) : (s.setCrf p x).pending = s.pending := rfl
@[simp] theorem State.setPm_time (s : State) (p : Nat) (x : Pm) : (s.setPm p x).time = s.time := rfl
@[simp] theorem State.setPm_timeReq (s : State) (p : Nat) (x : Pm) : (s.setPm p x).timeReq = s.timeReq := rfl
@[simp] theorem State.setPm_regs (s : State) (p : Nat) (x : Pm) : (s.setPm p x).regs = s.regs := rfl
@[simp] theorem State.setPm_act (s : State) (p : Nat) (x : Pm) : (s.setPm p x).act = s.act := rfl
@[simp] theorem State.setPm_ctrs (s : State) (p : Nat) (x : Pm) : (s.setPm p x).ctrs = s.ctrs := rfl
@[simp] theorem State.setPm_bus (s : State) (p : Nat) (x : Pm) : (s.setPm p x).bus = s.bus := rfl
@[simp] theorem State.setPm_goBusy (s : State) (p : Nat) (x : Pm) : (s.setPm p x).goBusy = s.goBusy := rfl
@[simp] theorem State.setPm_jn (s : State) (p : Nat) (x : Pm) : (s.setPm p x).jn = s.jn := rfl
@[simp] theorem State.setPm_pool (s : State) (p : Nat) (x : Pm) : (s.setPm p x).pool = s.pool := rfl
@[simp] theorem State.setPm_fab (s : State) (p : Nat) (x : Pm) : (s.setPm p x).fab = s.fab := rfl
@[simp] theorem State.setPm_ports (s : State) (p : Nat) (x : Pm) : (s.setPm p x).ports = s.ports := rfl
@[simp] theorem State.setPm_pl (s : State) (p : Nat) (x : Pm) : (s.setPm p x).pl = s.pl := rfl
@[simp] theorem State.setPm_hm (s : State) (p : Nat) (x : Pm) : (s.setPm p x).hm = s.hm := rfl
@[simp] theorem State.setPm_pt (s : State) (p : Nat) (x : Pm) : (s.setPm p x).pt = s.pt := rfl
@[simp] theorem State.setPm_hi (s : State) (p : Nat) (x : Pm) : (s.setPm p x).hi = s.hi := rfl
@[simp] theorem State.setPm_isl (s : State) (p : Nat) (x : Pm) : (s.setPm p x).isl = s.isl := rfl
@[simp] theorem State.setPm_tw (s : State) (p : Nat) (x : Pm) : (s.setPm p x).tw = s.tw := rfl
@[simp] theorem State.setPm_av (s : State) (p : Nat) (x : Pm) : (s.setPm p x).av = s.av := rfl
@[simp] theorem State.setPm_pw (s : State) (p : Nat) (x : Pm) : (s.setPm p x).pw = s.pw := rfl
@[simp] theorem State.setPm_db (s : State) (p : Nat) (x : Pm) : (s.setPm p x).db = s.db := rfl
@[simp] theorem State.setPm_crfs (s : State) (p : Nat) (x : Pm) : (s.setPm p x).crfs = s.crfs := rfl
@[simp] theorem State.setPm_bt (s : State) (p : Nat) (x : Pm) : (s.setPm p x).bt = s.bt := rfl
@[simp] theorem State.setPm_sg (s : State) (p : Nat) (x : Pm) : (s.setPm p x).sg = s.sg := rfl
@[simp] theorem State.setPm_rst (s : State) (p : Nat) (x : Pm) : (s.setPm p x).rst = s.rst := rfl
@[simp] theorem State.setPm_out (s : State) (p : Nat) (x : Pm) : (s.setPm p x).out = s.out := rfl
@[simp] theorem State.setPm_free (s : State) (p : Nat) (x : Pm) : (s.setPm p x).free = s.free := rfl
@[simp] theorem State.setPm_pending (s : State) (p : Nat) (x : Pm) : (s.setPm p x).pending = s.pending := rfl
@[simp] theorem State.setBucket_time (s : State) (a : Nat) (b : Bucket) : (s.setBucket a b).time = s.time := rfl
@[simp] theorem State.setBucket_timeReq (s : State) (a : Nat) (b : Bucket) : (s.setBucket a b).timeReq = s.timeReq := rfl
@[simp] theorem State.setBucket_regs (s : State) (a : Nat) (b : Bucket) : (s.setBucket a b).regs = s.regs := rfl
@[simp] theorem State.setBucket_act (s : State) (a : Nat) (b : Bucket) : (s.setBucket a b).act = s.act := rfl
@[simp] theorem State.setBucket_ctrs (s : State) (a : Nat) (b : Bucket) : (s.setBucket a b).ctrs = s.ctrs := rfl
@[simp] theorem State.setBucket_bus (s : State) (a : Nat) (b : Bucket) : (s.setBucket a b).bus = s.bus := rfl
@[simp] theorem State.setBucket_goBusy (s : State) (a : Nat) (b : Bucket) : (s.setBucket a b).goBusy = s.goBusy := rfl
@[simp] theorem State.setBucket_jn (s : State) (a : Nat) (b : Bucket) : (s.setBucket a b).jn = s.jn := rfl
@[simp] theorem State.setBucket_pool (s : State) (a : Nat) (b : Bucket) : (s.setBucket a b).pool = s.pool := rfl
@[simp] theorem State.setBucket_fab (s : State) (a : Nat) (b : Bucket) : (s.setBucket a b).fab = s.fab := rfl
@[simp] theorem State.setBucket_ports (s : State) (a : Nat) (b : Bucket) : (s.setBucket a b).ports = s.ports := rfl
@[simp] theorem State.setBucket_hm (s : State) (a : Nat) (b : Bucket) : (s.setBucket a b).hm = s.hm := rfl
@[simp] theorem State.setBucket_pt (s : State) (a : Nat) (b : Bucket) : (s.setBucket a b).pt = s.pt := rfl
@[simp] theorem State.setBucket_hi (s : State) (a : Nat) (b : Bucket) : (s.setBucket a b).hi = s.hi := rfl
@[simp] theorem State.setBucket_isl (s : State) (a : Nat) (b : Bucket) : (s.setBucket a b).isl = s.isl := rfl
@[simp] theorem State.setBucket_tw (s : State) (a : Nat) (b : Bucket) : (s.setBucket a b).tw = s.tw := rfl
@[simp] theorem State.setBucket_av (s : State) (a : Nat) (b : Bucket) : (s.setBucket a b).av = s.av := rfl
@[simp] theorem State.setBucket_pw (s : State) (a : Nat) (b : Bucket) : (s.setBucket a b).pw = s.pw := rfl
@[simp] theorem State.setBucket_db (s : State) (a : Nat) (b : Bucket) : (s.setBucket a b).db = s.db := rfl
@[simp] theorem State.setBucket_crfs (s : State) (a : Nat) (b : Bucket) : (s.setBucket a b).crfs = s.crfs := rfl
@[simp] theorem State.setBucket_pms (s : State) (a : Nat) (b : Bucket) : (s.setBucket a b).pms = s.pms := rfl
@[simp] theorem State.setBucket_bt (s : State) (a : Nat) (b : Bucket) : (s.setBucket a b).bt = s.bt := rfl
@[simp] theorem State.setBucket_sg (s : State) (a : Nat) (b : Bucket) : (s.setBucket a b).sg = s.sg := rfl
@[simp] theorem State.setBucket_rst (s : State) (a : Nat) (b : Bucket) : (s.setBucket a b).rst = s.rst := rfl
@[simp] theorem State.setBucket_out (s : State) (a : Nat) (b : Bucket) : (s.setBucket a b).out = s.out := rfl
@[simp] theorem State.setBucket_free (s : State) (a : Nat) (b : Bucket) : (s.setBucket a b).free = s.free := rfl
@[simp] theorem State.setBucket_pending (s : State) (a : Nat) (b : Bucket) : (s.setBucket a b).pending = s.pending := rfl
@[simp] theorem State.setCell_time (s : State) (c : Nat) (x : CellSt) : (s.setCell c x).time = s.time := rfl
@[simp] theorem State.setCell_timeReq (s : State) (c : Nat) (x : CellSt) : (s.setCell c x).timeReq = s.timeReq := rfl
@[simp] theorem State.setCell_regs (s : State) (c : Nat) (x : CellSt) : (s.setCell c x).regs = s.regs := rfl
@[simp] theorem State.setCell_act (s : State) (c : Nat) (x : CellSt) : (s.setCell c x).act = s.act := rfl
@[simp] theorem State.setCell_ctrs (s : State) (c : Nat) (x : CellSt) : (s.setCell c x).ctrs = s.ctrs := rfl
@[simp] theorem State.setCell_bus (s : State) (c : Nat) (x : CellSt) : (s.setCell c x).bus = s.bus := rfl
@[simp] theorem State.setCell_goBusy (s : State) (c : Nat) (x : CellSt) : (s.setCell c x).goBusy = s.goBusy := rfl
@[simp] theorem State.setCell_jn (s : State) (c : Nat) (x : CellSt) : (s.setCell c x).jn = s.jn := rfl
@[simp] theorem State.setCell_fab (s : State) (c : Nat) (x : CellSt) : (s.setCell c x).fab = s.fab := rfl
@[simp] theorem State.setCell_ports (s : State) (c : Nat) (x : CellSt) : (s.setCell c x).ports = s.ports := rfl
@[simp] theorem State.setCell_pl (s : State) (c : Nat) (x : CellSt) : (s.setCell c x).pl = s.pl := rfl
@[simp] theorem State.setCell_hm (s : State) (c : Nat) (x : CellSt) : (s.setCell c x).hm = s.hm := rfl
@[simp] theorem State.setCell_pt (s : State) (c : Nat) (x : CellSt) : (s.setCell c x).pt = s.pt := rfl
@[simp] theorem State.setCell_hi (s : State) (c : Nat) (x : CellSt) : (s.setCell c x).hi = s.hi := rfl
@[simp] theorem State.setCell_isl (s : State) (c : Nat) (x : CellSt) : (s.setCell c x).isl = s.isl := rfl
@[simp] theorem State.setCell_tw (s : State) (c : Nat) (x : CellSt) : (s.setCell c x).tw = s.tw := rfl
@[simp] theorem State.setCell_av (s : State) (c : Nat) (x : CellSt) : (s.setCell c x).av = s.av := rfl
@[simp] theorem State.setCell_pw (s : State) (c : Nat) (x : CellSt) : (s.setCell c x).pw = s.pw := rfl
@[simp] theorem State.setCell_db (s : State) (c : Nat) (x : CellSt) : (s.setCell c x).db = s.db := rfl
@[simp] theorem State.setCell_crfs (s : State) (c : Nat) (x : CellSt) : (s.setCell c x).crfs = s.crfs := rfl
@[simp] theorem State.setCell_pms (s : State) (c : Nat) (x : CellSt) : (s.setCell c x).pms = s.pms := rfl
@[simp] theorem State.setCell_bt (s : State) (c : Nat) (x : CellSt) : (s.setCell c x).bt = s.bt := rfl
@[simp] theorem State.setCell_sg (s : State) (c : Nat) (x : CellSt) : (s.setCell c x).sg = s.sg := rfl
@[simp] theorem State.setCell_rst (s : State) (c : Nat) (x : CellSt) : (s.setCell c x).rst = s.rst := rfl
@[simp] theorem State.setCell_out (s : State) (c : Nat) (x : CellSt) : (s.setCell c x).out = s.out := rfl
@[simp] theorem State.setCell_free (s : State) (c : Nat) (x : CellSt) : (s.setCell c x).free = s.free := rfl
@[simp] theorem State.setCell_pending (s : State) (c : Nat) (x : CellSt) : (s.setCell c x).pending = s.pending := rfl
@[simp] theorem State.setLearn_time (s : State) (k : Nat) (x : Learn) : (s.setLearn k x).time = s.time := rfl
@[simp] theorem State.setLearn_timeReq (s : State) (k : Nat) (x : Learn) : (s.setLearn k x).timeReq = s.timeReq := rfl
@[simp] theorem State.setLearn_regs (s : State) (k : Nat) (x : Learn) : (s.setLearn k x).regs = s.regs := rfl
@[simp] theorem State.setLearn_act (s : State) (k : Nat) (x : Learn) : (s.setLearn k x).act = s.act := rfl
@[simp] theorem State.setLearn_ctrs (s : State) (k : Nat) (x : Learn) : (s.setLearn k x).ctrs = s.ctrs := rfl
@[simp] theorem State.setLearn_bus (s : State) (k : Nat) (x : Learn) : (s.setLearn k x).bus = s.bus := rfl
@[simp] theorem State.setLearn_goBusy (s : State) (k : Nat) (x : Learn) : (s.setLearn k x).goBusy = s.goBusy := rfl
@[simp] theorem State.setLearn_jn (s : State) (k : Nat) (x : Learn) : (s.setLearn k x).jn = s.jn := rfl
@[simp] theorem State.setLearn_pool (s : State) (k : Nat) (x : Learn) : (s.setLearn k x).pool = s.pool := rfl
@[simp] theorem State.setLearn_fab (s : State) (k : Nat) (x : Learn) : (s.setLearn k x).fab = s.fab := rfl
@[simp] theorem State.setLearn_ports (s : State) (k : Nat) (x : Learn) : (s.setLearn k x).ports = s.ports := rfl
@[simp] theorem State.setLearn_pl (s : State) (k : Nat) (x : Learn) : (s.setLearn k x).pl = s.pl := rfl
@[simp] theorem State.setLearn_hm (s : State) (k : Nat) (x : Learn) : (s.setLearn k x).hm = s.hm := rfl
@[simp] theorem State.setLearn_hi (s : State) (k : Nat) (x : Learn) : (s.setLearn k x).hi = s.hi := rfl
@[simp] theorem State.setLearn_isl (s : State) (k : Nat) (x : Learn) : (s.setLearn k x).isl = s.isl := rfl
@[simp] theorem State.setLearn_tw (s : State) (k : Nat) (x : Learn) : (s.setLearn k x).tw = s.tw := rfl
@[simp] theorem State.setLearn_av (s : State) (k : Nat) (x : Learn) : (s.setLearn k x).av = s.av := rfl
@[simp] theorem State.setLearn_pw (s : State) (k : Nat) (x : Learn) : (s.setLearn k x).pw = s.pw := rfl
@[simp] theorem State.setLearn_db (s : State) (k : Nat) (x : Learn) : (s.setLearn k x).db = s.db := rfl
@[simp] theorem State.setLearn_crfs (s : State) (k : Nat) (x : Learn) : (s.setLearn k x).crfs = s.crfs := rfl
@[simp] theorem State.setLearn_pms (s : State) (k : Nat) (x : Learn) : (s.setLearn k x).pms = s.pms := rfl
@[simp] theorem State.setLearn_bt (s : State) (k : Nat) (x : Learn) : (s.setLearn k x).bt = s.bt := rfl
@[simp] theorem State.setLearn_sg (s : State) (k : Nat) (x : Learn) : (s.setLearn k x).sg = s.sg := rfl
@[simp] theorem State.setLearn_rst (s : State) (k : Nat) (x : Learn) : (s.setLearn k x).rst = s.rst := rfl
@[simp] theorem State.setLearn_out (s : State) (k : Nat) (x : Learn) : (s.setLearn k x).out = s.out := rfl
@[simp] theorem State.setLearn_free (s : State) (k : Nat) (x : Learn) : (s.setLearn k x).free = s.free := rfl
@[simp] theorem State.setLearn_pending (s : State) (k : Nat) (x : Learn) : (s.setLearn k x).pending = s.pending := rfl
@[simp] theorem State.setMac_time (s : State) (k n : Nat) (e : MacEnt) : (s.setMac k n e).time = s.time := rfl
@[simp] theorem State.setMac_timeReq (s : State) (k n : Nat) (e : MacEnt) : (s.setMac k n e).timeReq = s.timeReq := rfl
@[simp] theorem State.setMac_regs (s : State) (k n : Nat) (e : MacEnt) : (s.setMac k n e).regs = s.regs := rfl
@[simp] theorem State.setMac_act (s : State) (k n : Nat) (e : MacEnt) : (s.setMac k n e).act = s.act := rfl
@[simp] theorem State.setMac_ctrs (s : State) (k n : Nat) (e : MacEnt) : (s.setMac k n e).ctrs = s.ctrs := rfl
@[simp] theorem State.setMac_bus (s : State) (k n : Nat) (e : MacEnt) : (s.setMac k n e).bus = s.bus := rfl
@[simp] theorem State.setMac_goBusy (s : State) (k n : Nat) (e : MacEnt) : (s.setMac k n e).goBusy = s.goBusy := rfl
@[simp] theorem State.setMac_jn (s : State) (k n : Nat) (e : MacEnt) : (s.setMac k n e).jn = s.jn := rfl
@[simp] theorem State.setMac_pool (s : State) (k n : Nat) (e : MacEnt) : (s.setMac k n e).pool = s.pool := rfl
@[simp] theorem State.setMac_fab (s : State) (k n : Nat) (e : MacEnt) : (s.setMac k n e).fab = s.fab := rfl
@[simp] theorem State.setMac_ports (s : State) (k n : Nat) (e : MacEnt) : (s.setMac k n e).ports = s.ports := rfl
@[simp] theorem State.setMac_pl (s : State) (k n : Nat) (e : MacEnt) : (s.setMac k n e).pl = s.pl := rfl
@[simp] theorem State.setMac_hm (s : State) (k n : Nat) (e : MacEnt) : (s.setMac k n e).hm = s.hm := rfl
@[simp] theorem State.setMac_hi (s : State) (k n : Nat) (e : MacEnt) : (s.setMac k n e).hi = s.hi := rfl
@[simp] theorem State.setMac_isl (s : State) (k n : Nat) (e : MacEnt) : (s.setMac k n e).isl = s.isl := rfl
@[simp] theorem State.setMac_tw (s : State) (k n : Nat) (e : MacEnt) : (s.setMac k n e).tw = s.tw := rfl
@[simp] theorem State.setMac_av (s : State) (k n : Nat) (e : MacEnt) : (s.setMac k n e).av = s.av := rfl
@[simp] theorem State.setMac_pw (s : State) (k n : Nat) (e : MacEnt) : (s.setMac k n e).pw = s.pw := rfl
@[simp] theorem State.setMac_db (s : State) (k n : Nat) (e : MacEnt) : (s.setMac k n e).db = s.db := rfl
@[simp] theorem State.setMac_crfs (s : State) (k n : Nat) (e : MacEnt) : (s.setMac k n e).crfs = s.crfs := rfl
@[simp] theorem State.setMac_pms (s : State) (k n : Nat) (e : MacEnt) : (s.setMac k n e).pms = s.pms := rfl
@[simp] theorem State.setMac_bt (s : State) (k n : Nat) (e : MacEnt) : (s.setMac k n e).bt = s.bt := rfl
@[simp] theorem State.setMac_sg (s : State) (k n : Nat) (e : MacEnt) : (s.setMac k n e).sg = s.sg := rfl
@[simp] theorem State.setMac_rst (s : State) (k n : Nat) (e : MacEnt) : (s.setMac k n e).rst = s.rst := rfl
@[simp] theorem State.setMac_out (s : State) (k n : Nat) (e : MacEnt) : (s.setMac k n e).out = s.out := rfl
@[simp] theorem State.setMac_free (s : State) (k n : Nat) (e : MacEnt) : (s.setMac k n e).free = s.free := rfl
@[simp] theorem State.setMac_pending (s : State) (k n : Nat) (e : MacEnt) : (s.setMac k n e).pending = s.pending := rfl
@[simp] theorem State.stageRes_time (s : State) (a : Nat) (ws : List (Nat × Nat × Word)) : (s.stageRes a ws).time = s.time := rfl
@[simp] theorem State.stageRes_timeReq (s : State) (a : Nat) (ws : List (Nat × Nat × Word)) : (s.stageRes a ws).timeReq = s.timeReq := rfl
@[simp] theorem State.stageRes_regs (s : State) (a : Nat) (ws : List (Nat × Nat × Word)) : (s.stageRes a ws).regs = s.regs := rfl
@[simp] theorem State.stageRes_act (s : State) (a : Nat) (ws : List (Nat × Nat × Word)) : (s.stageRes a ws).act = s.act := rfl
@[simp] theorem State.stageRes_ctrs (s : State) (a : Nat) (ws : List (Nat × Nat × Word)) : (s.stageRes a ws).ctrs = s.ctrs := rfl
@[simp] theorem State.stageRes_bus (s : State) (a : Nat) (ws : List (Nat × Nat × Word)) : (s.stageRes a ws).bus = s.bus := rfl
@[simp] theorem State.stageRes_goBusy (s : State) (a : Nat) (ws : List (Nat × Nat × Word)) : (s.stageRes a ws).goBusy = s.goBusy := rfl
@[simp] theorem State.stageRes_jn (s : State) (a : Nat) (ws : List (Nat × Nat × Word)) : (s.stageRes a ws).jn = s.jn := rfl
@[simp] theorem State.stageRes_pool (s : State) (a : Nat) (ws : List (Nat × Nat × Word)) : (s.stageRes a ws).pool = s.pool := rfl
@[simp] theorem State.stageRes_fab (s : State) (a : Nat) (ws : List (Nat × Nat × Word)) : (s.stageRes a ws).fab = s.fab := rfl
@[simp] theorem State.stageRes_ports (s : State) (a : Nat) (ws : List (Nat × Nat × Word)) : (s.stageRes a ws).ports = s.ports := rfl
@[simp] theorem State.stageRes_pl (s : State) (a : Nat) (ws : List (Nat × Nat × Word)) : (s.stageRes a ws).pl = s.pl := rfl
@[simp] theorem State.stageRes_hm (s : State) (a : Nat) (ws : List (Nat × Nat × Word)) : (s.stageRes a ws).hm = s.hm := rfl
@[simp] theorem State.stageRes_hi (s : State) (a : Nat) (ws : List (Nat × Nat × Word)) : (s.stageRes a ws).hi = s.hi := rfl
@[simp] theorem State.stageRes_isl (s : State) (a : Nat) (ws : List (Nat × Nat × Word)) : (s.stageRes a ws).isl = s.isl := rfl
@[simp] theorem State.stageRes_tw (s : State) (a : Nat) (ws : List (Nat × Nat × Word)) : (s.stageRes a ws).tw = s.tw := rfl
@[simp] theorem State.stageRes_av (s : State) (a : Nat) (ws : List (Nat × Nat × Word)) : (s.stageRes a ws).av = s.av := rfl
@[simp] theorem State.stageRes_pw (s : State) (a : Nat) (ws : List (Nat × Nat × Word)) : (s.stageRes a ws).pw = s.pw := rfl
@[simp] theorem State.stageRes_db (s : State) (a : Nat) (ws : List (Nat × Nat × Word)) : (s.stageRes a ws).db = s.db := rfl
@[simp] theorem State.stageRes_crfs (s : State) (a : Nat) (ws : List (Nat × Nat × Word)) : (s.stageRes a ws).crfs = s.crfs := rfl
@[simp] theorem State.stageRes_pms (s : State) (a : Nat) (ws : List (Nat × Nat × Word)) : (s.stageRes a ws).pms = s.pms := rfl
@[simp] theorem State.stageRes_bt (s : State) (a : Nat) (ws : List (Nat × Nat × Word)) : (s.stageRes a ws).bt = s.bt := rfl
@[simp] theorem State.stageRes_sg (s : State) (a : Nat) (ws : List (Nat × Nat × Word)) : (s.stageRes a ws).sg = s.sg := rfl
@[simp] theorem State.stageRes_rst (s : State) (a : Nat) (ws : List (Nat × Nat × Word)) : (s.stageRes a ws).rst = s.rst := rfl
@[simp] theorem State.stageRes_out (s : State) (a : Nat) (ws : List (Nat × Nat × Word)) : (s.stageRes a ws).out = s.out := rfl
@[simp] theorem State.stageRes_free (s : State) (a : Nat) (ws : List (Nat × Nat × Word)) : (s.stageRes a ws).free = s.free := rfl
@[simp] theorem State.stageRes_pending (s : State) (a : Nat) (ws : List (Nat × Nat × Word)) : (s.stageRes a ws).pending = s.pending := rfl
@[simp] theorem State.setRecovery_time (s : State) (d : Nat) (x : Recovery) : (s.setRecovery d x).time = s.time := rfl
@[simp] theorem State.setRecovery_timeReq (s : State) (d : Nat) (x : Recovery) : (s.setRecovery d x).timeReq = s.timeReq := rfl
@[simp] theorem State.setRecovery_regs (s : State) (d : Nat) (x : Recovery) : (s.setRecovery d x).regs = s.regs := rfl
@[simp] theorem State.setRecovery_act (s : State) (d : Nat) (x : Recovery) : (s.setRecovery d x).act = s.act := rfl
@[simp] theorem State.setRecovery_ctrs (s : State) (d : Nat) (x : Recovery) : (s.setRecovery d x).ctrs = s.ctrs := rfl
@[simp] theorem State.setRecovery_bus (s : State) (d : Nat) (x : Recovery) : (s.setRecovery d x).bus = s.bus := rfl
@[simp] theorem State.setRecovery_goBusy (s : State) (d : Nat) (x : Recovery) : (s.setRecovery d x).goBusy = s.goBusy := rfl
@[simp] theorem State.setRecovery_jn (s : State) (d : Nat) (x : Recovery) : (s.setRecovery d x).jn = s.jn := rfl
@[simp] theorem State.setRecovery_pool (s : State) (d : Nat) (x : Recovery) : (s.setRecovery d x).pool = s.pool := rfl
@[simp] theorem State.setRecovery_fab (s : State) (d : Nat) (x : Recovery) : (s.setRecovery d x).fab = s.fab := rfl
@[simp] theorem State.setRecovery_ports (s : State) (d : Nat) (x : Recovery) : (s.setRecovery d x).ports = s.ports := rfl
@[simp] theorem State.setRecovery_pl (s : State) (d : Nat) (x : Recovery) : (s.setRecovery d x).pl = s.pl := rfl
@[simp] theorem State.setRecovery_hm (s : State) (d : Nat) (x : Recovery) : (s.setRecovery d x).hm = s.hm := rfl
@[simp] theorem State.setRecovery_pt (s : State) (d : Nat) (x : Recovery) : (s.setRecovery d x).pt = s.pt := rfl
@[simp] theorem State.setRecovery_hi (s : State) (d : Nat) (x : Recovery) : (s.setRecovery d x).hi = s.hi := rfl
@[simp] theorem State.setRecovery_isl (s : State) (d : Nat) (x : Recovery) : (s.setRecovery d x).isl = s.isl := rfl
@[simp] theorem State.setRecovery_av (s : State) (d : Nat) (x : Recovery) : (s.setRecovery d x).av = s.av := rfl
@[simp] theorem State.setRecovery_pw (s : State) (d : Nat) (x : Recovery) : (s.setRecovery d x).pw = s.pw := rfl
@[simp] theorem State.setRecovery_db (s : State) (d : Nat) (x : Recovery) : (s.setRecovery d x).db = s.db := rfl
@[simp] theorem State.setRecovery_crfs (s : State) (d : Nat) (x : Recovery) : (s.setRecovery d x).crfs = s.crfs := rfl
@[simp] theorem State.setRecovery_pms (s : State) (d : Nat) (x : Recovery) : (s.setRecovery d x).pms = s.pms := rfl
@[simp] theorem State.setRecovery_bt (s : State) (d : Nat) (x : Recovery) : (s.setRecovery d x).bt = s.bt := rfl
@[simp] theorem State.setRecovery_sg (s : State) (d : Nat) (x : Recovery) : (s.setRecovery d x).sg = s.sg := rfl
@[simp] theorem State.setRecovery_rst (s : State) (d : Nat) (x : Recovery) : (s.setRecovery d x).rst = s.rst := rfl
@[simp] theorem State.setRecovery_out (s : State) (d : Nat) (x : Recovery) : (s.setRecovery d x).out = s.out := rfl
@[simp] theorem State.setRecovery_free (s : State) (d : Nat) (x : Recovery) : (s.setRecovery d x).free = s.free := rfl
@[simp] theorem State.setRecovery_pending (s : State) (d : Nat) (x : Recovery) : (s.setRecovery d x).pending = s.pending := rfl
@[simp] theorem State.setPin_time (s : State) (i : Nat) (x : EvtPin) : (s.setPin i x).time = s.time := rfl
@[simp] theorem State.setPin_timeReq (s : State) (i : Nat) (x : EvtPin) : (s.setPin i x).timeReq = s.timeReq := rfl
@[simp] theorem State.setPin_regs (s : State) (i : Nat) (x : EvtPin) : (s.setPin i x).regs = s.regs := rfl
@[simp] theorem State.setPin_act (s : State) (i : Nat) (x : EvtPin) : (s.setPin i x).act = s.act := rfl
@[simp] theorem State.setPin_ctrs (s : State) (i : Nat) (x : EvtPin) : (s.setPin i x).ctrs = s.ctrs := rfl
@[simp] theorem State.setPin_bus (s : State) (i : Nat) (x : EvtPin) : (s.setPin i x).bus = s.bus := rfl
@[simp] theorem State.setPin_goBusy (s : State) (i : Nat) (x : EvtPin) : (s.setPin i x).goBusy = s.goBusy := rfl
@[simp] theorem State.setPin_jn (s : State) (i : Nat) (x : EvtPin) : (s.setPin i x).jn = s.jn := rfl
@[simp] theorem State.setPin_pool (s : State) (i : Nat) (x : EvtPin) : (s.setPin i x).pool = s.pool := rfl
@[simp] theorem State.setPin_fab (s : State) (i : Nat) (x : EvtPin) : (s.setPin i x).fab = s.fab := rfl
@[simp] theorem State.setPin_ports (s : State) (i : Nat) (x : EvtPin) : (s.setPin i x).ports = s.ports := rfl
@[simp] theorem State.setPin_pl (s : State) (i : Nat) (x : EvtPin) : (s.setPin i x).pl = s.pl := rfl
@[simp] theorem State.setPin_pt (s : State) (i : Nat) (x : EvtPin) : (s.setPin i x).pt = s.pt := rfl
@[simp] theorem State.setPin_hi (s : State) (i : Nat) (x : EvtPin) : (s.setPin i x).hi = s.hi := rfl
@[simp] theorem State.setPin_isl (s : State) (i : Nat) (x : EvtPin) : (s.setPin i x).isl = s.isl := rfl
@[simp] theorem State.setPin_tw (s : State) (i : Nat) (x : EvtPin) : (s.setPin i x).tw = s.tw := rfl
@[simp] theorem State.setPin_av (s : State) (i : Nat) (x : EvtPin) : (s.setPin i x).av = s.av := rfl
@[simp] theorem State.setPin_pw (s : State) (i : Nat) (x : EvtPin) : (s.setPin i x).pw = s.pw := rfl
@[simp] theorem State.setPin_db (s : State) (i : Nat) (x : EvtPin) : (s.setPin i x).db = s.db := rfl
@[simp] theorem State.setPin_crfs (s : State) (i : Nat) (x : EvtPin) : (s.setPin i x).crfs = s.crfs := rfl
@[simp] theorem State.setPin_pms (s : State) (i : Nat) (x : EvtPin) : (s.setPin i x).pms = s.pms := rfl
@[simp] theorem State.setPin_bt (s : State) (i : Nat) (x : EvtPin) : (s.setPin i x).bt = s.bt := rfl
@[simp] theorem State.setPin_sg (s : State) (i : Nat) (x : EvtPin) : (s.setPin i x).sg = s.sg := rfl
@[simp] theorem State.setPin_rst (s : State) (i : Nat) (x : EvtPin) : (s.setPin i x).rst = s.rst := rfl
@[simp] theorem State.setPin_out (s : State) (i : Nat) (x : EvtPin) : (s.setPin i x).out = s.out := rfl
@[simp] theorem State.setPin_free (s : State) (i : Nat) (x : EvtPin) : (s.setPin i x).free = s.free := rfl
@[simp] theorem State.setPin_pending (s : State) (i : Nat) (x : EvtPin) : (s.setPin i x).pending = s.pending := rfl
@[simp] theorem State.noteSelect_time (s : State) (p : Nat) : (s.noteSelect p).time = s.time := rfl
@[simp] theorem State.noteSelect_timeReq (s : State) (p : Nat) : (s.noteSelect p).timeReq = s.timeReq := rfl
@[simp] theorem State.noteSelect_regs (s : State) (p : Nat) : (s.noteSelect p).regs = s.regs := rfl
@[simp] theorem State.noteSelect_act (s : State) (p : Nat) : (s.noteSelect p).act = s.act := rfl
@[simp] theorem State.noteSelect_ctrs (s : State) (p : Nat) : (s.noteSelect p).ctrs = s.ctrs := rfl
@[simp] theorem State.noteSelect_bus (s : State) (p : Nat) : (s.noteSelect p).bus = s.bus := rfl
@[simp] theorem State.noteSelect_goBusy (s : State) (p : Nat) : (s.noteSelect p).goBusy = s.goBusy := rfl
@[simp] theorem State.noteSelect_jn (s : State) (p : Nat) : (s.noteSelect p).jn = s.jn := rfl
@[simp] theorem State.noteSelect_pool (s : State) (p : Nat) : (s.noteSelect p).pool = s.pool := rfl
@[simp] theorem State.noteSelect_fab (s : State) (p : Nat) : (s.noteSelect p).fab = s.fab := rfl
@[simp] theorem State.noteSelect_ports (s : State) (p : Nat) : (s.noteSelect p).ports = s.ports := rfl
@[simp] theorem State.noteSelect_hm (s : State) (p : Nat) : (s.noteSelect p).hm = s.hm := rfl
@[simp] theorem State.noteSelect_pt (s : State) (p : Nat) : (s.noteSelect p).pt = s.pt := rfl
@[simp] theorem State.noteSelect_hi (s : State) (p : Nat) : (s.noteSelect p).hi = s.hi := rfl
@[simp] theorem State.noteSelect_isl (s : State) (p : Nat) : (s.noteSelect p).isl = s.isl := rfl
@[simp] theorem State.noteSelect_tw (s : State) (p : Nat) : (s.noteSelect p).tw = s.tw := rfl
@[simp] theorem State.noteSelect_av (s : State) (p : Nat) : (s.noteSelect p).av = s.av := rfl
@[simp] theorem State.noteSelect_pw (s : State) (p : Nat) : (s.noteSelect p).pw = s.pw := rfl
@[simp] theorem State.noteSelect_db (s : State) (p : Nat) : (s.noteSelect p).db = s.db := rfl
@[simp] theorem State.noteSelect_crfs (s : State) (p : Nat) : (s.noteSelect p).crfs = s.crfs := rfl
@[simp] theorem State.noteSelect_pms (s : State) (p : Nat) : (s.noteSelect p).pms = s.pms := rfl
@[simp] theorem State.noteSelect_bt (s : State) (p : Nat) : (s.noteSelect p).bt = s.bt := rfl
@[simp] theorem State.noteSelect_sg (s : State) (p : Nat) : (s.noteSelect p).sg = s.sg := rfl
@[simp] theorem State.noteSelect_rst (s : State) (p : Nat) : (s.noteSelect p).rst = s.rst := rfl
@[simp] theorem State.noteSelect_out (s : State) (p : Nat) : (s.noteSelect p).out = s.out := rfl
@[simp] theorem State.noteSelect_free (s : State) (p : Nat) : (s.noteSelect p).free = s.free := rfl
@[simp] theorem State.noteSelect_pending (s : State) (p : Nat) : (s.noteSelect p).pending = s.pending := rfl
@[simp] theorem State.noteDrop_time (s : State) (p : Nat) : (s.noteDrop p).time = s.time := rfl
@[simp] theorem State.noteDrop_timeReq (s : State) (p : Nat) : (s.noteDrop p).timeReq = s.timeReq := rfl
@[simp] theorem State.noteDrop_regs (s : State) (p : Nat) : (s.noteDrop p).regs = s.regs := rfl
@[simp] theorem State.noteDrop_act (s : State) (p : Nat) : (s.noteDrop p).act = s.act := rfl
@[simp] theorem State.noteDrop_ctrs (s : State) (p : Nat) : (s.noteDrop p).ctrs = s.ctrs := rfl
@[simp] theorem State.noteDrop_bus (s : State) (p : Nat) : (s.noteDrop p).bus = s.bus := rfl
@[simp] theorem State.noteDrop_goBusy (s : State) (p : Nat) : (s.noteDrop p).goBusy = s.goBusy := rfl
@[simp] theorem State.noteDrop_jn (s : State) (p : Nat) : (s.noteDrop p).jn = s.jn := rfl
@[simp] theorem State.noteDrop_pool (s : State) (p : Nat) : (s.noteDrop p).pool = s.pool := rfl
@[simp] theorem State.noteDrop_fab (s : State) (p : Nat) : (s.noteDrop p).fab = s.fab := rfl
@[simp] theorem State.noteDrop_ports (s : State) (p : Nat) : (s.noteDrop p).ports = s.ports := rfl
@[simp] theorem State.noteDrop_hm (s : State) (p : Nat) : (s.noteDrop p).hm = s.hm := rfl
@[simp] theorem State.noteDrop_pt (s : State) (p : Nat) : (s.noteDrop p).pt = s.pt := rfl
@[simp] theorem State.noteDrop_hi (s : State) (p : Nat) : (s.noteDrop p).hi = s.hi := rfl
@[simp] theorem State.noteDrop_isl (s : State) (p : Nat) : (s.noteDrop p).isl = s.isl := rfl
@[simp] theorem State.noteDrop_tw (s : State) (p : Nat) : (s.noteDrop p).tw = s.tw := rfl
@[simp] theorem State.noteDrop_av (s : State) (p : Nat) : (s.noteDrop p).av = s.av := rfl
@[simp] theorem State.noteDrop_pw (s : State) (p : Nat) : (s.noteDrop p).pw = s.pw := rfl
@[simp] theorem State.noteDrop_db (s : State) (p : Nat) : (s.noteDrop p).db = s.db := rfl
@[simp] theorem State.noteDrop_crfs (s : State) (p : Nat) : (s.noteDrop p).crfs = s.crfs := rfl
@[simp] theorem State.noteDrop_pms (s : State) (p : Nat) : (s.noteDrop p).pms = s.pms := rfl
@[simp] theorem State.noteDrop_bt (s : State) (p : Nat) : (s.noteDrop p).bt = s.bt := rfl
@[simp] theorem State.noteDrop_sg (s : State) (p : Nat) : (s.noteDrop p).sg = s.sg := rfl
@[simp] theorem State.noteDrop_rst (s : State) (p : Nat) : (s.noteDrop p).rst = s.rst := rfl
@[simp] theorem State.noteDrop_out (s : State) (p : Nat) : (s.noteDrop p).out = s.out := rfl
@[simp] theorem State.noteDrop_free (s : State) (p : Nat) : (s.noteDrop p).free = s.free := rfl
@[simp] theorem State.noteDrop_pending (s : State) (p : Nat) : (s.noteDrop p).pending = s.pending := rfl
@[simp] theorem State.noteTurn_time (s : State) (i : Nat) (ns : List Nat) : (s.noteTurn i ns).time = s.time := rfl
@[simp] theorem State.noteTurn_timeReq (s : State) (i : Nat) (ns : List Nat) : (s.noteTurn i ns).timeReq = s.timeReq := rfl
@[simp] theorem State.noteTurn_regs (s : State) (i : Nat) (ns : List Nat) : (s.noteTurn i ns).regs = s.regs := rfl
@[simp] theorem State.noteTurn_act (s : State) (i : Nat) (ns : List Nat) : (s.noteTurn i ns).act = s.act := rfl
@[simp] theorem State.noteTurn_ctrs (s : State) (i : Nat) (ns : List Nat) : (s.noteTurn i ns).ctrs = s.ctrs := rfl
@[simp] theorem State.noteTurn_bus (s : State) (i : Nat) (ns : List Nat) : (s.noteTurn i ns).bus = s.bus := rfl
@[simp] theorem State.noteTurn_goBusy (s : State) (i : Nat) (ns : List Nat) : (s.noteTurn i ns).goBusy = s.goBusy := rfl
@[simp] theorem State.noteTurn_jn (s : State) (i : Nat) (ns : List Nat) : (s.noteTurn i ns).jn = s.jn := rfl
@[simp] theorem State.noteTurn_pool (s : State) (i : Nat) (ns : List Nat) : (s.noteTurn i ns).pool = s.pool := rfl
@[simp] theorem State.noteTurn_fab (s : State) (i : Nat) (ns : List Nat) : (s.noteTurn i ns).fab = s.fab := rfl
@[simp] theorem State.noteTurn_ports (s : State) (i : Nat) (ns : List Nat) : (s.noteTurn i ns).ports = s.ports := rfl
@[simp] theorem State.noteTurn_hm (s : State) (i : Nat) (ns : List Nat) : (s.noteTurn i ns).hm = s.hm := rfl
@[simp] theorem State.noteTurn_pt (s : State) (i : Nat) (ns : List Nat) : (s.noteTurn i ns).pt = s.pt := rfl
@[simp] theorem State.noteTurn_hi (s : State) (i : Nat) (ns : List Nat) : (s.noteTurn i ns).hi = s.hi := rfl
@[simp] theorem State.noteTurn_isl (s : State) (i : Nat) (ns : List Nat) : (s.noteTurn i ns).isl = s.isl := rfl
@[simp] theorem State.noteTurn_tw (s : State) (i : Nat) (ns : List Nat) : (s.noteTurn i ns).tw = s.tw := rfl
@[simp] theorem State.noteTurn_av (s : State) (i : Nat) (ns : List Nat) : (s.noteTurn i ns).av = s.av := rfl
@[simp] theorem State.noteTurn_pw (s : State) (i : Nat) (ns : List Nat) : (s.noteTurn i ns).pw = s.pw := rfl
@[simp] theorem State.noteTurn_db (s : State) (i : Nat) (ns : List Nat) : (s.noteTurn i ns).db = s.db := rfl
@[simp] theorem State.noteTurn_crfs (s : State) (i : Nat) (ns : List Nat) : (s.noteTurn i ns).crfs = s.crfs := rfl
@[simp] theorem State.noteTurn_pms (s : State) (i : Nat) (ns : List Nat) : (s.noteTurn i ns).pms = s.pms := rfl
@[simp] theorem State.noteTurn_bt (s : State) (i : Nat) (ns : List Nat) : (s.noteTurn i ns).bt = s.bt := rfl
@[simp] theorem State.noteTurn_sg (s : State) (i : Nat) (ns : List Nat) : (s.noteTurn i ns).sg = s.sg := rfl
@[simp] theorem State.noteTurn_rst (s : State) (i : Nat) (ns : List Nat) : (s.noteTurn i ns).rst = s.rst := rfl
@[simp] theorem State.noteTurn_out (s : State) (i : Nat) (ns : List Nat) : (s.noteTurn i ns).out = s.out := rfl
@[simp] theorem State.noteTurn_free (s : State) (i : Nat) (ns : List Nat) : (s.noteTurn i ns).free = s.free := rfl
@[simp] theorem State.noteTurn_pending (s : State) (i : Nat) (ns : List Nat) : (s.noteTurn i ns).pending = s.pending := rfl

@[simp] theorem State.begun_regs (s : State) (dt : Nat) : (s.begun dt).regs = s.regs := by
  simp only [State.begun, State.newCycle]; split <;> rfl
@[simp] theorem State.begun_act (s : State) (dt : Nat) : (s.begun dt).act = s.act := by
  simp only [State.begun, State.newCycle]; split <;> rfl
@[simp] theorem State.begun_ctrs (s : State) (dt : Nat) : (s.begun dt).ctrs = s.ctrs := by
  simp only [State.begun, State.newCycle]; split <;> rfl
@[simp] theorem State.begun_bus (s : State) (dt : Nat) : (s.begun dt).bus = s.bus := by
  simp only [State.begun, State.newCycle]; split <;> rfl
@[simp] theorem State.begun_goBusy (s : State) (dt : Nat) : (s.begun dt).goBusy = s.goBusy := by
  simp only [State.begun, State.newCycle]; split <;> rfl
@[simp] theorem State.begun_jn (s : State) (dt : Nat) : (s.begun dt).jn = s.jn := by
  simp only [State.begun, State.newCycle]; split <;> rfl
@[simp] theorem State.begun_ports (s : State) (dt : Nat) : (s.begun dt).ports = s.ports := by
  simp only [State.begun, State.newCycle]; split <;> rfl
@[simp] theorem State.begun_pl (s : State) (dt : Nat) : (s.begun dt).pl = s.pl := by
  simp only [State.begun, State.newCycle]; split <;> rfl
@[simp] theorem State.begun_hm (s : State) (dt : Nat) : (s.begun dt).hm = s.hm := by
  simp only [State.begun, State.newCycle]; split <;> rfl
@[simp] theorem State.begun_pt (s : State) (dt : Nat) : (s.begun dt).pt = s.pt := by
  simp only [State.begun, State.newCycle]; split <;> rfl
@[simp] theorem State.begun_hi (s : State) (dt : Nat) : (s.begun dt).hi = s.hi := by
  simp only [State.begun, State.newCycle]; split <;> rfl
@[simp] theorem State.begun_isl (s : State) (dt : Nat) : (s.begun dt).isl = s.isl := by
  simp only [State.begun, State.newCycle]; split <;> rfl
@[simp] theorem State.begun_tw (s : State) (dt : Nat) : (s.begun dt).tw = s.tw := by
  simp only [State.begun, State.newCycle]; split <;> rfl
@[simp] theorem State.begun_av (s : State) (dt : Nat) : (s.begun dt).av = s.av := by
  simp only [State.begun, State.newCycle]; split <;> rfl
@[simp] theorem State.begun_pw (s : State) (dt : Nat) : (s.begun dt).pw = s.pw := by
  simp only [State.begun, State.newCycle]; split <;> rfl
@[simp] theorem State.begun_db (s : State) (dt : Nat) : (s.begun dt).db = s.db := by
  simp only [State.begun, State.newCycle]; split <;> rfl
@[simp] theorem State.begun_crfs (s : State) (dt : Nat) : (s.begun dt).crfs = s.crfs := by
  simp only [State.begun, State.newCycle]; split <;> rfl
@[simp] theorem State.begun_pms (s : State) (dt : Nat) : (s.begun dt).pms = s.pms := by
  simp only [State.begun, State.newCycle]; split <;> rfl
@[simp] theorem State.begun_bt (s : State) (dt : Nat) : (s.begun dt).bt = s.bt := by
  simp only [State.begun, State.newCycle]; split <;> rfl
@[simp] theorem State.begun_sg (s : State) (dt : Nat) : (s.begun dt).sg = s.sg := by
  simp only [State.begun, State.newCycle]; split <;> rfl
@[simp] theorem State.begun_rst (s : State) (dt : Nat) : (s.begun dt).rst = s.rst := by
  simp only [State.begun, State.newCycle]; split <;> rfl
@[simp] theorem State.begun_out (s : State) (dt : Nat) : (s.begun dt).out = s.out := by
  simp only [State.begun, State.newCycle]; split <;> rfl
@[simp] theorem State.begun_free (s : State) (dt : Nat) : (s.begun dt).free = s.free := by
  simp only [State.begun, State.newCycle]; split <;> rfl
@[simp] theorem State.begun_pending (s : State) (dt : Nat) : (s.begun dt).pending = s.pending := by
  simp only [State.begun, State.newCycle]; split <;> rfl
@[simp] theorem State.begun_time (s : State) (dt : Nat) : (s.begun dt).time = s.time.advance dt := by
  simp only [State.begun, State.newCycle]; split <;> rfl
@[simp] theorem State.begun_timeReq (s : State) (dt : Nat) : (s.begun dt).timeReq = ⟨none, none⟩ := by
  simp only [State.begun, State.newCycle]; split <;> rfl


/-! ### Accessors after an update -/

@[simp] theorem State.now_setReg (s : State) (a : Nat) (w : Word) : (s.setReg a w).now = s.now := rfl
@[simp] theorem State.now_begun (s : State) (dt : Nat) : (s.begun dt).now = s.now + dt := by
  simp [State.now, Time.advance]
@[simp] theorem State.reg_begun (s : State) (dt a : Nat) : (s.begun dt).reg a = s.reg a := by simp [State.reg]
@[simp] theorem State.actReg_begun (s : State) (dt a : Nat) : (s.begun dt).actReg a = s.actReg a := by simp [State.actReg]
@[simp] theorem State.ctr_begun (s : State) (dt a : Nat) : (s.begun dt).ctr a = s.ctr a := by simp [State.ctr]
@[simp] theorem State.port_begun (s : State) (dt p : Nat) : (s.begun dt).port p = s.port p := by simp [State.port]
@[simp] theorem State.ring_begun (s : State) (dt r : Nat) : (s.begun dt).ring r = s.ring r := by simp [State.ring]
@[simp] theorem State.ini_begun (s : State) (dt i : Nat) : (s.begun dt).ini i = s.ini i := by simp [State.ini]
@[simp] theorem State.fld_begun (s : State) (dt : Nat) (f : Fld) : (s.begun dt).fld f = s.fld f := by simp [State.fld]
@[simp] theorem State.afld_begun (s : State) (dt : Nat) (f : Fld) : (s.begun dt).afld f = s.afld f := by simp [State.afld]
@[simp] theorem State.bit_begun (s : State) (dt : Nat) (f : Fld) : (s.begun dt).bit f = s.bit f := by simp [State.bit]
@[simp] theorem State.mainUp_begun (s : State) (dt : Nat) : (s.begun dt).mainUp = s.mainUp := by simp [State.mainUp, State.aonUp]
@[simp] theorem State.aonUp_begun (s : State) (dt : Nat) : (s.begun dt).aonUp = s.aonUp := by simp [State.aonUp]
@[simp] theorem State.freeVal_begun (s : State) (dt : Nat) : (s.begun dt).freeVal = s.freeVal := by simp [State.freeVal]

/-! ### Registers -/

@[simp] theorem State.reg_setReg_self (s : State) (a : Nat) (w : Word) : (s.setReg a w).reg a = w := by simp [State.reg, State.setReg]
theorem State.reg_setReg_ne (s : State) (a b : Nat) (w : Word) (h : b ≠ a) : (s.setReg a w).reg b = s.reg b := by
  simp [State.reg, State.setReg, SMap.get_put_ne _ _ _ _ _ h]
theorem State.reg_setF_ne (s : State) (f : Fld) (v b : Nat) (h : b ≠ f.addr) : (s.setF f v).reg b = s.reg b :=
  State.reg_setReg_ne _ _ _ _ h
theorem State.reg_raise_ne (s : State) (f : Fld) (b : Nat) (h : b ≠ f.addr) : (s.raise f).reg b = s.reg b :=
  State.reg_setReg_ne _ _ _ _ h
/-- A register after one of its fields has been written. -/
theorem State.reg_setF_self (s : State) (f : Fld) (v : Nat) (h : f.lo + f.len ≤ 32) :
    ((s.setF f v).reg f.addr).toNat = setBits (s.reg f.addr).toNat f.lo f.len v := by
  simp only [State.setF, State.reg_setReg_self, w32_toNat]
  exact Nat.mod_eq_of_lt (setBits_lt _ _ _ _ _ (s.reg f.addr).isLt h)

/-- A field reads as it was written. -/
theorem State.fld_setF_self (s : State) (f : Fld) (v : Nat) (h : f.lo + f.len ≤ 32) : (s.setF f v).fld f = v % 2 ^ f.len := by
  rw [State.fld, State.reg_setF_self _ _ _ h, bitsOf_setBits_self]
/-- A field of another register keeps its value. -/
theorem State.fld_setF_ne (s : State) (f g : Fld) (v : Nat) (h : g.addr ≠ f.addr) : (s.setF f v).fld g = s.fld g := by
  simp [State.fld, State.reg_setF_ne _ _ _ _ h]
/-- Another field of the same register keeps its value. -/
theorem State.fld_setF_apart (s : State) (f g : Fld) (v : Nat) (ha : g.addr = f.addr) (h : f.lo + f.len ≤ 32)
    (hd : g.lo + g.len ≤ f.lo ∨ f.lo + f.len ≤ g.lo) : (s.setF f v).fld g = s.fld g := by
  rw [State.fld, ha, State.reg_setF_self _ _ _ h, State.fld, ha]
  rcases hd with hd | hd
  · exact bitsOf_setBits_below _ _ _ _ _ _ hd
  · exact bitsOf_setBits_above _ _ _ _ _ _ hd
/-- A status bit that an event raises reads 1. -/
theorem State.fld_raise_self (s : State) (f : Fld) (h : f.lo + f.len ≤ 32) (h1 : 0 < f.len) : (s.raise f).fld f = 1 := by
  rw [State.raise, State.fld_setF_self _ _ _ h]
  exact Nat.mod_eq_of_lt (Nat.one_lt_two_pow (by omega))
theorem State.fld_raise_ne (s : State) (f g : Fld) (h : g.addr ≠ f.addr) : (s.raise f).fld g = s.fld g := State.fld_setF_ne _ _ _ _ h

@[simp] theorem State.actReg_setAct_self (s : State) (a : Nat) (w : Word) : (s.setAct a w).actReg a = w := by
  simp [State.actReg, State.setAct]
theorem State.actReg_setAct_ne (s : State) (a b : Nat) (w : Word) (h : b ≠ a) : (s.setAct a w).actReg b = s.actReg b := by
  simp [State.actReg, State.setAct, SMap.get_put_ne _ _ _ _ _ h]

/-! ### Counters, ports, rings, initiators -/

theorem State.ctr_setCtr_self (s : State) (a v : Nat) : (s.setCtr a v).ctr a = v % 2 ^ 64 := by simp [State.ctr, State.setCtr]
theorem State.ctr_setCtr_ne (s : State) (a b v : Nat) (h : b ≠ a) : (s.setCtr a v).ctr b = s.ctr b := by
  simp [State.ctr, State.setCtr, SMap.get_put_ne _ _ _ _ _ h]
/-- A counter counts on (R57). -/
theorem State.ctr_count_self (s : State) (a n : Nat) : (s.count a n).ctr a = (s.ctr a + n) % 2 ^ 64 := State.ctr_setCtr_self _ _ _
theorem State.ctr_count_ne (s : State) (a b n : Nat) (h : b ≠ a) : (s.count a n).ctr b = s.ctr b := State.ctr_setCtr_ne _ _ _ _ h

@[simp] theorem State.port_setPort_self (s : State) (p : Nat) (x : Port) : (s.setPort p x).port p = x := by simp [State.port, State.setPort]
theorem State.port_setPort_ne (s : State) (p q : Nat) (x : Port) (h : q ≠ p) : (s.setPort p x).port q = s.port q := by
  simp [State.port, State.setPort, SMap.get_put_ne _ _ _ _ _ h]
@[simp] theorem State.ring_setRing_self (s : State) (r : Nat) (x : Ring) : (s.setRing r x).ring r = x := by simp [State.ring, State.setRing]
theorem State.ring_setRing_ne (s : State) (r q : Nat) (x : Ring) (h : q ≠ r) : (s.setRing r x).ring q = s.ring q := by
  simp [State.ring, State.setRing, SMap.get_put_ne _ _ _ _ _ h]
@[simp] theorem State.ini_setIni_self (s : State) (i : Nat) (x : IniBus) : (s.setIni i x).ini i = x := by simp [State.ini, State.setIni]
theorem State.ini_setIni_ne (s : State) (i j : Nat) (x : IniBus) (h : j ≠ i) : (s.setIni i x).ini j = s.ini j := by
  simp [State.ini, State.setIni, SMap.get_put_ne _ _ _ _ _ h]
@[simp] theorem State.reg_setCtr (s : State) (a v b : Nat) : (s.setCtr a v).reg b = s.reg b := rfl
@[simp] theorem State.reg_count (s : State) (a n b : Nat) : (s.count a n).reg b = s.reg b := rfl
@[simp] theorem State.reg_setPort (s : State) (p : Nat) (x : Port) (b : Nat) : (s.setPort p x).reg b = s.reg b := rfl
@[simp] theorem State.fld_count (s : State) (a n : Nat) (f : Fld) : (s.count a n).fld f = s.fld f := rfl
@[simp] theorem State.fld_setPort (s : State) (p : Nat) (x : Port) (f : Fld) : (s.setPort p x).fld f = s.fld f := rfl
@[simp] theorem State.port_setF (s : State) (f : Fld) (v p : Nat) : (s.setF f v).port p = s.port p := rfl
@[simp] theorem State.port_raise (s : State) (f : Fld) (p : Nat) : (s.raise f).port p = s.port p := rfl
@[simp] theorem State.port_count (s : State) (a n p : Nat) : (s.count a n).port p = s.port p := rfl
@[simp] theorem State.ctr_setF (s : State) (f : Fld) (v a : Nat) : (s.setF f v).ctr a = s.ctr a := rfl
@[simp] theorem State.ctr_raise (s : State) (f : Fld) (a : Nat) : (s.raise f).ctr a = s.ctr a := rfl
@[simp] theorem State.ctr_setPort (s : State) (p : Nat) (x : Port) (a : Nat) : (s.setPort p x).ctr a = s.ctr a := rfl
@[simp] theorem State.now_setF (s : State) (f : Fld) (v : Nat) : (s.setF f v).now = s.now := rfl
@[simp] theorem State.now_raise (s : State) (f : Fld) : (s.raise f).now = s.now := rfl
@[simp] theorem State.now_count (s : State) (a n : Nat) : (s.count a n).now = s.now := rfl
@[simp] theorem State.now_setPort (s : State) (p : Nat) (x : Port) : (s.setPort p x).now = s.now := rfl

end Sys2Proof.Machine
end

