-- ==== Sys2Proof/Laws/Run.lean ====
section
/-!
SUPPORT. What the frame of every command does (`State.run`, `State.cmd`): the end of a command, the MSI-X messages that follow, and the answer.
-/
namespace Sys2Proof.Machine

/-! ### MSI-X messages (R367) -/

/-- One step of `State.msixScan`. -/
theorem State.msixEvent_unarmed (s : State) (v : Nat) : (s.msixEvent v).hi.unarmed = s.hi.unarmed := by
  unfold State.msixEvent; split <;> rfl

/-- What a state keeps through the scan of the vectors. -/
structure SameButMsix (s t : State) : Prop where
  time : t.time = s.time
  timeReq : t.timeReq = s.timeReq
  regs : t.regs = s.regs
  act : t.act = s.act
  bus : t.bus = s.bus
  goBusy : t.goBusy = s.goBusy
  jn : t.jn = s.jn
  pool : t.pool = s.pool
  fab : t.fab = s.fab
  ports : t.ports = s.ports
  pl : t.pl = s.pl
  hm : t.hm = s.hm
  pt : t.pt = s.pt
  rings : t.hi.rings = s.hi.rings
  waiting : t.hi.waiting = s.hi.waiting
  table : t.hi.table = s.hi.table
  cfg2Set : t.hi.cfg2Set = s.hi.cfg2Set
  pci : t.hi.pci = s.hi.pci
  isl : t.isl = s.isl
  tw : t.tw = s.tw
  av : t.av = s.av
  pw : t.pw = s.pw
  db : t.db = s.db
  crfs : t.crfs = s.crfs
  pms : t.pms = s.pms
  bt : t.bt = s.bt
  sg : t.sg = s.sg
  rst : t.rst = s.rst
  free : t.free = s.free
  out : t.out.filter (fun e => !e.isMsix) = s.out.filter (fun e => !e.isMsix)
  ctr : ∀ a, a ≠ Ctr.hi 0x20 → t.ctr a = s.ctr a

theorem SameButMsix.refl (s : State) : SameButMsix s s := by constructor <;> first | rfl | (intros; rfl)

theorem SameButMsix.trans {s t u : State} (h : SameButMsix s t) (g : SameButMsix t u) : SameButMsix s u := by
  cases h; cases g; constructor <;> simp_all

/-- The vectors of a list, scanned. -/
def State.scanList (s : State) (l : List Nat) : State :=
  l.foldl (fun s v => if s.hi.unarmed.contains v then s else ({ s with hi := { s.hi with unarmed := v :: s.hi.unarmed } }).msixEvent v) s

theorem State.scanList_cons (s : State) (v : Nat) (l : List Nat) :
    s.scanList (v :: l) = (if s.hi.unarmed.contains v then s
      else ({ s with hi := { s.hi with unarmed := v :: s.hi.unarmed } }).msixEvent v).scanList l := rfl

theorem State.msixScan_eq (s : State) : s.msixScan = s.msixMoot.scanList s.raised := rfl

theorem State.sendOne_same (s : State) (v : Nat) :
    SameButMsix s (({ s with hi := { s.hi with unarmed := v :: s.hi.unarmed } }).msixEvent v) := by
  unfold State.msixEvent
  split
  · constructor <;> first | rfl | (intros; rfl)
  · constructor <;> first | rfl | (intro a h; exact State.ctr_count_ne _ _ _ _ h)

theorem State.scanList_same (l : List Nat) (s : State) : SameButMsix s (s.scanList l) := by
  induction l generalizing s with
  | nil => exact SameButMsix.refl s
  | cons v l ih =>
    by_cases h : s.hi.unarmed.contains v
    · rw [State.scanList_cons, if_pos h]; exact ih s
    · rw [State.scanList_cons, if_neg h]; exact (State.sendOne_same s v).trans (ih _)

/-- The scan changes nothing but vectors, MSI-X messages and their counter. -/
theorem State.msixScan_same (s : State) : SameButMsix s s.msixScan :=
  SameButMsix.trans (t := s.msixMoot) (by constructor <;> first | rfl | (intros; rfl)) (State.scanList_same _ _)

theorem State.scanList_unarmed (l : List Nat) (s : State) :
    (∀ v, v ∈ s.hi.unarmed → v ∈ (s.scanList l).hi.unarmed) ∧ (∀ v, v ∈ l → v ∈ (s.scanList l).hi.unarmed) := by
  induction l generalizing s with
  | nil => exact ⟨fun v h => h, fun v h => by simp at h⟩
  | cons w l ih =>
    by_cases h : s.hi.unarmed.contains w
    · rw [State.scanList_cons, if_pos h]
      refine ⟨(ih s).1, fun v hv => ?_⟩
      rcases List.mem_cons.1 hv with rfl | hv
      · exact (ih s).1 v (by simpa using h)
      · exact (ih s).2 v hv
    · rw [State.scanList_cons, if_neg h]
      have k := State.msixEvent_unarmed { s with hi := { s.hi with unarmed := w :: s.hi.unarmed } } w
      refine ⟨fun v hv => (ih _).1 v (by rw [k]; exact List.mem_cons_of_mem _ hv), fun v hv => ?_⟩
      rcases List.mem_cons.1 hv with rfl | hv
      · exact (ih _).1 v (by rw [k]; simp)
      · exact (ih _).2 v hv

/-- After the scan every raised vector is unarmed. -/
theorem State.msixScan_unarmed (s : State) (v : Nat) (h : v ∈ s.raised) : v ∈ s.msixScan.hi.unarmed :=
  (State.scanList_unarmed _ s.msixMoot).2 v h

/-! ### The end of a command -/

@[simp] theorem State.settle_pending (s s0 : State) (t : Time) : (s.settle s0 t).pending = s0.pending := rfl
@[simp] theorem State.settle_timeReq (s s0 : State) (t : Time) : (s.settle s0 t).timeReq = ⟨none, none⟩ := rfl
@[simp] theorem State.settle_time (s s0 : State) (t : Time) : (s.settle s0 t).time = t.take s.timeReq := rfl
@[simp] theorem State.reg_settle (s s0 : State) (t : Time) (a : Nat) : (s.settle s0 t).reg a = s.reg a := by
  show SMap.get regReset s.msixScan.regs a = _; rw [(State.msixScan_same s).regs]; rfl
@[simp] theorem State.fld_settle (s s0 : State) (t : Time) (f : Fld) : (s.settle s0 t).fld f = s.fld f := by simp [State.fld]
@[simp] theorem State.bit_settle (s s0 : State) (t : Time) (f : Fld) : (s.settle s0 t).bit f = s.bit f := by simp [State.bit]
@[simp] theorem State.settle_regs (s s0 : State) (t : Time) : (s.settle s0 t).regs = s.regs := (State.msixScan_same s).regs
@[simp] theorem State.settle_act (s s0 : State) (t : Time) : (s.settle s0 t).act = s.act := (State.msixScan_same s).act
@[simp] theorem State.settle_bus (s s0 : State) (t : Time) : (s.settle s0 t).bus = s.bus := (State.msixScan_same s).bus
@[simp] theorem State.settle_goBusy (s s0 : State) (t : Time) : (s.settle s0 t).goBusy = s.goBusy := (State.msixScan_same s).goBusy
@[simp] theorem State.settle_jn (s s0 : State) (t : Time) : (s.settle s0 t).jn = s.jn := (State.msixScan_same s).jn
@[simp] theorem State.settle_pool (s s0 : State) (t : Time) : (s.settle s0 t).pool = s.pool := (State.msixScan_same s).pool
@[simp] theorem State.settle_fab (s s0 : State) (t : Time) : (s.settle s0 t).fab = s.fab := (State.msixScan_same s).fab
@[simp] theorem State.settle_ports (s s0 : State) (t : Time) : (s.settle s0 t).ports = s.ports := (State.msixScan_same s).ports
@[simp] theorem State.settle_pl (s s0 : State) (t : Time) : (s.settle s0 t).pl = s.pl := (State.msixScan_same s).pl
@[simp] theorem State.settle_hm (s s0 : State) (t : Time) : (s.settle s0 t).hm = s.hm := (State.msixScan_same s).hm
@[simp] theorem State.settle_pt (s s0 : State) (t : Time) : (s.settle s0 t).pt = s.pt := (State.msixScan_same s).pt
@[simp] theorem State.settle_hi_rings (s s0 : State) (t : Time) : (s.settle s0 t).hi.rings = s.hi.rings := (State.msixScan_same s).rings
@[simp] theorem State.settle_hi_waiting (s s0 : State) (t : Time) : (s.settle s0 t).hi.waiting = s.hi.waiting := (State.msixScan_same s).waiting
@[simp] theorem State.settle_hi_table (s s0 : State) (t : Time) : (s.settle s0 t).hi.table = s.hi.table := (State.msixScan_same s).table
@[simp] theorem State.settle_hi_cfg2Set (s s0 : State) (t : Time) : (s.settle s0 t).hi.cfg2Set = s.hi.cfg2Set := (State.msixScan_same s).cfg2Set
@[simp] theorem State.settle_hi_pci (s s0 : State) (t : Time) : (s.settle s0 t).hi.pci = s.hi.pci := (State.msixScan_same s).pci
@[simp] theorem State.settle_isl (s s0 : State) (t : Time) : (s.settle s0 t).isl = s.isl := (State.msixScan_same s).isl
@[simp] theorem State.settle_tw (s s0 : State) (t : Time) : (s.settle s0 t).tw = s.tw := (State.msixScan_same s).tw
@[simp] theorem State.settle_av (s s0 : State) (t : Time) : (s.settle s0 t).av = s.av := (State.msixScan_same s).av
@[simp] theorem State.settle_pw (s s0 : State) (t : Time) : (s.settle s0 t).pw = s.pw := (State.msixScan_same s).pw
@[simp] theorem State.settle_db (s s0 : State) (t : Time) : (s.settle s0 t).db = s.db := (State.msixScan_same s).db
@[simp] theorem State.settle_crfs (s s0 : State) (t : Time) : (s.settle s0 t).crfs = s.crfs := (State.msixScan_same s).crfs
@[simp] theorem State.settle_pms (s s0 : State) (t : Time) : (s.settle s0 t).pms = s.pms := (State.msixScan_same s).pms
@[simp] theorem State.settle_bt (s s0 : State) (t : Time) : (s.settle s0 t).bt = s.bt := (State.msixScan_same s).bt
@[simp] theorem State.settle_sg (s s0 : State) (t : Time) : (s.settle s0 t).sg = s.sg := (State.msixScan_same s).sg
@[simp] theorem State.settle_rst (s s0 : State) (t : Time) : (s.settle s0 t).rst = s.rst := (State.msixScan_same s).rst
@[simp] theorem State.settle_free (s s0 : State) (t : Time) : (s.settle s0 t).free = s.free := (State.msixScan_same s).free
@[simp] theorem State.settle_out (s s0 : State) (t : Time) :
    (s.settle s0 t).out.filter (fun e => !e.isMsix) = s.out.filter (fun e => !e.isMsix) := (State.msixScan_same s).out
theorem State.ctr_settle (s s0 : State) (t : Time) (a : Nat) (h : a ≠ Ctr.hi 0x20) : (s.settle s0 t).ctr a = s.ctr a :=
  (State.msixScan_same s).ctr a h
@[simp] theorem State.port_settle (s s0 : State) (t : Time) (p : Nat) : (s.settle s0 t).port p = s.port p := by simp [State.port]
@[simp] theorem State.ring_settle (s s0 : State) (t : Time) (r : Nat) : (s.settle s0 t).ring r = s.ring r := by simp [State.ring]
@[simp] theorem State.ini_settle (s s0 : State) (t : Time) (i : Nat) : (s.settle s0 t).ini i = s.ini i := by simp [State.ini]
@[simp] theorem State.actReg_settle (s s0 : State) (t : Time) (a : Nat) : (s.settle s0 t).actReg a = s.actReg a := by simp [State.actReg]
@[simp] theorem State.afld_settle (s s0 : State) (t : Time) (f : Fld) : (s.settle s0 t).afld f = s.afld f := by simp [State.afld]

/-- A request for nothing leaves the time group as it is. -/
@[simp] theorem Time.take_none (t : Time) : t.take ⟨none, none⟩ = t := rfl

/-! ### Where commands act -/

/-- A command of the main islands that asks for no step of the counter acts as its operation. -/
theorem State.onMain_up (s : State) (f : State → State) (h : s.mainUp = true) (hs : (f s).timeReq.step = none) :
    s.onMain f = f s := by
  simp [State.onMain, h, State.afterStep, hs]
/-- Without the main islands it does nothing. -/
theorem State.onMain_down (s : State) (f : State → State) (h : s.mainUp = false) : s.onMain f = s := by simp [State.onMain, h]
theorem State.onAon_up (s : State) (f : State → State) (h : s.aonUp = true) (hs : (f s).timeReq.step = none) :
    s.onAon f = f s := by
  simp [State.onAon, h, State.afterStep, hs]
theorem State.onAon_down (s : State) (f : State → State) (h : s.aonUp = false) : s.onAon f = s := by simp [State.onAon, h]

/-- The answer of a command whose operands the device has. -/
theorem State.cmd_next (s : State) (dt : Nat) (f : State → State) : s.cmd true dt f = .next (s.run dt f) := rfl
/-- The answer of a command of the main islands. -/
theorem State.cmdMain_next (s : State) (dt : Nat) (f : State → State) (h : s.mainUp = true)
    (hs : (f (s.begun dt)).timeReq.step = none) :
    s.cmdMain true dt f = .next ((f (s.begun dt)).settle s (s.begun dt).time) := by
  rw [State.cmdMain, State.cmd_next, State.run, State.onMain_up _ _ (by simpa using h) hs]
/-- The answer of a command of the always-on island. -/
theorem State.cmdAon_next (s : State) (dt : Nat) (f : State → State) (h : s.aonUp = true)
    (hs : (f (s.begun dt)).timeReq.step = none) :
    s.cmdAon true dt f = .next ((f (s.begun dt)).settle s (s.begun dt).time) := by
  rw [State.cmdAon, State.cmd_next, State.run, State.onAon_up _ _ (by simpa using h) hs]

/-! ### Frames -/

/-- A state that is the same as `s` in every part but some, before the end of the command, is so after it. -/
theorem State.frame_settle (s t s0 : State) (x : Touch) (h : s.frame t x) (hr : t.timeReq = ⟨none, none⟩) :
    s.frame (t.settle s0 s.time) x := by
  obtain ⟨h1, h2, h3, h4, h5⟩ := h
  refine ⟨fun k hk => ?_, fun a ha => by simpa using h2 a ha, fun a ha hb => by rw [State.ctr_settle _ _ _ _ ha]; exact h3 a ha hb,
    fun p hp => by simpa using h4 p hp, fun r hr => by simpa using h5 r hr⟩
  have := h1 k hk
  cases k <;> simp_all [Part.same]

/-- Nothing is changed. -/
theorem State.frame_refl (s : State) (x : Touch) : s.frame s x :=
  ⟨fun k _ => by cases k <;> simp [Part.same], fun _ _ => rfl, fun _ _ _ => rfl, fun _ _ => rfl, fun _ _ => rfl⟩

/-- Two changes after another touch what either touches. -/
theorem State.frame_trans {s t u : State} {x : Touch} (h : s.frame t x) (g : t.frame u x) : s.frame u x := by
  obtain ⟨h1, h2, h3, h4, h5⟩ := h
  obtain ⟨g1, g2, g3, g4, g5⟩ := g
  refine ⟨fun k hk => ?_, fun a ha => (g2 a ha).trans (h2 a ha), fun a ha hb => (g3 a ha hb).trans (h3 a ha hb),
    fun p hp => (g4 p hp).trans (h4 p hp), fun r hr => (g5 r hr).trans (h5 r hr)⟩
  have a := h1 k hk; have b := g1 k hk
  cases k <;> simp_all [Part.same]

theorem State.frame_setF (s : State) (f : Fld) (v : Nat) (x : Touch) (h : x.regs f.addr) : s.frame (s.setF f v) x :=
  ⟨fun k _ => by cases k <;> simp [Part.same], fun a ha => State.reg_setF_ne _ _ _ _ (fun e => ha (e ▸ h)), fun _ _ _ => rfl, fun _ _ => rfl, fun _ _ => rfl⟩
theorem State.frame_raise (s : State) (f : Fld) (x : Touch) (h : x.regs f.addr) : s.frame (s.raise f) x := State.frame_setF s f 1 x h
theorem State.frame_setReg (s : State) (a : Nat) (w : Word) (x : Touch) (h : x.regs a) : s.frame (s.setReg a w) x :=
  ⟨fun k _ => by cases k <;> simp [Part.same], fun b hb => State.reg_setReg_ne _ _ _ _ (fun e => hb (e ▸ h)), fun _ _ _ => rfl, fun _ _ => rfl, fun _ _ => rfl⟩
theorem State.frame_count (s : State) (a n : Nat) (x : Touch) (h : x.ctrs a) : s.frame (s.count a n) x :=
  ⟨fun k _ => by cases k <;> simp [Part.same], fun _ _ => rfl, fun b _ hb => State.ctr_count_ne _ _ _ _ (fun e => hb (e ▸ h)), fun _ _ => rfl, fun _ _ => rfl⟩
theorem State.frame_setPort (s : State) (p : Nat) (y : Port) (x : Touch) (h : p ∈ x.ports) : s.frame (s.setPort p y) x :=
  ⟨fun k _ => by cases k <;> simp [Part.same], fun _ _ => rfl, fun _ _ _ => rfl, fun q hq => State.port_setPort_ne _ _ _ _ (fun e => hq (e ▸ h)), fun _ _ => rfl⟩
theorem State.frame_setRing (s : State) (r : Nat) (y : Ring) (x : Touch) (h : r ∈ x.rings) : s.frame (s.setRing r y) x :=
  ⟨fun k _ => by cases k <;> simp [Part.same, State.setRing], fun _ _ => rfl, fun _ _ _ => rfl, fun _ _ => rfl, fun q hq => State.ring_setRing_ne _ _ _ _ (fun e => hq (e ▸ h))⟩

end Sys2Proof.Machine
end

