-- ==== Sys2Proof/Laws/Ops.lean ====
section
/-!
SUPPORT. What each shared operation can do: one lemma per operation names everything that it touches (`State.leaves`), and proofs about commands
compose these lemmas with `State.leaves_trans` in place of unfolding the operation.
-/
namespace Sys2Proof.Machine

/-- An operation touches only `x`, and asks nothing of the time group. -/
def State.leaves (s t : State) (x : Touch) : Prop := s.frame t x ∧ t.timeReq = s.timeReq

theorem State.leaves_refl (s : State) (x : Touch) : s.leaves s x := ⟨State.frame_refl s x, rfl⟩

theorem State.leaves_trans {s t u : State} {x : Touch} (h : s.leaves t x) (g : t.leaves u x) : s.leaves u x :=
  ⟨State.frame_trans h.1 g.1, g.2.trans h.2⟩

/-- An operation of a list, one element after another. -/
theorem State.leaves_foldl {α : Type} (f : State → α → State) (x : Touch) (l : List α) (h : ∀ (s : State) (a : α), a ∈ l → s.leaves (f s a) x) (s : State) :
    s.leaves (l.foldl f s) x := by
  induction l generalizing s with
  | nil => exact State.leaves_refl s x
  | cons a l ih =>
    exact State.leaves_trans (h s a (by simp)) (ih (fun t b hb => h t b (by simp [hb])) (f s a))

/-- A choice between two operations. -/
theorem State.leaves_ite {s t u : State} {x : Touch} (c : Prop) [Decidable c] (h : c → s.leaves t x) (g : ¬ c → s.leaves u x) :
    s.leaves (if c then t else u) x := by
  split <;> rename_i k
  · exact h k
  · exact g k

/-- A command whose operation touches `x` answers a next state that differs from the begun one in `x` alone. -/
theorem State.leaves_settle (s t s0 : State) (x : Touch) (h : s.leaves t x) (hr : s.timeReq = ⟨none, none⟩) :
    s.frame (t.settle s0 s.time) x :=
  State.frame_settle s t s0 x h.1 (h.2.trans hr)

/-! ### Updates of one part -/

theorem State.leaves_setF (s : State) (f : Fld) (v : Nat) (x : Touch) (h : x.regs f.addr) : s.leaves (s.setF f v) x := ⟨State.frame_setF s f v x h, rfl⟩
theorem State.leaves_raise (s : State) (f : Fld) (x : Touch) (h : x.regs f.addr) : s.leaves (s.raise f) x := State.leaves_setF s f 1 x h
theorem State.leaves_orF (s : State) (f : Fld) (v : Nat) (x : Touch) (h : x.regs f.addr) : s.leaves (s.orF f v) x := State.leaves_setF s f _ x h
theorem State.leaves_setReg (s : State) (a : Nat) (w : Word) (x : Touch) (h : x.regs a) : s.leaves (s.setReg a w) x := ⟨State.frame_setReg s a w x h, rfl⟩
theorem State.leaves_count (s : State) (a n : Nat) (x : Touch) (h : x.ctrs a) : s.leaves (s.count a n) x := ⟨State.frame_count s a n x h, rfl⟩
theorem State.leaves_setPort (s : State) (p : Nat) (y : Port) (x : Touch) (h : p ∈ x.ports) : s.leaves (s.setPort p y) x :=
  ⟨State.frame_setPort s p y x h, rfl⟩
theorem State.leaves_setRing (s : State) (r : Nat) (y : Ring) (x : Touch) (h : r ∈ x.rings) : s.leaves (s.setRing r y) x :=
  ⟨State.frame_setRing s r y x h, rfl⟩

/-- What keeps registers, counters, ports and rings, and every part but one, touches that part alone. -/
theorem State.leaves_part (s t : State) (k : Part) (x : Touch) (hk : k ∈ x.parts) (h : ∀ j, j ≠ k → Part.same j s t) (hr : t.regs = s.regs)
    (hc : t.ctrs = s.ctrs) (hp : t.ports = s.ports) (hi : t.hi.rings = s.hi.rings) (hq : t.timeReq = s.timeReq) : s.leaves t x :=
  ⟨⟨fun j hj => h j (fun e => hj (e ▸ hk)), fun a _ => by simp [State.reg, hr], fun a _ _ => by simp [State.ctr, hc],
    fun p _ => by simp [State.port, hp], fun r _ => by simp [State.ring, hi]⟩, hq⟩

theorem State.leaves_drawn (s : State) (x : Touch) (h : .free ∈ x.parts) : s.leaves s.drawn x :=
  State.leaves_part s _ .free x h (fun j hj => by cases j <;> simp_all [Part.same, State.drawn]) rfl rfl rfl rfl rfl
theorem State.leaves_emit (s : State) (e : OutEv) (x : Touch) (h : .out ∈ x.parts) : s.leaves (s.emit e) x :=
  State.leaves_part s _ .out x h (fun j hj => by cases j <;> simp_all [Part.same, State.emit]) rfl rfl rfl rfl rfl
theorem State.leaves_setAct (s : State) (a : Nat) (w : Word) (x : Touch) (h : .act ∈ x.parts) : s.leaves (s.setAct a w) x :=
  State.leaves_part s _ .act x h (fun j hj => by cases j <;> simp_all [Part.same, State.setAct]) rfl rfl rfl rfl rfl
theorem State.leaves_setIni (s : State) (i : Nat) (b : IniBus) (x : Touch) (h : .bus ∈ x.parts) : s.leaves (s.setIni i b) x :=
  State.leaves_part s _ .bus x h (fun j hj => by cases j <;> simp_all [Part.same, State.setIni]) rfl rfl rfl rfl rfl
theorem State.leaves_setFrame (s : State) (f : Nat) (y : Frame) (x : Touch) (h : .fab ∈ x.parts) : s.leaves (s.setFrame f y) x :=
  State.leaves_part s _ .fab x h (fun j hj => by cases j <;> simp_all [Part.same, State.setFrame]) rfl rfl rfl rfl rfl
theorem State.leaves_dropFrame (s : State) (f : Nat) (x : Touch) (h : .fab ∈ x.parts) : s.leaves (s.dropFrame f) x :=
  State.leaves_part s _ .fab x h (fun j hj => by cases j <;> simp_all [Part.same, State.dropFrame]) rfl rfl rfl rfl rfl
theorem State.leaves_setQueue (s : State) (q : Nat) (l : List QEnt) (x : Touch) (h : .fab ∈ x.parts) : s.leaves (s.setQueue q l) x :=
  State.leaves_part s _ .fab x h (fun j hj => by cases j <;> simp_all [Part.same, State.setQueue]) rfl rfl rfl rfl rfl
theorem State.leaves_setIntake (s : State) (e : Nat) (l : List QEnt) (x : Touch) (h : .fab ∈ x.parts) : s.leaves (s.setIntake e l) x :=
  State.leaves_part s _ .fab x h (fun j hj => by cases j <;> simp_all [Part.same, State.setIntake]) rfl rfl rfl rfl rfl
theorem State.leaves_lenOut (s : State) (q n : Nat) (x : Touch) (h : .fab ∈ x.parts) : s.leaves (s.lenOut q n) x :=
  State.leaves_part s _ .fab x h (fun j hj => by cases j <;> simp_all [Part.same, State.lenOut]) rfl rfl rfl rfl rfl
theorem State.leaves_setCell (s : State) (c : Nat) (y : CellSt) (x : Touch) (h : .pool ∈ x.parts) : s.leaves (s.setCell c y) x :=
  State.leaves_part s _ .pool x h (fun j hj => by cases j <;> simp_all [Part.same, State.setCell]) rfl rfl rfl rfl rfl
theorem State.leaves_setCrf (s : State) (p : Nat) (y : Crf) (x : Touch) (h : .crfs ∈ x.parts) : s.leaves (s.setCrf p y) x :=
  State.leaves_part s _ .crfs x h (fun j hj => by cases j <;> simp_all [Part.same, State.setCrf]) rfl rfl rfl rfl rfl
theorem State.leaves_setPm (s : State) (p : Nat) (y : Pm) (x : Touch) (h : .pms ∈ x.parts) : s.leaves (s.setPm p y) x :=
  State.leaves_part s _ .pms x h (fun j hj => by cases j <;> simp_all [Part.same, State.setPm]) rfl rfl rfl rfl rfl
theorem State.leaves_setWaiting (s : State) (cq : Nat) (l : List (Nat × List Word × Nat × Nat)) (x : Touch) (h : .hi ∈ x.parts) :
    s.leaves (s.setWaiting cq l) x :=
  State.leaves_part s _ .hi x h (fun j hj => by cases j <;> simp_all [Part.same, State.setWaiting]) rfl rfl rfl rfl rfl
theorem State.leaves_setGate (s : State) (q : Nat) (g : Gate) (x : Touch) (h : .hm ∈ x.parts) : s.leaves (s.setGate q g) x :=
  State.leaves_part s _ .hm x h (fun j hj => by cases j <;> simp_all [Part.same, State.setGate]) rfl rfl rfl rfl rfl
theorem State.leaves_setPin (s : State) (i : Nat) (y : EvtPin) (x : Touch) (h : .hm ∈ x.parts) : s.leaves (s.setPin i y) x :=
  State.leaves_part s _ .hm x h (fun j hj => by cases j <;> simp_all [Part.same, State.setPin]) rfl rfl rfl rfl rfl
theorem State.leaves_noteSelect (s : State) (p : Nat) (x : Touch) (h : .pl ∈ x.parts) : s.leaves (s.noteSelect p) x :=
  State.leaves_part s _ .pl x h (fun j hj => by cases j <;> simp_all [Part.same]) rfl rfl rfl rfl rfl
theorem State.leaves_noteDrop (s : State) (p : Nat) (x : Touch) (h : .pl ∈ x.parts) : s.leaves (s.noteDrop p) x :=
  State.leaves_part s _ .pl x h (fun j hj => by cases j <;> simp_all [Part.same]) rfl rfl rfl rfl rfl
theorem State.leaves_noteTurn (s : State) (i : Nat) (ns : List Nat) (x : Touch) (h : .pl ∈ x.parts) : s.leaves (s.noteTurn i ns) x :=
  State.leaves_part s _ .pl x h (fun j hj => by cases j <;> simp_all [Part.same]) rfl rfl rfl rfl rfl
theorem State.leaves_stageRes (s : State) (a : Nat) (ws : List (Nat × Nat × Word)) (x : Touch) (h : .pt ∈ x.parts) :
    s.leaves (s.stageRes a ws) x :=
  State.leaves_part s _ .pt x h (fun j hj => by cases j <;> simp_all [Part.same]) rfl rfl rfl rfl rfl
theorem State.leaves_setBucket (s : State) (a : Nat) (b : Bucket) (x : Touch) (h : .pl ∈ x.parts) : s.leaves (s.setBucket a b) x :=
  State.leaves_part s _ .pl x h (fun j hj => by cases j <;> simp_all [Part.same, State.setBucket]) rfl rfl rfl rfl rfl
theorem State.leaves_setRegion (s : State) (r : Nat) (bs : List Byte) (x : Touch) (h : .bt ∈ x.parts) : s.leaves (s.setRegion r bs) x :=
  State.leaves_part s _ .bt x h (fun j hj => by cases j <;> simp_all [Part.same, State.setRegion]) rfl rfl rfl rfl rfl
theorem State.leaves_setWakeBuf (s : State) (g : Nat) (l : List WakeFrame) (x : Touch) (h : .pw ∈ x.parts) : s.leaves (s.setWakeBuf g l) x :=
  State.leaves_part s _ .pw x h (fun j hj => by cases j <;> simp_all [Part.same, State.setWakeBuf]) rfl rfl rfl rfl rfl

theorem State.leaves_pool (s : State) (y : Pool) (x : Touch) (h : .pool ∈ x.parts) : s.leaves { s with pool := y } x :=
  State.leaves_part s _ .pool x h (fun j hj => by cases j <;> simp_all [Part.same]) rfl rfl rfl rfl rfl

/-! ### Commands, the journal, interrupts -/

/-- A command with GO draws its delay and is under way (R520). -/
theorem State.leaves_startGo (s : State) (a bound : Nat) (x : Touch) (h : .free ∈ x.parts) (g : .goBusy ∈ x.parts) : s.leaves (s.startGo a bound) x := by
  refine State.leaves_trans (State.leaves_drawn s x h) (State.leaves_part _ _ .goBusy x g (fun j hj => ?_) rfl rfl rfl rfl rfl)
  cases j <;> simp_all [Part.same, State.startGo, State.drawn]

theorem State.leaves_jn (s : State) (y : Journal) (x : Touch) (h : .jn ∈ x.parts) : s.leaves { s with jn := y } x :=
  State.leaves_part s _ .jn x h (fun j hj => by cases j <;> simp_all [Part.same]) rfl rfl rfl rfl rfl

/-- A record that enters the queue touches the journal, and JN_LOST where it is lost (R419). -/
theorem State.leaves_jnEnter (s : State) (tick ns rank kind origin sub : Nat) (args : List Nat) (x : Touch) (h : .jn ∈ x.parts)
    (g : x.regs Reg.CM_INT_STATUS) : s.leaves (s.jnEnter tick ns rank kind origin sub args) x := by
  unfold State.jnEnter
  dsimp only
  refine State.leaves_ite _ (fun _ => State.leaves_jn s _ x h) (fun _ => ?_)
  exact State.leaves_ite _ (fun _ => State.leaves_jn s _ x h)
    (fun _ => State.leaves_trans (State.leaves_jn s _ x h) (State.leaves_raise _ _ x g))

/-- So do the events of completed commands (R419). -/
theorem State.leaves_jnRipe (s : State) (x : Touch) (h : .jn ∈ x.parts) (g : x.regs Reg.CM_INT_STATUS) : s.leaves s.jnRipe x :=
  State.leaves_trans (State.leaves_jn s _ x h) (State.leaves_foldl _ x _ (fun s _ _ => State.leaves_jnEnter s _ _ _ _ _ _ _ x h g) _)

/-- A record of an event that takes effect now. -/
theorem State.leaves_journal (s : State) (kind origin sub : Nat) (args : List Nat) (x : Touch) (h : .jn ∈ x.parts)
    (g : x.regs Reg.CM_INT_STATUS) : s.leaves (s.journal kind origin sub args) x :=
  State.leaves_trans (State.leaves_jnRipe s x h g) (State.leaves_jnEnter _ _ _ _ _ _ _ _ x h g)

/-- A table command's record, of the time at which the command takes effect. -/
theorem State.leaves_journalAt (s : State) (t plane kind origin sub : Nat) (args : List Nat) (x : Touch) (h : .jn ∈ x.parts)
    (g : x.regs Reg.CM_INT_STATUS) : s.leaves (s.journalAt t plane kind origin sub args) x := by
  unfold State.journalAt
  exact State.leaves_ite _ (fun _ => State.leaves_trans (State.leaves_jnRipe s x h g) (State.leaves_jnEnter _ _ _ _ _ _ _ _ x h g))
    (fun _ => State.leaves_jn s _ x h)

/-- The stage of the boot, with its event (R451). -/
theorem State.leaves_toStage (s : State) (n : Nat) (x : Touch) (h : x.regs Reg.GL_BOOT_STATUS) (g : x.regs Reg.GL_INT_STATUS) : s.leaves (s.toStage n) x := by
  unfold State.toStage
  exact State.leaves_ite _ (fun _ => State.leaves_refl s x) (fun _ => State.leaves_trans (State.leaves_setF _ _ _ x h) (State.leaves_raise _ _ x g))

/-- The debug level, with its event and record; a session's end but for Inspect (R464, R471). -/
theorem State.leaves_setLevel (s : State) (origin lvl cause dur : Nat) (x : Touch) (h : .jn ∈ x.parts) (g : .db ∈ x.parts)
    (hr : x.regs Reg.SG_STATUS ∧ x.regs Reg.SG_INT_STATUS ∧ x.regs Reg.CM_INT_STATUS) : s.leaves (s.setLevel origin lvl cause dur) x := by
  unfold State.setLevel
  refine State.leaves_ite _ (fun _ => State.leaves_refl s x) (fun _ => ?_)
  have k := State.leaves_trans (State.leaves_trans (State.leaves_setF s Fld.SG_STATUS_DEBUG lvl x hr.1) (State.leaves_raise _ Fld.SG_INT_STATUS_DEBUG_CHG x hr.2.1))
    (State.leaves_journal _ 6 origin 1 [s.dbgLevel, lvl, cause, dur] x h hr.2.2)
  exact State.leaves_ite _ (fun _ => k)
    (fun _ => State.leaves_trans k (State.leaves_part _ _ .db x g (fun j hj => by cases j <;> simp_all [Part.same]) rfl rfl rfl rfl rfl))

/-- An access error: counted, raised, and the first captured (R406). -/
theorem State.leaves_accessError (s : State) (kind ini addr be : Nat) (write : Bool) (x : Touch) (h : x.ctrs 0x2760000)
    (hr : x.regs Reg.CM_INT_STATUS ∧ x.regs Reg.CM_ACC_ERR_ADDR ∧ x.regs Reg.CM_ACC_ERR_INFO) : s.leaves (s.accessError kind ini addr be write) x := by
  unfold State.accessError
  have k := State.leaves_trans (State.leaves_count s 0x2760000 1 x h) (State.leaves_raise _ Fld.CM_INT_STATUS_ACCESS_ERR x hr.1)
  exact State.leaves_ite _ (fun _ => k)
    (fun _ => State.leaves_trans k (State.leaves_trans (State.leaves_setReg _ _ _ x hr.2.1) (State.leaves_setReg _ _ _ x hr.2.2)))

/-! ### Rings -/

/-- A ring's error: its bit, the bit of the interrupt and the ring's number (R395). -/
theorem State.leaves_ringErr (s : State) (r : Nat) (f g : Fld) (x : Touch) (hf : x.regs f.addr) (hg : x.regs g.addr) (he : x.regs Reg.HI_ERR_RING) :
    s.leaves (s.ringErr r f g) x :=
  State.leaves_trans (State.leaves_trans (State.leaves_raise _ _ x hf) (State.leaves_raise _ _ x hg)) (State.leaves_setF _ _ _ x he)

/-- The finished jobs at the front of a ring move to its CQ's completions that wait. -/
theorem State.leaves_flushJobs (n : Nat) (s : State) (r : Nat) (x : Touch) (h : .hi ∈ x.parts) (hr : r ∈ x.rings) : s.leaves (s.flushJobs r n) x := by
  induction n generalizing s with
  | zero => exact State.leaves_refl s x
  | succ k ih =>
    unfold State.flushJobs
    split
    · exact State.leaves_refl s x
    · split
      · exact State.leaves_refl s x
      · exact State.leaves_trans (State.leaves_trans (State.leaves_setRing _ _ _ x hr) (State.leaves_setWaiting _ _ _ x h)) (ih _)

/-- The end of a job touches its ring and the completions that wait. -/
theorem State.leaves_jobEnd (s : State) (r num status w0 w1 : Nat) (x : Touch) (h : .hi ∈ x.parts) (hr : r ∈ x.rings) :
    s.leaves (s.jobEnd r num status w0 w1) x :=
  State.leaves_trans (State.leaves_setRing _ _ _ x hr) (State.leaves_flushJobs _ _ r x h hr)

/-- A frame or job of a queue identifier is counted as dropped. -/
theorem State.leaves_countDrop (s : State) (q len : Nat) (x : Touch) (h : x.ctrs (Ctr.queue q 0x10)) (g : x.ctrs (Ctr.queue q 0x18)) :
    s.leaves (s.countDrop q len) x := State.leaves_trans (State.leaves_count _ _ _ x h) (State.leaves_count _ _ _ x g)

/-! ### Cells and frames -/

theorem State.leaves_touchPool (s : State) (n : Nat) (x : Touch) (h : .pool ∈ x.parts) : s.leaves (s.touchPool n) x := State.leaves_pool s _ x h

/-- A release begins, and makes its checks, in the pool alone (R258). -/
theorem State.leaves_release (s : State) (rank claim first n : Nat) (x : Touch) (h : .pool ∈ x.parts) : s.leaves (s.release rank claim first n) x :=
  State.leaves_pool s _ x h

theorem State.leaves_releaseCells (s : State) (rank claim : Nat) (cells : List Nat) (x : Touch) (h : .pool ∈ x.parts) :
    s.leaves (s.releaseCells rank claim cells) x := by
  unfold State.releaseCells
  split
  · exact State.leaves_refl s x
  · exact State.leaves_release s _ _ _ _ x h

/-- A frame goes with its cells. -/
theorem State.leaves_freeFrame (s : State) (f : Nat) (x : Touch) (h : .pool ∈ x.parts) (g : .fab ∈ x.parts) : s.leaves (s.freeFrame f) x := by
  unfold State.freeFrame
  split
  · exact State.leaves_refl s x
  · exact State.leaves_trans (State.leaves_releaseCells s _ _ _ x h) (State.leaves_dropFrame _ _ x g)

/-- The job of a host frame that is discarded ends, if its completion waits for it (R384). -/
theorem State.leaves_hostDiscard (s : State) (y : Frame) (x : Touch)
    (hh : ∀ h, y.host = some h → h.tsReq = true → .hi ∈ x.parts ∧ h.ring ∈ x.rings) : s.leaves (s.hostDiscard y) x := by
  unfold State.hostDiscard
  split
  · exact State.leaves_refl s x
  · rename_i h e
    split
    · rename_i g
      exact State.leaves_jobEnd s _ _ _ _ _ x (hh h e g).1 (hh h e g).2
    · exact State.leaves_refl s x

/-- A reference to a frame goes, the last one with the frame and with the job that still waits for it (R212). -/
theorem State.leaves_decRef (s : State) (f : Nat) (x : Touch) (h : .pool ∈ x.parts) (g : .fab ∈ x.parts)
    (hh : ∀ y k, s.frame? f = some y → y.host = some k → k.tsReq = true → .hi ∈ x.parts ∧ k.ring ∈ x.rings) : s.leaves (s.decRef f) x := by
  unfold State.decRef
  split
  · exact State.leaves_refl s x
  · rename_i y e
    exact State.leaves_ite _
      (fun _ => State.leaves_trans (State.leaves_hostDiscard s y x (fun k => hh y k e)) (State.leaves_freeFrame _ f x h g))
      (fun _ => State.leaves_setFrame s f _ x g)

end Sys2Proof.Machine
end

