-- ==== Sys2Proof/Tests/Slice0.lean ====
section
/-!
SUPPORT. The model's own tests: a state and operands that meet the hypotheses of every statement, an ill-formed command for each check of
`Instr.wellFormed`, and values that the spec works out.
-/
set_option Elab.async false
namespace Sys2Proof.Machine.Tests

/-- After the boot: every pair island and port-group island is there, and the receive paths are open. -/
def base : State := { State.reset with isl := { Islands.reset with pair := 15, pg := 4095, rxOpen := true } }
/-- A state with fields set. -/
def withF (s : State) (l : List (Fld × Nat)) : State := l.foldl (fun s x => s.setF x.1 x.2) s
/-- The base with fields set. -/
def st (l : List (Fld × Nat)) : State := withF base l
/-- A state with fields of active copies set. -/
def withA (s : State) (l : List (Fld × Nat)) : State :=
  l.foldl (fun s x => s.setAct x.1.addr (w32 (setBits (s.actReg x.1.addr).toNat x.1.lo x.1.len x.2))) s


/-! ### An ill-formed command for each check of `Instr.wellFormed` is refused -/

/-- Whether a command is ill-formed, and refused for it. -/
def turnedAway (i : Instr) : Bool :=
  !i.wellFormed && (match exec i State.reset with
    | .refused .illFormed => true
    | _ => false)

theorem test_illFormed_1 : ([
    .portEnable 7 144, .portDisable 7 144, .portDrained 7 144, .anRestart 7 144, .anDone 7 144 true, .retrain 7 144, .ltDone 7 ⟨144, []⟩, .ltFail 7 144,
     .retryDelay 7 144, .lpiEntry 7 144, .lpiWakeDone 7 144, .lpiRx 7 144 true, .pauseRx 7 144 1, .pfcRx 7 144 1 [], .pauseExpire 7 144,
     .pauseWd 7 144, .linkUp 7 144 1, .linkDown 7 144, .holdExpire 7 144, .frameRxEnd 7 144 [] true ⟨0, 0, 0, 0⟩, .stage6Admit 7 1 2, .egressReplicate 7 8,
     .selectFrame 7 144, .doomedDiscard 7 81920, .launchFar 7 81920, .gateOversize 7 81920, .launchTimeReached 7 144, .txLastByte 7 144,
     .bucketRefill 7 0 144, .bucketRefill 7 1 1152, .bucketRefill 7 2 1024, .bucketRefill 7 3 16384, .bucketRefill 7 4 65536,
     .bucketRefill 7 5 36864, .bucketRefill 7 6 36864, .bucketRefill 7 7 0, .cellAlloc 7 (.rxPort 144), .cellAlloc 7 (.host 4096),
     .cellRelease 7 64 1 1, .cellRelease 7 1 524288 1] : List Instr).all turnedAway = true := by decide +kernel

theorem test_illFormed_2 : ([
    .cellRelease 7 1 1 0, .cellRelease 7 1 1 41, .cellQuery 7 524288, .cellCmdAlloc 7 64, .cellFree 7 524288, .cellReclaim 7 524288,
     .poolWmReset 7 64, .wredSeedWrite 7 8 1, .queueDisable 7 81920, .queueDrained 7 81920, .mirrorSessionDisable 7 8, .mirrorSessionDrained 7 8,
     .fenceLiftInward 7 144, .fenceLiftOutward 7 144, .bankTestBankStart 7 32, .bankTestBankDone 7 32 true, .bankTestSkip 7 32,
     .fgRead 7 .pcie 4 1 true, .fgRead 7 .pcie 1 8192 true, .fgWrite 7 .pcie 4 1 true, .fgWrite 7 .pcie 1 8192 true, .fgInvalidate 7 .pcie 4 1 true,
     .fgInvalidate 7 .pcie 1 8192 true, .patternRead 7 .pcie 4 1 true, .patternRead 7 .pcie 1 1024 true, .patternWrite 7 .pcie 4 1 true,
     .patternWrite 7 .pcie 1 1024 true, .patternInvalidate 7 .pcie 4 1 true, .patternInvalidate 7 .pcie 1 1024 true,
     .tblInsert 7 .pcie 4 ⟨0, true, 0, 0, 0, 0, 0, 0, 0, 0, 0⟩, .tblDelete 7 .pcie 4 ⟨0, true, 0, 0, 0, 0, 0, 0, 0, 0, 0⟩,
     .tblSearch 7 .pcie 4 ⟨0, true, 0, 0, 0, 0, 0, 0, 0, 0, 0⟩, .tblNext 7 .pcie 4 ⟨0, true, 0, 0, 0, 0, 0, 0, 0, 0, 0⟩,
     .flushByPort 7 .pcie 4 ⟨0, true, 0, 0, 0, 0, 0, 0, 0, 0, 0⟩, .flushAll 7 .pcie 4 ⟨0, true, 0, 0, 0, 0, 0, 0, 0, 0, 0⟩, .learnServe 7 4,
     .learnRateWrite 7 4 0, .agingSweep 7 4, .agePeriodWrite 7 4 0, .crfFrameTx 7 144] : List Instr).all turnedAway = true := by decide +kernel

theorem test_illFormed_3 : ([
    .hmcSend 7 144 1, .forceAisWrite 7 144 true, .crfBlockRx 7 144 (List.replicate 8 0), .crfBlockRx 7 1 [1, 2], .dlosDetect 7 144 1,
     .dlosDetect 7 1 4, .dlosClear 7 144, .dlofDetect 7 144, .dlofClear 7 144, .dlomDetect 7 144, .dlomClear 7 144, .failureDeclare 7 144 1,
     .failureDeclare 7 1 6, .failureClear 7 144 1, .failureClear 7 1 6, .crfLinkUp 7 144 1, .pmSecondGrade 7 144, .secondFinal 7 144, .binEnd 7 144,
     .binClose 7 144, .pmSnapshot 7 144 1, .pmSnapshot 7 1 64, .ohSlotForm 7 144, .mepEnable 7 4096, .mepDisable 7 4096, .ccmService 7 256,
     .ccmExamine 7 4096, .mepLoc 7 4096, .mepDefectClear 7 4096 1, .mepDefectClear 7 1 7, .levelZero 7 .pcie 8 1, .levelZero 7 .pcie 1 131072,
     .levelFull 7 .pcie 8 1, .levelFull 7 .pcie 1 131072, .sojWmRead 7 .pcie 81920 15, .sojWmRead 7 .pcie 1 16, .sojWmRead 7 .i2c 1 7, .servoSrcWrite 7 8 1, .servoSrcWrite 7 1 128, .evtArm 7 2,
     .evtPulse 7 2, .evtPulseEnd 7 2] : List Instr).all turnedAway = true := by decide +kernel

theorem test_illFormed_4 : ([
    .evtCapture 7 2 true, .evtCapPop 7 2, .evtModeWrite 7 2 0, .gateEdge 7 144, .gateCalendarSwitch 7 144, .timedArm 7 .pcie 4 true,
     .timedCancel 7 .pcie 4, .vecEoi 7 2048, .ringEnable 7 .pcie 4096 0, .ringDisable 7 .pcie 4096, .ringReset 7 .pcie 4096, .ringIdle 7 4096,
     .doorbell 7 131072 1 0, .doorbell 7 1 0 0, .doorbell 7 1 9 0, .ringAbort 7 4096 1, .ringAbort 7 1 65536,
     .entryRead 7 4096 (List.replicate 8 0) [], .entryRead 7 1 [1] [], .chainTimeout 7 4096, .txFetch 7 4096 [], .dmaErr 7 ⟨4096, []⟩, .dmaErr 7 ⟨1, [1]⟩,
     .completionWrite 7 4096, .cqModTimeout 7 4096, .rxCopyWrite 7 72, .imageLoadApply 7 4096 1 [], .imageLoadApply 7 1 65536 [],
     .imageLoadVerify 7 4096 1 [], .imageLoadVerify 7 1 65536 [], .imageLoadFlash 7 4096 1 [] ⟨0, 0, true⟩, .imageLoadFlash 7 1 65536 [] ⟨0, 0, true⟩,
     .attest 7 4096, .registerWrite 7 .pcie 0x4021000 15 0, .registerWrite 7 .i2c 0x4000000 15 0, .registerWrite 7 .pcie 1 256 0, .registerWrite 7 .i2c 1 3 0,
     .registerWrite 7 .loupe 1 255 0, .unaligned 7 .pcie 67108864 1 true, .counterWrite 7 .pcie 67108864 0, .multiwordRead 7 .pcie 0x4021000 15, .multiwordRead 7 .pcie 0 256, .multiwordRead 7 .loupe 0 255,
     .multiwordWrite 7 .pcie 67108864 0] : List Instr).all turnedAway = true := by decide +kernel

theorem test_illFormed_5 : ([
    .snap 7 4096, .pgGate 7 8, .pgWake 7 8, .wakeDone 7 8, .lane1Sleep 7 8, .lane1Wake 7 8 1, .bankRetention 7 32, .aonRstRise 7 4, .sysRstRise 7 4, .i2cWrite 7 128 0 0 false, .i2cRead 7 128 0 false, .i2cStatus 7 128,
     .blockLockGained 7 144, .remoteFault 7 144 true true, .recoveryResetTimeout 7 16384] : List Instr).all turnedAway = true := by decide +kernel

/-! ### Values that the spec works out -/

/-- The state that a command answers. -/
def after (c : Instr) (s : State) : State := match exec c s with
  | .next t => t
  | _ => s

/-- Chapter 3, after R67: the header of a 64-byte frame. -/
theorem test_headerOf64 : coreHeader 64 = [0x5A, 0x7C, 0xDE, 0x25] := by decide +kernel
/-- Chapter 3, after R67: the header of idle fill. -/
theorem test_headerIdle : coreHeader 0 = [0x5A, 0x3C, 0x96, 0xE1] := by decide +kernel
/-- A CRF transmitter that has laid `n` bytes of a frame before, and has a frame of 1,518 bytes of ones to lay. -/
def framing (n : Nat) : State :=
  let s := base.setFrame 6 { Frame.fresh (List.replicate 1518 1) [] 0 0 0 0 5 77 88 with ref := 1 }
  s.setTx 5 { (s.crf 5).tx with carry := List.replicate n 0, units := [⟨⟨6, 5, 0, 40, 0, false, false, none, [], List.replicate 1518 1⟩, .sending, 0, 0⟩] }
/-- Chapter 3, after R68: a 1,518-byte frame whose header starts at offset 8,000 leaves 1,346 bytes for the next payload, whose FHP is 0x0542. -/
theorem test_straddle :
    let r := (framing 8000).layPayload 5
    (r.2.2.crf 5).tx.carry.length = 1346 ∧ (r.2.2.layPayload 5).2.1 = 0x0542 := by decide +kernel
/-- Chapter 5, after R149: with SEL 0 and SHIFT 8 the hash 0x9E3779B1 gives entry 121. -/
theorem test_hashEntry : (0x9E3779B1 : Nat) / 2 ^ 8 % 256 = 121 := by decide
/-- Chapter 6, the worked command: TC0 to TC3 of the static entry, and TR0 after GO. -/
theorem test_staticEntry :
    let a : TblArgs := ⟨0, false, 0, 0x42, 0x5E10000B, 0x00070200, 0x42002328, 0, 0, 0, 0⟩
    (tblTc 1 a).w.getD 0 0 = 0x10000042 ∧ (base.tblRun 0 orgPcie (tblTc 1 a)).1.getD 0 0 = 0xFFF00042 := by decide +kernel
/-- Chapter 10, the worked example of a shaper: 50 Mbit/s and 10 Mbit/s. -/
theorem test_rates : rateOf 0x186A4 = 50000 ∧ rateOf 0x04E24 = 10000 := by decide
/-- Chapter 10, the same example: the level after the frame, and at the commit 500 µs later. -/
theorem test_level :
    let c : BCfg := ⟨true, 50000, 12800⟩
    let b : Bucket := ⟨(400 - 9020) * byteUnit, 0, none⟩
    b.levelAt c (500 * tUs) = -5495 * byteUnit ∧ (rebucket b c ⟨true, 10000, 3200⟩ (500 * tUs)).level = -5495 * byteUnit := by decide +kernel
/-- Chapter 11, the worked sample: I 41,754 and A −24,216. -/
theorem test_servoSample :
    let s := st [(Fld.HM_SERVO_CTRL_KP, 1), (Fld.HM_SERVO_CTRL_KI, 4)]
    let t := ({ s with hm := { s.hm with integ := 50000 } }).servoUpdate (120 * 65536) 1000000000
    t.hm.integ = 41754 ∧ t.timeReq.addend = some (-24216) := by decide +kernel
/-- Chapter 13, after R388: words 0 to 2 of entry 1 of the DHCPOFFER's record. -/
theorem test_rxRecord :
    let f := { Frame.fresh [] [] 0 0 2 0 37 0 0 with srcDw := some 2340, fgEntry := some 1024 }
    let x : QEnt := ⟨0, 4160, 0, cpyId 2, 0, false, false, some 8, [], List.replicate 590 0⟩
    (rxWords f x 590 1 0 0).drop 3 = [0x0938024E, 0x92480025, 0x02400001] := by decide +kernel
/-- No word spells a command: the table gives its rows no bits. -/
theorem test_noWord : decodeTableWord 32 0x12345678 = none := by decide
/-- An empty queue idles (notes/assumptions/5.md). -/
theorem test_idle : step State.reset = .next State.reset := rfl


/-- SHAKE256 of one byte (the test vector is the standard's function, computed outside the model). -/
theorem test_shake256 : shake256 [0x61#8] 2 = [0x86#8, 0x7e#8] := by decide +kernel

/-- LOOPBACK (chapter 2's table of PT_CTRL): near-end, the line idles and the receiver gets the frame; far-end, the MAC's frames reach no line. -/
theorem test_loopback :
    (let t := (withF base [(Fld.PT_CTRL_LOOPBACK 5, 1)]).toLine 5 [1] false (.frame 5 [1] false)
     t.out = base.out ∧ (t.port 5).loop = [([1], false)]) ∧
    (let t := (withF base [(Fld.PT_CTRL_LOOPBACK 5, 2)]).toLine 5 [1] false (.frame 5 [1] false)
     t.out = base.out ∧ (t.port 5).loop = []) ∧
    (base.toLine 5 [1] false (.frame 5 [1] false)).out = .frame 5 [1] false :: base.out := by decide +kernel
theorem witness_portEnables :
    (base.mainUp = true ∧ base.portAbsent 143 = false ∧ base.fld (Fld.PT_CTRL_ENABLE 143) = 0) ∧
    (let s := st [(Fld.PT_CTRL_ENABLE 0, 1), (Fld.PT_STATUS_EN_STATE 0, 1)]
     s.mainUp = true ∧ s.portAbsent 0 = false ∧ s.fld (Fld.PT_CTRL_ENABLE 0) = 1 ∧ s.fld (Fld.PT_STATUS_EN_STATE 0) = 1) ∧
    (let s := st [(Fld.PT_STATUS_EN_STATE 143, 2)]
     s.mainUp = true ∧ s.fld (Fld.PT_STATUS_EN_STATE 143) = 2 ∧ (s.port 143).rxOn = false ∧ (s.crf 143).rx.take = false ∧ (s.port 143).tx = none ∧
     (s.port 143).aside = [] ∧ (s.crf 143).tx.units = [] ∧ (s.crf 143).tx.open_ = none) := by decide +kernel

def anPort : State := st [(Fld.PT_STATUS_EN_STATE 5, 1), (Fld.PT_STATUS_ACTIVE_MODE 5, 1), (Fld.PT_CTRL_AN_EN 5, 1), (Fld.PT_STATUS_AN_STATE 5, 1)]
def ltPort (v : Nat) : State :=
  st [(Fld.PT_STATUS_EN_STATE 128, 1), (Fld.PT_STATUS_ACTIVE_MODE 128, 9), (Fld.PT_CTRL_LT_EN 128, 1), (Fld.PT_STATUS_LT_STATE 128, v)]
theorem witness_lineTraining :
    (anPort.mainUp = true ∧ anPort.portAbsent 5 = false ∧ anPort.fld (Fld.PT_STATUS_EN_STATE 5) = 1 ∧ anPort.anRuns 5 = true ∧
      anPort.fld (Fld.PT_STATUS_AN_STATE 5) = 1) ∧
    ((ltPort 1).mainUp = true ∧ (ltPort 1).portAbsent 128 = false ∧ (ltPort 1).fld (Fld.PT_STATUS_EN_STATE 128) = 1 ∧
      (ltPort 1).ltRuns 128 = true ∧ (ltPort 1).fld (Fld.PT_STATUS_LT_STATE 128) = 1 ∧ modeLanes ((ltPort 1).mode 128) = 2 ∧
      ((ltPort 1).port 128).ltAt + (ltPort 1).fld (Fld.PT_LT_CTRL_TIMEOUT 128) * 10 * tMs ≤ (ltPort 1).now + 10000000000000) ∧
    ((ltPort 3).mainUp = true ∧ (ltPort 3).ltRuns 128 = true ∧ (ltPort 3).fld (Fld.PT_STATUS_LT_STATE 128) = 3 ∧
      (ltPort 3).fld (Fld.PT_STATUS_EN_STATE 128) = 1 ∧
      ((ltPort 3).port 128).ltAt + (ltPort 3).fld (Fld.PT_LT_CTRL_RETRY_DELAY 128) * 10 * tMs ≤ (ltPort 3).now + 10000000000000) := by decide +kernel

def lpiPort : State := st [(Fld.PT_STATUS_EN_STATE 5, 1), (Fld.PT_STATUS_ACTIVE_MODE 5, 3), (Fld.PT_STATUS_LINK 5, 1), (Fld.PT_LPI_CTRL_LPI_EN 5, 1),
  (Fld.PT_LPI_CTRL_IDLE_US 5, 10)]
def noLpi : State := st [(Fld.PT_STATUS_EN_STATE 5, 1), (Fld.PT_STATUS_ACTIVE_MODE 5, 3)]
def ent (fid p : Nat) : QEnt := ⟨fid, p, 0, pcqId p 0, 0, false, false, none, [], List.replicate 64 0⟩
def heldPort (ph : TxPhase) : State := base.setPort 5 { Port.reset with tx := some ⟨ent 0 5, ph, 0, 0⟩, lpiAt := 1000 }
theorem witness_lowPowerIdle :
    (lpiPort.mainUp = true ∧ lpiPort.portAbsent 5 = false ∧ lpiPort.lpiMode 5 = true ∧ lpiPort.fld (Fld.PT_STATUS_EN_STATE 5) = 1 ∧
      lpiPort.fld (Fld.PT_STATUS_LINK 5) = 1 ∧ lpiPort.fld (Fld.PT_STATUS_LPI_TX 5) = 0 ∧ (lpiPort.port 5).tx = none ∧
      lpiPort.portEmpty 5 = true ∧ lpiPort.fld (Fld.PT_LPI_CTRL_IDLE_US 5) ≠ 0 ∧
      (lpiPort.port 5).emptyAt + lpiPort.fld (Fld.PT_LPI_CTRL_IDLE_US 5) * tUs ≤ lpiPort.now + 600000) ∧
    (noLpi.mainUp = true ∧ noLpi.portAbsent 5 = false ∧ noLpi.lpiMode 5 = false ∧ noLpi.fld (Fld.PT_STATUS_ACTIVE_MODE 5) ≠ 0 ∧
      noLpi.fld (Fld.PT_STATUS_EN_STATE 5) ≠ 0) ∧
    (let s := heldPort .lpiWait
     s.mainUp = true ∧ (s.port 5).tx = some ⟨ent 0 5, .lpiWait, 0, 0⟩ ∧ s.pgAsleep (groupOf 5) = false ∧ (s.port 5).lpiAt ≤ s.now + 1000 ∧
     s.launchOf 0 = none ∧ (s.begun 1000).queueStopped 5 (pcqId 5 0) = false) ∧
    (let s := heldPort .launchWait
     s.mainUp = true ∧ (s.port 5).tx = some ⟨ent 0 5, .launchWait, 0, 0⟩ ∧ s.pgAsleep (groupOf 5) = false ∧ (s.port 5).lpiAt ≤ s.now + 1000 ∧
     s.launchOf 0 = none ∧ (s.begun 1000).queueStopped 5 (pcqId 5 0) = false) := by decide +kernel

def pausePort : State := st [(Fld.PT_STATUS_EN_STATE 128, 1), (Fld.PT_STATUS_ACTIVE_MODE 128, 9), (Fld.PT_STATUS_LINK 128, 1),
  (Fld.PT_PAUSE_CTRL_PAUSE_EN 128, 1), (Fld.PT_PAUSE_CTRL_PFC_EN 128, 1), (Fld.PT_PAUSE_CTRL_WD_MS 128, 1)]
def stopPort : State := pausePort.setPort 128 { Port.reset with pauseEnd := 100000000, stopFrom := some 0, clsFrom := List.replicate 8 (some 0) }
theorem witness_pauseStops :
    (pausePort.mainUp = true ∧ pausePort.receives 128 = true ∧ pausePort.fld (Fld.PT_PAUSE_CTRL_PAUSE_EN 128) = 1 ∧
      pausePort.fld (Fld.PT_PAUSE_CTRL_PFC_EN 128) = 1 ∧ pausePort.fld (Fld.PT_INT_STATUS_PAUSE_WD 128) = 0) ∧
    (stopPort.mainUp = true ∧ (stopPort.port 128).stopFrom ≠ none ∧ stopPort.stopEnd 128 ≤ stopPort.now + 100000000) ∧
    (stopPort.mainUp = true ∧ (stopPort.port 128).clsFrom.getD 7 none = some 0 ∧ (stopPort.begun 60000000).clsStopped 128 7 = true ∧
      0 < stopPort.fld (Fld.PT_PAUSE_CTRL_WD_MS 128) ∧ 0 + stopPort.fld (Fld.PT_PAUSE_CTRL_WD_MS 128) * tMs ≤ stopPort.now + 60000000) ∧
    (let s := st [(Fld.PT_INT_STATUS_PAUSE_WD 128, 1)]
     s.mainUp = true ∧ s.fld (Fld.PT_INT_STATUS_PAUSE_WD 128) = 1) := by decide +kernel

def linePort (link sig : Nat) : State := st [(Fld.PT_STATUS_EN_STATE 5, 1), (Fld.PT_STATUS_ACTIVE_MODE 5, 3), (Fld.PT_STATUS_LINK 5, link),
  (Fld.PT_STATUS_SIGNAL 5, sig), (Fld.PT_STATUS_BLOCK_LOCK 5, 1)]
theorem witness_linkChanges :
    (let s := linePort 0 1
     s.mainUp = true ∧ s.fld (Fld.PT_STATUS_ACTIVE_MODE 5) ≠ 0 ∧ s.crfOn 5 = false ∧ s.fld (Fld.PT_STATUS_EN_STATE 5) = 1 ∧
     s.fld (Fld.PT_STATUS_LINK 5) = 0 ∧ s.candidate 5 = true ∧ (s.port 5).candAt + s.fld (Fld.PT_DEBOUNCE_UP 5) * tMs ≤ s.now + 6000000000) ∧
    (let s := linePort 1 0
     s.mainUp = true ∧ s.fld (Fld.PT_STATUS_ACTIVE_MODE 5) ≠ 0 ∧ s.crfOn 5 = false ∧ s.fld (Fld.PT_STATUS_LINK 5) = 1 ∧
     s.candidate 5 = false ∧ (s.port 5).modeDue = none ∧ (s.port 5).candAt + s.fld (Fld.PT_DEBOUNCE_DOWN 5) * 10 * tUs ≤ s.now + 6000000000 ∧
     s.portAbsent 5 = false ∧ s.fld (Fld.PT_STATUS_EN_STATE 5) ≠ 0 ∧ s.fld (Fld.PT_STATUS_REMOTE_FAULT 5) = 0) := by decide +kernel

def hostFrame : Frame := { Frame.fresh (List.replicate 64 0) [] 0 0 0 0 0 0 0 with
  host := some ⟨1, 0, false, 0, 0, some (2 ^ 60)⟩, ref := 1, stage := .admitted }
def plainFrame : Frame := { Frame.fresh (List.replicate 64 0) [] 0 0 0 0 1 0 0 with ref := 1, stage := .admitted }
def queued (x : QEnt) : State := ((base.setFrame 0 hostFrame).setFrame 1 plainFrame).setQueue (pcqId 5 0) [x]
def heldDown : State := (queued (ent 0 5)).setPort 5 { Port.reset with hold := holdHold }
def shut : Calendar := ⟨true, true, 1000000, 0, [(1, 255), (999999, 0)]⟩
def gated : State :=
  let s := (queued (ent 1 5)).setF (Fld.PT_STATUS_ACTIVE_MODE 5) 3
  { s with hm := { s.hm with gates := SMap.ins s.hm.gates 5 ⟨shut, none, 0⟩ } }
theorem witness_headsDiscarded :
    (heldDown.mainUp = true ∧ (heldDown.port 5).hold = holdHold ∧ heldDown.portDown 5 = true ∧
      heldDown.holdEnd 5 / 60 < (heldDown.begun 100000000000).cyc24) ∧
    (let s := queued { ent 0 5 with doomed := true }
     isQueue (pcqId 5 0) = true ∧ s.mainUp = true ∧ s.queue (pcqId 5 0) = [{ ent 0 5 with doomed := true }] ∧ isEgress (pcqId 5 0) = true ∧
     (s.begun 0).mayDrop 5 = true ∧ ((s.noteDrop 5).begun 0).mayDrop 5 = false) ∧
    (let s := queued (ent 0 5)
     s.mainUp = true ∧ s.queue (pcqId 5 0) = [ent 0 5] ∧ (s.begun 0).launchFar (ent 0 5) = true) ∧
    (gated.mainUp = true ∧ gated.queue (pcqId 5 0) = [ent 1 5] ∧ (gated.begun 0).gateTooLong (pcqId 5 0) (ent 1 5) = true) := by decide +kernel

def sendPort : State := withA (withF (queued (ent 1 5)) [(Fld.PT_STATUS_EN_STATE 5, 1), (Fld.PT_STATUS_LINK 5, 1), (Fld.PT_STATUS_ACTIVE_MODE 5, 3)])
  [(Fld.PL_PCQ_CFG_PRIO 40, 7)]
def sending : State := sendPort.setPort 5 { Port.reset with tx := some ⟨ent 1 5, .sending, 0, 0⟩ }
theorem witness_transmission :
    (sendPort.mainUp = true ∧ sendPort.portDown 5 = false ∧ sendPort.fld (Fld.PT_STATUS_EN_STATE 5) = 1 ∧ (sendPort.port 5).tx = none ∧
      (sendPort.port 5).aside = [] ∧ (sendPort.port 5).modeDue = none ∧ sendPort.portAbsent 5 = false ∧ sendPort.framerRoom 5 = true ∧ (sendPort.begun 60).maySelect 5 = true ∧
      ((sendPort.begun 60).walkPort 5).map (fun r => r.1) = some (pcqId 5 0) ∧ sendPort.queue (pcqId 5 0) = [ent 1 5] ∧
      (sendPort.begun 60).singleton (ent 1 5) = false) ∧
    (sending.mainUp = true ∧ (sending.port 5).tx = some ⟨ent 1 5, .sending, 0, 0⟩ ∧
      0 + sending.lineTime 5 (ent 1 5).data.length ≤ sending.now + 60000 ∧ (sending.port 5).modeDue = none ∧
      sending.frame? 1 = some plainFrame ∧ plainFrame.ref ≤ 1 ∧
      (let s := sending.setFrame 1 { plainFrame with ref := 2 }
       s.frame? 1 = some { plainFrame with ref := 2 } ∧ (s.port 5).tx = (sending.port 5).tx) ∧ sending.crfOn 5 = false ∧ sending.fld (Fld.PT_CTRL_LOOPBACK 5) ≠ 1 ∧ (sending.port 5).loop = []) := by decide +kernel

def rxPort : State := st [(Fld.PT_STATUS_EN_STATE 5, 1), (Fld.PT_STATUS_ACTIVE_MODE 5, 3), (Fld.PT_STATUS_LINK 5, 1)]
def arp : List Byte := withFcs (List.replicate 12 0xFF ++ [8, 6] ++ List.replicate 46 0x55)
def rxCell : State := rxPort.setPort 5 { Port.reset with rxOn := true, rxCells := [7], rxOwner := 0 }
theorem witness_reception :
    (rxPort.fld (Fld.PT_STATUS_ACTIVE_MODE 5) ≠ 0 ∧ rxPort.fld (Fld.PT_CTRL_LOOPBACK 5) = 0 ∧ rxPort.fld (Fld.PT_STATUS_EN_STATE 5) ≠ 0) ∧
    (rxPort.mainUp = true ∧ rxPort.portAbsent 5 = false ∧ rxPort.receives 5 = true ∧ rxPort.pgAsleep (groupOf 5) = false) ∧
    (rxPort.rxCase 5 (List.replicate 64 1) true ≠ .good ∧ rxPort.rxCase 5 (List.replicate 60 1) false ≠ .good ∧
      fcsGood (List.replicate 60 1) = false ∧ rxPort.rxCase 5 (List.replicate 64 1) false ≠ .good ∧ fcsGood (List.replicate 64 1) = false) ∧
    (rxPort.rxCase 5 (withFcs [1]) false ≠ .good ∧ fcsGood (withFcs [1]) = true) ∧
    (rxPort.mtu 5 < 2000 ∧ rxPort.rxCase 5 (List.replicate 2000 0) false ≠ .good) ∧
    rxPort.rxCase 5 (List.replicate 10241 0) false ≠ .good ∧
    (rxCell.receives 5 = true ∧ 64 ≤ arp.length ∧ arp.length ≤ rxCell.mtu 5 ∧ fcsGood arp = true ∧ isMacCtl arp = false ∧
      (rxCell.port 5).rxRefused = false ∧ (rxCell.port 5).rxCells.length = cellsFor arp.length ∧
      rxCell.inMemFlush (rxCell.port 5).rxCells = false) := by decide +kernel

def storedFrame : State := { rxPort with fab := { rxPort.fab with frames := [(0, Frame.fresh arp [] 0 0 0 0 5 0 0)], nextFid := 1 } }
def looked (d : Bool) : State :=
  { withF rxPort [(Fld.PT_STATUS_LINK 9, 1)] with
    fab := { rxPort.fab with frames := [(0, { Frame.fresh arp [] 0 0 0 0 5 0 0 with stage := .looked, drop := d, dest := .port 9 })] } }
def behindFrames : State := { rxPort with fab := { rxPort.fab with
  frames := [(0, Frame.fresh arp [] 0 0 0 0 5 0 0), (1, Frame.fresh arp [] 0 0 0 0 5 0 0)], nextFid := 2 } }
theorem witness_stagesThreeToSix :
    (storedFrame.mainUp = true ∧ storedFrame.frame? 0 = some (Frame.fresh arp [] 0 0 0 0 5 0 0) ∧
      storedFrame.behind 0 (Frame.fresh arp [] 0 0 0 0 5 0 0) = false) ∧
    (∀ n, (storedFrame.begun 60).outOfTurn 0 [n] = false) ∧
    (behindFrames.frame? 1 = some (Frame.fresh arp [] 0 0 0 0 5 0 0) ∧ behindFrames.behind 1 (Frame.fresh arp [] 0 0 0 0 5 0 0) = true ∧
      (behindFrames.begun 60).overtakes 1 (Frame.fresh arp [] 0 0 0 0 5 0 0) = true) ∧
    (let s := behindFrames.setF Fld.PW_STATUS_LANE1_OFF 1
     s.mainUp = true ∧ (s.frame? 1).isSome = true ∧ s.laneOff 0 = true ∧ behindFrames.laneOff 0 = false) ∧
    (∀ x, (looked false).frame? 0 = some x → (looked false).mainUp = true ∧ x.stage = .looked ∧ x.drop = false ∧ x.dest = .port 9 ∧ x.dstDw = none ∧
      x.mirror = none ∧ x.copyRing = none ∧ x.host = none ∧ ((looked false).begun 60).overtakes 0 x = false ∧
      (((looked false).begun 60).admitTests 0 x (if (looked false).useLists then fdyId 9 x.cls else voqId x.pipe 9 x.cls) 0x10 (some 9) (some (pcqId 9 x.cls)) x.parse.ect).1 = 0) ∧
    ((looked true).frame? 0 = some { Frame.fresh arp [] 0 0 0 0 5 0 0 with stage := .looked, drop := true, dest := .port 9 } ∧
      ((looked true).begun 60).overtakes 0 { Frame.fresh arp [] 0 0 0 0 5 0 0 with stage := .looked, drop := true, dest := .port 9 } = false) := by
  refine ⟨by decide +kernel, fun n => rfl, by decide +kernel, by decide +kernel, fun x h => ?_, by decide +kernel⟩
  have e : x = { Frame.fresh arp [] 0 0 0 0 5 0 0 with stage := .looked, drop := false, dest := .port 9 } := by
    simpa [looked, State.frame?, SMap.look] using h.symm
  subst e
  decide +kernel

def crossing (q st_ : Nat) : State :=
  let s := withF rxPort [(Fld.FB_MODE_STATUS_STATE, st_)]
  { s with fab := { s.fab with frames := [(0, { Frame.fresh arp [] 0 0 0 0 5 0 0 with stage := .admitted, ref := 1, dest := .port 9 })],
                               queues := [(q, [⟨0, 9, 0, pcqId 9 0, 0, false, false, none, [], []⟩])] } }
def copying : State :=
  let s := withF rxPort [(Fld.PT_STATUS_LINK 9, 1)]
  { s with pt := { s.pt with tbl := [(tMcg * 2 ^ 20 + 3, [2 ^ 9, 0, 0, 0, 2 ^ 31])] },
           fab := { s.fab with frames := [(0, { Frame.fresh arp [] 0 0 0 0 5 0 0 with stage := .admitted, ref := 1, dest := .group 3 })],
                               intake := [(0, [⟨0, 0, 0, 0, 0, false, false, none, [], []⟩])] } }
theorem witness_crossbar :
    (let s := crossing (voqId 0 9 0) 0
     s.mainUp = true ∧ isVoq (voqId 0 9 0) = true ∧ s.fbState = fbVoq ∧ isEgress (pcqId 9 0) = true ∧ (s.begun 60).credit (pipeOf 9) = true ∧
     (s.frame? 0).isSome = true ∧ (s.egressData { Frame.fresh arp [] 0 0 0 0 5 0 0 with stage := .admitted, ref := 1, dest := .port 9 } 9 false).length ≤ s.mtu 9) ∧
    (let s := crossing (fdyId 9 0) 2
     s.mainUp = true ∧ isList (fdyId 9 0) = true ∧ s.fbState = fbFoundry ∧ (s.begun 60).credit (pipeOf 9) = true ∧ (s.frame? 0).isSome = true) ∧
    (let s := copying
     let f := { Frame.fresh arp [] 0 0 0 0 5 0 0 with stage := .admitted, ref := 1, dest := .group 3 }
     s.mainUp = true ∧ s.intakeOf 0 = [⟨0, 0, 0, 0, 0, false, false, none, [], []⟩] ∧ s.frame? 0 = some f ∧ s.mcgPorts 3 = some [9] ∧
     [9].filter (fun p => decide (pipeOf p = 0) && !(decide (f.srcKind = 0 ∧ f.src = p))) = [9] ∧ s.portAbsent 9 = false ∧
     s.fld (Fld.PT_STATUS_LINK 9) = 1 ∧ s.qEn (pcqId 9 0) = true ∧
     (s.begun 60).threshOk (pcqId 9 0) ((s.begun 60).qSnap (pcqId 9 0)) 0 ((s.begun 60).freeFor 0) = true ∧
     s.afld (Fld.CB_QPROF0_WRED_EN (s.qProf (pcqId 9 0))) = 0 ∧ s.fab.mcUsed < 262144 ∧
     (s.egressData { f with ecn := false, dstDw := none } 9 true).length ≤ s.mtu 9) := by decide +kernel

def recovering : State := base.setRecovery 16383 ⟨false, 1, 0⟩
def mirroring : State := base.setQueue (pcqId 5 0) [⟨0, 5, 0, pcqId 5 0, 0, false, false, some 7, [], []⟩]
theorem witness_queueControls :
    (bucketIs 4 65535 = true ∧ base.mainUp = true ∧ (levelAddr 4 65535).isSome = true ∧ bucketIs 0 0 = true ∧
      ((levelAddr 0 0).map (fun a => (base.bucket a).setCyc)) = some none) ∧
    (isQueue 0x13FFF = true ∧ base.qLen 0x13FFF = 0 ∧ (base.setReg (0xC10000 + 0x13FFC) 0).qEn 0x13FFF = false) ∧
    (base.fld (Fld.FB_MIRROR_CTRL_EN 7) = 0 ∧ base.fab.queues = [] ∧ base.fab.intake = [] ∧ base.ports = [] ∧ base.crfs = []) ∧
    (mirroring.mainUp = true ∧ mirroring.fld (Fld.FB_MIRROR_CTRL_EN 7) = 0 ∧ (mirroring.queue (pcqId 5 0)).map (fun x => x.mirror) = [some 7]) ∧
    (recovering.mainUp = true ∧ (recovering.recovery 16383).take = false ∧
      (recovering.recovery 16383).lastAt + recovering.recReset 16383 ≤ recovering.now + 6000000000000) := by decide +kernel

def freeCell5 (s : State) : State := { s with pool := { s.pool with freed := [5] } }
/-- Cells 7 to 16, chained, with an owner each. -/
def chained (o x : Nat) : State :=
  { base with pool := { base.pool with cells := (List.range 10).map (fun k => (7 + k, ⟨true, if k = 9 then x else o, 8 + k, none⟩)) } }
def jobOf (num cnt : Nat) (ws : List Word) : Job := ⟨num, 3, 3, 9, ws, cnt, 64, [], [], none, true, false, none, 0⟩
def fetching : State :=
  { freeCell5 base with rst := { base.rst with perstLow := false } }.setRing 7 { Ring.reset with state := ringEnabled, jobs := [jobOf 0 1 []] }
theorem witness_cellRequests :
    (rxPort.mainUp = true ∧ rxPort.receives 5 = true ∧ rxPort.pgAsleep (groupOf 5) = false ∧ (rxPort.port 5).rxRefused = false ∧
      (rxPort.port 5).rxCells = [] ∧ (rxPort.port 5).rxOn = false ∧ rxPort.isl.rxOpen = true ∧ ((freeCell5 rxPort).begun 60).rxPoolFor (pipeOf 5) = some 0 ∧
      ((((freeCell5 rxPort).begun 60).pgUse 0).alloc 0 0x0A 0).1 = some 5 ∧ rxPort.shared = true) ∧
    ((freeCell5 base).pool.avCells = [] ∧ (((freeCell5 base).begun 60).alloc ((freeCell5 base).fld Fld.CB_ANVIL_POOL_POOL) 9 slotAnvil).1 = some 5) ∧
    (fetching.mainUp = true ∧ (fetching.fetchJob 7).map (fun j => j.cells) = some [] ∧ ((fetching.begun 60).alloc (fetching.rPool 7) 8 slotHost).1 = some 5) ∧
    (let s := chained 3 3
     let cs := (List.range 10).map (fun k => 7 + k)
     s.mainUp = true ∧ s.pool.walks = [] ∧ cs.headD 0 < 524288 ∧ cs.Nodup ∧
     (∀ c ∈ cs, (s.cell c).used = true ∧ (s.cell c).owner = 3 ∧ (s.poolOf c).isSome = true) ∧
     (∀ k ∈ List.range 9, (s.cell (cs.getD k 0)).link = cs.getD (k + 1) 0) ∧
     ((s.begun 60).relTurn (claimRank 3)).1 + (10 + 7) / 8 - 1 ≤ (s.now + 60 + 100) / 50) ∧
    (let s := chained 3 4
     (s.cell 16).used = true ∧ (s.cell 16).owner ≠ 3 ∧ (s.poolOf 16).isSome = true ∧ (s.cell 15).link = 16 ∧
     (SMap.get (fun _ => CellSt.reset) (s.begun 60).pool.snap 16).used = true) := by decide +kernel

def softCell (o : Nat) : State := { base with pool := { base.pool with cells := [(7, ⟨true, o, 0, none⟩)] } }
theorem witness_cellCommands :
    (base.mainUp = true ∧ (base.begun 60).busy Reg.CB_CELL_CMD = false) ∧
    (((((freeCell5 base).begun 60).cellStart 1 0 0).alloc 0 0x3E slotSw).1 = some 5 ∧
      (((base.begun 60).cellStart 1 63 0).alloc 63 0x3E slotSw).1 = none) ∧
    (let u := (((softCell 62).begun 60).cellStart 2 0 7).relSoft.2
     (u.cell 7).used = true ∧ ((softCell 62).poolOf 7).isSome = true ∧ (u.cell 7).owner = 0x3E) ∧
    (let u := (((softCell 3).begun 60).cellStart 2 0 7).relSoft.2
     (u.cell 7).used = true ∧ (u.cell 7).owner ≠ 0x3E) ∧
    (let r := (((softCell 3).begun 60).cellStart 3 0 7).relSoft
     let u := r.2
     (u.cell 7).used = true ∧ ((softCell 3).begun 60).grantedNow 0x3E r.1 7 u = false ∧ ((softCell 3).poolOf 7).isSome = true ∧ (u.cell 8).used = false) := by decide +kernel

def fbSt (l : List (Fld × Nat)) (f : Fab → Fab) : State := let s := st l; { s with fab := f s.fab }
def inVoq : State := fbSt [(Fld.FB_MODE_STATUS_STATE, 0), (Fld.FB_MODE_STATUS_REASON, 0)] id
def inFoundry (r : Nat) : State := fbSt [(Fld.FB_MODE_STATUS_STATE, 2), (Fld.FB_MODE_STATUS_REASON, r), (Fld.FB_MODE_STATUS_CAL_OK, 1), (Fld.FB_MODE_CTRL_MODE_REQ, 1)]
  (fun f => { f with calAt := some 0 })
def moving (v r : Nat) : State := fbSt [(Fld.FB_MODE_STATUS_STATE, v), (Fld.FB_MODE_STATUS_REASON, r), (Fld.GL_BOOT_STATUS_STAGE, 8)] (fun f => { f with fence := [0, 143] })
theorem witness_fabricModes :
    (inVoq.mainUp = true ∧ inVoq.fbState = fbVoq ∧ inVoq.fld Fld.FB_MODE_CTRL_MODE_REQ = 0) ∧
    ((inFoundry 1).mainUp = true ∧ (inFoundry 1).fbState = fbFoundry ∧ (inFoundry 1).fld Fld.FB_MODE_CTRL_MODE_REQ = 1 ∧
      (inFoundry 1).reasons = reasonSw ∧ (inFoundry 1).fld Fld.FB_MODE_STATUS_CAL_OK = 1) ∧
    ((inFoundry 2).mainUp = true ∧ (inFoundry 2).fab.calAt ≠ none ∧ (inFoundry 2).fbState = fbFoundry ∧ (inFoundry 2).reasons = reasonCal) ∧
    ((moving 1 1).mainUp = true ∧ (moving 1 1).fbState = fbEntering ∧ (moving 1 1).fenced 143 = true ∧ (moving 1 1).voqsEmpty 143 = true ∧
      (moving 1 1).noVoq = true ∧ (moving 1 1).reasons ≠ 0 ∧ (moving 1 1).fab.fabNew = [] ∧ (moving 1 1).fab.memMask = 0) ∧
    ((moving 3 0).fbState = fbLeaving ∧ (moving 3 0).fenced 0 = true ∧ (moving 3 0).listsEmpty 0 = true ∧ (moving 3 0).noList = true ∧
      (moving 3 0).reasons = 0 ∧ (moving 3 0).fab.everVoq = false ∧ (moving 3 0).isl.keep = false ∧ (moving 3 0).stage = stCal) := by decide +kernel

def inUse (b : Nat) (s : State) : State := { s with pool := { Pool.reset with cells := [(b * 16384, ⟨true, 3, 0, none⟩)] } }
def testing (b : Nat) (on : Bool) : State := fbSt [(Fld.FB_MODE_CTRL_TEST, 1), (Fld.FB_MODE_STATUS_REASON, 4)] (fun f => { f with testBank := some (b, on, 0) })
def newMem : State := fbSt [(Fld.FB_MODE_STATUS_REASON, 17)] (fun f => { f with memNew := List.replicate 288 0, memMask := 1 })
theorem witness_bankTests :
    (inVoq.mainUp = true ∧ inVoq.fbState = fbVoq ∧ inVoq.fld Fld.FB_MODE_CTRL_TEST = 0) ∧
    ((testing 3 false).mainUp = true ∧ (testing 3 false).fab.testBank = some (3, false, 0) ∧ (testing 3 false).fbState = fbFoundry ∧
      ((testing 3 false).begun 6000000000).banksFree (2 ^ 3) = true ∧ ((inUse 3 (testing 3 false)).begun 6000000000).banksFree (2 ^ 3) = false ∧
      (testing 31 false).fab.testBank = some (31, false, 0) ∧ ((inUse 31 (testing 31 false)).begun 6000000000).banksFree (2 ^ 31) = false ∧ 0 + 100 * tMs ≤ (testing 3 false).now + 6000000000) ∧
    ((testing 3 true).fab.testBank = some (3, true, 0) ∧ 0 + tMs / 2 ≤ (testing 3 true).now + 30000000) ∧
    ((testing 31 true).fab.testBank = some (31, true, 0)) ∧
    (newMem.mainUp = true ∧ newMem.fbState = fbFoundry ∧ newMem.fab.memNew ≠ [] ∧ newMem.fab.frames = [] ∧ newMem.fab.queues = [] ∧
      newMem.fab.intake = [] ∧ (newMem.begun 0).banksFree newMem.fab.memMask = true ∧ memRebuilt (newMem.region 2) newMem.fab.memNew 0 1 = false ∧
      memRebuilt [0, 1, 0, 0] newMem.fab.memNew 0 1 = false ∧ newMem.bt.reload = none) := by decide +kernel

theorem witness_filigreeCommands :
    (base.mainUp = true ∧ base.planeOn 3 = true ∧ base.reaches .pcie (Reg.LP_FG_CMD 3) 0 = true ∧
      (base.begun 0).busy (Reg.LP_FG_CMD 3) = false) ∧
    (let s := withA base [(Fld.LP_FG_BANK_FORMAT 3 7, 8)]
     fmtOn (s.fgFormat 3 7) = true ∧ fmtWide (s.fgFormat 3 7) = true ∧ 8190 % 2 = 0 ∧ 8190 / 1024 = 7 ∧ s.reaches .i2c (Reg.LP_FG_CMD 3) 0 = true) ∧
    (let s := withA base [(Fld.LP_FG_BANK_FORMAT 3 7, 15)]
     fmtOn (s.fgFormat 3 7) = false) ∧
    (let s := withA { base with isl := { base.isl with pair := 9 } } [(Fld.LP_FG_BANK_FORMAT 0 7, 1), (Fld.LP_FG_BANK_FORMAT 3 7, 1)]
     s.mainUp = true ∧ s.planeOn 3 = true ∧ s.reaches .pcie (Reg.LP_FG_CMD 3) 0 = true ∧ s.planeOn 1 = false ∧
     ∀ j ∈ [0, 1, 2, 3], s.planeOn j = true → fmtOn (s.fgFormat j 7) = true ∧ fmtWide (s.fgFormat j 7) = false) := by decide +kernel
theorem witness_patternCommands :
    base.mainUp = true ∧ base.planeOn 3 = true ∧ base.reaches .pcie (Reg.LP_PM_CMD 3) 0 = true ∧
      (base.begun 0).busy (Reg.LP_PM_CMD 3) = false := by decide +kernel

/-- A dynamic entry for port 5 of the key DOMAIN 1, MAC 2, on plane 3. -/
def macArgs (w3 : Nat) : TblArgs := ⟨0, false, 3, 0xAB, 2, 0x00010000, w32 w3, 0, 0, 0, 0⟩
def withMac (s : State) : State := s.setMac 3 (4 * s.macBucket 3 (macKey 1 2)) ⟨macKey 1 2, macData false 0 0 5⟩
def oneMac : State := withMac base
theorem witness_tableCommands :
    (base.mainUp = true ∧ base.planeOn 0 = true ∧ base.reaches .pcie (Reg.LP_TBL_GO 0) 0 = true ∧
      (base.begun 0).busy (Reg.LP_TBL_GO 0) = false) ∧
    (base.badArg (tblTc 1 (macArgs 5)) = false ∧ base.macFind 3 (tblTc 1 (macArgs 5)).key = none ∧
      (base.macFree 3 (tblTc 1 (macArgs 5)).key).isSome = true) ∧
    base.badArg (tblTc 1 ⟨5, false, 0, 0, 8191, 0, 1, 0, 0, 0, 0⟩) = false ∧
    (let s := { base with isl := { base.isl with pair := 9 } }.setTbl 5 8191 [1, 0, 0, 0, 0x80000000]
     let a : TblArgs := ⟨5, false, 0, 0, 8191, 0, 0, 0, 0, 0, 0⟩
     s.mainUp = true ∧ s.planeOn 0 = true ∧ s.reaches .pcie (Reg.LP_TBL_GO 0) 0 = true ∧ s.badArg (tblTc 2 a) = false ∧ s.badArg (tblTc 3 a) = false ∧
     s.badArg (tblTc 4 a) = false ∧
     ((s.pt.tbl.filter (fun e => decide (e.1 / 2 ^ 20 = 5) && tblValid 5 e.2)).map (fun e => e.1 % 2 ^ 20)).find? (fun i => decide ((tblTc 4 a).index ≤ i)) =
       some 8191) ∧
    (let s := { base with isl := { base.isl with pair := 8 } }
     let a : TblArgs := ⟨0, true, 0, 0xAB, 2, 0x00010000, 5, 0, 0, 0, 0⟩
     s.mainUp = true ∧ s.planeOn 3 = true ∧ s.planeOn 0 = false ∧ s.badArg (tblTc 1 a) = false ∧ s.badArg (tblTc 2 a) = false ∧
     (∀ j ∈ [0, 1, 2, 3], s.planeOn j = true → s.macFind j (tblTc 1 a).key = none ∧ (s.macFree j (tblTc 1 a).key).isSome = true) ∧
     (∀ j ∈ [0, 1, 2, 3], s.planeOn j = true → ((withMac s).macFind j (tblTc 2 a).key).isSome = true)) ∧
    (oneMac.mainUp = true ∧ oneMac.badArg (tblTc 2 (macArgs 0)) = false ∧ (oneMac.macFind 3 (tblTc 2 (macArgs 0)).key).isSome = true ∧
      oneMac.badArg (tblTc 3 (macArgs 0)) = false) ∧
    (let a : TblArgs := ⟨0, false, 3, 0, 0, 0, 0x90000005, 0, 0, 0, 0⟩
     let b : TblArgs := ⟨0, false, 3, 0, w32 (4 * base.macBucket 3 (macKey 1 2)), 0, 0x90000005, 0, 0, 0, 0⟩
     oneMac.badArg (tblTc 5 a) = false ∧ oneMac.badArg (tblTc 6 a) = false ∧ oneMac.badArg (tblTc 4 b) = false ∧
     ((oneMac.macList 3).find? (fun e => decide ((tblTc 4 b).index ≤ e.1) && macPasses b.w2.toNat b.w3.toNat true e.2)).map (fun e => e.1) =
       some (4 * base.macBucket 3 (macKey 1 2)) ∧
     4 * base.macBucket 3 (macKey 1 2) < (tblTc 4 b).index + 4096) := by decide +kernel

def asking : State := (base.setLearn 3 { Learn.reset with reqs := [(macKey 1 2, macData false 0 0 5)] }).setF (Fld.LP_LEARN_RATE_RATE 3) 1
def ageing (v : Nat) : State :=
  let s := st [(Fld.LP_AGE_CTRL_PERIOD 3, 1)]
  { s with pt := { s.pt with mac := [(3 * 2 ^ 19 + 7, ⟨macKey 1 2, v⟩)] } }
theorem witness_learning :
    (asking.mainUp = true ∧ asking.planeOn 3 = true ∧ (asking.learn 3).reqs = [(macKey 1 2, macData false 0 0 5)] ∧ tMs ≤ (asking.learn 3).tok ∧
      asking.fld (Fld.LP_LEARN_RATE_RATE 3) ≠ 0 ∧ asking.macFind 3 (macKey 1 2) = none ∧ (asking.macFree 3 (macKey 1 2)).isSome = true) ∧
    (∀ v ∈ [macData true 0 0 5, macData false 3 0 5, macData false 0 0 5],
      (ageing v).mainUp = true ∧ (ageing v).planeOn 3 = true ∧ (⟨macKey 1 2, v⟩ : MacEnt) ≠ MacEnt.empty ∧
      0 < (ageing v).fld (Fld.LP_AGE_CTRL_PERIOD 3) ∧ (((ageing v).begun 60000000000).hitsNow 3).contains 7 = false ∧
      ((((ageing v).setLearn 3 { Learn.reset with hitCyc := 1200000000, hits := [7] }).begun 60000000000).hitsNow 3).contains 7 = true ∧
      max ((ageing v).learn 3).sweepAt (ageing v).isl.upAt + (ageing v).fld (Fld.LP_AGE_CTRL_PERIOD 3) * tSec ≤ (ageing v).now + 60000000000) ∧
    (macStatic (macData true 0 0 5) = true ∧ macStatic (macData false 3 0 5) = false ∧ macAge (macData false 3 0 5) = 3 ∧
      macAge (macData false 0 0 5) < 3) := by decide +kernel

def crfBase : State := withA (st [(Fld.PT_STATUS_EN_STATE 5, 1), (Fld.PT_STATUS_ACTIVE_MODE 5, 3), (Fld.PT_CTRL_ENABLE 5, 1),
  (Fld.PT_STATUS_SIGNAL 5, 1), (Fld.PT_STATUS_BLOCK_LOCK 5, 1)]) [(Fld.PT_MODE_CRF 5, 1)]
/-- A calendar whose first slot is TASK `t` for port 5. -/
def calOf (s : State) (t : Nat) : State :=
  { s with bt := { s.bt with regions := SMap.ins s.bt.regions 4 ([BitVec.ofNat 8 t, 0, BitVec.ofNat 8 (if t = 4 then 0 else 5), 0] ++ List.replicate 4092 0) } }
theorem witness_crfFrames :
    (crfBase.mainUp = true ∧ crfBase.crfRuns 5 = true ∧ crfBase.fld (Fld.PT_CTRL_LOOPBACK 5) ≠ 1 ∧ (crfBase.port 5).loop = [] ∧ (crfBase.port 5).modeDue = none ∧
      (crfBase.crf 5).tx.units = [] ∧ (crfBase.crf 5).tx.open_ = none ∧ (crfBase.crf 5).tx.at_ = none ∧ crfBase.portAbsent 5 = false ∧ crfBase.fld (Fld.LF_HMC_TX_CTRL_GO 5) = 0 ∧ crfBase.calHas 1 5 = false) ∧
    (st [(Fld.LF_HMC_TX_CTRL_GO 5, 1)]).fld (Fld.LF_HMC_TX_CTRL_GO 5) = 1 ∧
    (let s := calOf crfBase 1
     s.mainUp = true ∧ s.crfRuns 5 = true ∧ s.calHas 1 5 = true) := by decide +kernel

def withRx (s : State) (x : CrfRx) : State := s.setRx 5 x
def crfHunting (c : Nat) : State := withRx crfBase { (crfBase.crfRx 5) with blk := 1023, trk := [(1023, c)] }
def crfSync (r : Nat) : State := withRx (withF crfBase [(Fld.LF_STATUS_FA_STATE 5, 2), (Fld.LF_STATUS_MF_LOCK 5, 1), (Fld.LF_STATUS_DELIN 5, 1)])
  { (crfBase.crfRx 5) with blk := 7, pos := 7, run := r }
theorem witness_crfAlignment :
    (crfBase.crfRuns 5 = true ∧ crfBase.bit (Fld.PT_STATUS_SIGNAL 5) = true ∧ crfBase.bit (Fld.PT_STATUS_BLOCK_LOCK 5) = true ∧
      crfBase.fld (Fld.PT_CTRL_LOOPBACK 5) = 0 ∧ (crfBase.port 5).modeDue = none ∧ crfBase.tw.inbox = [] ∧
      crfBase.isSync 5 = false ∧ (crfBase.crfRx 5).trk = [] ∧ 0 < crfBase.lfCands 5) ∧
    (let s := crfHunting 3
     s.fld (Fld.PT_CTRL_LOOPBACK 5) = 0 ∧ (s.port 5).modeDue = none ∧ s.tw.inbox = [] ∧ s.crfRuns 5 = true ∧ s.isSync 5 = false ∧ s.lfN 5 ≤ 4 ∧
     (s.crfRx 5).trk.find? (fun e => decide (e.1 = (s.crfRx 5).blk)) = some ((s.crfRx 5).blk, 3)) ∧
    (let s := crfSync 3
     s.mainUp = true ∧ s.fld (Fld.PT_CTRL_LOOPBACK 5) = 0 ∧ (s.port 5).modeDue = none ∧ s.tw.inbox = [] ∧ s.crfRuns 5 = true ∧ s.isSync 5 = true ∧ (s.crfRx 5).blk = (s.crfRx 5).pos ∧ fasErrors fasBytes ≤ s.lfTol 5 ∧
     s.bit (Fld.PT_STATUS_SIGNAL 5) = true ∧ s.bit (Fld.PT_STATUS_BLOCK_LOCK 5) = true ∧
     s.lfTol 5 < fasErrors [1, 2, 3, 4, 5, 6, 7, 8] ∧ s.lfM 5 ≤ (s.crfRx 5).run + 1) ∧
    (base.crfRuns 143 = false ∧ (base.port 143).modeDue = none ∧ base.tw.inbox = [] ∧ base.fld (Fld.PT_CTRL_LOOPBACK 143) ≠ 2) ∧
    (let s := st [(Fld.PT_CTRL_LOOPBACK 143, 2)]
     s.mainUp = true ∧ s.crfRuns 143 = false ∧ s.fld (Fld.PT_CTRL_LOOPBACK 143) = 2 ∧ (s.port 143).modeDue = none ∧ s.tw.inbox = []) ∧
    (st [(Fld.PT_CTRL_LOOPBACK 5, 1)]).fld (Fld.PT_CTRL_LOOPBACK 5) = 1 := by decide +kernel

def withPm (s : State) (x : Pm) : State := s.setPm 5 x
def defPort (det sync lock : Nat) : State :=
  withPm (withF crfBase [(Fld.LF_STATUS_FA_STATE 5, sync), (Fld.LF_STATUS_MF_LOCK 5, lock), (Fld.PT_STATUS_LINK 5, 1)]) { Pm.reset with det := det }
theorem witness_lineDefects :
    (let s := defPort 0 2 1
     s.mainUp = true ∧ s.fld (Fld.PT_STATUS_ACTIVE_MODE 5) ≠ 0 ∧ s.fld (Fld.PT_STATUS_EN_STATE 5) ≠ 0 ∧ s.watches 5 = true ∧ s.hasDef 5 dLOS = false ∧
     (s.port 5).modeDue = none) ∧
    (let s := defPort 1 2 1
     s.watches 5 = true ∧ s.hasDef 5 dLOS = true ∧ s.losCond 5 = false ∧ (s.pm 5).losAt + tMs ≤ s.now + 100000000) ∧
    (let s := defPort 2 2 1
     s.hasDef 5 dLOF = true ∧ s.crfOn 5 = true ∧ s.isSync 5 = true ∧ (s.pm 5).lofAt + 3 * tMs ≤ s.now + 1000000000) ∧
    (let s := defPort 4 2 1
     s.hasDef 5 dLOM = true ∧ s.crfOn 5 = true ∧ s.mfLock 5 = true ∧ (s.pm 5).lomAt + 3 * tMs ≤ s.now + 1000000000) ∧
    (let s := defPort 0 0 0
     s.watches 5 = true ∧ s.hasDef 5 dLOF = false ∧ s.isSync 5 = false ∧ (s.pm 5).lofAt + 3 * tMs ≤ s.now + 1000000000) ∧
    (let s := defPort 0 2 0
     s.hasDef 5 dLOM = false ∧ s.isSync 5 = true ∧ s.mfLock 5 = false ∧ (s.pm 5).lomAt + 3 * tMs ≤ s.now + 1000000000) := by decide +kernel

def failPort (v : Nat) : State := withF crfBase [(Fld.LF_DEFECTS_DEF 5, v), (Fld.LF_DEFECTS_FAIL 5, 63 - v)]
theorem witness_lineFailures :
    (let s := failPort 32
     s.mainUp = true ∧ bitOf (s.defs 5) 5 = true ∧ bitOf (s.fails 5) 5 = false ∧
     (s.pm 5).failAt.getD 5 0 + tenths (s.fld (Fld.LF_FAIL_TIME_SET 5)) ≤ s.now + 600000000000) ∧
    (let s := failPort 31
     s.mainUp = true ∧ bitOf (s.defs 5) 5 = false ∧ bitOf (s.fails 5) 5 = true ∧
     (s.pm 5).failAt.getD 5 0 + tenths (s.fld (Fld.LF_FAIL_TIME_CLEAR 5)) ≤ s.now + 600000000000) ∧
    (crfBase.crfOn 5 = true ∧ crfBase.watches 5 = true ∧ crfBase.fld (Fld.PT_STATUS_EN_STATE 5) = 1 ∧ crfBase.fld (Fld.PT_STATUS_LINK 5) = 0 ∧
      (crfBase.pm 5).upAt = some 0 ∧ 0 + crfBase.fld (Fld.LF_DEF_CTRL_UP_HOLD 5) * tMs ≤ crfBase.now + 600000000000) ∧
    ((withPm crfBase { Pm.reset with upAt := none }).pm 5).upAt = none := by decide +kernel

def sec (n : Nat) : PmSec := ⟨n, 1, 0, false, 3, 100, false, false, 0, 0, 0, true, true, 0⟩
def pmPort (w : PmSec) (run : Nat) : State :=
  withPm (withF (calOf crfBase 2) [(Fld.AV_PM_CTRL_ENABLE, 1), (Fld.LF_PM_CTRL_MON_EN 5, 1), (Fld.LF_PM_NOW_NE_RUN 5, run)])
    { Pm.reset with acc := some (sec 8), wait := [w], bin15 := PmBin.current 0 false }
theorem witness_secondsGraded :
    (let s := pmPort { sec 7 with ne := true } 8
     s.mainUp = true ∧ (s.pm 5).wait = [{ sec 7 with ne := true }] ∧ (s.pm 5).acc = some (sec 8) ∧ s.calHas 2 5 = true ∧ (s.port 5).modeDue = none ∧
     (s.pm 5).bin15.start ≤ 7 ∧ s.fld (Fld.LF_PM_NOW_NE_UNAVAIL 5) = 0 ∧ s.fld (Fld.LF_PM_NOW_NE_RUN 5) < 9) ∧
    (let s := pmPort { sec 7 with ne := true } 9
     s.fld (Fld.LF_PM_NOW_NE_RUN 5) = 9 ∧ (gradeOf (s.sesPct 5) true 3 100).ses = 1) ∧
    (let s := pmPort { sec 7 with unmon := true } 9
     (s.pm 5).wait = [{ sec 7 with unmon := true }] ∧ (s.pm 5).acc = some (sec 8) ∧ (s.port 5).modeDue = none ∧ (s.pm 5).bin15.start ≤ 7) ∧
    (let s := pmPort { sec 7 with crf := false, errs := 5 } 9
     (s.pm 5).wait = [{ sec 7 with crf := false, errs := 5 }] ∧ (s.pm 5).acc = some (sec 8) ∧ s.calHas 2 5 = true ∧ (s.port 5).modeDue = none ∧
     (s.pm 5).bin15.start ≤ 7) := by decide +kernel

def pmLater (x : Pm) : State := withPm { withF crfBase [(Fld.LF_TCA15_THR 5 0, 3)] with time := { base.time with raw := 1000 * hmSecond, flow := ((1000 * hmSecond : Nat) : Int) } } x
def finPm : Pm := { Pm.reset with acc := some (sec 1000), hist := [⟨989, 989, false, ⟨3, 0, 0, 0⟩, Grades.zero, Grades.zero, Grades.zero, ((990 * hmSecond : Nat) : Int)⟩], bin15 := PmBin.current 900 false }
def closePm : Pm := { Pm.reset with acc := some (sec 1000), bin15 := PmBin.current 900 false, past15 := { PmBin.current 0 false with fin := ((900 * hmSecond : Nat) : Int) } :: List.replicate 31 PmBin.empty }
theorem witness_binsAndWindow :
    (let s := pmLater finPm
     s.mainUp = true ∧ (s.pm 5).acc = some (sec 1000) ∧ (s.begun 0).hmSec ≤ 1000 ∧ (s.pm 5).hist.length = 1 ∧ (990 * hmSecond : Nat) + (10 * hmSecond : Nat) ≤ (s.begun 0).time.flow ∧
     (s.pm 5).wait = [] ∧ (s.pm 5).bin15.start ≤ 989 ∧ 0 < s.tcaThr 5 false 0 ∧
     s.tcaThr 5 false 0 ≤ ((s.pm 5).bin15.finNe.add ⟨3, 0, 0, 0⟩).nth 0 ∧ bitOf (s.pm 5).bin15.alerts 0 = false) ∧
    (let s := pmLater { Pm.reset with acc := some (sec 1000) }
     (s.pm 5).acc = some (sec 1000) ∧ (s.pm 5).bin15.start + 900 ≤ (s.begun 0).hmSec) ∧
    (let s := pmLater { Pm.reset with acc := none }
     (s.pm 5).acc = none ∧ start15 s.isl.upSec + 900 ≤ (s.begun 0).hmSec) ∧
    (let s := pmLater closePm
     (s.pm 5).past15.length = 32 ∧ ((s.pm 5).past15.getD 0 PmBin.empty).open_ = true ∧
     (∀ j, j < 32 → 0 < j → ((s.pm 5).past15.getD j PmBin.empty).open_ = false) ∧ ((s.pm 5).past15.getD 0 PmBin.empty).fin + (10 * hmSecond : Nat) ≤ (s.begun 0).time.flow ∧ (s.pm 5).wait = [] ∧
     (s.pm 5).hist = [] ∧ s.fld Fld.AV_PM_CTRL_RING_EN = 0 ∧ (s.pm 5).acc = some (sec 1000) ∧ s.portAbsent 5 = false ∧ ((s.pm 5).bin 34).isSome = true) := by decide +kernel

def hmBusy : State := { base with goBusy := SMap.ins base.goBusy Reg.HM_SET_CTRL 1000 }
theorem witness_counterSteps :
    (base.aonUp = true ∧ (base.begun 480).busy Reg.HM_SET_CTRL = false ∧ base.hm.svTick ≠ (base.now + 480) / 240 + 1 ) ∧
    (hmBusy.aonUp = true ∧ (hmBusy.begun 480).busy Reg.HM_SET_CTRL = true) ∧ base.servo = svFree := by decide +kernel

def servoIn (st_ src : Nat) : State := st [(Fld.HM_SERVO_STATUS_STATE, st_), (Fld.HM_SERVO_CTRL_EN, 1), (Fld.HM_SERVO_CTRL_SRC, src), (Fld.HM_ADDEND0_LOW, 77)]
theorem witness_servoStates :
    (base.aonUp = true ∧ base.fld Fld.HM_SERVO_CTRL_EN = 0 ∧ base.servo = svFree) ∧
    ((servoIn 2 0).aonUp = true ∧ (servoIn 2 0).servo = svLocked ∧ (servoIn 2 0).hm.sampleAt + (servoIn 2 0).servoTimeout ≤ (servoIn 2 0).now + 6000000000000 ∧
      (servoIn 2 0).fld Fld.HM_SERVO_CTRL_EN = 1) := by decide +kernel

def servoRun (st_ src sen : Nat) : State :=
  { servoIn st_ src with hm := { (servoIn st_ src).hm with lastAt := some 0, crfVals := [24, 40] } }.setF Fld.HM_SERVO_CTRL_STEP_EN sen
theorem witness_servoSamples :
    (let s := servoRun 2 0 0
     s.aonUp = true ∧ s.fld Fld.HM_SERVO_CTRL_EN = 1 ∧ s.servoSrc = 0 ∧ s.servo = svLocked ∧ s.fld Fld.HM_SERVO_CTRL_STEP_EN = 0 ∧ s.hm.lastAt = some 0 ∧
     0 < ((s.now + 480000) / 240 - 0) * 4) ∧
    ((servoRun 3 0 0).servo = svHoldover ∧ (servoIn 1 0).servo = svAcquire ∧ (servoIn 1 0).hm.lastAt = none ∧ (servoIn 1 0).servoSrc = 0) ∧
    (let s := servoRun 1 0 1
     s.servo ≠ svFree ∧ s.fld Fld.HM_SERVO_CTRL_STEP_EN = 1 ∧ s.fld Fld.HM_SERVO_CTRL_EN = 1 ∧ s.servoSrc = 0 ∧ 0 < s.fld Fld.HM_STEP_NS_STEP_NS ∧
     s.hm.swTick ≠ (s.now + 480000) / 240 + 1 ∧
     s.fld Fld.HM_STEP_NS_STEP_NS * 65536 < ((50000000#32).toInt * 65536 + 6).natAbs) ∧
    (let s := servoRun 2 1 0
     s.mainUp = true ∧ s.hm.crfVals.length < 2 ^ min (s.fld Fld.HM_SERVO_CTRL_AVG) 8) ∧
    (let s := (servoRun 2 1 0).setF Fld.HM_SERVO_CTRL_AVG 1
     s.mainUp = true ∧ s.servoSrc = 1 ∧ s.servo ≠ svFree ∧ s.fld Fld.HM_SERVO_CTRL_STEP_EN = 0 ∧ 2 ^ min (s.fld Fld.HM_SERVO_CTRL_AVG) 8 ≤ s.hm.crfVals.length ∧
     (s.hm.crfVals.take 2).foldl (· + ·) 0 = 2 * (2 : Int) * 16) ∧
    (let s := (servoRun 2 2 0).setF Fld.HM_PPS_CTRL_IN_EN 1
     s.fld Fld.HM_PPS_CTRL_IN_EN = 1 ∧ s.fld Fld.HM_SERVO_CTRL_EN = 1 ∧ s.servoSrc = 2 ∧ s.servo ≠ svFree) ∧
    base.fld Fld.HM_PPS_CTRL_IN_EN = 0 := by decide +kernel

def todMsg : List Byte := [0x43, 0x54, 1, 2, 0, 0, 0, 0, 0, 9, 0, 37, 6, 0] ++ beBytes 2 (crc16 [0x43, 0x54, 1, 2, 0, 0, 0, 0, 0, 9, 0, 37, 6, 0])
def hmOn : State := st [(Fld.HM_PPS_CTRL_OUT_EN, 1), (Fld.HM_TOD_CTRL_TX_EN, 1), (Fld.HM_TOD_CTRL_RX_EN, 1), (Fld.HM_SERVO_STATUS_STATE, 2)]
def hmHigh : State := { hmOn with hm := { hmOn.hm with ppsHigh := true } }
theorem witness_ppsAndTod :
    (hmOn.aonUp = true ∧ hmOn.fld Fld.HM_PPS_CTRL_OUT_EN = 1 ∧ 0 ≤ (hmOn.begun 480).ppsIndex 0 ∧ 0 ≤ (hmOn.begun 720000000).ppsIndex 10000000 ∧
      base.fld Fld.HM_TOD_CTRL_TX_EN = 0 ∧ hmOn.hm.ppsSec ≠ some ((hmOn.begun 480).ppsIndex 0) ∧ hmOn.ppsQuiet = false ∧
      base.ppsQuiet = true ∧ hmHigh.hm.ppsHigh = true ∧ hmHigh.hm.ppsFall ≤ (hmHigh.begun 480).hmNs ∧ hmOn.fld Fld.HM_TOD_CTRL_TX_EN = 1 ∧
      hmOn.hm.todSec ≠ some ((hmOn.begun 720000000).ppsIndex 10000000) ∧ hmOn.fld Fld.HM_TOD_CTRL_RX_EN = 1) ∧
    (todMsg.length = 16 ∧ u16 todMsg 0 = 0x4354 ∧ u8 todMsg 2 = 1 ∧ u16 todMsg 14 = crc16 (todMsg.take 14)) := by decide +kernel

theorem witness_todReceived :
    (hmOn.aonUp = true ∧ hmOn.fld Fld.HM_TOD_CTRL_RX_EN = 1 ∧ todMsg.length = 16 ∧ u16 todMsg 0 = 0x4354 ∧ u8 todMsg 2 = 1 ∧
      u16 todMsg 14 = crc16 (todMsg.take 14)) ∧ base.fld Fld.HM_TOD_CTRL_RX_EN = 0 := by decide +kernel

def evtOf (mode per t : Nat) : State := st [(Fld.HM_EVT_CTRL_MODE 1, mode), (Fld.HM_EVT_CTRL_PERIODIC 1, per), (Fld.HM_EVT_CTRL_EDGE 1, 3), (Fld.HM_EVT_TIME0_NS 1, t)]
def evtPin (x : EvtPin) (mode : Nat) : State := (evtOf mode 0 5).setPin 1 x
def caps8 : List Nat := [1, 2, 3, 4, 5, 6, 7, 8]
theorem witness_eventPins :
    (let s := evtOf 1 0 500
     s.aonUp = true ∧ s.fld (Fld.HM_EVT_CTRL_MODE 1) = 1 ∧ (s.begun 480).hm16 < s.timeAt (Reg.HM_EVT_TIME0 1)) ∧
    (let s := evtOf 1 1 5
     s.timeAt (Reg.HM_EVT_TIME0 1) ≤ (s.begun 480).hm16 ∧ s.fld (Fld.HM_EVT_CTRL_PERIODIC 1) = 1) ∧
    (let s := evtOf 1 0 5
     s.timeAt (Reg.HM_EVT_TIME0 1) ≤ (s.begun 480).hm16 ∧ s.fld (Fld.HM_EVT_CTRL_PERIODIC 1) = 0) ∧
    (let s := evtPin ⟨[], some 5, some 5, true⟩ 1
     (s.pin 1).next = some 5 ∧ (s.pin 1).until_ = some 5 ∧ 5 ≤ (s.begun 480).hm16) ∧
    (let s := evtPin ⟨[1], none, none, false⟩ 2
     s.fld (Fld.HM_EVT_CTRL_MODE 1) = 2 ∧ bitOf (s.fld (Fld.HM_EVT_CTRL_EDGE 1)) 1 = true ∧ (s.pin 1).caps.length < 8) ∧
    (let s := evtPin ⟨caps8, none, none, false⟩ 2
     s.fld (Fld.HM_EVT_CTRL_MODE 1) = 2 ∧ 8 ≤ (s.pin 1).caps.length) := by decide +kernel

def gateWait : State := base.setGate 143 ⟨Calendar.off, some ⟨true, true, 1000, 5, [(500, 1), (500, 2)]⟩, 65536⟩
theorem witness_gateCalendars :
    ((gateWait.gate 143).next = some ⟨true, true, 1000, 5, [(500, 1), (500, 2)]⟩ ∧ (gateWait.gate 143).nextAt ≤ (gateWait.begun 480).hm16 ∧
      (gateWait.begun 0).hm16 < (gateWait.gate 143).nextAt ∧ gateWait.mainUp = true) ∧ (base.gate 143).next = none := by decide +kernel

/-- A calendar whose first slot is TASK 3 for group 1. -/
def calMep : State :=
  { base with bt := { base.bt with regions := SMap.ins base.bt.regions 4 ([3, 0, 1, 0] ++ List.replicate 4092 0) } }
def mepOn : State := withF calMep [(Fld.AV_MEP_CFG_EN 20, 1), (Fld.AV_MEP_CFG_VID 20, 9)]
def mepClash : State := mepOn.setMep 3 { Mep.reset with cfg := mepOn.mepWords 20 }
def mepRuns (d : Nat) (x : Mep) : State := (withF mepOn [(Fld.AV_MEP_STATUS_ACTIVE 20, 1), (Fld.AV_MEP_STATUS_DEF 20, d)]).setMep 20 x
def mepX : Mep := { Mep.reset with cfg := mepOn.mepWords 20 }
theorem witness_continuityMeps :
    (mepOn.mainUp = true ∧ mepOn.calHas 3 1 = true ∧ mepOn.fld (Fld.AV_MEP_CFG_EN 20) = 1 ∧ mepOn.fld (Fld.AV_MEP_STATUS_ACTIVE 20) = 0 ∧
      mepOn.av.meps = [] ∧ (∀ j, j < 16 → 16 + j ≠ 20 → mepOn.fld (Fld.AV_MEP_CFG_EN (16 + j)) = 0) ∧ base.calHas 3 1 = false) ∧
    (mepClash.av.meps = [(3, { Mep.reset with cfg := mepOn.mepWords 20 })] ∧ mepClash.mepWords 20 = mepOn.mepWords 20 ∧
      mepClash.mep 20 = Mep.reset) ∧
    (mepRuns 5 mepX).mepDefs 20 ≠ 0 := by decide +kernel

/-- A CCM from its OpCode byte on: level, version, flags, number, MEPID, and a MAID of zeros. -/
def ccmOf (level flags mepid : Nat) : Ccm :=
  ⟨20, beBytes 1 (level * 32) ++ [1] ++ beBytes 1 flags ++ [70] ++ beBytes 4 77 ++ beBytes 2 mepid ++ List.replicate 64 0, { Parse.none with pay := 0 }⟩
def mepSees (c : Ccm) : State := let s := mepRuns 0 mepX; { s with av := { s.av with ccm := [c] } }
def mepHigh (c : Ccm) : State :=
  let s := mepRuns 0 { mepX with cfg := (mepX.cfg.set 0 (w32 (2 ^ 31 + 3 * 2 ^ 24))) }
  { s with av := { s.av with ccm := [c] } }
theorem witness_ccmEvents :
    ((mepHigh (ccmOf 2 4 1)).av.ccm = [ccmOf 2 4 1] ∧ (mepHigh (ccmOf 2 4 1)).calHas 3 (20 / 16) = true ∧ (mepHigh (ccmOf 2 4 1)).mepActive 20 = true ∧
      u8 (ccmOf 2 4 1).bytes 0 / 32 < ((mepHigh (ccmOf 2 4 1)).mep 20).level) ∧
    (let c := { ccmOf 0 4 1 with bytes := List.replicate 80 1 }
     ¬ u8 c.bytes 0 / 32 < ((mepSees c).mep 20).level ∧ byteSlice c.bytes 10 48 ≠ ((mepSees c).mep 20).maid) ∧
    (let c := ccmOf 0 4 9
     byteSlice c.bytes 10 48 = ((mepSees c).mep 20).maid ∧ u16 c.bytes 8 % 8192 ≠ ((mepSees c).mep 20).rmepid) ∧
    (let c := ccmOf 0 132 1
     u16 c.bytes 8 % 8192 = ((mepSees c).mep 20).rmepid ∧ u8 c.bytes 2 % 8 = ((mepSees c).mep 20).code ∧ c.parse.tags = []) ∧
    (let s := mepRuns 126 mepX
     s.mainUp = true ∧ s.mepActive 20 = true ∧ s.calHas 3 (20 / 16) = true ∧ bitOf (s.mepDefs 20) mLOC = false ∧ (s.mep 20).valid + (s.mep 20).t ≤ s.now + 600000000000 ∧
     bitOf (s.mepDefs 20) 6 = true ∧ (s.mep 20).eventAt 6 + (s.mep 20).t ≤ s.now + 600000000000) ∧
    (let s := { base with av := { base.av with ccm := [ccmOf 0 4 1] } }
     s.mainUp = true ∧ s.calHas 3 (20 / 16) = false ∧ s.av.ccm = [ccmOf 0 4 1]) := by decide +kernel

def mirrorReady : State :=
  let s := calOf (st [(Fld.TW_CFG_EN, 1), (Fld.TW_MIRROR_CTRL_EN, 1)]) 4
  { s with tw := { s.tw with records := [(1, 7, [1, 2, 3]), (1, 8, [1, 2, 3])] } }
def noCells (s : State) : State := withF s [(Fld.CB_ANVIL_POOL_POOL, 50)]
def calNext : State := { base with bt := { base.bt with calNew := some [1, 2] } }
def sampler (on : Nat) : State :=
  (st [(Fld.PL_SAMPLE_CTRL_EN, 1), (Fld.PL_SAMPLE_CTRL_RING, 9), (Fld.PL_SAMPLE_LAST_QUEUE, 5), (Fld.HI_RING_CFG_KIND 9, 4),
    (Fld.HI_RING_CFG_LOG2SIZE 9, 6)]).setRing 9 { Ring.reset with state := on }
def levelBusy : State := { base with goBusy := SMap.ins base.goBusy Reg.PL_LEVEL_CMD 1000 }
theorem witness_anvilAndPlanish :
    (base.mirrorOn = false ∧ base.tw.resend = 0 ∧ mirrorReady.mirrorOn = true ∧ mirrorReady.calHas 4 0 = true ∧ mirrorReady.tw.records ≠ [] ∧
      1518 ≤ (mirrorReady.begun 7).mtu (mirrorReady.fld Fld.TW_CFG_LINK_PORT) ∧ (mirrorReady.begun 7).pool.avCells = [] ∧
      (((mirrorReady.begun 7).drawn.alloc (mirrorReady.fld Fld.CB_ANVIL_POOL_POOL) 9 slotAnvil).1).isSome = true ∧
      (((noCells mirrorReady).begun 7).drawn.alloc ((noCells mirrorReady).fld Fld.CB_ANVIL_POOL_POOL) 9 slotAnvil).1 = none) ∧
    (calNext.bt.calNew = some [1, 2] ∧ calNext.bt.reload = none ∧ base.bt.calNew = none) ∧
    (base.reaches .pcie Reg.PL_LEVEL_CMD 0 = true ∧ (base.begun 7).busy Reg.PL_LEVEL_CMD = false ∧ levelAddr 5 36863 = some 0x151FFF4 ∧
      levelAddr 5 36864 = none ∧ (levelBusy.begun 7).busy Reg.PL_LEVEL_CMD = true ∧ levelBusy.reaches .pcie Reg.PL_LEVEL_CMD 0 = true) ∧
    (isEgress 0xFFFF = true ∧ base.reaches .pcie (0x1600000 + 4 * 0xFFFF) 0 = true) ∧
    ((sampler 1).fld Fld.PL_SAMPLE_CTRL_EN = 1 ∧ (sampler 1).pl.sampleAt ≤ (sampler 1).now + 7 ∧ (sampler 1).sampleNext = some 0 ∧
      (sampler 1).pciRuns = true ∧ (sampler 1).rOn 9 = true ∧ (sampler 1).rKind 9 = kindSample ∧ 2 ≤ (sampler 1).rFree 9) ∧
    ((sampler 0).rOn 9 = false ∧ base.fld Fld.PL_SAMPLE_CTRL_EN = 0) := by decide +kernel

def revertible : State := base.setReg (Reg.PT_MODE 5) 3#32
def slotDue0 : State := st [(Fld.CM_TIMED_CTRL_ARM 2, 1), (Fld.CM_TIMED_MASK_MASK 2, 5)]
theorem witness_pendingGroups :
    (base.aonUp = true ∧ base.reaches .pcie (Reg.PT_MODE 5) 3 = true ∧ unitOf (Reg.PT_MODE 5) = some 0 ∧
      fieldMask (fieldsAt (Reg.PT_MODE 5)) (fun t => decide (t = .rws)) ≠ 0 ∧ base.absent (Reg.PT_MODE 5) = false ∧
      beMask 1 &&& fieldMask (fieldsAt (Reg.PT_MODE 5)) (fun t => decide (t = .rws)) ≠ 0 ∧
      beMask 2 &&& fieldMask (fieldsAt (Reg.PT_MODE 5)) (fun t => decide (t = .rws)) = 0 ∧ (base.begun 7).slotsDue = [] ∧
      (regAt (Reg.PT_MODE 5)).isSome = true ∧ isCmdReg (Reg.PT_MODE 5) = false ∧ base.multiOf (Reg.PT_MODE 5) = none ∧
      base.portAbsent 143 = false ∧ base.reaches .pcie Reg.CM_COMMIT 0 = true ∧ base.reaches .pcie Reg.CM_REVERT 0 = true) ∧
    (2 ∈ (slotDue0.begun 7).slotsDue ∧ bitOf (slotDue0.slotMask 2) 2 = true ∧ slotDue0.mainUp = true ∧ slotDue0.unitGroup 2 = 2) := by decide +kernel

/-- A port's new mode, with the lanes that its lists hold. -/
def laned (v n : Nat) : State :=
  { base.setReg (Reg.PT_MODE 5) (w32 v) with bt := { base.bt with regions := [(1, List.replicate 44 0 ++ beBytes 1 n ++ beBytes 1 n ++ List.replicate 2002 0)] } }
/-- A dwelling and a group that a commit would move, the dwelling busy or not. -/
def reparent (busy : Bool) : State :=
  let s := (base.setReg (Reg.PL_L1_PARENT 9) 7#32).setReg (Reg.PL_L2_PARENT 3) 9#32
  if busy then { s with fab := { s.fab with qlen := [(12, 5)] } } else s
theorem witness_modeCommits :
    (∀ v, v < 19 → base.unitGroup v = v) ∧ 5 ∈ portsOfGroup 0 ∧ base.portAbsent 5 = false ∧ (laned 4 1).mainUp = true ∧
    (laned 4 1).reg (Reg.PT_MODE 5) = 4#32 ∧ (laned 4 1).actReg (Reg.PT_MODE 5) = 0#32 ∧ (laned 4 1).txRunning 5 = false ∧ (laned 4 1).portLanes 5 = 1 ∧
    (modeOk 5 4 0 false = true ∧ modeLanes 4 ≤ 1) ∧ (laned 4 0).portLanes 5 = 0 ∧ ¬ modeLanes 4 ≤ 0 ∧
    ((reparent true).begun 7).busyDwellings = [3] ∧ (reparent true).groupOfDw 3 = 0 ∧ (reparent true).fld (Fld.PL_L2_PARENT_GROUP 3) = 9 ∧
    (reparent true).fld (Fld.PL_L1_PARENT_PORT 9) = 7 ∧ (reparent true).portOfGroup 9 = 0 ∧ ((reparent false).begun 7).busyDwellings = [] := by decide +kernel
theorem witness_commits :
    base.mainUp = true ∧ base.reaches .pcie Reg.CM_COMMIT 0 = true ∧ (base.begun 7).slotsDue = [] ∧ unitOf (Reg.HM_GATE_CTRL 143) = some 18 ∧
      unitOf 0xC01000 = some 16 := by decide +kernel
def slotAhead : State := st [(Fld.CM_TIMED_TIME1_SEC 3, 9)]
theorem witness_timedCommits :
    (base.reaches .pcie (Reg.CM_TIMED_CTRL 3) 0 = true ∧ base.slotArmed 3 = false ∧ base.slotTime 3 ≤ (base.begun 7).hm16 ∧
      (slotAhead.begun 7).hm16 < slotAhead.slotTime 3 ∧ slotAhead.slotArmed 3 = false) ∧
    (slotDue0.slotArmed 2 = true ∧ slotDue0.slotTime 2 ≤ (slotDue0.begun 7).hm16 ∧ slotDue0.mainUp = true) ∧
    (let s := withF slotAhead [(Fld.CM_TIMED_CTRL_ARM 3, 1)]
     s.slotArmed 3 = true ∧ (s.begun 7).hm16 < s.slotTime 3) := by decide +kernel

def dozeOn : State := st [(Fld.PW_STATUS_STATE, 1), (Fld.PW_CTRL_TARGET, 1), (Fld.PW_STATUS_PG_GATED, 1)]
def i2cSilent : State := { base with rst := { base.rst with aonReady := false, aonAt := 0 } }
theorem witness_registerWritesI2c :
    (∀ b : Bool, (i2cSilent.begun 7).reaches .i2c Reg.CM_COMMIT (if b then 1 else 0) = false) ∧ i2cSilent.aonUp = true := by decide +kernel
theorem witness_registerTypes :
    ((fieldsAt Reg.HM_SERVO_STATUS).all (fun f => decide (f.ty = .ro ∨ f.ty = .rc)) = true ∧ base.absent Reg.HM_SERVO_STATUS = false ∧
      (regAt Reg.HM_SERVO_STATUS).isSome = true ∧ base.multiOf Reg.HM_SERVO_STATUS = none ∧ base.reaches .i2c Reg.HM_SERVO_STATUS 5 = true) ∧
    (unitOf 0xC01000 = some 16 ∧ fieldMask (fieldsAt 0xC01000) (fun t => decide (t = .rws)) ≠ 0 ∧ base.absent 0xC01000 = false ∧
      (regAt 0xC01000).isSome = true ∧ base.multiOf 0xC01000 = none ∧ isCmdReg 0xC01000 = false) ∧
    ((fieldsAt Reg.CB_CELL_CMD).any (fun f => decide (f.ty = .sc) && decide (f.lo = 31)) = true ∧ base.absent Reg.CB_CELL_CMD = false ∧
      (regAt Reg.CB_CELL_CMD).isSome = true ∧ base.multiOf Reg.CB_CELL_CMD = none ∧
      (∀ i, i < 32 → bitOf (fieldMask (fieldsAt Reg.CB_CELL_CMD) (fun t => decide (t = .sc))) i = true → bitOf 0x7FFFFFFF (i + 32 * (Reg.CB_CELL_CMD % 8 / 4)) = false)) := by
  decide +kernel
theorem witness_registerWrites :
    (State.reset.aonUp = true ∧ State.reset.dbgLevel = 0 ∧ (∀ b : Bool, State.reset.loupeMay 0x400000 (if b then 1 else 0) = false)) ∧
    (base.aonUp = true ∧ base.absent 0x400000 = false ∧ (regAt 0x400000).isSome = true ∧
      (fieldsAt 0x400000).all (fun f => decide (f.ty = .rw)) = true ∧ base.reaches .pcie 0x400000 7 = true ∧ base.portAbsent 143 = false) ∧
    (base.doze = false ∧ base.multiOf 0x700000 = none ∧ regAt 0x700000 = none) ∧
    (base.multiOf Reg.CM_COMMIT = none ∧ Reg.CM_COMMIT % 8 = 0 ∧ isCmdReg Reg.CM_COMMIT = true ∧ (regAt Reg.CM_COMMIT).isSome = true ∧
      base.absent Reg.CM_COMMIT = false ∧ base.fld Fld.CM_ACC_ERR_INFO_VALID = 0) ∧
    (base.ctrAt 0x2000000 = true ∧ base.reaches .i2c 0x2000004 5 = true ∧ base.reaches .pcie 0x2000004 5 = true ∧ base.reaches .pcie 0x2000000 5 = true) ∧
    (dozeOn.doze = true ∧ dozeOn.portAbsent 5 = false ∧ bitOf (dozeOn.fld Fld.PW_STATUS_PG_GATED) (groupOf 5) = true ∧
      dozeOn.reaches .pcie (Reg.PT_INT_STATUS 5 - 4) 5 = true) := by decide +kernel

def held (b : Nat) : State := base.setIni 0 { base.ini 0 with wrTag := some b, wrHeld := [(0, 5)], shTag := some b, shWords := [7, 8, 9] }
theorem witness_multiwordValues :
    (base.aonUp = true ∧ base.doze = false ∧ (held 0x40000).doze = false ∧ base.reaches .pcie 0x40000 0 = true ∧ base.multiOf 0x40000 = some (0x40000, 3)) ∧
    (base.multiOf 0x40004 = some (0x40000, 3) ∧ ((held 0x40000).ini 0).shTag = some 0x40000) ∧
    (base.reaches .i2c 0x1600000 0 = true ∧ base.multiOf 0x1600000 = none ∧ base.absent 0x1600000 = false ∧ (regAt 0x1600000).isSome = true ∧
      fieldMask (fieldsAt 0x1600000) (fun t => decide (t = .rc)) ≠ 0) ∧
    (base.multiOf 0x40010 = some (0x40010, 3) ∧ base.multiRw 0x40010 = true ∧ base.reaches .pcie 0x40010 9 = true) ∧
    (((held 0x18040).ini 0).wrTag = some Reg.JN_MARK0 ∧ SMap.look ((held 0x18040).ini 0).wrHeld 0 = some 5 ∧
      (held 0x18040).reaches .pcie Reg.JN_MARK1 9 = true) ∧
    ((held 0x2000000).ctrAt 0x2000000 = true ∧ ((held 0x2000000).ini 0).wrTag = some 0x2000000) := by decide +kernel

def jnWaits (seq : Nat) : State := { base with jn := { base.jn with queue := [jnWords seq 1 0 0 0 [1, 2, 3, 4]] } }
def jnChosen (q h : Nat) : State := ({ base with jn := { base.jn with head := h } }).setIni 0 { base.ini 0 with jnSel := q, jnBusy := true, jnStat := 3 }
theorem witness_journalRecords :
    ((jnWaits 4096).aonUp = true ∧ (jnWaits 4096).jn.queue = [jnWords 4096 1 0 0 0 [1, 2, 3, 4]] ∧ (jnWaits 4096).jn.nextAt ≤ (jnWaits 4096).now + 7 ∧
      2048 < seqOf (jnWords 4096 1 0 0 0 [1, 2, 3, 4]) ∧ (jnWaits 4096).jnMark < 2048 ∧ base.jn.queue = [] ∧ (jnWaits 4096).jn.soon = [] ∧ base.jn.soon = []) ∧
    (base.reaches .i2c Reg.JN_SEL0 7 = true ∧ base.reaches .i2c Reg.JN_SEL1 7 = true) ∧
    (((jnChosen 3 2).ini 0).jnBusy = true ∧ (jnChosen 3 2).jn.head < ((jnChosen 3 2).ini 0).jnSel ∧
      ((jnChosen 0 2).ini 0).jnSel = 0 ∧ ((jnChosen 2 2).ini 0).jnSel ≤ (jnChosen 2 2).jn.head) := by decide +kernel

/-- A twin of unit 0 in a lease state, with the lease's timers far off. -/
def twinOf (s0 : State) (ls seen held_ : Nat) : State :=
  let s := withF s0 [(Fld.TW_CFG_EN, 1), (Fld.TW_CFG_PIN_EN, 1), (Fld.TW_STATUS_LEASE_STATE, ls), (Fld.TW_EPOCH_SEEN_EPOCH, seen), (Fld.TW_EPOCH_HELD_EPOCH, held_),
    (Fld.TW_STATUS_EPOCH_VALID, 1), (Fld.TW_STATUS_DUTY, if ls = 4 then 1 else 0), (Fld.TW_PAIR_ID_ID, 99), (Fld.TW_STATUS_PIN_OK, 1)]
  { s with tw := { s.tw with expiry := 10 ^ 12, num := 7, renews := [(7, 5000)] } }
def twin (ls seen held_ : Nat) : State := twinOf (st []) ls seen held_
/-- The same with its CRF path open through port 5. -/
def twinCrf (ls seen held_ : Nat) : State := withF (twinOf (crfSync 0) ls seen held_) [(Fld.TW_CFG_CRF_EN, 1), (Fld.TW_CFG_LINK_PORT, 5)]
/-- A heartbeat of unit 1 of the pair. -/
def hbeat (pair : Nat) : List Byte :=
  withCrc (beBytes 1 1 ++ beBytes 1 0xF0 ++ beBytes 2 3 ++ beBytes 4 0 ++ beBytes 6 0 ++ beBytes 1 0 ++ beBytes 4 pair)
theorem witness_twinHeartbeats :
    (base.aonUp = true ∧ base.fld Fld.TW_CFG_EN = 0 ∧ base.hears .pin = false) ∧
    (let s := twin 2 5 0
     s.aonUp = true ∧ s.fld Fld.TW_CFG_EN = 1 ∧ s.fld Fld.TW_CFG_PIN_EN = 1 ∧
     s.tw.txPinAt + max (s.fld Fld.TW_HB_CFG_PIN_PERIOD) 1 * 100 * tUs ≤ s.now + 60000000000 ∧ s.pathOpen .pin 2 (hbeat 98) = true ∧ s.hears .pin = true ∧ s.crfRuns (s.fld Fld.TW_CFG_LINK_PORT) = false ∧
     s.twinTest (hbeat 99) 19 15 1 4 = 0 ∧ s.twinTest (hbeat 98) 19 15 1 4 ≠ 0 ∧ s.lease ≠ lsHolder ∧ s.fld Fld.TW_STATUS_PIN_OK = 1 ∧ s.tw.pinAt = none ∧
     s.fld Fld.TW_STATUS_PEER_DEAD = 0 ∧ max (s.tw.validAt.getD 0) s.tw.onAt + max (s.fld Fld.TW_HB_CFG_T_DEAD) 1 * tMs ≤ s.now + 60000000000) ∧
    (let s := twinCrf 2 5 0
     s.pathOpen .crf 2 (hbeat 99) = true ∧ s.pathOpen .crf 2 (hbeat 98) = true ∧ s.twinTest (hbeat 99) 19 15 1 4 = 0 ∧ s.twinTest (hbeat 98) 19 15 1 4 ≠ 0 ∧
     crcGood ((hbeat 99).set 20 1) 19 = false ∧ (∃ b ∈ hbeat 98, b ≠ 0) ∧ s.lease ≠ lsHolder ∧
     s.fld Fld.TW_CFG_LINK_PORT = 5) := by decide +kernel

/-- A lease message of unit 1 of the pair. -/
def lmsg (ty e seen n : Nat) : List Byte :=
  withCrc (beBytes 1 1 ++ beBytes 1 ty ++ beBytes 1 128 ++ [0] ++ beBytes 4 e ++ beBytes 4 seen ++ beBytes 4 n ++ beBytes 4 99 ++ List.replicate 20 0)
def heardBefore (s : State) : State := { s with tw := { s.tw with acted := [(1, 5, 2)] } }
theorem witness_leaseOnce :
    let s := heardBefore (twinCrf 2 5 0)
    s.aonUp = true ∧ s.tw.inbox = [] ∧ s.pathOpen .crf 3 (lmsg 1 5 5 2) = true ∧ s.twinTest (lmsg 1 5 5 2) 40 16 2 7 = 0 ∧ u8 (lmsg 1 5 5 2) 1 = 1 ∧
    s.tw.acted.contains (1, u32 (lmsg 1 5 5 2) 4, u32 (lmsg 1 5 5 2) 12) = true ∧ msgEpoch (lmsg 1 5 5 2) ≤ s.epochSeen ∧ s.lease = lsStandby := by
  decide +kernel
theorem witness_leaseMessages :
    (let s := twin 2 5 0
     s.aonUp = true ∧ s.isl.mainOff = false ∧ s.pathOpen .pin 3 (lmsg 1 6 6 2) = true ∧ s.twinTest (lmsg 1 6 6 2) 40 16 2 7 = 0 ∧ u8 (lmsg 1 6 6 2) 1 = lmRenew ∧
     u32 (lmsg 1 6 6 2) 4 = 6 ∧ s.tw.acted.contains (lmRenew, 6, 2) = false ∧ s.lease = lsStandby ∧ s.epochSeen ≤ 6 ∧ u32 (lmsg 1 6 6 2) 8 ≤ 6 ∧
     s.twinTest (lmsg 3 6 5 2) 40 16 2 7 = 0 ∧ u8 (lmsg 3 6 5 2) 1 = lmClaim ∧ u32 (lmsg 3 6 5 2) 8 < 6 ∧ s.epochSeen < 6 ∧
     s.twinTest (lmsg 6 5 5 2) 40 16 2 7 = 0 ∧ u8 (lmsg 6 5 5 2) 1 = lmRelease ∧ s.epochSeen ≤ 5 ∧
     s.twinTest ((lmsg 6 5 5 2).set 40 1) 40 16 2 7 ≠ 0) ∧
    (let s := twinCrf 4 5 5
     s.aonUp = true ∧ s.pathOpen .crf 3 (lmsg 2 5 5 7) = true ∧ s.twinTest (lmsg 2 5 5 7) 40 16 2 7 = 0 ∧ u8 (lmsg 2 5 5 7) 1 = lmAck ∧ u32 (lmsg 2 5 5 7) 4 = s.epochHeld ∧ s.lease = lsHolder ∧
     s.now + 7 < s.tw.expiry ∧ s.tw.renews.find? (fun r => decide (r.1 = 7)) = some (7, 5000)) ∧
    (let s := twin 3 5 6
     s.twinTest (lmsg 4 6 6 7) 40 16 2 7 = 0 ∧ u8 (lmsg 4 6 6 7) 1 = lmGrant ∧ s.epochSeen ≤ s.epochHeld ∧ u32 (lmsg 4 6 6 7) 12 = s.tw.num ∧
     s.lease = lsClaiming ∧ s.twinTest (lmsg 5 6 6 7) 40 16 2 7 = 0 ∧ u32 (lmsg 5 6 6 7) 8 ≤ s.epochHeld) := by decide +kernel

def standby (dead solo : Nat) : State :=
  let s := withF (twin 2 5 0) [(Fld.TW_STATUS_PEER_DEAD, dead), (Fld.TW_CFG_SOLO_EN, solo)]
  { s with tw := { s.tw with dutyOff := some 0 } }
theorem witness_leaseTimers :
    (let s := standby 0 0
     s.aonUp = true ∧ s.isl.mainOff = false ∧ s.lease = lsStandby ∧ s.epochSeen + 1 < 2 ^ 32 ∧ s.fld Fld.TW_STATUS_PEER_DEAD = 0 ∧ s.tw.dutyOff = some 0 ∧
     max s.tw.guard (0 + s.leaseTime) + s.leaseTime ≤ s.now + 6000000000000 ∧ s.now + 0 < max s.tw.guard (0 + s.leaseTime)) ∧
    (let s := standby 1 1
     s.lease = lsStandby ∧ s.fld Fld.TW_STATUS_PEER_DEAD = 1 ∧ s.fld Fld.TW_CFG_SOLO_EN = 1 ∧ s.tw.guard ≤ s.now + 7) ∧
    (let s := twin 3 5 6
     s.lease = lsClaiming ∧ s.tw.claimAt + 2 * s.renewTime ≤ s.now + 6000000000000) ∧
    (let s := twin 4 5 5
     s.lease = lsHolder ∧ s.now + 0 < s.tw.renewAt + s.renewTime ∧ s.now + 600000000000 < s.tw.expiry ∧ s.tw.renewAt + s.renewTime ≤ s.now + 600000000000 ∧
     s.tw.expiry ≤ s.now + 6000000000000) ∧
    ({ standby 0 0 with isl := { (standby 0 0).isl with mainOff := true } }).isl.mainOff = true := by decide +kernel

theorem witness_leaseCommands :
    (let s := twin 2 5 0
     s.aonUp = true ∧ s.isl.mainOff = false ∧ (s.begun 7).busy Reg.TW_LEASE_CMD = false ∧ s.lease = lsStandby ∧ s.epochSeen + 1 < 2 ^ 32 ∧ s.lease ≠ lsLearn) ∧
    (let s := twin 4 5 5
     s.lease = lsHolder ∧ s.now + 7 < s.tw.expiry ∧ (s.begun 7).busy Reg.TW_LEASE_CMD = false) ∧
    ((standby 1 0).fld Fld.TW_STATUS_PEER_DEAD = 1 ∧ (standby 1 0).lease = lsStandby ∧ (standby 1 0).epochSeen + 1 < 2 ^ 32) ∧
    ((twin 1 5 0).lease = lsLearn ∧ (twin 1 5 0).fld Fld.TW_STATUS_PEER_DEAD = 0) ∧
    (let s := { twin 2 4294967295 0 with isl := { (twin 2 5 0).isl with mainOff := true } }
     s.aonUp = true ∧ (s.begun 7).busy Reg.TW_LEASE_CMD = false ∧ s.lease ≠ lsHolder ∧ s.isl.mainOff = true ∧ s.epochSeen = 2 ^ 32 - 1) ∧
    ({ base with goBusy := SMap.ins base.goBusy Reg.TW_LEASE_CMD 1000 }.begun 7).busy Reg.TW_LEASE_CMD = true := by decide +kernel

def mirrorRx (a : Nat) : List Byte :=
  [0x10, 1] ++ beBytes 2 1 ++ beBytes 4 9 ++ beBytes 4 99 ++ [3, 1, 0, 0] ++ beBytes 4 a ++ beBytes 4 0x80000005
def mirrorOn1 (last : Option Nat) : State :=
  let s := withF (twin 2 5 0) [(Fld.TW_MIRROR_CTRL_EN, 1), (Fld.TW_MIRROR_CTRL_AUDIT_EN, 1)]
  { s with tw := { s.tw with mseqRx := last, digests := [(7, [1, 2, 3]), (6, [0, 0, 0])], lastDiff := 3, diffSec := some 6 } }
def auditMsg : List Byte := [0x11, 1, 0, 3] ++ beBytes 4 7 ++ beBytes 4 99 ++ beBytes 4 1 ++ beBytes 4 9 ++ beBytes 4 9
def auditAt (s : State) : State := { s with time := { s.time with raw := 600000000 * 2 ^ 40 } }
theorem witness_mirrorAndAudit :
    (let s := mirrorOn1 (some 4)
     s.mainUp = true ∧ s.mirrorOn = true ∧ u32 (mirrorRx 0x1010000) 8 = (s.reg Reg.TW_PAIR_ID).toNat ∧ u16 (mirrorRx 0x1010000) 2 = 1 ∧
     u8 (mirrorRx 0x1010000) 12 = 3 ∧ u8 (mirrorRx 0x1010000) 13 = 1 ∧ u32 (mirrorRx 0x1010000) 16 = 0x1010000 ∧ plRws 0x1010000 = true ∧
     u32 (mirrorRx 0x1010000) 4 ≠ (4 + 1) % 2 ^ 32 ∧ s.auditOn = true ∧ u32 auditMsg 8 = (s.reg Reg.TW_PAIR_ID).toNat ∧ 7 % 2 ^ 32 = u32 auditMsg 4 ∧
     s.tw.diffSec = some 6 ∧ s.tw.digests.head?.map (fun x => x.1) = some 7 ∧ bitOf s.tw.lastDiff 0 = true) ∧
    ((auditAt (mirrorOn1 none)).auditOn = true ∧ 500000000 ≤ ((auditAt (mirrorOn1 none)).begun 7).hmNs % 1000000000 ∧
      (auditAt (mirrorOn1 none)).tw.auditSec = none ∧ 1518 ≤ ((auditAt (mirrorOn1 none)).begun 7).mtu 0 ∧
      (((auditAt (mirrorOn1 none)).begun 7).drawn.anvilCells (1 - ((auditAt (mirrorOn1 none)).begun 7).pool.avCells.length)).1 = true) ∧
    ((twin 4 5 5).begun 7).duty = true ∧ (base.begun 7).duty = false ∧ base.mirrorOn = false ∧ base.auditOn = false := by decide +kernel

/-- Ring 2 of a kind with given contents, its CQ ring 1 enabled; 16 entries each. -/
def ringOf (kind : Nat) (x : Ring) : State :=
  let s := st [(Fld.HI_RING_CFG_EN 2, 1), (Fld.HI_RING_CFG_KIND 2, kind), (Fld.HI_RING_CFG_LOG2SIZE 2, 4), (Fld.HI_RING_CFG_CQ 2, 1),
    (Fld.HI_RING_CFG_EN 1, 1), (Fld.HI_RING_CFG_KIND 1, 3), (Fld.HI_RING_CFG_LOG2SIZE 1, 4)]
  ((({ s with bt := { s.bt with regions := [(5, [])] } }).setRing 1 { Ring.reset with state := 1 }).setRing 2 x)
/-- An enabled ring. -/
def ringUp : Ring := { Ring.reset with state := 1 }
theorem witness_beforeImage :
    (base.reaches .pcie (Reg.HI_RING_CFG 5) 0 = true ∧ base.bt.regions = [] ∧ (base.ring 5).state = ringIdle ∧
      bitsOf (0x02000000 : Word).toNat 28 3 ≠ kindCmd ∧ bitsOf (0x02000000 : Word).toNat 28 3 ≠ kindCq) ∧
    (base.reaches .i2c (Reg.HI_RING_CFG 5) 0 = true ∧ bitsOf (0x32000000 : Word).toNat 28 3 = kindCq ∧ 4 ≤ bitsOf (0x32000000 : Word).toNat 23 5) := by
  decide +kernel

/-- A job of a ring; it holds no cells. -/
theorem witness_ringControls :
    (let s := ringOf 0 Ring.reset
     s.reaches .pcie (Reg.HI_RING_CFG 2) 0 = true ∧ s.bt.regions ≠ [] ∧ (s.ring 2).state = ringIdle ∧ bitsOf (0x02000800 : Word).toNat 28 3 = 0 ∧
     bitsOf (0x02000800 : Word).toNat 23 5 = 4 ∧ bitsOf (0x02000800 : Word).toNat 11 12 = 1 ∧ s.rOn 1 = true ∧ s.rKind 1 = kindCq ∧ s.rOn 3 = false) ∧
    (let s := ringOf 0 { ringUp with jobs := [jobOf 0 1 []] }
     (s.ring 2).state = ringEnabled ∧ s.rSubmits 2 = true ∧ s.rSubmits 1 = false ∧ s.cqNamed 1 = true ∧ s.reaches .pcie (Reg.HI_RING_CTRL 2) 0 = true ∧
     s.mainUp = true ∧ s.pciRuns = true ∧ s.jn.soon = [] ∧ s.jn.lostDue = 0 ∧ s.jn.queue = [] ∧ s.jn.tick ≠ (s.now + 240) / 240 ∧ s.loadBegun 2 (jobOf 0 1 []) = false) ∧
    ((ringOf 4 ringUp).rSubmits 2 = false ∧ (ringOf 4 ringUp).rKind 2 ≠ kindCq ∧ ((ringOf 4 ringUp).ring 2).state = ringEnabled) ∧
    ((ringOf 1 { ringUp with state := 2 }).ringQuiet 2 = true ∧ ((ringOf 1 { ringUp with state := 2 }).ring 2).state = ringDraining) ∧
    (let s := (withF base [(Fld.GL_INT_STATUS_STAGE_CHG, 1)]).setReg (Reg.GL_INT_EN) 0xFFFFFFFF
     let u := s.setReg (0xC0000 + 4 * 438) 0x80000003
     (3 ∈ (u.begun 7).raised) ∧ 4 ∉ (u.begun 7).raised ∧ bitOf (SMap.get msixReset u.hi.table 15).toNat 0 = true ∧
     u.msixOpen = false ∧
     (let w := { u with hi := { u.hi with table := [(15, 0)], pci := { u.hi.pci with msixEn := true } } }
      3 ∈ (w.begun 7).raised ∧ bitOf (SMap.get msixReset w.hi.table 15).toNat 0 = false ∧ w.msixOpen = true)) := by decide +kernel

theorem witness_doorbells :
    (let s := ringOf 0 { ringUp with dev := 20, host := 24 }
     s.mainUp = true ∧ s.pciRuns = true ∧ s.rN 2 = 16 ∧ s.rSubmits 2 = true ∧ posDiff 16 24 20 ≤ posDiff 16 (0 * 16 + 4) 20 ∧ posDiff 16 4 20 ≤ 16 ∧
     16 < posDiff 16 5 20 ∧ posDiff 16 23 20 < posDiff 16 24 20) ∧
    (let s := ringOf 4 { ringUp with dev := 5 }
     s.rSubmits 2 = false ∧ posDiff (s.rN 2) 5 5 ≤ posDiff (s.rN 2) 5 0 ∧ posDiff (s.rN 2) 5 0 < posDiff (s.rN 2) 5 6) ∧
    (let s : State := { base with hi := { base.hi with pba := [3], unarmed := [3], pci := { base.hi.pci with msixEn := true } } }
     3 ∈ s.hi.pba ∧ 3 ∈ s.hi.unarmed ∧ s.msixOpen = true ∧ s.pciRuns = true ∧ s.mainUp = true) ∧
    ({ base with hi := { base.hi with pci := { base.hi.pci with d3 := true } } } : State).pciRuns = false := by decide +kernel

/-- An entry's words: flags with LEN and TAG, then words 3 to 5. -/
def entryOf (w2 w3 w4 w5 : Word) : List Word := [0x1000, 2, w2, w3, w4, w5, 0, 0]
/-- A ring that owns one entry. -/
def owns (kind : Nat) : State := ringOf kind { ringUp with dev := 3, host := 4 }
theorem witness_entries :
    ((ringOf 0 ringUp).entryDue 2 = false ∧ (owns 0).entryDue 2 = true ∧ (owns 1).entryDue 2 = true ∧ (owns 2).entryDue 2 = true ∧ (owns 2).mainUp = true) ∧
    (let s := (owns 0).setReg (Reg.TW_SGL_RING 0) 4
     bitOf (s.reg (Reg.TW_SGL_RING (2 / 32))).toNat (2 % 32) = true ∧ (s.begun 7).duty = false ∧ s.entryDue 2 = true ∧ (s.ring 2).held = none ∧
     bitOf ((owns 0).reg (Reg.TW_SGL_RING (2 / 32))).toNat (2 % 32) = false ∧ (s.ring 2).abortAt = [] ∧ (s.ring 2).jobs = []) ∧
    (let a := jobOf 0 1 (((entryOf 0xC0400009 5 0 0).drop 3).take 5)
     a.fwd ≠ 3 ∧ a.ptpAct ≠ 3 ∧ a.w 5 % 2 ^ 30 < 1000000000 ∧ a.fwd ≠ 2 ∧ a.dwEn = false) ∧
    (bitOf (0xC0400009 : Word).toNat 31 = true ∧ bitOf (0xC0400009 : Word).toNat 30 = true ∧ bitsOf (0xC0400009 : Word).toNat 16 14 = 64 ∧
      bitOf (0x80400009 : Word).toNat 30 = false ∧ bitsOf (0xC0000009 : Word).toNat 16 14 = 0 ∧ bitOf (0x40400009 : Word).toNat 31 = false ∧
      bitsOf (0xC03F0009 : Word).toNat 16 14 < 64 ∧ bitsOf (0xC0400009 : Word).toNat 30 2 = 3 ∧ bitsOf (0x10000000 : Word).toNat 28 4 = 1) ∧
    (let s := ringOf 0 { ringUp with parked := some 0, cur := some { jobOf 0 1 [] with ready := false } }
     (s.ring 2).parked = some 0 ∧ (s.ring 2).cur.isSome ∧ s.fld (Fld.HI_RING_CHAIN_TO_TIMEOUT 2) ≠ 0 ∧
     0 + s.fld (Fld.HI_RING_CHAIN_TO_TIMEOUT 2) * tUs ≤ s.now + 60000000000 ∧ s.now + 7 < s.fld (Fld.HI_RING_CHAIN_TO_TIMEOUT 2) * tUs) := by
  decide +kernel

/-- A TX ring with one job that waits for its frame, to port 5. -/
def fetches (cells : List Nat) : State := ringOf 0 { ringUp with jobs := [{ jobOf 0 1 [5, 0, 0, 0, 0] with cells := cells }] }
theorem witness_fetches :
    (let s := fetches [7]
     s.mainUp = true ∧ (s.fetchJob 2).isSome ∧ (s.jobFate (jobOf 0 1 [5, 0, 0, 0, 0])).isSome ∧
     cellsFor (max 60 64 + 4) ≤ [7].length) ∧
    ((owns 2).rKind 2 = kindCmd ∧ (owns 2).entryDue 2 = true ∧ ((owns 2).ring 2).state = ringEnabled) ∧
    ((ringOf 0 ringUp).jobFate (jobOf 0 1 [144, 0, 0, 0, 0]) = none ∧ (ringOf 0 ringUp).fetchJob 2 = none ∧ (ringOf 0 ringUp).entryDue 2 = false ∧
      (owns 1).entryDue 2 = true ∧ (owns 0).rKind 2 ≠ kindRx) := by decide +kernel

/-- A TX ring that skips the rest of a chain, with an abort asked for entry 3, which is the next. -/
def skips (x : Ring) : State := (ringOf 0 { x with dev := 3, host := 4, skip := true }).setReg (Reg.HI_RING_ABORT 2) 0x10003
/-- A chain whose error is held back. -/
def holdsErr : Ring := { ringUp with jobs := [{ jobOf 0 1 [] with ready := false }], held := some (0, stBadLen) }
theorem witness_abortsSkipped :
    (let s := (skips { ringUp with abortAt := [3] }).setF (Fld.HI_RING_ABORT_RESULT 2) abAborted
     s.entryDue 2 = true ∧ s.rKind 2 ≠ kindRx ∧ (s.ring 2).skip = true ∧ (s.ring 2).held = none ∧ (s.ring 2).dev % s.rN 2 ∈ (s.ring 2).abortAt ∧
     s.fld (Fld.HI_RING_ABORT_INDEX 2) = (s.ring 2).dev % s.rN 2 ∧ s.fld (Fld.HI_RING_ABORT_RESULT 2) = abAborted) ∧
    (let s := skips holdsErr
     s.entryDue 2 = true ∧ (s.ring 2).skip = true ∧ (s.ring 2).held = some (({ jobOf 0 1 [] with ready := false } : Job).num, stBadLen) ∧ s.mainUp = true) := by
  decide +kernel
theorem witness_aborts :
    (({ base with goBusy := [(Reg.HI_RING_ABORT 2, 1000)] } : State).busy (Reg.HI_RING_ABORT 2) = true ∧ base.busy (Reg.HI_RING_ABORT 2) = false ∧
      base.rOn 2 = false) ∧
    (let s := owns 0
     s.rSubmits 2 = true ∧ s.rOn 2 = true ∧ s.rN 2 = 16 ∧ (3 + 16 - 3 % 16) % 16 < posDiff 16 4 3) ∧
    (let s := fetches []
     posDiff 16 (s.ring 2).host (s.ring 2).dev ≤ (3 + 16 - (s.ring 2).dev % 16) % 16 ∧ (jobOf 0 1 []).covers 16 3 = true ∧
     s.jobPassed 2 (jobOf 0 1 []) = false ∧ s.jobPassed 2 { jobOf 0 1 [] with passed := true } = true) ∧
    (let s := ringOf 0 { ringUp with cur := some { jobOf 0 1 [] with ready := false } }
     (s.ring 2).jobs = [] ∧ s.rOn 2 = true ∧ s.rSubmits 2 = true ∧ posDiff 16 (s.ring 2).host (s.ring 2).dev ≤ (3 + 16 - (s.ring 2).dev % 16) % 16) ∧
    (let s := ringOf 1 { ringUp with bufs := [(0x9000, 128, 7, 3)] }
     (s.ring 2).cur = none ∧ (s.ring 2).jobs = [] ∧ s.rSubmits 2 = true) ∧
    (let s := ringOf 0 { ringUp with dev := 3, host := 4, abortAt := [3] }
     s.entryDue 2 = true ∧ s.rKind 2 ≠ kindRx ∧ (s.ring 2).dev % s.rN 2 ∈ (s.ring 2).abortAt) := by decide +kernel

/-- A completion waits for CQ 1. -/
def waits (ws : List Word) : State := (ringOf 2 ringUp).setWaiting 1 [(2, ws, 4, 2)]
/-- A copy of a frame waits in pipeline 3's copy queue for ring 2. -/
def copies (kind : Nat) (x : Ring) : State :=
  let s := (ringOf kind x).setFrame 6 { Frame.fresh (List.replicate 64 9) [] 0 0 3 0 5 77 88 with ref := 1 }
  s.setQueue (cpyId 3) [⟨6, 4098, 0, cpyId 3, 0, false, false, some 8, [], List.replicate 64 9⟩]
theorem witness_completions :
    (let s := waits [1, 2, 3]
     s.mainUp = true ∧ s.pciRuns = true ∧ s.waitingOf 1 = [(2, [1, 2, 3], 4, 2)] ∧ s.rOn 1 = true ∧ s.rKind 1 = kindCq ∧ 2 ≤ s.rFree 1 ∧ s.rOn 7 = false) ∧
    (let s := ((ringOf 2 ringUp).setReg (Reg.HI_RING_CFG2 1) 0x80050001).setRing 1 { ringUp with u := 1 }
     3 ≤ s.rKind 1 ∧ s.rCfg2 1 31 1 = 1 ∧ (s.ring 1).uAt + s.rCfg2 1 0 8 * tUs ≤ s.now + 60000 ∧ s.now + 7 < (s.ring 1).uAt + s.rCfg2 1 0 8 * tUs) ∧
    (let s := copies 1 { ringUp with bufs := [(0x9000, 128, 7, 3)] }
     (s.queue (copyQueue 3)).length = 1 ∧ (s.frame? 6).map (fun f => f.host.isNone) = some true ∧ s.rOn 2 = true ∧ s.rKind 2 = kindRx ∧ s.snapLen 2 64 ≤ 128 ∧ 0 < s.snapLen 2 64 ∧
     s.rOn (s.rCq 2) = true ∧ s.rKind (s.rCq 2) = kindCq ∧ 2 ≤ s.rFree (s.rCq 2)) ∧
    ((copies 0 ringUp).rKind 2 ≠ kindRx ∧ ((copies 1 { ringUp with host := 1 }).ring 2).dev ≠ ((copies 1 { ringUp with host := 1 }).ring 2).host ∧
      base.queue (copyQueue 3) = []) := by decide +kernel

/-- A CMD ring with one job of a CMD and MODE. -/
def cmdJob (w3 w6 : Word) : State := ringOf 2 { ringUp with jobs := [{ jobOf 0 1 [w3, 0x1000, 0, w6, 0] with payload := List.replicate 32 7 }] }
theorem witness_imagesAndReports :
    ((cmdJob 0x24000000 0).mainUp = true ∧ (cmdJob 0x24000000 0).loadJob 2 9 1 ≠ none ∧ (cmdJob 0x28000000 0).loadJob 2 9 2 ≠ none ∧
      (cmdJob 0x20000000 0).loadJob 2 9 0 ≠ none ∧ (cmdJob 0x20000000 0).loadJob 2 8 0 = none ∧ base.attestJob 2 = none) ∧
    (let s := cmdJob 0x30000000 17344
     s.attestJob 2 ≠ none ∧ s.secState = 1 ∧ blankSecret s.sg.seed = false ∧ 17344 ≤ ({ jobOf 0 1 [0x30000000, 0x1000, 0, 17344, 0] with payload := [] } : Job).w 6 % 2 ^ 16 ∧
     ({ s with sg := { s.sg with fuseState := 0 } } : State).secState = 0) ∧
    (let s := (withF (cmdJob 0x30000000 17344) [(Fld.HI_RING_CFG_KIND 9, 2)]).setRing 9 ((cmdJob 0x30000000 17344).ring 2)
     s.attestWaits 9 ≠ none ∧ (2, s.ring 2) ∈ s.hi.rings ∧ s.attestWaits 2 ≠ none ∧ s.attestJob 9 = none ∧ s.attestJob 2 ≠ none) := by decide +kernel

/-- A state in a boot stage. -/
def staged (n src : Nat) : State := st [(Fld.GL_BOOT_STATUS_STAGE, n), (Fld.GL_BOOT_STATUS_BOOT_SRC, src)]
/-- The header of an image with a SEQ. -/
def imgHead (seq : Nat) : List Byte :=
  [0x45, 0x4C, 0x44, 0x4E, 1, 0, 0x44, 0x91, 0xA1, 0, 0, 0] ++ leBytes 4 seq ++ leBytes 4 64 ++ leBytes 4 29928 ++ List.replicate 40 0
/-- An image in DEFAULTS with one section, which is its DEFAULTS region. -/
def defaulting (bs : List Byte) : State :=
  let im := List.replicate 16 0 ++ leBytes 4 (72 + bs.length) ++ List.replicate 44 0 ++ [8, 1, 0, 0] ++ leBytes 4 bs.length ++ bs
  { staged 5 0 with bt := { base.bt with image := im } }
theorem witness_bootStages :
    ((staged 15 0).mainUp = true ∧ (staged 15 0).stage = stHeld ∧ (staged 0 2).stage = stRom ∧ (staged 0 2).rst.aonReady = true ∧ (staged 0 2).secState ≠ 3 ∧
      (staged 0 2).stage ≠ stHeld ∧ (staged 15 0).stage ≠ stRom) ∧
    (let s := staged 1 0
     s.stage = stRead ∧ s.slotTried 0 = false ∧ s.slotTried 1 = false ∧ s.slotOk (imgHead 4) = true ∧ s.slotOk [] = false ∧ imgSeq (imgHead 4) < imgSeq (imgHead 5)) ∧
    ((staged 2 0).stage = stVerify ∧ (staged 2 0).bt.source = 0 ∧ (staged 2 0).slotCand 1 = false) ∧
    (let s : State := { staged 2 0 with bt := { base.bt with source := 1, slot0 := imgHead 4 } }
     s.stage = stVerify ∧ s.slotCand 0 = true) ∧
    ((staged 4 0).stage = stDomains ∧ (staged 5 0).stage = stDefaults ∧ payload (staged 5 0).bt.image 8 = [] ∧ (staged 5 0).bt.reload = none ∧
      (let s := defaulting (leBytes 4 0x03000003 ++ leBytes 4 0x400000 ++ leBytes 4 1 ++ leBytes 4 9)
       payload s.bt.image 8 = leBytes 4 0x03000003 ++ leBytes 4 0x400000 ++ leBytes 4 1 ++ leBytes 4 9 ∧ s.stage = stDefaults ∧ s.mainUp = true ∧
       s.absent 0x400000 = false ∧ (regAt 0x400000).isSome = true ∧ (fieldsAt 0x400000).all (fun f => decide (f.ty = .rw)) = true) ∧
      (let ws : List Word := [0x1C000000, 0, 0, 0, 0, 0, 0, 0]
       let s := defaulting (leBytes 4 0x02000008 ++ wordsLe ws ++ [0, 0, 0, 0])
       payload s.bt.image 8 = leBytes 4 0x02000008 ++ wordsLe ws ++ [0, 0, 0, 0] ∧ (⟨ws⟩ : TC).op = 1 ∧ 6 ≤ (⟨ws⟩ : TC).table ∧
       s.planeOn (⟨ws⟩ : TC).plane = true ∧ (⟨ws⟩ : TC).bcast = false ∧ s.bt.reload = none ∧ s.bt.source = 0) ∧
      (staged 6 0).stage = stSelftest ∧ (staged 6 0).isl.keep = false ∧ (staged 6 0).fld Fld.GL_BOOT_STATUS_EARLY_FWD = 0 ∧
      (st [(Fld.GL_BOOT_STATUS_STAGE, 6), (Fld.GL_BOOT_STATUS_EARLY_FWD, 1)]).fld Fld.GL_BOOT_STATUS_EARLY_FWD = 1) := by decide +kernel

/-- A state at a debug level. -/
def level (l : Nat) : State := st [(Fld.SG_STATUS_DEBUG, l)]
theorem witness_signetCommands :
    (({ base with goBusy := [(Reg.SG_CMD, 1000)] } : State).busy Reg.SG_CMD = true ∧ base.reaches .pcie Reg.SG_CMD 0 = true ∧
      base.reaches .pcie Reg.SG_CMD 0x20000000 = true ∧ base.reaches .pcie Reg.SG_CMD 0x40000000 = true ∧ base.reaches .i2c Reg.SG_CMD 0x20000000 = true ∧
      base.busy Reg.SG_CMD = false ∧ base.mainUp = true) ∧
    (base.secState ≠ 3 ∧ (st [(Fld.GL_IMAGE_INFO_SVN, 5)]).sg.svn < (st [(Fld.GL_IMAGE_INFO_SVN, 5)]).fld Fld.GL_IMAGE_INFO_SVN ∧
      base.fld Fld.GL_IMAGE_INFO_SVN ≤ base.sg.svn ∧ ({ base with sg := { base.sg with fuseState := 7 } } : State).secState = 3) ∧
    ((level 3).dbgLevel = lvMaker ∧ (level 1).dbgLevel = lvObserve ∧ base.dbgLevel = lvNone ∧ (level 2).dbgLevel = lvInspect) := by decide +kernel
theorem witness_tokenRefused : base.tokenCheck .pcie base.tokenBytes ≠ rcOk := by decide +kernel
/-- A token of KIND Inspect in the buffer, for a device whose UID and nonce are zeros. -/
def tokening : State :=
  { (base.setReg (Reg.SG_TOKEN_BUF 0) 0x4B54504C).setReg (Reg.SG_TOKEN_BUF 1) 0x00000101 with sg := { base.sg with uid := 0 } }
/-- It passes where its signature does, whose verification has no value here (notes/assumptions/3.md). -/
theorem witness_tokenPasses
    (h : Config.slhVerify (byteSlice tokening.tokenBytes 64 64) (tokening.tokenBytes.take 64) (byteSlice tokening.tokenBytes 128 29792) = true) :
    tokening.reaches .pcie Reg.SG_CMD 0 = true ∧ tokening.busy Reg.SG_CMD = false ∧ u8 tokening.tokenBytes 5 = tkInspect ∧
    tokening.tokenCheck .pcie tokening.tokenBytes = rcOk := by
  refine ⟨by decide +kernel, by decide +kernel, by decide +kernel, ?_⟩
  unfold State.tokenCheck
  simp only [h]
  rw [if_neg (by decide +kernel), if_neg (by decide +kernel), if_neg (by decide +kernel), if_neg (by decide +kernel), if_neg (by decide +kernel),
    if_neg (by decide +kernel)]
  rfl

/-- A device in Doze with measures taken. -/
def dozing (gated lanes banks : Nat) : State :=
  st [(Fld.PW_STATUS_STATE, 1), (Fld.PW_CTRL_TARGET, 1), (Fld.PW_STATUS_PG_GATED, gated), (Fld.PW_STATUS_LANE1_OFF, lanes), (Fld.PW_BANK_RET_BANKS, banks)]
/-- The main rails are gone. -/
def kept : State := { base with isl := { base.isl with mainOff := true } }
theorem witness_powerStates :
    (base.aonUp = true ∧ base.mainUp = true ∧ base.fld Fld.PW_STATUS_STATE = 0 ∧ kept.mainUp = false ∧ kept.aonUp = true ∧ (twin 4 5 5).twinOn = true) ∧
    ((dozing 5 6 7).fld Fld.PW_STATUS_STATE = 1 ∧ bitOf ((dozing 5 6 7).fld Fld.PW_STATUS_PG_GATED) 2 = true ∧ (dozing 0 6 7).pw.wakeAt = [] ∧
      (dozing 0 6 7).fld Fld.PW_STATUS_PG_GATED = 0) ∧
    (let s : State := { base with isl := { base.isl with keep := true } }
     s.isl.keep = true ∧ s.fld Fld.PW_STATUS_KEEP_READY = 0 ∧ s.fuseBusy = false ∧ s.sgWork = false ∧ base.isl.keep = false) ∧
    (let s := dozing 0 0 0
     s.doze = true ∧ s.groupOn 3 = true ∧ s.pgAsleep 3 = false ∧ (s.begun 60000000).pgIdle 3 = true ∧ SMap.get (fun _ => 0) s.pw.regAt 3 ≤ s.now + 60000000 ∧ s.laneOff 3 = false ∧
     SMap.get (fun _ => 0) s.pw.laneAt 3 + max (s.fld Fld.PW_DOZE_CFG_LANE_IDLE_US) 1 * tUs ≤ s.now + 60000000 ∧ (s.begun 60000000).pool.cells = [] ∧
     max ((s.begun 60000000).bankFreed 31) (SMap.get (fun _ => 0) s.pw.bankAt 31) + max (s.fld Fld.PW_DOZE_CFG_BANK_IDLE_US) 1 * tUs ≤ s.now + 60000000 ∧
     s.now + 7 < SMap.get (fun _ => 0) s.pw.laneAt 3 + max (s.fld Fld.PW_DOZE_CFG_LANE_IDLE_US) 1 * tUs ∧
     s.now + 7 < max ((s.begun 7).bankFreed 31) (SMap.get (fun _ => 0) s.pw.bankAt 31) + max (s.fld Fld.PW_DOZE_CFG_BANK_IDLE_US) 1 * tUs ∧
     base.doze = false) ∧
    ((dozing 0 8 0).laneOff 3 = true ∧ max ((dozing 0 8 0).fld Fld.PW_DOZE_CFG_LANE_WAKE) 1 ≤ 16 ∧ (SMap.look ({ base.pw with wakeAt := [(3, 1)] } : Power).wakeAt 3).isSome = true) := by decide +kernel

/-- AON_RST_N is low. -/
def aonLow (cold : Bool) : State := { base with isl := { base.isl with aonRst := true }, rst := { base.rst with cold := cold, aonReady := false } }
theorem witness_resetsAndPins :
    (base.aonUp = true ∧ base.isl.mainOff = false ∧ kept.isl.mainOff = true ∧ base.isl.sysRst = false ∧ (twin 3 5 5).twinOn = true ∧
      (base.begun 7).fuseBusy = false ∧ base.railsOk = true ∧ kept.railsOk = false ∧ (withF kept [(Fld.PW_STATUS_MAIN_OK, 1)]).railsOk = true ∧
      kept.mainUp = false ∧ (twin 3 5 5).lease = lsClaiming) ∧
    (let s : State := { base with sg := { base.sg with svn := 5, fuseEnd := 1000, prog := some (.advance 2) } }
     (s.begun 7).fuseBusy = true ∧ s.sg.prog = some (.advance 2) ∧ 2 ≤ s.sg.svn) ∧
    (let s : State := { base with isl := { base.isl with sysRst := true } }
     s.aonUp = true ∧ s.isl.sysRst = true ∧ s.isl.mainOff = false) ∧
    (base.isl.off = false ∧ base.isl.aonRst = false ∧ (aonLow true).isl.aonRst = true ∧ (aonLow true).rst.cold = true ∧ (aonLow false).rst.cold = false) ∧
    (let s : State := { base with rst := { base.rst with aonReady := false } }
     s.aonUp = true ∧ s.rst.aonReady = false ∧ s.rst.aonAt + 20 * tMs ≤ s.now + 1200000000 ∧ s.now + 7 < s.rst.aonAt + 20 * tMs ∧
     (s.begun 7).i2cMine 0x5C = false) ∧
    (base.rst.perstLow = false ∧ base.mainUp = true ∧ (base.begun 7).i2cMine 0x5C = true ∧ (base.begun 7).i2cMine 0x5D = false ∧ isAon 0x400000 = false ∧ isAon 0x30014 = true ∧
      base.multiOf 0x30014 = none ∧ fieldMask (fieldsAt 0x30014) (fun t => decide (t = .rc)) = 0) := by decide +kernel

theorem witness_stepRunsFront :
    (({ base with pending := [.portEnable 7 5, .audit 9] } : State).pending = [.portEnable 7 5, .audit 9]) ∧ base.pending = [] ∧
    (Instr.portEnable 7 5).wellFormed = true ∧ (Instr.portEnable 7 144).wellFormed = false := by decide +kernel

theorem witness_withoutMain :
    (kept.mainUp = false ∧ (Instr.portEnable 7 5).wellFormed = true ∧ (Instr.portEnable 7 5).ofPins = false ∧ (Instr.portEnable 7 5).ofAon = false ∧
      (Instr.portEnable 7 5).ofI2c = false ∧ (Instr.commit 7 .i2c 1).ofI2c = true ∧ (Instr.commit 7 .i2c 1).wellFormed = true) ∧
    ((aonLow true).aonUp = false ∧ (Instr.audit 7).ofPins = false) := by decide +kernel

theorem witness_invKept :
    let s : State := { State.reset with pending := [.portEnable 7 5] }
    s.Inv ∧ ∃ t, step s = .next t := by
  have h : ({ State.reset with pending := [.portEnable 7 5] } : State).raised = [] := by decide +kernel
  refine ⟨⟨?_, ⟨rfl, rfl⟩, ?_⟩, _, rfl⟩
  · unfold Time.ok
    decide +kernel
  · unfold State.noArmedRaised
    simp [h]

end Sys2Proof.Machine.Tests
end

/-! ### A step and the command at the front of the queue -/

section
namespace Sys2Proof.Machine

/-- The frame of `State.cmd` is around the meaning of every row of the table. -/
theorem exec_eq_cmd (c : Instr) (s : State) : ∃ dt f, exec c s = s.cmd c.wellFormed dt f := by
  cases c <;> exact ⟨_, _, rfl⟩

@[simp] theorem State.run_pending (s : State) (dt : Nat) (f : State → State) : (s.run dt f).pending = s.pending :=
  State.settle_pending _ _ _

theorem State.cmd_refused (s : State) (dt : Nat) (f : State → State) : s.cmd false dt f = .refused .illFormed := rfl

/-- A command whose operands the device has answers a next state, and leaves the queue alone. -/
theorem exec_next_of_wellFormed (s : State) (c : Instr) (h : c.wellFormed = true) :
    ∃ t, exec c s = .next t ∧ t.pending = s.pending := by
  obtain ⟨dt, f, e⟩ := exec_eq_cmd c s
  rw [h, State.cmd_next] at e
  exact ⟨_, e, State.run_pending s dt f⟩

/-- A command whose operands it does not have is refused. -/
theorem exec_refused_of_not_wellFormed (s : State) (c : Instr) (h : c.wellFormed = false) : exec c s = .refused .illFormed := by
  obtain ⟨dt, f, e⟩ := exec_eq_cmd c s
  rw [e, h, State.cmd_refused]

theorem step_of_pending_cons (s : State) (c : Instr) (rest : List Instr) (h : s.pending = c :: rest) :
    step s = exec c { s with pending := rest } := by
  simp [step, h]

theorem step_of_pending_nil (s : State) (h : s.pending = []) : step s = .next s := by
  simp [step, h]

/-- Settles O57: the step reads the queue, and every row runs in the frame of `State.cmd`. -/
theorem stepRunsFront : Obligations.StepRunsFront :=
  ⟨step_of_pending_cons, step_of_pending_nil, exec_next_of_wellFormed, exec_refused_of_not_wellFormed⟩

end Sys2Proof.Machine
end

/-! ### The state at reset -/

section
namespace Sys2Proof.Machine

@[simp] theorem State.reset_reg (a : Nat) : State.reset.reg a = regReset a := rfl
@[simp] theorem State.reset_actReg (a : Nat) : State.reset.actReg a = regReset a := rfl
@[simp] theorem State.reset_ctr (a : Nat) : State.reset.ctr a = 0 := rfl
@[simp] theorem State.reset_port (p : Nat) : State.reset.port p = Port.reset := rfl
@[simp] theorem State.reset_ring (r : Nat) : State.reset.ring r = Ring.reset := rfl

/-- The unit of a `CM_UNIT_GROUP` register is its own group at reset (R411). -/
theorem State.reset_unitGroup (u : Nat) (h : u < 32) : State.reset.unitGroup u = u := by
  have all : ∀ u, u < 32 → State.reset.unitGroup u = u := by decide +kernel
  exact all u h

/-- No source is mapped at reset, so no vector is raised (R367). -/
theorem State.reset_raised : State.reset.raised = [] := rfl

theorem Time.reset_ok : Time.reset.ok := by
  unfold Time.ok
  decide +kernel

theorem State.reset_inv : State.reset.Inv :=
  ⟨Time.reset_ok, ⟨rfl, rfl⟩, fun v h => by simp [State.reset_raised] at h⟩

/-- Settles O58: nothing is listed in the maps of `State.reset`, so each reads its default. -/
theorem resetState : Obligations.ResetState :=
  ⟨State.reset_reg, State.reset_actReg, State.reset_ctr, rfl, by decide +kernel, rfl, rfl, State.reset_port,
    fun r => by rw [State.reset_ring]; rfl, rfl, State.reset_unitGroup, by decide +kernel, State.reset_inv⟩

end Sys2Proof.Machine
end

/-! ### CANCEL of a timed-commit slot, written through the register bus (R322) -/

section
namespace Sys2Proof.Machine

/-- Timed-commit slot 0 is armed for a TIME of 1 s; the Hallmark counter stands at 0. -/
def slotArmedAhead : State := (State.reset.setReg (Reg.CM_TIMED_TIME1 0) 1).setF (Fld.CM_TIMED_CTRL_ARM 0) 1

/-- A write of `CM_TIMED_CTRL` with CANCEL at 1, which is a WO field, and the register's one SC field, ARM, at 0. -/
def cancelWrite : BitVec 64 := 0x40000000

/-- The write disarms the slot: ARM, which read 1, reads 0. -/
theorem registerWrite_cancel_disarms :
    ∃ t, exec (.registerWrite 0 .pcie (Reg.CM_TIMED_CTRL 0) 0x0F cancelWrite) slotArmedAhead = .next t ∧
      bitOf (slotArmedAhead.reg (Reg.CM_TIMED_CTRL 0)).toNat 31 = true ∧ bitOf (t.reg (Reg.CM_TIMED_CTRL 0)).toNat 31 = false :=
  ⟨_, rfl, by decide +kernel, by decide +kernel⟩

theorem cancelWrite_leaves_sc_zero : ∀ i, i < 32 → bitOf (fieldMask (fieldsAt (Reg.CM_TIMED_CTRL 0)) (fun t => decide (t = .sc))) i = true →
    bitOf cancelWrite.toNat (i + 32 * (Reg.CM_TIMED_CTRL 0 % 8 / 4)) = false := by
  decide +kernel

/-- Refutes O37: its fourth clause has a write to a register with GO, with 0 in every SC bit, change the RW and W1C bits alone. `CM_TIMED_CTRL` is such a
register (ARM is its GO), and its CANCEL is of type WO: written 1 to an armed slot it clears ARM and sets RESULT, as R322 has it. -/
theorem not_registerWrites : ¬ Obligations.RegisterWrites := by
  unfold Obligations.RegisterWrites
  intro h
  obtain ⟨-, -, -, goClear, -⟩ := h
  obtain ⟨t, ht, bits, -⟩ := goClear slotArmedAhead 0 (Reg.CM_TIMED_CTRL 0) .pcie cancelWrite (by decide) (by decide) (by decide +kernel)
    (by decide +kernel) (by decide +kernel) (by decide +kernel) (by decide +kernel) (by decide +kernel) cancelWrite_leaves_sc_zero (fun _ => rfl)
  obtain ⟨t', ht', armed, disarmed⟩ := registerWrite_cancel_disarms
  have same : t' = t := by
    have e := ht'.symm.trans ht
    injection e
  have kept : bitOf (t.reg (Reg.CM_TIMED_CTRL 0)).toNat 31 = bitOf (slotArmedAhead.reg (Reg.CM_TIMED_CTRL 0)).toNat 31 := bits 31 (by decide)
  rw [same] at disarmed
  rw [disarmed, armed] at kept
  exact absurd kept (by decide)

end Sys2Proof.Machine
end

/-! ### What the stages of a frame's way keep of the fabric -/

section
namespace Sys2Proof.Machine

/-- The frames and the queues' contents are as they were, and nothing is asked of the time group. WRED and the queue lengths, which stage 6 moves, are
no part of it. -/
structure SameHeld (s t : State) : Prop where
  frames : t.fab.frames = s.fab.frames
  queues : t.fab.queues = s.fab.queues
  timeReq : t.timeReq = s.timeReq

theorem SameHeld.refl (s : State) : SameHeld s s := ⟨rfl, rfl, rfl⟩

theorem SameHeld.trans {s t u : State} (h : SameHeld s t) (g : SameHeld t u) : SameHeld s u :=
  ⟨g.frames.trans h.frames, g.queues.trans h.queues, g.timeReq.trans h.timeReq⟩

/-- An operation that leaves the fabric alone keeps what it holds. -/
theorem SameHeld.of_fab {s t : State} (hf : t.fab = s.fab) (ht : t.timeReq = s.timeReq) : SameHeld s t := ⟨by rw [hf], by rw [hf], ht⟩

theorem SameHeld.count {s t : State} (h : SameHeld s t) (a n : Nat) : SameHeld s (t.count a n) := ⟨h.frames, h.queues, h.timeReq⟩
theorem SameHeld.setF {s t : State} (h : SameHeld s t) (f : Fld) (v : Nat) : SameHeld s (t.setF f v) := ⟨h.frames, h.queues, h.timeReq⟩
theorem SameHeld.setMac {s t : State} (h : SameHeld s t) (k p : Nat) (e : MacEnt) : SameHeld s (t.setMac k p e) := ⟨h.frames, h.queues, h.timeReq⟩
theorem SameHeld.setCtr {s t : State} (h : SameHeld s t) (a v : Nat) : SameHeld s (t.setCtr a v) := ⟨h.frames, h.queues, h.timeReq⟩
theorem SameHeld.deduct {s t : State} (h : SameHeld s t) (a : Nat) (n : Int) : SameHeld s (t.deduct a n) := ⟨h.frames, h.queues, h.timeReq⟩
theorem SameHeld.noteTurn {s t : State} (h : SameHeld s t) (i : Nat) (ns : List Nat) : SameHeld s (t.noteTurn i ns) := ⟨h.frames, h.queues, h.timeReq⟩

/-- A choice between two operations. -/
theorem SameHeld.ite {s t u : State} (c : Prop) [Decidable c] (h : SameHeld s t) (g : SameHeld s u) : SameHeld s (if c then t else u) := by
  split
  · exact h
  · exact g

/-- A choice between two answers that carry a state. -/
theorem SameHeld.ite_snd_snd {α β : Type} {s : State} {x y : α × β × State} (c : Prop) [Decidable c] (h : SameHeld s x.2.2)
    (g : SameHeld s y.2.2) : SameHeld s (if c then x else y).2.2 := by
  split
  · exact h
  · exact g

theorem SameHeld.frame? {s t : State} (h : SameHeld s t) (f : Nat) : t.frame? f = s.frame? f := by
  simp [State.frame?, h.frames]

theorem SameHeld.queue {s t : State} (h : SameHeld s t) (q : Nat) : t.queue q = s.queue q := by
  simp [State.queue, h.queues]

/-- A new CD23 cycle samples the queues' lengths, not their contents (R203). -/
@[simp] theorem State.frames_begun (s : State) (dt : Nat) : (s.begun dt).fab.frames = s.fab.frames := by
  simp only [State.begun, State.newCycle]; split <;> rfl
@[simp] theorem State.queues_begun (s : State) (dt : Nat) : (s.begun dt).fab.queues = s.fab.queues := by
  simp only [State.begun, State.newCycle]; split <;> rfl
@[simp] theorem State.frame?_begun (s : State) (dt f : Nat) : (s.begun dt).frame? f = s.frame? f := by simp [State.frame?]
@[simp] theorem State.queue_begun (s : State) (dt q : Nat) : (s.begun dt).queue q = s.queue q := by simp [State.queue]
@[simp] theorem State.frame?_settle (s s0 : State) (t : Time) (f : Nat) : (s.settle s0 t).frame? f = s.frame? f := by simp [State.frame?]
@[simp] theorem State.queue_settle (s s0 : State) (t : Time) (q : Nat) : (s.settle s0 t).queue q = s.queue q := by simp [State.queue]
@[simp] theorem State.behind_begun (s : State) (dt f : Nat) (x : Frame) : (s.begun dt).behind f x = s.behind f x := by simp [State.behind]
@[simp] theorem State.laneOff_begun (s : State) (dt i : Nat) : (s.begun dt).laneOff i = s.laneOff i := by simp [State.laneOff]
@[simp] theorem State.fbState_begun (s : State) (dt : Nat) : (s.begun dt).fbState = s.fbState := by simp [State.fbState]
@[simp] theorem State.useLists_begun (s : State) (dt : Nat) : (s.begun dt).useLists = s.useLists := by
  unfold State.useLists; rw [State.fbState_begun]

@[simp] theorem State.frame?_setFrame_self (s : State) (f : Nat) (x : Frame) : (s.setFrame f x).frame? f = some x := SMap.look_ins_self _ _ _
theorem State.frame?_setFrame_ne (s : State) (f g : Nat) (x : Frame) (h : g ≠ f) : (s.setFrame f x).frame? g = s.frame? g :=
  SMap.look_ins_ne _ _ _ _ h
@[simp] theorem State.queue_setFrame (s : State) (f : Nat) (x : Frame) (q : Nat) : (s.setFrame f x).queue q = s.queue q := rfl
@[simp] theorem State.frame?_dropFrame_self (s : State) (f : Nat) : (s.dropFrame f).frame? f = none := SMap.look_del_self _ _
theorem State.frame?_dropFrame_ne (s : State) (f g : Nat) (h : g ≠ f) : (s.dropFrame f).frame? g = s.frame? g := SMap.look_del_ne _ _ _ h
@[simp] theorem State.queue_dropFrame (s : State) (f q : Nat) : (s.dropFrame f).queue q = s.queue q := rfl
@[simp] theorem State.queue_push_self (s : State) (q : Nat) (x : QEnt) : (s.push q x).queue q = s.queue q ++ [x] := SMap.get_put_self _ _ _ _
@[simp] theorem State.push_timeReq (s : State) (q : Nat) (x : QEnt) : (s.push q x).timeReq = s.timeReq := rfl

/-- A command of the main islands that does nothing leaves all as it is. -/
theorem State.cmdMain_stays (s : State) (dt : Nat) (f : State → State) (hm : s.mainUp = true) (hf : f (s.begun dt) = s.begun dt) :
    ∃ t, s.cmdMain true dt f = .next t ∧ (s.begun dt).frame t {} := by
  refine ⟨_, State.cmdMain_next s dt f hm (by simp [hf]), ?_⟩
  rw [hf]
  exact State.leaves_settle _ _ s {} (State.leaves_refl _ _) (by simp)

end Sys2Proof.Machine
end

/-! ### Stages 3 to 5 -/

section
namespace Sys2Proof.Machine

theorem State.sameHeld_fgCount (s : State) (k : Nat) (n : Option Nat) (a : Act) (len : Nat) : SameHeld s (s.fgCount k n a len) := by
  have counted : SameHeld s (if n.isNone then s.count (Ctr.plane k 0x00) 1 else s) := .ite _ ((SameHeld.refl s).count _ _) (.refl s)
  exact .ite _ ((counted.count _ _).count _ _) counted

theorem State.sameHeld_takeTokens (s : State) (n len outcome : Nat) : SameHeld s (s.takeTokens n len outcome) := by
  have h1 := SameHeld.ite (outcome = green ∧ bitOf (s.actN (polRec n)) 31)
    ((SameHeld.refl s).deduct (polRec n + 20) ((len : Int) + s.ovh (bitsOf (s.actN (polRec n)) 24 4))) (.refl s)
  exact ((SameHeld.ite _ (h1.deduct _ _) h1).count _ _).count _ _

theorem State.sameHeld_policeCopy (s : State) (k pipe len colour : Nat) (a : Act) : SameHeld s (s.policeCopy k pipe len colour a).2 := by
  have noted := (SameHeld.refl s).noteTurn pipe [a.policer]
  unfold State.policeCopy
  split
  · dsimp only
    split
    · exact noted.trans (State.sameHeld_takeTokens _ _ _ _)
    · exact noted.count _ _
  · exact .refl s

/-- The policers take tokens and count (R284 to R286). -/
theorem State.sameHeld_police (s : State) (pipe len : Nat) (ns : List Nat) (colour : Nat) : SameHeld s (s.police pipe len ns colour).2 := by
  unfold State.police
  split
  · exact .refl s
  · dsimp only
    generalize hr : List.foldl _ _ _ = r
    have metered : SameHeld s r.2.1 := by
      rw [← hr]
      refine List.foldlRecOn (motive := fun (a : Option Nat × State × Nat × Nat) => SameHeld s a.2.1) _ _ (.refl s) (fun a ha n _ => ?_)
      split
      · exact ha
      · split
        · exact ha.trans (State.sameHeld_takeTokens _ _ _ _)
        · exact ha
    split
    · exact metered
    · exact (((SameHeld.refl s).count _ _).count _ _).count _ _

theorem State.sameHeld_recoveryTimeout (s : State) (d : Nat) : SameHeld s (s.recoveryTimeout d) :=
  .ite _ ⟨rfl, rfl, rfl⟩ (.refl s)

theorem State.sameHeld_recover (s : State) (d seq : Nat) : SameHeld s (s.recover d seq).2 := by
  refine (State.sameHeld_recoveryTimeout s d).trans ?_
  unfold State.recover
  generalize s.recoveryTimeout d = u
  dsimp only
  split_ifs <;> exact .of_fab (by simp) (by simp)

theorem State.sameHeld_recoverFrame (s : State) (f : Frame) : SameHeld s (s.recoverFrame f).2.2 := by
  unfold State.recoverFrame
  split
  · exact .refl s
  · split
    · generalize (if f.src < 128 then f.srcDw else f.dstDw) = dw
      cases dw with
      | none => exact .refl s
      | some d =>
        dsimp only
        split
        · exact State.sameHeld_recover s _ _
        · exact .refl s
    · exact .refl s

/-- A number goes into the stream's registers and history (R335). -/
theorem State.sameHeld_numberFrame (s : State) (n : Nat) (f : Frame) : SameHeld s (s.numberFrame n f).2.2 := by
  delta State.numberFrame
  extract_lets _ _ _ restart _ _ _ s1 _ s2 s3
  have h2 : SameHeld s s2 := ⟨rfl, rfl, rfl⟩
  have h3 : SameHeld s s3 := .ite _ ((h2.count _ _).setF _ _) h2
  clear_value s3
  split
  · exact h3.count _ _
  · exact h3

theorem State.sameHeld_numberIn (s : State) (f : Frame) : SameHeld s (s.numberIn f).2.2 := by
  unfold State.numberIn
  split
  · exact .refl s
  · exact State.sameHeld_numberFrame s _ f

theorem State.sameHeld_msixSend (s : State) (v : Nat) : SameHeld s (s.msixSend v) := .ite _ ⟨rfl, rfl, rfl⟩ ⟨rfl, rfl, rfl⟩

theorem State.sameHeld_cqCheck (s : State) (r : Nat) : SameHeld s (s.cqCheck r) :=
  .ite _ (.trans (t := s.setRing r { s.ring r with u := 0 }) ⟨rfl, rfl, rfl⟩ (State.sameHeld_msixSend _ _)) (.refl s)

theorem State.sameHeld_cqEntry (s : State) (cq : Nat) (ws : List Word) (status ent kind ring : Nat) :
    SameHeld s (s.cqEntry cq ws status ent kind ring) := .of_fab rfl rfl

/-- A record for a SAMPLE ring stays in the host interface (R379, R390). -/
theorem State.sameHeld_samplePost (s : State) (r : Nat) (ents : List (List Word)) (kind : Nat) : SameHeld s (s.samplePost r ents kind).2 := by
  unfold State.samplePost
  split
  · exact List.foldlRecOn (motive := SameHeld s) _ _ (.refl s)
      (fun t ht i _ => (ht.trans (State.sameHeld_cqEntry t _ _ _ _ _ _)).trans (State.sameHeld_cqCheck _ _))
  · exact .refl s

theorem State.sameHeld_macNotify (s : State) (k ev key : Nat) (old new : Option Nat) : SameHeld s (s.macNotify k ev key old new) := by
  unfold State.macNotify
  dsimp only
  generalize hp : s.samplePost _ _ _ = p
  have posted : SameHeld s p.2 := hp ▸ State.sameHeld_samplePost s _ _ _
  refine .ite _ ?_ (.refl s)
  split
  · exact posted
  · exact posted.count _ _

theorem State.sameHeld_unAge (s : State) (k key : Nat) : SameHeld s (s.unAge k key) := by
  delta State.unAge
  extract_lets x
  split
  · exact .ite _ (((SameHeld.refl s).setMac _ _ _).setCtr _ _) (.refl s)
  · exact .refl s

theorem State.sameHeld_learnRequest (s : State) (k key dest : Nat) : SameHeld s (s.learnRequest k key dest) :=
  .ite _ (.refl s) (.ite _ ⟨rfl, rfl, rfl⟩ ((SameHeld.refl s).count _ _))

theorem State.sameHeld_noteHit (s : State) (k p : Nat) : SameHeld s (s.noteHit k p) := .of_fab rfl rfl

/-- The source lookup works on the plane's tables (R171). -/
theorem State.sameHeld_sourceLookup (s : State) (k key dest : Nat) (enabled : Bool) : SameHeld s (s.sourceLookup k key dest enabled).2 := by
  delta State.sourceLookup
  extract_lets s1 u
  have aged : SameHeld s s1 := State.sameHeld_unAge s k key
  have hit : SameHeld s u := by
    unfold u
    split
    · exact aged.trans (State.sameHeld_noteHit _ _ _)
    · exact aged
  clear_value u
  split
  · split
    · exact hit.setMac _ _ _
    · split
      · exact hit.count _ _
      · dsimp only
        refine SameHeld.trans ?_ (State.sameHeld_macNotify _ _ _ _ _ _)
        exact (hit.setMac _ _ _).count _ _
  · split
    · exact hit.trans (State.sameHeld_learnRequest _ _ _ _)
    · exact hit

theorem State.sameHeld_learnFrom (s : State) (f : Frame) (k : Nat) (m : Mapped) : SameHeld s (s.learnFrom f k m).2 := by
  unfold State.learnFrom
  split
  · exact State.sameHeld_sourceLookup s _ _ _ _
  · exact SameHeld.refl s

/-- A frame is looked up: its new descriptor has its bytes and cells and has passed stage 5; no other frame and no queue is another. -/
def State.looksUp (s t : State) (fid : Nat) (f : Frame) : Prop :=
  ∃ u y, SameHeld s u ∧ t = u.setFrame fid y ∧ y.stage = .looked ∧ y.data = f.data ∧ y.cells = f.cells

theorem SameHeld.looksUp {s u : State} (h : SameHeld s u) (fid : Nat) {f : Frame} (y : Frame) (hs : y.stage = .looked) (hd : y.data = f.data)
    (hc : y.cells = f.cells) : s.looksUp (u.setFrame fid y) fid f := ⟨u, y, h, rfl, hs, hd, hc⟩

/-- Recovery, learning, numbering and policing end with the frame looked up, or dropped as one that is (R170, R171, R284, R334, R340). -/
theorem State.passStages_looksUp (s : State) (fid : Nat) (f : Frame) (k : Nat) (m : Mapped) (a : Act) :
    s.looksUp (s.passStages fid f k m a) fid f := by
  have recovered := State.sameHeld_recoverFrame s f
  unfold State.passStages
  dsimp only
  generalize s.recoverFrame f = r at recovered ⊢
  obtain ⟨ok, rec_, s1⟩ := r
  cases ok with
  | false => exact recovered.looksUp fid _ rfl rfl rfl
  | true =>
    dsimp only at recovered ⊢
    generalize hf1 : (if rec_ = true then { f with edit := f.edit ||| 2 ^ edRecovered } else f) = f1
    have data : f1.data = f.data := by rw [← hf1]; split <;> rfl
    have cells : f1.cells = f.cells := by rw [← hf1]; split <;> rfl
    have learnt := recovered.trans (State.sameHeld_learnFrom s1 f1 k m)
    generalize s1.learnFrom f1 k m = l at learnt ⊢
    obtain ⟨dropped, s2⟩ := l
    cases dropped with
    | true => exact learnt.looksUp fid _ rfl data cells
    | false =>
      have numbered := recovered.trans (State.sameHeld_numberIn s1 f1)
      dsimp only
      generalize s1.numberIn f1 = n at numbered ⊢
      obtain ⟨seq, sent, s3⟩ := n
      cases sent with
      | false => exact numbered.looksUp fid _ rfl data cells
      | true =>
        have policed (ns : List Nat) (f2 : Frame) := ((numbered.trans (State.sameHeld_learnFrom s3 f2 k m)).noteTurn f1.pipe ns).trans
          (State.sameHeld_police _ f1.pipe f1.data.length ns f1.colour)
        dsimp only
        generalize hp : State.police _ _ _ _ _ = p
        have done : SameHeld s p.2 := hp ▸ policed _ _
        obtain ⟨colour, s4⟩ := p
        cases colour with
        | none => exact done.looksUp fid _ rfl data cells
        | some c => exact done.looksUp fid _ rfl data cells

theorem SameHeld.trans_looksUp {s u t : State} {fid : Nat} {f g : Frame} (h : SameHeld s u) (l : u.looksUp t fid g) (hd : g.data = f.data)
    (hc : g.cells = f.cells) : s.looksUp t fid f := by
  obtain ⟨v, y, held, e, stage, data, cells⟩ := l
  exact ⟨v, y, h.trans held, e, stage, data.trans hd, cells.trans hc⟩

/-- A stored frame whose turn it is leaves stages 3 to 5 looked up, dropped or not. -/
theorem State.lookupFrame_looksUp (s : State) (fid : Nat) (x : Frame) (hx : s.frame? fid = some x) (hs : x.stage = .stored)
    (hb : s.behind fid x = false) (ht : ∀ ns, s.outOfTurn x.pipe ns = false) : s.looksUp (s.lookupFrame fid) fid x := by
  delta State.lookupFrame
  split
  · next h => rw [hx] at h; cases h
  · next f0 h =>
    obtain rfl : x = f0 := Option.some.inj (hx.symm.trans h)
    rw [if_neg (by simp [hs, hb])]
    extract_lets k p m qos dw kin n a srcDw fate cls s1 cp s2 f1 dead
    rw [if_neg (by simp [ht])]
    have held : SameHeld s s2 := (State.sameHeld_fgCount s _ _ _ _).trans (State.sameHeld_policeCopy s1 _ _ _ _ _)
    have dropped (u : State) (hu : SameHeld s u) : s.looksUp (dead u) fid x := hu.looksUp fid _ rfl rfl rfl
    clear_value s2
    split
    · exact dropped _ ⟨held.frames, held.queues, held.timeReq⟩
    · split
      · exact dropped _ (held.count _ _)
      · split
        · exact dropped _ (held.count _ _)
        · split
          · exact dropped _ (held.count _ _)
          · exact held.trans_looksUp (State.passStages_looksUp s2 fid _ k m a) rfl rfl

/-- A frame that would pass an older one of its input stays. -/
theorem State.lookupFrame_behind (s : State) (fid : Nat) (x : Frame) (hx : s.frame? fid = some x) (hb : s.behind fid x = true) :
    s.lookupFrame fid = s := by
  simp [State.lookupFrame, hx, hb]

/-- With no policer that has served a later place, no list of policers holds one that has. -/
theorem State.outOfTurn_of_each (s : State) (pipe : Nat) (h : ∀ n, s.outOfTurn pipe [n] = false) (ns : List Nat) : s.outOfTurn pipe ns = false := by
  simp only [State.outOfTurn, List.any_cons, List.any_nil, Bool.or_false] at h
  exact List.any_eq_false.2 (fun n _ => by rw [h n]; exact Bool.false_ne_true)

theorem exec_ingressLookup (s : State) (dt f : Nat) : exec (.ingressLookup dt f) s = s.cmdMain true dt (fun s => s.lookupFrame f) := rfl

end Sys2Proof.Machine
end

/-! ### Stage 6 -/

section
namespace Sys2Proof.Machine

theorem State.sameHeld_refuse (s : State) (pipe off : Nat) (q : Option Nat) (len : Nat) : SameHeld s (s.refuse pipe off q len) := by
  have counted := (SameHeld.refl s).count (Ctr.pipe pipe off) 1
  cases q with
  | none => exact counted
  | some q => exact (counted.count _ _).count _ _

/-- WRED moves its averages and its random source (R204, R205). -/
theorem State.sameHeld_wred (s : State) (i q qn colour : Nat) (ect : Bool) : SameHeld s (s.wred i q qn colour ect).2 := by
  delta State.wred
  extract_lets p x a0 a _ s1 mn mx r s2
  have h1 : SameHeld s s1 := ⟨rfl, rfl, rfl⟩
  have h2 : SameHeld s s2 := ⟨rfl, rfl, rfl⟩
  clear_value s1 s2
  split
  · exact .refl s
  · split
    · exact h1
    · split
      · exact h1
      · split
        · split
          · exact h2
          · exact h2
        · exact h2

/-- The tests of stage 6 count, and WRED moves (R200, R207). -/
theorem State.sameHeld_admitTests (s : State) (lane : Nat) (f : Frame) (via thr : Nat) (port eq : Option Nat) (ect : Bool) :
    SameHeld s (s.admitTests lane f via thr port eq ect).2.2 := by
  delta State.admitTests
  extract_lets n len i fr
  have refused (off : Nat) (q : Option Nat) := State.sameHeld_refuse s i off q len
  refine .ite_snd_snd _ (refused 0x00 none) (.ite_snd_snd _ (refused 0x08 (some via)) ?_)
  cases eq with
  | none => exact .ite_snd_snd _ (refused thr (some via)) (.refl s)
  | some e =>
    refine .ite_snd_snd _ (refused 0x08 (some e)) (.ite_snd_snd _ (refused thr (some via)) (.ite_snd_snd _ (refused 0x18 (some e)) ?_))
    have wred := State.sameHeld_wred s i e (s.qTest lane i e) f.colour ect
    generalize s.wred i e (s.qTest lane i e) f.colour ect = w at wred ⊢
    obtain ⟨answer, s1⟩ := w
    cases answer with
    | pass => exact wred
    | mark => exact wred.count _ _
    | refuse => exact SameHeld.trans wred (State.sameHeld_refuse s1 i 0x20 (some e) len)

/-- A frame's place in a queue's length is no place in its list. -/
theorem SameHeld.enter {s t : State} (h : SameHeld s t) (lane pipe q n len : Nat) : SameHeld s (t.enter lane pipe q n len) := by
  unfold State.enter State.countAdmit
  have counted : SameHeld s (if lane = 0 then (t.lenIn q n).noteOwn pipe q n else t.lenIn q n) :=
    .ite _ ⟨h.frames, h.queues, h.timeReq⟩ ⟨h.frames, h.queues, h.timeReq⟩
  exact (counted.count _ _).count _ _

theorem State.sameHeld_traceFrame (s : State) (f : Frame) (entered : List Nat) : SameHeld s (s.traceFrame f entered) := by
  delta State.traceFrame
  extract_lets hit e full s1 tr _ _ s2
  have h1 : SameHeld s s1 := .ite _ ((SameHeld.refl s).setF _ _) (.refl s)
  have h2 : SameHeld s s2 := h1.trans ⟨rfl, rfl, rfl⟩
  exact .ite _ (.ite _ ((SameHeld.refl s).count _ _) (.ite _ (h2.setF _ _) h2)) (.refl s)

theorem State.sameHeld_laneUse (s : State) (i lane : Nat) : SameHeld s (s.laneUse i lane) := .ite _ ⟨rfl, rfl, rfl⟩ (.refl s)

theorem State.sameHeld_releaseCells (s : State) (rank claim : Nat) (cells : List Nat) : SameHeld s (s.releaseCells rank claim cells) := by
  cases cells with
  | nil => exact .refl s
  | cons c cs => exact ⟨rfl, rfl, rfl⟩

/-- A frame that goes leaves with its cells. -/
theorem State.sameHeld_freeFrame (s : State) (f : Nat) (x : Frame) (hx : s.frame? f = some x) : SameHeld (s.dropFrame f) (s.freeFrame f) := by
  have held := State.sameHeld_releaseCells s relRef x.owner x.cells
  rw [State.freeFrame, hx]
  exact ⟨by simp [State.dropFrame, held.frames], held.queues, held.timeReq⟩

/-! #### Frames without copies -/

/-- What stage 6 makes of a frame. -/
def Frame.admittedAs (x : Frame) (ecn : Bool) (ref : Nat) : Frame := { x with ecn := ecn, stage := .admitted, ref := ref }

/-- A frame that would pass an older one, and a frame for a lane that sleeps, stays (R14, R474). -/
theorem State.admitFrame_stays (s : State) (fid lane : Nat) (x : Frame) (hx : s.frame? fid = some x)
    (h : x.stage ≠ .looked ∨ s.overtakes fid x ∨ (lane = 1 ∧ s.laneOff x.pipe)) : s.admitFrame fid lane = s := by
  simp only [State.admitFrame, hx, if_pos h]

theorem State.fixLaunch_of_host_none (s : State) (x : Frame) (h : x.host = none) : s.fixLaunch x = x := by simp [State.fixLaunch, h]

/-- It serves a looked-up frame that passes no older one, in a lane that is awake. -/
theorem State.stage6_serves (s : State) (fid lane : Nat) (x : Frame) (hs : x.stage = .looked) (ho : s.overtakes fid x = false)
    (hl : lane = 1 → s.laneOff x.pipe = false) : ¬ (x.stage ≠ .looked ∨ s.overtakes fid x ∨ (lane = 1 ∧ s.laneOff x.pipe)) := by
  simpa [hs, ho] using hl

section
variable (s : State) (fid lane : Nat) (x : Frame) (hx : s.frame? fid = some x) (hs : x.stage = .looked) (ho : s.overtakes fid x = false)
  (hl : lane = 1 → s.laneOff x.pipe = false) (hm : x.mirror = none) (hc : x.copyRing = none) (hh : x.host = none)
include hx hs ho hl hm hc hh

/-- Stage 6 frees a dropped frame without copies. -/
theorem State.admitFrame_dropped (hd : x.drop = true) :
    s.admitFrame fid lane = ((s.setFrame fid (x.admittedAs false 0)).freeFrame fid).laneUse x.pipe lane := by
  simp [State.admitFrame, hx, if_neg (State.stage6_serves s fid lane x hs ho hl), State.fixLaunch_of_host_none _ _ hh, hm, hc, hd,
    State.hostAdmit, hh, b2n, Frame.admittedAs]

/-- Stage 6 keeps a frame without copies that enters queues, with one reference. -/
theorem State.admitFrame_entered (hd : x.drop = false) (r : Adm × State) (ha : s.admitMain lane fid x = r) (hq : r.1.queues ≠ []) :
    s.admitFrame fid lane =
      ((r.2.setFrame fid (x.admittedAs r.1.mark 1)).traceFrame (x.admittedAs r.1.mark 1) r.1.queues).laneUse x.pipe lane := by
  simp [State.admitFrame, hx, if_neg (State.stage6_serves s fid lane x hs ho hl), State.fixLaunch_of_host_none _ _ hh, hm, hc, hd,
    ha, hq, State.hostAdmit, hh, b2n, Frame.admittedAs]

end

/-- The admission of a unicast frame without a destination dwelling whose tests pass: its descriptor goes behind the others of its VOQ or Foundry
list (R198, R212). -/
theorem State.admitMain_unicast (s : State) (lane fid q : Nat) (x : Frame) (hp : x.dest = .port q) (hw : x.dstDw = none)
    (ht : (s.admitTests lane x (if s.useLists then fdyId q x.cls else voqId x.pipe q x.cls) 0x10 (some q) (some (pcqId q x.cls)) x.parse.ect).1 = 0) :
    ∃ m u e, s.admitMain lane fid x =
        (⟨0, [if s.useLists then fdyId q x.cls else voqId x.pipe q x.cls, pcqId q x.cls], m⟩,
          u.push (if s.useLists then fdyId q x.cls else voqId x.pipe q x.cls) e) ∧
      SameHeld s u ∧ e.fid = fid ∧ e.port = q ∧ e.cls = x.cls ∧ e.eq = pcqId q x.cls := by
  delta State.admitMain
  simp only [hp, State.fatePort, hw, State.egressQueue]
  generalize (if s.useLists then fdyId q x.cls else voqId x.pipe q x.cls) = via at ht ⊢
  have tested := State.sameHeld_admitTests s lane x via 0x10 (some q) (some (pcqId q x.cls)) x.parse.ect
  generalize s.admitTests lane x via 0x10 (some q) (some (pcqId q x.cls)) x.parse.ect = r at ht tested ⊢
  obtain ⟨reason, m, s1⟩ := r
  obtain rfl : reason = 0 := ht
  exact ⟨m, _, _, rfl, (tested.enter _ _ _ _ _).enter _ _ _ _ _, rfl, rfl, rfl, rfl⟩

theorem exec_stage6Admit (s : State) (dt f lane : Nat) (h : lane < 2) :
    exec (.stage6Admit dt f lane) s = s.cmdMain true dt (fun s => s.admitFrame f lane) := by
  have ok : (Instr.stage6Admit dt f lane).wellFormed = true := decide_eq_true h
  rw [← ok]
  rfl

end Sys2Proof.Machine
end

/-! ### Stages 3 to 6 of a frame -/

section
namespace Sys2Proof.Machine

theorem ingressLookup_stored (s : State) (dt f : Nat) (x : Frame) (hm : s.mainUp = true) (hx : s.frame? f = some x) (hs : x.stage = .stored)
    (hb : s.behind f x = false) (ht : ∀ n, (s.begun dt).outOfTurn x.pipe [n] = false) :
    ∃ t y, exec (.ingressLookup dt f) s = .next t ∧ t.frame? f = some y ∧ y.stage = .looked ∧ y.data = x.data ∧ y.cells = x.cells ∧
      (∀ g, g ≠ f → t.frame? g = s.frame? g) ∧ (∀ q, t.queue q = s.queue q) := by
  obtain ⟨u, y, held, e, stage, data, cells⟩ := State.lookupFrame_looksUp (s.begun dt) f x (by simpa using hx) hs (by simpa using hb)
    (State.outOfTurn_of_each _ _ ht)
  refine ⟨_, y, (exec_ingressLookup s dt f).trans (State.cmdMain_next s dt _ hm ?_), ?_, stage, data, cells, fun g hg => ?_, fun q => ?_⟩
  · simp [e, held.timeReq]
  · simp [e]
  · simp [e, State.frame?_setFrame_ne _ _ _ _ hg, held.frame?]
  · simp [e, held.queue]

theorem ingressLookup_behind (s : State) (dt f : Nat) (x : Frame) (hm : s.mainUp = true) (hx : s.frame? f = some x) (hb : s.behind f x = true) :
    ∃ t, exec (.ingressLookup dt f) s = .next t ∧ (s.begun dt).frame t {} := by
  rw [exec_ingressLookup]
  exact State.cmdMain_stays s dt _ hm (State.lookupFrame_behind _ f x (by simpa using hx) (by simpa using hb))

theorem stage6Admit_unicast (s : State) (dt f lane q : Nat) (x : Frame) (hlane : lane < 2) (hm : s.mainUp = true) (hx : s.frame? f = some x)
    (hs : x.stage = .looked) (hd : x.drop = false) (hp : x.dest = .port q) (hw : x.dstDw = none) (hmir : x.mirror = none)
    (hcpy : x.copyRing = none) (hh : x.host = none) (hl : lane = 1 → s.laneOff x.pipe = false) (ho : (s.begun dt).overtakes f x = false)
    (ht : ((s.begun dt).admitTests lane x (if s.useLists then fdyId q x.cls else voqId x.pipe q x.cls) 0x10 (some q) (some (pcqId q x.cls))
      x.parse.ect).1 = 0) :
    ∃ t y e, exec (.stage6Admit dt f lane) s = .next t ∧ t.frame? f = some y ∧ y.stage = .admitted ∧ y.ref = 1 ∧
      t.queue (if s.useLists then fdyId q x.cls else voqId x.pipe q x.cls) =
        s.queue (if s.useLists then fdyId q x.cls else voqId x.pipe q x.cls) ++ [e] ∧
      e.fid = f ∧ e.port = q ∧ e.cls = x.cls ∧ e.eq = pcqId q x.cls := by
  obtain ⟨m, u, e, ha, held, hfid, hport, hcls, heq⟩ := State.admitMain_unicast (s.begun dt) lane f q x hp hw (by simpa using ht)
  have done := State.admitFrame_entered (s.begun dt) f lane x (by simpa using hx) hs ho (by simpa using hl) hmir hcpy hh hd _ ha (by simp)
  rw [State.useLists_begun] at done
  generalize (if s.useLists then fdyId q x.cls else voqId x.pipe q x.cls) = via at done ⊢
  have after := (State.sameHeld_traceFrame ((u.push via e).setFrame f (x.admittedAs m 1)) (x.admittedAs m 1) [via, pcqId q x.cls]).trans
    (State.sameHeld_laneUse _ x.pipe lane)
  refine ⟨_, x.admittedAs m 1, e, (exec_stage6Admit s dt f lane hlane).trans (State.cmdMain_next s dt _ hm ?_), ?_, rfl, rfl, ?_, hfid, hport,
    hcls, heq⟩
  · simp [done, after.timeReq, held.timeReq]
  · simp [done, after.frame?]
  · simp [done, after.queue, held.queue]

theorem stage6Admit_dropped (s : State) (dt f lane : Nat) (x : Frame) (hlane : lane < 2) (hm : s.mainUp = true) (hx : s.frame? f = some x)
    (hs : x.stage = .looked) (hd : x.drop = true) (hmir : x.mirror = none) (hcpy : x.copyRing = none) (hh : x.host = none)
    (hl : lane = 1 → s.laneOff x.pipe = false) (ho : (s.begun dt).overtakes f x = false) :
    ∃ t, exec (.stage6Admit dt f lane) s = .next t ∧ t.frame? f = none ∧ (∀ q, t.queue q = s.queue q) ∧
      (∀ g, g ≠ f → t.frame? g = s.frame? g) := by
  have done := State.admitFrame_dropped (s.begun dt) f lane x (by simpa using hx) hs ho (by simpa using hl) hmir hcpy hh hd
  have after := (State.sameHeld_freeFrame ((s.begun dt).setFrame f (x.admittedAs false 0)) f _ (State.frame?_setFrame_self _ _ _)).trans
    (State.sameHeld_laneUse _ x.pipe lane)
  refine ⟨_, (exec_stage6Admit s dt f lane hlane).trans (State.cmdMain_next s dt _ hm ?_), ?_, fun q => ?_, fun g hg => ?_⟩
  · simp [done, after.timeReq]
  · simp [done, after.frame?]
  · simp [done, after.queue]
  · simp [done, after.frame?, State.frame?_dropFrame_ne _ _ _ hg, State.frame?_setFrame_ne _ _ _ _ hg]

theorem stage6Admit_stays (s : State) (dt f lane : Nat) (x : Frame) (hlane : lane < 2) (hm : s.mainUp = true) (hx : s.frame? f = some x)
    (h : (s.begun dt).overtakes f x = true ∨ lane = 1 ∧ s.laneOff x.pipe = true) :
    ∃ t, exec (.stage6Admit dt f lane) s = .next t ∧ (s.begun dt).frame t {} := by
  rw [exec_stage6Admit s dt f lane hlane]
  exact State.cmdMain_stays s dt _ hm (State.admitFrame_stays _ f lane x (by simpa using hx) (.inr (by simpa using h)))

/-- Settles O9: the operations of stages 3 to 5 touch no frame but the one looked up, and those of stage 6 only the frame and its queue. -/
theorem stagesThreeToSix : Obligations.StagesThreeToSix :=
  ⟨ingressLookup_stored, ingressLookup_behind, stage6Admit_unicast, stage6Admit_dropped,
    fun s dt f lane x hlane hm hx ho => stage6Admit_stays s dt f lane x hlane hm hx (.inl ho),
    fun s dt f x hm hx hl => stage6Admit_stays s dt f 1 x (by decide) hm hx (.inr ⟨rfl, hl⟩)⟩

end Sys2Proof.Machine
end

/-! ### Commands of a port -/

section
namespace Sys2Proof.Machine

/-- The answer of a command of the main islands: its operation has made `g` of the begun state. -/
theorem exec_main {s g : State} {c : Instr} {dt : Nat} {f : State → State} (he : exec c s = s.cmdMain c.wellFormed dt f)
    (hw : c.wellFormed = true) (hm : s.mainUp = true) (hf : f (s.begun dt) = g) (hq : g.timeReq = ⟨none, none⟩) :
    exec c s = .next (g.settle s (s.begun dt).time) := by
  subst hf
  rw [he, hw, State.cmdMain_next s dt f hm (by rw [hq])]

/-- The same, for an operation that is known to touch `x` alone. -/
theorem exec_main_touches {s g : State} {c : Instr} {dt : Nat} {f : State → State} {x : Touch} (he : exec c s = s.cmdMain c.wellFormed dt f)
    (hw : c.wellFormed = true) (hm : s.mainUp = true) (hf : f (s.begun dt) = g) (h : (s.begun dt).leaves g x) :
    exec c s = .next (g.settle s (s.begun dt).time) ∧ (s.begun dt).frame (g.settle s (s.begun dt).time) x :=
  ⟨exec_main he hw hm hf (h.2.trans (State.begun_timeReq s dt)), State.leaves_settle _ g s x h (State.begun_timeReq s dt)⟩

theorem State.leaves.reg {s t : State} {x : Touch} (h : s.leaves t x) {a : Nat} (ha : ¬ x.regs a) : t.reg a = s.reg a := h.1.2.1 a ha
theorem State.leaves.fld {s t : State} {x : Touch} (h : s.leaves t x) {f : Fld} (hf : ¬ x.regs f.addr) : t.fld f = s.fld f := by
  simp [State.fld, h.reg hf]
theorem State.leaves.port {s t : State} {x : Touch} (h : s.leaves t x) {p : Nat} (hp : p ∉ x.ports) : t.port p = s.port p := h.1.2.2.2.1 p hp
theorem State.leaves.part {s t : State} {x : Touch} (h : s.leaves t x) {k : Part} (hk : k ∉ x.parts) : Part.same k s t := h.1.1 k hk

/-- Two fields that share no bit. -/
def Fld.apart (f g : Fld) : Prop := g.addr ≠ f.addr ∨ g.lo + g.len ≤ f.lo ∨ f.lo + f.len ≤ g.lo

/-- A field that shares no bit with the one written keeps its value. -/
theorem State.fld_setF_of_apart (s : State) {f g : Fld} (v : Nat) (hf : f.lo + f.len ≤ 32) (h : f.apart g) : (s.setF f v).fld g = s.fld g := by
  by_cases ha : g.addr = f.addr
  · exact State.fld_setF_apart s f g v ha hf (h.resolve_left (fun n => n ha))
  · exact State.fld_setF_ne s f g v ha

theorem State.bit_eq_of_fld {s t : State} {f : Fld} (h : t.fld f = s.fld f) : t.bit f = s.bit f := by simp [State.bit, h]

theorem State.onPort_present (s : State) (p : Nat) (f : State → State) (h : s.portAbsent p = false) : s.onPort p f = f s := by
  simp [State.onPort, h]
theorem State.onPortReg_present (s : State) (p : Nat) (f : State → State) (h : s.portAbsent p = false) :
    s.onPortReg p f = f (s.regUse (Reg.PT_CTRL p)) := State.onPort_present s p _ h

@[simp] theorem State.mode_begun (s : State) (dt p : Nat) : (s.begun dt).mode p = s.mode p := State.fld_begun s dt _
@[simp] theorem State.enState_begun (s : State) (dt p : Nat) : (s.begun dt).enState p = s.enState p := State.fld_begun s dt _
@[simp] theorem State.enabled_begun (s : State) (dt p : Nat) : (s.begun dt).enabled p = s.enabled p := by simp [State.enabled]
@[simp] theorem State.portAbsent_begun (s : State) (dt p : Nat) : (s.begun dt).portAbsent p = s.portAbsent p := by
  simp [State.portAbsent, State.groupOn]
@[simp] theorem State.anRuns_begun (s : State) (dt p : Nat) : (s.begun dt).anRuns p = s.anRuns p := by simp [State.anRuns]
@[simp] theorem State.ltRuns_begun (s : State) (dt p : Nat) : (s.begun dt).ltRuns p = s.ltRuns p := by simp [State.ltRuns]

theorem State.enabled_of_enState {s : State} {p : Nat} (h : s.fld (Fld.PT_STATUS_EN_STATE p) = 1) : s.enabled p = true := by
  simp [State.enabled, State.enState, h, enOn]

/-- What follows the candidate state touches the port's timers alone. -/
theorem State.leaves_candFollow {s u t : State} {x : Touch} {p : Nat} (h : s.leaves t x) (hp : p ∈ x.ports) : s.leaves (u.candFollow p t) x :=
  State.leaves_ite _ (fun _ => h) (fun _ => State.leaves_trans h (State.leaves_setPort t p _ x hp))

@[simp] theorem State.reg_candFollow (s t : State) (p a : Nat) : (s.candFollow p t).reg a = t.reg a := by
  unfold State.candFollow; split <;> rfl
@[simp] theorem State.fld_candFollow (s t : State) (p : Nat) (f : Fld) : (s.candFollow p t).fld f = t.fld f := by simp [State.fld]
@[simp] theorem State.out_candFollow (s t : State) (p : Nat) : (s.candFollow p t).out = t.out := by
  unfold State.candFollow; split <;> rfl
@[simp] theorem State.taps_candFollow (s t : State) (p : Nat) : ((s.candFollow p t).port p).taps = (t.port p).taps := by
  unfold State.candFollow; split <;> simp [State.candTouch]
@[simp] theorem State.ltAt_candFollow (s t : State) (p : Nat) : ((s.candFollow p t).port p).ltAt = (t.port p).ltAt := by
  unfold State.candFollow; split <;> simp [State.candTouch]

end Sys2Proof.Machine
end

/-! ### Auto-negotiation and training (R34 to R37) -/

section
namespace Sys2Proof.Machine

/-- A use of a register in a gated group's domain wakes the group and keeps it awake (R403). -/
def regUseTouch : Touch := { parts := [.pw], regs := (· = Reg.PW_STATUS), ctrs := (· = 0x2770000) }

theorem State.leaves_pw (s : State) (y : Power) (x : Touch) (h : .pw ∈ x.parts) : s.leaves { s with pw := y } x :=
  State.leaves_part s _ .pw x h (fun j hj => by cases j <;> simp_all [Part.same]) rfl rfl rfl rfl rfl

theorem State.leaves_pgWake (s : State) (g : Nat) (x : Touch) (h : .pw ∈ x.parts) (hr : x.regs Reg.PW_STATUS) (hc : x.ctrs 0x2770000) :
    s.leaves (s.pgWake g) x :=
  State.leaves_ite _
    (fun _ => State.leaves_trans (State.leaves_trans (State.leaves_pw s _ x h) (State.leaves_setF _ Fld.PW_STATUS_PG_GATED _ x hr))
      (State.leaves_count _ _ _ x hc))
    (fun _ => State.leaves_refl s x)

theorem State.leaves_regUse (s : State) (a : Nat) : s.leaves (s.regUse a) regUseTouch :=
  State.leaves_ite _
    (fun _ => State.leaves_trans (State.leaves_pgWake s _ _ (by simp [regUseTouch]) rfl rfl) (State.leaves_pw _ _ _ (by simp [regUseTouch])))
    (fun _ => State.leaves_refl s _)

theorem State.anRuns_congr {s t : State} {p : Nat} (hm : t.mode p = s.mode p) (hc : t.fld (Fld.PT_CTRL_AN_EN p) = s.fld (Fld.PT_CTRL_AN_EN p)) :
    t.anRuns p = s.anRuns p := by simp [State.anRuns, State.bit, hm, hc]
theorem State.ltRuns_congr {s t : State} {p : Nat} (hm : t.mode p = s.mode p) (hc : t.fld (Fld.PT_CTRL_LT_EN p) = s.fld (Fld.PT_CTRL_LT_EN p)) :
    t.ltRuns p = s.ltRuns p := by simp [State.ltRuns, State.bit, hm, hc]

theorem pwStatus_ne_port (p o : Nat) : 0x100000 + p * 0x1000 + o ≠ Reg.PW_STATUS := by simp only [Reg.PW_STATUS]; omega

/-- The fields of a port keep their values when a register of its group is used. -/
theorem State.fld_regUse (s : State) (a p o lo len : Nat) : (s.regUse a).fld ⟨0x100000 + p * 0x1000 + o, lo, len⟩ = s.fld ⟨0x100000 + p * 0x1000 + o, lo, len⟩ :=
  (State.leaves_regUse s a).fld (pwStatus_ne_port p o)

/-- Auto-negotiation that runs starts with its page. -/
theorem State.anStart_runs (s : State) (p : Nat) (h : s.anRuns p = true) :
    s.anStart p = (s.candFollow p (s.setF (Fld.PT_STATUS_AN_STATE p) 1)).emit (.an p (s.anPage p)) := by
  have kept (f : Fld) (ha : (Fld.PT_STATUS_AN_STATE p).apart f) :
      (s.candFollow p (s.setF (Fld.PT_STATUS_AN_STATE p) 1)).fld f = s.fld f := by
    rw [State.fld_candFollow, State.fld_setF_of_apart s 1 (by simp [Fld.PT_STATUS_AN_STATE]) ha]
  have runs : (s.candFollow p (s.setF (Fld.PT_STATUS_AN_STATE p) 1)).anRuns p = true := by
    rw [State.anRuns_congr (kept _ _) (kept _ _), h]
    · simp [Fld.apart, Fld.PT_STATUS_AN_STATE, Fld.PT_STATUS_ACTIVE_MODE]
    · simp [Fld.apart, Fld.PT_STATUS_AN_STATE, Fld.PT_CTRL_AN_EN, Reg.PT_STATUS, Reg.PT_CTRL]
  have page : (s.candFollow p (s.setF (Fld.PT_STATUS_AN_STATE p) 1)).anPage p = s.anPage p := by
    rw [State.anPage, State.anPage, kept _ (by simp [Fld.apart, Fld.PT_STATUS_AN_STATE, Fld.PT_STATUS_LOCAL_FAULT])]
  have running : (s.candFollow p (s.setF (Fld.PT_STATUS_AN_STATE p) 1)).fld (Fld.PT_STATUS_AN_STATE p) = 1 := by
    rw [State.fld_candFollow, State.fld_setF_self _ _ _ (by simp [Fld.PT_STATUS_AN_STATE])]; rfl
  rw [State.anStart, if_pos h, State.anTell, if_pos ⟨runs, running⟩, page]

/-- Training that runs starts now, from no taps. -/
theorem State.ltStart_runs (s : State) (p : Nat) (h : s.ltRuns p = true) :
    s.ltStart p = s.candFollow p ((s.setF (Fld.PT_STATUS_LT_STATE p) 1).setPort p { s.port p with ltAt := s.now, taps := [] }) := if_pos h

theorem State.leaves_ltStart (s : State) (p : Nat) (x : Touch) (hp : p ∈ x.ports) (hr : x.regs (Reg.PT_STATUS p)) : s.leaves (s.ltStart p) x :=
  State.leaves_ite _
    (fun _ => State.leaves_candFollow (State.leaves_trans (State.leaves_setF s _ _ x hr) (State.leaves_setPort _ p _ x hp)) hp)
    (fun _ => State.leaves_refl s x)

theorem State.fld_ltStart (s : State) (p : Nat) (h : s.ltRuns p = true) : (s.ltStart p).fld (Fld.PT_STATUS_LT_STATE p) = 1 := by
  rw [State.ltStart_runs s p h, State.fld_candFollow, State.fld_setPort, State.fld_setF_self _ _ _ (by simp [Fld.PT_STATUS_LT_STATE])]
  rfl

theorem State.ltAt_ltStart (s : State) (p : Nat) (h : s.ltRuns p = true) : ((s.ltStart p).port p).ltAt = s.now := by
  rw [State.ltStart_runs s p h, State.ltAt_candFollow, State.port_setPort_self]

@[simp] theorem State.fld_emit (s : State) (e : OutEv) (f : Fld) : (s.emit e).fld f = s.fld f := rfl

section
variable {s : State} {c : Instr} {dt p : Nat} {f : State → State} {x : Touch}

/-- The answer of a command that is a write of one of a port's registers, and acts on `u`, the state in which that register's group is awake. -/
theorem exec_portReg (he : exec c s = s.cmdMain c.wellFormed dt (fun s => s.onPortReg p f)) (hw : c.wellFormed = true) (hm : s.mainUp = true)
    (ha : s.portAbsent p = false) {u : State} (hu : (s.begun dt).regUse (Reg.PT_CTRL p) = u) (h : u.leaves (f u) x) :
    exec c s = .next ((f u).settle s (s.begun dt).time) ∧ u.frame ((f u).settle s (s.begun dt).time) x := by
  have used := State.leaves_regUse (s.begun dt) (Reg.PT_CTRL p)
  have time : ((s.begun dt).regUse (Reg.PT_CTRL p)).time = (s.begun dt).time := used.part (k := .time) (by simp [regUseTouch])
  have req := used.2.trans (State.begun_timeReq s dt)
  rw [hu] at time req
  refine ⟨exec_main he hw hm (by rw [State.onPortReg_present _ _ _ (by simpa using ha), hu]) (h.2.trans req), ?_⟩
  rw [← time]
  exact State.leaves_settle u _ s _ h req

end

/-- The begun state with the group awake shows a port's fields as they were. -/
theorem State.fld_regUse_begun (s : State) (dt p o lo len : Nat) :
    ((s.begun dt).regUse (Reg.PT_CTRL p)).fld ⟨0x100000 + p * 0x1000 + o, lo, len⟩ = s.fld ⟨0x100000 + p * 0x1000 + o, lo, len⟩ :=
  (State.fld_regUse _ _ _ _ _ _).trans (State.fld_begun s dt _)

/-- AN_RESTART of an enabled port that negotiates (R34). -/
theorem anRestart_runs (s : State) (dt p : Nat) (hp : p < 144) (hm : s.mainUp = true) (ha : s.portAbsent p = false)
    (he : s.fld (Fld.PT_STATUS_EN_STATE p) = 1) (hr : s.anRuns p = true) :
    ∃ t, exec (.anRestart dt p) s = .next t ∧ t.fld (Fld.PT_STATUS_AN_STATE p) = 1 ∧
      t.out.filter (fun e => !e.isMsix) =
        .an p (w32 (0x20 + s.fld (Fld.PT_STATUS_LOCAL_FAULT p) * 0x1000)) :: s.out.filter (fun e => !e.isMsix) ∧
      ((s.begun dt).regUse (Reg.PT_CTRL p)).frame t { parts := [.out], regs := (· = Reg.PT_STATUS p), ports := [p] } := by
  generalize hu : (s.begun dt).regUse (Reg.PT_CTRL p) = u
  have same (o lo len : Nat) : u.fld ⟨0x100000 + p * 0x1000 + o, lo, len⟩ = _ := hu ▸ State.fld_regUse_begun s dt p o lo len
  have out : u.out.filter (fun e => !e.isMsix) = s.out.filter (fun e => !e.isMsix) := by
    rw [← hu]
    exact ((State.leaves_regUse _ _).part (k := .out) (by simp [regUseTouch])).trans (by simp)
  have start : u.anRestart p = (u.candFollow p (u.setF (Fld.PT_STATUS_AN_STATE p) 1)).emit (.an p (u.anPage p)) := by
    rw [State.anRestart, if_pos (State.enabled_of_enState ((same _ _ _).trans he)),
      State.anStart_runs u p ((State.anRuns_congr (same _ _ _) (same _ _ _)).trans hr)]
  have left : u.leaves (u.anRestart p) { parts := [.out], regs := (· = Reg.PT_STATUS p), ports := [p] } := by
    rw [start]
    exact State.leaves_trans (State.leaves_candFollow (State.leaves_setF u _ _ _ rfl) (by simp)) (State.leaves_emit _ _ _ (by simp))
  obtain ⟨next, frame⟩ := exec_portReg (c := .anRestart dt p) rfl (decide_eq_true hp) hm ha hu left
  refine ⟨_, next, ?_, ?_, frame⟩
  · rw [State.fld_settle, start, State.fld_emit, State.fld_candFollow, State.fld_setF_self _ _ _ (by simp [Fld.PT_STATUS_AN_STATE])]
    rfl
  · rw [State.settle_out, start, State.emit, State.out_candFollow, State.setF_out, List.filter_cons_of_pos rfl, out, State.anPage,
      Fld.PT_STATUS_LOCAL_FAULT, Reg.PT_STATUS, same]

/-- AN_DONE of a port that is negotiating (R34). -/
theorem anDone_running (s : State) (dt p : Nat) (ok : Bool) (hp : p < 144) (hm : s.mainUp = true) (ha : s.portAbsent p = false)
    (hr : s.anRuns p = true) (hs : s.fld (Fld.PT_STATUS_AN_STATE p) = 1) :
    ∃ t, exec (.anDone dt p ok) s = .next t ∧ t.fld (Fld.PT_STATUS_AN_STATE p) = (if ok then 2 else 3) ∧
      t.fld (Fld.PT_INT_STATUS_AN_DONE p) = 1 ∧
      (s.begun dt).frame t { regs := (· ∈ [Reg.PT_STATUS p, Reg.PT_INT_STATUS p]), ports := [p] } := by
  have act : (s.begun dt).onPort p (fun s => s.anDone p ok) = (s.begun dt).candFollow p
      (((s.begun dt).setF (Fld.PT_STATUS_AN_STATE p) (if ok then 2 else 3)).raise (Fld.PT_INT_STATUS_AN_DONE p)) := by
    rw [State.onPort_present _ _ _ (by simpa using ha), State.anDone, if_pos (by simp [hr, hs])]
  obtain ⟨next, frame⟩ := exec_main_touches (c := .anDone dt p ok) (x := { regs := (· ∈ [Reg.PT_STATUS p, Reg.PT_INT_STATUS p]), ports := [p] })
    rfl (decide_eq_true hp) hm act
    (State.leaves_candFollow (State.leaves_trans (State.leaves_setF _ _ _ _ (by simp [Fld.PT_STATUS_AN_STATE]))
      (State.leaves_raise _ _ _ (by simp [Fld.PT_INT_STATUS_AN_DONE]))) (by simp))
  refine ⟨_, next, ?_, ?_, frame⟩
  · rw [State.fld_settle, State.fld_candFollow, State.fld_raise_ne _ _ _ (by simp [Fld.PT_STATUS_AN_STATE, Fld.PT_INT_STATUS_AN_DONE, Reg.PT_STATUS, Reg.PT_INT_STATUS]),
      State.fld_setF_self _ _ _ (by simp [Fld.PT_STATUS_AN_STATE])]
    cases ok <;> rfl
  · rw [State.fld_settle, State.fld_candFollow, State.fld_raise_self _ _ (by simp [Fld.PT_INT_STATUS_AN_DONE]) (by simp [Fld.PT_INT_STATUS_AN_DONE])]

/-- RETRAIN of an enabled trunk port (R37). -/
theorem retrain_runs (s : State) (dt p : Nat) (ht : 128 ≤ p) (hp : p < 144) (hm : s.mainUp = true) (ha : s.portAbsent p = false)
    (he : s.fld (Fld.PT_STATUS_EN_STATE p) = 1) (hr : s.ltRuns p = true) :
    ∃ t, exec (.retrain dt p) s = .next t ∧ t.fld (Fld.PT_STATUS_LT_STATE p) = 1 ∧
      ((s.begun dt).regUse (Reg.PT_CTRL p)).frame t { regs := (· = Reg.PT_STATUS p), ports := [p] } := by
  generalize hu : (s.begun dt).regUse (Reg.PT_CTRL p) = u
  have same (o lo len : Nat) : u.fld ⟨0x100000 + p * 0x1000 + o, lo, len⟩ = _ := hu ▸ State.fld_regUse_begun s dt p o lo len
  have start : (if p < 128 then u else u.retrain p) = u.ltStart p := by
    rw [if_neg (by omega), State.retrain, if_pos (State.enabled_of_enState ((same _ _ _).trans he))]
  obtain ⟨next, frame⟩ := exec_portReg (c := .retrain dt p) (x := { regs := (· = Reg.PT_STATUS p), ports := [p] }) rfl (decide_eq_true hp) hm ha hu
    (by rw [start]; exact State.leaves_ltStart u p _ (by simp) rfl)
  refine ⟨_, next, ?_, frame⟩
  rw [State.fld_settle, start, State.fld_ltStart u p ((State.ltRuns_congr (same _ _ _) (same _ _ _)).trans hr)]

/-- A report of all active lanes while the port trains (R36). -/
theorem ltDone_training (s : State) (dt p : Nat) (lanes : List LtLane) (hp : p < 144) (hm : s.mainUp = true) (hr : s.ltRuns p = true)
    (hs : s.fld (Fld.PT_STATUS_LT_STATE p) = 1) (hl : lanes.length = modeLanes (s.mode p)) :
    ∃ t, exec (.ltDone dt ⟨p, lanes⟩) s = .next t ∧
      t.fld (Fld.PT_STATUS_LT_STATE p) = (if lanes.all (fun l => l.own && l.partner) then 2 else 1) ∧
      (t.port p).taps = lanes.map (fun l => (min l.pre 63, min l.main 63, min l.post 63)) ∧
      (s.begun dt).frame t { regs := (· = Reg.PT_STATUS p), ports := [p] } := by
  have ready : (s.begun dt).ltReady p lanes = lanes.all (fun l => l.own && l.partner) := by simp [State.ltReady, hl]
  have taken : (lanes.map LtLane.taken).take (modeLanes (s.mode p)) = lanes.map (fun l => (min l.pre 63, min l.main 63, min l.post 63)) := by
    rw [List.take_of_length_le (by simp [hl])]
    rfl
  have tapped := State.leaves_setPort (s.begun dt) p { (s.begun dt).port p with taps := lanes.map (fun l => (min l.pre 63, min l.main 63, min l.post 63)) }
    { regs := (· = Reg.PT_STATUS p), ports := [p] } (by simp)
  generalize hs1 : (s.begun dt).setPort p _ = s1 at tapped
  have act : (s.begun dt).ltDone p lanes =
      if lanes.all (fun l => l.own && l.partner) then (s.begun dt).candFollow p (s1.setF (Fld.PT_STATUS_LT_STATE p) 2) else s1 := by
    rw [State.ltDone, if_pos (by simp [hr, hs]), ready, ← hs1, ← taken, State.mode_begun]
  cases h : lanes.all (fun l => l.own && l.partner) with
  | false =>
    rw [h, if_neg Bool.false_ne_true] at act
    obtain ⟨next, frame⟩ := exec_main_touches (c := .ltDone dt ⟨p, lanes⟩) rfl (decide_eq_true hp) hm act tapped
    refine ⟨_, next, ?_, ?_, frame⟩
    · simp [← hs1, hs]
    · simp [← hs1]
  | true =>
    rw [h, if_pos rfl] at act
    obtain ⟨next, frame⟩ := exec_main_touches (c := .ltDone dt ⟨p, lanes⟩) rfl (decide_eq_true hp) hm act
      (State.leaves_candFollow (State.leaves_trans tapped (State.leaves_setF _ _ _ _ rfl)) (by simp))
    refine ⟨_, next, ?_, ?_, frame⟩
    · rw [State.fld_settle, State.fld_candFollow, State.fld_setF_self _ _ _ (by simp [Fld.PT_STATUS_LT_STATE])]
      rfl
    · rw [State.port_settle, State.taps_candFollow, State.port_setF, ← hs1, State.port_setPort_self]

/-- TIMEOUT has passed (R37). -/
theorem ltFail_due (s : State) (dt p : Nat) (hp : p < 144) (hm : s.mainUp = true) (hr : s.ltRuns p = true) (hs : s.fld (Fld.PT_STATUS_LT_STATE p) = 1)
    (hd : (s.port p).ltAt + s.fld (Fld.PT_LT_CTRL_TIMEOUT p) * 10 * tMs ≤ s.now + dt) :
    ∃ t, exec (.ltFail dt p) s = .next t ∧ t.fld (Fld.PT_STATUS_LT_STATE p) = 3 ∧ t.fld (Fld.PT_INT_STATUS_LT_FAIL p) = 1 ∧
      (t.port p).ltAt = s.now + dt ∧
      (s.begun dt).frame t { regs := (· ∈ [Reg.PT_STATUS p, Reg.PT_INT_STATUS p]), ports := [p] } := by
  have failed := State.leaves_trans
    (State.leaves_setF (s.begun dt) (Fld.PT_STATUS_LT_STATE p) 3 { regs := (· ∈ [Reg.PT_STATUS p, Reg.PT_INT_STATUS p]), ports := [p] }
      (by simp [Fld.PT_STATUS_LT_STATE]))
    (State.leaves_raise _ (Fld.PT_INT_STATUS_LT_FAIL p) _ (by simp [Fld.PT_INT_STATUS_LT_FAIL]))
  generalize hs1 : (((s.begun dt).setF (Fld.PT_STATUS_LT_STATE p) 3).raise (Fld.PT_INT_STATUS_LT_FAIL p)) = s1 at failed
  have act : (s.begun dt).ltFail p = s1.setPort p { s1.port p with ltAt := s1.now } := by
    rw [State.ltFail, if_pos (by simp [hr, hs, hd]), hs1]
  obtain ⟨next, frame⟩ := exec_main_touches (c := .ltFail dt p) rfl (decide_eq_true hp) hm act
    (State.leaves_trans failed (State.leaves_setPort _ p _ _ (by simp)))
  refine ⟨_, next, ?_, ?_, ?_, frame⟩
  · rw [State.fld_settle, State.fld_setPort, ← hs1, State.fld_raise_ne _ _ _ (by simp [Fld.PT_STATUS_LT_STATE, Fld.PT_INT_STATUS_LT_FAIL, Reg.PT_STATUS, Reg.PT_INT_STATUS]),
      State.fld_setF_self _ _ _ (by simp [Fld.PT_STATUS_LT_STATE])]
    rfl
  · rw [State.fld_settle, State.fld_setPort, ← hs1, State.fld_raise_self _ _ (by simp [Fld.PT_INT_STATUS_LT_FAIL]) (by simp [Fld.PT_INT_STATUS_LT_FAIL])]
  · simp [← hs1]

/-- RETRY_DELAY has passed since the failure (R37). -/
theorem retryDelay_due (s : State) (dt p : Nat) (hp : p < 144) (hm : s.mainUp = true) (hr : s.ltRuns p = true)
    (hs : s.fld (Fld.PT_STATUS_LT_STATE p) = 3) (he : s.fld (Fld.PT_STATUS_EN_STATE p) = 1)
    (hd : (s.port p).ltAt + s.fld (Fld.PT_LT_CTRL_RETRY_DELAY p) * 10 * tMs ≤ s.now + dt) :
    ∃ t, exec (.retryDelay dt p) s = .next t ∧ t.fld (Fld.PT_STATUS_LT_STATE p) = 1 ∧ (t.port p).ltAt = s.now + dt ∧
      (s.begun dt).frame t { regs := (· = Reg.PT_STATUS p), ports := [p] } := by
  have runs : (s.begun dt).ltRuns p = true := by simpa using hr
  have act : (s.begun dt).ltRetry p = (s.begun dt).ltStart p := by
    rw [State.ltRetry, if_pos (by simp [hr, hs, hd]), if_pos (by simpa using State.enabled_of_enState he)]
  obtain ⟨next, frame⟩ := exec_main_touches (c := .retryDelay dt p) rfl (decide_eq_true hp) hm act
    (State.leaves_ltStart (s.begun dt) p { regs := (· = Reg.PT_STATUS p), ports := [p] } (by simp) rfl)
  refine ⟨_, next, ?_, ?_, frame⟩
  · rw [State.fld_settle, State.fld_ltStart _ p runs]
  · rw [State.port_settle, State.ltAt_ltStart _ p runs, State.now_begun]

/-- Settles O2: each step of negotiation and training writes its status field and follows the candidate state. -/
theorem lineTraining : Obligations.LineTraining :=
  ⟨anRestart_runs, anDone_running, retrain_runs, ltDone_training, ltFail_due, retryDelay_due⟩

end Sys2Proof.Machine
end

/-! ### Streams whose numbers are beyond the registers of `TW_GEN` (R338) -/

section
namespace Sys2Proof.Machine

theorem exec_next_unique {c : Instr} {s t u : State} (ht : exec c s = .next t) (hu : exec c s = .next u) : u = t := by
  injection hu.symm.trans ht

/-- The device after its boot, with one generation stream in the list of `State.tw`, numbered at the port `p`, while the peer is alive and forwarding; the
stream's number is the one whose `TW_GEN` would lie at the address `a`. Numbers of streams that the device uses lie below 16,384, and their words below
0x70000, but no statement asks this of its state. A loss indication on `p` mutes the stream: it sets bit 30 of the word at `a`. -/
def strayStream (a p : Nat) : State :=
  { State.reset.setF Fld.TW_STATUS_PEER_FWD 1 with
    isl := { Islands.reset with pair := 15, pg := 4095, rxOpen := true },
    tw := { Twin.reset with streams := [((a - Reg.TW_GEN 0) / 4, ⟨0, p⟩)] } }

/-- Port 0 is disabled, with a frame in reassembly on its CRF receiver in SYNC; its stream is stray at `PT_STATUS` of port 1. -/
def enableStray : State :=
  ((strayStream (Reg.PT_STATUS 1) 0).setF (Fld.LF_STATUS_FA_STATE 0) 2).setCrf 0 { Crf.reset with rx := { CrfRx.reset with take := true } }

/-- The restart of port 0's receiver cuts the frame short, which is a loss, and the mute lands in port 1's status word. -/
theorem portEnable_writes_other_status :
    ∃ t, exec (.portEnable 0 0) enableStray = .next t ∧ t.reg (Reg.PT_STATUS 1) ≠ enableStray.reg (Reg.PT_STATUS 1) :=
  ⟨_, rfl, by decide +kernel⟩

/-- Refutes O1: its first clause holds `PT_STATUS` of every other port fixed in every state, also in one whose list of streams has a number beyond the
registers of `TW_GEN`; the mute of that stream (R338) writes `PT_STATUS` of port 1 when port 0 is enabled. -/
theorem not_portEnables : ¬ Obligations.PortEnables := by
  unfold Obligations.PortEnables
  intro h
  obtain ⟨enable, -, -⟩ := h
  obtain ⟨t, ht, -, -, others⟩ := enable enableStray 0 0 (by decide) (by decide +kernel) (by decide +kernel) (by decide +kernel)
  obtain ⟨u, hu, other⟩ := portEnable_writes_other_status
  rw [exec_next_unique ht hu] at other
  exact other (others 1 (by decide) (by decide)).2

/-- Port 5 runs in a mode that has LPI with LPI_EN at 0; its stream is stray at the port's own `PT_STATUS`. -/
def lpiStray : State := ((strayStream (Reg.PT_STATUS 5) 5).setF (Fld.PT_STATUS_ACTIVE_MODE 5) 3).setF (Fld.PT_STATUS_EN_STATE 5) 1

/-- The received LPI signal counts as an errored block, which is a loss, and the mute lands in the port's status word. -/
theorem lpiRx_writes_status : ∃ t, exec (.lpiRx 0 5 true) lpiStray = .next t ∧ t.reg (Reg.PT_STATUS 5) ≠ lpiStray.reg (Reg.PT_STATUS 5) :=
  ⟨_, rfl, by decide +kernel⟩

/-- Refutes O3: its third clause holds `PT_STATUS` fixed in every state when an LPI signal counts as an errored block, also in one whose list of streams has a
number beyond the registers of `TW_GEN`; the mute of that stream (R338) writes the port's `PT_STATUS`. -/
theorem not_lowPowerIdle : ¬ Obligations.LowPowerIdle := by
  unfold Obligations.LowPowerIdle
  intro h
  obtain ⟨-, -, errored, -, -⟩ := h
  obtain ⟨t, ht, -, kept⟩ := errored lpiStray 0 5 (by decide) (by decide +kernel) (by decide +kernel) (by decide +kernel) (by decide +kernel)
    (by decide +kernel)
  obtain ⟨u, hu, written⟩ := lpiRx_writes_status
  rw [exec_next_unique ht hu] at written
  exact written kept

/-- The first word of unit 12 (R411). -/
def planeWord : Nat := 0x880040

/-- Port 0 has a frame in reception and a changed `PT_MODE`; its stream is stray at a word of unit 12. -/
def commitStray : State := ((strayStream planeWord 0).setPort 0 { Port.reset with rxOn := true }).setReg (Reg.PT_MODE 0) 1

/-- Groups 0 and 12, which are those of units 0 and 12 at reset. -/
def commitMask : Word := 0x1001

/-- The commit changes port 0's mode, which cuts its reception short; that is a loss, and the mute lands in the shadow word of unit 12. -/
theorem commit_writes_shadow : ∃ t, exec (.commit 0 .pcie commitMask) commitStray = .next t ∧ t.reg planeWord ≠ commitStray.reg planeWord :=
  ⟨_, rfl, by decide +kernel⟩

/-- Refutes O36: its first clause holds the shadows of units 12 to 16 and 18 fixed through a commit in every state, also in one whose list of streams has a
number beyond the registers of `TW_GEN`; with a change of mode in the same commit the mute of that stream (R338) writes a shadow word of unit 12. -/
theorem not_commitsAndSlots : ¬ Obligations.CommitsAndSlots := by
  unfold Obligations.CommitsAndSlots
  intro h
  obtain ⟨commit, -⟩ := h
  obtain ⟨t, ht, words, -⟩ := commit commitStray 0 .pcie commitMask (by decide +kernel) (by decide +kernel) (by decide)
  obtain ⟨u, hu, written⟩ := commit_writes_shadow
  rw [exec_next_unique ht hu] at written
  exact written (words planeWord 12 (by decide +kernel) (by decide) (by decide) (by decide) (by decide +kernel)).2

end Sys2Proof.Machine
end

/-! ### PAUSE and PFC stops (R44 to R48) -/

section
namespace Sys2Proof.Machine

theorem State.leaves_stopAccount (s : State) (p : Nat) (x : Touch) (hp : p ∈ x.ports) (hc : x.ctrs (Ctr.port p 0x238)) :
    s.leaves (s.stopAccount p) x := by
  unfold State.stopAccount
  dsimp only
  split
  · exact State.leaves_refl s x
  · exact State.leaves_trans (State.leaves_setPort s p _ x hp) (State.leaves_count _ _ _ x hc)

theorem State.leaves_clsFollow (s t : State) (p : Nat) (x : Touch) (hp : p ∈ x.ports) : t.leaves (s.clsFollow p t) x := State.leaves_setPort t p _ x hp

/-- The stop of a port, when its time has been set, begins, goes on or ends. -/
def State.stopTurn (s : State) (p : Nat) : State :=
  if s.stopped p then
    (match (s.port p).stopFrom with
     | some _ => s
     | none => s.setPort p { s.port p with stopFrom := some s.now, accAt := s.now })
  else s.setPort p { s.port p with stopFrom := none }

theorem State.stopSet_eq (s : State) (p pauseEnd : Nat) (pfcEnd : List Nat) :
    s.stopSet p pauseEnd pfcEnd = s.clsFollow p
      (((s.stopAccount p).setPort p { (s.stopAccount p).port p with pauseEnd := pauseEnd, pfcEnd := pfcEnd }).stopTurn p) := rfl

theorem State.leaves_stopTurn (s : State) (p : Nat) (x : Touch) (hp : p ∈ x.ports) : s.leaves (s.stopTurn p) x := by
  refine State.leaves_ite _ (fun _ => ?_) (fun _ => State.leaves_setPort s p _ x hp)
  split
  · exact State.leaves_refl s x
  · exact State.leaves_setPort s p _ x hp

theorem State.leaves_stopSet (s : State) (p pauseEnd : Nat) (pfcEnd : List Nat) (x : Touch) (hp : p ∈ x.ports) (hc : x.ctrs (Ctr.port p 0x238)) :
    s.leaves (s.stopSet p pauseEnd pfcEnd) x := by
  rw [State.stopSet_eq]
  exact State.leaves_trans (State.leaves_trans (State.leaves_trans (State.leaves_stopAccount s p x hp hc) (State.leaves_setPort _ p _ x hp))
    (State.leaves_stopTurn _ p x hp)) (State.leaves_clsFollow s _ p x hp)

/-- When the stops of a port end. -/
def Port.ends (x : Port) : Nat × List Nat := (x.pauseEnd, x.pfcEnd)

@[simp] theorem State.ends_stopTurn (s : State) (p : Nat) : ((s.stopTurn p).port p).ends = (s.port p).ends := by
  unfold State.stopTurn
  split
  · split
    · rfl
    · simp [Port.ends]
  · simp [Port.ends]

@[simp] theorem State.ends_clsFollow (s t : State) (p : Nat) : ((s.clsFollow p t).port p).ends = (t.port p).ends := by
  simp [State.clsFollow, Port.ends]

@[simp] theorem State.ends_stopAccount (s : State) (p : Nat) : ((s.stopAccount p).port p).ends = (s.port p).ends := by
  unfold State.stopAccount
  dsimp only
  split
  · rfl
  · simp [Port.ends]

/-- The times of a port's stops are those set. -/
theorem State.ends_stopSet (s : State) (p pauseEnd : Nat) (pfcEnd : List Nat) : ((s.stopSet p pauseEnd pfcEnd).port p).ends = (pauseEnd, pfcEnd) := by
  rw [State.stopSet_eq, State.ends_clsFollow, State.ends_stopTurn, State.port_setPort_self, Port.ends]

theorem State.stopEnd_of_ends {s : State} {p a : Nat} {l : List Nat} (h : (s.port p).ends = (a, l)) : s.stopEnd p = l.foldl max a := by
  obtain ⟨ha, hl⟩ := Prod.mk.inj h
  rw [State.stopEnd, ha, hl]

/-- Once the time of a port's stop is over, its account ends it. -/
theorem State.stopFrom_stopAccount (s : State) (p : Nat) (h : s.stopEnd p ≤ s.now) : ((s.stopAccount p).port p).stopFrom = none := by
  unfold State.stopAccount
  dsimp only
  split
  · assumption
  · simp [h]

/-! #### The frame in the MAC -/

/-- A frame set aside comes back into the MAC, or nothing does (R47). -/
theorem State.txBack_cases (s : State) (p : Nat) : s.txBack p = s ∨ ∃ y l, s.txBack p = s.setPort p { s.port p with tx := y, aside := l } := by
  unfold State.txBack
  split
  · exact .inr ⟨_, _, rfl⟩
  · exact .inl rfl

/-- The frame in the MAC is in another phase, and counted where it starts late (R318), or nothing is. -/
theorem State.txGo_cases (s : State) (p : Nat) : s.txGo p = s ∨
    ∃ y, s.txGo p = s.setPort p { s.port p with tx := y } ∨ s.txGo p = (s.setPort p { s.port p with tx := y }).count (Ctr.port p 0x3C0) 1 := by
  unfold State.txGo
  split
  · exact .inl rfl
  · dsimp only
    split_ifs
    · exact .inl rfl
    · exact .inr ⟨_, .inl rfl⟩
    · exact .inr ⟨_, .inl rfl⟩
    · exact .inr ⟨_, .inl rfl⟩
    · exact .inr ⟨_, .inr rfl⟩
    · exact .inr ⟨_, .inl rfl⟩

theorem State.leaves_txAdvance (s : State) (p : Nat) (x : Touch) (hp : p ∈ x.ports) (hc : x.ctrs (Ctr.port p 0x3C0)) : s.leaves (s.txAdvance p) x := by
  refine State.leaves_trans (t := s.txBack p) ?_ ?_
  · obtain h | ⟨y, l, h⟩ := State.txBack_cases s p
    · rw [h]; exact State.leaves_refl s x
    · rw [h]; exact State.leaves_setPort s p _ x hp
  · show (s.txBack p).leaves ((s.txBack p).txGo p) x
    obtain h | ⟨y, h | h⟩ := State.txGo_cases (s.txBack p) p
    · rw [h]; exact State.leaves_refl _ x
    · rw [h]; exact State.leaves_setPort _ p _ x hp
    · rw [h]; exact State.leaves_trans (State.leaves_setPort _ p _ x hp) (State.leaves_count _ _ _ x hc)

/-- It changes nothing of the port's stops. -/
theorem State.stops_txAdvance (s : State) (p : Nat) :
    ((s.txAdvance p).port p).stopFrom = (s.port p).stopFrom ∧ ((s.txAdvance p).port p).ends = (s.port p).ends := by
  have back : ((s.txBack p).port p).stopFrom = (s.port p).stopFrom ∧ ((s.txBack p).port p).ends = (s.port p).ends := by
    obtain h | ⟨y, l, h⟩ := State.txBack_cases s p <;> simp [h, Port.ends]
  rw [← back.1, ← back.2, State.txAdvance]
  obtain h | ⟨y, h | h⟩ := State.txGo_cases (s.txBack p) p <;> simp [h, Port.ends]

/-! #### The commands -/

theorem State.portAbsent_of_receives {s : State} {p : Nat} (h : s.receives p = true) : s.portAbsent p = false := by
  simp only [State.receives, Bool.and_eq_true, Bool.not_eq_true'] at h
  exact h.1.1.1

@[simp] theorem State.receives_begun (s : State) (dt p : Nat) : (s.begun dt).receives p = s.receives p := by
  simp [State.receives, State.linkUp]
@[simp] theorem State.lineTime_begun (s : State) (dt p n : Nat) : (s.begun dt).lineTime p n = s.lineTime p n := by simp [State.lineTime]

@[simp] theorem State.stopEnd_settle (s s0 : State) (t : Time) (p : Nat) : (s.settle s0 t).stopEnd p = s.stopEnd p := by simp [State.stopEnd]
@[simp] theorem State.stopEnd_raise (s : State) (f : Fld) (p : Nat) : (s.raise f).stopEnd p = s.stopEnd p := rfl
/-- A command ends at the time at which it began to act. -/
theorem State.now_settle_begun (g s : State) (dt : Nat) : (g.settle s (s.begun dt).time).now = s.now + dt := State.now_begun s dt

/-- A port without PAUSE_WD hears PAUSE and PFC (R48). -/
theorem State.pauseDeaf_of_fld {s : State} {p : Nat} (h : s.fld (Fld.PT_INT_STATUS_PAUSE_WD p) = 0) : s.pauseDeaf p = false := by
  simp [State.pauseDeaf, State.bit, h]

/-- A PAUSE frame on a trunk port that takes it (R44). -/
theorem pauseRx_stops (s : State) (dt p q : Nat) (ht : 128 ≤ p) (hp : p < 144) (hm : s.mainUp = true) (hr : s.receives p = true)
    (he : s.fld (Fld.PT_PAUSE_CTRL_PAUSE_EN p) = 1) (hw : s.fld (Fld.PT_INT_STATUS_PAUSE_WD p) = 0) :
    ∃ t, exec (.pauseRx dt p q) s = .next t ∧ (t.port p).pauseEnd = s.now + dt + s.lineTime p (64 * q) ∧
      (t.port p).pfcEnd = (s.port p).pfcEnd ∧
      (s.begun dt).frame t { ctrs := (· = Ctr.port p 0x238), ports := [p] } := by
  have act : (s.begun dt).onPort p (fun s => if s.receives p then s.pauseAct p q else s) =
      (s.begun dt).stopSet p (s.now + dt + s.lineTime p (64 * q)) (s.port p).pfcEnd := by
    rw [State.onPort_present _ _ _ (by simpa using State.portAbsent_of_receives hr), if_pos (by simpa using hr), State.pauseAct,
      if_pos ⟨ht, by simp [State.bit, he], State.pauseDeaf_of_fld (by simpa using hw)⟩, State.quantaTime, State.now_begun, State.lineTime_begun,
      State.port_begun]
  obtain ⟨next, frame⟩ := exec_main_touches (c := .pauseRx dt p q) (x := { ctrs := (· = Ctr.port p 0x238), ports := [p] })
    rfl (decide_eq_true hp) hm act (State.leaves_stopSet _ p _ _ _ (by simp) rfl)
  have ends := State.ends_stopSet (s.begun dt) p (s.now + dt + s.lineTime p (64 * q)) (s.port p).pfcEnd
  obtain ⟨pause, pfc⟩ := Prod.mk.inj ends
  exact ⟨_, next, by rw [State.port_settle, pause], by rw [State.port_settle, pfc], frame⟩

/-- A PFC frame on a trunk port that takes it (R45). -/
theorem pfcRx_stops (s : State) (dt p en : Nat) (qs : List Nat) (ht : 128 ≤ p) (hp : p < 144) (hm : s.mainUp = true) (hr : s.receives p = true)
    (he : s.fld (Fld.PT_PAUSE_CTRL_PFC_EN p) = 1) (hw : s.fld (Fld.PT_INT_STATUS_PAUSE_WD p) = 0) :
    ∃ t, exec (.pfcRx dt p en qs) s = .next t ∧ (t.port p).pauseEnd = (s.port p).pauseEnd ∧
      (∀ k, k < 8 → (t.port p).pfcEnd.getD k 0 =
        if bitOf en k then s.now + dt + s.lineTime p (64 * qs.getD k 0) else (s.port p).pfcEnd.getD k 0) ∧
      (s.begun dt).frame t { ctrs := (· = Ctr.port p 0x238), ports := [p] } := by
  have act : (s.begun dt).onPort p (fun s => if s.receives p then s.pfcAct p en qs else s) =
      (s.begun dt).stopSet p (s.port p).pauseEnd ((List.range 8).map (fun k =>
        if bitOf en k then s.now + dt + s.lineTime p (64 * qs.getD k 0) else (s.port p).pfcEnd.getD k 0)) := by
    rw [State.onPort_present _ _ _ (by simpa using State.portAbsent_of_receives hr), if_pos (by simpa using hr), State.pfcAct,
      if_pos ⟨ht, by simp [State.bit, he], State.pauseDeaf_of_fld (by simpa using hw)⟩]
    simp only [State.quantaTime, State.now_begun, State.lineTime_begun, State.port_begun]
  obtain ⟨next, frame⟩ := exec_main_touches (c := .pfcRx dt p en qs) (x := { ctrs := (· = Ctr.port p 0x238), ports := [p] })
    rfl (decide_eq_true hp) hm act (State.leaves_stopSet _ p _ _ _ (by simp) rfl)
  obtain ⟨pause, pfc⟩ := Prod.mk.inj (State.ends_stopSet (s.begun dt) p (s.port p).pauseEnd ((List.range 8).map (fun k =>
        if bitOf en k then s.now + dt + s.lineTime p (64 * qs.getD k 0) else (s.port p).pfcEnd.getD k 0)))
  refine ⟨_, next, by rw [State.port_settle, pause], fun k hk => ?_, frame⟩
  rw [State.port_settle, pfc]
  simp [List.getD_eq_getElem?_getD, List.getElem?_range hk]

/-- The time of a stop has run out (R44). -/
theorem pauseExpire_due (s : State) (dt p : Nat) (hp : p < 144) (hm : s.mainUp = true) (_ : (s.port p).stopFrom ≠ none) (hd : s.stopEnd p ≤ s.now + dt) :
    ∃ t, exec (.pauseExpire dt p) s = .next t ∧ (t.port p).stopFrom = none ∧ t.stopped p = false ∧
      (s.begun dt).frame t { ctrs := (· ∈ [Ctr.port p 0x238, Ctr.port p 0x3C0]), ports := [p] } := by
  have due : (s.begun dt).stopEnd p ≤ (s.begun dt).now := by simpa [State.stopEnd] using hd
  obtain ⟨next, frame⟩ := exec_main_touches (c := .pauseExpire dt p) (x := { ctrs := (· ∈ [Ctr.port p 0x238, Ctr.port p 0x3C0]), ports := [p] })
    rfl (decide_eq_true hp) hm rfl
    (State.leaves_trans (State.leaves_stopAccount _ p _ (by simp) (by simp)) (State.leaves_txAdvance _ p _ (by simp) (by simp)))
  obtain ⟨stopFrom, ends⟩ := State.stops_txAdvance ((s.begun dt).stopAccount p) p
  refine ⟨_, next, by rw [State.port_settle, stopFrom, State.stopFrom_stopAccount _ p due], ?_, frame⟩
  have till : (((s.begun dt).stopAccount p).txAdvance p).stopEnd p = s.stopEnd p :=
    State.stopEnd_of_ends (by rw [ends, State.ends_stopAccount, State.port_begun]; rfl)
  rw [State.stopped, State.now_settle_begun, State.stopEnd_settle, till]
  exact decide_eq_false (Nat.not_lt.2 hd)

/-- The watchdog of a class that has been stopped for WD_MS (R48). -/
theorem pauseWd_due (s : State) (dt p c f : Nat) (hp : p < 144) (hm : s.mainUp = true) (hc : c < 8) (hf : (s.port p).clsFrom.getD c none = some f)
    (hs : (s.begun dt).clsStopped p c = true) (hw : 0 < s.fld (Fld.PT_PAUSE_CTRL_WD_MS p))
    (hd : f + s.fld (Fld.PT_PAUSE_CTRL_WD_MS p) * tMs ≤ s.now + dt) :
    ∃ t, exec (.pauseWd dt p) s = .next t ∧ t.fld (Fld.PT_INT_STATUS_PAUSE_WD p) = 1 ∧ t.stopped p = false ∧ t.stopEnd p = 0 ∧
      (s.begun dt).frame t { regs := (· = Reg.PT_INT_STATUS p), ctrs := (· = Ctr.port p 0x238), ports := [p] } := by
  have act : (s.begun dt).pauseWatch p = ((s.begun dt).stopSet p 0 [0, 0, 0, 0, 0, 0, 0, 0]).raise (Fld.PT_INT_STATUS_PAUSE_WD p) := by
    rw [State.pauseWatch, if_pos]
    refine ⟨by simpa using hw, List.any_eq_true.2 ⟨c, List.mem_range.2 hc, ?_⟩⟩
    rw [hs, State.port_begun, hf]
    simpa using hd
  obtain ⟨next, frame⟩ := exec_main_touches (c := .pauseWd dt p)
    (x := { regs := (· = Reg.PT_INT_STATUS p), ctrs := (· = Ctr.port p 0x238), ports := [p] }) rfl (decide_eq_true hp) hm act
    (State.leaves_trans (State.leaves_stopSet _ p _ _ _ (by simp) rfl) (State.leaves_raise _ _ _ rfl))
  have till := State.stopEnd_of_ends (State.ends_stopSet (s.begun dt) p 0 [0, 0, 0, 0, 0, 0, 0, 0])
  refine ⟨_, next, ?_, ?_, by rw [State.stopEnd_settle, State.stopEnd_raise, till]; rfl, frame⟩
  case refine_2 => rw [State.stopped, State.stopEnd_settle, State.stopEnd_raise, till]; rfl
  rw [State.fld_settle, State.fld_raise_self _ _ (by simp [Fld.PT_INT_STATUS_PAUSE_WD]) (by simp [Fld.PT_INT_STATUS_PAUSE_WD])]

/-- While PAUSE_WD is 1 a PAUSE frame does nothing (R48). -/
theorem pauseRx_deaf (s : State) (dt p q : Nat) (hp : p < 144) (hm : s.mainUp = true) (hw : s.fld (Fld.PT_INT_STATUS_PAUSE_WD p) = 1) :
    ∃ t, exec (.pauseRx dt p q) s = .next t ∧ (s.begun dt).frame t {} := by
  have act : (s.begun dt).onPort p (fun s => if s.receives p then s.pauseAct p q else s) = s.begun dt := by
    have ignored : (s.begun dt).pauseAct p q = s.begun dt := by
      rw [State.pauseAct, if_neg (by simp [State.pauseDeaf, State.bit, hw])]
    rw [State.onPort, ignored, ite_self, ite_self]
  exact ⟨_, exec_main_touches (c := .pauseRx dt p q) rfl (decide_eq_true hp) hm act (State.leaves_refl _ _)⟩

/-- Settles O4: every row works on the port's stops through `State.stopSet` or the account of a stop. -/
theorem pauseStops : Obligations.PauseStops :=
  ⟨pauseRx_stops, pfcRx_stops, pauseExpire_due, pauseWd_due, pauseRx_deaf⟩

end Sys2Proof.Machine
end

/-! ### What a fall of LINK keeps (R52, R238 to R240) -/

section
namespace Sys2Proof.Machine

/-- LINK, its event and the counter of its falls are as they were, a mode that waits does so still, and the port's transmitter and receiver take up nothing. -/
structure LinkKept (p : Nat) (s t : State) : Prop where
  timeReq : t.timeReq = s.timeReq
  link : t.fld (Fld.PT_STATUS_LINK p) = s.fld (Fld.PT_STATUS_LINK p)
  event : t.fld (Fld.PT_INT_STATUS_LINK_CHG p) = s.fld (Fld.PT_INT_STATUS_LINK_CHG p)
  falls : t.ctr (Ctr.port p 0x220) = s.ctr (Ctr.port p 0x220)
  due : (t.port p).modeDue = (s.port p).modeDue
  tx : (s.port p).tx = none → (t.port p).tx = none
  rx : (s.port p).rxOn = false → (t.port p).rxOn = false

section
variable {p : Nat} {s t u : State}

theorem LinkKept.refl (p : Nat) (s : State) : LinkKept p s s := ⟨rfl, rfl, rfl, rfl, rfl, id, id⟩

theorem LinkKept.trans (h : LinkKept p s t) (g : LinkKept p t u) : LinkKept p s u :=
  ⟨g.timeReq.trans h.timeReq, g.link.trans h.link, g.event.trans h.event, g.falls.trans h.falls, g.due.trans h.due, g.tx ∘ h.tx, g.rx ∘ h.rx⟩

theorem LinkKept.ite (c : Prop) [Decidable c] (h : LinkKept p s t) (g : LinkKept p s u) : LinkKept p s (if c then t else u) := by
  split
  · exact h
  · exact g

theorem LinkKept.foldl {α : Type} (f : State → α → State) (h : ∀ s a, LinkKept p s (f s a)) (l : List α) (s : State) : LinkKept p s (l.foldl f s) := by
  induction l generalizing s with
  | nil => exact .refl p s
  | cons a l ih => exact (h s a).trans (ih _)

/-- What keeps registers, counters and ports keeps all of it. -/
theorem LinkKept.of_same (hq : t.timeReq = s.timeReq) (hr : t.regs = s.regs) (hc : t.ctrs = s.ctrs) (hp : t.ports = s.ports) : LinkKept p s t :=
  ⟨hq, by simp [State.fld, State.reg, hr], by simp [State.fld, State.reg, hr], by simp [State.ctr, hc], by simp [State.port, hp],
    by simp [State.port, hp], by simp [State.port, hp]⟩

theorem fallsCtr_ne_msix (p : Nat) : Ctr.port p 0x220 ≠ Ctr.hi 0x20 := by simp only [Ctr.port, Ctr.hi]; omega

theorem LinkKept.of_leaves {x : Touch} (h : s.leaves t x) (hs : ¬ x.regs (Reg.PT_STATUS p)) (hi : ¬ x.regs (Reg.PT_INT_STATUS p))
    (hc : ¬ x.ctrs (Ctr.port p 0x220)) (hp : p ∉ x.ports) : LinkKept p s t :=
  ⟨h.2, h.fld hs, h.fld hi, h.1.2.2.1 _ (fallsCtr_ne_msix p) hc, by rw [h.port hp], by rw [h.port hp]; exact id, by rw [h.port hp]; exact id⟩

end

section
variable (p : Nat) (s : State)

theorem State.linkKept_setF {f : Fld} (v : Nat) (hf : f.lo + f.len ≤ 32) (hl : f.apart (Fld.PT_STATUS_LINK p))
    (he : f.apart (Fld.PT_INT_STATUS_LINK_CHG p)) : LinkKept p s (s.setF f v) :=
  ⟨rfl, State.fld_setF_of_apart s v hf hl, State.fld_setF_of_apart s v hf he, rfl, rfl, id, id⟩

theorem State.linkKept_count {a : Nat} (n : Nat) (h : a ≠ Ctr.port p 0x220) : LinkKept p s (s.count a n) :=
  ⟨rfl, rfl, rfl, State.ctr_count_ne s a _ n h.symm, rfl, id, id⟩

/-- The counters of a port, but for that of the falls. -/
theorem State.linkKept_countPort {o : Nat} (n : Nat) (h : o ≠ 0x220) : LinkKept p s (s.count (Ctr.port p o) n) :=
  State.linkKept_count p s n (by simp only [Ctr.port]; omega)

theorem State.linkKept_setPort (q : Nat) (y : Port) (hd : y.modeDue = (s.port q).modeDue) (ht : (s.port q).tx = none → y.tx = none)
    (hr : (s.port q).rxOn = false → y.rxOn = false) : LinkKept p s (s.setPort q y) := by
  by_cases h : p = q
  · subst h
    exact ⟨rfl, rfl, rfl, rfl, by simpa using hd, by simpa using ht, by simpa using hr⟩
  · have e := State.port_setPort_ne s q p y h
    exact ⟨rfl, rfl, rfl, rfl, by rw [e], by rw [e]; exact id, by rw [e]; exact id⟩

/-- A mute sets bit 30 of a word, and the bits of LINK and of its event are bits 0. -/
theorem State.linkKept_mute (n : Nat) (on : Bool) : LinkKept p s (s.mute n on) :=
  State.linkKept_setF p s _ (by simp [Fld.TW_GEN_MUTED]) (.inr (.inl (by simp [Fld.TW_GEN_MUTED, Fld.PT_STATUS_LINK])))
    (.inr (.inl (by simp [Fld.TW_GEN_MUTED, Fld.PT_INT_STATUS_LINK_CHG])))

theorem State.linkKept_lossAt (q : Nat) : LinkKept p s (s.lossAt q) :=
  .ite _ (.foldl _ (fun s _ => State.linkKept_mute p s _ _) _ s) (.refl p s)

theorem State.linkKept_countLoss {o : Nat} (h : o ≠ 0x220) : LinkKept p s (s.countLoss p o) :=
  (State.linkKept_countPort p s 1 h).trans (State.linkKept_lossAt p _ p)

theorem State.linkKept_releaseCells (rank claim : Nat) (cells : List Nat) : LinkKept p s (s.releaseCells rank claim cells) :=
  .of_leaves (State.leaves_releaseCells s rank claim cells { parts := [.pool] } (by simp)) id id id (by simp)

@[simp] theorem State.port_releaseCells (rank claim : Nat) (cells : List Nat) (q : Nat) : (s.releaseCells rank claim cells).port q = s.port q := by
  cases cells <;> rfl

theorem State.linkKept_rxFree : LinkKept p s (s.rxFree p) :=
  (State.linkKept_releaseCells p s _ _ _).trans (State.linkKept_setPort p _ p _ (by rw [State.port_releaseCells])
    (by rw [State.port_releaseCells]; exact id) (fun _ => rfl))

theorem State.linkKept_setCrf (q : Nat) (x : Crf) : LinkKept p s (s.setCrf q x) := .of_same rfl rfl rfl rfl

theorem State.linkKept_drawn : LinkKept p s s.drawn := .of_same rfl rfl rfl rfl

theorem State.linkKept_rxAbort : LinkKept p s (s.rxAbort p) := by
  have lost := State.linkKept_countLoss p s (o := 0x050) (by decide)
  exact .ite _ ((lost.trans (.ite _ (State.linkKept_countLoss p _ (by decide)) (.refl p _))).trans (State.linkKept_rxFree p _)) (.refl p s)

/-- A cut reception is over. -/
theorem State.rxOn_rxAbort : ((s.rxAbort p).port p).rxOn = false := by
  unfold State.rxAbort
  split
  · simp [State.rxFree]
  · simpa using ‹¬ (s.port p).rxOn = true›

theorem State.linkKept_rxCut : LinkKept p s (s.rxCut p) :=
  .ite _ (((LinkKept.ite _ (.refl p s) (State.linkKept_countLoss p s (by decide))).trans (State.linkKept_setCrf p _ p _)).trans
    (State.linkKept_rxAbort p _)) (State.linkKept_rxAbort p s)

theorem State.rxOn_rxCut : ((s.rxCut p).port p).rxOn = false := by
  unfold State.rxCut
  dsimp only
  split <;> exact State.rxOn_rxAbort p _

/-! #### The end of a transmission -/

theorem sizeBin_le (n : Nat) : sizeBin n ≤ 8 := by unfold sizeBin; split_ifs <;> omega
theorem castOf_le (bs : List Byte) : castOf bs ≤ 2 := by unfold castOf; split_ifs <;> omega

theorem State.linkKept_countTx (bs : List Byte) (sent : Nat) : LinkKept p s (s.countTx p bs sent) := by
  have cast := castOf_le bs
  have size := sizeBin_le bs.length
  exact (((State.linkKept_countPort p s _ (by decide)).trans (State.linkKept_countPort p _ _ (by decide))).trans
    (State.linkKept_countPort p _ _ (by omega))).trans (State.linkKept_countPort p _ _ (by omega))

theorem State.linkKept_jobEnd (r num status w0 w1 : Nat) : LinkKept p s (s.jobEnd r num status w0 w1) :=
  .of_leaves (State.leaves_jobEnd s r num status w0 w1 { parts := [.hi], rings := [r] } (by simp) (by simp)) id id id (by simp)

theorem State.linkKept_decRef (f : Nat) : LinkKept p s (s.decRef f) := by
  refine .of_leaves (State.leaves_decRef s f
    { parts := [.pool, .fab, .hi], rings := (((s.frame? f).bind (·.host)).map (·.ring)).toList } (by simp) (by simp) (fun y k hy hk _ => ?_))
    id id id (by simp)
  simp [hy, hk]

theorem State.linkKept_leaveEgress (x : QEnt) : LinkKept p s (s.leaveEgress x) := by
  delta State.leaveEgress
  extract_lets s1 _ s2 _ s3
  have out : LinkKept p s s1 := .of_same rfl rfl rfl rfl
  have copied : LinkKept p s s2 := .ite _ (out.trans (.of_same rfl rfl rfl rfl)) out
  have noted : LinkKept p s s3 := .ite _ (copied.trans (State.linkKept_setPort p s2 x.port _ rfl id id)) copied
  exact noted.trans (State.linkKept_decRef p s3 _)

theorem State.linkKept_txTruncated (t : TxSt) (n ts : Nat) : LinkKept p s (s.txTruncated p t n ts) := by
  delta State.txTruncated
  extract_lets s1 s2
  have counted : LinkKept p s s1 := (State.linkKept_countTx p s _ _).trans (State.linkKept_countPort p _ _ (by decide))
  have ended : LinkKept p s s2 := by
    unfold s2
    split
    · split
      · exact .ite _ (counted.trans (State.linkKept_jobEnd p _ _ _ _ _ _)) counted
      · exact counted
    · exact counted
  exact ended.trans (State.linkKept_leaveEgress p s2 _)

theorem State.linkKept_toLine (bs : List Byte) (cut : Bool) (e : OutEv) : LinkKept p s (s.toLine p bs cut e) :=
  .ite _ (State.linkKept_setPort p s p _ rfl id id) (.of_same rfl rfl rfl rfl)

/-- The edit of a PTP message counts at most that it was made or missed. -/
theorem State.ptpEdit_counts (t : TxSt) (f : Frame) : (s.ptpEdit p t f).2 = s ∨ (s.ptpEdit p t f).2 = s.count (Ctr.port p 0x3D8) 1 ∨
    (s.ptpEdit p t f).2 = s.count (Ctr.port p 0x3E0) 1 := by
  unfold State.ptpEdit
  dsimp only
  repeat' split
  all_goals simp

theorem State.linkKept_ptpEdit (t : TxSt) (f : Frame) : LinkKept p s (s.ptpEdit p t f).2 := by
  rcases State.ptpEdit_counts p s t f with e | e | e <;> rw [e]
  · exact .refl p s
  · exact State.linkKept_countPort p s 1 (by decide)
  · exact State.linkKept_countPort p s 1 (by decide)

theorem State.linkKept_pgUse (g : Nat) : LinkKept p s (s.pgUse g) := .ite _ (.of_same rfl rfl rfl rfl) (.refl p s)

theorem State.linkKept_txDone (t : TxSt) (f : Frame) : LinkKept p s (s.txDone p t f) := by
  delta State.txDone
  extract_lets s1 s2
  have counted : LinkKept p s s1 := State.linkKept_countTx p s _ _
  have ended : LinkKept p s s2 := by
    unfold s2
    split
    · exact .ite _ (counted.trans (State.linkKept_jobEnd p _ _ _ _ _ _)) counted
    · exact counted
  exact (ended.trans (State.linkKept_leaveEgress p s2 _)).trans (State.linkKept_pgUse p _ _)

/-- The transmitter lets go of its frame. -/
theorem State.linkKept_txNone : LinkKept p s (s.setPort p { s.port p with tx := none }) :=
  State.linkKept_setPort p s p _ rfl (fun _ => rfl) id

/-- After the cut of a transmission the transmitter has no frame. -/
theorem State.txCut_ends : LinkKept p s (s.txCut p) ∧ ((s.txCut p).port p).tx = none := by
  have freed := State.linkKept_txNone p s
  have none0 : ((s.setPort p { s.port p with tx := none }).port p).tx = none := by simp
  have after {u : State} (h : LinkKept p (s.setPort p { s.port p with tx := none }) u) : LinkKept p s u ∧ (u.port p).tx = none :=
    ⟨freed.trans h, h.tx none0⟩
  unfold State.txCut
  split
  · exact ⟨.refl p s, ‹_›⟩
  · next t ht =>
    split
    · next whole =>
      unfold State.txEnd
      rw [ht]
      dsimp only
      rw [if_pos ⟨whole.1, whole.2.2⟩]
      split
      · exact after (State.linkKept_leaveEgress p _ _)
      · exact after (((State.linkKept_ptpEdit p _ t _).trans (State.linkKept_toLine p _ _ _ _)).trans (State.linkKept_txDone p _ t _))
    · dsimp only
      split
      · have drawn : LinkKept p (s.setPort p { s.port p with tx := none }) (s.setPort p { s.port p with tx := none }).drawn := .of_same rfl rfl rfl rfl
        exact after ((drawn.trans (State.linkKept_toLine p _ _ _ _)).trans (State.linkKept_txTruncated p _ t _ _))
      · exact after (State.linkKept_txTruncated p _ t 0 0)

theorem State.linkKept_asideCut : LinkKept p s (s.asideCut p) :=
  (State.linkKept_setPort p s p { s.port p with aside := [] } rfl id id).trans (.foldl _ (fun s t => State.linkKept_txTruncated p s t 0 0) _ _)

theorem State.linkKept_framerCut : LinkKept p s (s.framerCut p) := by
  delta State.framerCut
  extract_lets x _ s1 s2
  have cut : LinkKept p s s2 := (State.linkKept_setCrf p s p _).trans (.foldl _ (fun s t => State.linkKept_txTruncated p s t 0 0) _ s1)
  split
  · exact cut
  · exact (cut.trans (State.linkKept_setCrf p s2 p _)).trans (State.linkKept_txTruncated p _ _ _ _)

/-! #### The tables and the hold -/

theorem State.linkKept_journal (kind origin sub : Nat) (args : List Nat) : LinkKept p s (s.journal kind origin sub args) :=
  .of_leaves (State.leaves_journal s kind origin sub args { parts := [.jn], regs := (· = Reg.CM_INT_STATUS) } (by simp) rfl)
    (by simp only [Reg.PT_STATUS, Reg.CM_INT_STATUS]; omega) (by simp only [Reg.PT_INT_STATUS, Reg.CM_INT_STATUS]; omega) id (by simp)

theorem State.linkKept_macFlush (k tc2 tc3 : Nat) (useDest : Bool) : LinkKept p s (s.macFlush k tc2 tc3 useDest).2 :=
  .foldl (fun (s : State) (e : Nat × MacEnt) => s.setMac k e.1 MacEnt.empty) (fun _ _ => .of_same rfl rfl rfl rfl) _ s

/-- The counter of flushed entries of a plane is none of a port's. -/
theorem planeCtr_ne_falls (k : Nat) : Ctr.plane k 0x68 ≠ Ctr.port p 0x220 := by simp only [Ctr.plane, Ctr.port]; omega

theorem State.linkKept_flushOnDown : LinkKept p s (s.flushOnDown p) := by
  delta State.flushOnDown
  extract_lets ks r nib
  have flushed : LinkKept p s r.2 := by
    refine List.foldlRecOn (motive := fun (a : Nat × State) => LinkKept p s a.2) _ _ (.refl p s) (fun a ha k _ => ?_)
    exact (ha.trans (State.linkKept_macFlush p a.2 _ _ _ _)).trans (State.linkKept_count p _ _ (planeCtr_ne_falls p k))
  exact .ite _ (.refl p s) (flushed.trans (State.linkKept_journal p r.2 _ _ _ _))

theorem State.linkKept_holdStart : LinkKept p s (s.holdStart p) := by
  delta State.holdStart
  extract_lets s1
  have counted : LinkKept p s s1 := State.linkKept_countPort p s 1 (by decide)
  have held (h n m : Nat) : LinkKept p s (s1.setPort p { s1.port p with hold := h, holdAt := n, holdMin := m }) :=
    counted.trans (State.linkKept_setPort p s1 p _ rfl id id)
  exact .ite _ (.ite _ ((held _ _ _).trans (.of_same rfl rfl rfl rfl)) (held _ _ _)) (.refl p s)

theorem State.linkKept_holdReturn : LinkKept p s (s.holdReturn p) :=
  .ite _ ((State.linkKept_countPort p s 1 (by decide)).trans (State.linkKept_setPort p _ p _ rfl id id))
    (.ite _ (State.linkKept_setPort p s p _ rfl id id) (.refl p s))

theorem State.linkKept_holdStep (t : State) : LinkKept p t (s.holdStep p t) :=
  .ite _ (.refl p t) (.ite _ (State.linkKept_holdStart p t) (State.linkKept_holdReturn p t))

end

/-- LINK is 0, with its event and one more fall counted. -/
def State.linkFallen (s : State) (p : Nat) : State :=
  ((s.setF (Fld.PT_STATUS_LINK p) 0).raise (Fld.PT_INT_STATUS_LINK_CHG p)).count (Ctr.port p 0x220) 1

theorem State.shows_linkFallen (s : State) (p : Nat) : (s.linkFallen p).fld (Fld.PT_STATUS_LINK p) = 0 ∧
    (s.linkFallen p).fld (Fld.PT_INT_STATUS_LINK_CHG p) = 1 ∧
    (s.linkFallen p).ctr (Ctr.port p 0x220) = (s.ctr (Ctr.port p 0x220) + 1) % 2 ^ 64 := by
  refine ⟨?_, ?_, ?_⟩
  case refine_3 => rw [State.linkFallen, State.ctr_count_self, State.ctr_raise, State.ctr_setF]
  · rw [State.linkFallen, State.fld_count,
      State.fld_raise_ne _ _ _ (by simp [Fld.PT_STATUS_LINK, Fld.PT_INT_STATUS_LINK_CHG, Reg.PT_STATUS, Reg.PT_INT_STATUS]),
      State.fld_setF_self _ _ _ (by simp [Fld.PT_STATUS_LINK])]
    rfl
  · rw [State.linkFallen, State.fld_count,
      State.fld_raise_self _ _ (by simp [Fld.PT_INT_STATUS_LINK_CHG]) (by simp [Fld.PT_INT_STATUS_LINK_CHG])]

/-- After that a fall of LINK ends the reception and the transmission and keeps what `LinkKept` names. -/
theorem State.linkFall_ends (s : State) (p : Nat) (h : s.linkUp p = true) :
    LinkKept p (s.linkFallen p) (s.linkFall p) ∧ ((s.linkFall p).port p).tx = none ∧ ((s.linkFall p).port p).rxOn = false := by
  unfold State.linkFall
  rw [if_pos h]
  extract_lets s1 s2 s3 _ s4
  have received := State.linkKept_rxCut p s1
  obtain ⟨sent, idle⟩ := State.txCut_ends p (s1.rxCut p)
  have ended : LinkKept p ((s1.rxCut p).txCut p) s2 := (State.linkKept_asideCut p _).trans (State.linkKept_framerCut p _)
  have drawn : LinkKept p s2 s2.drawn := State.linkKept_drawn p s2
  have open_ : LinkKept p s2.drawn s3 := State.linkKept_setF p s2.drawn _ (by simp [Fld.PT_TS_VAR_RX_VAR])
    (.inl (by simp [Fld.PT_TS_VAR_RX_VAR, Fld.PT_STATUS_LINK, Reg.PT_STATUS, Reg.PT_TS_VAR]))
    (.inl (by simp [Fld.PT_TS_VAR_RX_VAR, Fld.PT_INT_STATUS_LINK_CHG, Reg.PT_INT_STATUS, Reg.PT_TS_VAR]))
  have looped : LinkKept p s3 s4 := State.linkKept_setPort p s3 p _ rfl id id
  have rest : LinkKept p ((s1.rxCut p).txCut p) (s.holdStep p ((s4.lossAt p).flushOnDown p)) :=
    ((((((ended.trans drawn).trans open_).trans looped).trans (State.linkKept_lossAt p s4 p)).trans (State.linkKept_flushOnDown p _))).trans
      (State.linkKept_holdStep p s _)
  exact ⟨(received.trans sent).trans rest, rest.tx idle, rest.rx (sent.rx (State.rxOn_rxCut p s1))⟩

end Sys2Proof.Machine
end

/-! ### LINK, lock and faults of an Ethernet port (R52, R53, R306) -/

section
namespace Sys2Proof.Machine

@[simp] theorem State.crfOn_begun (s : State) (dt p : Nat) : (s.begun dt).crfOn p = s.crfOn p := by simp [State.crfOn, State.abit]
@[simp] theorem State.linkUp_begun (s : State) (dt p : Nat) : (s.begun dt).linkUp p = s.linkUp p := by simp [State.linkUp]
@[simp] theorem State.tsConst_begun (s : State) (dt p : Nat) : (s.begun dt).tsConst p = s.tsConst p := by simp [State.tsConst]
@[simp] theorem State.baseR_begun (s : State) (dt p : Nat) : (s.begun dt).baseR p = s.baseR p := by simp [State.baseR]
@[simp] theorem State.markers_begun (s : State) (dt p : Nat) : (s.begun dt).markers p = s.markers p := by
  rw [State.markers, State.markers, State.fec, State.fec, State.mode_begun, State.afld_begun]
@[simp] theorem State.candidate_begun (s : State) (dt p : Nat) : (s.begun dt).candidate p = s.candidate p := by simp [State.candidate]

/-- A port whose LINK is 0 is down (R236). -/
theorem State.portDown_of_link {s : State} {p : Nat} (h : s.fld (Fld.PT_STATUS_LINK p) = 0) : s.portDown p = true := by simp [State.portDown, h]

theorem State.leaves_holdReturn (s : State) (p : Nat) (x : Touch) (hp : p ∈ x.ports) (hc : x.ctrs (Ctr.port p 0x3A8)) : s.leaves (s.holdReturn p) x :=
  State.leaves_ite _ (fun _ => State.leaves_trans (State.leaves_count s _ _ x hc) (State.leaves_setPort _ p _ x hp))
    (fun _ => State.leaves_ite _ (fun _ => State.leaves_setPort s p _ x hp) (fun _ => State.leaves_refl s x))

/-- The hold of a port that was down can only end. -/
theorem State.leaves_holdStep (s t : State) (p : Nat) (x : Touch) (hd : s.portDown p = true) (hp : p ∈ x.ports) (hc : x.ctrs (Ctr.port p 0x3A8)) :
    t.leaves (s.holdStep p t) x := by
  unfold State.holdStep
  split
  · exact State.leaves_refl t x
  · next moved =>
    rw [hd] at moved
    rw [if_neg moved]
    exact State.leaves_holdReturn t p x hp hc

/-- LINK is 1, with its event and the variable delay. -/
def State.linkRisen (s : State) (p v : Nat) : State :=
  (((s.setF (Fld.PT_STATUS_LINK p) 1).raise (Fld.PT_INT_STATUS_LINK_CHG p)).setF (Fld.PT_TS_VAR_RX_VAR p) v).setPort p
    { s.port p with emptyAt := s.now }

theorem State.linkRise_eq (s : State) (p rxVar : Nat) : s.linkRise p rxVar = s.holdStep p (s.linkRisen p (min rxVar (s.tsConst p).2.2)) := rfl

theorem State.leaves_linkRisen (s : State) (p v : Nat) (x : Touch) (hs : x.regs (Reg.PT_STATUS p)) (hi : x.regs (Reg.PT_INT_STATUS p))
    (hv : x.regs (Reg.PT_TS_VAR p)) (hp : p ∈ x.ports) : s.leaves (s.linkRisen p v) x :=
  State.leaves_trans (State.leaves_trans (State.leaves_trans (State.leaves_setF s _ _ x hs) (State.leaves_raise _ _ x hi))
    (State.leaves_setF _ _ _ x hv)) (State.leaves_setPort _ p _ x hp)

/-- The three fields after the rise. -/
theorem State.fld_linkRisen (s : State) (p v : Nat) : (s.linkRisen p v).fld (Fld.PT_STATUS_LINK p) = 1 ∧
    (s.linkRisen p v).fld (Fld.PT_INT_STATUS_LINK_CHG p) = 1 ∧
    (s.linkRisen p v).fld (Fld.PT_TS_VAR_RX_VAR p) = v % 2 ^ (Fld.PT_TS_VAR_RX_VAR p).len := by
  unfold State.linkRisen
  refine ⟨?_, ?_, ?_⟩
  · rw [State.fld_setPort, State.fld_setF_ne _ _ _ _ (by simp [Fld.PT_STATUS_LINK, Fld.PT_TS_VAR_RX_VAR, Reg.PT_STATUS, Reg.PT_TS_VAR]),
      State.fld_raise_ne _ _ _ (by simp [Fld.PT_STATUS_LINK, Fld.PT_INT_STATUS_LINK_CHG, Reg.PT_STATUS, Reg.PT_INT_STATUS]),
      State.fld_setF_self _ _ _ (by simp [Fld.PT_STATUS_LINK])]
    rfl
  · rw [State.fld_setPort,
      State.fld_setF_ne _ _ _ _ (by simp [Fld.PT_INT_STATUS_LINK_CHG, Fld.PT_TS_VAR_RX_VAR, Reg.PT_INT_STATUS, Reg.PT_TS_VAR]),
      State.fld_raise_self _ _ (by simp [Fld.PT_INT_STATUS_LINK_CHG]) (by simp [Fld.PT_INT_STATUS_LINK_CHG])]
  · rw [State.fld_setPort, State.fld_setF_self _ _ _ (by simp [Fld.PT_TS_VAR_RX_VAR])]

/-- LINK rises after UP (R52, R306). -/
theorem linkUp_due (s : State) (dt p v : Nat) (hp : p < 144) (hm : s.mainUp = true) (ha : s.fld (Fld.PT_STATUS_ACTIVE_MODE p) ≠ 0)
    (hc : s.crfOn p = false) (he : s.fld (Fld.PT_STATUS_EN_STATE p) = 1) (hl : s.fld (Fld.PT_STATUS_LINK p) = 0) (hk : s.candidate p = true)
    (hd : (s.port p).candAt + s.fld (Fld.PT_DEBOUNCE_UP p) * tMs ≤ s.now + dt) :
    ∃ t, exec (.linkUp dt p v) s = .next t ∧ t.fld (Fld.PT_STATUS_LINK p) = 1 ∧ t.fld (Fld.PT_INT_STATUS_LINK_CHG p) = 1 ∧
      t.fld (Fld.PT_TS_VAR_RX_VAR p) = min v (s.tsConst p).2.2 % 2 ^ (Fld.PT_TS_VAR_RX_VAR p).len ∧
      (s.begun dt).frame t { regs := (· ∈ [Reg.PT_STATUS p, Reg.PT_INT_STATUS p, Reg.PT_TS_VAR p]), ctrs := (· = Ctr.port p 0x3A8), ports := [p] } := by
  have down : (s.begun dt).portDown p = true := State.portDown_of_link (by simpa using hl)
  have act : (s.begun dt).linkUpDue p v = (s.begun dt).linkRise p v := by
    rw [State.linkUpDue, if_pos]
    exact ⟨by rw [State.mode_begun]; exact ha, by simpa using hc, by simpa using State.enabled_of_enState he, by simp [State.linkUp, State.bit, hl],
      by simpa using hk, by simpa using hd⟩
  rw [State.linkRise_eq, State.tsConst_begun] at act
  have held := State.leaves_holdStep (s.begun dt) ((s.begun dt).linkRisen p (min v (s.tsConst p).2.2)) p
    { ctrs := (· = Ctr.port p 0x3A8), ports := [p] } down (by simp) rfl
  obtain ⟨next, frame⟩ := exec_main_touches (c := .linkUp dt p v)
    (x := { regs := (· ∈ [Reg.PT_STATUS p, Reg.PT_INT_STATUS p, Reg.PT_TS_VAR p]), ctrs := (· = Ctr.port p 0x3A8), ports := [p] })
    rfl (decide_eq_true hp) hm act
    (State.leaves_trans (State.leaves_linkRisen _ p _ _ (by simp) (by simp) (by simp) (by simp))
      (State.leaves_holdStep _ _ p _ down (by simp) rfl))
  obtain ⟨link, event, delay⟩ := State.fld_linkRisen (s.begun dt) p (min v (s.tsConst p).2.2)
  exact ⟨_, next, by rw [State.fld_settle, held.fld id, link], by rw [State.fld_settle, held.fld id, event],
    by rw [State.fld_settle, held.fld id, delay], frame⟩

/-- LINK falls after DOWN, with no new mode waiting (R52). -/
theorem linkDown_due (s : State) (dt p : Nat) (hp : p < 144) (hm : s.mainUp = true) (ha : s.fld (Fld.PT_STATUS_ACTIVE_MODE p) ≠ 0)
    (hc : s.crfOn p = false) (hl : s.fld (Fld.PT_STATUS_LINK p) = 1) (hk : s.candidate p = false) (hn : (s.port p).modeDue = none)
    (hd : (s.port p).candAt + s.fld (Fld.PT_DEBOUNCE_DOWN p) * 10 * tUs ≤ s.now + dt) :
    ∃ t, exec (.linkDown dt p) s = .next t ∧ t.fld (Fld.PT_STATUS_LINK p) = 0 ∧ t.fld (Fld.PT_INT_STATUS_LINK_CHG p) = 1 ∧
      t.ctr (Ctr.port p 0x220) = (s.ctr (Ctr.port p 0x220) + 1) % 2 ^ 64 ∧ (t.port p).tx = none ∧ (t.port p).rxOn = false := by
  have up : (s.begun dt).linkUp p = true := by simp [State.linkUp, State.bit, hl]
  have fell : (s.begun dt).linkDownDue p = (s.begun dt).linkFall p := by
    rw [State.linkDownDue, if_pos]
    exact ⟨by rw [State.mode_begun]; exact ha, by simpa using hc, up, by simpa using hk, by simpa using hd⟩
  obtain ⟨kept, idle, silent⟩ := State.linkFall_ends (s.begun dt) p up
  have act : ((s.begun dt).linkDownDue p).modeNext p = (s.begun dt).linkFall p := by
    have due : (((s.begun dt).linkFall p).port p).modeDue = none := kept.due.trans (by simp [State.linkFallen, hn])
    rw [fell, State.modeNext, due]
  obtain ⟨link, event, falls⟩ := State.shows_linkFallen (s.begun dt) p
  refine ⟨_, exec_main (c := .linkDown dt p) rfl (decide_eq_true hp) hm act (kept.timeReq.trans (by simp [State.linkFallen])),
    by rw [State.fld_settle, kept.link, link], by rw [State.fld_settle, kept.event, event], ?_,
    by rw [State.port_settle, idle], by rw [State.port_settle, silent]⟩
  rw [State.ctr_settle _ _ _ _ (fallsCtr_ne_msix p), kept.falls, falls, State.ctr_begun]

/-- A line with signal and block lock leads no CRF receiver out of SYNC: at most the time of the dLOS condition is noted (R89). -/
theorem State.lineTouch_locked (s : State) (p : Nat) (f : State → State) (hs : (f s).bit (Fld.PT_STATUS_SIGNAL p) = true)
    (hb : (f s).bit (Fld.PT_STATUS_BLOCK_LOCK p) = true) : s.lineTouch p f = f s ∨ ∃ y, s.lineTouch p f = (f s).setPm p y := by
  unfold State.lineTouch
  dsimp only
  by_cases h : s.losCond p = (f s).losCond p
  · rw [if_pos h, if_neg (by simp [hs, hb])]
    exact .inl rfl
  · have kept (g : Fld) : ((f s).setPm p { (f s).pm p with losAt := (f s).now }).bit g = (f s).bit g := rfl
    rw [if_neg h, if_neg (by simp [kept, hs, hb])]
    exact .inr ⟨_, rfl⟩

/-- Fields of one word, by their bits. -/
theorem State.fld_setF_other (s : State) (a lo len lo' len' v : Nat) (h : lo + len ≤ 32) (hd : lo' + len' ≤ lo ∨ lo + len ≤ lo') :
    (s.setF ⟨a, lo, len⟩ v).fld ⟨a, lo', len'⟩ = s.fld ⟨a, lo', len'⟩ := State.fld_setF_of_apart s v h (.inr hd)
theorem State.fld_setF_written (s : State) (a lo len v : Nat) (h : lo + len ≤ 32) : (s.setF ⟨a, lo, len⟩ v).fld ⟨a, lo, len⟩ = v % 2 ^ len :=
  State.fld_setF_self s _ v h

/-- Signal, block lock and marker lock, without a high bit-error ratio. -/
def State.locked (s : State) (p : Nat) (markers : Nat) : State :=
  (((s.setF (Fld.PT_STATUS_SIGNAL p) 1).setF (Fld.PT_STATUS_BLOCK_LOCK p) 1).setF (Fld.PT_STATUS_ALIGN p) markers).setF (Fld.PT_STATUS_HI_BER p) 0

theorem State.shows_locked (s : State) (p m : Nat) : (s.locked p m).fld (Fld.PT_STATUS_SIGNAL p) = 1 ∧
    (s.locked p m).fld (Fld.PT_STATUS_BLOCK_LOCK p) = 1 ∧ (s.locked p m).fld (Fld.PT_STATUS_HI_BER p) = 0 := by
  simp only [State.locked, Fld.PT_STATUS_SIGNAL, Fld.PT_STATUS_BLOCK_LOCK, Fld.PT_STATUS_ALIGN, Fld.PT_STATUS_HI_BER]
  refine ⟨?_, ?_, ?_⟩ <;> simp (disch := decide) [State.fld_setF_other, State.fld_setF_written]

/-- Block lock of a port with a mode, that is not idle (R52). -/
theorem blockLockGained_shows (s : State) (dt p : Nat) (hp : p < 144) (hm : s.mainUp = true) (ha : s.portAbsent p = false)
    (hmode : s.fld (Fld.PT_STATUS_ACTIVE_MODE p) ≠ 0) (he : s.fld (Fld.PT_STATUS_EN_STATE p) ≠ 0) :
    ∃ t, exec (.blockLockGained dt p) s = .next t ∧ t.fld (Fld.PT_STATUS_SIGNAL p) = 1 ∧ t.fld (Fld.PT_STATUS_BLOCK_LOCK p) = 1 ∧
      t.fld (Fld.PT_STATUS_HI_BER p) = 0 ∧
      (s.begun dt).frame t { parts := [.pms], regs := (· = Reg.PT_STATUS p), ports := [p] } := by
  generalize hx : ({ parts := [.pms], regs := (· = Reg.PT_STATUS p), ports := [p] } : Touch) = x
  have hpms : Part.pms ∈ x.parts := by simp [← hx]
  have hreg : x.regs (Reg.PT_STATUS p) := by simp [← hx]
  have hport : p ∈ x.ports := by simp [← hx]
  generalize hg : (s.begun dt).candFollow p ((s.begun dt).locked p (b2n ((s.begun dt).markers p))) = g
  have left : (s.begun dt).leaves g x := by
    rw [← hg]
    exact State.leaves_candFollow (State.leaves_trans (State.leaves_trans (State.leaves_trans (State.leaves_setF _ _ _ x hreg)
      (State.leaves_setF _ _ _ x hreg)) (State.leaves_setF _ _ _ x hreg)) (State.leaves_setF _ _ _ x hreg)) hport
  have shown : g.fld (Fld.PT_STATUS_SIGNAL p) = 1 ∧ g.fld (Fld.PT_STATUS_BLOCK_LOCK p) = 1 ∧ g.fld (Fld.PT_STATUS_HI_BER p) = 0 := by
    rw [← hg]
    simpa using State.shows_locked (s.begun dt) p _
  have gained : (s.begun dt).lockGained p = (s.begun dt).lineTouch p (fun u => u.candFollow p (u.locked p (b2n (u.markers p)))) :=
    if_pos ⟨by rw [State.mode_begun]; exact hmode, by rw [State.enState_begun]; exact he⟩
  have act : ∃ y, (s.begun dt).onPort p (fun u => u.lockGained p) = y ∧ (s.begun dt).leaves y x ∧ ∀ f, y.fld f = g.fld f := by
    rw [State.onPort_present _ _ _ (by simpa using ha), gained]
    have touched := State.lineTouch_locked (s.begun dt) p (fun u => u.candFollow p (u.locked p (b2n (u.markers p))))
    simp only [hg] at touched
    rcases touched (by simp [State.bit, shown.1]) (by simp [State.bit, shown.2.1]) with same | ⟨y, noted⟩
    · exact ⟨g, same, left, fun _ => rfl⟩
    · exact ⟨_, noted, State.leaves_trans left (State.leaves_setPm g p y x hpms), fun _ => rfl⟩
  obtain ⟨y, does, leaves, same⟩ := act
  obtain ⟨next, frame⟩ := exec_main_touches (c := .blockLockGained dt p) rfl (decide_eq_true hp) hm does leaves
  exact ⟨_, next, by rw [State.fld_settle, same, shown.1], by rw [State.fld_settle, same, shown.2.1], by rw [State.fld_settle, same, shown.2.2], frame⟩

/-- A fault's beginning or end, shown in its field. -/
def State.faultShown (s : State) (p : Nat) (f : Fld) (begins : Bool) : State := s.candFollow p (s.setF f (b2n begins))

theorem State.leaves_faultShown (s : State) (p : Nat) {f : Fld} (begins : Bool) {x : Touch} (hf : x.regs f.addr) (hp : p ∈ x.ports) :
    s.leaves (s.faultShown p f begins) x :=
  State.leaves_candFollow (State.leaves_setF s f _ x hf) hp

theorem State.fld_faultShown (s : State) (p : Nat) {f : Fld} (begins : Bool) (hf : f.lo + f.len ≤ 32) (h1 : 1 ≤ f.len) :
    (s.faultShown p f begins).fld f = b2n begins := by
  rw [State.faultShown, State.fld_candFollow, State.fld_setF_self s f _ hf]
  have : b2n begins < 2 := by cases begins <;> decide
  exact Nat.mod_eq_of_lt (this.trans_le (Nat.pow_le_pow_right Nat.two_pos h1))

theorem State.leaves_anTell (s : State) (p : Nat) (x : Touch) (ho : Part.out ∈ x.parts) : s.leaves (s.anTell p) x :=
  State.leaves_ite _ (fun _ => State.leaves_emit s _ x ho) (fun _ => State.leaves_refl s x)

@[simp] theorem State.fld_anTell (s : State) (p : Nat) (f : Fld) : (s.anTell p).fld f = s.fld f := by unfold State.anTell; split <;> rfl

/-- The local fault's change reaches a negotiating partner in a new page. -/
theorem State.out_anTell_faultShown (s : State) (p : Nat) (begins : Bool) :
    ((s.faultShown p (Fld.PT_STATUS_LOCAL_FAULT p) begins).anTell p).out =
      (if s.anRuns p = true ∧ s.fld (Fld.PT_STATUS_AN_STATE p) = 1 then [.an p (w32 (0x20 + b2n begins * 0x1000))] else []) ++ s.out := by
  have kept (f : Fld) (ha : (Fld.PT_STATUS_LOCAL_FAULT p).apart f) : (s.faultShown p (Fld.PT_STATUS_LOCAL_FAULT p) begins).fld f = s.fld f := by
    rw [State.faultShown, State.fld_candFollow, State.fld_setF_of_apart s _ (by simp [Fld.PT_STATUS_LOCAL_FAULT]) ha]
  have runs : (s.faultShown p (Fld.PT_STATUS_LOCAL_FAULT p) begins).anRuns p = s.anRuns p := by
    refine State.anRuns_congr (kept _ ?_) (kept _ ?_)
    · simp [Fld.apart, Fld.PT_STATUS_LOCAL_FAULT, Fld.PT_STATUS_ACTIVE_MODE]
    · simp [Fld.apart, Fld.PT_STATUS_LOCAL_FAULT, Fld.PT_CTRL_AN_EN, Reg.PT_STATUS, Reg.PT_CTRL]
  have page := State.fld_faultShown s p (f := Fld.PT_STATUS_LOCAL_FAULT p) begins (by simp [Fld.PT_STATUS_LOCAL_FAULT]) (by simp [Fld.PT_STATUS_LOCAL_FAULT])
  have out : (s.faultShown p (Fld.PT_STATUS_LOCAL_FAULT p) begins).out = s.out := by simp [State.faultShown]
  rw [State.anTell, runs, kept (Fld.PT_STATUS_AN_STATE p) (by simp [Fld.apart, Fld.PT_STATUS_LOCAL_FAULT, Fld.PT_STATUS_AN_STATE])]
  split
  · rw [State.emit, State.anPage, page, out]; rfl
  · exact out

/-- A local fault (R53). -/
theorem localFault_shows (s : State) (dt p : Nat) (begins : Bool) (hp : p < 144) (hm : s.mainUp = true) (ha : s.portAbsent p = false)
    (hmode : s.fld (Fld.PT_STATUS_ACTIVE_MODE p) ≠ 0) (hc : s.crfOn p = false) (he : s.fld (Fld.PT_STATUS_EN_STATE p) ≠ 0) :
    ∃ t, exec (.remoteFault dt p true begins) s = .next t ∧ t.fld (Fld.PT_STATUS_LOCAL_FAULT p) = b2n begins ∧
      t.out.filter (fun e => !e.isMsix) =
        (if s.anRuns p = true ∧ s.fld (Fld.PT_STATUS_AN_STATE p) = 1 then [.an p (w32 (0x20 + b2n begins * 0x1000))] else []) ++
          s.out.filter (fun e => !e.isMsix) ∧
      (s.begun dt).frame t { parts := [.out], regs := (· ∈ [Reg.PT_STATUS p, Reg.PT_INT_STATUS p]), ports := [p] } := by
  have act : (s.begun dt).onPort p (fun u => u.faultSeen p true begins) =
      ((s.begun dt).faultShown p (Fld.PT_STATUS_LOCAL_FAULT p) begins).anTell p := by
    rw [State.onPort_present _ _ _ (by simpa using ha), State.faultSeen, if_neg (by simpa [State.mode, enIdle, hc] using ⟨hmode, he⟩), if_pos rfl]
    rfl
  obtain ⟨next, frame⟩ := exec_main_touches (c := .remoteFault dt p true begins)
    (x := { parts := [.out], regs := (· ∈ [Reg.PT_STATUS p, Reg.PT_INT_STATUS p]), ports := [p] }) rfl (decide_eq_true hp) hm act
    (State.leaves_trans (State.leaves_faultShown _ p begins (by simp [Fld.PT_STATUS_LOCAL_FAULT]) (by simp)) (State.leaves_anTell _ p _ (by simp)))
  refine ⟨_, next, ?_, ?_, frame⟩
  · rw [State.fld_settle, State.fld_anTell, State.fld_faultShown _ _ _ (by simp [Fld.PT_STATUS_LOCAL_FAULT]) (by simp [Fld.PT_STATUS_LOCAL_FAULT])]
  · rw [State.settle_out, State.out_anTell_faultShown, State.anRuns_begun, State.fld_begun, List.filter_append]
    congr 1
    · split <;> rfl
    · simp

/-- A remote fault; its beginning raises REMOTE_FAULT (R53). -/
theorem remoteFault_shows (s : State) (dt p : Nat) (begins : Bool) (hp : p < 144) (hm : s.mainUp = true) (ha : s.portAbsent p = false)
    (hmode : s.fld (Fld.PT_STATUS_ACTIVE_MODE p) ≠ 0) (hc : s.crfOn p = false) (he : s.fld (Fld.PT_STATUS_EN_STATE p) ≠ 0) :
    ∃ t, exec (.remoteFault dt p false begins) s = .next t ∧ t.fld (Fld.PT_STATUS_REMOTE_FAULT p) = b2n begins ∧
      (begins = true → s.fld (Fld.PT_STATUS_REMOTE_FAULT p) = 0 → t.fld (Fld.PT_INT_STATUS_REMOTE_FAULT p) = 1) ∧
      t.out.filter (fun e => !e.isMsix) = s.out.filter (fun e => !e.isMsix) ∧
      (s.begun dt).frame t { parts := [.out], regs := (· ∈ [Reg.PT_STATUS p, Reg.PT_INT_STATUS p]), ports := [p] } := by
  generalize hg : (s.begun dt).faultShown p (Fld.PT_STATUS_REMOTE_FAULT p) begins = g
  have act : (s.begun dt).onPort p (fun u => u.faultSeen p false begins) =
      if begins = true ∧ (s.begun dt).bit (Fld.PT_STATUS_REMOTE_FAULT p) = false then g.raise (Fld.PT_INT_STATUS_REMOTE_FAULT p) else g := by
    rw [State.onPort_present _ _ _ (by simpa using ha), State.faultSeen, if_neg (by simpa [State.mode, enIdle, hc] using ⟨hmode, he⟩),
      if_neg (by simp), ← hg]
    rfl
  have shown : g.fld (Fld.PT_STATUS_REMOTE_FAULT p) = b2n begins := by
    rw [← hg, State.fld_faultShown _ _ _ (by simp [Fld.PT_STATUS_REMOTE_FAULT]) (by simp [Fld.PT_STATUS_REMOTE_FAULT])]
  have out : g.out = (s.begun dt).out := by simp [← hg, State.faultShown]
  generalize hx : ({ parts := [.out], regs := (· ∈ [Reg.PT_STATUS p, Reg.PT_INT_STATUS p]), ports := [p] } : Touch) = x
  have left : (s.begun dt).leaves g x := by
    rw [← hg]
    exact State.leaves_faultShown _ p begins (by simp [← hx, Fld.PT_STATUS_REMOTE_FAULT]) (by simp [← hx])
  obtain ⟨next, frame⟩ := exec_main_touches (c := .remoteFault dt p false begins) (x := x) rfl (decide_eq_true hp) hm act
    (State.leaves_ite _ (fun _ => State.leaves_trans left (State.leaves_raise g _ x (by simp [← hx, Fld.PT_INT_STATUS_REMOTE_FAULT]))) (fun _ => left))
  refine ⟨_, next, ?_, ?_, ?_, frame⟩
  · rw [State.fld_settle]
    split
    · rw [State.fld_raise_ne _ _ _ (by simp [Fld.PT_STATUS_REMOTE_FAULT, Fld.PT_INT_STATUS_REMOTE_FAULT, Reg.PT_STATUS, Reg.PT_INT_STATUS]), shown]
    · exact shown
  · intro hb hz
    rw [State.fld_settle, if_pos ⟨hb, by simp [State.bit, hz]⟩,
      State.fld_raise_self _ _ (by simp [Fld.PT_INT_STATUS_REMOTE_FAULT]) (by simp [Fld.PT_INT_STATUS_REMOTE_FAULT])]
  · rw [State.settle_out]
    split <;> simp [State.raise, out]

/-- Settles O5: the rise and the fall of LINK by what `LinkKept` and the hold keep, lock and faults by their fields. -/
theorem linkChanges : Obligations.LinkChanges := by
  refine ⟨linkUp_due, linkDown_due, blockLockGained_shows, fun s dt p near begins hp hm ha hmode hc he => ?_⟩
  cases near with
  | true =>
    obtain ⟨t, next, shown, out, frame⟩ := localFault_shows s dt p begins hp hm ha hmode hc he
    exact ⟨t, next, shown, nofun, by simpa using out, frame⟩
  | false =>
    obtain ⟨t, next, shown, event, out, frame⟩ := remoteFault_shows s dt p begins hp hm ha hmode hc he
    exact ⟨t, next, shown, fun _ => event, by simpa using out, frame⟩

end Sys2Proof.Machine
end

/-! ### Reception (R49, R50, R57, R192, R193) -/

section
namespace Sys2Proof.Machine

/-- A counter of one of the 144 ports lies below those of the pools and of the host interface. -/
theorem portCtr_lt {p o : Nat} (hp : p < 144) (ho : o < 0x400) : Ctr.port p o < Ctr.pool 0 0 := by simp only [Ctr.port, Ctr.pool]; omega

@[simp] theorem portCtr_inj {p o o' : Nat} : Ctr.port p o = Ctr.port p o' ↔ o = o' := by simp [Ctr.port]

theorem State.leaves.ctr {s t : State} {x : Touch} (h : s.leaves t x) {p o : Nat} (hp : p < 144) (ho : o < 0x400) (hx : ¬ x.ctrs (Ctr.port p o)) :
    t.ctr (Ctr.port p o) = s.ctr (Ctr.port p o) :=
  h.1.2.2.1 _ (fun e => absurd (portCtr_lt hp ho) (by rw [e]; decide)) hx

theorem State.leaves.mono {s t : State} {x y : Touch} (h : s.leaves t x) (hk : x.parts ⊆ y.parts) (hr : ∀ a, x.regs a → y.regs a)
    (hc : ∀ a, x.ctrs a → y.ctrs a) (hp : x.ports ⊆ y.ports) (hi : x.rings ⊆ y.rings) : s.leaves t y := by
  obtain ⟨⟨parts, regs, ctrs, ports, rings⟩, req⟩ := h
  exact ⟨⟨fun k hn => parts k (fun m => hn (hk m)), fun a hn => regs a (fun m => hn (hr a m)), fun a ha hn => ctrs a ha (fun m => hn (hc a m)),
    fun q hn => ports q (fun m => hn (hp m)), fun r hn => rings r (fun m => hn (hi m))⟩, req⟩

theorem State.ctr_settle_port (g s0 : State) (t : Time) {p o : Nat} (hp : p < 144) (ho : o < 0x400) :
    (g.settle s0 t).ctr (Ctr.port p o) = g.ctr (Ctr.port p o) :=
  State.ctr_settle g s0 t _ (fun e => absurd (portCtr_lt hp ho) (by rw [e]; decide))

@[simp] theorem State.nextFid_begun (s : State) (dt : Nat) : (s.begun dt).fab.nextFid = s.fab.nextFid := by
  simp only [State.begun, State.newCycle]; split <;> rfl
@[simp] theorem State.inMemFlush_begun (s : State) (dt : Nat) (l : List Nat) : (s.begun dt).inMemFlush l = s.inMemFlush l := by
  have same : (s.begun dt).fab.memMask = s.fab.memMask := by simp only [State.begun, State.newCycle]; split <;> rfl
  simp [State.inMemFlush, same]
@[simp] theorem State.pgAsleep_begun (s : State) (dt g : Nat) : (s.begun dt).pgAsleep g = s.pgAsleep g := by simp [State.pgAsleep]
@[simp] theorem State.rxCase_begun (s : State) (dt p : Nat) (bs : List Byte) (cut : Bool) : (s.begun dt).rxCase p bs cut = s.rxCase p bs cut := by
  simp [State.rxCase, State.mtu]

/-! #### The line's errors -/

section
variable (s : State) (p : Nat)

theorem State.leaves_lossAt (x : Touch) (h : ∀ n, x.regs (Fld.TW_GEN_MUTED n).addr) : s.leaves (s.lossAt p) x :=
  State.leaves_ite _ (fun _ => State.leaves_foldl _ x _ (fun s e _ => State.leaves_setF s _ _ x (h e.1)) s) (fun _ => State.leaves_refl s x)

/-- A mute sets bit 30 of a word, and keeps every field below. -/
theorem State.fld_mutes {α : Type} (n : α → Nat) {f : Fld} (hf : f.lo + f.len ≤ 30) (l : List α) :
    (l.foldl (fun s e => s.mute (n e) true) s).fld f = s.fld f := by
  induction l generalizing s with
  | nil => rfl
  | cons e l ih => exact (ih _).trans (State.fld_setF_of_apart s _ (by simp [Fld.TW_GEN_MUTED]) (.inr (.inl hf)))

theorem State.fld_lossAt {f : Fld} (hf : f.lo + f.len ≤ 30) : (s.lossAt p).fld f = s.fld f := by
  unfold State.lossAt
  split
  · exact State.fld_mutes s _ hf _
  · rfl

theorem State.leaves_pmRoll (x : Touch) (h : .pms ∈ x.parts) : s.leaves (s.pmRoll p) x := by
  unfold State.pmRoll
  dsimp only
  split
  · exact State.leaves_setPm s p _ x h
  · exact State.leaves_ite _ (fun _ => State.leaves_refl s x) (fun _ => State.leaves_setPm s p _ x h)

theorem State.leaves_pmErrs (n : Nat) (x : Touch) (h : .pms ∈ x.parts) : s.leaves (s.pmErrs p n) x := by
  unfold State.pmErrs
  dsimp only
  split
  · exact State.leaves_pmRoll s p x h
  · exact State.leaves_trans (State.leaves_pmRoll s p x h) (State.leaves_setPm _ p _ x h)

/-- The four counters of the line's errors. -/
def State.errsCounted (s : State) (p : Nat) (e : LineErrs) : State :=
  (((s.count (Ctr.port p 0x200) e.blocks).count (Ctr.port p 0x208) e.corrected).count (Ctr.port p 0x210) e.uncorrected).count (Ctr.port p 0x218) e.symbols

theorem State.ctr_errsCounted (e : LineErrs) :
    (s.errsCounted p e).ctr (Ctr.port p 0x200) = (s.ctr (Ctr.port p 0x200) + e.blocks) % 2 ^ 64 ∧
    (s.errsCounted p e).ctr (Ctr.port p 0x208) = (s.ctr (Ctr.port p 0x208) + e.corrected) % 2 ^ 64 ∧
    (s.errsCounted p e).ctr (Ctr.port p 0x210) = (s.ctr (Ctr.port p 0x210) + e.uncorrected) % 2 ^ 64 ∧
    (s.errsCounted p e).ctr (Ctr.port p 0x218) = (s.ctr (Ctr.port p 0x218) + e.symbols) % 2 ^ 64 := by
  simp (disch := simp) only [State.errsCounted, State.ctr_count_self, State.ctr_count_ne, and_self]

theorem State.fld_errsCounted (e : LineErrs) (f : Fld) : (s.errsCounted p e).fld f = s.fld f := by simp [State.errsCounted]

/-- What the line's errors touch. -/
def errsTouch (p : Nat) : Touch :=
  { parts := [.pms], regs := fun a => ∃ n, a = (Fld.TW_GEN_MUTED n).addr, ctrs := (· ∈ [0x200, 0x208, 0x210, 0x218].map (Ctr.port p)) }

theorem State.leaves_errsCounted (e : LineErrs) : s.leaves (s.errsCounted p e) (errsTouch p) :=
  State.leaves_trans (State.leaves_trans (State.leaves_trans (State.leaves_count _ _ _ _ (by simp [errsTouch])) (State.leaves_count _ _ _ _ (by simp [errsTouch])))
    (State.leaves_count _ _ _ _ (by simp [errsTouch]))) (State.leaves_count _ _ _ _ (by simp [errsTouch]))

/-- Of a port that is on, its lane's seconds and its counters note the line's errors; at most mutes follow. -/
theorem State.lineCount_on (e : LineErrs) (hm : s.mode p ≠ 0) (he : s.enState p ≠ enIdle) :
    s.lineCount p e = (s.pmErrs p (e.blocks + e.uncorrected)).errsCounted p e ∨
    s.lineCount p e = ((s.pmErrs p (e.blocks + e.uncorrected)).errsCounted p e).lossAt p := by
  rw [State.lineCount, if_pos ⟨hm, he⟩]
  dsimp only
  split
  · exact .inl rfl
  · exact .inr rfl

theorem State.leaves_lineCount (e : LineErrs) (hm : s.mode p ≠ 0) (he : s.enState p ≠ enIdle) : s.leaves (s.lineCount p e) (errsTouch p) := by
  have counted := State.leaves_trans (State.leaves_pmErrs s p (e.blocks + e.uncorrected) (errsTouch p) (by simp [errsTouch]))
    (State.leaves_errsCounted _ p e)
  rcases State.lineCount_on s p e hm he with h | h <;> rw [h]
  · exact counted
  · exact State.leaves_trans counted (State.leaves_lossAt _ p _ (fun n => ⟨n, rfl⟩))

/-- What a reception reads outlives the line's errors: the fields below bit 30, the ports, the fabric and the power groups. -/
theorem State.fld_lineCount (e : LineErrs) (hm : s.mode p ≠ 0) (he : s.enState p ≠ enIdle) {f : Fld} (hf : f.lo + f.len ≤ 30) :
    (s.lineCount p e).fld f = s.fld f := by
  have noted : (s.pmErrs p (e.blocks + e.uncorrected)).fld f = s.fld f :=
    (State.leaves_pmErrs s p _ { parts := [.pms] } (by simp)).fld id
  rcases State.lineCount_on s p e hm he with h | h <;> rw [h]
  · rw [State.fld_errsCounted, noted]
  · rw [State.fld_lossAt _ p hf, State.fld_errsCounted, noted]

/-- The counters show the line's errors. -/
theorem State.ctr_lineCount (e : LineErrs) (hp : p < 144) (hm : s.mode p ≠ 0) (he : s.enState p ≠ enIdle) :
    (s.lineCount p e).ctr (Ctr.port p 0x200) = (s.ctr (Ctr.port p 0x200) + e.blocks) % 2 ^ 64 ∧
    (s.lineCount p e).ctr (Ctr.port p 0x208) = (s.ctr (Ctr.port p 0x208) + e.corrected) % 2 ^ 64 ∧
    (s.lineCount p e).ctr (Ctr.port p 0x210) = (s.ctr (Ctr.port p 0x210) + e.uncorrected) % 2 ^ 64 ∧
    (s.lineCount p e).ctr (Ctr.port p 0x218) = (s.ctr (Ctr.port p 0x218) + e.symbols) % 2 ^ 64 := by
  have noted {o : Nat} (ho : o < 0x400) : (s.pmErrs p (e.blocks + e.uncorrected)).ctr (Ctr.port p o) = s.ctr (Ctr.port p o) :=
    (State.leaves_pmErrs s p _ { parts := [.pms] } (by simp)).ctr hp ho id
  have muted (u : State) {o : Nat} (ho : o < 0x400) : (u.lossAt p).ctr (Ctr.port p o) = u.ctr (Ctr.port p o) :=
    (State.leaves_lossAt u p { regs := fun _ => True } (fun _ => trivial)).ctr hp ho id
  have counted := State.ctr_errsCounted (s.pmErrs p (e.blocks + e.uncorrected)) p e
  simp (disch := decide) only [noted] at counted
  rcases State.lineCount_on s p e hm he with h | h <;> rw [h]
  · exact counted
  · simpa (disch := decide) only [muted] using counted

/-- A reception finds the state after the line's errors as it was. -/
theorem State.reads_lineCount (e : LineErrs) (hm : s.mode p ≠ 0) (he : s.enState p ≠ enIdle) :
    (s.lineCount p e).receives p = s.receives p ∧ (∀ bs cut, (s.lineCount p e).rxCase p bs cut = s.rxCase p bs cut) ∧
    (∀ g, (s.lineCount p e).pgAsleep g = s.pgAsleep g) ∧ (s.lineCount p e).fab = s.fab ∧ ∀ q, (s.lineCount p e).port q = s.port q := by
  have left := State.leaves_lineCount s p e hm he
  have low {f : Fld} (hf : f.lo + f.len ≤ 30) := State.fld_lineCount s p e hm he hf
  have isl : (s.lineCount p e).isl = s.isl := left.part (k := .isl) (by simp [errsTouch])
  have pw : (s.lineCount p e).pw = s.pw := left.part (k := .pw) (by simp [errsTouch])
  have ports (q : Nat) : (s.lineCount p e).port q = s.port q := left.port (by simp [errsTouch])
  refine ⟨?_, fun bs cut => ?_, fun g => ?_, left.part (k := .fab) (by simp [errsTouch]), ports⟩
  · have absent : (s.lineCount p e).portAbsent p = s.portAbsent p := by simp [State.portAbsent, State.groupOn, isl]
    have up : (s.lineCount p e).linkUp p = s.linkUp p := State.bit_eq_of_fld (low (by simp [Fld.PT_STATUS_LINK]))
    have enabled : (s.lineCount p e).enState p = s.enState p := low (by simp [Fld.PT_STATUS_EN_STATE])
    rw [State.receives, absent, up, enabled, ports, low (f := Fld.PT_CTRL_LOOPBACK p) (by simp [Fld.PT_CTRL_LOOPBACK]), State.receives]
  · rw [State.rxCase, State.rxCase, State.mtu, State.mtu, low (f := Fld.PT_MTU_MTU p) (by simp [Fld.PT_MTU_MTU])]
  · simp only [State.pgAsleep, pw, low (f := Fld.PW_STATUS_PG_GATED) (by decide)]

end

/-! #### The cells of a reception -/

section
variable (s : State) (p : Nat)

/-- What the grant of cells to a port touches: the pool, its counters and bits, the wake of a bank, and the port. -/
def grantTouch (p : Nat) : Touch :=
  { parts := [.pool, .pw, .free], regs := fun _ => True, ctrs := fun a => Ctr.pool 0 0 ≤ a, ports := [p] }

theorem State.leaves_wakeBank (b : Nat) : s.leaves (s.wakeBank b) (grantTouch p) :=
  State.leaves_ite _ (fun _ => State.leaves_trans (State.leaves_trans (State.leaves_setF s _ _ _ trivial)
    (State.leaves_count _ _ _ _ (show Ctr.pool 0 0 ≤ 0x2770010 by decide))) (State.leaves_pw _ _ _ (by simp [grantTouch])))
    (fun _ => State.leaves_refl s _)

theorem poolCtr_le (n o : Nat) : Ctr.pool 0 0 ≤ Ctr.pool n o := by simp only [Ctr.pool]; omega

theorem State.leaves_allocFail (n : Nat) : s.leaves (s.allocFail n) (grantTouch p) :=
  State.leaves_trans (State.leaves_trans (State.leaves_count s _ _ _ (poolCtr_le n _)) (State.leaves_orF _ _ _ _ trivial)) (State.leaves_raise _ _ _ trivial)

theorem State.leaves_alloc (n owner slot : Nat) : s.leaves (s.alloc n owner slot).2 (grantTouch p) := by
  have pool : Part.pool ∈ (grantTouch p).parts := by simp [grantTouch]
  delta State.alloc
  extract_lets turn _ u
  have asked : s.leaves u (grantTouch p) := State.leaves_pool s _ _ pool
  have failed : s.leaves (u.allocFail n) (grantTouch p) := State.leaves_trans asked (State.leaves_allocFail u p n)
  split
  · exact failed
  · split
    · exact failed
    · exact State.leaves_trans asked (State.leaves_trans (State.leaves_trans (State.leaves_trans (State.leaves_trans (State.leaves_trans
        (State.leaves_drawn u _ (by simp [grantTouch])) (State.leaves_setCell _ _ _ _ pool)) (State.leaves_touchPool _ n _ pool))
        (State.leaves_wakeBank _ p _)) (State.leaves_pool _ _ _ pool)) (State.leaves_count _ _ _ _ (poolCtr_le n 0)))

theorem State.leaves_chain (cells : List Nat) (c : Nat) : s.leaves (s.chain cells c) (grantTouch p) := by
  unfold State.chain
  split
  · exact State.leaves_refl s _
  · exact State.leaves_setCell s _ _ _ (by simp [grantTouch])

theorem State.leaves_rxTake : s.leaves (s.rxTake p) (grantTouch p) := by
  have port (t : State) (y : Port) : t.leaves (t.setPort p y) (grantTouch p) := State.leaves_setPort t p y _ (by simp [grantTouch])
  unfold State.rxTake
  refine State.leaves_ite _ (fun _ => State.leaves_refl s _) (fun _ => State.leaves_ite _ (fun _ => port s _) (fun _ => ?_))
  split
  · exact port s _
  · next n _ =>
    have taken {r : Option Nat × State} {owner slot : Nat} (h : s.alloc n owner slot = r) : s.leaves r.2 (grantTouch p) :=
      h ▸ State.leaves_alloc s p n owner slot
    split
    · next granted => exact State.leaves_trans (taken granted) (State.leaves_trans (State.leaves_chain _ p _ _) (port _ _))
    · next refused => exact State.leaves_trans (taken refused) (port _ _)

theorem State.leaves_rxFill (n : Nat) : s.leaves (s.rxFill p n) (grantTouch p) := by
  induction n generalizing s with
  | zero => exact State.leaves_refl s _
  | succ n ih => exact State.leaves_trans (State.leaves_rxTake s p) (ih _)

theorem State.leaves_rxFree : s.leaves (s.rxFree p) (grantTouch p) :=
  State.leaves_trans (State.leaves_releaseCells s _ _ _ _ (by simp [grantTouch])) (State.leaves_setPort _ p _ _ (by simp [grantTouch]))

theorem State.leaves_pgUse (g : Nat) : s.leaves (s.pgUse g) (grantTouch p) :=
  State.leaves_ite _ (fun _ => State.leaves_pw s _ _ (by simp [grantTouch])) (fun _ => State.leaves_refl s _)

@[simp] theorem State.port_pgUse (g q : Nat) : (s.pgUse g).port q = s.port q := by unfold State.pgUse; split <;> rfl
@[simp] theorem State.fab_pgUse (g : Nat) : (s.pgUse g).fab = s.fab := by unfold State.pgUse; split <;> rfl
@[simp] theorem State.rxCase_pgUse (g : Nat) (bs : List Byte) (cut : Bool) : (s.pgUse g).rxCase p bs cut = s.rxCase p bs cut := by
  unfold State.pgUse; split <;> rfl

end

/-! #### The end of a reception -/

/-- The counter of a frame's case (R49, R50). -/
def RxCase.counter : RxCase → Nat
  | .aborted => 0x050
  | .jabber => 0x048
  | .oversize => 0x040
  | .fragment => 0x038
  | .undersize => 0x030
  | .fcsErr => 0x028
  | .good => 0x008

section
variable (s : State) (p : Nat)

theorem State.leaves_countLoss {o : Nat} (x : Touch) (hr : ∀ a, x.regs a) (hc : x.ctrs (Ctr.port p o)) : s.leaves (s.countLoss p o) x :=
  State.leaves_trans (State.leaves_count s _ 1 x hc) (State.leaves_lossAt _ p x (fun _ => hr _))

theorem State.ctr_countLoss {o : Nat} (hp : p < 144) (ho : o < 0x400) :
    (s.countLoss p o).ctr (Ctr.port p o) = (s.ctr (Ctr.port p o) + 1) % 2 ^ 64 := by
  rw [State.countLoss, (State.leaves_lossAt (s.count (Ctr.port p o) 1) p { regs := fun _ => True } (fun _ => trivial)).ctr hp ho id,
    State.ctr_count_self]

/-- A bad frame is counted in its case's counter, by some with mutes. -/
theorem State.countRx_bad (bs : List Byte) {c : RxCase} (h : c ≠ .good) :
    s.countRx p bs c = s.countLoss p c.counter ∨ s.countRx p bs c = s.count (Ctr.port p c.counter) 1 := by
  cases c with
  | aborted | jabber | fragment | fcsErr => exact .inl rfl
  | oversize | undersize => exact .inr rfl
  | good => exact absurd rfl h

theorem RxCase.counter_lt (c : RxCase) : c.counter < 0x200 := by cases c <;> decide

/-- What a refused frame touches: what its cells do, and the counter of its case and that of frames without a cell. -/
def refuseTouch (p : Nat) (c : RxCase) : Touch :=
  { grantTouch p with ctrs := fun a => a = Ctr.port p c.counter ∨ a = Ctr.port p 0x378 ∨ Ctr.pool 0 0 ≤ a }

theorem State.leaves.refuse {s t : State} {p : Nat} (h : s.leaves t (grantTouch p)) (c : RxCase) : s.leaves t (refuseTouch p c) :=
  h.mono (fun _ => id) (fun _ => id) (fun _ ha => .inr (.inr ha)) (fun _ => id) (fun _ => id)

theorem portCtr_of_refuse {p o : Nat} {c : RxCase} (hp : p < 144) (ho : o < 0x400) (h3 : o ≠ 0x378) (hc : o ≠ c.counter) :
    ¬ (refuseTouch p c).ctrs (Ctr.port p o) := by
  rintro (h | h | h)
  · exact hc (portCtr_inj.mp h)
  · exact h3 (portCtr_inj.mp h)
  · exact absurd (portCtr_lt hp ho) (Nat.not_lt.mpr h)

theorem State.leaves_countRx (bs : List Byte) {c : RxCase} (h : c ≠ .good) : s.leaves (s.countRx p bs c) (refuseTouch p c) := by
  rcases State.countRx_bad s p bs h with e | e <;> rw [e]
  · exact State.leaves_countLoss s p _ (fun _ => trivial) (.inl rfl)
  · exact State.leaves_count s _ _ _ (.inl rfl)

theorem State.ctr_countRx (bs : List Byte) {c : RxCase} (hp : p < 144) (h : c ≠ .good) :
    (s.countRx p bs c).ctr (Ctr.port p c.counter) = (s.ctr (Ctr.port p c.counter) + 1) % 2 ^ 64 := by
  rcases State.countRx_bad s p bs h with e | e <;> rw [e]
  · exact State.ctr_countLoss s p hp (c.counter_lt.trans (by decide))
  · exact State.ctr_count_self s _ 1

@[simp] theorem State.rxOn_rxFree : ((s.rxFree p).port p).rxOn = false ∧ ((s.rxFree p).port p).rxCells = [] := by simp [State.rxFree]

/-- A bad frame is counted in its case and its cells go back. -/
theorem State.rxEnd_bad (bs : List Byte) (cut : Bool) (stamp at_ : Nat) (hp : p < 144) (h : s.rxCase p bs cut ≠ .good) :
    s.leaves (s.rxEnd p bs cut stamp at_) (refuseTouch p (s.rxCase p bs cut)) ∧
    (s.rxEnd p bs cut stamp at_).ctr (Ctr.port p (s.rxCase p bs cut).counter) = (s.ctr (Ctr.port p (s.rxCase p bs cut).counter) + 1) % 2 ^ 64 ∧
    ((s.rxEnd p bs cut stamp at_).port p).rxOn = false ∧ ((s.rxEnd p bs cut stamp at_).port p).rxCells = [] := by
  generalize hc : s.rxCase p bs cut = c at h
  have small : c.counter < 0x400 := c.counter_lt.trans (by decide)
  unfold State.rxEnd
  rw [hc]
  extract_lets _ s1 x s2 s3
  have same : s3 = s2 := if_neg (fun g => h g.1)
  have granted : s.leaves s1 (grantTouch p) := State.leaves_rxFill s p _
  have counted : s.leaves s3 (refuseTouch p c) := same ▸ State.leaves_trans (granted.refuse c) (State.leaves_countRx s1 p bs h)
  have shown : s3.ctr (Ctr.port p c.counter) = (s.ctr (Ctr.port p c.counter) + 1) % 2 ^ 64 := by
    rw [same, State.ctr_countRx s1 p bs hp h, granted.ctr hp small (Nat.not_le.mpr (portCtr_lt hp small))]
  have freed (u : State) : (u.rxFree p).ctr (Ctr.port p c.counter) = u.ctr (Ctr.port p c.counter) :=
    (State.leaves_rxFree u p).ctr hp small (Nat.not_le.mpr (portCtr_lt hp small))
  split
  · have lost : s3.leaves (s3.countLoss p 0x378) (refuseTouch p c) := State.leaves_countLoss s3 p _ (fun _ => trivial) (.inr (.inl rfl))
    have other : (s3.countLoss p 0x378).ctr (Ctr.port p c.counter) = s3.ctr (Ctr.port p c.counter) := by
      have := c.counter_lt
      exact (State.leaves_countLoss s3 p { regs := fun _ => True, ctrs := (· = Ctr.port p 0x378) } (fun _ => trivial) rfl).ctr hp small
        (fun e => by have := portCtr_inj.mp e; omega)
    exact ⟨State.leaves_trans counted (State.leaves_trans lost ((State.leaves_rxFree _ p).refuse c)), by rw [freed, other, shown], State.rxOn_rxFree _ p⟩
  · rw [if_pos (.inl h)]
    exact ⟨State.leaves_trans counted ((State.leaves_rxFree _ p).refuse c), by rw [freed, shown], State.rxOn_rxFree _ p⟩

/-- What a good frame's counters touch. -/
def goodTouch (p : Nat) : Touch := { ctrs := fun a => ∃ o, a = Ctr.port p o ∧ o < 0x200 }

theorem State.leaves_countGood (bs : List Byte) (ctl : Bool) : s.leaves (s.countGood p bs ctl) (goodTouch p) := by
  have size := sizeBin_le bs.length
  have cast := castOf_le bs
  have bytes : s.leaves (((s.count (Ctr.port p 0x000) bs.length).count (Ctr.port p 0x008) 1).count (Ctr.port p (0x0A8 + 8 * sizeBin bs.length)) 1) (goodTouch p) :=
    State.leaves_trans (State.leaves_trans (State.leaves_count _ _ _ _ ⟨_, rfl, by decide⟩) (State.leaves_count _ _ _ _ ⟨_, rfl, by decide⟩))
      (State.leaves_count _ _ _ _ ⟨_, rfl, by omega⟩)
  exact State.leaves_ite _ (fun _ => bytes) (fun _ => State.leaves_trans bytes (State.leaves_count _ _ _ _ ⟨_, rfl, by omega⟩))

/-- A good frame and its bytes are counted. -/
theorem State.ctr_countGood (bs : List Byte) :
    (s.countGood p bs false).ctr (Ctr.port p 0x000) = (s.ctr (Ctr.port p 0x000) + bs.length) % 2 ^ 64 ∧
    (s.countGood p bs false).ctr (Ctr.port p 0x008) = (s.ctr (Ctr.port p 0x008) + 1) % 2 ^ 64 := by
  have counts : s.countGood p bs false = (((s.count (Ctr.port p 0x000) bs.length).count (Ctr.port p 0x008) 1).count
    (Ctr.port p (0x0A8 + 8 * sizeBin bs.length)) 1).count (Ctr.port p (0x010 + 8 * castOf bs)) 1 := rfl
  rw [counts]
  simp (disch := simp only [ne_eq, portCtr_inj]; omega) only [State.ctr_count_self, State.ctr_count_ne, and_self]

@[simp] theorem State.timeReq_addFrame (f : Frame) : (s.addFrame f).timeReq = s.timeReq := rfl
@[simp] theorem State.ctr_addFrame (f : Frame) (a : Nat) : (s.addFrame f).ctr a = s.ctr a := rfl
@[simp] theorem State.port_addFrame (f : Frame) (q : Nat) : (s.addFrame f).port q = s.port q := rfl
@[simp] theorem State.frame?_addFrame (f : Frame) : (s.addFrame f).frame? s.fab.nextFid = some f := State.frame?_setFrame_self _ _ _

/-- A good frame with all its cells becomes a frame of its own (R192, R193). -/
theorem State.rxEnd_good (bs : List Byte) (stamp at_ : Nat) (h : s.rxCase p bs false = .good) (hctl : isMacCtl bs = false)
    (hr : (s.port p).rxRefused = false) (hn : (s.port p).rxCells.length = cellsFor bs.length) (hf : s.inMemFlush (s.port p).rxCells = false) :
    s.rxEnd p bs false stamp at_ =
      ((s.countGood p bs false).setPort p { s.port p with rxOn := false, rxCells := [], rxRefused := false }).addFrame
        (Frame.fresh bs (s.port p).rxCells (s.port p).rxOwner (s.port p).rxPool (pipeOf p) 0 p stamp at_) := by
  have fab : (s.countGood p bs false).fab = s.fab := (State.leaves_countGood s p bs false).part (k := .fab) (by simp [goodTouch])
  have port : (s.countGood p bs false).port p = s.port p := (State.leaves_countGood s p bs false).port (by simp [goodTouch])
  have kept : (s.countGood p bs false).inMemFlush (s.port p).rxCells = false := by rw [State.inMemFlush, fab]; exact hf
  unfold State.rxEnd
  simp [h, hn, State.rxFill, hr, State.countRx, hctl, kept, port]

theorem State.enState_of_receives (h : s.receives p = true) : s.enState p ≠ enIdle := by
  intro idle
  simp [State.receives, idle, enIdle, enOn, enDraining] at h

theorem State.loopback_of_receives (h : s.receives p = true) : s.fld (Fld.PT_CTRL_LOOPBACK p) ≠ 2 := by
  intro far
  simp [State.receives, far] at h

/-- A line that loops nothing back, near or far, is heard alone. -/
theorem State.fromLine_heard (bs : List Byte) (f : State → State) (h1 : s.fld (Fld.PT_CTRL_LOOPBACK p) ≠ 1) (h2 : s.fld (Fld.PT_CTRL_LOOPBACK p) ≠ 2) :
    s.fromLine p bs f = f s := by
  rw [State.fromLine, if_neg h1, State.echo, if_neg h2]

/-- A port that receives, with its group awake, counts the line's errors and ends the frame's reception. -/
theorem State.frameHeard_received (bs : List Byte) (cut : Bool) (e : LineErrs) (hr : s.receives p = true) (hm : s.mode p ≠ 0)
    (hb : bs ≠ [] ∨ cut = true) (ha : s.pgAsleep (groupOf p) = false) :
    ∃ stamp at_, s.frameHeard p bs cut e = ((s.lineCount p e).pgUse (groupOf p)).rxEnd p bs cut stamp at_ := by
  obtain ⟨receives, _, asleep, _, _⟩ := State.reads_lineCount s p e hm (State.enState_of_receives s p hr)
  have some_ : ¬ (bs = [] ∧ cut = false) := by simpa [imp_iff_not_or, or_comm] using hb
  unfold State.frameHeard
  dsimp only
  rw [if_neg some_, State.frameIn, if_pos (receives.trans hr), State.rxLast, if_neg (by simp [asleep, ha])]
  exact ⟨_, _, rfl⟩

end

section
variable {s : State} {dt p : Nat} {bs : List Byte} {cut : Bool} {e : LineErrs}

/-- The state after the line's errors, with the port's group in use. -/
def State.heardErrs (s : State) (dt p : Nat) (e : LineErrs) : State := ((s.begun dt).lineCount p e).pgUse (groupOf p)

/-- What FRAME_RX_END of a port that receives does. -/
theorem frameRxEnd_received (hr : s.receives p = true) (hmode : s.fld (Fld.PT_STATUS_ACTIVE_MODE p) ≠ 0)
    (hl : s.fld (Fld.PT_CTRL_LOOPBACK p) ≠ 1) (hb : bs ≠ [] ∨ cut = true) (ha : s.pgAsleep (groupOf p) = false) :
    ∃ stamp at_, (s.begun dt).onPort p (fun u => u.fromLine p bs (fun u => u.frameHeard p bs cut e)) =
      (s.heardErrs dt p e).rxEnd p bs cut stamp at_ := by
  have receives : (s.begun dt).receives p = true := (State.receives_begun s dt p).trans hr
  obtain ⟨stamp, at_, heard⟩ := State.frameHeard_received (s.begun dt) p bs cut e receives (by rwa [State.mode_begun]) hb (by simpa using ha)
  refine ⟨stamp, at_, ?_⟩
  rw [State.onPort_present _ _ _ (State.portAbsent_of_receives receives),
    State.fromLine_heard _ _ _ _ (by simpa using hl) (State.loopback_of_receives _ _ receives), heard, State.heardErrs]

/-- It differs from the state before in what the line's errors and the group's use touch, and shows those errors. -/
theorem State.heardErrs_keeps (s : State) (dt : Nat) (e : LineErrs) (hp : p < 144) (hr : s.receives p = true)
    (hmode : s.fld (Fld.PT_STATUS_ACTIVE_MODE p) ≠ 0) :
    (s.heardErrs dt p e).timeReq = ⟨none, none⟩ ∧ (s.heardErrs dt p e).fab = (s.begun dt).fab ∧ (∀ q, (s.heardErrs dt p e).port q = s.port q) ∧
    (∀ bs cut, (s.heardErrs dt p e).rxCase p bs cut = s.rxCase p bs cut) ∧
    (∀ o, o < 0x200 → (s.heardErrs dt p e).ctr (Ctr.port p o) = s.ctr (Ctr.port p o)) ∧
    (s.heardErrs dt p e).ctr (Ctr.port p 0x200) = (s.ctr (Ctr.port p 0x200) + e.blocks) % 2 ^ 64 ∧
    (s.heardErrs dt p e).ctr (Ctr.port p 0x210) = (s.ctr (Ctr.port p 0x210) + e.uncorrected) % 2 ^ 64 := by
  have mode : (s.begun dt).mode p ≠ 0 := by rwa [State.mode_begun]
  have running : (s.begun dt).enState p ≠ enIdle := by rw [State.enState_begun]; exact State.enState_of_receives s p hr
  have lined := State.leaves_lineCount (s.begun dt) p e mode running
  have used := State.leaves_pgUse ((s.begun dt).lineCount p e) p (groupOf p)
  obtain ⟨_, case_, _, fab, ports⟩ := State.reads_lineCount (s.begun dt) p e mode running
  obtain ⟨blocks, _, uncorrected, _⟩ := State.ctr_lineCount (s.begun dt) p e hp mode running
  have kept {o : Nat} (ho : o < 0x400) : (s.heardErrs dt p e).ctr (Ctr.port p o) = ((s.begun dt).lineCount p e).ctr (Ctr.port p o) :=
    used.ctr hp ho (Nat.not_le.mpr (portCtr_lt hp ho))
  refine ⟨used.2.trans (lined.2.trans (State.begun_timeReq s dt)), by simp [State.heardErrs, fab], fun q => by simp [State.heardErrs, ports],
    fun bs cut => by simp [State.heardErrs, case_], fun o ho => ?_, ?_, ?_⟩
  · rw [kept (by omega), lined.ctr hp (by omega) (by simp [errsTouch]; omega), State.ctr_begun]
  · rw [kept (by decide), blocks, State.ctr_begun]
  · rw [kept (by decide), uncorrected, State.ctr_begun]

/-- A bad frame: its case's counter and the line's, no cells and no new frame. -/
theorem frameRxEnd_bad (hp : p < 144) (hm : s.mainUp = true) (hr : s.receives p = true) (hmode : s.fld (Fld.PT_STATUS_ACTIVE_MODE p) ≠ 0)
    (hl : s.fld (Fld.PT_CTRL_LOOPBACK p) ≠ 1) (hb : bs ≠ [] ∨ cut = true) (ha : s.pgAsleep (groupOf p) = false) (hc : s.rxCase p bs cut ≠ .good) :
    ∃ t, exec (.frameRxEnd dt p bs cut e) s = .next t ∧ (t.port p).rxOn = false ∧ (t.port p).rxCells = [] ∧ t.fab.frames = s.fab.frames ∧
      t.ctr (Ctr.port p 0x200) = (s.ctr (Ctr.port p 0x200) + e.blocks) % 2 ^ 64 ∧
      t.ctr (Ctr.port p 0x210) = (s.ctr (Ctr.port p 0x210) + e.uncorrected) % 2 ^ 64 ∧
      t.ctr (Ctr.port p (s.rxCase p bs cut).counter) = (s.ctr (Ctr.port p (s.rxCase p bs cut).counter) + 1) % 2 ^ 64 := by
  obtain ⟨stamp, at_, act⟩ := frameRxEnd_received (dt := dt) (e := e) hr hmode hl hb ha
  obtain ⟨req, fab, _, case_, other, blocks, uncorrected⟩ := State.heardErrs_keeps s dt e hp hr hmode
  obtain ⟨left, counted, off, empty⟩ := State.rxEnd_bad (s.heardErrs dt p e) p bs cut stamp at_ hp (by rwa [case_])
  rw [case_] at left counted
  have small := (s.rxCase p bs cut).counter_lt
  have kept {o : Nat} (h2 : 0x200 ≤ o) (ho : o < 0x378) := left.ctr hp (by omega) (portCtr_of_refuse (o := o) hp (by omega) (by omega) (by omega))
  refine ⟨_, exec_main (c := .frameRxEnd dt p bs cut e) rfl (decide_eq_true hp) hm act (left.2.trans req), by rw [State.port_settle]; exact off,
    by rw [State.port_settle]; exact empty, ?_, ?_, ?_, ?_⟩
  · have same : ((s.heardErrs dt p e).rxEnd p bs cut stamp at_).fab = (s.heardErrs dt p e).fab := left.part (k := .fab) (by simp [refuseTouch, grantTouch])
    rw [State.settle_fab, same, fab, State.frames_begun]
  · rw [State.ctr_settle_port _ _ _ hp (by decide), kept (by decide) (by decide), blocks]
  · rw [State.ctr_settle_port _ _ _ hp (by decide), kept (by decide) (by decide), uncorrected]
  · rw [State.ctr_settle_port _ _ _ hp (by omega), counted, other _ small]

/-- A good frame with all its cells (R192, R193). -/
theorem frameRxEnd_good (hp : p < 144) (hm : s.mainUp = true) (hr : s.receives p = true) (hmode : s.fld (Fld.PT_STATUS_ACTIVE_MODE p) ≠ 0)
    (hl : s.fld (Fld.PT_CTRL_LOOPBACK p) ≠ 1) (hb : bs ≠ []) (ha : s.pgAsleep (groupOf p) = false) (hc : s.rxCase p bs false = .good)
    (hctl : isMacCtl bs = false) (hrf : (s.port p).rxRefused = false) (hn : (s.port p).rxCells.length = cellsFor bs.length)
    (hf : s.inMemFlush (s.port p).rxCells = false) :
    ∃ t f, exec (.frameRxEnd dt p bs false e) s = .next t ∧ t.frame? s.fab.nextFid = some f ∧ f.data = bs ∧ f.src = p ∧
      f.cells = (s.port p).rxCells ∧ f.stage = .stored ∧ (t.port p).rxOn = false ∧
      t.ctr (Ctr.port p 0x000) = (s.ctr (Ctr.port p 0x000) + bs.length) % 2 ^ 64 ∧
      t.ctr (Ctr.port p 0x008) = (s.ctr (Ctr.port p 0x008) + 1) % 2 ^ 64 ∧
      t.ctr (Ctr.port p 0x200) = (s.ctr (Ctr.port p 0x200) + e.blocks) % 2 ^ 64 ∧
      t.ctr (Ctr.port p 0x210) = (s.ctr (Ctr.port p 0x210) + e.uncorrected) % 2 ^ 64 ∧
      (∀ p', p' ≠ p → t.port p' = s.port p') := by
  obtain ⟨stamp, at_, act⟩ := frameRxEnd_received (bs := bs) (cut := false) (dt := dt) (e := e) hr hmode hl (.inl hb) ha
  obtain ⟨req, fab, ports, case_, other, blocks, uncorrected⟩ := State.heardErrs_keeps s dt e hp hr hmode
  have flush : (s.heardErrs dt p e).inMemFlush ((s.heardErrs dt p e).port p).rxCells = false := by
    rw [ports, State.inMemFlush, fab, ← State.inMemFlush, State.inMemFlush_begun, hf]
  have stored := State.rxEnd_good (s.heardErrs dt p e) p bs stamp at_ (by rw [case_, hc]) hctl (by rw [ports, hrf]) (by rw [ports, hn]) flush
  have good := State.leaves_countGood (s.heardErrs dt p e) p bs false
  obtain ⟨bytes, frames⟩ := State.ctr_countGood (s.heardErrs dt p e) p bs
  have nextFid : ((s.heardErrs dt p e).countGood p bs false).fab.nextFid = s.fab.nextFid := by
    rw [show _ = (s.heardErrs dt p e).fab from good.part (k := .fab) (by simp [goodTouch]), fab, State.nextFid_begun]
  have kept {o : Nat} (h2 : 0x200 ≤ o) (ho : o < 0x400) := good.ctr (o := o) hp ho (by rintro ⟨o', h, small⟩; have := portCtr_inj.mp h; omega)
  rw [stored, ports] at act
  have idle : ((s.heardErrs dt p e).countGood p bs false).timeReq = ⟨none, none⟩ := good.2.trans req
  refine ⟨_, Frame.fresh bs (s.port p).rxCells (s.port p).rxOwner (s.port p).rxPool (pipeOf p) 0 p stamp at_,
    exec_main (c := .frameRxEnd dt p bs false e) rfl (decide_eq_true hp) hm act
      (by rw [State.timeReq_addFrame, State.setPort_timeReq, idle]), ?_, rfl, rfl, rfl, rfl, ?_, ?_, ?_, ?_, ?_,
    fun q hq => ?_⟩
  · rw [State.frame?_settle, ← nextFid]
    exact State.frame?_addFrame _ _
  · rw [State.port_settle, State.port_addFrame, State.port_setPort_self]
  · rw [State.ctr_settle_port _ _ _ hp (by decide), State.ctr_addFrame, State.ctr_setPort, bytes, other _ (by decide)]
  · rw [State.ctr_settle_port _ _ _ hp (by decide), State.ctr_addFrame, State.ctr_setPort, frames, other _ (by decide)]
  · rw [State.ctr_settle_port _ _ _ hp (by decide), State.ctr_addFrame, State.ctr_setPort, kept (by decide) (by decide), blocks]
  · rw [State.ctr_settle_port _ _ _ hp (by decide), State.ctr_addFrame, State.ctr_setPort, kept (by decide) (by decide), uncorrected]
  · rw [State.port_settle, State.port_addFrame, State.port_setPort_ne _ _ _ _ hq, good.port (by simp [goodTouch]), ports]

/-- Without any byte FRAME_RX_END brings the line's errors alone. -/
theorem frameRxEnd_errors (hp : p < 144) (hm : s.mainUp = true) (hl : s.fld (Fld.PT_CTRL_LOOPBACK p) = 0) (hpa : s.portAbsent p = false)
    (hmode : s.fld (Fld.PT_STATUS_ACTIVE_MODE p) ≠ 0) (he : s.fld (Fld.PT_STATUS_EN_STATE p) ≠ 0) :
    ∃ t, exec (.frameRxEnd dt p [] false e) s = .next t ∧ t.ctr (Ctr.port p 0x200) = (s.ctr (Ctr.port p 0x200) + e.blocks) % 2 ^ 64 ∧
      t.ctr (Ctr.port p 0x208) = (s.ctr (Ctr.port p 0x208) + e.corrected) % 2 ^ 64 ∧
      t.ctr (Ctr.port p 0x210) = (s.ctr (Ctr.port p 0x210) + e.uncorrected) % 2 ^ 64 ∧
      t.ctr (Ctr.port p 0x218) = (s.ctr (Ctr.port p 0x218) + e.symbols) % 2 ^ 64 ∧ (∀ q, t.port q = s.port q) ∧
      t.fab.frames = s.fab.frames := by
  have mode : (s.begun dt).mode p ≠ 0 := by rwa [State.mode_begun]
  have running : (s.begun dt).enState p ≠ enIdle := by rw [State.enState_begun]; exact he
  have act : (s.begun dt).onPort p (fun u => u.fromLine p [] (fun u => u.frameHeard p [] false e)) = (s.begun dt).lineCount p e := by
    rw [State.onPort_present _ _ _ (by simpa using hpa), State.fromLine_heard _ _ _ _ (by simp [hl]) (by simp [hl]), State.frameHeard]
    exact if_pos ⟨rfl, rfl⟩
  obtain ⟨_, _, _, fab, ports⟩ := State.reads_lineCount (s.begun dt) p e mode running
  have left := State.leaves_lineCount (s.begun dt) p e mode running
  have counted := State.ctr_lineCount (s.begun dt) p e hp mode running
  simp only [State.ctr_begun] at counted
  obtain ⟨blocks, corrected, uncorrected, symbols⟩ := counted
  have seen {o : Nat} (ho : o < 0x400) := State.ctr_settle_port ((s.begun dt).lineCount p e) s (s.begun dt).time hp ho
  exact ⟨_, exec_main (c := .frameRxEnd dt p [] false e) rfl (decide_eq_true hp) hm act (left.2.trans (State.begun_timeReq s dt)),
    (seen (by decide)).trans blocks, (seen (by decide)).trans corrected, (seen (by decide)).trans uncorrected, (seen (by decide)).trans symbols,
    fun q => by rw [State.port_settle, ports, State.port_begun], by rw [State.settle_fab, fab, State.frames_begun]⟩

end

/-- The case of a whole frame by its length and its FCS (R49). -/
theorem State.rxCase_jabber (s : State) (p : Nat) {bs : List Byte} (h : 10240 < bs.length) : s.rxCase p bs false = .jabber := by
  simp [State.rxCase, h]
theorem State.rxCase_oversize (s : State) (p : Nat) {bs : List Byte} (h : bs.length ≤ 10240) (hm : s.mtu p < bs.length) : s.rxCase p bs false = .oversize := by
  simp [State.rxCase, hm, Nat.not_lt.mpr h]
theorem State.mtu_bounds (s : State) (p : Nat) : 64 ≤ s.mtu p ∧ s.mtu p ≤ 10240 := by unfold State.mtu; omega
theorem State.rxCase_short (s : State) (p : Nat) {bs : List Byte} (h : bs.length < 64) :
    s.rxCase p bs false = if fcsGood bs then .undersize else .fragment := by
  have bounds := State.mtu_bounds s p
  rw [State.rxCase, if_neg (by decide), if_neg (by omega), if_neg (by omega), if_pos h]
theorem State.rxCase_fits (s : State) (p : Nat) {bs : List Byte} (h : 64 ≤ bs.length) (hm : bs.length ≤ s.mtu p) :
    s.rxCase p bs false = if fcsGood bs then .good else .fcsErr := by
  have bounds := State.mtu_bounds s p
  rw [State.rxCase, if_neg (by decide), if_neg (by omega), if_neg (by omega), if_neg (by omega)]

/-- Settles O8: the line's errors leave what a reception reads, and the end of the reception goes by the frame's case. -/
theorem reception : Obligations.Reception := by
  refine ⟨fun s dt p bs cut e hp hm _ hr hmode hl hb ha hc => ?_,
    fun s dt p bs e hp hm _ hr hmode hl ha h64 hmtu hfcs hctl hrf hn hf => ?_, fun s dt p e hp hm hl hpa hmode he => ?_⟩
  · obtain ⟨t, next, off, cells, frames, blocks, uncorrected, counted⟩ := frameRxEnd_bad (dt := dt) (e := e) hp hm hr hmode hl hb ha hc
    have of_case {c : RxCase} (h : s.rxCase p bs cut = c) : t.ctr (Ctr.port p c.counter) = (s.ctr (Ctr.port p c.counter) + 1) % 2 ^ 64 := h ▸ counted
    refine ⟨t, next, off, cells, frames, blocks, uncorrected, fun h => of_case (c := .aborted) (if_pos h), ?_, ?_, ?_, ?_, ?_⟩
    · rintro rfl h
      exact of_case (State.rxCase_jabber s p h)
    · rintro rfl h hmtu
      exact of_case (State.rxCase_oversize s p h hmtu)
    · rintro rfl h hfcs
      exact of_case (c := .fragment) (by rw [State.rxCase_short s p h, hfcs]; rfl)
    · rintro rfl h hfcs
      exact of_case (c := .undersize) (by rw [State.rxCase_short s p h, hfcs]; rfl)
    · rintro rfl h hmtu hfcs
      exact of_case (c := .fcsErr) (by rw [State.rxCase_fits s p h hmtu, hfcs]; rfl)
  · have some_ : bs ≠ [] := by rintro rfl; simp at h64
    exact frameRxEnd_good hp hm hr hmode hl some_ ha (by rw [State.rxCase_fits s p h64 hmtu, hfcs]; rfl) hctl hrf hn hf
  · exact frameRxEnd_errors hp hm hl hpa hmode he

end Sys2Proof.Machine
end

/-! ### The framer takes a frame with a launch time from the MAC (R317) -/

section
namespace Sys2Proof.Machine

/-- A host frame with a launch time, as the ring's job gives it (R316). -/
def timedFrame : Frame := { Frame.fresh (List.replicate 64 0) [] 0 0 0 1 0 0 0 with host := some ⟨0, 0, false, 0, 0, some 0⟩, ref := 1, stage := .admitted }

/-- The descriptor of the host frame 0 on its way out of port 0. -/
def timedEntry : QEnt := ⟨0, 0, 0, pcqId 0 0, 0, false, false, none, [], List.replicate 64 0⟩

/-- Port 0 runs CRF with an empty framer, and its MAC holds the host frame: on a CRF port SELECT_FRAME leaves it there in the phase `sending`, whatever its
launch time (`State.txGo`). -/
def launchHeld : State :=
  ((({ (State.reset.setF (Fld.PT_STATUS_EN_STATE 0) 1).setF (Fld.PT_STATUS_ACTIVE_MODE 0) 3 with
      isl := { Islands.reset with pair := 15, pg := 4095, rxOpen := true } }).setAct (Reg.PT_MODE 0)
        (w32 (setBits (State.reset.actReg (Reg.PT_MODE 0)).toNat (Fld.PT_MODE_CRF 0).lo (Fld.PT_MODE_CRF 0).len 1))).setFrame 0 timedFrame).setPort 0
    { Port.reset with tx := some ⟨timedEntry, .sending, 0, 0⟩ }

/-- The next CRF frame takes the frame from the MAC, so that its place in the payload is where its launch time lies. -/
theorem crfFrameTx_takes_launch : ∃ t, exec (.crfFrameTx 0 0) launchHeld = .next t ∧ (t.port 0).tx = none :=
  ⟨_, rfl, by decide +kernel⟩

/-- Refutes O19: its first clause holds every port fixed while the framer holds no frame, also where the port's MAC holds a frame with a launch time, which the
framer takes as the payload begins (R317, `State.framerLaunch`). -/
theorem not_crfFrames : ¬ Obligations.CrfFrames := by
  unfold Obligations.CrfFrames
  intro h
  obtain ⟨sends, -⟩ := h
  obtain ⟨t, _, ht, -, -, -, -, -, -, kept⟩ := sends launchHeld 0 0 (by decide) (by decide +kernel) (by decide +kernel) (by decide +kernel) (by decide +kernel)
    (by decide +kernel) (by decide +kernel)
  obtain ⟨-, -, -, ports, -⟩ := kept (by decide +kernel) (by decide +kernel)
  obtain ⟨u, hu, taken⟩ := crfFrameTx_takes_launch
  rw [exec_next_unique ht hu, ports 0 (by decide)] at taken
  exact absurd taken (by decide +kernel)

end Sys2Proof.Machine
end

/-! ### DUTY of a state that is no holder's (R348) -/

section
namespace Sys2Proof.Machine

/-- A valid RENEW of unit 1 for epoch 0 and number 0. -/
def renewOfUnit1 : List Byte := withCrc ([1, 1, 128] ++ List.replicate 37 0)

/-- A standby of unit 0 on the pin path that has acted on that message. Its DUTY bit is 1, with X at 5: no command leaves a standby so, but no hypothesis of
the statement asks that the bit agrees with the lease. -/
def dutyStandby : State :=
  { ((State.reset.setF Fld.TW_CFG_EN 1).setF Fld.TW_STATUS_LEASE_STATE lsStandby).setF Fld.TW_STATUS_DUTY 1 with
    tw := { Twin.reset with expiry := 5, acted := [(lmRenew, 0, 0)] } }

/-- When the message comes again at 10, past X, the device has DUTY no more. -/
theorem renewRx_ends_duty : dutyStandby.duty = true ∧ ∃ t, exec (.renewRx 10 .pin renewOfUnit1) dutyStandby = .next t ∧ t.duty = false :=
  ⟨by decide +kernel, _, rfl, by decide +kernel⟩

/-- Refutes O41: its last clause has a message acted on before leave DUTY as it was. `State.duty` compares the time with X, and for a standby or a claimant no
hypothesis asks that the DUTY bit is 0 or that X lies beyond the command's time. -/
theorem not_leaseMessages : ¬ Obligations.LeaseMessages := by
  unfold Obligations.LeaseMessages
  intro h
  obtain ⟨-, -, -, -, -, -, -, -, -, again⟩ := h
  obtain ⟨t, ht, -, kept, -⟩ := again dutyStandby 10 lmRenew .pin renewOfUnit1 (by decide +kernel) (by decide +kernel) (by decide +kernel) (by decide +kernel)
    (by decide +kernel) (by decide +kernel) (.inl (by decide +kernel)) (by decide) (by decide)
  obtain ⟨before, u, hu, after⟩ := renewRx_ends_duty
  have same : u = t := exec_next_unique ht hu
  rw [same, kept, before] at after
  exact absurd after (by decide)

end Sys2Proof.Machine
end

/-! ### The receiver of a CRF port (R72, R73) -/

section
namespace Sys2Proof.Machine

@[simp] theorem State.crf_begun (s : State) (dt p : Nat) : (s.begun dt).crf p = s.crf p := by simp [State.crf]
@[simp] theorem State.crfRx_begun (s : State) (dt p : Nat) : (s.begun dt).crfRx p = s.crfRx p := by simp [State.crfRx]
@[simp] theorem State.isSync_begun (s : State) (dt p : Nat) : (s.begun dt).isSync p = s.isSync p := by simp [State.isSync]
@[simp] theorem State.crfRuns_begun (s : State) (dt p : Nat) : (s.begun dt).crfRuns p = s.crfRuns p := by simp [State.crfRuns]
@[simp] theorem State.lfCands_begun (s : State) (dt p : Nat) : (s.begun dt).lfCands p = s.lfCands p := by simp [State.lfCands]
@[simp] theorem State.lfTol_begun (s : State) (dt p : Nat) : (s.begun dt).lfTol p = s.lfTol p := by simp [State.lfTol]
@[simp] theorem State.lfM_begun (s : State) (dt p : Nat) : (s.begun dt).lfM p = s.lfM p := by simp [State.lfM]
@[simp] theorem State.lfN_begun (s : State) (dt p : Nat) : (s.begun dt).lfN p = s.lfN p := by simp [State.lfN]

@[simp] theorem State.crf_settle (s s0 : State) (t : Time) (p : Nat) : (s.settle s0 t).crf p = s.crf p := by simp [State.crf]
@[simp] theorem State.crfRx_settle (s s0 : State) (t : Time) (p : Nat) : (s.settle s0 t).crfRx p = s.crfRx p := by simp [State.crfRx]
@[simp] theorem State.isSync_settle (s s0 : State) (t : Time) (p : Nat) : (s.settle s0 t).isSync p = s.isSync p := by simp [State.isSync]

section
variable (s : State) (p : Nat)

@[simp] theorem State.crfRx_setRx (x : CrfRx) : (s.setRx p x).crfRx p = x := by simp [State.crfRx, State.setRx, State.setCrf, State.crf]
@[simp] theorem State.crfRx_setF (f : Fld) (v : Nat) : (s.setF f v).crfRx p = s.crfRx p := rfl
@[simp] theorem State.crfRx_raise (f : Fld) : (s.raise f).crfRx p = s.crfRx p := rfl
@[simp] theorem State.crfRx_count (a n : Nat) : (s.count a n).crfRx p = s.crfRx p := rfl
@[simp] theorem State.crfRx_setPm (q : Nat) (x : Pm) : (s.setPm q x).crfRx p = s.crfRx p := rfl
@[simp] theorem State.crfRx_lfShow : (s.lfShow p).crfRx p = s.crfRx p := by simp [State.lfShow]
@[simp] theorem State.fld_setRx (x : CrfRx) (f : Fld) : (s.setRx p x).fld f = s.fld f := rfl
@[simp] theorem State.fld_setPm (q : Nat) (x : Pm) (f : Fld) : (s.setPm q x).fld f = s.fld f := rfl
@[simp] theorem State.port_setRx (x : CrfRx) (q : Nat) : (s.setRx p x).port q = s.port q := rfl
@[simp] theorem State.port_setPm (q : Nat) (x : Pm) (r : Nat) : (s.setPm q x).port r = s.port r := rfl
@[simp] theorem State.ctr_setRx (x : CrfRx) (a : Nat) : (s.setRx p x).ctr a = s.ctr a := rfl
@[simp] theorem State.port_lfShow (q : Nat) : (s.lfShow p).port q = s.port q := by simp [State.lfShow]
@[simp] theorem State.ctr_lfShow (a : Nat) : (s.lfShow p).ctr a = s.ctr a := by simp [State.lfShow]

theorem State.leaves_setRx (y : CrfRx) (x : Touch) (h : .crfs ∈ x.parts) : s.leaves (s.setRx p y) x := State.leaves_setCrf s p _ x h

/-- `LF_STATUS` shows what the receiver is. -/
theorem State.leaves_lfShow (x : Touch) (h : x.regs (Reg.LF_STATUS p)) : s.leaves (s.lfShow p) x :=
  State.leaves_trans (State.leaves_setF _ _ _ x h) (State.leaves_setF _ _ _ x h)

/-- The fields of `LF_STATUS` above the trackers are none of its business. -/
theorem State.fld_lfShow {f : Fld} (h : (Fld.LF_STATUS_FA_STATE p).apart f) (g : (Fld.LF_STATUS_CANDS_ACTIVE p).apart f) : (s.lfShow p).fld f = s.fld f := by
  rw [State.lfShow, State.fld_setF_of_apart _ _ (by simp [Fld.LF_STATUS_CANDS_ACTIVE]) g, State.fld_setF_of_apart _ _ (by simp [Fld.LF_STATUS_FA_STATE]) h]

@[simp] theorem State.isSync_lfShow : (s.lfShow p).isSync p = s.isSync p := by
  have shown : (s.lfShow p).fld (Fld.LF_STATUS_FA_STATE p) = if s.isSync p then 2 else if (s.crfRx p).trk.length = 0 then 0 else 1 := by
    rw [State.lfShow, State.fld_setF_of_apart _ _ (by simp [Fld.LF_STATUS_CANDS_ACTIVE])
      (by simp [Fld.apart, Fld.LF_STATUS_CANDS_ACTIVE, Fld.LF_STATUS_FA_STATE]), State.fld_setF_self _ _ _ (by simp [Fld.LF_STATUS_FA_STATE])]
    split_ifs <;> rfl
  rw [State.isSync, shown]
  split_ifs with sync
  · exact sync.symm
  · simpa using sync
  · simpa using sync

end

/-! #### Out of SYNC (R72) -/

/-- The number of the next block has moved on. -/
def State.blockPassed (s : State) (p : Nat) : State := s.setRx p { s.crfRx p with blk := ((s.crfRx p).blk + 1) % 1024 }

section
variable (s : State) (p : Nat)

theorem State.leaves_blockPassed (x : Touch) (h : .crfs ∈ x.parts) : s.leaves (s.blockPassed p) x := State.leaves_setRx s p _ x h

@[simp] theorem State.crfRx_blockPassed : (s.blockPassed p).crfRx p = { s.crfRx p with blk := ((s.crfRx p).blk + 1) % 1024 } := State.crfRx_setRx s p _

/-- The trackers are these from now on. -/
def State.trackers (s : State) (p : Nat) (l : List (Nat × Nat)) : State := (s.blockPassed p).setRx p { (s.blockPassed p).crfRx p with trk := l }

theorem State.leaves_trackers (l : List (Nat × Nat)) (x : Touch) (h : .crfs ∈ x.parts) : s.leaves (s.trackers p l) x :=
  State.leaves_trans (State.leaves_blockPassed s p x h) (State.leaves_setRx _ p _ x h)

@[simp] theorem State.crfRx_trackers (l : List (Nat × Nat)) :
    (s.trackers p l).crfRx p = { s.crfRx p with blk := ((s.crfRx p).blk + 1) % 1024, trk := l } := by simp [State.trackers]
@[simp] theorem State.isSync_trackers (l : List (Nat × Nat)) : (s.trackers p l).isSync p = s.isSync p := rfl
@[simp] theorem State.isSync_count (a n : Nat) : (s.count a n).isSync p = s.isSync p := rfl

/-- A FAS at an offset without tracker takes a free one. -/
theorem State.blockHunt_first (hn : ∀ e, e ∈ (s.crfRx p).trk → e.1 ≠ (s.crfRx p).blk) (hc : (s.crfRx p).trk.length < s.lfCands p) :
    s.blockHunt p fasBytes = (s.trackers p ((s.crfRx p).trk ++ [((s.crfRx p).blk, 1)])).lfShow p := by
  have none_ : (s.crfRx p).trk.find? (fun t => decide (t.1 = (s.crfRx p).blk)) = none := List.find?_eq_none.2 (fun e he => by simpa using hn e he)
  unfold State.blockHunt
  simp only [none_, decide_true, true_and, if_pos hc]
  rfl

/-- A block that is no FAS frees its tracker, and is counted. -/
theorem State.blockHunt_miss {c : Nat} {b : List Byte} (hf : (s.crfRx p).trk.find? (fun e => decide (e.1 = (s.crfRx p).blk)) = some ((s.crfRx p).blk, c))
    (hb : b ≠ fasBytes) :
    s.blockHunt p b = ((s.trackers p ((s.crfRx p).trk.filter (fun u => decide (u.1 ≠ (s.crfRx p).blk)))).count (Ctr.port p 0x320) 1).lfShow p := by
  unfold State.blockHunt
  simp only [hf, hb, decide_false]
  rfl

/-- SYNC begins at a position, with the receiver's runs at their start. -/
def State.syncEnter (s : State) (p i : Nat) : State :=
  let y := s.crfRx p
  let s2 := (s.setRx p { y with trk := [], pos := i, run := 0, live := false, mfas := none, miss := 0 }).setF (Fld.LF_STATUS_FA_STATE p) 2
  let s3 := (s2.setPm p { s2.pm p with lofAt := s2.now, lomAt := s2.now }).raise (Fld.LF_INT_STATUS_SYNC_CHG p)
  s3.setRx p { s3.crfRx p with fasTime := s3.rxStamp p (s3.lineTime p 8) }

/-- The FAS that brings a tracker to N enters SYNC, and its frame begins. -/
theorem State.blockHunt_enter {c : Nat} (hf : (s.crfRx p).trk.find? (fun e => decide (e.1 = (s.crfRx p).blk)) = some ((s.crfRx p).blk, c))
    (hn : s.lfN p ≤ c + 1) :
    s.blockHunt p fasBytes = (((s.blockPassed p).syncEnter p (s.crfRx p).blk).frameStart p false).lfShow p := by
  unfold State.blockHunt
  simp only [hf, decide_true, if_pos hn]
  rfl

/-- What entering SYNC, and leaving it but for the frame in reassembly, touches. -/
def syncTouch (p : Nat) : Touch :=
  { parts := [.crfs, .pms], regs := (· ∈ [Reg.LF_STATUS p, Reg.LF_INT_STATUS p]), ctrs := (· = Ctr.port p 0x308) }

theorem State.leaves_syncEnter (i : Nat) : s.leaves (s.syncEnter p i) (syncTouch p) := by
  have rx (t : State) (y : CrfRx) : t.leaves (t.setRx p y) (syncTouch p) := State.leaves_setRx t p y _ (by simp [syncTouch])
  exact State.leaves_trans (rx s _) (State.leaves_trans (State.leaves_setF _ _ _ _ (by simp [syncTouch, Fld.LF_STATUS_FA_STATE]))
    (State.leaves_trans (State.leaves_setPm _ p _ _ (by simp [syncTouch]))
      (State.leaves_trans (State.leaves_raise _ _ _ (by simp [syncTouch, Fld.LF_INT_STATUS_SYNC_CHG])) (rx _ _))))

theorem State.syncEnter_shows (i : Nat) : (s.syncEnter p i).isSync p = true ∧ (s.syncEnter p i).fld (Fld.LF_INT_STATUS_SYNC_CHG p) = 1 ∧
    ((s.syncEnter p i).crfRx p).pos = i := by
  refine ⟨?_, ?_, by simp [State.syncEnter]⟩
  · rw [State.isSync, decide_eq_true_eq]
    simp only [State.syncEnter, State.fld_setRx]
    rw [State.fld_raise_ne _ _ _ (by simp [Fld.LF_STATUS_FA_STATE, Fld.LF_INT_STATUS_SYNC_CHG, Reg.LF_STATUS, Reg.LF_INT_STATUS]), State.fld_setPm,
      State.fld_setF_self _ _ _ (by simp [Fld.LF_STATUS_FA_STATE])]
    rfl
  · simp only [State.syncEnter, State.fld_setRx]
    rw [State.fld_raise_self _ _ (by simp [Fld.LF_INT_STATUS_SYNC_CHG]) (by simp [Fld.LF_INT_STATUS_SYNC_CHG])]

/-- The frame of a FAS counts in its counter, and touches the receiver alone. -/
theorem State.leaves_frameStart (delin : Bool) (x : Touch) (h : .crfs ∈ x.parts) (hc : x.ctrs (Ctr.port p 0x308)) : s.leaves (s.frameStart p delin) x :=
  State.leaves_trans (State.leaves_setRx s p _ x h) (State.leaves_count _ _ _ x hc)

@[simp] theorem State.fld_frameStart (delin : Bool) (f : Fld) : (s.frameStart p delin).fld f = s.fld f := rfl
@[simp] theorem State.isSync_frameStart (delin : Bool) : (s.frameStart p delin).isSync p = s.isSync p := rfl
@[simp] theorem State.crfRx_frameStart (delin : Bool) : (s.frameStart p delin).crfRx p =
    { s.crfRx p with live := true, delin := delin, bipLast := if (s.crfRx p).live then some (s.crfRx p).bip else none, bip := 0, off := 0, fhpDue := false } := by
  simp [State.frameStart]

end

/-! #### SYNC is left (R73) -/

theorem State.fld_lt (s : State) (f : Fld) : s.fld f < 2 ^ f.len := Nat.mod_lt _ (by positivity)
/-- A one-bit field that is not 1 is 0. -/
theorem State.fld_eq_zero_of_bit {s : State} {f : Fld} (hf : f.len = 1) (h : s.bit f = false) : s.fld f = 0 := by
  have := s.fld_lt f
  rw [hf] at this
  have : s.fld f ≠ 1 := by simpa [State.bit] using h
  omega

/-- What the end of SYNC touches: the cut of the frame in reassembly gives its cells back and mutes streams, the slot under way may be counted. -/
def leaveTouch (p : Nat) : Touch :=
  { parts := [.pool, .crfs, .pms], regs := fun _ => True, ctrs := (· ∈ [Ctr.port p 0x050, Ctr.port p 0x378, Ctr.port p 0x340, Ctr.tw 0x50]), ports := [p] }

section
variable (s : State) (p : Nat)

theorem State.leaves_slotReject (i : Nat) (bs : List Byte) (x : Touch) (hp : x.ctrs (Ctr.port p 0x340)) (ht : x.ctrs (Ctr.tw 0x50)) :
    s.leaves (s.slotReject p i bs) x := by
  have counted := State.leaves_count s (Ctr.port p 0x340) 1 x hp
  exact State.leaves_ite _ (fun _ => State.leaves_refl s x)
    (fun _ => State.leaves_ite _ (fun _ => State.leaves_trans counted (State.leaves_count _ _ _ x ht)) (fun _ => counted))

theorem State.leaves_slotBreak : s.leaves (s.slotBreak p) (leaveTouch p) :=
  State.leaves_ite _ (fun _ => State.leaves_trans (State.leaves_setRx s p _ _ (by simp [leaveTouch]))
    (State.leaves_slotReject _ p _ _ _ (by simp [leaveTouch]) (by simp [leaveTouch]))) (fun _ => State.leaves_refl s _)

theorem State.leaves_rxAbort : s.leaves (s.rxAbort p) (leaveTouch p) := by
  have loss (t : State) {o : Nat} (h : (leaveTouch p).ctrs (Ctr.port p o)) : t.leaves (t.countLoss p o) (leaveTouch p) :=
    State.leaves_countLoss t p _ (fun _ => trivial) h
  exact State.leaves_ite _ (fun _ => State.leaves_trans (loss s (by simp [leaveTouch]))
    (State.leaves_trans (State.leaves_ite _ (fun _ => loss _ (by simp [leaveTouch])) (fun _ => State.leaves_refl _ _))
      (State.leaves_trans (State.leaves_releaseCells _ _ _ _ _ (by simp [leaveTouch])) (State.leaves_setPort _ p _ _ (by simp [leaveTouch])))))
    (fun _ => State.leaves_refl s _)

theorem State.leaves_rxCut : s.leaves (s.rxCut p) (leaveTouch p) :=
  State.leaves_ite _ (fun _ => State.leaves_trans (State.leaves_trans
      (State.leaves_ite _ (fun _ => State.leaves_refl s _) (fun _ => State.leaves_countLoss s p _ (fun _ => trivial) (by simp [leaveTouch])))
      (State.leaves_setCrf _ p _ _ (by simp [leaveTouch]))) (State.leaves_rxAbort _ p))
    (fun _ => State.leaves_rxAbort s p)

/-- Delineation, back in DSEEK, with the frame in reassembly cut and the runs of the receiver as they stood. -/
theorem State.delinLost_ends : s.leaves (s.delinLost p) (leaveTouch p) ∧ (s.delinLost p).fld (Fld.LF_STATUS_DELIN p) = 0 ∧
    ((s.delinLost p).port p).modeDue = (s.port p).modeDue := by
  generalize hs1 : (if (s.crfRx p).take then s.rxCut p else s) = s1
  have cut : s.leaves s1 (leaveTouch p) := hs1 ▸ State.leaves_ite _ (fun _ => State.leaves_rxCut s p) (fun _ => State.leaves_refl s _)
  have due : (s1.port p).modeDue = (s.port p).modeDue := by
    rw [← hs1]
    split
    · exact (State.linkKept_rxCut p s).due
    · rfl
  generalize hs2 : s1.setRx p { s.crfRx p with st := .seek, buf := [], take := false, fhpDue := false } = s2
  have left : s.leaves s2 (leaveTouch p) := State.leaves_trans cut (hs2 ▸ State.leaves_setRx s1 p _ _ (by simp [leaveTouch]))
  have kept : (s2.port p).modeDue = (s.port p).modeDue := by rw [← due, ← hs2]; rfl
  have delin : s.delinLost p = if s2.bit (Fld.LF_STATUS_DELIN p) then (s2.setF (Fld.LF_STATUS_DELIN p) 0).raise (Fld.LF_INT_STATUS_DELIN_LOSS p) else s2 := by
    rw [← hs2, ← hs1]; rfl
  rw [delin]
  split
  · refine ⟨State.leaves_trans left (State.leaves_trans (State.leaves_setF _ _ _ _ trivial) (State.leaves_raise _ _ _ trivial)), ?_, by simpa using kept⟩
    rw [State.fld_raise_ne _ _ _ (by simp [Fld.LF_STATUS_DELIN, Fld.LF_INT_STATUS_DELIN_LOSS, Reg.LF_STATUS, Reg.LF_INT_STATUS]),
      State.fld_setF_self _ _ _ (by simp [Fld.LF_STATUS_DELIN])]
    rfl
  · exact ⟨left, State.fld_eq_zero_of_bit rfl (by simpa using ‹¬ s2.bit _ = true›), kept⟩

/-- Multiframe lock ends, and the other fields of `LF_STATUS` stay. -/
theorem State.setLock_ends : s.leaves (s.setLock p false) (leaveTouch p) ∧ (s.setLock p false).fld (Fld.LF_STATUS_MF_LOCK p) = 0 ∧
    (s.setLock p false).fld (Fld.LF_STATUS_DELIN p) = s.fld (Fld.LF_STATUS_DELIN p) ∧ ((s.setLock p false).port p).modeDue = (s.port p).modeDue := by
  unfold State.setLock
  split
  case isTrue h => exact ⟨State.leaves_refl s _, State.fld_eq_zero_of_bit rfl h, rfl, rfl⟩
  have other (t : State) (f : Fld) (h : f.addr = Reg.LF_STATUS p) : (t.raise (Fld.LF_INT_STATUS_MF_CHG p)).fld f = t.fld f :=
    State.fld_raise_ne _ _ _ (by simp [h, Fld.LF_INT_STATUS_MF_CHG, Reg.LF_STATUS, Reg.LF_INT_STATUS])
  refine ⟨State.leaves_trans (State.leaves_trans (State.leaves_setF _ _ _ _ trivial) (State.leaves_raise _ _ _ trivial))
    (State.leaves_setPm _ p _ _ (by simp [leaveTouch])), ?_, ?_, by simp⟩
  · rw [State.fld_setPm, other _ _ rfl, State.fld_setF_self _ _ _ (by simp [Fld.LF_STATUS_MF_LOCK])]
    rfl
  · rw [State.fld_setPm, other _ _ rfl, State.fld_setF_of_apart _ _ (by simp [Fld.LF_STATUS_MF_LOCK])
      (by simp [Fld.apart, Fld.LF_STATUS_MF_LOCK, Fld.LF_STATUS_DELIN])]

/-- What the receiver has left when SYNC is over: no tracker, no run, nothing of the multiframe. -/
def CrfRx.hunting (x : CrfRx) : CrfRx :=
  { x with trk := [], run := 0, live := false, delin := false, mfas := none, miss := 0, aisRun := (0, 0), rdiRun := (0, 0), rpt := none, markNow := false }

/-- The receiver starts to hunt. -/
def State.syncEnd (s : State) (p : Nat) : State :=
  let s1 := s.setF (Fld.LF_STATUS_FA_STATE p) 0
  let s2 := (s1.setRx p (s1.crfRx p).hunting).raise (Fld.LF_INT_STATUS_SYNC_CHG p)
  (s2.setPm p { s2.pm p with lofAt := s2.now, lomAt := s2.now }).lfShow p

theorem State.syncLeave_eq (h : s.isSync p = true) : s.syncLeave p = (((s.slotBreak p).delinLost p).setLock p false).syncEnd p := if_pos h

theorem State.leaves_syncEnd : s.leaves (s.syncEnd p) (leaveTouch p) :=
  State.leaves_trans (State.leaves_setF _ _ _ _ trivial) (State.leaves_trans (State.leaves_setRx _ p _ _ (by simp [leaveTouch]))
    (State.leaves_trans (State.leaves_raise _ _ _ trivial) (State.leaves_trans (State.leaves_setPm _ p _ _ (by simp [leaveTouch]))
      (State.leaves_lfShow _ p _ trivial))))

theorem State.fld_raise_syncChg {f : Fld} (h : f.addr = Reg.LF_STATUS p) : (s.raise (Fld.LF_INT_STATUS_SYNC_CHG p)).fld f = s.fld f :=
  State.fld_raise_ne _ _ _ (by simp [h, Fld.LF_INT_STATUS_SYNC_CHG, Reg.LF_STATUS, Reg.LF_INT_STATUS])

theorem State.fld_syncEnd {f : Fld} (ha : f.addr = Reg.LF_STATUS p) (hs : (Fld.LF_STATUS_FA_STATE p).apart f) (hc : (Fld.LF_STATUS_CANDS_ACTIVE p).apart f) :
    (s.syncEnd p).fld f = s.fld f := by
  rw [State.syncEnd, State.fld_lfShow _ p hs hc, State.fld_setPm, State.fld_raise_syncChg _ p ha, State.fld_setRx,
    State.fld_setF_of_apart _ _ (by simp [Fld.LF_STATUS_FA_STATE]) hs]

theorem State.isSync_syncEnd : (s.syncEnd p).isSync p = false := by
  rw [State.syncEnd, State.isSync_lfShow, State.isSync, State.fld_setPm, State.fld_raise_syncChg _ p rfl, State.fld_setRx,
    State.fld_setF_self _ _ _ (by simp [Fld.LF_STATUS_FA_STATE])]
  rfl

theorem State.syncChg_syncEnd : (s.syncEnd p).fld (Fld.LF_INT_STATUS_SYNC_CHG p) = 1 := by
  rw [State.syncEnd, State.fld_lfShow _ p (by simp [Fld.apart, Fld.LF_STATUS_FA_STATE, Fld.LF_INT_STATUS_SYNC_CHG, Reg.LF_STATUS, Reg.LF_INT_STATUS])
    (by simp [Fld.apart, Fld.LF_STATUS_CANDS_ACTIVE, Fld.LF_INT_STATUS_SYNC_CHG, Reg.LF_STATUS, Reg.LF_INT_STATUS]), State.fld_setPm,
    State.fld_raise_self _ _ (by simp [Fld.LF_INT_STATUS_SYNC_CHG]) (by simp [Fld.LF_INT_STATUS_SYNC_CHG])]

theorem State.trk_syncEnd : ((s.syncEnd p).crfRx p).trk = [] := by
  rw [State.syncEnd, State.crfRx_lfShow, State.crfRx_setPm, State.crfRx_raise, State.crfRx_setRx]
  rfl

@[simp] theorem State.port_syncEnd (q : Nat) : (s.syncEnd p).port q = s.port q := by
  rw [State.syncEnd, State.port_lfShow, State.port_setPm, State.port_raise, State.port_setRx, State.port_setF]

/-- A receiver that leaves SYNC shows it, hunts without tracker, and has neither multiframe lock nor delineation. -/
theorem State.syncLeave_shows (h : s.isSync p = true) : s.leaves (s.syncLeave p) (leaveTouch p) ∧ (s.syncLeave p).isSync p = false ∧
    (s.syncLeave p).fld (Fld.LF_INT_STATUS_SYNC_CHG p) = 1 ∧ ((s.syncLeave p).crfRx p).trk = [] ∧ (s.syncLeave p).fld (Fld.LF_STATUS_MF_LOCK p) = 0 ∧
    (s.syncLeave p).fld (Fld.LF_STATUS_DELIN p) = 0 ∧ ((s.syncLeave p).port p).modeDue = (s.port p).modeDue := by
  have broken : ((s.slotBreak p).port p).modeDue = (s.port p).modeDue := by
    unfold State.slotBreak State.slotReject
    dsimp only
    split_ifs <;> rfl
  obtain ⟨lost, delin, due⟩ := State.delinLost_ends (s.slotBreak p) p
  obtain ⟨unlocked, lock, delin', due'⟩ := State.setLock_ends ((s.slotBreak p).delinLost p) p
  generalize hu : ((s.slotBreak p).delinLost p).setLock p false = u at unlocked lock delin' due'
  rw [State.syncLeave_eq s p h, hu]
  refine ⟨State.leaves_trans (State.leaves_slotBreak s p) (State.leaves_trans lost (State.leaves_trans unlocked (State.leaves_syncEnd u p))),
    State.isSync_syncEnd u p, State.syncChg_syncEnd u p, State.trk_syncEnd u p, ?_, ?_, by rw [State.port_syncEnd, due', due, broken]⟩
  · rw [State.fld_syncEnd u p rfl (by simp [Fld.apart, Fld.LF_STATUS_FA_STATE, Fld.LF_STATUS_MF_LOCK])
      (by simp [Fld.apart, Fld.LF_STATUS_CANDS_ACTIVE, Fld.LF_STATUS_MF_LOCK]), lock]
  · rw [State.fld_syncEnd u p rfl (by simp [Fld.apart, Fld.LF_STATUS_FA_STATE, Fld.LF_STATUS_DELIN])
      (by simp [Fld.apart, Fld.LF_STATUS_CANDS_ACTIVE, Fld.LF_STATUS_DELIN]), delin', delin]

end

/-! #### In SYNC, at the position of the FAS -/

section
variable (s : State) (p : Nat)

/-- The FAS of a frame has been taken, with the run of errored ones before it. -/
def State.fasTaken (s : State) (p run : Nat) : State :=
  let s1 := s.blockPassed p
  s1.setRx p { s1.crfRx p with run := run, fasTime := s1.rxStamp p (s1.lineTime p 8) }

theorem State.leaves_fasTaken (run : Nat) (x : Touch) (h : .crfs ∈ x.parts) : s.leaves (s.fasTaken p run) x :=
  State.leaves_trans (State.leaves_blockPassed s p x h) (State.leaves_setRx _ p _ x h)

@[simp] theorem State.isSync_fasTaken (run : Nat) : (s.fasTaken p run).isSync p = s.isSync p := rfl
@[simp] theorem State.ctr_fasTaken (run a : Nat) : (s.fasTaken p run).ctr a = s.ctr a := rfl
@[simp] theorem State.port_fasTaken (run q : Nat) : (s.fasTaken p run).port q = s.port q := rfl
@[simp] theorem State.run_fasTaken (run : Nat) : ((s.fasTaken p run).crfRx p).run = run := by simp [State.fasTaken]

theorem blk_at_pos {blk pos : Nat} (h : blk = pos) : (blk + 1024 - pos) % 1024 = 0 := by simp [h]

/-- A FAS within TOL ends the run and starts its frame. -/
theorem State.blockSync_good {b : List Byte} (hk : (s.crfRx p).blk = (s.crfRx p).pos) (ht : fasErrors b ≤ s.lfTol p) :
    s.blockSync p b = ((s.fasTaken p 0).count (Ctr.port p 0x310) (fasErrors b)).frameStart p true := by
  simp only [State.blockSync, blk_at_pos hk, if_true, if_pos ht]
  rfl

/-- The M-th errored one in a row leaves SYNC. -/
theorem State.blockSync_last {b : List Byte} (hk : (s.crfRx p).blk = (s.crfRx p).pos) (ht : s.lfTol p < fasErrors b)
    (hM : s.lfM p ≤ (s.crfRx p).run + 1) :
    s.blockSync p b = ((s.fasTaken p ((s.crfRx p).run + 1)).count (Ctr.port p 0x318) 1).syncLeave p := by
  have run : (s.crfRx p).run = ((s.blockPassed p).crfRx p).run := by simp
  rw [run] at hM ⊢
  simp only [State.blockSync, blk_at_pos hk, if_true, if_neg (Nat.not_le.2 ht)]
  exact if_pos hM

end

/-! #### A block of the line -/

theorem State.twinInbox_nil {s : State} (h : s.tw.inbox = []) : s.twinInbox = s := if_pos h
theorem State.modeNext_none {s : State} {p : Nat} (h : (s.port p).modeDue = none) : s.modeNext p = s := by simp [State.modeNext, h]

/-- The answer to a block that the line brings and no loopback takes away, where it completes nothing for the twin and no mode waits. -/
theorem crfBlockRx_heard {s g : State} {dt p : Nat} {b : List Byte} {x : Touch} (hp : p < 144) (hb : b.length = 8) (hm : s.mainUp = true)
    (h0 : s.fld (Fld.PT_CTRL_LOOPBACK p) = 0) (hi : s.tw.inbox = []) (hg : (s.begun dt).crfBlock p b = g) (h : (s.begun dt).leaves g x)
    (ht : Part.tw ∉ x.parts) (hd : (g.port p).modeDue = none) :
    exec (.crfBlockRx dt p b) s = .next (g.settle s (s.begun dt).time) ∧ (s.begun dt).frame (g.settle s (s.begun dt).time) x := by
  have inbox : g.tw.inbox = [] := by
    have tw : g.tw = (s.begun dt).tw := h.part ht
    rw [tw, State.begun_tw, hi]
  refine exec_main_touches (c := .crfBlockRx dt p b) rfl (by simp [Instr.wellFormed, hp, hb]) hm ?_ h
  rw [State.fromLine_heard _ _ _ _ (by simp [h0]) (by simp [h0]), State.blockHeard, hg, State.twinInbox_nil inbox, State.modeNext_none hd]

section
variable {s : State} {dt p : Nat}

/-- A receiver with signal and lock out of SYNC hunts; in SYNC it takes the block at its position. -/
theorem State.crfBlock_begun (hr : s.crfRuns p = true) (hs : s.bit (Fld.PT_STATUS_SIGNAL p) = true) (hl : s.bit (Fld.PT_STATUS_BLOCK_LOCK p) = true)
    (b : List Byte) : (s.begun dt).crfBlock p b = if s.isSync p then (s.begun dt).blockSync p b else (s.begun dt).blockHunt p b := by
  rw [State.crfBlock, if_pos (by simp [hr, hs, hl]), State.isSync_begun]

section
variable (hp : p < 128) (hm : s.mainUp = true) (hr : s.crfRuns p = true) (hs : s.bit (Fld.PT_STATUS_SIGNAL p) = true)
  (hl : s.bit (Fld.PT_STATUS_BLOCK_LOCK p) = true) (h0 : s.fld (Fld.PT_CTRL_LOOPBACK p) = 0) (hd : (s.port p).modeDue = none) (hi : s.tw.inbox = [])
include hp hm hr hs hl h0 hd hi

theorem crfBlockRx_first (hy : s.isSync p = false) (hn : ∀ e, e ∈ (s.crfRx p).trk → e.1 ≠ (s.crfRx p).blk) (hc : (s.crfRx p).trk.length < s.lfCands p) :
    ∃ t, exec (.crfBlockRx dt p fasBytes) s = .next t ∧ (t.crfRx p).trk = (s.crfRx p).trk ++ [((s.crfRx p).blk, 1)] ∧
      (t.crfRx p).blk = ((s.crfRx p).blk + 1) % 1024 ∧ t.isSync p = false ∧ (s.begun dt).frame t { parts := [.crfs], regs := (· = Reg.LF_STATUS p) } := by
  have act := State.crfBlock_begun (dt := dt) hr hs hl fasBytes
  rw [hy, if_neg (by decide), State.blockHunt_first _ p (by simpa using hn) (by simpa using hc)] at act
  obtain ⟨next, frame⟩ := crfBlockRx_heard (x := { parts := [.crfs], regs := (· = Reg.LF_STATUS p) }) (hp.trans (by decide)) (by decide) hm h0 hi act
    (State.leaves_trans (State.leaves_trackers _ p _ _ (by simp)) (State.leaves_lfShow _ p _ rfl)) (by simp) (by simpa [State.trackers, State.blockPassed] using hd)
  exact ⟨_, next, by simp, by simp, by simp [hy], frame⟩

theorem crfBlockRx_enter {c : Nat} (hy : s.isSync p = false)
    (hf : (s.crfRx p).trk.find? (fun e => decide (e.1 = (s.crfRx p).blk)) = some ((s.crfRx p).blk, c)) (hn : s.lfN p ≤ c + 1) :
    ∃ t, exec (.crfBlockRx dt p fasBytes) s = .next t ∧ t.isSync p = true ∧ t.fld (Fld.LF_INT_STATUS_SYNC_CHG p) = 1 ∧ (t.crfRx p).pos = (s.crfRx p).blk ∧
      (s.begun dt).frame t { parts := [.crfs, .pms], regs := (· ∈ [Reg.LF_STATUS p, Reg.LF_INT_STATUS p]), ctrs := (· = Ctr.port p 0x308) } := by
  have act := State.crfBlock_begun (dt := dt) hr hs hl fasBytes
  rw [hy, if_neg (by decide), State.blockHunt_enter (c := c) _ p (by simpa using hf) (by simpa using hn)] at act
  generalize hu : ((s.begun dt).blockPassed p).syncEnter p ((s.begun dt).crfRx p).blk = u at act
  have entered : (s.begun dt).leaves u (syncTouch p) := hu ▸ State.leaves_trans (State.leaves_blockPassed _ p _ (by simp [syncTouch])) (State.leaves_syncEnter _ p _)
  obtain ⟨sync, event, pos⟩ := State.syncEnter_shows ((s.begun dt).blockPassed p) p ((s.begun dt).crfRx p).blk
  rw [hu] at sync event pos
  have left := State.leaves_trans entered (State.leaves_trans (State.leaves_frameStart u p false _ (by simp [syncTouch]) (by simp [syncTouch]))
    (State.leaves_lfShow _ p _ (by simp [syncTouch])))
  have due : ((((u.frameStart p false).lfShow p)).port p).modeDue = none := by rw [left.port (by simp [syncTouch]), State.port_begun, hd]
  obtain ⟨next, frame⟩ := crfBlockRx_heard (hp.trans (by decide)) (by decide) hm h0 hi act left (by simp [syncTouch]) due
  refine ⟨_, next, by rw [State.isSync_settle, State.isSync_lfShow, State.isSync_frameStart, sync], ?_, ?_, frame⟩
  · rw [State.fld_settle, State.fld_lfShow _ p (by simp [Fld.apart, Fld.LF_STATUS_FA_STATE, Fld.LF_INT_STATUS_SYNC_CHG, Reg.LF_STATUS, Reg.LF_INT_STATUS])
      (by simp [Fld.apart, Fld.LF_STATUS_CANDS_ACTIVE, Fld.LF_INT_STATUS_SYNC_CHG, Reg.LF_STATUS, Reg.LF_INT_STATUS]), State.fld_frameStart, event]
  · rw [State.crfRx_settle, State.crfRx_lfShow, State.crfRx_frameStart, pos, State.crfRx_begun]

theorem crfBlockRx_miss {c : Nat} {b : List Byte} (hy : s.isSync p = false)
    (hf : (s.crfRx p).trk.find? (fun e => decide (e.1 = (s.crfRx p).blk)) = some ((s.crfRx p).blk, c)) (hb : b.length = 8) (hne : b ≠ fasBytes) :
    ∃ t, exec (.crfBlockRx dt p b) s = .next t ∧ (∀ e, e ∈ (t.crfRx p).trk → e.1 ≠ (s.crfRx p).blk) ∧ t.isSync p = false ∧
      t.ctr (Ctr.port p 0x320) = (s.ctr (Ctr.port p 0x320) + 1) % 2 ^ 64 ∧
      (s.begun dt).frame t { parts := [.crfs], regs := (· = Reg.LF_STATUS p), ctrs := (· = Ctr.port p 0x320) } := by
  have act := State.crfBlock_begun (dt := dt) hr hs hl b
  rw [hy, if_neg (by decide), State.blockHunt_miss (c := c) _ p (by simpa using hf) hne] at act
  obtain ⟨next, frame⟩ := crfBlockRx_heard (x := { parts := [.crfs], regs := (· = Reg.LF_STATUS p), ctrs := (· = Ctr.port p 0x320) })
    (hp.trans (by decide)) hb hm h0 hi act
    (State.leaves_trans (State.leaves_trackers _ p _ _ (by simp)) (State.leaves_trans (State.leaves_count _ _ _ _ rfl) (State.leaves_lfShow _ p _ rfl))) (by simp)
    (by simpa [State.trackers, State.blockPassed] using hd)
  refine ⟨_, next, by simp, by simp [hy], ?_, frame⟩
  rw [State.ctr_settle_port _ _ _ (hp.trans (by decide)) (by decide), State.ctr_lfShow, State.ctr_count_self]
  simp [State.trackers, State.blockPassed]

theorem crfBlockRx_good {b : List Byte} (hb : b.length = 8) (hy : s.isSync p = true) (hk : (s.crfRx p).blk = (s.crfRx p).pos) (ht : fasErrors b ≤ s.lfTol p) :
    ∃ t, exec (.crfBlockRx dt p b) s = .next t ∧ t.isSync p = true ∧ (t.crfRx p).run = 0 ∧
      t.ctr (Ctr.port p 0x310) = (s.ctr (Ctr.port p 0x310) + fasErrors b) % 2 ^ 64 ∧
      (s.begun dt).frame t { parts := [.crfs], ctrs := (· ∈ [Ctr.port p 0x308, Ctr.port p 0x310]) } := by
  have act := State.crfBlock_begun (dt := dt) hr hs hl b
  rw [hy, if_pos rfl, State.blockSync_good _ p (by simpa using hk) (by simpa using ht)] at act
  obtain ⟨next, frame⟩ := crfBlockRx_heard (x := { parts := [.crfs], ctrs := (· ∈ [Ctr.port p 0x308, Ctr.port p 0x310]) })
    (hp.trans (by decide)) hb hm h0 hi act
    (State.leaves_trans (State.leaves_fasTaken _ p _ _ (by simp)) (State.leaves_trans (State.leaves_count _ _ _ _ (by simp))
      (State.leaves_frameStart _ p _ _ (by simp) (by simp)))) (by simp) (by simpa [State.frameStart] using hd)
  refine ⟨_, next, by simp [hy], by simp, ?_, frame⟩
  rw [State.ctr_settle_port _ _ _ (hp.trans (by decide)) (by decide), State.frameStart, State.ctr_count_ne _ _ _ _ (by simp), State.ctr_setRx,
    State.ctr_count_self, State.ctr_fasTaken, State.ctr_begun]

theorem crfBlockRx_last {b : List Byte} (hb : b.length = 8) (hy : s.isSync p = true) (hk : (s.crfRx p).blk = (s.crfRx p).pos)
    (ht : s.lfTol p < fasErrors b) (hM : s.lfM p ≤ (s.crfRx p).run + 1) :
    ∃ t, exec (.crfBlockRx dt p b) s = .next t ∧ t.isSync p = false ∧ t.fld (Fld.LF_INT_STATUS_SYNC_CHG p) = 1 ∧ (t.crfRx p).trk = [] ∧
      t.fld (Fld.LF_STATUS_MF_LOCK p) = 0 ∧ t.fld (Fld.LF_STATUS_DELIN p) = 0 ∧ t.ctr (Ctr.port p 0x318) = (s.ctr (Ctr.port p 0x318) + 1) % 2 ^ 64 := by
  have act := State.crfBlock_begun (dt := dt) hr hs hl b
  rw [hy, if_pos rfl, State.blockSync_last _ p (by simpa using hk) (by simpa using ht) (by simpa using hM)] at act
  generalize hu : ((s.begun dt).fasTaken p (((s.begun dt).crfRx p).run + 1)).count (Ctr.port p 0x318) 1 = u at act
  obtain ⟨left, sync, event, trk, lock, delin, due⟩ := State.syncLeave_shows u p (by simp [← hu, hy])
  have counted : u.ctr (Ctr.port p 0x318) = (s.ctr (Ctr.port p 0x318) + 1) % 2 ^ 64 := by
    rw [← hu, State.ctr_count_self, State.ctr_fasTaken, State.ctr_begun]
  have taken : (s.begun dt).leaves u { leaveTouch p with ctrs := fun a => (leaveTouch p).ctrs a ∨ a = Ctr.port p 0x318 } :=
    hu ▸ State.leaves_trans (State.leaves_fasTaken _ p _ _ (by simp [leaveTouch])) (State.leaves_count _ _ _ _ (.inr rfl))
  obtain ⟨next, -⟩ := crfBlockRx_heard (hp.trans (by decide)) hb hm h0 hi act
    (State.leaves_trans taken (left.mono (fun _ => id) (fun _ => id) (fun _ => .inl) (fun _ => id) (fun _ => id))) (by simp [leaveTouch])
    (by rw [due]; simpa [← hu] using hd)
  refine ⟨_, next, by simp [sync], by simp [event], by simp [trk], by simp [lock], by simp [delin], ?_⟩
  rw [State.ctr_settle_port _ _ _ (hp.trans (by decide)) (by decide), left.ctr (hp.trans (by decide)) (by decide) ?_, counted]
  have twin : Ctr.port p 0x318 ≠ Ctr.tw 0x50 := by simp only [Ctr.port, Ctr.tw]; omega
  simp [leaveTouch, twin]

end

/-- Without signal or lock, or off CRF, the receiver does nothing; the far-end loopback sends the block back. -/
theorem crfBlockRx_deaf {b : List Byte} (hp : p < 144) (hb : b.length = 8) (hm : s.mainUp = true) (hd : (s.port p).modeDue = none) (hi : s.tw.inbox = [])
    (hn : s.crfRuns p = false ∨ s.fld (Fld.PT_STATUS_SIGNAL p) = 0 ∨ s.fld (Fld.PT_STATUS_BLOCK_LOCK p) = 0) :
    ∃ t, exec (.crfBlockRx dt p b) s = .next t ∧ (s.fld (Fld.PT_CTRL_LOOPBACK p) ≠ 2 → (s.begun dt).frame t {}) ∧
      (s.fld (Fld.PT_CTRL_LOOPBACK p) = 2 → t.out.filter (fun e => !e.isMsix) = .echoed p b :: s.out.filter (fun e => !e.isMsix) ∧
        (s.begun dt).frame t { parts := [.out] }) := by
  have deaf (u : State) (hr : u.crfRuns p = s.crfRuns p) (hf : ∀ f, u.fld f = s.fld f) (hq : u.tw.inbox = []) (hn' : (u.port p).modeDue = none) :
      (u.blockHeard p b).modeNext p = u := by
    have still : u.crfBlock p b = u := by
      refine if_neg ?_
      rintro ⟨runs, signal, lock⟩
      rw [State.bit, hf, decide_eq_true_eq] at signal lock
      rw [hr] at runs
      rcases hn with h | h | h
      · simp [h] at runs
      · omega
      · omega
    rw [State.blockHeard, still, State.twinInbox_nil hq, State.modeNext_none hn']
  have ok : (Instr.crfBlockRx dt p b).wellFormed = true := by simp [Instr.wellFormed, hp, hb]
  have begun := deaf (s.begun dt) (by simp) (by simp) (by simpa using hi) (by simpa using hd)
  by_cases far : s.fld (Fld.PT_CTRL_LOOPBACK p) = 2
  · have act : (s.begun dt).fromLine p b (fun u => (u.blockHeard p b).modeNext p) = (s.begun dt).emit (.echoed p b) := by
      rw [State.fromLine, if_neg (by simp [far]), State.echo, if_pos (by simpa using far)]
      exact deaf _ (State.crfRuns_begun s dt p) (State.fld_begun s dt) (by simpa using hi) (by rw [← hd, ← State.port_begun s dt p]; rfl)
    obtain ⟨next, frame⟩ := exec_main_touches (c := .crfBlockRx dt p b) (x := { parts := [.out] }) rfl ok hm act (State.leaves_emit _ _ _ (by simp))
    exact ⟨_, next, fun h => absurd far h, fun _ => ⟨by rw [State.settle_out]; simp [State.emit, OutEv.isMsix], frame⟩⟩
  · have echo : (s.begun dt).echo p b = s.begun dt := if_neg (by simpa using far)
    have act : (s.begun dt).fromLine p b (fun u => (u.blockHeard p b).modeNext p) = s.begun dt := by
      rw [State.fromLine, echo, begun, ite_self]
    obtain ⟨next, frame⟩ := exec_main_touches (c := .crfBlockRx dt p b) (x := {}) rfl ok hm act (State.leaves_refl _ _)
    exact ⟨_, next, fun _ => frame, fun h => absurd h far⟩

/-- In the near-end loopback nothing on the line is heard. -/
theorem crfBlockRx_near {b : List Byte} (hp : p < 144) (hb : b.length = 8) (hm : s.mainUp = true) (h1 : s.fld (Fld.PT_CTRL_LOOPBACK p) = 1) :
    ∃ t, exec (.crfBlockRx dt p b) s = .next t ∧ (s.begun dt).frame t {} :=
  ⟨_, exec_main_touches (c := .crfBlockRx dt p b) rfl (by simp [Instr.wellFormed, hp, hb]) hm (if_pos (by simpa using h1)) (State.leaves_refl _ _)⟩

end

/-- Settles O20: the receiver's moves out of and in SYNC by the equations of `State.blockHunt` and `State.blockSync`, and what each leaves. -/
theorem crfAlignment : Obligations.CrfAlignment :=
  ⟨fun _ _ _ hp hm hr hs hl h0 hd hi hy =>
      ⟨crfBlockRx_first hp hm hr hs hl h0 hd hi hy, fun _ => crfBlockRx_enter hp hm hr hs hl h0 hd hi hy,
        fun _ _ => crfBlockRx_miss hp hm hr hs hl h0 hd hi hy⟩,
    fun _ _ _ _ hp hb hm hr hs hl h0 hd hi hy hk =>
      ⟨crfBlockRx_good hp hm hr hs hl h0 hd hi hb hy hk, crfBlockRx_last hp hm hr hs hl h0 hd hi hb hy hk⟩,
    fun _ _ _ _ hp hb hm hd hi hn => crfBlockRx_deaf hp hb hm hd hi hn, fun _ _ _ _ hp hb hm h1 => crfBlockRx_near hp hb hm h1⟩

end Sys2Proof.Machine
end

/-! ### Commands of the always-on island -/

section
namespace Sys2Proof.Machine

/-- The answer of a command of the always-on island, whose operation has made `g` of the begun state and is known to touch `x` alone. -/
theorem exec_aon_touches {s g : State} {c : Instr} {dt : Nat} {f : State → State} {x : Touch} (he : exec c s = s.cmdAon c.wellFormed dt f)
    (hw : c.wellFormed = true) (ha : s.aonUp = true) (hf : f (s.begun dt) = g) (h : (s.begun dt).leaves g x) :
    exec c s = .next (g.settle s (s.begun dt).time) ∧ (s.begun dt).frame (g.settle s (s.begun dt).time) x := by
  have quiet : g.timeReq = ⟨none, none⟩ := h.2.trans (State.begun_timeReq s dt)
  subst hf
  exact ⟨by rw [he, hw, State.cmdAon_next s dt f ha (by rw [quiet])], State.leaves_settle _ _ s x h (State.begun_timeReq s dt)⟩

/-- A command whose operation changes nothing changes nothing, whether the island runs or not. -/
theorem exec_aon_still {s : State} {c : Instr} {dt : Nat} {f : State → State} (he : exec c s = s.cmdAon c.wellFormed dt f)
    (hw : c.wellFormed = true) (hf : f (s.begun dt) = s.begun dt) : ∃ t, exec c s = .next t ∧ (s.begun dt).frame t {} := by
  have kept := State.leaves_settle (s.begun dt) _ s {} (State.leaves_refl _ _) (State.begun_timeReq s dt)
  by_cases up : s.aonUp = true
  · exact ⟨_, exec_aon_touches he hw up hf (State.leaves_refl _ _)⟩
  · refine ⟨_, ?_, kept⟩
    rw [he, hw, State.cmdAon, State.cmd_next, State.run, State.onAon_down _ _ (by simpa using up)]

theorem State.aonUp_of_mainUp {s : State} (h : s.mainUp = true) : s.aonUp = true := by
  simp only [State.mainUp, Bool.and_eq_true] at h
  exact h.1.1

/-- Two fields whose numbers show that they share no bit. -/
theorem Fld.apart_of_decide {f g : Fld} (h : decide (g.addr ≠ f.addr ∨ g.lo + g.len ≤ f.lo ∨ f.lo + f.len ≤ g.lo) = true) : f.apart g := by
  simpa [Fld.apart] using h

end Sys2Proof.Machine
end

/-! ### The lease's state and what a step of it leaves (R348) -/

section
namespace Sys2Proof.Machine

@[simp] theorem State.twinOn_begun (s : State) (dt : Nat) : (s.begun dt).twinOn = s.twinOn := by simp [State.twinOn]
@[simp] theorem State.lease_begun (s : State) (dt : Nat) : (s.begun dt).lease = s.lease := by simp [State.lease]
@[simp] theorem State.lease_settle (s s0 : State) (t : Time) : (s.settle s0 t).lease = s.lease := by simp [State.lease]
@[simp] theorem State.epochValid_begun (s : State) (dt : Nat) : (s.begun dt).epochValid = s.epochValid := by simp [State.epochValid]
@[simp] theorem State.peerDead_begun (s : State) (dt : Nat) : (s.begun dt).peerDead = s.peerDead := by simp [State.peerDead]
@[simp] theorem State.twinPort_begun (s : State) (dt p : Nat) : (s.begun dt).twinPort p = s.twinPort p := by simp [State.twinPort]
@[simp] theorem State.mfLock_begun (s : State) (dt p : Nat) : (s.begun dt).mfLock p = s.mfLock p := by simp [State.mfLock]
@[simp] theorem State.pathLossTime_begun (s : State) (dt : Nat) : (s.begun dt).pathLossTime = s.pathLossTime := by simp [State.pathLossTime]
@[simp] theorem State.hears_begun (s : State) (dt : Nat) (path : Path) : (s.begun dt).hears path = s.hears path := by
  cases path <;> simp [State.hears]
@[simp] theorem State.twinTest_begun (s : State) (dt : Nat) (bs : List Byte) (len pair unit unitBit : Nat) :
    (s.begun dt).twinTest bs len pair unit unitBit = s.twinTest bs len pair unit unitBit := by
  rw [State.twinTest, State.twinTest, State.unit1, State.unit1, State.fld_begun, State.bit_begun]

@[simp] theorem State.fld_withTw (s : State) (y : Twin) (f : Fld) : ({ s with tw := y } : State).fld f = s.fld f := rfl
@[simp] theorem State.now_withTw (s : State) (y : Twin) : ({ s with tw := y } : State).now = s.now := rfl
@[simp] theorem State.ctr_withTw (s : State) (y : Twin) (a : Nat) : ({ s with tw := y } : State).ctr a = s.ctr a := rfl
@[simp] theorem State.tw_setF (s : State) (f : Fld) (v : Nat) : (s.setF f v).tw = s.tw := rfl
@[simp] theorem State.tw_raise (s : State) (f : Fld) : (s.raise f).tw = s.tw := rfl
@[simp] theorem State.tw_count (s : State) (a n : Nat) : (s.count a n).tw = s.tw := rfl

theorem State.leaves_tw (s : State) (y : Twin) (x : Touch) (h : .tw ∈ x.parts) : s.leaves { s with tw := y } x :=
  State.leaves_part s _ .tw x h (fun j hj => by cases j <;> simp_all [Part.same]) rfl rfl rfl rfl rfl
theorem State.leaves.tw {s t : State} {x : Touch} (h : s.leaves t x) (hx : .tw ∉ x.parts) : t.tw = s.tw := h.part hx
theorem State.leaves.now {s t : State} {x : Touch} (h : s.leaves t x) (hx : .time ∉ x.parts) : t.now = s.now := by
  have time : t.time = s.time := h.part hx
  simp [State.now, time]
/-- A counter that is none of those touched, nor that of the messages. -/
theorem State.leaves.ctrOf {s t : State} {x : Touch} (h : s.leaves t x) {a : Nat} (ha : a ≠ Ctr.hi 0x20) (hx : ¬ x.ctrs a) : t.ctr a = s.ctr a :=
  h.1.2.2.1 a ha hx

section
variable (s : State) (st held : Nat) (solo : Bool)

theorem State.leaves_leaseTo (x : Touch) (hs : x.regs Reg.TW_STATUS) (hh : x.regs Reg.TW_EPOCH_HELD) : s.leaves (s.leaseTo st held solo) x :=
  State.leaves_trans (State.leaves_setF s _ _ x hs) (State.leaves_trans (State.leaves_setF _ _ _ x hh)
    (State.leaves_trans (State.leaves_setF _ _ _ x hs) (State.leaves_setF _ _ _ x hs)))

@[simp] theorem State.tw_leaseTo : (s.leaseTo st held solo).tw = s.tw := by
  rw [State.leaseTo, State.tw_setF, State.tw_setF, State.tw_setF, State.tw_setF]

/-- A field that the lease does not show keeps its value. -/
theorem State.fld_leaseTo {f : Fld} (hs : Fld.TW_STATUS_LEASE_STATE.apart f) (hh : Fld.TW_EPOCH_HELD_EPOCH.apart f) (hd : Fld.TW_STATUS_DUTY.apart f)
    (ho : Fld.TW_STATUS_SOLO.apart f) : (s.leaseTo st held solo).fld f = s.fld f := by
  rw [State.leaseTo, State.fld_setF_of_apart _ _ (by decide) ho, State.fld_setF_of_apart _ _ (by decide) hd, State.fld_setF_of_apart _ _ (by decide) hh,
    State.fld_setF_of_apart _ _ (by decide) hs]

theorem State.lease_leaseTo (h : st < 8) : (s.leaseTo st held solo).lease = st := by
  rw [State.lease, State.leaseTo, State.fld_setF_of_apart _ _ (by decide) (Fld.apart_of_decide rfl), State.fld_setF_of_apart _ _ (by decide) (Fld.apart_of_decide rfl),
    State.fld_setF_of_apart _ _ (by decide) (Fld.apart_of_decide rfl), State.fld_setF_self _ _ _ (by decide)]
  exact Nat.mod_eq_of_lt h

theorem State.duty_leaseTo (h : st ≠ lsHolder) : (s.leaseTo st held solo).bit Fld.TW_STATUS_DUTY = false := by
  rw [State.bit, State.leaseTo, State.fld_setF_of_apart _ _ (by decide) (Fld.apart_of_decide rfl), State.fld_setF_self _ _ _ (by decide)]
  simp [h, b2n]

end

section
variable (s : State) (ty : Nat) (f : State → State)

/-- Beyond its change of the state, a step of the lease raises its event and is journalled. -/
def recordTouch : Touch := { parts := [.jn], regs := (· ∈ [Reg.TW_INT_STATUS, Reg.CM_INT_STATUS]) }

theorem State.leaseDo_records : (f s).leaves (s.leaseDo ty f) recordTouch := by
  have told : (f s).leaves (if (f s).fld Fld.TW_STATUS_DUTY = s.fld Fld.TW_STATUS_DUTY then f s else (f s).raise Fld.TW_INT_STATUS_DUTY_CHG) recordTouch :=
    State.leaves_ite _ (fun _ => State.leaves_refl _ _) (fun _ => State.leaves_raise _ _ _ (by simp [recordTouch, Fld.TW_INT_STATUS_DUTY_CHG]))
  have journal (t : State) (a b c : Nat) (l : List Nat) : t.leaves (t.journal a b c l) recordTouch :=
    State.leaves_journal t a b c l _ (by simp [recordTouch]) (by simp [recordTouch])
  exact State.leaves_ite _ (fun _ => State.leaves_trans told (journal _ _ _ _ _))
    (fun _ => State.leaves_ite _ (fun _ => State.leaves_trans told (journal _ _ _ _ _)) (fun _ => told))

theorem State.leaves_leaseDo (x : Touch) (h : s.leaves (f s) x) (hj : .jn ∈ x.parts) (hi : x.regs Reg.TW_INT_STATUS) (hc : x.regs Reg.CM_INT_STATUS) :
    s.leaves (s.leaseDo ty f) x :=
  State.leaves_trans h ((State.leaseDo_records s ty f).mono (by simpa [recordTouch] using hj) (by simp [recordTouch, hi, hc]) (fun _ => False.elim)
    (by simp [recordTouch]) (by simp [recordTouch]))

/-- A field of another register than that of the events is what the change has made of it. -/
theorem State.fld_leaseDo {g : Fld} (hi : g.addr ≠ Reg.TW_INT_STATUS) (hc : g.addr ≠ Reg.CM_INT_STATUS) : (s.leaseDo ty f).fld g = (f s).fld g :=
  (State.leaseDo_records s ty f).fld (by simp [recordTouch, hi, hc])
theorem State.lease_leaseDo : (s.leaseDo ty f).lease = (f s).lease := State.fld_leaseDo s ty f (by decide) (by decide)
theorem State.tw_leaseDo : (s.leaseDo ty f).tw = (f s).tw := (State.leaseDo_records s ty f).tw (by simp [recordTouch])

end

/-! #### Enabling and disabling -/

theorem State.duty_eq_false {s : State} (h : s.bit Fld.TW_STATUS_DUTY = false) : s.duty = false := by rw [State.duty, h, Bool.false_and]

section
variable (s : State)

/-- A lapse records the end of the lease where it has run out. -/
theorem State.leaves_lapse (x : Touch) (hj : .jn ∈ x.parts) (hs : x.regs Reg.TW_STATUS) (hh : x.regs Reg.TW_EPOCH_HELD) (hi : x.regs Reg.TW_INT_STATUS)
    (hm : x.regs Reg.CM_INT_STATUS) (hc : x.ctrs (Ctr.tw 0x60)) : s.leaves s.lapse x :=
  State.leaves_ite _ (fun _ => State.leaves_leaseDo s _ _ x (State.leaves_trans (State.leaves_leaseTo s _ _ _ x hs hh)
    (State.leaves_trans (State.leaves_count _ _ _ x hc) (State.leaves_raise _ _ x hi))) hj hi hm) (fun _ => State.leaves_refl s x)

/-- A lease that is not held, or whose time has not come, does not lapse. -/
theorem State.lapse_of_live {s : State} (h : s.lease ≠ lsHolder ∨ s.now < s.tw.expiry) : s.lapse = s :=
  if_neg (fun ⟨holder, late⟩ => h.elim (fun n => n holder) (fun n => absurd late (Nat.not_le.2 n)))

/-- What the switch of the twin touches. -/
def switchTouch : Touch :=
  { parts := [.tw, .jn], ctrs := (· = Ctr.tw 0x60),
    regs := (· ∈ [Reg.TW_CFG, Reg.TW_STATUS, Reg.TW_EPOCH_HELD, Reg.TW_INT_STATUS, Reg.CM_INT_STATUS]) }

theorem State.leaves_releaseNow (st : Nat) : s.leaves (s.releaseNow st) switchTouch := by
  have lapsed : s.leaves s.lapse switchTouch := State.leaves_lapse s _ (by simp [switchTouch]) (by simp [switchTouch]) (by simp [switchTouch])
    (by simp [switchTouch]) (by simp [switchTouch]) rfl
  exact State.leaves_ite _ (fun _ => State.leaves_trans lapsed (State.leaves_leaseDo _ _ _ _
    (State.leaves_trans (State.leaves_tw _ _ _ (by simp [switchTouch])) (State.leaves_leaseTo _ _ _ _ _ (by simp [switchTouch]) (by simp [switchTouch])))
    (by simp [switchTouch]) (by simp [switchTouch]) (by simp [switchTouch]))) (fun _ => lapsed)

/-- The twin's clock of the peer starts with its enable. -/
def State.twinStart (s : State) : State :=
  let s1 := s.setF Fld.TW_CFG_EN 1
  { s1 with tw := { s1.tw with onAt := s1.now } }

theorem State.fld_twinStart (f : Fld) : s.twinStart.fld f = (s.setF Fld.TW_CFG_EN 1).fld f := State.fld_withTw _ _ f
theorem State.onAt_twinStart : s.twinStart.tw.onAt = s.now := State.now_setF s _ _

theorem State.twinEnable_eq {s : State} (h : s.twinOn = false) :
    s.twinEnable = s.twinStart.leaseDo 0 (fun u => u.leaseTo (if u.epochValid then lsStandby else lsLearn) 0 false) :=
  if_neg (by rw [h]; decide)
theorem State.twinDisable_eq {s : State} (h : s.twinOn = true) :
    s.twinDisable = ((s.releaseNow lsDisabled).leaseDo 0 (fun u => u.leaseTo lsDisabled 0 false)).setF Fld.TW_CFG_EN 0 := if_pos h

end

theorem twinEnable_stands {s : State} {dt : Nat} (ha : s.aonUp = true) (h0 : s.fld Fld.TW_CFG_EN = 0) :
    ∃ t, exec (.twinEnable dt) s = .next t ∧ t.fld Fld.TW_CFG_EN = 1 ∧ t.lease = (if s.epochValid = true then lsStandby else lsLearn) ∧ t.duty = false ∧
      t.tw.onAt = s.now + dt ∧
      (s.begun dt).frame t { parts := [.tw, .jn], regs := (· ∈ [Reg.TW_CFG, Reg.TW_STATUS, Reg.TW_EPOCH_HELD, Reg.TW_INT_STATUS, Reg.CM_INT_STATUS]) } := by
  have off : (s.begun dt).twinOn = false := by simp [State.twinOn, State.bit, h0]
  have act := State.twinEnable_eq off
  generalize hu : (s.begun dt).twinStart = u at act
  have started (f : Fld) (h : f.addr ≠ Reg.TW_CFG) : u.fld f = s.fld f := by
    rw [← hu, State.fld_twinStart, State.fld_setF_ne _ _ _ _ h, State.fld_begun]
  have valid : u.epochValid = s.epochValid := State.bit_eq_of_fld (started _ (by decide))
  have enabled : u.fld Fld.TW_CFG_EN = 1 := by
    rw [← hu, State.fld_twinStart, State.fld_setF_self _ _ _ (by decide)]
    rfl
  have since : u.tw.onAt = s.now + dt := by rw [← hu, State.onAt_twinStart, State.now_begun]
  have state : (if s.epochValid = true then lsStandby else lsLearn) < 8 ∧ (if s.epochValid = true then lsStandby else lsLearn) ≠ lsHolder := by
    split <;> decide
  have left : (s.begun dt).leaves u
      { parts := [.tw, .jn], regs := (· ∈ [Reg.TW_CFG, Reg.TW_STATUS, Reg.TW_EPOCH_HELD, Reg.TW_INT_STATUS, Reg.CM_INT_STATUS]) } :=
    hu ▸ State.leaves_trans (State.leaves_setF (s.begun dt) Fld.TW_CFG_EN 1 _ (by simp [Fld.TW_CFG_EN])) (State.leaves_tw _ _ _ (by simp))
  obtain ⟨next, frame⟩ := exec_aon_touches (c := .twinEnable dt) rfl rfl ha act (State.leaves_trans left
    (State.leaves_leaseDo u _ _ _ (State.leaves_leaseTo u _ _ _ _ (by simp) (by simp)) (by simp) (by simp) (by simp)))
  refine ⟨_, next, ?_, ?_, State.duty_eq_false ?_, ?_, frame⟩
  · rw [State.fld_settle, State.fld_leaseDo _ _ _ (by decide) (by decide), State.fld_leaseTo _ _ _ _ (Fld.apart_of_decide rfl) (Fld.apart_of_decide rfl)
      (Fld.apart_of_decide rfl) (Fld.apart_of_decide rfl), enabled]
  · rw [State.lease_settle, State.lease_leaseDo, valid, State.lease_leaseTo _ _ _ _ state.1]
  · rw [State.bit_settle, State.bit_eq_of_fld (State.fld_leaseDo _ _ _ (by decide) (by decide)), valid, State.duty_leaseTo _ _ _ _ state.2]
  · rw [State.settle_tw, State.tw_leaseDo, State.tw_leaseTo, since]

theorem twinDisable_ends {s : State} {dt : Nat} (ha : s.aonUp = true) (h1 : s.fld Fld.TW_CFG_EN = 1) :
    ∃ t, exec (.twinDisable dt) s = .next t ∧ t.fld Fld.TW_CFG_EN = 0 ∧ t.lease = lsDisabled ∧ t.duty = false ∧
      (s.begun dt).frame t { parts := [.tw, .jn], ctrs := (· = Ctr.tw 0x60),
                             regs := (· ∈ [Reg.TW_CFG, Reg.TW_STATUS, Reg.TW_EPOCH_HELD, Reg.TW_INT_STATUS, Reg.CM_INT_STATUS]) } := by
  have act := State.twinDisable_eq (s := s.begun dt) (by simp [State.twinOn, State.bit, h1])
  have left := State.leaves_releaseNow (s.begun dt) lsDisabled
  generalize (s.begun dt).releaseNow lsDisabled = u at act left
  obtain ⟨next, frame⟩ := exec_aon_touches (c := .twinDisable dt) rfl rfl ha act (State.leaves_trans left (State.leaves_trans
    (State.leaves_leaseDo u _ _ _ (State.leaves_leaseTo u _ _ _ _ (by simp [switchTouch]) (by simp [switchTouch])) (by simp [switchTouch])
      (by simp [switchTouch]) (by simp [switchTouch])) (State.leaves_setF _ _ _ _ (by simp [switchTouch, Fld.TW_CFG_EN]))))
  have shown {f : Fld} (h : f.addr = Reg.TW_STATUS) :
      (((u.leaseDo 0 (fun u => u.leaseTo lsDisabled 0 false)).setF Fld.TW_CFG_EN 0).settle s (s.begun dt).time).fld f =
        (u.leaseTo lsDisabled 0 false).fld f := by
    rw [State.fld_settle, State.fld_setF_ne _ _ _ _ (by rw [h]; decide), State.fld_leaseDo _ _ _ (by rw [h]; decide) (by rw [h]; decide)]
  refine ⟨_, next, ?_, ?_, State.duty_eq_false ?_, frame⟩
  · rw [State.fld_settle, State.fld_setF_self _ _ _ (by decide)]
    rfl
  · rw [State.lease, shown rfl]
    exact State.lease_leaseTo u _ _ _ (by decide)
  · rw [State.bit_eq_of_fld (shown rfl), State.duty_leaseTo _ _ _ _ (by decide)]

/-! #### The pin path's heartbeats -/

section
variable (s : State)

theorem State.leaves_leaseSent (bs : List Byte) (x : Touch) (h : .tw ∈ x.parts) : s.leaves (s.leaseSent bs) x :=
  State.leaves_ite _ (fun _ => State.leaves_tw s _ x h) (fun _ => State.leaves_ite _ (fun _ => State.leaves_tw s _ x h) (fun _ => State.leaves_tw s _ x h))

/-- What goes out with a heartbeat neither numbers nor times the pin path. -/
theorem State.leaseSent_pin (bs : List Byte) : (s.leaseSent bs).tw.seqPin = s.tw.seqPin ∧ (s.leaseSent bs).tw.txPinAt = s.tw.txPinAt ∧
    (s.leaseSent bs).out = s.out := by
  unfold State.leaseSent
  dsimp only
  split_ifs <;> exact ⟨rfl, rfl, rfl⟩

/-- A frame of the pin path: preamble, heartbeat, and the lease message of 42 bytes, or zeros for none. -/
def State.pinFrame (s : State) : List Byte :=
  [0x55, 0x55, 0x55, 0xD5] ++ s.heartbeat s.tw.seqPin ++ (if s.tw.msg.length = 42 then s.tw.msg else List.replicate 42 0) ++ [0]

theorem beBytes_length (n v : Nat) : (beBytes n v).length = n := by
  induction n with
  | zero => rfl
  | succ n ih => rw [beBytes, List.length_cons, ih]

theorem State.length_heartbeat (seq : Nat) : (s.heartbeat seq).length = 21 := by simp [State.heartbeat, withCrc, beBytes_length]
theorem State.length_pinFrame : s.pinFrame.length = 68 := by
  have message : (if s.tw.msg.length = 42 then s.tw.msg else List.replicate 42 0).length = 42 := by
    split
    · assumption
    · simp
  simp only [State.pinFrame, List.length_append, State.length_heartbeat, message, List.length_cons, List.length_nil]
theorem State.seq_pinFrame : u16 s.pinFrame 6 = s.tw.seqPin % 65536 := by
  simp only [State.pinFrame, State.heartbeat, withCrc, u16, u8, beBytes, List.cons_append, List.nil_append, List.getD_cons_succ, List.getD_cons_zero,
    BitVec.toNat_ofNat]
  omega

theorem State.pinSend_eq {s : State} (h1 : s.twinOn = true) (h2 : s.bit Fld.TW_CFG_PIN_EN = true)
    (hd : s.tw.txPinAt + max (s.fld Fld.TW_HB_CFG_PIN_PERIOD) 1 * 100 * tUs ≤ s.now) :
    s.pinSend = (({ s with tw := { s.tw with seqPin := (s.tw.seqPin + 1) % 65536, txPinAt := s.now } } : State).emit (.hb s.pinFrame)).leaseSent s.tw.msg :=
  if_pos ⟨h2, .inl h1, by simpa using hd⟩

end

theorem hbPinTx_sends {s : State} {dt : Nat} (ha : s.aonUp = true) (h1 : s.fld Fld.TW_CFG_EN = 1) (h2 : s.fld Fld.TW_CFG_PIN_EN = 1)
    (hd : s.tw.txPinAt + max (s.fld Fld.TW_HB_CFG_PIN_PERIOD) 1 * 100 * tUs ≤ s.now + dt) :
    ∃ t bs, exec (.hbPinTx dt) s = .next t ∧ t.out.filter (fun e => !e.isMsix) = .hb bs :: s.out.filter (fun e => !e.isMsix) ∧
      bs.take 4 = [0x55, 0x55, 0x55, 0xD5] ∧ u16 bs 6 = s.tw.seqPin % 65536 ∧ bs.length = 68 ∧ t.tw.seqPin = (s.tw.seqPin + 1) % 65536 ∧
      t.tw.txPinAt = s.now + dt ∧ (s.begun dt).frame t { parts := [.tw, .out] } := by
  have act := State.pinSend_eq (s := s.begun dt) (by simp [State.twinOn, State.bit, h1]) (by simp [State.bit, h2]) (by simpa using hd)
  obtain ⟨next, frame⟩ := exec_aon_touches (c := .hbPinTx dt) (x := { parts := [.tw, .out] }) rfl rfl ha act
    (State.leaves_trans (State.leaves_tw _ _ _ (by simp)) (State.leaves_trans (State.leaves_emit _ _ _ (by simp)) (State.leaves_leaseSent _ _ _ (by simp))))
  have seq := State.seq_pinFrame (s.begun dt)
  rw [State.begun_tw] at seq
  refine ⟨_, (s.begun dt).pinFrame, next, ?_, rfl, seq, State.length_pinFrame _, ?_, ?_, frame⟩
  · rw [State.settle_out, (State.leaseSent_pin _ _).2.2]
    simp [State.emit, OutEv.isMsix]
  · rw [State.settle_tw, (State.leaseSent_pin _ _).1, State.begun_tw]
    rfl
  · rw [State.settle_tw, (State.leaseSent_pin _ _).2.1, ← State.now_begun s dt]
    rfl

/-! #### The loss of a path, and of the peer -/

/-- The field and the event of a path, named by whether it is the CRF path. -/
theorem State.pathLost_eq {s : State} (crf : Bool) (h1 : s.fld (if crf then Fld.TW_STATUS_CRF_OK else Fld.TW_STATUS_PIN_OK) = 1)
    (hl : ∀ a, (if crf then s.tw.crfAt else s.tw.pinAt) = some a → a + s.pathLossTime ≤ s.now) :
    s.pathLost (if crf then .crf else .pin) = (s.setF (if crf then Fld.TW_STATUS_CRF_OK else Fld.TW_STATUS_PIN_OK) 0).raise
      (if crf then Fld.TW_INT_STATUS_CRF_PATH_LOSS else Fld.TW_INT_STATUS_PIN_PATH_LOSS) := by
  cases crf with
  | true =>
    refine if_pos ⟨by simpa [State.bit] using h1, ?_⟩
    cases hc : s.tw.crfAt with
    | none => rfl
    | some a => simpa using hl a (by simpa using hc)
  | false =>
    refine if_pos ⟨by simpa [State.bit] using h1, ?_⟩
    cases hc : s.tw.pinAt with
    | none => rfl
    | some a => simpa using hl a (by simpa using hc)

theorem pathLoss_shows {s : State} {dt : Nat} (crf : Bool) (ha : s.aonUp = true)
    (h1 : s.fld (if crf then Fld.TW_STATUS_CRF_OK else Fld.TW_STATUS_PIN_OK) = 1)
    (hl : ∀ a, (if crf then s.tw.crfAt else s.tw.pinAt) = some a → a + s.pathLossTime ≤ s.now + dt) :
    ∃ t, exec (.pathLoss dt (if crf then .crf else .pin)) s = .next t ∧ t.fld (if crf then Fld.TW_STATUS_CRF_OK else Fld.TW_STATUS_PIN_OK) = 0 ∧
      t.fld (if crf then Fld.TW_INT_STATUS_CRF_PATH_LOSS else Fld.TW_INT_STATUS_PIN_PATH_LOSS) = 1 ∧
      (s.begun dt).frame t { regs := (· ∈ [Reg.TW_STATUS, Reg.TW_INT_STATUS]) } := by
  have act := State.pathLost_eq (s := s.begun dt) crf (by simpa using h1) (by simpa using hl)
  obtain ⟨hok, hsh⟩ : (if crf then Fld.TW_STATUS_CRF_OK else Fld.TW_STATUS_PIN_OK).addr = Reg.TW_STATUS ∧
    (if crf then Fld.TW_STATUS_CRF_OK else Fld.TW_STATUS_PIN_OK).lo + (if crf then Fld.TW_STATUS_CRF_OK else Fld.TW_STATUS_PIN_OK).len ≤ 32 := by
    cases crf <;> decide
  obtain ⟨hev, hlen, hpos⟩ : (if crf then Fld.TW_INT_STATUS_CRF_PATH_LOSS else Fld.TW_INT_STATUS_PIN_PATH_LOSS).addr = Reg.TW_INT_STATUS ∧
    (if crf then Fld.TW_INT_STATUS_CRF_PATH_LOSS else Fld.TW_INT_STATUS_PIN_PATH_LOSS).lo +
      (if crf then Fld.TW_INT_STATUS_CRF_PATH_LOSS else Fld.TW_INT_STATUS_PIN_PATH_LOSS).len ≤ 32 ∧
    0 < (if crf then Fld.TW_INT_STATUS_CRF_PATH_LOSS else Fld.TW_INT_STATUS_PIN_PATH_LOSS).len := by
    cases crf <;> decide
  obtain ⟨next, frame⟩ := exec_aon_touches (c := .pathLoss dt (if crf then .crf else .pin)) (x := { regs := (· ∈ [Reg.TW_STATUS, Reg.TW_INT_STATUS]) })
    rfl rfl ha act (State.leaves_trans (State.leaves_setF _ _ _ _ (by simp [hok])) (State.leaves_raise _ _ _ (by simp [hev])))
  refine ⟨_, next, ?_, ?_, frame⟩
  · rw [State.fld_settle, State.fld_raise_ne _ _ _ (by rw [hok, hev]; decide), State.fld_setF_self _ _ _ hsh, Nat.zero_mod]
  · rw [State.fld_settle, State.fld_raise_self _ _ hlen hpos]

/-- The mutes that end, of a list of streams, and nothing else but their words. -/
theorem State.leaves_unmutes {α : Type} (l : List (Nat × α)) (s : State) (x : Touch) (h : ∀ e ∈ l, x.regs (Reg.TW_GEN e.1)) :
    s.leaves (l.foldl (fun s e => s.mute e.1 false) s) x :=
  State.leaves_foldl _ x l (fun s e he => State.leaves_setF s _ _ x (h e he)) s

theorem State.fld_mute_self (s : State) (n : Nat) : (s.mute n false).fld (Fld.TW_GEN_MUTED n) = 0 :=
  State.fld_setF_self s (Fld.TW_GEN_MUTED n) 0 (by simp [Fld.TW_GEN_MUTED])
theorem State.fld_mute_ne (s : State) {m n : Nat} (on : Bool) (h : n ≠ m) : (s.mute n on).fld (Fld.TW_GEN_MUTED m) = s.fld (Fld.TW_GEN_MUTED m) :=
  State.fld_setF_ne s _ _ _ (by simp only [Fld.TW_GEN_MUTED, Reg.TW_GEN]; omega)

theorem State.fld_unmutes {α : Type} (l : List (Nat × α)) (s : State) (n : Nat) (h : s.fld (Fld.TW_GEN_MUTED n) = 0 ∨ ∃ e ∈ l, e.1 = n) :
    (l.foldl (fun s e => s.mute e.1 false) s).fld (Fld.TW_GEN_MUTED n) = 0 := by
  induction l generalizing s with
  | nil => simpa using h
  | cons e l ih =>
    refine ih (s.mute e.1 false) ?_
    by_cases same : e.1 = n
    · left
      rw [same, State.fld_mute_self]
    · rw [State.fld_mute_ne s false same]
      refine h.imp_right ?_
      rintro ⟨d, hd, hn⟩
      refine ⟨d, (List.mem_cons.1 hd).resolve_left ?_, hn⟩
      rintro rfl
      exact same hn

/-- The peer is shown as dead, with its event, and its DUTY is no longer timed. -/
def State.peerLost (s : State) : State :=
  let s1 := { s with tw := { s.tw with dutyOff := none } }
  (s1.setF Fld.TW_STATUS_PEER_DEAD 1).raise Fld.TW_INT_STATUS_PEER_DEAD

theorem State.peerDies_eq {s : State} (h1 : s.twinOn = true) (h0 : s.peerDead = false)
    (hl : max (s.tw.validAt.getD 0) s.tw.onAt + max (s.fld Fld.TW_HB_CFG_T_DEAD) 1 * tMs ≤ s.now) : s.peerDies = s.peerLost.unmuteAll := if_pos ⟨h1, h0, hl⟩

theorem State.tw_peerLost (s : State) : s.peerLost.tw = { s.tw with dutyOff := none } := by simp only [State.peerLost, State.tw_raise, State.tw_setF]

theorem peerDead_shows {s : State} {dt : Nat} (ha : s.aonUp = true) (h1 : s.fld Fld.TW_CFG_EN = 1) (h0 : s.fld Fld.TW_STATUS_PEER_DEAD = 0)
    (hl : max (s.tw.validAt.getD 0) s.tw.onAt + max (s.fld Fld.TW_HB_CFG_T_DEAD) 1 * tMs ≤ s.now + dt) :
    ∃ t, exec (.peerDead dt) s = .next t ∧ t.fld Fld.TW_STATUS_PEER_DEAD = 1 ∧ t.fld Fld.TW_INT_STATUS_PEER_DEAD = 1 ∧ t.tw.dutyOff = none ∧
      (∀ e ∈ s.tw.streams, t.fld (Fld.TW_GEN_MUTED e.1) = 0) ∧
      (s.begun dt).frame t { parts := [.tw], regs := (fun a => a ∈ [Reg.TW_STATUS, Reg.TW_INT_STATUS] ∨ ∃ e ∈ s.tw.streams, a = Reg.TW_GEN e.1) } := by
  have act := State.peerDies_eq (s := s.begun dt) (by simp [State.twinOn, State.bit, h1]) (by simp [State.peerDead, State.bit, h0]) (by simpa using hl)
  rw [State.unmuteAll, State.tw_peerLost, State.begun_tw] at act
  have died : (s.begun dt).peerLost.fld Fld.TW_STATUS_PEER_DEAD = 1 := by
    rw [State.peerLost, State.fld_raise_ne _ _ _ (by decide), State.fld_setF_self _ _ _ (by decide)]
    rfl
  have event : (s.begun dt).peerLost.fld Fld.TW_INT_STATUS_PEER_DEAD = 1 := State.fld_raise_self _ _ (by decide) (by decide)
  have unmuted := State.leaves_unmutes s.tw.streams (s.begun dt).peerLost { regs := fun a => ∃ e ∈ s.tw.streams, a = Reg.TW_GEN e.1 } (fun e he => ⟨e, he, rfl⟩)
  have low {f : Fld} (h : f.addr < 0x60000) : ¬ ∃ e ∈ s.tw.streams, f.addr = Reg.TW_GEN e.1 := by
    rintro ⟨e, -, he⟩
    simp only [Reg.TW_GEN] at he
    omega
  obtain ⟨next, frame⟩ := exec_aon_touches (c := .peerDead dt)
    (x := { parts := [.tw], regs := (fun a => a ∈ [Reg.TW_STATUS, Reg.TW_INT_STATUS] ∨ ∃ e ∈ s.tw.streams, a = Reg.TW_GEN e.1) }) rfl rfl ha act
    (State.leaves_trans (State.leaves_trans (State.leaves_tw _ _ _ (by simp)) (State.leaves_trans (State.leaves_setF _ _ _ _ (by simp [Fld.TW_STATUS_PEER_DEAD]))
      (State.leaves_raise _ _ _ (by simp [Fld.TW_INT_STATUS_PEER_DEAD])))) (State.leaves_unmutes _ _ _ (fun e he => .inr ⟨e, he, rfl⟩)))
  refine ⟨_, next, ?_, ?_, ?_, fun e he => ?_, frame⟩
  · rw [State.fld_settle, unmuted.fld (low (by decide)), died]
  · rw [State.fld_settle, unmuted.fld (low (by decide)), event]
  · rw [State.settle_tw, unmuted.tw (by simp), State.tw_peerLost]
  · rw [State.fld_settle]
    exact State.fld_unmutes _ _ _ (.inr ⟨e, he, rfl⟩)

/-! #### A heartbeat that is not heard, or is bad -/

section
variable (s : State)

theorem State.heartbeatIn_deaf {s : State} {path : Path} (h : s.hears path = false) (bs : List Byte) : s.heartbeatIn path bs = s := if_neg (by simp [h])

/-- A bad heartbeat of a twin whose lease does not end counts, and no more. -/
theorem State.heartbeatIn_bad {s : State} {path : Path} {bs : List Byte} (h : s.hears path = true) (hl : s.lease ≠ lsHolder ∨ s.now < s.tw.expiry)
    (ht : s.twinTest bs 19 15 1 4 ≠ 0) : s.heartbeatIn path bs = s.twinBad (s.twinTest bs 19 15 1 4) := by
  rw [State.heartbeatIn, if_pos h, State.lapse_of_live hl]
  exact if_neg ht

theorem State.leaves_twinBad (n : Nat) (x : Touch) (hi : x.regs Reg.TW_INT_STATUS) (hc : x.ctrs (Ctr.tw 0x50)) : s.leaves (s.twinBad n) x :=
  State.leaves_ite _ (fun _ => State.leaves_trans (State.leaves_count s _ _ x hc) (State.leaves_raise _ _ x hi)) (fun _ => State.leaves_count s _ _ x hc)

theorem State.ctr_twinBad (n : Nat) : (s.twinBad n).ctr (Ctr.tw 0x50) = (s.ctr (Ctr.tw 0x50) + 1) % 2 ^ 64 := by
  rw [← State.ctr_count_self s (Ctr.tw 0x50) 1, State.twinBad]
  split <;> rfl

/-! #### A slot of the CRF path (R81) -/

theorem State.twinInbox_one {s : State} (h : s.tw.inbox = []) (bs : List Byte) :
    ({ s with tw := { s.tw with inbox := s.tw.inbox ++ [(2, bs)] } } : State).twinInbox = s.heartbeatIn .crf bs := by
  have cleared : ({ s with tw := { s.tw with inbox := [] } } : State) = s := by rw [← h]
  rw [State.twinInbox, if_neg (by simp)]
  simp only [h, List.nil_append, List.foldl_cons, List.foldl_nil, if_true, cleared]

/-- The receiver of the twin link takes no slot: none is open to it. -/
theorem State.slotArrives_shut {s : State} {i : Nat} {bs : List Byte}
    (h : s.twinPort (s.fld Fld.TW_CFG_LINK_PORT) = false ∨ s.crfRuns (s.fld Fld.TW_CFG_LINK_PORT) = false ∨ s.isSync (s.fld Fld.TW_CFG_LINK_PORT) = false ∨
      s.mfLock (s.fld Fld.TW_CFG_LINK_PORT) = false ∨ bs.length ≠ slotBytes i) : s.slotArrives i bs = s := by
  refine if_neg ?_
  rintro ⟨port, runs, sync, lock, len⟩
  rcases h with h | h | h | h | h
  · rw [h] at port; cases port
  · rw [h] at runs; cases runs
  · rw [h] at sync; cases sync
  · rw [h] at lock; cases lock
  · exact h len

theorem State.slotDone_zeros {bs : List Byte} (h : ∀ b ∈ bs, b = 0) (p i : Nat) : s.slotDone p i bs = s := if_pos (by simpa using h)

/-- What an open path to the receiver of the twin link says of the device. -/
theorem State.pathOpen_crf {s : State} {i : Nat} {bs : List Byte} (h : s.pathOpen .crf i bs = true) :
    s.mainUp = true ∧ s.twinPort (s.fld Fld.TW_CFG_LINK_PORT) = true ∧ s.crfRuns (s.fld Fld.TW_CFG_LINK_PORT) = true ∧
      s.isSync (s.fld Fld.TW_CFG_LINK_PORT) = true ∧ s.mfLock (s.fld Fld.TW_CFG_LINK_PORT) = true ∧ s.tw.inbox = [] ∧ bs.length = slotBytes i := by
  simp only [State.pathOpen, State.slotOpen, Bool.and_eq_true, decide_eq_true_eq, List.isEmpty_iff] at h
  obtain ⟨⟨⟨⟨⟨⟨main, port⟩, runs⟩, sync⟩, lock⟩, inbox⟩, len⟩ := h
  exact ⟨main, port, runs, sync, lock, inbox, len⟩

theorem State.hears_crf_of_open {s : State} {i : Nat} {bs : List Byte} (h : s.pathOpen .crf i bs = true) : s.hears .crf = true := by
  obtain ⟨main, port, -⟩ := State.pathOpen_crf h
  simp only [State.twinPort, Bool.and_eq_true] at port
  simp [State.hears, State.twinOn, port.1, main]

theorem State.slotArrives_open {s : State} {i : Nat} {bs : List Byte} (h : s.pathOpen .crf i bs = true) :
    s.slotArrives i bs = (s.slotDone (s.fld Fld.TW_CFG_LINK_PORT) i bs).twinInbox := by
  obtain ⟨-, port, runs, sync, lock, -, len⟩ := State.pathOpen_crf h
  exact if_pos ⟨port, runs, sync, lock, len⟩

/-- A slot of slot 2 with a good CRC, not all zeros, is a heartbeat of the CRF path. -/
theorem State.slotArrives_good {s : State} {bs : List Byte} (h : s.pathOpen .crf 2 bs = true) (hz : ∃ b ∈ bs, b ≠ 0) (hc : crcGood bs 19 = true) :
    s.slotArrives 2 bs = s.heartbeatIn .crf bs := by
  obtain ⟨-, port, -, -, -, inbox, -⟩ := State.pathOpen_crf h
  have done_ : s.slotDone (s.fld Fld.TW_CFG_LINK_PORT) 2 bs = { s with tw := { s.tw with inbox := s.tw.inbox ++ [(2, bs)] } } := by
    rw [State.slotDone, if_neg (by simpa using hz), if_neg (by simp [slotCrcAt, hc]), if_neg (by decide), if_neg (by decide), if_neg (by decide),
      if_pos ⟨port, .inl rfl⟩]
  rw [State.slotArrives_open h, done_, State.twinInbox_one inbox]

/-- With a bad CRC it is a rejected slot and a bad heartbeat. -/
theorem State.slotArrives_reject {s : State} {bs : List Byte} (h : s.pathOpen .crf 2 bs = true) (hz : ∃ b ∈ bs, b ≠ 0) (hc : crcGood bs 19 = false) :
    s.slotArrives 2 bs = (s.count (Ctr.port (s.fld Fld.TW_CFG_LINK_PORT) 0x340) 1).count (Ctr.tw 0x50) 1 := by
  obtain ⟨-, port, -, -, -, inbox, -⟩ := State.pathOpen_crf h
  have some_ : ¬ bs.all (fun b => decide (b = 0)) = true := by simpa using hz
  have done_ : s.slotDone (s.fld Fld.TW_CFG_LINK_PORT) 2 bs = s.slotReject (s.fld Fld.TW_CFG_LINK_PORT) 2 bs := by
    rw [State.slotDone, if_neg some_, if_pos (by simp [slotCrcAt, hc])]
  have rejected : s.slotReject (s.fld Fld.TW_CFG_LINK_PORT) 2 bs = (s.count (Ctr.port (s.fld Fld.TW_CFG_LINK_PORT) 0x340) 1).count (Ctr.tw 0x50) 1 := by
    rw [State.slotReject, if_neg some_]
    exact if_pos ⟨port, .inl rfl⟩
  rw [State.slotArrives_open h, done_, rejected]
  exact State.twinInbox_nil inbox

@[simp] theorem State.pathOpen_begun (dt : Nat) (path : Path) (i : Nat) (bs : List Byte) : (s.begun dt).pathOpen path i bs = s.pathOpen path i bs := by
  cases path with
  | pin => exact State.hears_begun s dt .pin
  | crf => simp [State.pathOpen, State.slotOpen]

end

theorem linkPortCtr_ne (s : State) {a : Nat} (h : Ctr.pool 0 0 ≤ a) : Ctr.port (s.fld Fld.TW_CFG_LINK_PORT) 0x340 ≠ a := by
  have port : s.fld Fld.TW_CFG_LINK_PORT < 144 := (State.fld_lt s Fld.TW_CFG_LINK_PORT).trans_le (by decide)
  exact ((portCtr_lt port (by decide)).trans_le h).ne

/-- What a bad heartbeat touches on a path. -/
def State.badTouch (s : State) (path : Path) : Touch :=
  { regs := (· = Reg.TW_INT_STATUS), ctrs := (fun a => a = Ctr.tw 0x50 ∨ path = .crf ∧ a = Ctr.port (s.fld Fld.TW_CFG_LINK_PORT) 0x340) }

/-- A bad heartbeat on a path that is open counts as one, and with a bad CRC on the CRF path as a rejected slot. -/
theorem State.heartbeatRow_bad {s : State} {path : Path} {hb : List Byte} (ho : s.pathOpen path 2 hb = true) (ht : s.twinTest hb 19 15 1 4 ≠ 0)
    (hz : path = .crf → ∃ b ∈ hb, b ≠ 0) (hl : s.lease ≠ lsHolder ∨ s.now < s.tw.expiry) :
    s.leaves (s.heartbeatRow path hb) (s.badTouch path) ∧ (s.heartbeatRow path hb).ctr (Ctr.tw 0x50) = (s.ctr (Ctr.tw 0x50) + 1) % 2 ^ 64 ∧
      (path = .crf → crcGood hb 19 = false → (s.heartbeatRow path hb).ctr (Ctr.port (s.fld Fld.TW_CFG_LINK_PORT) 0x340) =
        (s.ctr (Ctr.port (s.fld Fld.TW_CFG_LINK_PORT) 0x340) + 1) % 2 ^ 64) := by
  have counted (q : Path) (n : Nat) := And.intro (State.leaves_twinBad s n (s.badTouch q) rfl (.inl rfl)) (State.ctr_twinBad s n)
  cases path with
  | pin =>
    rw [show s.heartbeatRow .pin hb = _ from State.heartbeatIn_bad ho hl ht]
    exact ⟨(counted .pin _).1, (counted .pin _).2, fun h => by cases h⟩
  | crf =>
    by_cases crc : crcGood hb 19 = true
    · rw [show s.heartbeatRow .crf hb = _ from (State.slotArrives_good ho (hz rfl) crc).trans (State.heartbeatIn_bad (State.hears_crf_of_open ho) hl ht)]
      exact ⟨(counted .crf _).1, (counted .crf _).2, fun _ h => absurd crc (by simp [h])⟩
    · rw [show s.heartbeatRow .crf hb = _ from State.slotArrives_reject ho (hz rfl) (by simpa using crc)]
      have other : Ctr.port (s.fld Fld.TW_CFG_LINK_PORT) 0x340 ≠ Ctr.tw 0x50 := linkPortCtr_ne s (by decide)
      refine ⟨State.leaves_trans (State.leaves_count _ _ _ _ (.inr ⟨rfl, rfl⟩)) (State.leaves_count _ _ _ _ (.inl rfl)), ?_, fun _ _ => ?_⟩
      · rw [State.ctr_count_self, State.ctr_count_ne _ _ _ _ other.symm]
      · rw [State.ctr_count_ne _ _ _ _ other, State.ctr_count_self]

theorem State.aonUp_of_open {s : State} {path : Path} {i : Nat} {bs : List Byte} (h : s.pathOpen path i bs = true) : s.aonUp = true := by
  cases path with
  | pin =>
    simp only [State.pathOpen, State.hears, Bool.and_eq_true] at h
    exact h.2
  | crf => exact State.aonUp_of_mainUp (State.pathOpen_crf h).1

theorem heartbeatRx_bad {s : State} {dt : Nat} {path : Path} {hb : List Byte} (ho : s.pathOpen path 2 hb = true) (ht : s.twinTest hb 19 15 1 4 ≠ 0)
    (hz : path = .crf → ∃ b ∈ hb, b ≠ 0) (hl : s.lease ≠ lsHolder ∨ s.now + dt < s.tw.expiry) :
    ∃ t, exec (.heartbeatRx dt path hb) s = .next t ∧ t.ctr (Ctr.tw 0x50) = (s.ctr (Ctr.tw 0x50) + 1) % 2 ^ 64 ∧
      (path = .crf → crcGood hb 19 = false →
        t.ctr (Ctr.port (s.fld Fld.TW_CFG_LINK_PORT) 0x340) = (s.ctr (Ctr.port (s.fld Fld.TW_CFG_LINK_PORT) 0x340) + 1) % 2 ^ 64) ∧
      (s.begun dt).frame t (s.badTouch path) := by
  obtain ⟨left, bad, rejected⟩ := State.heartbeatRow_bad (s := s.begun dt) (by simpa using ho) (by simpa using ht) hz (by simpa using hl)
  rw [State.badTouch, State.fld_begun] at left
  simp only [State.fld_begun, State.ctr_begun] at bad rejected
  obtain ⟨next, frame⟩ := exec_aon_touches (c := .heartbeatRx dt path hb) rfl rfl (State.aonUp_of_open ho) rfl left
  refine ⟨_, next, ?_, fun hp hc => ?_, frame⟩
  · rw [State.ctr_settle _ _ _ _ (by decide), bad]
  · rw [State.ctr_settle _ _ _ _ (linkPortCtr_ne s (by decide)), rejected hp hc]

/-- On a path that the device does not listen on a heartbeat changes nothing. -/
theorem heartbeatRx_deaf {s : State} {dt : Nat} {path : Path} (hb : List Byte) (h : s.hears path = false) (he : path = .crf → s.fld Fld.TW_CFG_EN = 0) :
    ∃ t, exec (.heartbeatRx dt path hb) s = .next t ∧ (s.begun dt).frame t {} := by
  refine exec_aon_still (c := .heartbeatRx dt path hb) rfl rfl ?_
  cases path with
  | pin => exact State.heartbeatIn_deaf (by simpa using h) hb
  | crf => exact State.slotArrives_shut (.inl (by simp [State.twinPort, State.bit, he rfl]))

/-- The link port takes no slot, or one of zeros. -/
theorem heartbeatRx_shut {s : State} {dt p : Nat} {hb : List Byte} (hp : s.fld Fld.TW_CFG_LINK_PORT = p) (hi : s.tw.inbox = [])
    (h : s.twinPort p = false ∨ s.crfRuns p = false ∨ s.isSync p = false ∨ s.mfLock p = false ∨ hb.length ≠ slotBytes 2 ∨ (∀ b ∈ hb, b = 0)) :
    ∃ t, exec (.heartbeatRx dt .crf hb) s = .next t ∧ (s.begun dt).frame t {} := by
  refine exec_aon_still (c := .heartbeatRx dt .crf hb) rfl rfl ?_
  by_cases zeros : ∀ b ∈ hb, b = 0
  · exact ite_eq_right_iff.2 (fun _ => (congrArg State.twinInbox (State.slotDone_zeros _ zeros _ _)).trans (State.twinInbox_nil (by simpa using hi)))
  · refine State.slotArrives_shut ?_
    simp only [State.fld_begun, hp, State.twinPort_begun, State.crfRuns_begun, State.isSync_begun, State.mfLock_begun]
    tauto

/-! #### A move of the lease says nothing of the peer -/

/-- The fields that a valid heartbeat tells of the peer and its paths, and those that a move of the lease writes. -/
def peerFlds : List Fld :=
  [Fld.TW_STATUS_PIN_OK, Fld.TW_STATUS_CRF_OK, Fld.TW_STATUS_PEER_DEAD, Fld.TW_STATUS_PEER_DUTY, Fld.TW_STATUS_PEER_FWD, Fld.TW_PEER_EPOCH_EPOCH]
def leaseFlds : List Fld :=
  [Fld.TW_STATUS_LEASE_STATE, Fld.TW_STATUS_DUTY, Fld.TW_STATUS_SOLO, Fld.TW_STATUS_EPOCH_VALID, Fld.TW_EPOCH_HELD_EPOCH, Fld.TW_EPOCH_SEEN_EPOCH]

theorem leaseFlds_apart : ∀ f ∈ leaseFlds, f.lo + f.len ≤ 32 ∧ ∀ g ∈ peerFlds, f.apart g := by
  unfold Fld.apart
  decide
theorem peerFlds_addr : ∀ g ∈ peerFlds, g.addr ≠ Reg.TW_INT_STATUS ∧ g.addr ≠ Reg.CM_INT_STATUS ∧ g.addr < 0x60000 := by decide

/-- What moves of the lease touch: the journal, registers, and the counts of lapses and of steps down. -/
def moveTouch : Touch := { parts := [.jn], regs := fun _ => True, ctrs := (· ∈ [Ctr.tw 0x60, Ctr.tw 0x68]) }

/-- A move of the lease leaves what the device knows of its peer as it stands. -/
structure LeaseMove (s t : State) : Prop where
  leaves : s.leaves t moveTouch
  peer : ∀ g ∈ peerFlds, t.fld g = s.fld g

namespace LeaseMove

theorem refl (s : State) : LeaseMove s s := ⟨State.leaves_refl s _, fun _ _ => rfl⟩
theorem trans {s t u : State} (h : LeaseMove s t) (k : LeaseMove t u) : LeaseMove s u :=
  ⟨State.leaves_trans h.leaves k.leaves, fun g hg => (k.peer g hg).trans (h.peer g hg)⟩
theorem ite {s t u : State} {c : Prop} [Decidable c] (h : LeaseMove s t) (k : LeaseMove s u) : LeaseMove s (if c then t else u) := by
  split
  · exact h
  · exact k

section
variable (s : State)

theorem setF {f : Fld} (h : f ∈ leaseFlds) (v : Nat) : LeaseMove s (s.setF f v) :=
  ⟨State.leaves_setF s f v _ trivial, fun g hg => State.fld_setF_of_apart s v (leaseFlds_apart f h).1 ((leaseFlds_apart f h).2 g hg)⟩
theorem raise {f : Fld} (h : f.addr = Reg.TW_INT_STATUS) : LeaseMove s (s.raise f) :=
  ⟨State.leaves_raise s f _ trivial, fun g hg => State.fld_raise_ne s f g (by rw [h]; exact (peerFlds_addr g hg).1)⟩
theorem count {a : Nat} (h : a ∈ [Ctr.tw 0x60, Ctr.tw 0x68]) (n : Nat) : LeaseMove s (s.count a n) := ⟨State.leaves_count s a n _ h, fun _ _ => rfl⟩

theorem leaseTo (st held : Nat) (solo : Bool) : LeaseMove s (s.leaseTo st held solo) :=
  (setF s (by decide) _).trans ((setF _ (by decide) _).trans ((setF _ (by decide) _).trans (setF _ (by decide) _)))
theorem epochRaise (e : Nat) : LeaseMove s (s.epochRaise e) := ite (setF s (by decide) e) (refl s)
theorem leaseDo (ty : Nat) {f : State → State} (h : LeaseMove s (f s)) : LeaseMove s (s.leaseDo ty f) :=
  ⟨State.leaves_leaseDo s ty f _ h.leaves (by simp [moveTouch]) trivial trivial,
    fun g hg => (State.fld_leaseDo s ty f (peerFlds_addr g hg).1 (peerFlds_addr g hg).2.1).trans (h.peer g hg)⟩

theorem lapse : LeaseMove s s.lapse :=
  ite (leaseDo s _ ((leaseTo s _ _ _).trans ((count _ (by decide) _).trans (raise _ rfl)))) (refl s)

theorem seeEpoch (e ty : Nat) (valid : Bool) : LeaseMove s (s.seeEpoch e ty valid) :=
  ite (ite (leaseDo s _ ((epochRaise s e).trans ((setF _ (by decide) _).trans (leaseTo _ _ _ _)))) (refl s))
    (ite (leaseDo s _ ((epochRaise s e).trans ((leaseTo _ _ _ _).trans ((count _ (by decide) _).trans (raise _ rfl)))))
      (ite (leaseDo s _ (epochRaise s e)) (refl s)))

end

theorem tw {s t : State} (h : LeaseMove s t) : t.tw = s.tw := h.leaves.tw (by simp [moveTouch])

end LeaseMove

/-! #### What a valid heartbeat tells -/

section
variable (s : State)

/-- The peer is alive, and shows the highest epoch it has seen. -/
def State.peerShown (s : State) (epochSeen : Nat) : State :=
  let s1 := { s with tw := { s.tw with validAt := some s.now } }
  let s2 := s1.setF Fld.TW_PEER_EPOCH_EPOCH epochSeen
  if s2.peerDead then (s2.setF Fld.TW_STATUS_PEER_DEAD 0).raise Fld.TW_INT_STATUS_PEER_ALIVE else s2

/-- Beyond that, the lease follows. -/
theorem LeaseMove.peerHeard (ty e : Nat) : LeaseMove (s.peerShown e) (s.peerHeard ty e) :=
  LeaseMove.ite ((LeaseMove.setF _ (by decide) 0).trans (LeaseMove.leaseDo _ _ (LeaseMove.leaseTo _ _ _ _))) (LeaseMove.setF _ (by decide) 0)

/-- What hearing of the peer touches. -/
def hearTouch : Touch := { parts := [.tw, .jn], regs := fun _ => True, ctrs := (· ∈ [Ctr.tw 0x60, Ctr.tw 0x68]) }

theorem LeaseMove.hears {s t : State} (h : LeaseMove s t) : s.leaves t hearTouch :=
  h.leaves.mono (by simp [moveTouch, hearTouch]) (fun _ => id) (fun _ => id) (fun _ => id) (fun _ => id)

theorem State.peerShown_shows (e : Nat) : s.leaves (s.peerShown e) hearTouch ∧ (s.peerShown e).tw = { s.tw with validAt := some s.now } ∧
    (s.peerShown e).fld Fld.TW_STATUS_PEER_DEAD = 0 ∧ (s.peerShown e).fld Fld.TW_PEER_EPOCH_EPOCH = e % 2 ^ 32 ∧
    ∀ f ∈ [Fld.TW_STATUS_PIN_OK, Fld.TW_STATUS_CRF_OK], (s.peerShown e).fld f = s.fld f := by
  generalize hu : ({ s with tw := { s.tw with validAt := some s.now } } : State).setF Fld.TW_PEER_EPOCH_EPOCH e = u
  have left : s.leaves u hearTouch := hu ▸ State.leaves_trans (State.leaves_tw s _ _ (by simp [hearTouch])) (State.leaves_setF _ _ _ _ trivial)
  have valid : u.tw = { s.tw with validAt := some s.now } := by rw [← hu, State.tw_setF]
  have epoch : u.fld Fld.TW_PEER_EPOCH_EPOCH = e % 2 ^ 32 := by rw [← hu]; exact State.fld_setF_self _ _ _ (by decide)
  have paths : ∀ f ∈ [Fld.TW_STATUS_PIN_OK, Fld.TW_STATUS_CRF_OK], f.addr = Reg.TW_STATUS ∧ Fld.TW_STATUS_PEER_DEAD.apart f := by
    unfold Fld.apart
    decide
  have kept (f : Fld) (h : f.addr = Reg.TW_STATUS) : u.fld f = s.fld f := by
    rw [← hu, State.fld_setF_ne _ _ _ _ (by rw [h]; decide), State.fld_withTw]
  have shown : s.peerShown e = if u.peerDead then (u.setF Fld.TW_STATUS_PEER_DEAD 0).raise Fld.TW_INT_STATUS_PEER_ALIVE else u := by rw [← hu, State.peerShown]
  rw [shown]
  split
  case isFalse alive => exact ⟨left, valid, State.fld_eq_zero_of_bit rfl (by simpa [State.peerDead] using alive), epoch, fun f hf => kept f (paths f hf).1⟩
  have status (f : Fld) (h : f.addr = Reg.TW_STATUS) (t : State) : (t.raise Fld.TW_INT_STATUS_PEER_ALIVE).fld f = t.fld f :=
    State.fld_raise_ne _ _ _ (by rw [h]; decide)
  refine ⟨State.leaves_trans left (State.leaves_trans (State.leaves_setF _ _ _ _ trivial) (State.leaves_raise _ _ _ trivial)), ?_, ?_, ?_, fun f hf => ?_⟩
  · rw [State.tw_raise, State.tw_setF, valid]
  · rw [status _ rfl, State.fld_setF_self _ _ _ (by decide), Nat.zero_mod]
  · rw [State.fld_raise_ne _ _ _ (by decide), State.fld_setF_ne _ _ _ _ (by decide), epoch]
  · rw [status _ (paths f hf).1, State.fld_setF_of_apart _ _ (by decide) (paths f hf).2, kept f (paths f hf).1]

/-- What a heartbeat shows of the peer's DUTY, FWD and journal. -/
def State.dutyShown (s : State) (bs : List Byte) : State :=
  let s1 := (s.setF Fld.TW_STATUS_PEER_DUTY (b2n (bitOf (u8 bs 1) 6))).setF Fld.TW_STATUS_PEER_FWD (b2n (bitOf (u8 bs 1) 7))
  (s1.setReg Reg.TW_PEER_JN_HEAD0 (w32 (beNat (byteSlice bs 8 6)))).setReg Reg.TW_PEER_JN_HEAD1 (w32 (u16 bs 8))

theorem State.tw_setReg (a : Nat) (w : Word) : (s.setReg a w).tw = s.tw := rfl
theorem State.fld_setReg_ne (a : Nat) (w : Word) {f : Fld} (h : f.addr ≠ a) : (s.setReg a w).fld f = s.fld f := by
  rw [State.fld, State.reg_setReg_ne _ _ _ _ h, State.fld]

theorem State.dutyShown_shows (bs : List Byte) : (s.dutyShown bs).fld Fld.TW_STATUS_PEER_DUTY = b2n (bitOf (u8 bs 1) 6) ∧
    (s.dutyShown bs).fld Fld.TW_STATUS_PEER_FWD = b2n (bitOf (u8 bs 1) 7) ∧
    ∀ f ∈ [Fld.TW_STATUS_PIN_OK, Fld.TW_STATUS_CRF_OK, Fld.TW_STATUS_PEER_DEAD, Fld.TW_PEER_EPOCH_EPOCH], (s.dutyShown bs).fld f = s.fld f := by
  have bit (b : Bool) : b2n b % 2 ^ 1 = b2n b := by cases b <;> rfl
  have heads {f : Fld} (h : f.addr ≠ Reg.TW_PEER_JN_HEAD0) (h' : f.addr ≠ Reg.TW_PEER_JN_HEAD1) : (s.dutyShown bs).fld f =
      ((s.setF Fld.TW_STATUS_PEER_DUTY (b2n (bitOf (u8 bs 1) 6))).setF Fld.TW_STATUS_PEER_FWD (b2n (bitOf (u8 bs 1) 7))).fld f := by
    rw [State.dutyShown, State.fld_setReg_ne _ _ _ h', State.fld_setReg_ne _ _ _ h]
  have others : ∀ f ∈ [Fld.TW_STATUS_PIN_OK, Fld.TW_STATUS_CRF_OK, Fld.TW_STATUS_PEER_DEAD, Fld.TW_PEER_EPOCH_EPOCH],
      f.addr ≠ Reg.TW_PEER_JN_HEAD0 ∧ f.addr ≠ Reg.TW_PEER_JN_HEAD1 ∧ Fld.TW_STATUS_PEER_DUTY.apart f ∧ Fld.TW_STATUS_PEER_FWD.apart f := by
    unfold Fld.apart
    decide
  refine ⟨?_, ?_, fun f hf => ?_⟩
  · rw [heads (by decide) (by decide), State.fld_setF_of_apart _ _ (by decide) (Fld.apart_of_decide rfl), State.fld_setF_self _ _ _ (by decide)]
    exact bit _
  · rw [heads (by decide) (by decide), State.fld_setF_self _ _ _ (by decide)]
    exact bit _
  · obtain ⟨h0, h1, duty, fwd⟩ := others f hf
    rw [heads h0 h1, State.fld_setF_of_apart _ _ (by decide) fwd, State.fld_setF_of_apart _ _ (by decide) duty]

theorem State.leaves_dutyShown (bs : List Byte) (x : Touch) (h : ∀ a, x.regs a) : s.leaves (s.dutyShown bs) x :=
  State.leaves_trans (State.leaves_setF _ _ _ x (h _)) (State.leaves_trans (State.leaves_setF _ _ _ x (h _))
    (State.leaves_trans (State.leaves_setReg _ _ _ x (h _)) (State.leaves_setReg _ _ _ x (h _))))

/-- Beyond that, mutes end, and the time without DUTY is kept. -/
def muteTouch : Touch := { parts := [.tw], regs := (0x60000 ≤ ·) }

theorem State.peerNews_follows (bs : List Byte) : (s.dutyShown bs).leaves (s.peerNews bs) muteTouch ∧ (s.peerNews bs).tw.pinAt = s.tw.pinAt ∧
    (s.peerNews bs).tw.crfAt = s.tw.crfAt ∧ (s.peerNews bs).tw.validAt = s.tw.validAt := by
  have news : ∃ off, s.peerNews bs = ({ s.dutyShown bs with tw := { (s.dutyShown bs).tw with dutyOff := off } } : State).unmuteIfAlone := ⟨_, rfl⟩
  obtain ⟨off, news⟩ := news
  have told : (s.dutyShown bs).tw = s.tw := by rw [State.dutyShown, State.tw_setReg, State.tw_setReg, State.tw_setF, State.tw_setF]
  have unmuted (t : State) : t.leaves t.unmuteIfAlone { regs := (0x60000 ≤ ·) } :=
    State.leaves_ite _ (fun _ => State.leaves_refl t _) (fun _ => State.leaves_unmutes _ t _ (fun e _ => by simp only [Reg.TW_GEN]; omega))
  rw [news, (unmuted _).tw (by simp), told]
  exact ⟨State.leaves_trans (State.leaves_tw _ _ _ (by simp [muteTouch]))
    ((unmuted _).mono (by simp) (fun _ => id) (fun _ => id) (fun _ => id) (fun _ => id)), rfl, rfl, rfl⟩

/-- A path's field, counter and time of its last valid heartbeat. -/
def okFld : Path → Fld
  | .pin => Fld.TW_STATUS_PIN_OK
  | .crf => Fld.TW_STATUS_CRF_OK
def heardCtr : Path → Nat
  | .pin => Ctr.tw 0x40
  | .crf => Ctr.tw 0x48
def heardAt (w : Twin) : Path → Option Nat
  | .pin => w.pinAt
  | .crf => w.crfAt

/-- A valid heartbeat has come on a path. -/
def State.pathHeard (s : State) : Path → State
  | .pin => ({ s with tw := { s.tw with pinAt := some s.now } }).setF Fld.TW_STATUS_PIN_OK 1 |>.count (Ctr.tw 0x40) 1
  | .crf => ({ s with tw := { s.tw with crfAt := some s.now } }).setF Fld.TW_STATUS_CRF_OK 1 |>.count (Ctr.tw 0x48) 1

/-- The same, for either path. -/
theorem State.pathHeard_eq (path : Path) : ∃ w : Twin, heardAt w path = some s.now ∧
    s.pathHeard path = (({ s with tw := w } : State).setF (okFld path) 1).count (heardCtr path) 1 := by
  cases path with
  | pin => exact ⟨_, rfl, rfl⟩
  | crf => exact ⟨_, rfl, rfl⟩

theorem State.pathHeard_shows (path : Path) : (s.pathHeard path).fld (okFld path) = 1 ∧ heardAt (s.pathHeard path).tw path = some s.now ∧
    (s.pathHeard path).ctr (heardCtr path) = (s.ctr (heardCtr path) + 1) % 2 ^ 64 ∧
    s.leaves (s.pathHeard path) { parts := [.tw], regs := fun _ => True, ctrs := (· = heardCtr path) } := by
  obtain ⟨w, at_, heard⟩ := s.pathHeard_eq path
  have bit : (okFld path).lo + (okFld path).len ≤ 32 ∧ (okFld path).len = 1 := by cases path <;> decide
  rw [heard]
  refine ⟨?_, ?_, ?_, State.leaves_trans (State.leaves_tw s w _ (by simp)) (State.leaves_trans (State.leaves_setF _ _ _ _ trivial) (State.leaves_count _ _ _ _ rfl))⟩
  · rw [State.fld_count, State.fld_setF_self _ _ _ bit.1, bit.2]
    rfl
  · rw [State.tw_count, State.tw_setF, at_]
  · rw [State.ctr_count_self, State.ctr_setF, State.ctr_withTw]

end

theorem u32_lt (bs : List Byte) (o : Nat) : u32 bs o < 2 ^ 32 := by
  have byte (i : Nat) : u8 bs i < 256 := (bs.getD i 0).isLt
  have := byte o
  have := byte (o + 1)
  have := byte (o + 2)
  have := byte (o + 2 + 1)
  simp only [u32, u16]
  omega

theorem State.twinTest_lapse (s : State) (bs : List Byte) (len pair unit unitBit : Nat) :
    s.lapse.twinTest bs len pair unit unitBit = s.twinTest bs len pair unit unitBit := by
  have left := State.leaves_lapse s
    { parts := [.jn], regs := (· ∈ [Reg.TW_STATUS, Reg.TW_EPOCH_HELD, Reg.TW_INT_STATUS, Reg.CM_INT_STATUS]), ctrs := (· = Ctr.tw 0x60) }
    (by simp) (by simp) (by simp) (by simp) (by simp) rfl
  have id_ : s.lapse.fld Fld.TW_PAIR_ID_ID = s.fld Fld.TW_PAIR_ID_ID := left.fld (by decide)
  have unit1 : s.lapse.unit1 = s.unit1 := State.bit_eq_of_fld (left.fld (by decide))
  rw [State.twinTest, State.twinTest, id_, unit1]

section
variable {s : State} {path : Path} {bs : List Byte}

theorem State.heartbeatIn_valid (hh : s.hears path = true) (ht : s.twinTest bs 19 15 1 4 = 0) :
    s.heartbeatIn path bs = (((s.lapse.pathHeard path).peerHeard 0 (u32 bs 4)).peerNews bs).seeEpoch (u32 bs 4) 0 (bitOf (u8 bs 1) 5) := by
  rw [State.heartbeatIn, if_pos hh]
  cases path with
  | pin => exact if_pos ((State.twinTest_lapse s bs _ _ _ _).trans ht)
  | crf => exact if_pos ((State.twinTest_lapse s bs _ _ _ _).trans ht)

/-- What a state shows of a valid heartbeat that has come on a path at a time. -/
structure HeartbeatShown (t : State) (path : Path) (bs : List Byte) (now : Nat) : Prop where
  ok : t.fld (okFld path) = 1
  alive : t.fld Fld.TW_STATUS_PEER_DEAD = 0
  duty : t.fld Fld.TW_STATUS_PEER_DUTY = b2n (bitOf (u8 bs 1) 6)
  fwd : t.fld Fld.TW_STATUS_PEER_FWD = b2n (bitOf (u8 bs 1) 7)
  heard : heardAt t.tw path = some now
  valid : t.tw.validAt = some now
  epoch : t.fld Fld.TW_PEER_EPOCH_EPOCH = u32 bs 4

/-- A heartbeat's news of a peer that has been heard. -/
theorem State.peerNews_shows {s : State} {now : Nat} (ok : s.fld (okFld path) = 1) (alive : s.fld Fld.TW_STATUS_PEER_DEAD = 0) (heard : heardAt s.tw path = some now)
    (valid : s.tw.validAt = some now) (epoch : s.fld Fld.TW_PEER_EPOCH_EPOCH = u32 bs 4) : HeartbeatShown (s.peerNews bs) path bs now := by
  obtain ⟨muted, pinAt, crfAt, validAt⟩ := s.peerNews_follows bs
  obtain ⟨duty, fwd, other⟩ := s.dutyShown_shows bs
  have same {f : Fld} (h : f.addr < 0x60000) : (s.peerNews bs).fld f = (s.dutyShown bs).fld f := muted.fld (by simp only [muteTouch]; omega)
  have path_ : okFld path ∈ [Fld.TW_STATUS_PIN_OK, Fld.TW_STATUS_CRF_OK, Fld.TW_STATUS_PEER_DEAD, Fld.TW_PEER_EPOCH_EPOCH] ∧ (okFld path).addr < 0x60000 := by
    cases path <;> decide
  have at_ : heardAt (s.peerNews bs).tw path = heardAt s.tw path := by
    cases path with
    | pin => exact pinAt
    | crf => exact crfAt
  exact ⟨by rw [same path_.2, other _ path_.1, ok], by rw [same (by decide), other _ (by decide), alive], by rw [same (by decide), duty],
    by rw [same (by decide), fwd], by rw [at_, heard], by rw [validAt, valid], by rw [same (by decide), other _ (by decide), epoch]⟩

/-- A move of the lease takes nothing of it back. -/
theorem HeartbeatShown.move {t u : State} {now : Nat} (h : HeartbeatShown t path bs now) (k : LeaseMove t u) : HeartbeatShown u path bs now := by
  have path_ : okFld path ∈ peerFlds := by cases path <;> decide
  exact ⟨by rw [k.peer _ path_, h.ok], by rw [k.peer _ (by decide), h.alive], by rw [k.peer _ (by decide), h.duty], by rw [k.peer _ (by decide), h.fwd],
    by rw [k.tw, h.heard], by rw [k.tw, h.valid], by rw [k.peer _ (by decide), h.epoch]⟩

/-- What a valid heartbeat touches. -/
def validTouch (path : Path) : Touch :=
  { parts := [.tw, .jn], regs := fun _ => True, ctrs := fun a => a = heardCtr path ∨ a ∈ [Ctr.tw 0x60, Ctr.tw 0x68] }

theorem hearTouch_valid {s t : State} (h : s.leaves t hearTouch) (path : Path) : s.leaves t (validTouch path) :=
  h.mono (by simp [hearTouch, validTouch]) (fun _ => id) (fun _ => .inr) (fun _ => id) (fun _ => id)

/-- A valid heartbeat tells of its path and of the peer, and counts. -/
theorem State.heartbeatIn_tells (hh : s.hears path = true) (ht : s.twinTest bs 19 15 1 4 = 0) : HeartbeatShown (s.heartbeatIn path bs) path bs s.now ∧
    (s.heartbeatIn path bs).ctr (heardCtr path) = (s.ctr (heardCtr path) + 1) % 2 ^ 64 ∧ s.leaves (s.heartbeatIn path bs) (validTouch path) := by
  have lapsed := LeaseMove.lapse s
  obtain ⟨ok, heard, counted, onPath⟩ := State.pathHeard_shows s.lapse path
  generalize ha : s.lapse.pathHeard path = a at ok heard counted onPath
  obtain ⟨shown, tw, alive, epoch, paths⟩ := State.peerShown_shows a (u32 bs 4)
  have followed := LeaseMove.peerHeard a 0 (u32 bs 4)
  have now : s.lapse.now = s.now := lapsed.leaves.now (by simp [moveTouch])
  have now' : a.now = s.now := (onPath.now (by simp)).trans now
  have path_ : okFld path ∈ [Fld.TW_STATUS_PIN_OK, Fld.TW_STATUS_CRF_OK] ∧ okFld path ∈ peerFlds := by cases path <;> decide
  have kept : heardAt (a.peerHeard 0 (u32 bs 4)).tw path = heardAt a.tw path := by
    rw [followed.tw, tw]
    cases path <;> rfl
  have news := State.peerNews_shows (s := a.peerHeard 0 (u32 bs 4)) (path := path) (bs := bs) (now := s.now)
    (by rw [followed.peer _ path_.2, paths _ path_.1, ok]) (by rw [followed.peer _ (by decide), alive]) (by rw [kept, heard, now])
    (by rw [followed.tw, tw, now']) (by rw [followed.peer _ (by decide), epoch, Nat.mod_eq_of_lt (u32_lt bs 4)])
  have told : (a.peerHeard 0 (u32 bs 4)).leaves ((a.peerHeard 0 (u32 bs 4)).peerNews bs) hearTouch :=
    State.leaves_trans (State.leaves_dutyShown _ bs _ (fun _ => trivial)) ((State.peerNews_follows _ bs).1.mono (by simp [muteTouch, hearTouch])
      (fun _ _ => trivial) (fun _ => False.elim) (fun _ => id) (fun _ => id))
  have seen := LeaseMove.seeEpoch ((a.peerHeard 0 (u32 bs 4)).peerNews bs) (u32 bs 4) 0 (bitOf (u8 bs 1) 5)
  have after : a.leaves _ hearTouch := State.leaves_trans (State.leaves_trans shown followed.hears) (State.leaves_trans told seen.hears)
  have other : heardCtr path ≠ Ctr.hi 0x20 ∧ heardCtr path ∉ [Ctr.tw 0x60, Ctr.tw 0x68] := by cases path <;> decide
  rw [State.heartbeatIn_valid hh ht, ha]
  refine ⟨news.move seen, ?_, State.leaves_trans (hearTouch_valid lapsed.hears path) (State.leaves_trans
    (onPath.mono (by simp [validTouch]) (fun _ => id) (fun _ => .inl) (fun _ => id) (fun _ => id)) (hearTouch_valid after path))⟩
  rw [after.ctrOf other.1 other.2, counted, lapsed.leaves.ctrOf other.1 other.2]

end

/-- A heartbeat that passes the tests has a good CRC and VERSION 1. -/
theorem State.twinTest_good {s : State} {hb : List Byte} (ht : s.twinTest hb 19 15 1 4 = 0) : crcGood hb 19 = true ∧ u8 hb 0 = 1 := by
  have good : ¬ (hb.length < 19 + 2 ∨ crcGood hb 19 = false ∨ u8 hb 0 ≠ 1) := by
    intro bad
    rw [State.twinTest, if_pos bad] at ht
    cases ht
  simp only [not_or, Bool.not_eq_false, not_not] at good
  exact good.2

/-- The answer to a valid heartbeat on a path that is open. -/
theorem heartbeatRx_valid {s : State} {dt : Nat} {path : Path} {hb : List Byte} (ho : s.pathOpen path 2 hb = true) (ht : s.twinTest hb 19 15 1 4 = 0) :
    ∃ t, exec (.heartbeatRx dt path hb) s = .next t ∧ HeartbeatShown t path hb (s.now + dt) ∧
      t.ctr (heardCtr path) = (s.ctr (heardCtr path) + 1) % 2 ^ 64 := by
  obtain ⟨crc, version⟩ := State.twinTest_good ht
  have some_ : ∃ b ∈ hb, b ≠ 0 := by
    by_contra zeros
    push Not at zeros
    have zero : hb.getD 0 0 = 0 := by
      cases hb with
      | nil => rfl
      | cons b l => exact zeros b (List.mem_cons_self ..)
    rw [u8, zero] at version
    cases version
  have hears : s.hears path = true := by
    cases path with
    | pin => exact ho
    | crf => exact State.hears_crf_of_open ho
  have act : (s.begun dt).heartbeatRow path hb = (s.begun dt).heartbeatIn path hb := by
    cases path with
    | pin => rfl
    | crf => exact State.slotArrives_good (by simpa using ho) some_ crc
  obtain ⟨shown, counted, left⟩ := State.heartbeatIn_tells (s := s.begun dt) (path := path) (bs := hb) (by simpa using hears) (by simpa using ht)
  obtain ⟨next, -⟩ := exec_aon_touches (c := .heartbeatRx dt path hb) rfl rfl (State.aonUp_of_open ho) act left
  have other : heardCtr path ≠ Ctr.hi 0x20 := by cases path <;> decide
  rw [State.now_begun] at shown
  refine ⟨_, next, ?_, by rw [State.ctr_settle _ _ _ _ other, counted, State.ctr_begun]⟩
  obtain ⟨ok, alive, duty, fwd, heard, valid, epoch⟩ := shown
  constructor <;> simpa

/-- Settles O40: the rules of the twin's switch, of what goes out and comes in on either path, and of what has not come for too long. -/
theorem twinHeartbeats : Obligations.TwinHeartbeats := by
  refine ⟨fun _ _ => twinEnable_stands, fun _ _ => twinDisable_ends, fun _ _ => hbPinTx_sends, fun s dt hb hh ht => ?_, fun s dt hb ho ht => ?_,
    fun _ _ _ _ ho ht hz hl => heartbeatRx_bad ho ht hz hl, fun _ _ _ hb hh _ he => heartbeatRx_deaf hb hh he,
    fun _ _ _ _ hp hi h => heartbeatRx_shut hp hi h, fun _ _ crf ha h1 hl => pathLoss_shows crf ha h1 hl,
    fun _ _ ha h1 h0 hl => peerDead_shows ha h1 h0 hl⟩
  · obtain ⟨t, next, shown, counted⟩ := heartbeatRx_valid (dt := dt) (path := .pin) hh ht
    exact ⟨t, next, shown.ok, shown.alive, shown.duty, shown.fwd, shown.heard, shown.valid, shown.epoch, counted⟩
  · obtain ⟨t, next, shown, counted⟩ := heartbeatRx_valid (dt := dt) ho ht
    exact ⟨t, next, shown.ok, shown.alive, shown.duty, shown.fwd, shown.heard, shown.valid, shown.epoch, counted⟩

end Sys2Proof.Machine
end

/-! ### Bits of fields -/

section
namespace Sys2Proof.Machine

theorem bitOf_eq_testBit (v i : Nat) : bitOf v i = v.testBit i := by
  rw [bitOf, Nat.testBit_eq_decide_div_mod_eq]

theorem bitOf_mod {v n i : Nat} (h : i < n) : bitOf (v % 2 ^ n) i = bitOf v i := by
  rw [bitOf_eq_testBit, bitOf_eq_testBit, Nat.testBit_mod_two_pow, decide_eq_true h, Bool.true_and]

@[simp] theorem bitOf_or (v w i : Nat) : bitOf (v ||| w) i = (bitOf v i || bitOf w i) := by
  rw [bitOf_eq_testBit, bitOf_eq_testBit, bitOf_eq_testBit, Nat.testBit_lor]

@[simp] theorem bitOf_xor (v w i : Nat) : bitOf (v ^^^ w) i = (bitOf v i != bitOf w i) := by
  rw [bitOf_eq_testBit, bitOf_eq_testBit, bitOf_eq_testBit, Nat.testBit_xor]

@[simp] theorem bitOf_two_pow (d i : Nat) : bitOf (2 ^ d) i = decide (d = i) := by rw [bitOf_eq_testBit, Nat.testBit_two_pow]

@[simp] theorem bitOf_zero (i : Nat) : bitOf 0 i = false := by rw [bitOf_eq_testBit, Nat.zero_testBit]

theorem bitOf_eq_bitsOf (v i : Nat) : bitOf v i = decide (bitsOf v i 1 = 1) := by rw [bitOf, bitsOf, pow_one]

/-- One bit written: it reads so, and the others read as before. -/
theorem bitOf_setBits (v d i : Nat) (on : Bool) : bitOf (setBits v d 1 (b2n on)) i = if i = d then on else bitOf v i := by
  rcases Nat.lt_trichotomy i d with below | same | above
  · rw [if_neg below.ne, bitOf_eq_bitsOf, bitOf_eq_bitsOf, bitsOf_setBits_below _ _ _ _ _ _ below]
  · rw [if_pos same, same, bitOf_eq_bitsOf, bitsOf_setBits_self]
    cases on <;> rfl
  · rw [if_neg above.ne', bitOf_eq_bitsOf, bitOf_eq_bitsOf, bitsOf_setBits_above _ _ _ _ _ _ above]

/-- A field written with a number reads that number's bits. -/
theorem State.bitOf_fld_setF (s : State) {f : Fld} (v : Nat) {i : Nat} (hf : f.lo + f.len ≤ 32) (hi : i < f.len) :
    bitOf ((s.setF f v).fld f) i = bitOf v i := by rw [State.fld_setF_self s f v hf, bitOf_mod hi]

/-- Bits set in a field in addition to those it shows. -/
theorem State.bitOf_fld_orF (s : State) {f : Fld} (v : Nat) {i : Nat} (hf : f.lo + f.len ≤ 32) (hi : i < f.len) :
    bitOf ((s.orF f v).fld f) i = (bitOf (s.fld f) i || bitOf v i) := by rw [State.orF, State.bitOf_fld_setF s _ hf hi, bitOf_or]

theorem State.fld_orF_of_apart (s : State) {f g : Fld} (v : Nat) (hf : f.lo + f.len ≤ 32) (h : f.apart g) : (s.orF f v).fld g = s.fld g :=
  State.fld_setF_of_apart s _ hf h

end Sys2Proof.Machine
end

/-! ### MEPs (R114 to R117) -/

section
namespace Sys2Proof.Machine

/-- What a change of a MEP's defects may show in. -/
def mepTouch (m : Nat) : Touch := { regs := (· ∈ [Reg.AV_MEP_STATUS m, Reg.AV_MEP_CHG (m / 32), Reg.AV_INT_STATUS]) }

/-- A change of a MEP is shown, and has raised MEP_CHG. -/
def State.mepChanged (s : State) (m : Nat) : Prop :=
  bitOf (s.fld (Fld.AV_MEP_CHG_MEPS (m / 32))) (m % 32) = true ∧ s.fld Fld.AV_INT_STATUS_MEP_CHG = 1

theorem mepStatus_ne_chg (m : Nat) : Reg.AV_MEP_STATUS m ≠ Reg.AV_MEP_CHG (m / 32) := by simp only [Reg.AV_MEP_STATUS, Reg.AV_MEP_CHG]; omega
theorem mepStatus_ne_int (m : Nat) : Reg.AV_MEP_STATUS m ≠ Reg.AV_INT_STATUS := by simp only [Reg.AV_MEP_STATUS, Reg.AV_INT_STATUS]; omega
theorem mepChg_ne_int (i : Nat) : Reg.AV_MEP_CHG i ≠ Reg.AV_INT_STATUS := by simp only [Reg.AV_MEP_CHG, Reg.AV_INT_STATUS]; omega

/-- The counters of a MEP are apart from that of the MSI-X messages. -/
theorem mepCtr_ne_msix (m o : Nat) : Ctr.mep m o ≠ Ctr.hi 0x20 := by simp only [Ctr.mep, Ctr.hi]; omega

section
variable (s : State) (m : Nat)

@[simp] theorem State.mep_begun (dt k : Nat) : (s.begun dt).mep k = s.mep k := by simp [State.mep]
@[simp] theorem State.mepDefs_begun (dt k : Nat) : (s.begun dt).mepDefs k = s.mepDefs k := State.fld_begun s dt _
@[simp] theorem State.mepActive_begun (dt k : Nat) : (s.begun dt).mepActive k = s.mepActive k := State.bit_begun s dt _
@[simp] theorem State.calHas_begun (dt task arg : Nat) : (s.begun dt).calHas task arg = s.calHas task arg := by simp [State.calHas]
@[simp] theorem State.mepServed_begun (dt k : Nat) : (s.begun dt).mepServed k = s.mepServed k := State.calHas_begun s dt _ _
@[simp] theorem State.mep_settle (s0 : State) (t : Time) (k : Nat) : (s.settle s0 t).mep k = s.mep k := by simp [State.mep]
@[simp] theorem State.mepDefs_settle (s0 : State) (t : Time) (k : Nat) : (s.settle s0 t).mepDefs k = s.mepDefs k := State.fld_settle s s0 t _

@[simp] theorem State.mep_setMep_self (x : Mep) : (s.setMep m x).mep m = x := by simp [State.mep, State.setMep, SMap.look_ins_self]
@[simp] theorem State.fld_setMep (x : Mep) (f : Fld) : (s.setMep m x).fld f = s.fld f := rfl
@[simp] theorem State.ctr_setMep (x : Mep) (a : Nat) : (s.setMep m x).ctr a = s.ctr a := rfl
@[simp] theorem State.mepDefs_setMep (x : Mep) (k : Nat) : (s.setMep m x).mepDefs k = s.mepDefs k := rfl
@[simp] theorem State.mepDefs_count (a n k : Nat) : (s.count a n).mepDefs k = s.mepDefs k := rfl
@[simp] theorem State.mep_count (a n k : Nat) : (s.count a n).mep k = s.mep k := rfl
@[simp] theorem State.ccm_setMep (x : Mep) : (s.setMep m x).av.ccm = s.av.ccm := rfl

theorem State.leaves_av (y : Anvil) (x : Touch) (h : .av ∈ x.parts) : s.leaves { s with av := y } x :=
  State.leaves_part s _ .av x h (fun j hj => by cases j <;> simp_all [Part.same]) rfl rfl rfl rfl rfl

theorem State.leaves_setMep (y : Mep) (x : Touch) (h : .av ∈ x.parts) : s.leaves (s.setMep m y) x := State.leaves_av s _ x h

/-- Defects set to new values are shown. -/
theorem State.mepSetDefs_of_ne {v : Nat} (h : s.mepDefs m ≠ v) : s.mepSetDefs m v =
    ((s.setF (Fld.AV_MEP_STATUS_DEF m) v).orF (Fld.AV_MEP_CHG_MEPS (m / 32)) (2 ^ (m % 32))).raise Fld.AV_INT_STATUS_MEP_CHG := if_neg h

theorem State.leaves_mepSetDefs (v : Nat) : s.leaves (s.mepSetDefs m v) (mepTouch m) :=
  State.leaves_ite _ (fun _ => State.leaves_refl s _) (fun _ => State.leaves_trans (State.leaves_trans
    (State.leaves_setF _ _ _ _ (by simp [mepTouch, Fld.AV_MEP_STATUS_DEF])) (State.leaves_orF _ _ _ _ (by simp [mepTouch, Fld.AV_MEP_CHG_MEPS])))
    (State.leaves_raise _ _ _ (by simp [mepTouch, Fld.AV_INT_STATUS_MEP_CHG])))

@[simp] theorem State.av_mepSetDefs (v : Nat) : (s.mepSetDefs m v).av = s.av := (State.leaves_mepSetDefs s m v).part (k := .av) (by simp [mepTouch])
@[simp] theorem State.mep_mepSetDefs (v k : Nat) : (s.mepSetDefs m v).mep k = s.mep k := by rw [State.mep, State.av_mepSetDefs, State.mep]

theorem State.mepDefs_mepSetDefs {v : Nat} (h : v < 2 ^ 7) : (s.mepSetDefs m v).mepDefs m = v := by
  by_cases same : s.mepDefs m = v
  · rw [State.mepSetDefs, if_pos same, same]
  · rw [State.mepSetDefs_of_ne s m same, State.mepDefs, State.fld_raise_ne _ _ _ (mepStatus_ne_int m), State.orF,
      State.fld_setF_ne _ _ _ _ (mepStatus_ne_chg m), State.fld_setF_self _ _ _ (by simp [Fld.AV_MEP_STATUS_DEF])]
    exact Nat.mod_eq_of_lt h

/-- A change of the defects is noted and raised. -/
theorem State.mepChanged_mepSetDefs {v : Nat} (h : s.mepDefs m ≠ v) : (s.mepSetDefs m v).mepChanged m := by
  rw [State.mepSetDefs_of_ne s m h]
  refine ⟨?_, State.fld_raise_self _ _ (by simp [Fld.AV_INT_STATUS_MEP_CHG]) (by simp [Fld.AV_INT_STATUS_MEP_CHG])⟩
  rw [State.fld_raise_ne _ _ _ (mepChg_ne_int _),
    State.bitOf_fld_orF _ _ (i := m % 32) (by simp [Fld.AV_MEP_CHG_MEPS]) (Nat.mod_lt m (by decide)), bitOf_two_pow, decide_eq_true rfl, Bool.or_true]

/-- A change that is shown stays so. -/
theorem State.mepChanged_mono (v : Nat) (h : s.mepChanged m) : (s.mepSetDefs m v).mepChanged m := by
  by_cases same : s.mepDefs m = v
  · rwa [State.mepSetDefs, if_pos same]
  · exact State.mepChanged_mepSetDefs s m same

/-! #### One defect -/

theorem State.leaves_mepDef (d : Nat) (on : Bool) : s.leaves (s.mepDef m d on) (mepTouch m) := State.leaves_mepSetDefs s m _

@[simp] theorem State.av_mepDef (d : Nat) (on : Bool) : (s.mepDef m d on).av = s.av := State.av_mepSetDefs s m _
@[simp] theorem State.mep_mepDef (d : Nat) (on : Bool) (k : Nat) : (s.mepDef m d on).mep k = s.mep k := State.mep_mepSetDefs s m _ k
@[simp] theorem State.ctr_mepDef (d : Nat) (on : Bool) (k o : Nat) : (s.mepDef m d on).ctr (Ctr.mep k o) = s.ctr (Ctr.mep k o) :=
  (State.leaves_mepDef s m d on).ctrOf (mepCtr_ne_msix k o) id

/-- The one bit is as written, and the others stay. -/
theorem State.bitOf_mepDef {d : Nat} (hd : d < 7) (on : Bool) (e : Nat) :
    bitOf ((s.mepDef m d on).mepDefs m) e = if e = d then on else bitOf (s.mepDefs m) e := by
  rw [State.mepDef, State.mepDefs_mepSetDefs s m (setBits_lt _ _ _ _ _ (s.fld_lt _) (by omega)), bitOf_setBits]

/-- A bit that changes is shown as a change. -/
theorem State.mepChanged_mepDef {d : Nat} {on : Bool} (h : bitOf (s.mepDefs m) d = !on) : (s.mepDef m d on).mepChanged m := by
  refine State.mepChanged_mepSetDefs s m (fun same => ?_)
  have written := bitOf_setBits (s.mepDefs m) d d on
  rw [← same, h, if_pos rfl] at written
  cases on <;> cases written

end

end Sys2Proof.Machine
end

/-! ### CCMs and the timers of MEPs (R116, R117) -/

section
namespace Sys2Proof.Machine

/-- The CCMs that still wait. -/
def State.ccmLeft (s : State) (w : List Ccm) : State := { s with av := { s.av with ccm := w } }
/-- A MEP notes the event of a defect, which is shown and counted. -/
def State.ccmDefect (s : State) (m d : Nat) (x : Mep) : State := ((s.setMep m x).mepDef m d true).count (Ctr.mep m 0x10) 1
/-- A MEP has had a valid CCM. -/
def Mep.heard (x : Mep) (now seq : Nat) : Mep := { x with valid := now, prev := some seq }
/-- A CCM's number is checked, and is not the one after the last (R116). -/
def State.ccmMisnumbered (s : State) (m : Nat) (c : Ccm) : Bool :=
  match (s.mep m).prev with
  | some n => bitOf ((s.mep m).w 0) 28 && decide (u32 c.bytes (c.parse.pay + 4) ≠ (n + 1) % 2 ^ 32)
  | none => false
/-- A valid CCM is counted, and counted once more where its number is not the one expected. -/
def State.ccmCounted (s : State) (m : Nat) (x : Mep) (wrong : Bool) : State :=
  let s1 := (s.setMep m x).count (Ctr.mep m 0x08) 1
  if wrong then s1.count (Ctr.mep m 0x18) 1 else s1
/-- A valid CCM of the expected interval ends LOC and shows its RDI. -/
def State.ccmValid (s : State) (m : Nat) (x : Mep) (wrong rdi : Bool) : State := ((s.ccmCounted m x wrong).mepDef m mLOC false).mepDef m mRDI rdi

def ccmTouch (m : Nat) : Touch :=
  { parts := [.av], regs := (mepTouch m).regs, ctrs := (· ∈ [Ctr.mep m 0x08, Ctr.mep m 0x10, Ctr.mep m 0x18]) }
def validCcmTouch (m : Nat) : Touch :=
  { parts := [.av], regs := (mepTouch m).regs, ctrs := (· ∈ [Ctr.mep m 0x08, Ctr.mep m 0x18]) }

section
variable (s : State) (m : Nat)

theorem State.leaves.ofMep {s t : State} {m : Nat} {x : Touch} (h : s.leaves t (mepTouch m)) (hx : ∀ a, (mepTouch m).regs a → x.regs a) : s.leaves t x :=
  h.mono (by simp [mepTouch]) hx (fun _ h => h.elim) (by simp [mepTouch]) (by simp [mepTouch])

theorem State.leaves_ccmLeft (w : List Ccm) (x : Touch) (h : .av ∈ x.parts) : s.leaves (s.ccmLeft w) x := State.leaves_av s _ x h

/-- What an event of a defect leaves behind. -/
theorem State.ccmDefect_shows {d : Nat} (hd : d < 7) (x : Mep) : bitOf ((s.ccmDefect m d x).mepDefs m) d = true ∧ (s.ccmDefect m d x).av.ccm = s.av.ccm ∧
    (s.ccmDefect m d x).ctr (Ctr.mep m 0x10) = (s.ctr (Ctr.mep m 0x10) + 1) % 2 ^ 64 ∧ (s.ccmDefect m d x).mep m = x := by
  unfold State.ccmDefect
  refine ⟨?_, ?_, ?_, ?_⟩
  · rw [State.mepDefs_count, State.bitOf_mepDef _ _ hd, if_pos rfl]
  · simp
  · rw [State.ctr_count_self, State.ctr_mepDef, State.ctr_setMep]
  · rw [State.mep_count, State.mep_mepDef, State.mep_setMep_self]

theorem State.leaves_ccmDefect (d : Nat) (x : Mep) : s.leaves (s.ccmDefect m d x) (ccmTouch m) :=
  State.leaves_trans (State.leaves_trans (State.leaves_setMep s m x _ (by simp [ccmTouch])) ((State.leaves_mepDef _ m d true).ofMep (fun _ h => h)))
    (State.leaves_count _ _ _ _ (by simp [ccmTouch]))

theorem State.leaves_ccmCounted (x : Mep) (wrong : Bool) : s.leaves (s.ccmCounted m x wrong) (validCcmTouch m) := by
  have counted := State.leaves_trans (State.leaves_setMep s m x (validCcmTouch m) (by simp [validCcmTouch]))
    (State.leaves_count _ (Ctr.mep m 0x08) 1 _ (by simp [validCcmTouch]))
  exact State.leaves_ite _ (fun _ => State.leaves_trans counted (State.leaves_count _ _ _ _ (by simp [validCcmTouch]))) (fun _ => counted)

theorem State.leaves_ccmValid (x : Mep) (wrong rdi : Bool) : s.leaves (s.ccmValid m x wrong rdi) (validCcmTouch m) :=
  State.leaves_trans (State.leaves_trans (State.leaves_ccmCounted s m x wrong) ((State.leaves_mepDef _ m _ _).ofMep (fun _ h => h)))
    ((State.leaves_mepDef _ m _ _).ofMep (fun _ h => h))

/-- What a valid CCM leaves in its MEP's record and counter. -/
theorem State.ccmCounted_shows (x : Mep) (wrong : Bool) : (s.ccmCounted m x wrong).mepDefs m = s.mepDefs m ∧ (s.ccmCounted m x wrong).av.ccm = s.av.ccm ∧
    (s.ccmCounted m x wrong).ctr (Ctr.mep m 0x08) = (s.ctr (Ctr.mep m 0x08) + 1) % 2 ^ 64 ∧ (s.ccmCounted m x wrong).mep m = x := by
  have apart : Ctr.mep m 0x08 ≠ Ctr.mep m 0x18 := by simp [Ctr.mep]
  unfold State.ccmCounted
  cases wrong
  · exact ⟨rfl, rfl, State.ctr_count_self _ _ _, State.mep_setMep_self s m x⟩
  · exact ⟨rfl, rfl, (State.ctr_count_ne _ _ _ _ apart).trans (State.ctr_count_self _ _ _), State.mep_setMep_self s m x⟩

theorem State.ccmValid_shows (x : Mep) (wrong rdi : Bool) (e : Nat) : bitOf ((s.ccmValid m x wrong rdi).mepDefs m) e =
      (if e = mRDI then rdi else if e = mLOC then false else bitOf (s.mepDefs m) e) ∧ (s.ccmValid m x wrong rdi).av.ccm = s.av.ccm ∧
    (s.ccmValid m x wrong rdi).ctr (Ctr.mep m 0x08) = (s.ctr (Ctr.mep m 0x08) + 1) % 2 ^ 64 ∧ (s.ccmValid m x wrong rdi).mep m = x := by
  obtain ⟨defs, ccm, counted, mep⟩ := State.ccmCounted_shows s m x wrong
  unfold State.ccmValid
  refine ⟨?_, by simp [ccm], by rw [State.ctr_mepDef, State.ctr_mepDef, counted], by rw [State.mep_mepDef, State.mep_mepDef, mep]⟩
  rw [State.bitOf_mepDef _ _ (by decide), State.bitOf_mepDef _ _ (by decide), defs]

/-! #### The four kinds of a CCM (R116) -/

variable {c : Ccm}

theorem State.ccmSee_level (h : u8 c.bytes c.parse.pay / 32 < (s.mep m).level) :
    s.ccmSee m c = s.ccmDefect m mUNL { s.mep m with unl := s.now } := if_pos h

theorem State.ccmSee_maid (hl : ¬ u8 c.bytes c.parse.pay / 32 < (s.mep m).level) (h : byteSlice c.bytes (c.parse.pay + 10) 48 ≠ (s.mep m).maid) :
    s.ccmSee m c = s.ccmDefect m mMMG { s.mep m with mmg := s.now } := (if_neg hl).trans (if_pos h)

theorem State.ccmSee_mepid (hl : ¬ u8 c.bytes c.parse.pay / 32 < (s.mep m).level) (ha : byteSlice c.bytes (c.parse.pay + 10) 48 = (s.mep m).maid)
    (h : u16 c.bytes (c.parse.pay + 8) % 8192 ≠ (s.mep m).rmepid) : s.ccmSee m c = s.ccmDefect m mUNM { s.mep m with unm := s.now } :=
  (if_neg hl).trans ((if_neg (not_not_intro ha)).trans (if_pos h))

theorem State.ccmSee_valid (hl : ¬ u8 c.bytes c.parse.pay / 32 < (s.mep m).level) (ha : byteSlice c.bytes (c.parse.pay + 10) 48 = (s.mep m).maid)
    (hr : u16 c.bytes (c.parse.pay + 8) % 8192 = (s.mep m).rmepid) (hp : u8 c.bytes (c.parse.pay + 2) % 8 = (s.mep m).code) (ht : c.parse.tags = []) :
    s.ccmSee m c = s.ccmValid m ((s.mep m).heard s.now (u32 c.bytes (c.parse.pay + 4))) (s.ccmMisnumbered m c)
      (bitOf (u8 c.bytes (c.parse.pay + 2)) 7) := by
  rw [State.ccmSee]
  dsimp only
  rw [if_neg hl, if_neg (not_not_intro ha), if_neg (not_not_intro hr)]
  simp only [hp, ht, ne_eq, not_true_eq_false, decide_false, List.isEmpty_nil, Bool.not_true, Bool.and_false, Bool.false_and, Bool.or_false,
    Bool.false_eq_true, if_false]
  rfl

end

/-! #### The commands -/

section
variable {s : State} {dt m : Nat}

/-- The CCM that waits longest, of an active MEP that is served, is examined and waits no longer. -/
theorem State.ccmExamine_head {c : Ccm} {w : List Ccm} (hq : s.av.ccm = c :: w) (hc : c.mep = m) (ha : s.mepActive m = true) (hs : s.mepServed m = true) :
    s.ccmExamine m = (s.ccmLeft w).ccmSee m c := by
  simp [State.ccmExamine, hq, firstIdx, hc, ha, hs, State.ccmLeft]

/-- A CCM of a MEP that is not served goes unexamined. -/
theorem State.ccmExamine_unserved {c : Ccm} {w : List Ccm} (hq : s.av.ccm = c :: w) (hc : c.mep = m) (hs : s.mepServed m = false) :
    s.ccmExamine m = s.ccmLeft w := by
  simp [State.ccmExamine, hq, firstIdx, hc, hs, State.ccmLeft]

theorem firstIdx_none {α : Type} (f : α → Bool) {l : List α} (h : ∀ x ∈ l, f x = false) : firstIdx f l = none := by
  induction l with
  | nil => rfl
  | cons x l ih => simp [firstIdx, h x (List.mem_cons_self ..), ih (fun y hy => h y (List.mem_cons_of_mem _ hy))]

theorem State.ccmExamine_none (h : ∀ c ∈ s.av.ccm, c.mep ≠ m) : s.ccmExamine m = s := by
  rw [State.ccmExamine, firstIdx_none _ (fun c hc => decide_eq_false (h c hc))]

/-- What the examination of the CCM that waits longest leaves is what is told of the state in which it waits no longer. -/
theorem ccmExamine_sees {c : Ccm} {w : List Ccm} {u g : State} {x : Touch} (hm : m < 4096) (hu : s.mainUp = true) (hq : s.av.ccm = c :: w)
    (hc : c.mep = m) (ha : s.mepActive m = true) (hs : s.calHas 3 (m / 16) = true) (hw : (s.begun dt).ccmLeft w = u)
    (hg : u.ccmSee m c = g) (h : u.leaves g x) (hx : .av ∈ x.parts) :
    exec (.ccmExamine dt m) s = .next (g.settle s (s.begun dt).time) ∧ (s.begun dt).frame (g.settle s (s.begun dt).time) x := by
  subst hw
  exact exec_main_touches rfl (decide_eq_true hm) hu
    ((State.ccmExamine_head (by simpa using hq) hc (by simpa using ha) (by rwa [State.mepServed_begun])).trans hg)
    (State.leaves_trans (State.leaves_ccmLeft _ w x hx) h)

/-- A CCM that tells of a defect counts as its event (R116). -/
theorem ccmExamine_defect {c : Ccm} {w : List Ccm} {d : Nat} {x : Mep} (hm : m < 4096) (hu : s.mainUp = true) (hq : s.av.ccm = c :: w)
    (hc : c.mep = m) (ha : s.mepActive m = true) (hs : s.calHas 3 (m / 16) = true) (hd : d < 7)
    (hg : ((s.begun dt).ccmLeft w).ccmSee m c = ((s.begun dt).ccmLeft w).ccmDefect m d x) (hx : x.valid = (s.mep m).valid) :
    ∃ t, exec (.ccmExamine dt m) s = .next t ∧ bitOf (t.mepDefs m) d = true ∧ t.av.ccm = w ∧
      t.ctr (Ctr.mep m 0x10) = (s.ctr (Ctr.mep m 0x10) + 1) % 2 ^ 64 ∧ (t.mep m).valid = (s.mep m).valid := by
  obtain ⟨next, -⟩ := ccmExamine_sees hm hu hq hc ha hs rfl hg (State.leaves_ccmDefect _ m d x) (by simp [ccmTouch])
  obtain ⟨shown, left, counted, mep⟩ := State.ccmDefect_shows ((s.begun dt).ccmLeft w) m hd x
  refine ⟨_, next, by rw [State.mepDefs_settle, shown], by rw [State.settle_av, left]; rfl, ?_, by rw [State.mep_settle, mep, hx]⟩
  rw [State.ctr_settle _ _ _ _ (mepCtr_ne_msix m _), counted]
  exact congrArg (fun n => (n + 1) % 2 ^ 64) (State.ctr_begun s dt _)

/-- A valid CCM of the expected interval (R116). -/
theorem ccmExamine_valid {c : Ccm} {w : List Ccm} (hm : m < 4096) (hu : s.mainUp = true) (hq : s.av.ccm = c :: w) (hc : c.mep = m)
    (ha : s.mepActive m = true) (hs : s.calHas 3 (m / 16) = true) (hl : ¬ u8 c.bytes c.parse.pay / 32 < (s.mep m).level)
    (hi : byteSlice c.bytes (c.parse.pay + 10) 48 = (s.mep m).maid) (hr : u16 c.bytes (c.parse.pay + 8) % 8192 = (s.mep m).rmepid)
    (hp : u8 c.bytes (c.parse.pay + 2) % 8 = (s.mep m).code) (ht : c.parse.tags = []) :
    ∃ t, exec (.ccmExamine dt m) s = .next t ∧ bitOf (t.mepDefs m) mLOC = false ∧
      bitOf (t.mepDefs m) mRDI = bitOf (u8 c.bytes (c.parse.pay + 2)) 7 ∧ t.av.ccm = w ∧
      t.ctr (Ctr.mep m 0x08) = (s.ctr (Ctr.mep m 0x08) + 1) % 2 ^ 64 ∧ (t.mep m).valid = s.now + dt ∧
      (t.mep m).prev = some (u32 c.bytes (c.parse.pay + 4)) ∧
      (∀ d, 2 ≤ d → d < 7 → bitOf (t.mepDefs m) d = bitOf (s.mepDefs m) d) ∧
      (s.begun dt).frame t { parts := [.av], regs := (· ∈ [Reg.AV_MEP_STATUS m, Reg.AV_MEP_CHG (m / 32), Reg.AV_INT_STATUS]),
                             ctrs := (· ∈ [Ctr.mep m 0x08, Ctr.mep m 0x18]) } := by
  have mep : ((s.begun dt).ccmLeft w).mep m = s.mep m := State.mep_begun s dt m
  have now : ((s.begun dt).ccmLeft w).now = s.now + dt := State.now_begun s dt
  have defs : ((s.begun dt).ccmLeft w).mepDefs m = s.mepDefs m := State.mepDefs_begun s dt m
  have ctr : ((s.begun dt).ccmLeft w).ctr (Ctr.mep m 0x08) = s.ctr (Ctr.mep m 0x08) := State.ctr_begun s dt _
  have waits : ((s.begun dt).ccmLeft w).av.ccm = w := rfl
  generalize hw : (s.begun dt).ccmLeft w = u at mep now defs ctr waits
  have sees := State.ccmSee_valid u m (c := c) (by rwa [mep]) (by rwa [mep]) (by rwa [mep]) (by rwa [mep]) ht
  rw [mep, now] at sees
  obtain ⟨next, frame⟩ := ccmExamine_sees (x := validCcmTouch m) hm hu hq hc ha hs hw sees (State.leaves_ccmValid u m _ _ _) (by simp [validCcmTouch])
  have shown := State.ccmValid_shows u m ((s.mep m).heard (s.now + dt) (u32 c.bytes (c.parse.pay + 4))) (u.ccmMisnumbered m c)
    (bitOf (u8 c.bytes (c.parse.pay + 2)) 7)
  obtain ⟨-, left, counted, seen⟩ := shown 0
  refine ⟨_, next, by rw [State.mepDefs_settle, (shown mLOC).1]; rfl, by rw [State.mepDefs_settle, (shown mRDI).1]; rfl,
    by rw [State.settle_av, left, waits], by rw [State.ctr_settle _ _ _ _ (mepCtr_ne_msix m _), counted, ctr], by rw [State.mep_settle, seen]; rfl,
    by rw [State.mep_settle, seen]; rfl, fun d h2 _ => ?_, frame⟩
  rw [State.mepDefs_settle, (shown d).1, if_neg (by simp only [mRDI]; omega), if_neg (by simp only [mLOC]; omega), defs]

theorem ccmExamine_still (hm : m < 4096) (hu : s.mainUp = true) (h : ∀ c ∈ s.av.ccm, c.mep ≠ m) :
    ∃ t, exec (.ccmExamine dt m) s = .next t ∧ (s.begun dt).frame t {} :=
  ⟨_, exec_main_touches rfl (decide_eq_true hm) hu (State.ccmExamine_none (by simpa using h)) (State.leaves_refl _ _)⟩

/-- LOC comes T after the last valid CCM, and takes RDI with it (R117). -/
theorem mepLoc_due (hm : m < 4096) (hu : s.mainUp = true) (ha : s.mepActive m = true) (hs : s.calHas 3 (m / 16) = true)
    (hl : bitOf (s.mepDefs m) mLOC = false) (hd : (s.mep m).valid + (s.mep m).t ≤ s.now + dt) :
    ∃ t, exec (.mepLoc dt m) s = .next t ∧ bitOf (t.mepDefs m) mLOC = true ∧ bitOf (t.mepDefs m) mRDI = false ∧ (t.mep m).prev = none ∧
      (∀ d, 2 ≤ d → d < 7 → bitOf (t.mepDefs m) d = bitOf (s.mepDefs m) d) ∧ bitOf (t.fld (Fld.AV_MEP_CHG_MEPS (m / 32))) (m % 32) = true ∧
      t.fld Fld.AV_INT_STATUS_MEP_CHG = 1 ∧
      (s.begun dt).frame t { parts := [.av], regs := (· ∈ [Reg.AV_MEP_STATUS m, Reg.AV_MEP_CHG (m / 32), Reg.AV_INT_STATUS]) } := by
  generalize hv : (s.begun dt).setMep m { s.mep m with prev := none } = v
  have defs : v.mepDefs m = s.mepDefs m := hv ▸ State.mepDefs_begun s dt m
  have act : (s.begun dt).mepLocDue m = (v.mepDef m mLOC true).mepDef m mRDI false := by
    rw [← hv, State.mepLocDue, if_pos ⟨by simpa using ha, by rwa [State.mepServed_begun], by simpa using hl, by simpa using hd⟩, State.mep_begun]
  have bits (e : Nat) : bitOf (((v.mepDef m mLOC true).mepDef m mRDI false).mepDefs m) e =
      if e = mRDI then false else if e = mLOC then true else bitOf (s.mepDefs m) e := by
    rw [State.bitOf_mepDef _ _ (by decide), State.bitOf_mepDef _ _ (by decide), defs]
  obtain ⟨shown, raised⟩ := State.mepChanged_mono _ m (setBits ((v.mepDef m mLOC true).mepDefs m) mRDI 1 (b2n false))
    (State.mepChanged_mepDef v m (d := mLOC) (on := true) (by rw [defs, hl]; rfl))
  obtain ⟨next, frame⟩ := exec_main_touches (c := .mepLoc dt m)
    (x := { parts := [.av], regs := (· ∈ [Reg.AV_MEP_STATUS m, Reg.AV_MEP_CHG (m / 32), Reg.AV_INT_STATUS]) }) rfl (decide_eq_true hm) hu act
    (State.leaves_trans (hv ▸ State.leaves_setMep _ m _ _ (by simp))
      (State.leaves_trans ((State.leaves_mepDef _ m _ _).ofMep (fun _ h => h)) ((State.leaves_mepDef _ m _ _).ofMep (fun _ h => h))))
  refine ⟨_, next, by rw [State.mepDefs_settle, bits]; rfl, by rw [State.mepDefs_settle, bits]; rfl, ?_, fun d h2 _ => ?_,
    by rw [State.fld_settle]; exact shown, by rw [State.fld_settle]; exact raised, frame⟩
  · rw [State.mep_settle, State.mep_mepDef, State.mep_mepDef, ← hv, State.mep_setMep_self]
  · rw [State.mepDefs_settle, bits, if_neg (by simp only [mRDI]; omega), if_neg (by simp only [mLOC]; omega)]

/-- A defect ends T after its last event (R117). -/
theorem mepDefectClear_due {d : Nat} (hm : m < 4096) (h2 : 2 ≤ d) (h7 : d < 7) (hu : s.mainUp = true) (ha : s.mepActive m = true)
    (hs : s.calHas 3 (m / 16) = true) (hb : bitOf (s.mepDefs m) d = true) (hd : (s.mep m).eventAt d + (s.mep m).t ≤ s.now + dt) :
    ∃ t, exec (.mepDefectClear dt m d) s = .next t ∧ (∀ e, e < 7 → bitOf (t.mepDefs m) e = (bitOf (s.mepDefs m) e && !decide (e = d))) ∧
      t.fld Fld.AV_INT_STATUS_MEP_CHG = 1 ∧
      (s.begun dt).frame t { regs := (· ∈ [Reg.AV_MEP_STATUS m, Reg.AV_MEP_CHG (m / 32), Reg.AV_INT_STATUS]) } := by
  have act : (s.begun dt).mepClearDue m d = (s.begun dt).mepDef m d false :=
    if_pos ⟨by simpa using ha, by rwa [State.mepServed_begun], h2, by omega, by simpa using hb, by simpa using hd⟩
  obtain ⟨-, raised⟩ := State.mepChanged_mepDef (s.begun dt) m (d := d) (on := false) (by rw [State.mepDefs_begun, hb]; rfl)
  obtain ⟨next, frame⟩ := exec_main_touches (c := .mepDefectClear dt m d) (x := mepTouch m) rfl
    (by rw [Instr.wellFormed, decide_eq_true hm, decide_eq_true h7]; rfl) hu act (State.leaves_mepDef _ m d false)
  refine ⟨_, next, fun e _ => ?_, by rw [State.fld_settle, raised], frame⟩
  rw [State.mepDefs_settle, State.bitOf_mepDef _ _ h7, State.mepDefs_begun]
  split_ifs with same <;> simp [same]

/-- A command on a MEP's timers that finds nothing due changes nothing. -/
theorem mepDefectClear_still {d : Nat} (hm : m < 4096) (h7 : d < 7) (hu : s.mainUp = true)
    (h : s.calHas 3 (m / 16) = false ∨ s.now + dt < (s.mep m).eventAt d + (s.mep m).t) :
    ∃ t, exec (.mepDefectClear dt m d) s = .next t ∧ (s.begun dt).frame t {} := by
  refine ⟨_, exec_main_touches rfl (by rw [Instr.wellFormed, decide_eq_true hm, decide_eq_true h7]; rfl) hu (if_neg ?_) (State.leaves_refl _ _)⟩
  rintro ⟨-, served, -, -, -, due⟩
  rw [State.mepServed_begun, State.mepServed] at served
  rw [State.mep_begun, State.now_begun] at due
  rcases h with unserved | early
  · rw [unserved] at served
    cases served
  · omega

theorem mepLoc_unserved (hm : m < 4096) (hu : s.mainUp = true) (hs : s.calHas 3 (m / 16) = false) :
    ∃ t, exec (.mepLoc dt m) s = .next t ∧ (s.begun dt).frame t {} := by
  refine ⟨_, exec_main_touches rfl (decide_eq_true hm) hu (if_neg ?_) (State.leaves_refl _ _)⟩
  rintro ⟨-, served, -⟩
  rw [State.mepServed_begun, State.mepServed, hs] at served
  cases served

theorem ccmExamine_unserved {c : Ccm} {w : List Ccm} (hm : m < 4096) (hu : s.mainUp = true) (hs : s.calHas 3 (m / 16) = false)
    (hq : s.av.ccm = c :: w) (hc : c.mep = m) :
    ∃ t, exec (.ccmExamine dt m) s = .next t ∧ t.av = { s.av with ccm := w } ∧ (s.begun dt).frame t { parts := [.av] } := by
  obtain ⟨next, frame⟩ := exec_main_touches (x := { parts := [.av] }) (c := .ccmExamine dt m) rfl (decide_eq_true hm) hu
    (State.ccmExamine_unserved (by simpa using hq) hc (by rwa [State.mepServed_begun])) (State.leaves_ccmLeft _ w _ (by simp))
  exact ⟨_, next, by rw [State.settle_av, State.ccmLeft, State.begun_av], frame⟩

end

/-- Settles O33: each kind of CCM by what `State.ccmSee` makes of it, the timers by `State.mepDef`. -/
theorem ccmEvents : Obligations.CcmEvents := by
  refine ⟨fun s dt m c w hm hu hq hc ha hs => ⟨fun hl => ?_, fun hl hi => ?_, fun hl hi hr => ?_, fun hl hi hr hp ht => ?_⟩,
    fun _ _ _ hm hu h => ccmExamine_still hm hu h, fun _ _ _ hm hu ha hs hl hd => mepLoc_due hm hu ha hs hl hd,
    fun _ _ _ _ hm h2 h7 hu ha hs hb => ⟨mepDefectClear_due hm h2 h7 hu ha hs hb, fun early => mepDefectClear_still hm h7 hu (.inr early)⟩,
    fun _ _ _ _ hm _ h7 hu hs => ⟨mepLoc_unserved hm hu hs, mepDefectClear_still hm h7 hu (.inl hs),
      fun _ _ hq hc => ccmExamine_unserved hm hu hs hq hc⟩⟩
  all_goals have mep : ((s.begun dt).ccmLeft w).mep m = s.mep m := State.mep_begun s dt m
  · exact ccmExamine_defect hm hu hq hc ha hs (by decide) (State.ccmSee_level _ m (by rwa [mep])) (by rw [mep])
  · exact ccmExamine_defect hm hu hq hc ha hs (by decide) (State.ccmSee_maid _ m (by rwa [mep]) (by rwa [mep])) (by rw [mep])
  · exact ccmExamine_defect hm hu hq hc ha hs (by decide) (State.ccmSee_mepid _ m (by rwa [mep]) (by rwa [mep]) (by rwa [mep])) (by rw [mep])
  · exact ccmExamine_valid hm hu hq hc ha hs hl hi hr hp ht

end Sys2Proof.Machine
end

/-! ### Enabling, disabling and serving MEPs (R114, R115) -/

section
namespace Sys2Proof.Machine

/-- An entry of another key stays in a map. -/
theorem SMap.mem_ins_of_ne {α : Type} {m : SMap α} {k : Nat} {v : α} {e : Nat × α} (h : e ∈ m) (hk : e.1 ≠ k) : e ∈ SMap.ins m k v := by
  induction m with
  | nil => cases h
  | cons x t ih =>
    rw [SMap.ins]
    split_ifs with below same
    · exact List.mem_cons_of_mem _ h
    · rcases List.mem_cons.1 h with rfl | later
      · exact absurd same hk
      · exact List.mem_cons_of_mem _ later
    · rcases List.mem_cons.1 h with rfl | later
      · exact List.mem_cons_self ..
      · exact List.mem_cons_of_mem _ (ih later)

/-- A fold in which one element alone does something does that once. -/
theorem List.foldl_of_only {α β : Type} {f : β → α → β} {l : List α} (hl : l.Nodup) {i : α} (hi : i ∈ l) {s t : β} (h : f s i = t)
    (hs : ∀ j ∈ l, j ≠ i → f s j = s) (ht : ∀ j ∈ l, j ≠ i → f t j = t) : l.foldl f s = t := by
  have still {b : β} : ∀ l' : List α, (∀ j ∈ l', f b j = b) → l'.foldl f b = b := fun l' => by
    induction l' with
    | nil => exact fun _ => rfl
    | cons j l' ih => exact fun k => by rw [List.foldl_cons, k j (List.mem_cons_self ..), ih (fun j' h' => k j' (List.mem_cons_of_mem _ h'))]
  obtain ⟨before, after, rfl⟩ := List.append_of_mem hi
  obtain ⟨-, apart, disjoint⟩ := List.nodup_append.1 hl
  have notBefore : ∀ j ∈ before, j ≠ i := fun j hj => disjoint j hj i (List.mem_cons_self ..)
  have notAfter : ∀ j ∈ after, j ≠ i := fun j hj e => (List.nodup_cons.1 apart).1 (e ▸ hj)
  rw [List.foldl_append, List.foldl_cons, still before (fun j hj => hs j (by simp [hj]) (notBefore j hj)), h,
    still after (fun j hj => ht j (by simp [hj]) (notAfter j hj))]

section
variable (s : State) (m : Nat)

@[simp] theorem State.mep_setF (f : Fld) (v k : Nat) : (s.setF f v).mep k = s.mep k := by rw [State.mep, State.setF_av, State.mep]
@[simp] theorem State.mepWords_begun (dt k : Nat) : (s.begun dt).mepWords k = s.mepWords k := by simp [State.mepWords]

/-- A MEP's record as its words now have it. -/
def State.mepRecord (s : State) (m : Nat) : Mep := { s.mep m with cfg := s.mepWords m }
@[simp] theorem State.mepRecord_begun (dt k : Nat) : (s.begun dt).mepRecord k = s.mepRecord k := by simp [State.mepRecord]

/-- A lower MEP has the key of a record. -/
def State.keyTaken (s : State) (m : Nat) (x : Mep) : Prop := ∃ e ∈ s.av.meps, e.1 < m ∧ e.2.port = x.port ∧ e.2.vid = x.vid

/-- The search for a lower MEP of the same key, which finds it whether or not the MEP's own record is in place. -/
theorem State.keyTaken_iff (x : Mep) :
    ((s.setMep m x).av.meps.any (fun e => decide (e.1 < m) && decide (e.2.port = x.port) && decide (e.2.vid = x.vid))) = true ↔ s.keyTaken m x := by
  simp only [List.any_eq_true, Bool.and_eq_true, decide_eq_true_eq, and_assoc, State.keyTaken]
  constructor
  · rintro ⟨e, he, lower, key⟩
    rcases SMap.mem_ins _ _ _ _ he with rfl | he
    · exact absurd lower (lt_irrefl m)
    · exact ⟨e, he, lower, key⟩
  · rintro ⟨e, he, lower, key⟩
    exact ⟨e, SMap.mem_ins_of_ne he lower.ne, lower, key⟩

/-- A MEP that becomes active: its first CCM is one period away, and nothing has been heard. -/
def Mep.started (x : Mep) (now : Nat) : Mep := ⟨x.cfg, now, now + x.period, 0, none, now, now, now, now, now, now⟩

theorem mepPeriod_pos (code : Nat) : 0 < mepPeriod code := by
  unfold mepPeriod
  split_ifs <;> decide

/-- A MEP that has become active, before its RDI is shown. -/
def State.mepStart (s : State) (m : Nat) (x : Mep) : State :=
  (((s.setMep m x).setReg (Reg.AV_MEP_STATUS m) 0).setF (Fld.AV_MEP_STATUS_ACTIVE m) 1).setMep m (x.started s.now)
theorem State.leaves_mepStart (x : Mep) (v : Nat) :
    s.leaves ((s.mepStart m x).setF (Fld.AV_MEP_STATUS_RDI_TX m) v) { parts := [.av], regs := (· = Reg.AV_MEP_STATUS m) } :=
  State.leaves_trans (State.leaves_setMep s m x _ (by simp)) (State.leaves_trans (State.leaves_setReg _ _ _ _ rfl)
    (State.leaves_trans (State.leaves_setF _ _ _ _ rfl) (State.leaves_trans (State.leaves_setMep _ m _ _ (by simp)) (State.leaves_setF _ _ _ _ rfl))))

/-- A MEP kept out by a clash of keys. -/
def State.mepKeptOut (s : State) (m : Nat) (ws : List Word) : State :=
  ((((s.setMep m (s.mepRecord m)).mepSetDefs m 0).setReg (Reg.AV_MEP_STATUS m) 0).setF (Fld.AV_MEP_STATUS_KEY_CLASH m) 1).setMep m
    { Mep.reset with cfg := ws }

/-- The record of an enabled MEP of its own key comes into effect; one that was active has its next CCM no later than one new period from now. -/
def State.mepInForce (s : State) (m : Nat) : State :=
  let x := s.mepRecord m
  if (s.setMep m x).mepActive m then (s.setMep m x).setMep m { x with nextTx := min x.nextTx (s.now + x.period) } else s.mepStart m x

/-- A MEP whose next CCM is not due yet sends none. -/
theorem State.mepSend_early (h : s.now < (s.mep m).nextTx) : s.mepSend m = s := if_neg (by omega)

variable (he : s.fld (Fld.AV_MEP_CFG_EN m) = 1)
include he

/-- The service of an enabled MEP (R115). -/
theorem State.mepServe_enabled : s.mepServe m =
    if ((s.setMep m (s.mepRecord m)).av.meps.any (fun e => decide (e.1 < m) && decide (e.2.port = (s.mepRecord m).port) &&
      decide (e.2.vid = (s.mepRecord m).vid))) = true then s.mepKeptOut m (s.mepWords m)
    else ((s.mepInForce m).setF (Fld.AV_MEP_STATUS_RDI_TX m) (b2n ((s.mepInForce m).mepRdi m))).mepSend m := by
  rw [State.mepServe, if_pos (by rw [State.bit, he]; rfl)]
  dsimp only
  rw [State.mep_setMep_self]
  rfl

/-- One that is not active and has a key of its own becomes active, and its first CCM is not due yet. -/
theorem State.mepServe_starts (ha : s.fld (Fld.AV_MEP_STATUS_ACTIVE m) = 0) (hk : ¬ s.keyTaken m (s.mepRecord m)) :
    ∃ b, s.mepServe m = (s.mepStart m (s.mepRecord m)).setF (Fld.AV_MEP_STATUS_RDI_TX m) (b2n b) := by
  have starts : s.mepInForce m = s.mepStart m (s.mepRecord m) := if_neg (by rw [State.mepActive, State.bit, State.fld_setMep, ha]; decide)
  refine ⟨(s.mepStart m (s.mepRecord m)).mepRdi m, ?_⟩
  rw [State.mepServe_enabled s m he, if_neg (fun c => hk ((State.keyTaken_iff s m _).1 c)), starts]
  refine State.mepSend_early _ m ?_
  have started (v : Nat) : ((s.mepStart m (s.mepRecord m)).setF (Fld.AV_MEP_STATUS_RDI_TX m) v).mep m = (s.mepRecord m).started s.now :=
    by rw [State.mep_setF, State.mepStart, State.mep_setMep_self]
  rw [started]
  rw [(State.leaves_mepStart s m _ _).now (by simp)]
  exact Nat.lt_add_of_pos_right (mepPeriod_pos _)

theorem State.mepServe_clashes (hk : s.keyTaken m (s.mepRecord m)) : s.mepServe m = s.mepKeptOut m (s.mepWords m) :=
  (State.mepServe_enabled s m he).trans (if_pos ((State.keyTaken_iff s m _).2 hk))

end

/-- A MEP that is not enabled, and of which nothing is kept, takes no part in the service. -/
theorem State.mepServe_absent {s : State} {k : Nat} (he : s.fld (Fld.AV_MEP_CFG_EN k) = 0) (hl : SMap.look s.av.meps k = none) : s.mepServe k = s := by
  rw [State.mepServe, if_neg (by rw [State.bit, he]; decide), hl]
  rfl

/-! #### What is left of each -/

/-! The fields of a MEP's status word lie apart. -/

theorem mepRdiTx_apart_active (m : Nat) : (Fld.AV_MEP_STATUS_RDI_TX m).apart (Fld.AV_MEP_STATUS_ACTIVE m) := by
  simp [Fld.apart, Fld.AV_MEP_STATUS_RDI_TX, Fld.AV_MEP_STATUS_ACTIVE]
theorem mepRdiTx_apart_clash (m : Nat) : (Fld.AV_MEP_STATUS_RDI_TX m).apart (Fld.AV_MEP_STATUS_KEY_CLASH m) := by
  simp [Fld.apart, Fld.AV_MEP_STATUS_RDI_TX, Fld.AV_MEP_STATUS_KEY_CLASH]
theorem mepActive_apart_clash (m : Nat) : (Fld.AV_MEP_STATUS_ACTIVE m).apart (Fld.AV_MEP_STATUS_KEY_CLASH m) := by
  simp [Fld.apart, Fld.AV_MEP_STATUS_ACTIVE, Fld.AV_MEP_STATUS_KEY_CLASH]
theorem mepRdiTx_apart_defs (m : Nat) : (Fld.AV_MEP_STATUS_RDI_TX m).apart (Fld.AV_MEP_STATUS_DEF m) := by
  simp [Fld.apart, Fld.AV_MEP_STATUS_RDI_TX, Fld.AV_MEP_STATUS_DEF]
theorem mepActive_apart_defs (m : Nat) : (Fld.AV_MEP_STATUS_ACTIVE m).apart (Fld.AV_MEP_STATUS_DEF m) := by
  simp [Fld.apart, Fld.AV_MEP_STATUS_ACTIVE, Fld.AV_MEP_STATUS_DEF]
theorem mepClash_apart_active (m : Nat) : (Fld.AV_MEP_STATUS_KEY_CLASH m).apart (Fld.AV_MEP_STATUS_ACTIVE m) := by
  simp [Fld.apart, Fld.AV_MEP_STATUS_KEY_CLASH, Fld.AV_MEP_STATUS_ACTIVE]
theorem mepClash_apart_defs (m : Nat) : (Fld.AV_MEP_STATUS_KEY_CLASH m).apart (Fld.AV_MEP_STATUS_DEF m) := by
  simp [Fld.apart, Fld.AV_MEP_STATUS_KEY_CLASH, Fld.AV_MEP_STATUS_DEF]

/-- What the service of a MEP touches. -/
def serveTouch (m : Nat) : Touch := { parts := [.av], regs := (mepTouch m).regs }

section
variable (s : State) (m : Nat)

theorem State.fld_setReg_zero {f : Fld} {a : Nat} (h : f.addr = a) : (s.setReg a 0).fld f = 0 := by
  rw [State.fld, h, State.reg_setReg_self]
  simp [bitsOf]

/-- What the start of a MEP shows, whatever RDI it sends. -/
theorem State.mepStart_shows (x : Mep) (v : Nat) :
    let t := (s.mepStart m x).setF (Fld.AV_MEP_STATUS_RDI_TX m) v
    t.fld (Fld.AV_MEP_STATUS_ACTIVE m) = 1 ∧ t.fld (Fld.AV_MEP_STATUS_KEY_CLASH m) = 0 ∧ t.mepDefs m = 0 ∧ t.mep m = x.started s.now ∧
      s.leaves t { parts := [.av], regs := (· = Reg.AV_MEP_STATUS m) } := by
  have zero (f : Fld) (h : f.addr = Reg.AV_MEP_STATUS m) : ((s.setMep m x).setReg (Reg.AV_MEP_STATUS m) 0).fld f = 0 := State.fld_setReg_zero _ h
  refine ⟨?_, ?_, ?_, by rw [State.mep_setF, State.mepStart, State.mep_setMep_self], ?_⟩
  · rw [State.fld_setF_of_apart _ _ (by simp [Fld.AV_MEP_STATUS_RDI_TX]) (mepRdiTx_apart_active m), State.mepStart, State.fld_setMep,
      State.fld_setF_self _ _ _ (by simp [Fld.AV_MEP_STATUS_ACTIVE])]
    rfl
  · rw [State.fld_setF_of_apart _ _ (by simp [Fld.AV_MEP_STATUS_RDI_TX]) (mepRdiTx_apart_clash m), State.mepStart, State.fld_setMep,
      State.fld_setF_of_apart _ _ (by simp [Fld.AV_MEP_STATUS_ACTIVE]) (mepActive_apart_clash m), zero _ rfl]
  · rw [State.mepDefs, State.fld_setF_of_apart _ _ (by simp [Fld.AV_MEP_STATUS_RDI_TX]) (mepRdiTx_apart_defs m), State.mepStart, State.fld_setMep,
      State.fld_setF_of_apart _ _ (by simp [Fld.AV_MEP_STATUS_ACTIVE]) (mepActive_apart_defs m), zero _ rfl]
  · exact State.leaves_mepStart s m x v

theorem State.mepKeptOut_shows (ws : List Word) : (s.mepKeptOut m ws).fld (Fld.AV_MEP_STATUS_ACTIVE m) = 0 ∧
    (s.mepKeptOut m ws).fld (Fld.AV_MEP_STATUS_KEY_CLASH m) = 1 ∧ (s.mepKeptOut m ws).mepDefs m = 0 ∧ s.leaves (s.mepKeptOut m ws) (serveTouch m) := by
  have zero (t : State) (f : Fld) (h : f.addr = Reg.AV_MEP_STATUS m) : (t.setReg (Reg.AV_MEP_STATUS m) 0).fld f = 0 := State.fld_setReg_zero _ h
  unfold State.mepKeptOut
  refine ⟨?_, ?_, ?_, ?_⟩
  · rw [State.fld_setMep, State.fld_setF_of_apart _ _ (by simp [Fld.AV_MEP_STATUS_KEY_CLASH]) (mepClash_apart_active m), zero _ _ rfl]
  · rw [State.fld_setMep, State.fld_setF_self _ _ _ (by simp [Fld.AV_MEP_STATUS_KEY_CLASH])]
    rfl
  · rw [State.mepDefs_setMep, State.mepDefs, State.fld_setF_of_apart _ _ (by simp [Fld.AV_MEP_STATUS_KEY_CLASH]) (mepClash_apart_defs m), zero _ _ rfl]
  · exact State.leaves_trans (State.leaves_setMep s m _ _ (by simp [serveTouch])) (State.leaves_trans ((State.leaves_mepSetDefs _ m 0).ofMep (fun _ h => h))
      (State.leaves_trans (State.leaves_setReg _ _ _ _ (by simp [serveTouch, mepTouch])) (State.leaves_trans
        (State.leaves_setF _ _ _ _ (by simp [serveTouch, mepTouch, Fld.AV_MEP_STATUS_KEY_CLASH])) (State.leaves_setMep _ m _ _ (by simp [serveTouch])))))

/-- No other MEP's enable is among what a service touches. -/
theorem mepCfg_untouched (h : m < 4096) (k : Nat) : ¬ (mepTouch m).regs (Fld.AV_MEP_CFG_EN k).addr := by
  simp only [mepTouch, Fld.AV_MEP_CFG_EN, Reg.AV_MEP_CFG, Reg.AV_MEP_STATUS, Reg.AV_MEP_CHG, Reg.AV_INT_STATUS, List.mem_cons, List.not_mem_nil, or_false]
  omega

/-- A stopped MEP is forgotten, with its status word at 0, and its defects show as a change (R114). -/
theorem State.mepStop_shows : (s.mepStop m).reg (Reg.AV_MEP_STATUS m) = 0 ∧ SMap.look (s.mepStop m).av.meps m = none ∧
    (s.mepDefs m ≠ 0 → (s.mepStop m).mepChanged m) ∧ s.leaves (s.mepStop m) (serveTouch m) := by
  refine ⟨State.reg_setReg_self _ _ _, SMap.look_del_self _ m, fun h => ?_, ?_⟩
  · obtain ⟨shown, raised⟩ := State.mepChanged_mepSetDefs s m h
    have other {f : Fld} (h : f.addr ≠ Reg.AV_MEP_STATUS m) : (s.mepStop m).fld f = (s.mepSetDefs m 0).fld f := State.fld_setReg_ne _ _ _ h
    exact ⟨by rw [other (mepStatus_ne_chg m).symm, shown], by rw [other (mepStatus_ne_int m).symm, raised]⟩
  · exact State.leaves_trans ((State.leaves_mepSetDefs s m 0).ofMep (fun _ h => h))
      (State.leaves_trans (State.leaves_setReg _ _ _ _ (by simp [serveTouch, mepTouch])) (State.leaves_av _ _ _ (by simp [serveTouch])))

end

/-! #### The commands -/

section
variable {s : State} {dt m a : Nat}

theorem mepEnable_sets (hm : m < 4096) (hu : s.mainUp = true) :
    ∃ t, exec (.mepEnable dt m) s = .next t ∧ t.fld (Fld.AV_MEP_CFG_EN m) = 1 ∧ (s.begun dt).frame t { regs := (· = Reg.AV_MEP_CFG m) } := by
  obtain ⟨next, frame⟩ := exec_main_touches (c := .mepEnable dt m) (x := { regs := (· = Reg.AV_MEP_CFG m) }) rfl (decide_eq_true hm) hu
    (show (s.begun dt).mepEnable m = (s.begun dt).setF (Fld.AV_MEP_CFG_EN m) 1 from rfl) (State.leaves_setF _ _ _ _ rfl)
  refine ⟨_, next, ?_, frame⟩
  rw [State.fld_settle, State.fld_setF_self _ _ _ (by simp [Fld.AV_MEP_CFG_EN])]
  rfl

theorem mepDisable_stops (hm : m < 4096) (hu : s.mainUp = true) :
    ∃ t, exec (.mepDisable dt m) s = .next t ∧ t.fld (Fld.AV_MEP_CFG_EN m) = 0 ∧ t.reg (Reg.AV_MEP_STATUS m) = 0 ∧ SMap.look t.av.meps m = none ∧
      (s.mepDefs m ≠ 0 → bitOf (t.fld (Fld.AV_MEP_CHG_MEPS (m / 32))) (m % 32) = true ∧ t.fld Fld.AV_INT_STATUS_MEP_CHG = 1) ∧
      (s.begun dt).frame t { parts := [.av],
                             regs := (· ∈ [Reg.AV_MEP_CFG m, Reg.AV_MEP_STATUS m, Reg.AV_MEP_CHG (m / 32), Reg.AV_INT_STATUS]) } := by
  generalize hoff : (s.begun dt).setF (Fld.AV_MEP_CFG_EN m) 0 = off
  have defs : off.mepDefs m = s.mepDefs m := by
    rw [← hoff, State.mepDefs, State.fld_setF_ne _ _ _ _ (by simp only [Fld.AV_MEP_CFG_EN, Fld.AV_MEP_STATUS_DEF, Reg.AV_MEP_CFG, Reg.AV_MEP_STATUS]; omega),
      State.fld_begun, State.mepDefs]
  obtain ⟨status, forgotten, changed, left⟩ := State.mepStop_shows off m
  obtain ⟨next, frame⟩ := exec_main_touches (c := .mepDisable dt m)
    (x := { parts := [.av], regs := (· ∈ [Reg.AV_MEP_CFG m, Reg.AV_MEP_STATUS m, Reg.AV_MEP_CHG (m / 32), Reg.AV_INT_STATUS]) }) rfl
    (decide_eq_true hm) hu (show (s.begun dt).mepDisable m = off.mepStop m by rw [← hoff]; rfl)
    (State.leaves_trans (hoff ▸ State.leaves_setF _ _ _ _ (by simp [Fld.AV_MEP_CFG_EN]))
      (left.mono (by simp [serveTouch]) (fun _ h => List.mem_cons_of_mem _ h) (fun _ h => h.elim) (by simp [serveTouch]) (by simp [serveTouch])))
  refine ⟨_, next, ?_, by rw [State.reg_settle, status], by rw [State.settle_av, forgotten], fun h => ?_, frame⟩
  · rw [State.fld_settle, left.fld (mepCfg_untouched m hm m), ← hoff, State.fld_setF_self _ _ _ (by simp [Fld.AV_MEP_CFG_EN])]
    rfl
  · rw [State.fld_settle, State.fld_settle]
    exact changed (by rwa [defs])

/-- A group in which one MEP alone takes part in the service is served by serving that. -/
theorem State.ccmService_one (h256 : a < 256) (hm : m / 16 = a) (hs : s.calHas 3 a = true)
    (ho : ∀ k, k / 16 = a → k ≠ m → s.fld (Fld.AV_MEP_CFG_EN k) = 0 ∧ SMap.look s.av.meps k = none) (hl : s.leaves (s.mepServe m) (serveTouch m))
    (hk : ∀ k, k ≠ m → SMap.look (s.mepServe m).av.meps k = SMap.look s.av.meps k) : s.ccmService a = s.mepServe m := by
  rw [State.ccmService, if_pos hs]
  have group {j : Nat} (hj : j ∈ List.range 16) (hne : j ≠ m % 16) : (16 * a + j) / 16 = a ∧ 16 * a + j ≠ m := by
    have := List.mem_range.1 hj
    omega
  refine List.foldl_of_only (i := m % 16) List.nodup_range (List.mem_range.2 (Nat.mod_lt m (by decide))) (by congr 1; omega)
    (fun j hj hne => ?_) (fun j hj hne => ?_)
  all_goals
    obtain ⟨within, other⟩ := group hj hne
    obtain ⟨off, unkept⟩ := ho _ within other
  · exact State.mepServe_absent off unkept
  · exact State.mepServe_absent ((hl.fld (mepCfg_untouched m (by omega) _)).trans off) ((hk _ other).trans unkept)

theorem ccmService_starts (h256 : a < 256) (hm : m / 16 = a) (hu : s.mainUp = true) (hs : s.calHas 3 a = true)
    (ho : ∀ k, k / 16 = a → k ≠ m → s.fld (Fld.AV_MEP_CFG_EN k) = 0 ∧ SMap.look s.av.meps k = none) (he : s.fld (Fld.AV_MEP_CFG_EN m) = 1)
    (ha : s.fld (Fld.AV_MEP_STATUS_ACTIVE m) = 0) (hk : ¬ s.keyTaken m (s.mepRecord m)) :
    ∃ t, exec (.ccmService dt a) s = .next t ∧ t.fld (Fld.AV_MEP_STATUS_ACTIVE m) = 1 ∧ t.fld (Fld.AV_MEP_STATUS_KEY_CLASH m) = 0 ∧ t.mepDefs m = 0 ∧
      (t.mep m).cfg = s.mepWords m ∧ (t.mep m).nextTx = s.now + dt + (t.mep m).period ∧ (t.mep m).prev = none ∧
      (s.begun dt).frame t { parts := [.av], regs := (· = Reg.AV_MEP_STATUS m) } := by
  obtain ⟨b, served⟩ := State.mepServe_starts (s.begun dt) m (by simpa using he) (by simpa using ha)
    (by simpa [State.keyTaken] using hk)
  obtain ⟨active, clash, defs, mep, left⟩ := State.mepStart_shows (s.begun dt) m ((s.begun dt).mepRecord m) (b2n b)
  rw [← served] at active clash defs mep left
  have others (k : Nat) (hne : k ≠ m) : SMap.look ((s.begun dt).mepServe m).av.meps k = SMap.look (s.begun dt).av.meps k := by
    rw [served]
    exact (SMap.look_ins_ne _ _ _ _ hne).trans (SMap.look_ins_ne _ _ _ _ hne)
  have act := State.ccmService_one (s := s.begun dt) h256 hm (by simpa using hs) (by simpa using ho)
    (left.mono (by simp [serveTouch]) (fun _ h => h ▸ List.mem_cons_self ..) (fun _ h => h.elim) (by simp) (by simp)) others
  obtain ⟨next, frame⟩ := exec_main_touches (c := .ccmService dt a) rfl (decide_eq_true h256) hu act left
  refine ⟨_, next, by rw [State.fld_settle, active], by rw [State.fld_settle, clash], by rw [State.mepDefs_settle, defs], ?_, ?_, ?_, frame⟩
  all_goals rw [State.mep_settle, mep]
  · exact State.mepWords_begun s dt m
  · rw [← State.now_begun]
    rfl
  · rfl

theorem ccmService_clashes (h256 : a < 256) (hm : m / 16 = a) (hu : s.mainUp = true) (hs : s.calHas 3 a = true)
    (ho : ∀ k, k / 16 = a → k ≠ m → s.fld (Fld.AV_MEP_CFG_EN k) = 0 ∧ SMap.look s.av.meps k = none) (he : s.fld (Fld.AV_MEP_CFG_EN m) = 1)
    (hk : s.keyTaken m (s.mepRecord m)) :
    ∃ t, exec (.ccmService dt a) s = .next t ∧ t.fld (Fld.AV_MEP_STATUS_ACTIVE m) = 0 ∧ t.fld (Fld.AV_MEP_STATUS_KEY_CLASH m) = 1 ∧ t.mepDefs m = 0 ∧
      (s.begun dt).frame t { parts := [.av], regs := (· ∈ [Reg.AV_MEP_STATUS m, Reg.AV_MEP_CHG (m / 32), Reg.AV_INT_STATUS]) } := by
  have served := State.mepServe_clashes (s.begun dt) m (by simpa using he) (by simpa [State.keyTaken] using hk)
  obtain ⟨active, clash, defs, left⟩ := State.mepKeptOut_shows (s.begun dt) m ((s.begun dt).mepWords m)
  have others (k : Nat) (hne : k ≠ m) : SMap.look ((s.begun dt).mepKeptOut m ((s.begun dt).mepWords m)).av.meps k = SMap.look (s.begun dt).av.meps k := by
    refine (SMap.look_ins_ne _ _ _ _ hne).trans ?_
    rw [State.setF_av, State.setReg_av, State.av_mepSetDefs]
    exact SMap.look_ins_ne _ _ _ _ hne
  rw [← served] at active clash defs left others
  have act := State.ccmService_one (s := s.begun dt) h256 hm (by simpa using hs) (by simpa using ho) left others
  obtain ⟨next, frame⟩ := exec_main_touches (c := .ccmService dt a) rfl (decide_eq_true h256) hu act left
  exact ⟨_, next, by rw [State.fld_settle, active], by rw [State.fld_settle, clash], by rw [State.mepDefs_settle, defs], frame⟩

theorem ccmService_unserved (h256 : a < 256) (hu : s.mainUp = true) (hs : s.calHas 3 a = false) :
    ∃ t, exec (.ccmService dt a) s = .next t ∧ (s.begun dt).frame t {} :=
  ⟨_, exec_main_touches rfl (decide_eq_true h256) hu (if_neg (by simp [hs])) (State.leaves_refl _ _)⟩

end

/-- Settles O32: the service of a group comes down to that of its one MEP, and that goes by whether a lower MEP has its key. -/
theorem continuityMeps : Obligations.ContinuityMeps :=
  ⟨fun _ _ _ hm hu => ⟨mepEnable_sets hm hu, mepDisable_stops hm hu⟩,
    fun _ _ _ _ h256 hm hu hs ho he ha =>
      ⟨fun free => ccmService_starts h256 hm hu hs ho he ha (fun ⟨e, mem, lower, key⟩ => free e mem lower key),
        fun e mem lower port vid => ccmService_clashes h256 hm hu hs ho he ⟨e, mem, lower, port, vid⟩⟩,
    fun _ _ _ h256 hu hs => ccmService_unserved h256 hu hs⟩

end Sys2Proof.Machine
end

/-! ### Failures and LINK of a CRF port (R93, R95) -/

section
namespace Sys2Proof.Machine

@[simp] theorem State.pm_begun (s : State) (dt p : Nat) : (s.begun dt).pm p = s.pm p := by simp [State.pm]
@[simp] theorem State.defs_begun (s : State) (dt p : Nat) : (s.begun dt).defs p = s.defs p := State.fld_begun s dt _
@[simp] theorem State.fails_begun (s : State) (dt p : Nat) : (s.begun dt).fails p = s.fails p := State.fld_begun s dt _
@[simp] theorem State.watches_begun (s : State) (dt p : Nat) : (s.begun dt).watches p = s.watches p := by
  rw [State.watches, State.bit_begun, State.mode_begun, State.watches]
@[simp] theorem State.pm_settle (s s0 : State) (t : Time) (p : Nat) : (s.settle s0 t).pm p = s.pm p := by simp [State.pm]
@[simp] theorem State.defs_settle (s s0 : State) (t : Time) (p : Nat) : (s.settle s0 t).defs p = s.defs p := State.fld_settle s s0 t _
@[simp] theorem State.fails_settle (s s0 : State) (t : Time) (p : Nat) : (s.settle s0 t).fails p = s.fails p := State.fld_settle s s0 t _

theorem lfDefects_ne_int (p : Nat) : Reg.LF_DEFECTS p ≠ Reg.LF_DEF_INT_STATUS p := by simp [Reg.LF_DEFECTS, Reg.LF_DEF_INT_STATUS]

/-- A bit that is set, taken away. -/
theorem bitOf_sub_two_pow {v d : Nat} (h : bitOf v d = true) (i : Nat) : bitOf (v - 2 ^ d) i = (bitOf v i && !decide (i = d)) := by
  have cleared : v - 2 ^ d = setBits v d 1 (b2n false) := by
    have one : v / 2 ^ d % 2 = 1 := of_decide_eq_true h
    have whole := Nat.div_add_mod v (2 ^ d)
    have half := Nat.div_add_mod (v / 2 ^ d) 2
    have quarter : v / 2 ^ (d + 1) = v / 2 ^ d / 2 := by rw [pow_succ, Nat.div_div_eq_div_mul]
    rw [one] at half
    rw [setBits, quarter, pow_succ]
    generalize v / 2 ^ d / 2 = q at half ⊢
    have parts : v = q * (2 ^ d * 2) + v % 2 ^ d + 2 ^ d := by
      rw [← half] at whole
      linarith
    simp only [b2n, Bool.false_eq_true, if_false, Nat.zero_mod, Nat.zero_mul, Nat.add_zero]
    omega
  rw [cleared, bitOf_setBits]
  split_ifs with same <;> simp [same]

/-! #### Failures -/

/-- A defect's failure is shown anew, with its event. -/
def State.failShown (s : State) (p d v : Nat) : State := (s.setF (Fld.LF_DEFECTS_FAIL p) v).orF (Fld.LF_DEF_INT_STATUS_FAIL_CHG p) (2 ^ d)

section
variable (s : State) (p d v : Nat)

theorem State.leaves_failShown : s.leaves (s.failShown p d v) { regs := (· ∈ [Reg.LF_DEFECTS p, Reg.LF_DEF_INT_STATUS p]) } :=
  State.leaves_trans (State.leaves_setF _ _ _ _ (by simp [Fld.LF_DEFECTS_FAIL])) (State.leaves_orF _ _ _ _ (by simp [Fld.LF_DEF_INT_STATUS_FAIL_CHG]))

theorem State.fails_failShown {e : Nat} (he : e < 6) : bitOf ((s.failShown p d v).fails p) e = bitOf v e := by
  rw [State.fails, State.failShown, State.orF, State.fld_setF_ne _ _ _ _ (lfDefects_ne_int p), State.bitOf_fld_setF _ _ (by simp [Fld.LF_DEFECTS_FAIL]) he]

theorem State.defs_failShown : (s.failShown p d v).defs p = s.defs p := by
  rw [State.defs, State.failShown, State.orF, State.fld_setF_ne _ _ _ _ (lfDefects_ne_int p),
    State.fld_setF_of_apart _ _ (by simp [Fld.LF_DEFECTS_FAIL]) (by simp [Fld.apart, Fld.LF_DEFECTS_FAIL, Fld.LF_DEFECTS_DEF]), State.defs]

theorem State.failChg_failShown (hd : d < 6) : bitOf ((s.failShown p d v).fld (Fld.LF_DEF_INT_STATUS_FAIL_CHG p)) d = true := by
  rw [State.failShown, State.bitOf_fld_orF _ _ (by simp [Fld.LF_DEF_INT_STATUS_FAIL_CHG]) hd, bitOf_two_pow, decide_eq_true rfl, Bool.or_true]

end

theorem failureDeclare_due (s : State) (dt p d : Nat) (hp : p < 144) (h6 : d < 6) (hu : s.mainUp = true) (hd : bitOf (s.defs p) d = true)
    (hf : bitOf (s.fails p) d = false) (ht : (s.pm p).failAt.getD d 0 + tenths (s.fld (Fld.LF_FAIL_TIME_SET p)) ≤ s.now + dt) :
    ∃ t, exec (.failureDeclare dt p d) s = .next t ∧ (∀ e, e < 6 → bitOf (t.fails p) e = (bitOf (s.fails p) e || decide (e = d))) ∧
      bitOf (t.fld (Fld.LF_DEF_INT_STATUS_FAIL_CHG p)) d = true ∧ t.defs p = s.defs p ∧
      (s.begun dt).frame t { regs := (· ∈ [Reg.LF_DEFECTS p, Reg.LF_DEF_INT_STATUS p]) } := by
  have act : (s.begun dt).failDeclare p d = (s.begun dt).failShown p d (s.fails p ||| 2 ^ d) := by
    rw [State.failDeclare, if_pos ⟨by simpa using hd, by simpa using hf, by simpa using ht⟩]
    exact congrArg (fun v => (s.begun dt).failShown p d (v ||| 2 ^ d)) (State.fails_begun s dt p)
  obtain ⟨next, frame⟩ := exec_main_touches (c := .failureDeclare dt p d) rfl (by simp [Instr.wellFormed, hp, h6]) hu act (State.leaves_failShown _ p d _)
  refine ⟨_, next, fun e he => ?_, by rw [State.fld_settle, State.failChg_failShown _ _ _ _ h6],
    by rw [State.defs_settle, State.defs_failShown, State.defs_begun], frame⟩
  rw [State.fails_settle, State.fails_failShown _ _ _ _ he, bitOf_or, bitOf_two_pow, decide_eq_decide.2 eq_comm]

theorem failureClear_due (s : State) (dt p d : Nat) (hp : p < 144) (h6 : d < 6) (hu : s.mainUp = true) (hd : bitOf (s.defs p) d = false)
    (hf : bitOf (s.fails p) d = true) (ht : (s.pm p).failAt.getD d 0 + tenths (s.fld (Fld.LF_FAIL_TIME_CLEAR p)) ≤ s.now + dt) :
    ∃ t, exec (.failureClear dt p d) s = .next t ∧ (∀ e, e < 6 → bitOf (t.fails p) e = (bitOf (s.fails p) e && !decide (e = d))) ∧
      bitOf (t.fld (Fld.LF_DEF_INT_STATUS_FAIL_CHG p)) d = true ∧ t.defs p = s.defs p ∧
      (s.begun dt).frame t { regs := (· ∈ [Reg.LF_DEFECTS p, Reg.LF_DEF_INT_STATUS p]) } := by
  have act : (s.begun dt).failClear p d = (s.begun dt).failShown p d (s.fails p - 2 ^ d) := by
    rw [State.failClear, if_pos ⟨by simpa using hd, by simpa using hf, by simpa using ht⟩, State.fails_begun]
    rfl
  obtain ⟨next, frame⟩ := exec_main_touches (c := .failureClear dt p d) rfl (by simp [Instr.wellFormed, hp, h6]) hu act (State.leaves_failShown _ p d _)
  refine ⟨_, next, fun e he => ?_, by rw [State.fld_settle, State.failChg_failShown _ _ _ _ h6],
    by rw [State.defs_settle, State.defs_failShown, State.defs_begun], frame⟩
  rw [State.fails_settle, State.fails_failShown _ _ _ _ he, bitOf_sub_two_pow hf]

/-! #### LINK (R95) -/

theorem crfLinkUp_due (s : State) (dt p v a : Nat) (hp : p < 144) (hu : s.mainUp = true) (hc : s.crfOn p = true) (hw : s.watches p = true)
    (he : s.fld (Fld.PT_STATUS_EN_STATE p) = 1) (hl : s.fld (Fld.PT_STATUS_LINK p) = 0) (ha : (s.pm p).upAt = some a)
    (ht : a + s.fld (Fld.LF_DEF_CTRL_UP_HOLD p) * tMs ≤ s.now + dt) :
    ∃ t, exec (.crfLinkUp dt p v) s = .next t ∧ t.fld (Fld.PT_STATUS_LINK p) = 1 ∧ t.fld (Fld.PT_INT_STATUS_LINK_CHG p) = 1 ∧
      (s.begun dt).frame t { parts := [.fab], regs := (· ∈ [Reg.PT_STATUS p, Reg.PT_INT_STATUS p, Reg.PT_TS_VAR p]),
                             ctrs := (· ∈ [Ctr.port p 0x3A0, Ctr.port p 0x3A8]), ports := [p] } := by
  have act : (s.begun dt).crfLinkUp p v = (s.begun dt).linkRise p v := by
    rw [State.crfLinkUp, State.pm_begun, ha]
    exact if_pos ⟨by simpa using hc, by simpa using hw, by simpa using State.enabled_of_enState he,
      by simp [State.linkUp, State.bit, hl], by simpa using ht⟩
  rw [State.linkRise_eq, State.tsConst_begun] at act
  have down := State.portDown_of_link (s := s.begun dt) (p := p) (by simpa using hl)
  have held := State.leaves_holdStep (s.begun dt) ((s.begun dt).linkRisen p (min v (s.tsConst p).2.2)) p
    { ctrs := (· = Ctr.port p 0x3A8), ports := [p] } down (by simp) rfl
  obtain ⟨next, frame⟩ := exec_main_touches (c := .crfLinkUp dt p v)
    (x := { parts := [.fab], regs := (· ∈ [Reg.PT_STATUS p, Reg.PT_INT_STATUS p, Reg.PT_TS_VAR p]), ctrs := (· ∈ [Ctr.port p 0x3A0, Ctr.port p 0x3A8]),
            ports := [p] }) rfl (decide_eq_true hp) hu act
    (State.leaves_trans (State.leaves_linkRisen _ p _ _ (by simp) (by simp) (by simp) (by simp))
      (held.mono (by simp) (fun _ h => h.elim) (by simp) (by simp) (by simp)))
  obtain ⟨link, event, -⟩ := State.fld_linkRisen (s.begun dt) p (min v (s.tsConst p).2.2)
  exact ⟨_, next, by rw [State.fld_settle, held.fld id, link], by rw [State.fld_settle, held.fld id, event], frame⟩

theorem crfLinkUp_still (s : State) (dt p v : Nat) (hp : p < 144) (hu : s.mainUp = true) (ha : (s.pm p).upAt = none) :
    ∃ t, exec (.crfLinkUp dt p v) s = .next t ∧ (s.begun dt).frame t {} := by
  have act : (s.begun dt).crfLinkUp p v = s.begun dt := by rw [State.crfLinkUp, State.pm_begun, ha]
  exact ⟨_, exec_main_touches rfl (decide_eq_true hp) hu act (State.leaves_refl _ _)⟩

/-- Settles O22: a failure by its one bit of FAIL, LINK by the rise that O5 has. -/
theorem lineFailures : Obligations.LineFailures := ⟨failureDeclare_due, failureClear_due, crfLinkUp_due, crfLinkUp_still⟩

end Sys2Proof.Machine
end

/-! ### The seconds under way and the bins they lie in (R96, R107) -/

section
namespace Sys2Proof.Machine

/-- What touches a port's performance monitoring alone. -/
def pmsTouch : Touch := { parts := [.pms] }

section
variable (s : State) (p : Nat)

@[simp] theorem State.pm_setPm_self (x : Pm) : (s.setPm p x).pm p = x := by simp [State.pm, State.setPm]
@[simp] theorem State.pm_setF (f : Fld) (v q : Nat) : (s.setF f v).pm q = s.pm q := by rw [State.pm, State.setF_pms, State.pm]
@[simp] theorem State.pm_raise (f : Fld) (q : Nat) : (s.raise f).pm q = s.pm q := State.pm_setF s f 1 q
@[simp] theorem State.pm_orF (f : Fld) (v q : Nat) : (s.orF f v).pm q = s.pm q := State.pm_setF s f _ q
@[simp] theorem State.dayOfs_begun (dt : Nat) : (s.begun dt).dayOfs = s.dayOfs := by rw [State.dayOfs, State.fld_begun, State.dayOfs]

theorem State.leaves_pmTouch {x : Touch} (h : .pms ∈ x.parts) : s.leaves (s.pmTouch p) x := by
  unfold State.pmTouch
  dsimp only
  split
  · exact State.leaves_pmRoll s p x h
  · exact State.leaves_trans (State.leaves_pmRoll s p x h) (State.leaves_setPm _ p _ x h)

theorem State.pmTouch_left : s.leaves (s.pmTouch p) pmsTouch := State.leaves_pmTouch s p (by simp [pmsTouch])

@[simp] theorem State.fld_pmTouch (f : Fld) : (s.pmTouch p).fld f = s.fld f := (State.pmTouch_left s p).fld id
@[simp] theorem State.reg_pmTouch (a : Nat) : (s.pmTouch p).reg a = s.reg a := (State.pmTouch_left s p).reg id
@[simp] theorem State.time_pmTouch : (s.pmTouch p).time = s.time := (State.pmTouch_left s p).part (k := .time) (by simp [pmsTouch])
@[simp] theorem State.hmSec_pmTouch : (s.pmTouch p).hmSec = s.hmSec := by rw [State.hmSec, State.hmNs, State.time_pmTouch, State.hmSec, State.hmNs]
@[simp] theorem State.dayOfs_pmTouch : (s.pmTouch p).dayOfs = s.dayOfs := by rw [State.dayOfs, State.fld_pmTouch, State.dayOfs]

/-- What the second under way notes changes nothing else of a port's monitoring. -/
theorem State.pm_pmTouch_of_roll {x : Pm} {c : PmSec} (hx : (s.pmRoll p).pm p = x) (hc : x.acc = some c) :
    ∃ d since, (s.pmTouch p).pm p = { x with acc := some d, since := since } := by
  subst hx
  unfold State.pmTouch
  dsimp only
  rw [hc]
  exact ⟨_, _, State.pm_setPm_self _ p _⟩

variable {s p}

/-- Seconds that end wait behind those that wait already; none ends before its time. -/
theorem State.pm_pmTouch {c : PmSec} (h : (s.pm p).acc = some c) : ∃ d more since,
    (s.pmTouch p).pm p = { s.pm p with acc := some d, wait := (s.pm p).wait ++ more, since := since } ∧ (s.hmSec ≤ c.sec → more = []) := by
  have rolls : ∃ d more, (s.pmRoll p).pm p = { s.pm p with acc := some d, wait := (s.pm p).wait ++ more } ∧ (s.hmSec ≤ c.sec → more = []) := by
    unfold State.pmRoll
    dsimp only
    rw [h]
    dsimp only
    split_ifs with early
    · exact ⟨c, [], by simp [← h], fun _ => rfl⟩
    all_goals exact ⟨_, _, by rw [State.pm_setPm_self, List.append_assoc], fun late => absurd late early⟩
  obtain ⟨d, more, roll, none⟩ := rolls
  obtain ⟨e, since, touch⟩ := State.pm_pmTouch_of_roll s p roll rfl
  exact ⟨e, more, since, touch, none⟩

/-- The first bins of a port that nothing has touched since its island left reset (R107). -/
theorem State.pm_pmTouch_first (h : (s.pm p).acc = none) : ∃ d w since,
    (s.pmTouch p).pm p = { s.pm p with acc := some d, wait := w, since := since, dayOfs := s.dayOfs,
                                       bin15 := PmBin.current (start15 s.isl.upSec) true,
                                       bin24 := PmBin.current (start24 s.isl.upSec s.dayOfs) true } := by
  have rolls : ∃ d w, (s.pmRoll p).pm p = { s.pm p with acc := some d, wait := w, dayOfs := s.dayOfs, bin15 := PmBin.current (start15 s.isl.upSec) true,
                                                        bin24 := PmBin.current (start24 s.isl.upSec s.dayOfs) true } := by
    unfold State.pmRoll
    dsimp only
    rw [h]
    exact ⟨_, _, State.pm_setPm_self s p _⟩
  obtain ⟨d, w, roll⟩ := rolls
  obtain ⟨e, since, touch⟩ := State.pm_pmTouch_of_roll s p roll rfl
  exact ⟨e, w, since, touch⟩

end

/-- A second that the current bin holds is counted there. -/
theorem inBins_current {sec : Nat} {cur : PmBin} (h : cur.start ≤ sec) (past : List PmBin) (f : PmBin → PmBin) : inBins sec cur past f = (f cur, past) :=
  if_pos (.inl h)

/-! #### Numbers built bit by bit -/

section
variable {c : Nat → Prop} [DecidablePred c]

theorem foldl_bits_lt (n : Nat) : (List.range n).foldl (fun v k => if c k then v + 2 ^ k else v) 0 < 2 ^ n := by
  induction n with
  | zero => exact Nat.one_pos
  | succ n ih =>
    rw [List.range_succ, List.foldl_append, List.foldl_cons, List.foldl_nil, pow_succ]
    split_ifs <;> omega

/-- A number whose bits are set one by one where a condition holds. -/
theorem bitOf_foldl_bits (n i : Nat) : bitOf ((List.range n).foldl (fun v k => if c k then v + 2 ^ k else v) 0) i = decide (i < n ∧ c i) := by
  induction n with
  | zero => simp
  | succ n ih =>
    have carry := Nat.two_pow_add_eq_or_of_lt (foldl_bits_lt (c := c) n) 1
    rw [List.range_succ, List.foldl_append, List.foldl_cons, List.foldl_nil]
    split_ifs with set
    · rw [Nat.mul_one] at carry
      rw [Nat.add_comm, carry, bitOf_or, bitOf_two_pow, ih]
      by_cases same : n = i
      · subst same; simp [set]
      · simp only [same, decide_false, Bool.false_or, decide_eq_decide]
        exact and_congr_left fun _ => by omega
    · rw [ih, decide_eq_decide]
      constructor
      · exact fun ⟨less, holds⟩ => ⟨by omega, holds⟩
      · exact fun ⟨less, holds⟩ => ⟨lt_of_le_of_ne (by omega) (fun same => set (same ▸ holds)), holds⟩

end

end Sys2Proof.Machine
end

/-! ### Final seconds and their alerts (R105, R110) -/

section
namespace Sys2Proof.Machine

/-- The counts of a bin at its end that an alert is about: near end for the alerts 0 to 3, far end for 4 to 7. -/
def PmBin.finNth (b : PmBin) (k : Nat) : Nat := if k < 4 then b.finNe.nth k else b.finFe.nth (k - 4)

theorem State.bitOf_tcaNew (s : State) (p : Nat) (day : Bool) (b : PmBin) (k : Nat) : bitOf (s.tcaNew p day b) k =
    decide (k < 8 ∧ 0 < s.tcaThr p day (k % 4) ∧ s.tcaThr p day (k % 4) ≤ b.finNth k ∧ bitOf b.alerts k = false) :=
  bitOf_foldl_bits (c := fun k => 0 < s.tcaThr p day (k % 4) ∧ s.tcaThr p day (k % 4) ≤ b.finNth k ∧ bitOf b.alerts k = false) 8 k

theorem State.tcaThr_congr {s t : State} (h : ∀ a, t.reg a = s.reg a) (p : Nat) (day : Bool) (k : Nat) : t.tcaThr p day k = s.tcaThr p day k := by
  rw [State.tcaThr, h, State.tcaThr]

/-- Where the past bins are as they were, the alerts gained are those of the current one. -/
theorem tcaGained_current (b c : PmBin) (past : List PmBin) : tcaGained (b :: past) (c :: past) = b.alerts ^^^ c.alerts := by
  have same (l : List PmBin) (v : Nat) : (List.zipWith (fun a b => a.alerts ^^^ b.alerts) l l).foldl (· ||| ·) v = v := by
    induction l with
    | nil => rfl
    | cons x l ih => simpa using ih
  simpa [tcaGained] using same past _

/-- The alerts that bins have gained are shown. -/
def State.tcaShown (s : State) (p a d : Nat) : State :=
  if a = 0 ∧ d = 0 then s
  else ((s.orF (Fld.LF_TCA_STATUS_T15 p) a).orF (Fld.LF_TCA_STATUS_T24 p) d).raise (Fld.LF_DEF_INT_STATUS_TCA p)

def tcaTouch (p : Nat) : Touch := { parts := [.pms], regs := (· ∈ [Reg.LF_TCA_STATUS p, Reg.LF_DEF_INT_STATUS p]) }

theorem State.leaves_tcaShown (s : State) (p a d : Nat) :
    s.leaves (s.tcaShown p a d) { regs := (· ∈ [Reg.LF_TCA_STATUS p, Reg.LF_DEF_INT_STATUS p]) } :=
  State.leaves_ite _ (fun _ => State.leaves_refl s _) (fun _ => State.leaves_trans (State.leaves_trans
    (State.leaves_orF _ _ _ _ (by simp [Fld.LF_TCA_STATUS_T15])) (State.leaves_orF _ _ _ _ (by simp [Fld.LF_TCA_STATUS_T24])))
    (State.leaves_raise _ _ _ (by simp [Fld.LF_DEF_INT_STATUS_TCA])))

@[simp] theorem State.pm_tcaShown (s : State) (p a d q : Nat) : (s.tcaShown p a d).pm q = s.pm q := by
  rw [State.pm, show (s.tcaShown p a d).pms = s.pms from (State.leaves_tcaShown s p a d).part (k := .pms) (by simp), State.pm]

/-- An alert gained in a 15-minute bin sets its bit and the event. -/
theorem State.fld_tcaShown (s : State) {p a k : Nat} (d : Nat) (h8 : k < 8) (h : bitOf a k = true) :
    bitOf ((s.tcaShown p a d).fld (Fld.LF_TCA_STATUS_T15 p)) k = true ∧ (s.tcaShown p a d).fld (Fld.LF_DEF_INT_STATUS_TCA p) = 1 := by
  have some_ : ¬ (a = 0 ∧ d = 0) := by
    rintro ⟨rfl, -⟩
    simp at h
  rw [State.tcaShown, if_neg some_]
  refine ⟨?_, State.fld_raise_self _ _ (by simp [Fld.LF_DEF_INT_STATUS_TCA]) (by simp [Fld.LF_DEF_INT_STATUS_TCA])⟩
  rw [State.fld_raise_ne _ _ _ (by simp [Fld.LF_TCA_STATUS_T15, Fld.LF_DEF_INT_STATUS_TCA, Reg.LF_TCA_STATUS, Reg.LF_DEF_INT_STATUS]),
    State.fld_orF_of_apart _ _ (by simp [Fld.LF_TCA_STATUS_T24]) (by simp [Fld.apart, Fld.LF_TCA_STATUS_T24, Fld.LF_TCA_STATUS_T15]),
    State.bitOf_fld_orF _ _ (by simp [Fld.LF_TCA_STATUS_T15]) h8, h, Bool.or_true]

/-- The bins after a second has become final. -/
def State.finalBins (s : State) (p : Nat) (x : Pm) (h : PmHist) (w : List PmHist) : Pm :=
  { x.onBins2 h.bin (s.tcaFinal p false h) (s.tcaFinal p true h) with hist := w }

section
variable {s : State} {p : Nat} {x : Pm} {h : PmHist} {w : List PmHist}

/-- A second that may become final does (R105). -/
theorem State.secondFinal_due (hx : (s.pmTouch p).pm p = x) (hh : x.hist = h :: w) (hd : h.fin + (10 * hmSecond : Nat) ≤ s.time.flow)
    (ha : ∀ a, a ∈ x.wait → h.fin + (10 * hmSecond : Nat) ≤ a.fin) :
    ∃ d, s.secondFinal p = ((s.pmTouch p).setPm p ((s.pmTouch p).finalBins p x h w)).tcaShown p
      (tcaGained (x.bin15 :: x.past15) (((s.pmTouch p).finalBins p x h w).bin15 :: ((s.pmTouch p).finalBins p x h w).past15)) d := by
  refine ⟨tcaGained [x.bin24, x.prev24] [((s.pmTouch p).finalBins p x h w).bin24, ((s.pmTouch p).finalBins p x h w).prev24], ?_⟩
  rw [State.secondFinal]
  dsimp only
  rw [hx, hh]
  dsimp only
  rw [if_pos ⟨by simpa using hd, List.all_eq_true.2 (fun a m => decide_eq_true (ha a m))⟩]
  rfl

/-- One in the current bin counts there alone among the 15-minute bins. -/
theorem State.bins_finalBins (hb : x.bin15.start ≤ h.bin) : (s.finalBins p x h w).bin15 = s.tcaFinal p false h x.bin15 ∧
    (s.finalBins p x h w).past15 = x.past15 := by
  have current := inBins_current hb x.past15 (s.tcaFinal p false h)
  exact ⟨congrArg Prod.fst current, congrArg Prod.snd current⟩

/-- An alert whose threshold the final counts reach is noted, for the first time. -/
theorem State.alerts_tcaFinal {b : PmBin} {k : Nat} (h8 : k < 8) (ht : 0 < s.tcaThr p false (k % 4))
    (hr : s.tcaThr p false (k % 4) ≤ (b.final h.ne h.fe).finNth k) (hn : bitOf b.alerts k = false) :
    bitOf (s.tcaFinal p false h b).alerts k = true ∧ bitOf (b.alerts ^^^ (s.tcaFinal p false h b).alerts) k = true := by
  have noted : bitOf (s.tcaFinal p false h b).alerts k = true := by
    rw [State.tcaFinal, bitOf_or, State.bitOf_tcaNew, decide_eq_true ⟨h8, ht, hr, hn⟩, Bool.or_true]
  exact ⟨noted, by rw [bitOf_xor, noted, hn]; rfl⟩

end

theorem secondFinal_counts (s : State) (dt p : Nat) (h : PmHist) (w : List PmHist) (c : PmSec) (hp : p < 144) (hu : s.mainUp = true)
    (hc : (s.pm p).acc = some c) (he : (s.begun dt).hmSec ≤ c.sec) (hh : (s.pm p).hist = h :: w)
    (hd : h.fin + (10 * hmSecond : Nat) ≤ (s.begun dt).time.flow) (ha : ∀ a, a ∈ (s.pm p).wait → h.fin + (10 * hmSecond : Nat) ≤ a.fin)
    (hb : (s.pm p).bin15.start ≤ h.bin) :
    ∃ t, exec (.secondFinal dt p) s = .next t ∧ (t.pm p).hist = w ∧ (t.pm p).bin15.finNe = (s.pm p).bin15.finNe.add h.ne ∧
      (t.pm p).bin15.finFe = (s.pm p).bin15.finFe.add h.fe ∧
      (∀ k, k < 4 → 0 < s.tcaThr p false k → s.tcaThr p false k ≤ ((s.pm p).bin15.finNe.add h.ne).nth k → bitOf (s.pm p).bin15.alerts k = false →
        bitOf (t.fld (Fld.LF_TCA_STATUS_T15 p)) k = true ∧ bitOf (t.pm p).bin15.alerts k = true ∧ t.fld (Fld.LF_DEF_INT_STATUS_TCA p) = 1) ∧
      (∀ k, k < 4 → 0 < s.tcaThr p false k → s.tcaThr p false k ≤ ((s.pm p).bin15.finFe.add h.fe).nth k → bitOf (s.pm p).bin15.alerts (4 + k) = false →
        bitOf (t.fld (Fld.LF_TCA_STATUS_T15 p)) (4 + k) = true ∧ bitOf (t.pm p).bin15.alerts (4 + k) = true ∧ t.fld (Fld.LF_DEF_INT_STATUS_TCA p) = 1) ∧
      (s.begun dt).frame t { parts := [.pms], regs := (· ∈ [Reg.LF_TCA_STATUS p, Reg.LF_DEF_INT_STATUS p]) } := by
  obtain ⟨d, more, since, touched, none⟩ := State.pm_pmTouch (s := s.begun dt) (p := p) (by rwa [State.pm_begun])
  rw [none he, List.append_nil, State.pm_begun] at touched
  generalize hx : ({ s.pm p with acc := some d, wait := (s.pm p).wait, since := since } : Pm) = x at touched
  have bin15 : x.bin15 = (s.pm p).bin15 := by rw [← hx]
  have thr (k : Nat) : ((s.begun dt).pmTouch p).tcaThr p false k = s.tcaThr p false k := State.tcaThr_congr (fun a => by simp) p false k
  obtain ⟨e, act⟩ := State.secondFinal_due (h := h) (w := w) touched (by rw [← hx, hh]) hd (by rw [← hx]; exact ha)
  have left := State.pmTouch_left (s.begun dt) p
  generalize (s.begun dt).pmTouch p = u at act thr left
  obtain ⟨cur, past⟩ := State.bins_finalBins (s := u) (p := p) (w := w) (bin15 ▸ hb)
  rw [past, cur, tcaGained_current, bin15] at act
  obtain ⟨next, frame⟩ := exec_main_touches (c := .secondFinal dt p) (x := tcaTouch p) rfl (decide_eq_true hp) hu act
    (State.leaves_trans (left.mono (by simp [pmsTouch, tcaTouch]) (fun _ h => h.elim) (fun _ h => h.elim) (by simp [pmsTouch]) (by simp [pmsTouch]))
      (State.leaves_trans (State.leaves_setPm _ p _ _ (by simp [tcaTouch]))
        ((State.leaves_tcaShown _ p _ _).mono (by simp) (fun _ h => h) (fun _ h => h.elim) (by simp) (by simp))))
  have pm : ((((u.setPm p (u.finalBins p x h w)).tcaShown p ((s.pm p).bin15.alerts ^^^ (u.tcaFinal p false h (s.pm p).bin15).alerts) e).settle s
      (s.begun dt).time).pm p) = u.finalBins p x h w := by simp
  have alert {k : Nat} (h8 : k < 8) (ht : 0 < s.tcaThr p false (k % 4)) (hr : s.tcaThr p false (k % 4) ≤ ((s.pm p).bin15.final h.ne h.fe).finNth k)
      (hn : bitOf (s.pm p).bin15.alerts k = false) := State.alerts_tcaFinal (s := u) (p := p) (h := h) h8 (by rwa [thr]) (by rwa [thr]) hn
  refine ⟨_, next, by rw [pm]; rfl, by rw [pm, cur, bin15]; rfl, by rw [pm, cur, bin15]; rfl, fun k h4 ht hr hn => ?_, fun k h4 ht hr hn => ?_, frame⟩
  · obtain ⟨noted, gained⟩ := alert (k := k) (by omega) (by rwa [Nat.mod_eq_of_lt h4]) (by rwa [Nat.mod_eq_of_lt h4, PmBin.finNth, if_pos h4]) hn
    obtain ⟨shown, raised⟩ := State.fld_tcaShown (u.setPm p (u.finalBins p x h w)) (p := p) e (by omega) gained
    exact ⟨by rw [State.fld_settle, shown], by rw [pm, cur, bin15, noted], by rw [State.fld_settle, raised]⟩
  · have far : (4 + k) % 4 = k := by omega
    have high : ¬ 4 + k < 4 := by omega
    obtain ⟨noted, gained⟩ := alert (k := 4 + k) (by omega) (by rwa [far]) (by rwa [far, PmBin.finNth, if_neg high, Nat.add_sub_cancel_left]) hn
    obtain ⟨shown, raised⟩ := State.fld_tcaShown (u.setPm p (u.finalBins p x h w)) (p := p) e (by omega) gained
    exact ⟨by rw [State.fld_settle, shown], by rw [pm, cur, bin15, noted], by rw [State.fld_settle, raised]⟩

end Sys2Proof.Machine
end

/-! ### The end and the close of bins, and their window (R105, R107 to R109, R111) -/

section
namespace Sys2Proof.Machine

/-- The bins after the end of a 15-minute bin, which may be that of the 24-hour bin. -/
def State.binsMoved (s : State) (x : Pm) : Pm :=
  let x1 := { x with past15 := (s.binOver x.bin15 (x.bin15.start + 900) :: x.past15).take 32, bin15 := PmBin.current (start15 s.hmSec) false, dayOfs := s.dayOfs }
  if decide (s.dayOfs ≠ x.dayOfs) then
    { x1 with prev24 := { s.binOver x.bin24 (x.bin15.start + 900) with suspect := true }, bin24 := PmBin.current (start15 s.hmSec) false }
  else if decide (end24 x.bin24.start x.dayOfs ≤ s.hmSec) then
    { x1 with prev24 := s.binOver x.bin24 (end24 x.bin24.start x.dayOfs), bin24 := PmBin.current (start24 s.hmSec s.dayOfs) false }
  else x1

section
variable {s : State} {p : Nat} {x : Pm}

theorem State.binEnd_due (hx : (s.pmTouch p).pm p = x) (h : x.bin15.start + 900 ≤ s.hmSec) :
    s.binEnd p = (s.pmTouch p).setPm p ((s.pmTouch p).binsMoved x) := by
  subst hx
  exact if_pos (by rwa [State.hmSec_pmTouch])

theorem State.binsMoved_15 : (s.binsMoved x).past15 = (s.binOver x.bin15 (x.bin15.start + 900) :: x.past15).take 32 ∧
    (s.binsMoved x).bin15 = PmBin.current (start15 s.hmSec) false := by
  unfold State.binsMoved
  split_ifs <;> exact ⟨rfl, rfl⟩

theorem State.binsMoved_24 (ho : s.dayOfs = x.dayOfs) (hd : end24 x.bin24.start s.dayOfs ≤ s.hmSec) :
    (s.binsMoved x).prev24 = s.binOver x.bin24 (end24 x.bin24.start s.dayOfs) ∧ (s.binsMoved x).bin24 = PmBin.current (start24 s.hmSec s.dayOfs) false := by
  rw [State.binsMoved, if_neg (by simp [ho]), if_pos (decide_eq_true (ho ▸ hd)), ho]
  exact ⟨rfl, rfl⟩

theorem State.binOver_congr {t : State} (h : t.time = s.time) (b : PmBin) (fin : Nat) : t.binOver b fin = s.binOver b fin := by
  rw [State.binOver, h, State.binOver]

/-- What the end of a bin leaves, by the bins of the second under way. -/
theorem binEnd_moves {dt : Nat} (hp : p < 144) (hu : s.mainUp = true) (hx : ((s.begun dt).pmTouch p).pm p = x)
    (h : x.bin15.start + 900 ≤ (s.begun dt).hmSec) :
    ∃ t, exec (.binEnd dt p) s = .next t ∧ t.pm p = ((s.begun dt).pmTouch p).binsMoved x ∧ (s.begun dt).frame t { parts := [.pms] } := by
  obtain ⟨next, frame⟩ := exec_main_touches (c := .binEnd dt p) rfl (decide_eq_true hp) hu (State.binEnd_due hx h)
    (State.leaves_trans (State.pmTouch_left _ p) (State.leaves_setPm _ p _ _ (by simp [pmsTouch])))
  exact ⟨_, next, by rw [State.pm_settle, State.pm_setPm_self], frame⟩

end

theorem binEnd_shifts (s : State) (dt p : Nat) (c : PmSec) (hp : p < 144) (hu : s.mainUp = true) (hc : (s.pm p).acc = some c)
    (hd : (s.pm p).bin15.start + 900 ≤ (s.begun dt).hmSec) :
    ∃ t, exec (.binEnd dt p) s = .next t ∧ (t.pm p).past15 = ((s.begun dt).binOver (s.pm p).bin15 ((s.pm p).bin15.start + 900) :: (s.pm p).past15).take 32 ∧
      (t.pm p).bin15 = PmBin.current (start15 (s.begun dt).hmSec) false ∧
      (s.dayOfs = (s.pm p).dayOfs → end24 (s.pm p).bin24.start s.dayOfs ≤ (s.begun dt).hmSec →
        (t.pm p).prev24 = (s.begun dt).binOver (s.pm p).bin24 (end24 (s.pm p).bin24.start s.dayOfs) ∧
        (t.pm p).bin24 = PmBin.current (start24 (s.begun dt).hmSec s.dayOfs) false) ∧ (s.begun dt).frame t { parts := [.pms] } := by
  obtain ⟨d, more, since, touched, -⟩ := State.pm_pmTouch (s := s.begun dt) (p := p) (by rwa [State.pm_begun])
  rw [State.pm_begun] at touched
  obtain ⟨t, next, pm, frame⟩ := binEnd_moves hp hu touched hd
  have ended (b : PmBin) (fin : Nat) : ((s.begun dt).pmTouch p).binOver b fin = (s.begun dt).binOver b fin :=
    State.binOver_congr (State.time_pmTouch _ p) b fin
  have ofs : ((s.begun dt).pmTouch p).dayOfs = s.dayOfs := by simp
  have sec := State.hmSec_pmTouch (s.begun dt) p
  refine ⟨t, next, ?_, ?_, fun ho h24 => ?_, frame⟩
  · rw [pm, State.binsMoved_15.1, ended]
  · rw [pm, State.binsMoved_15.2, sec]
  · obtain ⟨prev, cur⟩ := State.binsMoved_24 (s := (s.begun dt).pmTouch p) (x := { s.pm p with acc := some d, wait := (s.pm p).wait ++ more, since := since })
      (by rw [ofs, ho]) (by rwa [ofs, sec])
    rw [pm, prev, cur, ended, ofs, sec]
    exact ⟨rfl, rfl⟩

theorem binEnd_untouched (s : State) (dt p : Nat) (hp : p < 144) (hu : s.mainUp = true) (hc : (s.pm p).acc = none)
    (hd : start15 s.isl.upSec + 900 ≤ (s.begun dt).hmSec) :
    ∃ t, exec (.binEnd dt p) s = .next t ∧ (t.pm p).bin15 = PmBin.current (start15 (s.begun dt).hmSec) false ∧
      (t.pm p).past15 = ((s.begun dt).binOver (PmBin.current (start15 s.isl.upSec) true) (start15 s.isl.upSec + 900) :: (s.pm p).past15).take 32 ∧
      (s.begun dt).frame t { parts := [.pms] } := by
  obtain ⟨d, w, since, touched⟩ := State.pm_pmTouch_first (s := s.begun dt) (p := p) (by rwa [State.pm_begun])
  rw [State.pm_begun, State.begun_isl] at touched
  obtain ⟨t, next, pm, frame⟩ := binEnd_moves hp hu touched hd
  refine ⟨t, next, ?_, ?_, frame⟩
  · rw [pm, State.binsMoved_15.2, State.hmSec_pmTouch]
  · rw [pm, State.binsMoved_15.1, State.binOver_congr (State.time_pmTouch _ p)]
    rfl

/-! #### Closing -/

/-- The last number below a bound that satisfies a condition is the first found from above. -/
theorem find?_reverse_range {may : Nat → Bool} {i n : Nat} (hi : i < n) (hm : may i = true) (ha : ∀ j, i < j → j < n → may j = false) :
    (List.range n).reverse.find? may = some i := by
  induction n with
  | zero => omega
  | succ n ih =>
    rw [List.range_succ, List.reverse_append, List.reverse_singleton, List.singleton_append]
    rcases Nat.lt_succ_iff_lt_or_eq.1 hi with less | rfl
    · rw [List.find?_cons_of_neg (by simp [ha n less (Nat.lt_succ_self n)])]
      exact ih less (fun j hj hn => ha j hj (Nat.lt_succ_of_lt hn))
    · exact List.find?_cons_of_pos hm

/-- The past bins with one of them closed. -/
def closedAt (past : List PmBin) (i : Nat) : List PmBin := past.mapIdx (fun j k => if j = i then { k with open_ := false } else k)

theorem getD_closedAt_ne (past : List PmBin) {i j : Nat} (h : j ≠ i) : (closedAt past i).getD j PmBin.empty = past.getD j PmBin.empty := by
  rw [List.getD_eq_getElem?_getD, List.getD_eq_getElem?_getD, closedAt, List.getElem?_mapIdx]
  cases past[j]? <;> simp [h]

theorem open_closedAt (past : List PmBin) (i : Nat) : ((closedAt past i).getD i PmBin.empty).open_ = false := by
  rw [List.getD_eq_getElem?_getD, closedAt, List.getElem?_mapIdx]
  cases past[i]? <;> simp [PmBin.empty]

/-- Without a ring for its record, a bin that closes raises its event alone. -/
theorem State.binShut_15 {s : State} {p : Nat} (h : s.fld Fld.AV_PM_CTRL_RING_EN = 0) (b : PmBin) :
    s.binShut p false b = s.raise (Fld.LF_DEF_INT_STATUS_BIN15_CLOSED p) := by
  have off : (s.raise (Fld.LF_DEF_INT_STATUS_BIN15_CLOSED p)).fld Fld.AV_PM_CTRL_RING_EN = 0 := by
    rw [State.fld_raise_ne _ _ _ (by simp only [Fld.AV_PM_CTRL_RING_EN, Fld.LF_DEF_INT_STATUS_BIN15_CLOSED, Reg.AV_PM_CTRL, Reg.LF_DEF_INT_STATUS]; omega), h]
  exact if_neg (by rw [State.bit]; simp [off])

/-- The oldest bin of which no second waits closes (R105). -/
theorem State.binClose_due {s : State} {p i : Nat} {x : Pm} (hx : (s.pmTouch p).pm p = x) (hi : i < 32)
    (ho : (x.past15.getD i PmBin.empty).open_ = true) (hl : ∀ j, i < j → j < 32 → (x.past15.getD j PmBin.empty).open_ = false)
    (hd : (x.past15.getD i PmBin.empty).fin + (10 * hmSecond : Nat) ≤ s.time.flow) (hw : x.wait = []) (hh : x.hist = []) :
    s.binClose p = ((s.pmTouch p).setPm p { x with past15 := closedAt x.past15 i }).binShut p false (x.past15.getD i PmBin.empty) := by
  rw [State.binClose]
  dsimp only
  rw [hx, find?_reverse_range (i := i) hi]
  · rfl
  · simp only [Pm.mayClose, ho, State.time_pmTouch, hd, hw, hh, List.all_nil, Bool.and_self, decide_true]
  · intro j hj hn
    rw [Pm.mayClose, hl j hj hn]
    simp only [Bool.false_and]

theorem binClose_closes (s : State) (dt p i : Nat) (c : PmSec) (hp : p < 144) (hu : s.mainUp = true) (hc : (s.pm p).acc = some c)
    (he : (s.begun dt).hmSec ≤ c.sec) (hi : i < 32) (_hlen : (s.pm p).past15.length = 32) (ho : ((s.pm p).past15.getD i PmBin.empty).open_ = true)
    (hl : ∀ j, i < j → j < 32 → ((s.pm p).past15.getD j PmBin.empty).open_ = false)
    (hd : ((s.pm p).past15.getD i PmBin.empty).fin + (10 * hmSecond : Nat) ≤ (s.begun dt).time.flow) (hw : (s.pm p).wait = []) (hh : (s.pm p).hist = [])
    (hr : s.fld Fld.AV_PM_CTRL_RING_EN = 0) :
    ∃ t, exec (.binClose dt p) s = .next t ∧ ((t.pm p).past15.getD i PmBin.empty).open_ = false ∧ t.fld (Fld.LF_DEF_INT_STATUS_BIN15_CLOSED p) = 1 ∧
      (∀ j, j ≠ i → (t.pm p).past15.getD j PmBin.empty = (s.pm p).past15.getD j PmBin.empty) ∧
      (s.begun dt).frame t { parts := [.pms], regs := (· = Reg.LF_DEF_INT_STATUS p) } := by
  obtain ⟨d, more, since, touched, none⟩ := State.pm_pmTouch (s := s.begun dt) (p := p) (by rwa [State.pm_begun])
  rw [none he, State.pm_begun, hw] at touched
  generalize hx : ({ s.pm p with acc := some d, wait := [] ++ [], since := since } : Pm) = x at touched
  have past : x.past15 = (s.pm p).past15 := by rw [← hx]
  have act : (s.begun dt).binClose p = (((s.begun dt).pmTouch p).setPm p { x with past15 := closedAt x.past15 i }).raise (Fld.LF_DEF_INT_STATUS_BIN15_CLOSED p) := by
    rw [State.binClose_due touched hi (by rwa [past]) (by rwa [past]) (by rwa [past]) (by rw [← hx]; rfl) (by rw [← hx, hh]),
      State.binShut_15 (by simpa using hr)]
  obtain ⟨next, frame⟩ := exec_main_touches (c := .binClose dt p) (x := { parts := [.pms], regs := (· = Reg.LF_DEF_INT_STATUS p) }) rfl
    (decide_eq_true hp) hu act (State.leaves_trans (State.leaves_pmTouch _ p (by simp)) (State.leaves_trans (State.leaves_setPm _ p _ _ (by simp))
      (State.leaves_raise _ _ _ rfl)))
  refine ⟨_, next, ?_, ?_, fun j hj => ?_, frame⟩
  · rw [State.pm_settle, State.pm_raise, State.pm_setPm_self]
    exact open_closedAt x.past15 i
  · rw [State.fld_settle, State.fld_raise_self _ _ (by simp [Fld.LF_DEF_INT_STATUS_BIN15_CLOSED]) (by simp [Fld.LF_DEF_INT_STATUS_BIN15_CLOSED])]
  · rw [State.pm_settle, State.pm_raise, State.pm_setPm_self, ← past]
    exact getD_closedAt_ne x.past15 hj

/-! #### The window -/

/-- The window shows the first words of a list. -/
theorem State.winWritten (s : State) (p : Nat) (v : Nat → Word) (n : Nat) :
    (∀ k, k < n → ((List.range n).foldl (fun s k => s.setReg (Reg.LF_PM_WIN p k) (v k)) s).reg (Reg.LF_PM_WIN p k) = v k) ∧
    s.leaves ((List.range n).foldl (fun s k => s.setReg (Reg.LF_PM_WIN p k) (v k)) s) { regs := fun a => ∃ k, k < n ∧ a = Reg.LF_PM_WIN p k } := by
  induction n with
  | zero => exact ⟨fun _ h => absurd h (Nat.not_lt_zero _), State.leaves_refl s _⟩
  | succ n ih =>
    obtain ⟨words, left⟩ := ih
    rw [List.range_succ, List.foldl_append, List.foldl_cons, List.foldl_nil]
    refine ⟨fun k hk => ?_, State.leaves_trans (left.mono (by simp) ?_ (fun _ h => h.elim) (by simp) (by simp))
      (State.leaves_setReg _ _ _ _ ⟨n, Nat.lt_succ_self n, rfl⟩)⟩
    · rcases Nat.lt_succ_iff_lt_or_eq.1 hk with less | rfl
      · rw [State.reg_setReg_ne _ _ _ _ (by simp only [Reg.LF_PM_WIN]; omega), words k less]
      · exact State.reg_setReg_self _ _ _
    · rintro a ⟨k, hk, rfl⟩
      exact ⟨k, Nat.lt_succ_of_lt hk, rfl⟩

theorem pmSnapshot_shows (s : State) (dt p i : Nat) (b : PmBin) (hp : p < 144) (hi : i < 35) (hu : s.mainUp = true) (ha : s.portAbsent p = false)
    (hb : (s.pm p).bin i = some b) :
    ∃ t, exec (.pmSnapshot dt p i) s = .next t ∧ t.fld (Fld.LF_PM_SEL_BIN p) = i ∧ (∀ k, k < 11 → t.reg (Reg.LF_PM_WIN p k) = b.words.getD k 0) ∧
      ((s.begun dt).regUse (Reg.PT_CTRL p)).frame t { regs := fun a => a = Reg.LF_PM_SEL p ∨ ∃ k, k < 11 ∧ a = Reg.LF_PM_WIN p k } := by
  generalize hu' : (s.begun dt).regUse (Reg.PT_CTRL p) = u
  have pm : u.pm p = s.pm p := by
    rw [← hu', State.pm, show ((s.begun dt).regUse (Reg.PT_CTRL p)).pms = (s.begun dt).pms from
      (State.leaves_regUse _ _).part (k := .pms) (by simp [regUseTouch]), ← State.pm, State.pm_begun]
  have act : u.pmSnapshot p i = (List.range 11).foldl (fun s k => s.setReg (Reg.LF_PM_WIN p k) (b.words.getD k 0)) (u.setF (Fld.LF_PM_SEL_BIN p) i) := by
    rw [State.pmSnapshot, pm, hb]
  obtain ⟨words, left⟩ := State.winWritten (u.setF (Fld.LF_PM_SEL_BIN p) i) p (fun k => b.words.getD k 0) 11
  rw [← act] at words left
  obtain ⟨next, frame⟩ := exec_portReg (c := .pmSnapshot dt p i) (f := fun s => s.pmSnapshot p i)
    (x := { regs := fun a => a = Reg.LF_PM_SEL p ∨ ∃ k, k < 11 ∧ a = Reg.LF_PM_WIN p k }) rfl
    (by simp only [Instr.wellFormed, Bool.and_eq_true, decide_eq_true_eq]; omega) hu ha hu'
    (State.leaves_trans (State.leaves_setF _ _ _ _ (.inl rfl)) (left.mono (by simp) (fun _ h => .inr h) (fun _ h => h.elim) (by simp) (by simp)))
  refine ⟨_, next, ?_, fun k hk => by rw [State.reg_settle, words k hk], frame⟩
  have apart : ¬ ∃ k, k < 11 ∧ (Fld.LF_PM_SEL_BIN p).addr = Reg.LF_PM_WIN p k := by
    rintro ⟨k, -, h⟩
    simp only [Fld.LF_PM_SEL_BIN, Reg.LF_PM_SEL, Reg.LF_PM_WIN] at h
    omega
  rw [State.fld_settle, left.fld apart, State.fld_setF_self _ _ _ (by simp [Fld.LF_PM_SEL_BIN])]
  exact Nat.mod_eq_of_lt (hi.trans (by simp [Fld.LF_PM_SEL_BIN]))

/-- Settles O24: every clause by what the second under way leaves of the bins, `State.pm_pmTouch`. -/
theorem binsAndWindow : Obligations.BinsAndWindow := ⟨secondFinal_counts, binEnd_shifts, binEnd_untouched, binClose_closes, pmSnapshot_shows⟩

end Sys2Proof.Machine
end

/-! ### What a fall of LINK and the end of SYNC leave of a line's state -/

section
namespace Sys2Proof.Machine

/-- Fields that neither a fall of LINK nor the end of SYNC writes: those below a stream's mute, apart from LINK and the words of events, delay and alignment. -/
structure Fld.spared (p : Nat) (f : Fld) : Prop where
  low : f.lo + f.len ≤ 30
  link : (Fld.PT_STATUS_LINK p).apart f
  word : f.addr ∉ [Reg.PT_INT_STATUS p, Reg.PT_TS_VAR p, Reg.LF_STATUS p, Reg.LF_INT_STATUS p, Reg.CM_INT_STATUS]

/-- The words of a port, by their place in it. -/
theorem Fld.spared_port {p o lo len : Nat} (low : lo + len ≤ 30) (ho : o ∉ [0x8, 0xC, 0x10C, 0x808, 0x80C]) :
    Fld.spared p ⟨0x100000 + p * 0x1000 + o, lo, len⟩ := by
  simp only [List.mem_cons, List.not_mem_nil, or_false, not_or] at ho
  obtain ⟨status, int, var, lf, lfInt⟩ := ho
  refine ⟨low, .inl ?_, ?_⟩
  · simp only [Fld.PT_STATUS_LINK, Reg.PT_STATUS]
    omega
  · simp only [List.mem_cons, List.not_mem_nil, or_false, Reg.PT_INT_STATUS, Reg.PT_TS_VAR, Reg.LF_STATUS, Reg.LF_INT_STATUS, Reg.CM_INT_STATUS]
    omega

/-- The fields of PT_STATUS beside LINK. -/
theorem Fld.spared_status {p lo len : Nat} (low : lo + len ≤ 30) (high : 1 ≤ lo) : Fld.spared p ⟨Reg.PT_STATUS p, lo, len⟩ := by
  refine ⟨low, .inr (.inr high), ?_⟩
  simp only [List.mem_cons, List.not_mem_nil, or_false, Reg.PT_STATUS, Reg.PT_INT_STATUS, Reg.PT_TS_VAR, Reg.LF_STATUS, Reg.LF_INT_STATUS, Reg.CM_INT_STATUS]
  omega

/-- The mode, the spared fields, the detected defects and the 15-minute bin of a port are as they were (that bin once the port has a second under way). -/
structure LineKept (p : Nat) (s t : State) : Prop where
  act : t.act = s.act
  fld : ∀ f, Fld.spared p f → t.fld f = s.fld f
  det : (t.pm p).det = (s.pm p).det
  acc : (s.pm p).acc ≠ none → (t.pm p).acc ≠ none
  bin : (s.pm p).acc ≠ none → (t.pm p).bin15 = (s.pm p).bin15

section
variable {p : Nat} {s t u : State}

theorem LineKept.refl (p : Nat) (s : State) : LineKept p s s := ⟨rfl, fun _ _ => rfl, rfl, id, fun _ => rfl⟩

theorem LineKept.trans (h : LineKept p s t) (g : LineKept p t u) : LineKept p s u :=
  ⟨g.act.trans h.act, fun f hf => (g.fld f hf).trans (h.fld f hf), g.det.trans h.det, g.acc ∘ h.acc, fun ha => (g.bin (h.acc ha)).trans (h.bin ha)⟩

theorem LineKept.ite (c : Prop) [Decidable c] (h : LineKept p s t) (g : LineKept p s u) : LineKept p s (if c then t else u) := by
  split
  · exact h
  · exact g

theorem LineKept.foldl {α : Type} (f : State → α → State) (h : ∀ s a, LineKept p s (f s a)) (l : List α) (s : State) : LineKept p s (l.foldl f s) := by
  induction l generalizing s with
  | nil => exact .refl p s
  | cons a l ih => exact (h s a).trans (ih _)

/-- Where no register, mode or defect changes. -/
theorem LineKept.of_same (hr : t.regs = s.regs) (ha : t.act = s.act) (hp : t.pms = s.pms) : LineKept p s t := by
  have pm : t.pm p = s.pm p := by rw [State.pm, hp, State.pm]
  exact ⟨ha, fun f _ => by rw [State.fld, State.reg, hr, State.fld, State.reg], by rw [pm], by rw [pm]; exact id, fun _ => by rw [pm]⟩

theorem LineKept.of_leaves {x : Touch} (h : s.leaves t x) (ha : .act ∉ x.parts) (hp : .pms ∉ x.parts) (hr : ∀ f, Fld.spared p f → ¬ x.regs f.addr) :
    LineKept p s t := by
  have pm : t.pm p = s.pm p := by rw [State.pm, show t.pms = s.pms from h.part (k := .pms) hp, State.pm]
  exact ⟨h.part (k := .act) ha, fun f hf => h.fld (hr f hf), by rw [pm], by rw [pm]; exact id, fun _ => by rw [pm]⟩

end

section
variable (p : Nat) (s : State)

theorem State.lineKept_setF {f : Fld} (v : Nat) (hf : f.lo + f.len ≤ 32) (h : ∀ g, Fld.spared p g → f.apart g) : LineKept p s (s.setF f v) :=
  ⟨rfl, fun g hg => State.fld_setF_of_apart s v hf (h g hg), rfl, id, fun _ => rfl⟩

/-- The fields of the words that are not spared. -/
theorem State.lineKept_setWord {f : Fld} (v : Nat) (hf : f.lo + f.len ≤ 32)
    (h : f.addr ∈ [Reg.PT_INT_STATUS p, Reg.PT_TS_VAR p, Reg.LF_STATUS p, Reg.LF_INT_STATUS p, Reg.CM_INT_STATUS]) : LineKept p s (s.setF f v) :=
  State.lineKept_setF p s v hf (fun _ hg => .inl (fun same => hg.word (same ▸ h)))

/-- The bins and the defects of a port's monitoring stay with what its timers and events change. -/
theorem State.lineKept_setPm (x : Pm) (hd : x.det = (s.pm p).det) (ha : x.acc = (s.pm p).acc) (hb : x.bin15 = (s.pm p).bin15) :
    LineKept p s (s.setPm p x) := by
  refine ⟨rfl, fun _ _ => rfl, ?_, ?_, fun _ => ?_⟩ <;> rw [State.pm_setPm_self]
  · exact hd
  · rw [ha]; exact id
  · exact hb

theorem State.lineKept_count (a n : Nat) : LineKept p s (s.count a n) := .of_same rfl rfl rfl
theorem State.lineKept_setPort (q : Nat) (x : Port) : LineKept p s (s.setPort q x) := .of_same rfl rfl rfl
theorem State.lineKept_setCrf (q : Nat) (x : Crf) : LineKept p s (s.setCrf q x) := .of_same rfl rfl rfl
theorem State.lineKept_drawn : LineKept p s s.drawn := .of_same rfl rfl rfl

theorem State.lineKept_lossAt (q : Nat) : LineKept p s (s.lossAt q) :=
  .ite _ (.foldl _ (fun s _ => State.lineKept_setF p s _ (by simp [Fld.TW_GEN_MUTED]) (fun _ hg => .inr (.inl hg.low))) _ s) (.refl p s)

theorem State.lineKept_countLoss (o : Nat) : LineKept p s (s.countLoss p o) :=
  (State.lineKept_count p s _ 1).trans (State.lineKept_lossAt p _ p)

theorem State.lineKept_rxFree : LineKept p s (s.rxFree p) :=
  (LineKept.of_leaves (State.leaves_releaseCells s _ _ _ { parts := [.pool] } (by simp)) (by simp) (by simp) (fun _ _ => id)).trans
    (State.lineKept_setPort p _ p _)

theorem State.lineKept_rxAbort : LineKept p s (s.rxAbort p) :=
  .ite _ (((State.lineKept_countLoss p s 0x050).trans (.ite _ (State.lineKept_countLoss p _ 0x378) (.refl p _))).trans (State.lineKept_rxFree p _)) (.refl p s)

theorem State.lineKept_rxCut : LineKept p s (s.rxCut p) :=
  .ite _ (((LineKept.ite _ (.refl p s) (State.lineKept_countLoss p s 0x050)).trans (State.lineKept_setCrf p _ p _)).trans (State.lineKept_rxAbort p _))
    (State.lineKept_rxAbort p s)

/-! #### The end of a transmission -/

theorem State.lineKept_countTx (bs : List Byte) (sent : Nat) : LineKept p s (s.countTx p bs sent) :=
  (((State.lineKept_count p s _ _).trans (State.lineKept_count p _ _ _)).trans (State.lineKept_count p _ _ _)).trans (State.lineKept_count p _ _ _)

theorem State.lineKept_jobEnd (r num status w0 w1 : Nat) : LineKept p s (s.jobEnd r num status w0 w1) :=
  .of_leaves (State.leaves_jobEnd s r num status w0 w1 { parts := [.hi], rings := [r] } (by simp) (by simp)) (by simp) (by simp) (fun _ _ => id)

theorem State.lineKept_decRef (f : Nat) : LineKept p s (s.decRef f) := by
  refine .of_leaves (State.leaves_decRef s f
    { parts := [.pool, .fab, .hi], rings := (((s.frame? f).bind (·.host)).map (·.ring)).toList } (by simp) (by simp) (fun y k hy hk _ => ?_))
    (by simp) (by simp) (fun _ _ => id)
  simp [hy, hk]

theorem State.lineKept_leaveEgress (x : QEnt) : LineKept p s (s.leaveEgress x) := by
  delta State.leaveEgress
  extract_lets s1 _ s2 _ s3
  have out : LineKept p s s1 := .of_same rfl rfl rfl
  have copied : LineKept p s s2 := .ite _ (out.trans (.of_same rfl rfl rfl)) out
  have noted : LineKept p s s3 := .ite _ (copied.trans (State.lineKept_setPort p s2 _ _)) copied
  exact noted.trans (State.lineKept_decRef p s3 _)

theorem State.lineKept_txTruncated (t : TxSt) (n ts : Nat) : LineKept p s (s.txTruncated p t n ts) := by
  delta State.txTruncated
  extract_lets s1 s2
  have counted : LineKept p s s1 := (State.lineKept_countTx p s _ _).trans (State.lineKept_count p _ _ _)
  have ended : LineKept p s s2 := by
    unfold s2
    split
    · split
      · exact .ite _ (counted.trans (State.lineKept_jobEnd p _ _ _ _ _ _)) counted
      · exact counted
    · exact counted
  exact ended.trans (State.lineKept_leaveEgress p s2 _)

theorem State.lineKept_txDone (t : TxSt) (f : Frame) : LineKept p s (s.txDone p t f) := by
  delta State.txDone
  extract_lets s1 s2
  have counted : LineKept p s s1 := State.lineKept_countTx p s _ _
  have ended : LineKept p s s2 := by
    unfold s2
    split
    · exact .ite _ (counted.trans (State.lineKept_jobEnd p _ _ _ _ _ _)) counted
    · exact counted
  exact (ended.trans (State.lineKept_leaveEgress p s2 _)).trans (.ite _ (.of_same rfl rfl rfl) (.refl p _))

theorem State.lineKept_toLine (bs : List Byte) (cut : Bool) (e : OutEv) : LineKept p s (s.toLine p bs cut e) :=
  .ite _ (State.lineKept_setPort p s p _) (.of_same rfl rfl rfl)

theorem State.lineKept_ptpEdit (t : TxSt) (f : Frame) : LineKept p s (s.ptpEdit p t f).2 := by
  rcases State.ptpEdit_counts p s t f with e | e | e <;> rw [e]
  · exact .refl p s
  · exact State.lineKept_count p s _ 1
  · exact State.lineKept_count p s _ 1

theorem State.lineKept_txEnd : LineKept p s (s.txEnd p) := by
  have freed := State.lineKept_setPort p s p { s.port p with tx := none }
  unfold State.txEnd
  split
  · exact .refl p s
  · split
    · dsimp only
      split
      · exact freed.trans (State.lineKept_leaveEgress p _ _)
      · exact ((freed.trans (State.lineKept_ptpEdit p _ _ _)).trans (State.lineKept_toLine p _ _ _ _)).trans (State.lineKept_txDone p _ _ _)
    · exact .refl p s

theorem State.lineKept_txCut : LineKept p s (s.txCut p) := by
  have freed := State.lineKept_setPort p s p { s.port p with tx := none }
  unfold State.txCut
  split
  · exact .refl p s
  · split
    · exact State.lineKept_txEnd p s
    · dsimp only
      split
      · exact ((freed.trans (State.lineKept_drawn p _)).trans (State.lineKept_toLine p _ _ _ _)).trans (State.lineKept_txTruncated p _ _ _ _)
      · exact freed.trans (State.lineKept_txTruncated p _ _ 0 0)

theorem State.lineKept_asideCut : LineKept p s (s.asideCut p) :=
  (State.lineKept_setPort p s p { s.port p with aside := [] }).trans (.foldl _ (fun s t => State.lineKept_txTruncated p s t 0 0) _ _)

theorem State.lineKept_framerCut : LineKept p s (s.framerCut p) := by
  delta State.framerCut
  extract_lets x _ s1 s2
  have cut : LineKept p s s2 := (State.lineKept_setCrf p s p _).trans (.foldl _ (fun s t => State.lineKept_txTruncated p s t 0 0) _ s1)
  split
  · exact cut
  · exact (cut.trans (State.lineKept_setCrf p s2 p _)).trans (State.lineKept_txTruncated p _ _ _ _)

/-! #### The tables and the hold -/

theorem State.lineKept_journal (kind origin sub : Nat) (args : List Nat) : LineKept p s (s.journal kind origin sub args) :=
  .of_leaves (State.leaves_journal s kind origin sub args { parts := [.jn], regs := (· = Reg.CM_INT_STATUS) } (by simp) rfl) (by simp) (by simp)
    (fun f hf same => hf.word (by rw [show f.addr = Reg.CM_INT_STATUS from same]; simp))

theorem State.lineKept_flushOnDown : LineKept p s (s.flushOnDown p) := by
  delta State.flushOnDown
  extract_lets ks r nib
  have flushed : LineKept p s r.2 := by
    refine List.foldlRecOn (motive := fun (a : Nat × State) => LineKept p s a.2) _ _ (.refl p s) (fun a ha k _ => ?_)
    exact (ha.trans (.foldl (fun (s : State) (e : Nat × MacEnt) => s.setMac k e.1 MacEnt.empty) (fun _ _ => .of_same rfl rfl rfl) _ a.2)).trans
      (State.lineKept_count p _ _ _)
  exact .ite _ (.refl p s) (flushed.trans (State.lineKept_journal p r.2 _ _ _ _))

theorem State.lineKept_doomPort : LineKept p s (s.doomPort p) := .of_same rfl rfl rfl

theorem State.lineKept_holdStart : LineKept p s (s.holdStart p) := by
  have counted := State.lineKept_count p s (Ctr.port p 0x3A0) 1
  have held (x : Port) := counted.trans (State.lineKept_setPort p _ p x)
  exact .ite _ (.ite _ ((held _).trans (State.lineKept_doomPort p _)) (held _)) (.refl p s)

theorem State.lineKept_holdReturn : LineKept p s (s.holdReturn p) :=
  .ite _ ((State.lineKept_count p s _ 1).trans (State.lineKept_setPort p _ p _)) (.ite _ (State.lineKept_setPort p s p _) (.refl p s))

theorem State.lineKept_holdStep (t : State) : LineKept p t (s.holdStep p t) :=
  .ite _ (.refl p t) (.ite _ (State.lineKept_holdStart p t) (State.lineKept_holdReturn p t))

theorem State.lineKept_linkFallen : LineKept p s (s.linkFallen p) :=
  ((State.lineKept_setF p s 0 (by simp [Fld.PT_STATUS_LINK]) (fun _ hg => hg.link)).trans
    (State.lineKept_setWord p _ 1 (by simp [Fld.PT_INT_STATUS_LINK_CHG]) (by simp [Fld.PT_INT_STATUS_LINK_CHG]))).trans (State.lineKept_count p _ _ _)

/-- A fall of LINK. -/
theorem State.lineKept_linkFall : LineKept p s (s.linkFall p) := by
  unfold State.linkFall
  extract_lets s1 s2 s3 _ s4
  have ended : LineKept p s s2 := ((((State.lineKept_linkFallen p s).trans (State.lineKept_rxCut p s1)).trans (State.lineKept_txCut p _)).trans
    (State.lineKept_asideCut p _)).trans (State.lineKept_framerCut p _)
  have drawn := State.lineKept_drawn p s2
  have open_ : LineKept p s2.drawn s3 := State.lineKept_setWord p s2.drawn _ (by simp [Fld.PT_TS_VAR_RX_VAR]) (by simp [Fld.PT_TS_VAR_RX_VAR])
  have looped : LineKept p s3 s4 := State.lineKept_setPort p s3 p _
  exact .ite _ ((((((ended.trans drawn).trans open_).trans looped).trans (State.lineKept_lossAt p s4 p)).trans (State.lineKept_flushOnDown p _)).trans
    (State.lineKept_holdStep p s _)) (.refl p s)

/-! #### The end of SYNC -/

theorem State.lineKept_setRx (x : CrfRx) : LineKept p s (s.setRx p x) := State.lineKept_setCrf p s p _

theorem State.lineKept_slotReject (i : Nat) (bs : List Byte) : LineKept p s (s.slotReject p i bs) :=
  .ite _ (.refl p s) (.ite _ ((State.lineKept_count p s _ 1).trans (State.lineKept_count p _ _ 1)) (State.lineKept_count p s _ 1))

theorem State.lineKept_slotBreak : LineKept p s (s.slotBreak p) :=
  .ite _ ((State.lineKept_setRx p s _).trans (State.lineKept_slotReject p _ _ _)) (.refl p s)

theorem State.lineKept_delinLost : LineKept p s (s.delinLost p) := by
  delta State.delinLost
  extract_lets x s1 s2
  have sought : LineKept p s s2 := (LineKept.ite _ (State.lineKept_rxCut p s) (.refl p s)).trans (State.lineKept_setRx p s1 _)
  exact .ite _ ((sought.trans (State.lineKept_setWord p s2 0 (by simp [Fld.LF_STATUS_DELIN]) (by simp [Fld.LF_STATUS_DELIN]))).trans
    (State.lineKept_setWord p _ 1 (by simp [Fld.LF_INT_STATUS_DELIN_LOSS]) (by simp [Fld.LF_INT_STATUS_DELIN_LOSS]))) sought

theorem State.lineKept_setLock (on : Bool) : LineKept p s (s.setLock p on) :=
  .ite _ (.refl p s) (((State.lineKept_setWord p s _ (by simp [Fld.LF_STATUS_MF_LOCK]) (by simp [Fld.LF_STATUS_MF_LOCK])).trans
    (State.lineKept_setWord p _ 1 (by simp [Fld.LF_INT_STATUS_MF_CHG]) (by simp [Fld.LF_INT_STATUS_MF_CHG]))).trans (State.lineKept_setPm p _ _ rfl rfl rfl))

theorem State.lineKept_lfShow : LineKept p s (s.lfShow p) :=
  (State.lineKept_setWord p s _ (by simp [Fld.LF_STATUS_FA_STATE]) (by simp [Fld.LF_STATUS_FA_STATE])).trans
    (State.lineKept_setWord p _ _ (by simp [Fld.LF_STATUS_CANDS_ACTIVE]) (by simp [Fld.LF_STATUS_CANDS_ACTIVE]))

theorem State.lineKept_syncEnd : LineKept p s (s.syncEnd p) := by
  delta State.syncEnd
  extract_lets s1 s2
  have left : LineKept p s s1 := State.lineKept_setWord p s 0 (by simp [Fld.LF_STATUS_FA_STATE]) (by simp [Fld.LF_STATUS_FA_STATE])
  have raised : LineKept p s s2 := (left.trans (State.lineKept_setRx p s1 _)).trans
    (State.lineKept_setWord p _ 1 (by simp [Fld.LF_INT_STATUS_SYNC_CHG]) (by simp [Fld.LF_INT_STATUS_SYNC_CHG]))
  exact (raised.trans (State.lineKept_setPm p s2 { s2.pm p with lofAt := s2.now, lomAt := s2.now } rfl rfl rfl)).trans (State.lineKept_lfShow p _)

theorem State.lineKept_syncLeave : LineKept p s (s.syncLeave p) :=
  .ite _ ((((State.lineKept_slotBreak p s).trans (State.lineKept_delinLost p _)).trans (State.lineKept_setLock p _ false)).trans
    (State.lineKept_syncEnd p _)) (.refl p s)

/-- A receiver that starts to hunt. -/
theorem State.lineKept_crfHunt : LineKept p s (s.crfHunt p) :=
  ((State.lineKept_syncLeave p s).trans (State.lineKept_setRx p _ _)).trans (State.lineKept_lfShow p _)

/-- The second under way. -/
theorem State.lineKept_pmTouch : LineKept p s (s.pmTouch p) := by
  have left := State.pmTouch_left s p
  rcases hc : (s.pm p).acc with _ | c
  · obtain ⟨d, w, since, touched⟩ := State.pm_pmTouch_first hc
    exact ⟨left.part (k := .act) (by simp [pmsTouch]), fun f _ => State.fld_pmTouch s p f, by rw [touched], fun h => absurd hc h, fun h => absurd hc h⟩
  · obtain ⟨d, more, since, touched, -⟩ := State.pm_pmTouch hc
    exact ⟨left.part (k := .act) (by simp [pmsTouch]), fun f _ => State.fld_pmTouch s p f, by rw [touched], fun _ => by rw [touched]; exact nofun,
      fun _ => by rw [touched]⟩

end

end Sys2Proof.Machine
end

/-! ### A change of defects and what follows it (R89, R90, R95) -/

section
namespace Sys2Proof.Machine

/-! #### The view of the detected defects (R90) -/

/-- The defects that a port looks at: in an Ethernet mode dLOS alone (R92). -/
def State.seenDefs (s : State) (p : Nat) : Nat :=
  if s.crfOn p then (if s.watches p then (s.pm p).det else 0) else (if s.watches p then (s.pm p).det else 0) % 2

/-- A defect is shown where it is seen and no defect seen masks it. -/
theorem State.bitOf_defView (s : State) (p d : Nat) : bitOf (s.defView p) d =
    decide (d < 6 ∧ (bitOf (s.seenDefs p) d && !((maskOf d).any (fun m => bitOf (s.seenDefs p) m))) = true) :=
  bitOf_foldl_bits (c := fun d => (bitOf (s.seenDefs p) d && !((maskOf d).any (fun m => bitOf (s.seenDefs p) m))) = true) 6 d

theorem State.defView_lt (s : State) (p : Nat) : s.defView p < 2 ^ 6 :=
  foldl_bits_lt (c := fun d => (bitOf (s.seenDefs p) d && !((maskOf d).any (fun m => bitOf (s.seenDefs p) m))) = true) 6

section
variable {s : State} {p d : Nat}

/-- A port of CRF that watches its line sees all its defects. -/
theorem State.seenDefs_crf (hw : s.watches p = true) (hc : s.crfOn p = true) : s.seenDefs p = (s.pm p).det := by
  rw [State.seenDefs, if_pos hc, if_pos hw]

/-- No defect is seen that is not detected. -/
theorem State.bitOf_seenDefs (h : s.hasDef p d = false) : bitOf (s.seenDefs p) d = false := by
  have seen : bitOf (if s.watches p then (s.pm p).det else 0) d = false := by
    split
    · exact h
    · exact bitOf_zero d
  rw [State.seenDefs]
  split
  · exact seen
  · rw [bitOf_eq_testBit] at seen ⊢
    rw [show (2 : Nat) = 2 ^ 1 from rfl, Nat.testBit_mod_two_pow, seen, Bool.and_false]

theorem State.defView_absent (h : s.hasDef p d = false) : bitOf (s.defView p) d = false := by
  rw [State.bitOf_defView, State.bitOf_seenDefs h]
  simp

/-- A loss of signal that a watched line has is shown in any mode, for nothing masks it. -/
theorem State.defView_los (hw : s.watches p = true) (h : s.hasDef p dLOS = true) : bitOf (s.defView p) dLOS = true := by
  have seen : bitOf (s.seenDefs p) dLOS = true := by
    rw [State.seenDefs, if_pos hw]
    split
    · exact h
    · rw [show (2 : Nat) = 2 ^ 1 from rfl, bitOf_mod (by decide)]
      exact h
  rw [State.bitOf_defView, seen]
  rfl

/-- A loss of frame on a CRF port shows, or the loss of signal that masks it does. -/
theorem State.nearDefect_lof (hw : s.watches p = true) (hc : s.crfOn p = true) (h : s.hasDef p dLOF = true) : nearDefect (s.defView p) = true := by
  rcases hl : s.hasDef p dLOS
  · have shown : bitOf (s.defView p) dLOF = true := by
      rw [State.bitOf_defView, State.seenDefs_crf hw hc, show bitOf (s.pm p).det dLOF = true from h]
      simpa [maskOf, dLOF, dLOS, dRDI, dDEG, State.hasDef] using hl
    rw [nearDefect, shown, Bool.or_true, Bool.true_or]
  · rw [nearDefect, State.defView_los hw hl, Bool.true_or, Bool.true_or]

theorem nearDefect_los {v : Nat} (h : bitOf v dLOS = true) : nearDefect v = true := by rw [nearDefect, h, Bool.true_or, Bool.true_or]

/-- The view goes by the mode, the enable and the detected defects. -/
theorem State.defView_congr {t : State} (hc : t.crfOn p = s.crfOn p) (hw : t.watches p = s.watches p) (hd : (t.pm p).det = (s.pm p).det) :
    t.defView p = s.defView p := by
  rw [State.defView, hc, hw, hd, State.defView]

theorem State.crfOn_congr {t : State} (hm : t.mode p = s.mode p) (ha : t.act = s.act) : t.crfOn p = s.crfOn p := by
  rw [State.crfOn, hm, State.abit, State.afld, State.actReg, ha]
  rfl

theorem State.watches_congr {t : State} (hm : t.mode p = s.mode p) (he : t.fld (Fld.PT_CTRL_ENABLE p) = s.fld (Fld.PT_CTRL_ENABLE p)) :
    t.watches p = s.watches p := by
  rw [State.watches, hm, State.bit, he]
  rfl

theorem LineKept.mode {t : State} (h : LineKept p s t) : t.mode p = s.mode p := h.fld _ (Fld.spared_status (by decide) (by decide))

theorem LineKept.crfOn {t : State} (h : LineKept p s t) : t.crfOn p = s.crfOn p := State.crfOn_congr h.mode h.act

theorem LineKept.watches {t : State} (h : LineKept p s t) : t.watches p = s.watches p :=
  State.watches_congr h.mode (h.fld _ (Fld.spared_port (by decide) (by decide)))

theorem LineKept.defs {t : State} (h : LineKept p s t) : t.defs p = s.defs p := h.fld _ (Fld.spared_port (by decide) (by decide))

theorem LineKept.defView {t : State} (h : LineKept p s t) : t.defView p = s.defView p := State.defView_congr h.crfOn h.watches h.det

end

/-! #### The change shown -/

/-- The shown defects are those of a new view. -/
def State.defShown (s : State) (p : Nat) : State :=
  if s.defs p = s.defView p then s
  else ((s.setPm p { s.pm p with failAt := stampBits (s.pm p).failAt (s.defs p ^^^ s.defView p) s.now }).orF (Fld.LF_DEF_INT_STATUS_DEF_CHG p)
    (s.defs p ^^^ s.defView p)).setF (Fld.LF_DEFECTS_DEF p) (s.defView p)

/-- Since when no port-down defect has been present. -/
def State.upHeld (s : State) (p : Nat) : State :=
  if s.downDefect p then s.setPm p { s.pm p with upAt := none } else s.setPm p { s.pm p with upAt := some ((s.pm p).upAt.getD s.now) }

/-- All that follows a change of defects but LINK. -/
def State.defFollowed (s : State) (p : Nat) : State := (((s.pmTouch p).defShown p).upHeld p).pmTouch p

def defTouch (p : Nat) : Touch := { parts := [.pms], regs := (· ∈ [Reg.LF_DEFECTS p, Reg.LF_DEF_INT_STATUS p]) }

section
variable (s : State) (p : Nat)

theorem State.defUpdate_eq : s.defUpdate p =
    if (s.defFollowed p).crfOn p = true ∧ (s.defFollowed p).downDefect p = true then (s.defFollowed p).linkFall p else s.defFollowed p := rfl

theorem State.leaves_defShown : s.leaves (s.defShown p) (defTouch p) :=
  State.leaves_ite _ (fun _ => State.leaves_refl s _) (fun _ => State.leaves_trans (State.leaves_setPm s p _ _ (by simp [defTouch]))
    (State.leaves_trans (State.leaves_orF _ _ _ _ (by simp [defTouch, Fld.LF_DEF_INT_STATUS_DEF_CHG]))
      (State.leaves_setF _ _ _ _ (by simp [defTouch, Fld.LF_DEFECTS_DEF]))))

theorem State.pm_defShown : ∃ at_, (s.defShown p).pm p = { s.pm p with failAt := at_ } := by
  unfold State.defShown
  split
  · exact ⟨_, rfl⟩
  · exact ⟨_, by rw [State.pm_setF, State.pm_orF, State.pm_setPm_self]⟩

theorem State.defs_defShown : (s.defShown p).defs p = s.defView p := by
  unfold State.defShown
  split
  · assumption
  · rw [State.defs, State.fld_setF_self _ _ _ (by simp [Fld.LF_DEFECTS_DEF])]
    exact Nat.mod_eq_of_lt (s.defView_lt p)

/-- Every change of a shown defect is noted. -/
theorem State.defChg_defShown {e : Nat} (he : e < 6) : bitOf ((s.defShown p).fld (Fld.LF_DEF_INT_STATUS_DEF_CHG p)) e =
    (bitOf (s.fld (Fld.LF_DEF_INT_STATUS_DEF_CHG p)) e || (bitOf (s.defs p) e != bitOf (s.defView p) e)) := by
  unfold State.defShown
  split
  · next same => simp [same]
  · rw [State.fld_setF_ne _ _ _ _ (lfDefects_ne_int p).symm, State.bitOf_fld_orF _ _ (by simp [Fld.LF_DEF_INT_STATUS_DEF_CHG]) he, bitOf_xor,
      State.fld_setPm]

/-- The fields of other words, and the other events. -/
theorem State.fld_defShown {f : Fld} (hd : f.addr ≠ Reg.LF_DEFECTS p) (hc : (Fld.LF_DEF_INT_STATUS_DEF_CHG p).apart f) :
    (s.defShown p).fld f = s.fld f := by
  unfold State.defShown
  split
  · rfl
  · rw [State.fld_setF_ne _ _ _ _ hd, State.fld_orF_of_apart _ _ (by simp [Fld.LF_DEF_INT_STATUS_DEF_CHG]) hc, State.fld_setPm]

theorem State.lineKept_upHeld : LineKept p s (s.upHeld p) := .ite _ (State.lineKept_setPm p s _ rfl rfl rfl) (State.lineKept_setPm p s _ rfl rfl rfl)

/-- After the change of what is shown, the line keeps its state, whether LINK falls or not. -/
theorem State.lineKept_defFollowed : LineKept p ((s.pmTouch p).defShown p) (s.defFollowed p) :=
  (State.lineKept_upHeld _ p).trans (State.lineKept_pmTouch p _)
theorem State.lineKept_defUpdate : LineKept p ((s.pmTouch p).defShown p) (s.defUpdate p) :=
  (State.lineKept_defFollowed s p).trans (.ite _ (State.lineKept_linkFall p _) (.refl p _))

theorem State.leaves_defFollowed : s.leaves (s.defFollowed p) (defTouch p) :=
  State.leaves_trans (State.leaves_pmTouch s p (by simp [defTouch])) (State.leaves_trans (State.leaves_defShown _ p)
    (State.leaves_trans (State.leaves_ite _ (fun _ => State.leaves_setPm _ p _ _ (by simp [defTouch])) (fun _ => State.leaves_setPm _ p _ _ (by simp [defTouch])))
      (State.leaves_pmTouch _ p (by simp [defTouch]))))

/-! #### A change of the detected defects -/

/-- The port's words apart from those of the defects. -/
theorem State.fld_defUpdate {f : Fld} (h : Fld.spared p f) (hd : f.addr ≠ Reg.LF_DEFECTS p) (hc : (Fld.LF_DEF_INT_STATUS_DEF_CHG p).apart f) :
    (s.defUpdate p).fld f = s.fld f := by
  rw [(State.lineKept_defUpdate s p).fld f h, State.fld_defShown _ p hd hc, State.fld_pmTouch]

theorem State.det_defUpdate : ((s.defUpdate p).pm p).det = (s.pm p).det := by
  obtain ⟨at_, shown⟩ := State.pm_defShown (s.pmTouch p) p
  rw [(State.lineKept_defUpdate s p).det, shown, (State.lineKept_pmTouch p s).det]

theorem State.defView_defShown : (s.defShown p).defView p = s.defView p := by
  have left := State.leaves_defShown s p
  have mode : (s.defShown p).mode p = s.mode p := left.fld (by simp [defTouch, Fld.PT_STATUS_ACTIVE_MODE, Reg.PT_STATUS, Reg.LF_DEFECTS, Reg.LF_DEF_INT_STATUS])
  obtain ⟨at_, shown⟩ := State.pm_defShown s p
  exact State.defView_congr (State.crfOn_congr mode (left.part (k := .act) (by simp [defTouch])))
    (State.watches_congr mode (left.fld (by simp [defTouch, Fld.PT_CTRL_ENABLE, Reg.PT_CTRL, Reg.LF_DEFECTS, Reg.LF_DEF_INT_STATUS]))) (by rw [shown])

theorem State.defView_defUpdate : (s.defUpdate p).defView p = s.defView p := by
  rw [(State.lineKept_defUpdate s p).defView, State.defView_defShown, (State.lineKept_pmTouch p s).defView]

theorem State.defs_defUpdate : (s.defUpdate p).defs p = s.defView p := by
  rw [(State.lineKept_defUpdate s p).defs, State.defs_defShown, (State.lineKept_pmTouch p s).defView]

theorem State.defChg_defUpdate {e : Nat} (he : e < 6) : bitOf ((s.defUpdate p).fld (Fld.LF_DEF_INT_STATUS_DEF_CHG p)) e =
    (bitOf (s.fld (Fld.LF_DEF_INT_STATUS_DEF_CHG p)) e || (bitOf (s.defs p) e != bitOf (s.defView p) e)) := by
  rw [(State.lineKept_defUpdate s p).fld (Fld.LF_DEF_INT_STATUS_DEF_CHG p) (Fld.spared_port (by decide) (by decide)),
    State.defChg_defShown _ p he, (State.lineKept_pmTouch p s).defView,
    State.fld_pmTouch, (State.lineKept_pmTouch p s).defs]

/-! #### LINK with a port-down defect (R95) -/

/-- After a fall LINK is 0, also where it was so before. -/
theorem State.link_linkFall : (s.linkFall p).fld (Fld.PT_STATUS_LINK p) = 0 := by
  rcases up : s.linkUp p
  · rw [State.linkFall, if_neg (by simp [up])]
    exact State.fld_eq_zero_of_bit rfl up
  · rw [(State.linkFall_ends s p up).1.link, (State.shows_linkFallen s p).1]

/-- A fall of LINK asks for no time and leaves a mode waiting. -/
theorem State.linkFall_quiet : (s.linkFall p).timeReq = s.timeReq ∧ ((s.linkFall p).port p).modeDue = (s.port p).modeDue := by
  rcases up : s.linkUp p
  · rw [State.linkFall, if_neg (by simp [up])]
    exact ⟨rfl, rfl⟩
  · obtain ⟨kept, -, -⟩ := State.linkFall_ends s p up
    exact ⟨kept.timeReq.trans (by simp [State.linkFallen]), kept.due.trans (by simp [State.linkFallen])⟩

theorem State.crfOn_defFollowed : (s.defFollowed p).crfOn p = s.crfOn p := by
  have left := State.leaves_defFollowed s p
  exact State.crfOn_congr (left.fld (by simp [defTouch, Fld.PT_STATUS_ACTIVE_MODE, Reg.PT_STATUS, Reg.LF_DEFECTS, Reg.LF_DEF_INT_STATUS]))
    (left.part (k := .act) (by simp [defTouch]))

theorem State.link_defFollowed : (s.defFollowed p).fld (Fld.PT_STATUS_LINK p) = s.fld (Fld.PT_STATUS_LINK p) :=
  (State.leaves_defFollowed s p).fld (by simp [defTouch, Fld.PT_STATUS_LINK, Reg.PT_STATUS, Reg.LF_DEFECTS, Reg.LF_DEF_INT_STATUS])

theorem State.link_defUpdate (hc : s.crfOn p = true) (hn : nearDefect (s.defView p) = true) : (s.defUpdate p).fld (Fld.PT_STATUS_LINK p) = 0 := by
  have shown : (s.defFollowed p).defs p = s.defView p := by
    rw [(State.lineKept_defFollowed s p).defs, State.defs_defShown, (State.lineKept_pmTouch p s).defView]
  rw [State.defUpdate_eq, if_pos ⟨by rw [State.crfOn_defFollowed, hc], by rw [State.downDefect, shown, hn, Bool.true_or]⟩, State.link_linkFall]

/-- Where LINK is as it was, it has not fallen. -/
theorem State.defUpdate_still (h : (s.defUpdate p).fld (Fld.PT_STATUS_LINK p) = s.fld (Fld.PT_STATUS_LINK p)) : s.defUpdate p = s.defFollowed p := by
  rw [State.defUpdate_eq] at h ⊢
  split_ifs at h ⊢ with down
  · rw [State.link_linkFall, ← State.link_defFollowed] at h
    exact if_neg (by simp [State.linkUp, State.bit, ← h])
  · rfl

theorem State.defUpdate_quiet : (s.defUpdate p).timeReq = s.timeReq ∧ ((s.defUpdate p).port p).modeDue = (s.port p).modeDue := by
  have left := State.leaves_defFollowed s p
  have port : (s.defFollowed p).port p = s.port p := left.port (by simp [defTouch])
  obtain ⟨req, due⟩ := State.linkFall_quiet (s.defFollowed p) p
  rw [State.defUpdate_eq]
  split
  · exact ⟨req.trans left.2, by rw [due, port]⟩
  · exact ⟨left.2, by rw [port]⟩

/-! #### One defect -/

/-- The detected defects with one of them set or cleared. -/
def State.detected (s : State) (p d : Nat) (on : Bool) : State := s.setPm p { s.pm p with det := setBits (s.pm p).det d 1 (b2n on) }

theorem State.defSet_eq (d : Nat) (on : Bool) : s.defSet p d on = (s.detected p d on).defUpdate p := rfl

@[simp] theorem State.hasDef_detected (d : Nat) (on : Bool) : (s.detected p d on).hasDef p d = on := by
  rw [State.hasDef, State.detected, State.pm_setPm_self, bitOf_setBits, if_pos rfl]

theorem State.hasDef_defSet (d : Nat) (on : Bool) : (s.defSet p d on).hasDef p d = on := by
  rw [State.hasDef, State.defSet_eq, State.det_defUpdate, ← State.hasDef, State.hasDef_detected]

theorem State.watches_detected (d : Nat) (on : Bool) : (s.detected p d on).watches p = s.watches p := rfl
theorem State.crfOn_detected (d : Nat) (on : Bool) : (s.detected p d on).crfOn p = s.crfOn p := rfl

theorem State.defSet_quiet (d : Nat) (on : Bool) : (s.defSet p d on).timeReq = s.timeReq ∧ ((s.defSet p d on).port p).modeDue = (s.port p).modeDue :=
  State.defUpdate_quiet (s.detected p d on) p

theorem State.fld_defSet (d : Nat) (on : Bool) {f : Fld} (h : Fld.spared p f) (hd : f.addr ≠ Reg.LF_DEFECTS p)
    (hc : (Fld.LF_DEF_INT_STATUS_DEF_CHG p).apart f) : (s.defSet p d on).fld f = s.fld f := State.fld_defUpdate (s.detected p d on) p h hd hc

/-- What is shown once a defect is set or cleared. -/
theorem State.defSet_shows (d : Nat) (on : Bool) : (s.defSet p d on).hasDef p d = on ∧ (s.defSet p d on).defs p = (s.detected p d on).defView p ∧
    (s.defSet p d on).defs p = (s.defSet p d on).defView p ∧
    ∀ e, e < 6 → bitOf ((s.defSet p d on).fld (Fld.LF_DEF_INT_STATUS_DEF_CHG p)) e =
      (bitOf (s.fld (Fld.LF_DEF_INT_STATUS_DEF_CHG p)) e || (bitOf (s.defs p) e != bitOf ((s.defSet p d on).defs p) e)) := by
  have shown : (s.defSet p d on).defs p = (s.detected p d on).defView p := State.defs_defUpdate _ p
  have view : (s.defSet p d on).defView p = (s.detected p d on).defView p := State.defView_defUpdate _ p
  refine ⟨State.hasDef_defSet s p d on, shown, shown.trans view.symm, fun e he => ?_⟩
  rw [shown]
  exact State.defChg_defUpdate (s.detected p d on) p he

end

end Sys2Proof.Machine
end

/-! ### The commands of dLOS, dLOF and dLOM -/

section
namespace Sys2Proof.Machine

section
variable (s s0 : State) (t : Time) (p : Nat)

@[simp] theorem State.hasDef_begun (dt d : Nat) : (s.begun dt).hasDef p d = s.hasDef p d := by rw [State.hasDef, State.pm_begun, State.hasDef]
@[simp] theorem State.hasDef_settle (d : Nat) : (s.settle s0 t).hasDef p d = s.hasDef p d := by rw [State.hasDef, State.pm_settle, State.hasDef]
@[simp] theorem State.defView_settle : (s.settle s0 t).defView p = s.defView p :=
  State.defView_congr (State.crfOn_congr (State.fld_settle s s0 t _) (State.settle_act s s0 t))
    (State.watches_congr (State.fld_settle s s0 t _) (State.fld_settle s s0 t _))
    (by rw [State.pm_settle])
@[simp] theorem State.losCond_begun (dt : Nat) : (s.begun dt).losCond p = s.losCond p := by
  simp only [State.losCond, State.bit_begun, State.mode_begun]

end

section
variable {s : State} {dt p d : Nat} {on : Bool} {c : Instr} {f : State → State}

/-- A command that sets or clears one defect: what is then shown. -/
theorem exec_defSet (he : exec c s = s.cmdMain c.wellFormed dt f) (hw : c.wellFormed = true) (hu : s.mainUp = true)
    (hf : f (s.begun dt) = (s.begun dt).defSet p d on) : ∃ t, exec c s = .next t ∧ t = ((s.begun dt).defSet p d on).settle s (s.begun dt).time ∧
      t.hasDef p d = on ∧ t.defs p = t.defView p ∧
      (∀ e, e < 6 → bitOf (t.fld (Fld.LF_DEF_INT_STATUS_DEF_CHG p)) e =
        (bitOf (s.fld (Fld.LF_DEF_INT_STATUS_DEF_CHG p)) e || (bitOf (s.defs p) e != bitOf (t.defs p) e))) := by
  obtain ⟨detected, -, shown, changed⟩ := State.defSet_shows (s.begun dt) p d on
  refine ⟨_, exec_main he hw hu hf ((State.defSet_quiet _ p d on).1.trans (State.begun_timeReq s dt)), rfl, by rw [State.hasDef_settle, detected],
    by rw [State.defs_settle, State.defView_settle, shown], fun e h6 => ?_⟩
  rw [State.fld_settle, State.defs_settle, changed e h6, State.fld_begun, State.defs_begun]

/-- A defect cleared is not shown. -/
theorem exec_defClear (he : exec c s = s.cmdMain c.wellFormed dt f) (hw : c.wellFormed = true) (hu : s.mainUp = true)
    (hf : f (s.begun dt) = (s.begun dt).defSet p d false) : ∃ t, exec c s = .next t ∧ t.hasDef p d = false ∧ bitOf (t.defs p) d = false ∧
      t.defs p = t.defView p ∧ (∀ e, e < 6 → bitOf (t.fld (Fld.LF_DEF_INT_STATUS_DEF_CHG p)) e =
        (bitOf (s.fld (Fld.LF_DEF_INT_STATUS_DEF_CHG p)) e || (bitOf (s.defs p) e != bitOf (t.defs p) e))) := by
  obtain ⟨t, next, -, cleared, shown, changed⟩ := exec_defSet he hw hu hf
  exact ⟨t, next, cleared, by rw [shown, State.defView_absent cleared], shown, changed⟩

/-- Where LINK is as it was, a defect set touches the defects alone. -/
theorem frame_defSet (h : (((s.begun dt).defSet p d on).settle s (s.begun dt).time).fld (Fld.PT_STATUS_LINK p) = s.fld (Fld.PT_STATUS_LINK p)) :
    (s.begun dt).frame (((s.begun dt).defSet p d on).settle s (s.begun dt).time)
      { parts := [.pms], regs := (· ∈ [Reg.LF_DEFECTS p, Reg.LF_DEF_INT_STATUS p]) } := by
  have still := State.defUpdate_still ((s.begun dt).detected p d on) p
    (by rw [← State.defSet_eq, ← State.fld_settle _ s (s.begun dt).time, h]; exact (State.fld_begun s dt _).symm)
  have left : (s.begun dt).leaves ((s.begun dt).defSet p d on) (defTouch p) := by
    rw [State.defSet_eq, still]
    exact State.leaves_trans (State.leaves_setPm (s.begun dt) p _ _ (by simp [defTouch])) (State.leaves_defFollowed ((s.begun dt).detected p d on) p)
  exact State.leaves_settle _ _ s (defTouch p) left (State.begun_timeReq s dt)

/-- dLOF is set 3 ms out of SYNC, and takes LINK down (R89, R95). -/
theorem dlofDetect_due (hp : p < 144) (hu : s.mainUp = true) (hw : s.watches p = true) (hd : s.hasDef p dLOF = false) (hc : s.crfOn p = true)
    (hm : (s.port p).modeDue = none) (hs : s.isSync p = false) (ht : (s.pm p).lofAt + 3 * tMs ≤ s.now + dt) :
    ∃ t, exec (.dlofDetect dt p) s = .next t ∧ t = ((s.begun dt).defSet p dLOF true).settle s (s.begun dt).time ∧ t.hasDef p dLOF = true ∧
      t.defs p = t.defView p ∧ (∀ e, e < 6 → bitOf (t.fld (Fld.LF_DEF_INT_STATUS_DEF_CHG p)) e =
        (bitOf (s.fld (Fld.LF_DEF_INT_STATUS_DEF_CHG p)) e || (bitOf (s.defs p) e != bitOf (t.defs p) e))) ∧ t.fld (Fld.PT_STATUS_LINK p) = 0 := by
  have act : ((s.begun dt).lofDetect p).modeNext p = (s.begun dt).defSet p dLOF true := by
    rw [State.lofDetect, if_pos ⟨by simpa using hw, by simpa using hc, by simpa using hs, by simpa using hd, by simpa using ht⟩]
    exact State.modeNext_none ((State.defSet_quiet _ p dLOF true).2.trans (by simpa using hm))
  obtain ⟨t, next, eq, detected, shown, changed⟩ := exec_defSet (c := .dlofDetect dt p) rfl (decide_eq_true hp) hu act
  refine ⟨t, next, eq, detected, shown, changed, ?_⟩
  rw [eq, State.fld_settle, State.defSet_eq, State.link_defUpdate _ p (by simpa [State.crfOn_detected] using hc)
    (State.nearDefect_lof (by simpa [State.watches_detected] using hw) (by simpa [State.crfOn_detected] using hc) (State.hasDef_detected _ p dLOF true))]

/-- dLOM is set 3 ms in SYNC without multiframe lock (R89). -/
theorem dlomDetect_due (hp : p < 144) (hu : s.mainUp = true) (hw : s.watches p = true) (hd : s.hasDef p dLOM = false) (hc : s.crfOn p = true)
    (hs : s.isSync p = true) (hl : s.mfLock p = false) (ht : (s.pm p).lomAt + 3 * tMs ≤ s.now + dt) :
    ∃ t, exec (.dlomDetect dt p) s = .next t ∧ t = ((s.begun dt).defSet p dLOM true).settle s (s.begun dt).time ∧ t.hasDef p dLOM = true ∧
      t.defs p = t.defView p ∧ (∀ e, e < 6 → bitOf (t.fld (Fld.LF_DEF_INT_STATUS_DEF_CHG p)) e =
        (bitOf (s.fld (Fld.LF_DEF_INT_STATUS_DEF_CHG p)) e || (bitOf (s.defs p) e != bitOf (t.defs p) e))) :=
  exec_defSet (c := .dlomDetect dt p) rfl (decide_eq_true hp) hu
    (if_pos ⟨by simpa using hw, by simpa using hc, by simpa using hs, by simpa using hl, by simpa using hd, by simpa using ht⟩)

end

/-! #### A loss of signal -/

/-- The line of a port without signal, block lock and marker lock. -/
def State.darkened (s : State) (p : Nat) : State :=
  s.candFollow p (((s.setF (Fld.PT_STATUS_ALIGN p) 0).setF (Fld.PT_STATUS_SIGNAL p) 0).setF (Fld.PT_STATUS_BLOCK_LOCK p) 0)

section
variable (s : State) (p : Nat)

theorem State.lineLoss_signal : s.lineLoss p 0 = s.lineTouch p (fun u => u.darkened p) := rfl

theorem State.leaves_darkened : s.leaves (s.darkened p) { regs := (· = Reg.PT_STATUS p), ports := [p] } :=
  State.leaves_candFollow (State.leaves_trans (State.leaves_trans (State.leaves_setF s _ _ _ rfl) (State.leaves_setF _ _ _ _ rfl))
    (State.leaves_setF _ _ _ _ rfl)) (by simp)

theorem State.due_candFollow (t : State) : ((s.candFollow p t).port p).modeDue = (t.port p).modeDue := by
  unfold State.candFollow
  split
  · rfl
  · simp [State.candTouch]

/-- The fields of the status word beside the three locks. -/
theorem State.fld_darkened {f : Fld} (ha : (Fld.PT_STATUS_ALIGN p).apart f) (hs : (Fld.PT_STATUS_SIGNAL p).apart f)
    (hb : (Fld.PT_STATUS_BLOCK_LOCK p).apart f) : (s.darkened p).fld f = s.fld f := by
  rw [State.darkened, State.fld_candFollow, State.fld_setF_of_apart _ _ (by simp [Fld.PT_STATUS_BLOCK_LOCK]) hb,
    State.fld_setF_of_apart _ _ (by simp [Fld.PT_STATUS_SIGNAL]) hs, State.fld_setF_of_apart _ _ (by simp [Fld.PT_STATUS_ALIGN]) ha]

theorem State.darkened_shows : (s.darkened p).fld (Fld.PT_STATUS_SIGNAL p) = 0 ∧ (s.darkened p).fld (Fld.PT_STATUS_BLOCK_LOCK p) = 0 ∧
    (s.darkened p).mode p = s.mode p ∧ (s.darkened p).pm p = s.pm p ∧ ((s.darkened p).port p).modeDue = (s.port p).modeDue := by
  refine ⟨?_, ?_, ?_, ?_, ?_⟩
  · rw [State.darkened, State.fld_candFollow, State.fld_setF_of_apart _ _ (by simp [Fld.PT_STATUS_BLOCK_LOCK])
      (by simp [Fld.apart, Fld.PT_STATUS_BLOCK_LOCK, Fld.PT_STATUS_SIGNAL]), State.fld_setF_self _ _ _ (by simp [Fld.PT_STATUS_SIGNAL])]
    rfl
  · rw [State.darkened, State.fld_candFollow, State.fld_setF_self _ _ _ (by simp [Fld.PT_STATUS_BLOCK_LOCK])]
    rfl
  · exact State.fld_darkened s p (by simp [Fld.apart, Fld.PT_STATUS_ALIGN, Fld.PT_STATUS_ACTIVE_MODE])
      (by simp [Fld.apart, Fld.PT_STATUS_SIGNAL, Fld.PT_STATUS_ACTIVE_MODE]) (by simp [Fld.apart, Fld.PT_STATUS_BLOCK_LOCK, Fld.PT_STATUS_ACTIVE_MODE])
  · rw [State.pm, show (s.darkened p).pms = s.pms from (State.leaves_darkened s p).part (k := .pms) (by simp), State.pm]
  · rw [State.darkened, State.due_candFollow]
    simp

/-- A hunt asks for no time and leaves a mode waiting. -/
theorem State.crfHunt_quiet : (s.crfHunt p).timeReq = s.timeReq ∧ ((s.crfHunt p).port p).modeDue = (s.port p).modeDue := by
  have left : (s.syncLeave p).timeReq = s.timeReq ∧ ((s.syncLeave p).port p).modeDue = (s.port p).modeDue := by
    rcases sync : s.isSync p
    · rw [State.syncLeave, if_neg (by simp [sync])]
      exact ⟨rfl, rfl⟩
    · obtain ⟨left, -, -, -, -, -, due⟩ := State.syncLeave_shows s p sync
      exact ⟨left.2, due⟩
  rw [State.crfHunt]
  refine ⟨?_, by rw [State.port_lfShow, State.port_setRx, left.2]⟩
  exact (State.leaves_lfShow _ p { regs := fun _ => True } trivial).2.trans left.1

/-- After a change of the line its state is as that change left it, and no mode that waits is touched. -/
theorem State.lineTouch_kept (f : State → State) : LineKept p (f s) (s.lineTouch p f) ∧ (s.lineTouch p f).timeReq = (f s).timeReq ∧
    ((s.lineTouch p f).port p).modeDue = ((f s).port p).modeDue := by
  delta State.lineTouch
  extract_lets s1 _ s2
  have noted : LineKept p s1 s2 := .ite _ (.refl p s1) (State.lineKept_setPm p s1 { s1.pm p with losAt := s1.now } rfl rfl rfl)
  have quiet : s2.timeReq = s1.timeReq ∧ (s2.port p).modeDue = (s1.port p).modeDue := by
    unfold s2
    split <;> exact ⟨rfl, rfl⟩
  split
  · obtain ⟨req, due⟩ := State.crfHunt_quiet s2 p
    exact ⟨noted.trans (State.lineKept_crfHunt p s2), req.trans quiet.1, due.trans quiet.2⟩
  · exact ⟨noted, quiet⟩

/-- The line after its signal is lost (R52). -/
theorem State.lineLoss_shows : (s.lineLoss p 0).fld (Fld.PT_STATUS_SIGNAL p) = 0 ∧ (s.lineLoss p 0).fld (Fld.PT_STATUS_BLOCK_LOCK p) = 0 ∧
    (s.lineLoss p 0).watches p = s.watches p ∧ (s.lineLoss p 0).crfOn p = s.crfOn p ∧ (s.lineLoss p 0).hasDef p dLOS = s.hasDef p dLOS ∧
    (s.lineLoss p 0).timeReq = s.timeReq ∧ ((s.lineLoss p 0).port p).modeDue = (s.port p).modeDue := by
  obtain ⟨signal, lock, mode, pm, waits⟩ := State.darkened_shows s p
  have left := State.leaves_darkened s p
  obtain ⟨kept, req, due⟩ := State.lineTouch_kept s p (fun u => u.darkened p)
  rw [← State.lineLoss_signal] at kept req due
  refine ⟨(kept.fld _ (Fld.spared_status (by decide) (by decide))).trans signal, (kept.fld _ (Fld.spared_status (by decide) (by decide))).trans lock,
    kept.watches.trans (State.watches_congr mode (left.fld (by simp [Fld.PT_CTRL_ENABLE, Reg.PT_CTRL, Reg.PT_STATUS]))),
    kept.crfOn.trans (State.crfOn_congr mode (left.part (k := .act) (by simp))), ?_, req.trans left.2, due.trans waits⟩
  rw [State.hasDef, kept.det, pm, State.hasDef]

end

/-- A port whose line loses its signal and that watches it has dLOS at once, which takes LINK of a CRF port down (R52, R89, R95). -/
theorem dlosDetect_loss (s : State) (dt p : Nat) (hp : p < 144) (hu : s.mainUp = true) (ha : s.fld (Fld.PT_STATUS_ACTIVE_MODE p) ≠ 0)
    (he : s.fld (Fld.PT_STATUS_EN_STATE p) ≠ 0) (hw : s.watches p = true) (hm : (s.port p).modeDue = none) :
    ∃ t, exec (.dlosDetect dt p 0) s = .next t ∧ t.fld (Fld.PT_STATUS_SIGNAL p) = 0 ∧ t.fld (Fld.PT_STATUS_BLOCK_LOCK p) = 0 ∧ t.hasDef p dLOS = true ∧
      (s.hasDef p dLOS = false → bitOf (t.defs p) dLOS = true ∧ (s.crfOn p = true → t.fld (Fld.PT_STATUS_LINK p) = 0)) := by
  obtain ⟨signal, lock, watches, crf, had, req, due⟩ := State.lineLoss_shows (s.begun dt) p
  rw [State.watches_begun, hw] at watches
  rw [State.crfOn_begun] at crf
  rw [State.hasDef_begun] at had
  rw [State.begun_timeReq] at req
  have waits : (((s.begun dt).lineLoss p 0).port p).modeDue = none := due.trans (by simpa using hm)
  have runs : ((s.begun dt).losDetect p 0) = if ((s.begun dt).lineLoss p 0).watches p = true ∧ ((s.begun dt).lineLoss p 0).losCond p = true ∧
      ((s.begun dt).lineLoss p 0).hasDef p dLOS = false then ((s.begun dt).lineLoss p 0).defSet p dLOS true else (s.begun dt).lineLoss p 0 :=
    if_pos ⟨by rw [State.mode_begun]; exact ha, by rw [State.enState_begun]; exact he⟩
  generalize (s.begun dt).lineLoss p 0 = u at *
  have dark : u.losCond p = true := by simp [State.losCond, State.bit, signal]
  have wf : (Instr.dlosDetect dt p 0).wellFormed = true := by simp [Instr.wellFormed, hp]
  rcases has : s.hasDef p dLOS
  · rw [if_pos ⟨watches, dark, had.trans has⟩] at runs
    obtain ⟨quiet, still⟩ := State.defSet_quiet u p dLOS true
    obtain ⟨detected, shown, -, -⟩ := State.defSet_shows u p dLOS true
    have los : bitOf ((u.detected p dLOS true).defView p) dLOS = true := State.defView_los watches (State.hasDef_detected u p dLOS true)
    have next := exec_main (c := .dlosDetect dt p 0) (f := fun s => (s.losDetect p 0).modeNext p) rfl wf hu
      (by rw [runs]; exact State.modeNext_none (still.trans waits)) (quiet.trans req)
    have status {lo len : Nat} (low : lo + len ≤ 30) (high : 1 ≤ lo) :
        (u.defSet p dLOS true).fld ⟨Reg.PT_STATUS p, lo, len⟩ = u.fld ⟨Reg.PT_STATUS p, lo, len⟩ :=
      State.fld_defSet u p dLOS true (Fld.spared_status low high) (by simp [Reg.PT_STATUS, Reg.LF_DEFECTS])
        (.inl (by simp [Fld.LF_DEF_INT_STATUS_DEF_CHG, Reg.PT_STATUS, Reg.LF_DEF_INT_STATUS]))
    refine ⟨_, next, ?_, ?_, by rw [State.hasDef_settle, detected], fun _ => ⟨by rw [State.defs_settle, shown, los], fun hc => ?_⟩⟩
    · exact (State.fld_settle _ _ _ _).trans ((status (by decide) (by decide)).trans signal)
    · exact (State.fld_settle _ _ _ _).trans ((status (by decide) (by decide)).trans lock)
    · rw [State.fld_settle, State.defSet_eq, State.link_defUpdate (u.detected p dLOS true) p (crf.trans hc) (nearDefect_los los)]
  · rw [if_neg (by simp [had, has])] at runs
    have next := exec_main (c := .dlosDetect dt p 0) (f := fun s => (s.losDetect p 0).modeNext p) rfl wf hu (by rw [runs]; exact State.modeNext_none waits) req
    exact ⟨_, next, by rw [State.fld_settle, signal], by rw [State.fld_settle, lock], by rw [State.hasDef_settle, had, has], nofun⟩

/-- Settles O21: the three defects by `State.defSet_shows`, LINK by `State.link_defUpdate`. -/
theorem lineDefects : Obligations.LineDefects := by
  refine ⟨dlosDetect_loss, fun s dt p d hp hu hw hd due => ?_, fun s dt p d hp hu hw hd hc hm due => ?_⟩
  · rcases due with ⟨rfl, hl, ht⟩ | ⟨rfl, hc, hs, ht⟩ | ⟨rfl, hc, hl, ht⟩
    · exact exec_defClear (c := .dlosClear dt p) rfl (decide_eq_true hp) hu
        (if_pos ⟨by simpa using hw, by simpa using hl, by simpa using hd, by simpa using ht⟩)
    · exact exec_defClear (c := .dlofClear dt p) rfl (decide_eq_true hp) hu
        (if_pos ⟨by simpa using hw, by simpa using hc, by simpa using hs, by simpa using hd, by simpa using ht⟩)
    · exact exec_defClear (c := .dlomClear dt p) rfl (decide_eq_true hp) hu
        (if_pos ⟨by simpa using hw, by simpa using hc, by simpa using hl, by simpa using hd, by simpa using ht⟩)
  · rcases due with ⟨rfl, hs, ht⟩ | ⟨rfl, hs, hl, ht⟩
    · obtain ⟨t, next, eq, detected, shown, changed, link⟩ := dlofDetect_due hp hu hw hd hc hm hs ht
      exact ⟨t, next, detected, shown, fun _ => link, changed, fun same => by subst eq; exact frame_defSet same⟩
    · obtain ⟨t, next, eq, detected, shown, changed⟩ := dlomDetect_due hp hu hw hd hc hs hl ht
      exact ⟨t, next, detected, shown, nofun, changed, fun same => by subst eq; exact frame_defSet same⟩

end Sys2Proof.Machine
end

/-! ### Seconds and their grades (R96, R98, R103, R104, R106) -/

section
namespace Sys2Proof.Machine

/-- The near end's state in the words of a port: availability, its run and its event. -/
def Fld.ofNearEnd (p : Nat) (f : Fld) : Prop := f ∈ [Fld.LF_PM_NOW_NE_UNAVAIL p, Fld.LF_PM_NOW_NE_RUN p, Fld.LF_DEF_INT_STATUS_UAS_CHG_NE p]

/-- Fields that a change of defects leaves. -/
structure Fld.beyondDefects (p : Nat) (f : Fld) : Prop where
  spared : Fld.spared p f
  word : f.addr ≠ Reg.LF_DEFECTS p
  change : (Fld.LF_DEF_INT_STATUS_DEF_CHG p).apart f

theorem Fld.beyondDefects_now {p lo len : Nat} (low : lo + len ≤ 30) : Fld.beyondDefects p ⟨Reg.LF_PM_NOW p, lo, len⟩ :=
  ⟨Fld.spared_port low (by decide), by simp [Reg.LF_PM_NOW, Reg.LF_DEFECTS],
    .inl (by simp [Fld.LF_DEF_INT_STATUS_DEF_CHG, Reg.LF_PM_NOW, Reg.LF_DEF_INT_STATUS])⟩

theorem Fld.ofNearEnd.beyondDefects {p : Nat} {f : Fld} (h : Fld.ofNearEnd p f) : Fld.beyondDefects p f := by
  simp only [Fld.ofNearEnd, List.mem_cons, List.not_mem_nil, or_false] at h
  rcases h with rfl | rfl | rfl
  · exact Fld.beyondDefects_now (by decide)
  · exact Fld.beyondDefects_now (by decide)
  · exact ⟨Fld.spared_port (by decide) (by decide), by simp [Fld.LF_DEF_INT_STATUS_UAS_CHG_NE, Reg.LF_DEF_INT_STATUS, Reg.LF_DEFECTS],
      by simp [Fld.apart, Fld.LF_DEF_INT_STATUS_UAS_CHG_NE, Fld.LF_DEF_INT_STATUS_DEF_CHG]⟩

/-- Fields of the far end lie apart from those of the near end. -/
theorem Fld.ofNearEnd.apart {p : Nat} {f : Fld} (h : Fld.ofNearEnd p f) : (Fld.LF_PM_NOW_FE_RUN p).apart f ∧ (Fld.LF_PM_NOW_FE_UNAVAIL p).apart f ∧
    (Fld.LF_DEF_INT_STATUS_UAS_CHG_FE p).apart f := by
  simp only [Fld.ofNearEnd, List.mem_cons, List.not_mem_nil, or_false] at h
  rcases h with rfl | rfl | rfl <;>
    simp [Fld.apart, Fld.LF_PM_NOW_FE_RUN, Fld.LF_PM_NOW_FE_UNAVAIL, Fld.LF_DEF_INT_STATUS_UAS_CHG_FE, Fld.LF_PM_NOW_NE_UNAVAIL, Fld.LF_PM_NOW_NE_RUN,
      Fld.LF_DEF_INT_STATUS_UAS_CHG_NE, Reg.LF_PM_NOW, Reg.LF_DEF_INT_STATUS]

/-- A port's monitoring with its 15-minute bin as it was, but for the far end's counts. -/
structure Pm.nearKept (x y : Pm) : Prop where
  acc : x.acc ≠ none → y.acc ≠ none
  bin : x.acc ≠ none → ∃ fe, y.bin15 = { x.bin15 with fe := fe }

theorem Pm.nearKept.refl (x : Pm) : x.nearKept x := ⟨id, fun _ => ⟨x.bin15.fe, rfl⟩⟩

theorem Pm.nearKept.trans {x y z : Pm} (h : x.nearKept y) (g : y.nearKept z) : x.nearKept z := by
  refine ⟨g.acc ∘ h.acc, fun a => ?_⟩
  obtain ⟨fe, first⟩ := h.bin a
  obtain ⟨fe', then_⟩ := g.bin (h.acc a)
  exact ⟨fe', by rw [then_, first]⟩

/-- What a second of the far end, or a change of defects, leaves of the near end's account; a mode that waits does so still. -/
structure NearKept (p : Nat) (s t : State) : Prop where
  timeReq : t.timeReq = s.timeReq
  due : (t.port p).modeDue = (s.port p).modeDue
  fld : ∀ f, Fld.ofNearEnd p f → t.fld f = s.fld f
  pm : (s.pm p).nearKept (t.pm p)

section
variable {p : Nat} {s t u : State}

theorem NearKept.refl (p : Nat) (s : State) : NearKept p s s := ⟨rfl, rfl, fun _ _ => rfl, .refl _⟩

theorem NearKept.trans (h : NearKept p s t) (g : NearKept p t u) : NearKept p s u :=
  ⟨g.timeReq.trans h.timeReq, g.due.trans h.due, fun f hf => (g.fld f hf).trans (h.fld f hf), h.pm.trans g.pm⟩

end

section
variable (s : State) (p : Nat)

theorem State.nearKept_setPm {x : Pm} (h : (s.pm p).nearKept x) : NearKept p s (s.setPm p x) :=
  ⟨rfl, rfl, fun _ _ => rfl, by rwa [State.pm_setPm_self]⟩

theorem State.nearKept_setF {f : Fld} (v : Nat) (hf : f.lo + f.len ≤ 32) (h : ∀ g, Fld.ofNearEnd p g → f.apart g) : NearKept p s (s.setF f v) :=
  ⟨by simp, by simp, fun g hg => State.fld_setF_of_apart s v hf (h g hg), by rw [State.pm_setF]; exact .refl _⟩

/-- A change of defects. -/
theorem State.nearKept_defSet (d : Nat) (on : Bool) : NearKept p s (s.defSet p d on) := by
  obtain ⟨req, due⟩ := State.defSet_quiet s p d on
  refine ⟨req, due, fun f hf => State.fld_defSet s p d on hf.beyondDefects.spared hf.beyondDefects.word hf.beyondDefects.change, ?_⟩
  have touched := State.lineKept_pmTouch p (s.detected p d on)
  obtain ⟨at_, shown⟩ := State.pm_defShown ((s.detected p d on).pmTouch p) p
  have followed := State.lineKept_defUpdate (s.detected p d on) p
  have acc : ((s.detected p d on).pm p).acc = (s.pm p).acc := by rw [State.detected, State.pm_setPm_self]
  have bin : ((s.detected p d on).pm p).bin15 = (s.pm p).bin15 := by rw [State.detected, State.pm_setPm_self]
  have noted (a : (s.pm p).acc ≠ none) : ((((s.detected p d on).pmTouch p).defShown p).pm p).acc ≠ none := by
    rw [shown]
    exact touched.acc (by rwa [acc])
  refine ⟨fun a => followed.acc (noted a), fun a => ⟨(s.pm p).bin15.fe, ?_⟩⟩
  rw [State.defSet_eq, followed.bin (noted a), shown, touched.bin (by rwa [acc]), bin]

/-! #### dDEG (R91) -/

/-- The runs of bad and of good seconds after one more second. -/
def State.degCounted (s : State) (p : Nat) (bad : Bool) : State :=
  s.setPm p { s.pm p with bad := if bad then min ((s.pm p).bad + 1) 255 else 0, good := if bad then 0 else min ((s.pm p).good + 1) 255 }

/-- The second counts toward dDEG, which may be set or cleared by it. -/
theorem State.degStep_cases (bad : Bool) : s.degStep p bad = s ∨ s.degStep p bad = s.degCounted p bad ∨
    ∃ on, s.degStep p bad = (s.degCounted p bad).defSet p dDEG on := by
  have eq : s.degStep p bad = if s.watches p = true ∧ s.crfOn p = true then
      (if s.degM p ≤ (if bad then min ((s.pm p).bad + 1) 255 else 0) ∧ s.hasDef p dDEG = false then (s.degCounted p bad).defSet p dDEG true
      else if s.degM p ≤ (if bad then 0 else min ((s.pm p).good + 1) 255) ∧ s.hasDef p dDEG = true then (s.degCounted p bad).defSet p dDEG false
      else s.degCounted p bad) else s := rfl
  rw [eq]
  generalize s.degCounted p bad = u, (if bad then min ((s.pm p).bad + 1) 255 else 0) = nb, (if bad then 0 else min ((s.pm p).good + 1) 255) = ng
  split
  · split
    · exact .inr (.inr ⟨true, rfl⟩)
    · split
      · exact .inr (.inr ⟨false, rfl⟩)
      · exact .inr (.inl rfl)
  · exact .inl rfl

theorem State.nearKept_degStep (bad : Bool) : NearKept p s (s.degStep p bad) := by
  have counted : NearKept p s (s.degCounted p bad) := State.nearKept_setPm s p ⟨id, fun _ => ⟨_, rfl⟩⟩
  rcases State.degStep_cases s p bad with same | same | ⟨on, same⟩ <;> rw [same]
  · exact .refl p s
  · exact counted
  · exact counted.trans (State.nearKept_defSet _ p dDEG on)

theorem State.fld_degStep (bad : Bool) {f : Fld} (h : Fld.beyondDefects p f) : (s.degStep p bad).fld f = s.fld f := by
  rcases State.degStep_cases s p bad with same | same | ⟨on, same⟩ <;> rw [same]
  · rfl
  · exact State.fld_defSet (s.degCounted p bad) p dDEG on h.spared h.word h.change

/-! #### Availability (R103, R104) -/

theorem inBins_fst (sec : Nat) (cur : PmBin) (past : List PmBin) (f : PmBin → PmBin) :
    (inBins sec cur past f).1 = f cur ∨ (inBins sec cur past f).1 = cur := by
  unfold inBins
  split
  · exact .inl rfl
  · split <;> exact .inr rfl

/-- Corrections of the far end's counts. -/
theorem Pm.nearKept_recount (x : Pm) (unavail : Bool) (places : List Nat) : x.nearKept (x.recount false unavail places) := by
  induction places generalizing x with
  | nil => exact .refl x
  | cons i places ih =>
    rw [Pm.recount, List.foldl_cons]
    refine Pm.nearKept.trans ?_ (ih _)
    dsimp only
    split
    · exact .refl x
    · next h _ =>
      refine ⟨id, fun _ => ?_⟩
      rcases inBins_fst h.bin x.bin15 x.past15 (fun b => { b with fe := (b.fe.sub h.fe).add (countedAs unavail h.gfe) }) with counted | same
      · exact ⟨_, counted⟩
      · exact ⟨x.bin15.fe, same⟩

/-- A second of the far end. -/
theorem State.nearKept_availStep_far (ses : Bool) : NearKept p s (s.availStep p false ses) := by
  have run (v : Nat) : NearKept p s (s.setF (Fld.LF_PM_NOW_FE_RUN p) v) :=
    State.nearKept_setF s p v (by simp [Fld.LF_PM_NOW_FE_RUN]) (fun g hg => hg.apart.1)
  unfold State.availStep
  simp only [Bool.false_eq_true, if_false]
  split
  · exact (((run _).trans (State.nearKept_setF _ p _ (by simp [Fld.LF_PM_NOW_FE_UNAVAIL]) (fun g hg => hg.apart.2.1))).trans
      (State.nearKept_setF _ p 1 (by simp [Fld.LF_DEF_INT_STATUS_UAS_CHG_FE]) (fun g hg => hg.apart.2.2))).trans
      (State.nearKept_setPm _ p (Pm.nearKept_recount _ _ _))
  · exact run _

/-- A second of an available near end that completes no run. -/
theorem State.availStep_short (ses : Bool) (ha : s.fld (Fld.LF_PM_NOW_NE_UNAVAIL p) = 0) (hr : s.fld (Fld.LF_PM_NOW_NE_RUN p) < 9) :
    s.availStep p true ses = s.setF (Fld.LF_PM_NOW_NE_RUN p) (if ses then s.fld (Fld.LF_PM_NOW_NE_RUN p) + 1 else 0) := by
  have avail : s.neUnavail p = false := by simp [State.neUnavail, State.bit, ha]
  have step : runStep false ses (s.fld (Fld.LF_PM_NOW_NE_RUN p)) = (false, if ses then s.fld (Fld.LF_PM_NOW_NE_RUN p) + 1 else 0) := by
    cases ses
    · rfl
    · simp [runStep, Nat.not_le.2 hr]
  unfold State.availStep
  simp only [if_true, avail, step, Bool.false_eq_true, if_false]

/-- The near end has become unavailable, with its run at 0 and the event raised. -/
def State.nearLost (s : State) (p : Nat) : State :=
  ((s.setF (Fld.LF_PM_NOW_NE_RUN p) 0).setF (Fld.LF_PM_NOW_NE_UNAVAIL p) 1).raise (Fld.LF_DEF_INT_STATUS_UAS_CHG_NE p)

theorem State.leaves_nearLost : s.leaves (s.nearLost p) { regs := (· ∈ [Reg.LF_PM_NOW p, Reg.LF_DEF_INT_STATUS p]) } :=
  State.leaves_trans (State.leaves_trans (State.leaves_setF _ _ _ _ (by simp [Fld.LF_PM_NOW_NE_RUN]))
    (State.leaves_setF _ _ _ _ (by simp [Fld.LF_PM_NOW_NE_UNAVAIL]))) (State.leaves_raise _ _ _ (by simp [Fld.LF_DEF_INT_STATUS_UAS_CHG_NE]))

theorem State.nearLost_shows : (s.nearLost p).fld (Fld.LF_PM_NOW_NE_UNAVAIL p) = 1 ∧ (s.nearLost p).fld (Fld.LF_PM_NOW_NE_RUN p) = 0 ∧
    (s.nearLost p).fld (Fld.LF_DEF_INT_STATUS_UAS_CHG_NE p) = 1 := by
  have other {v : State} {f : Fld} (h : f.addr = Reg.LF_PM_NOW p) : (v.raise (Fld.LF_DEF_INT_STATUS_UAS_CHG_NE p)).fld f = v.fld f :=
    State.fld_raise_ne _ _ _ (by simp [h, Fld.LF_DEF_INT_STATUS_UAS_CHG_NE, Reg.LF_PM_NOW, Reg.LF_DEF_INT_STATUS])
  refine ⟨?_, ?_, State.fld_raise_self _ _ (by simp [Fld.LF_DEF_INT_STATUS_UAS_CHG_NE]) (by simp [Fld.LF_DEF_INT_STATUS_UAS_CHG_NE])⟩
  · rw [State.nearLost, other rfl, State.fld_setF_self _ _ _ (by simp [Fld.LF_PM_NOW_NE_UNAVAIL])]
    rfl
  · rw [State.nearLost, other rfl, State.fld_setF_of_apart _ _ (by simp [Fld.LF_PM_NOW_NE_UNAVAIL])
      (by simp [Fld.apart, Fld.LF_PM_NOW_NE_UNAVAIL, Fld.LF_PM_NOW_NE_RUN]), State.fld_setF_self _ _ _ (by simp [Fld.LF_PM_NOW_NE_RUN])]
    rfl

/-- The tenth SES in a row makes the near end unavailable. -/
theorem State.availStep_tenth (ha : s.fld (Fld.LF_PM_NOW_NE_UNAVAIL p) = 0) (hr : s.fld (Fld.LF_PM_NOW_NE_RUN p) = 9) :
    ∃ x, s.availStep p true true = (s.nearLost p).setPm p x := by
  have avail : s.neUnavail p = false := by simp [State.neUnavail, State.bit, ha]
  have step : runStep false true (s.fld (Fld.LF_PM_NOW_NE_RUN p)) = (true, 0) := by
    rw [hr]
    rfl
  unfold State.availStep
  simp only [if_true, avail, step]
  exact ⟨_, rfl⟩

/-! #### A graded second -/

/-- The grades of a second at the near end, by the mode that it passed in. -/
def State.nearGrades (s : State) (p : Nat) (a : PmSec) : Grades := if a.crf then gradeOf (s.sesPct p) a.ne a.eb a.chk else s.gradeEth p a
/-- They count as they are where the near end is available and no run of ten completes. -/
def State.nearCount (s : State) (p : Nat) (a : PmSec) : Grades :=
  if a.crf then
    countedAs (s.neUnavail p && !(runStep true (decide ((s.nearGrades p a).ses = 1)) (s.fld (Fld.LF_PM_NOW_NE_RUN p))).1 ||
      (!(s.neUnavail p) && (runStep false (decide ((s.nearGrades p a).ses = 1)) (s.fld (Fld.LF_PM_NOW_NE_RUN p))).1)) (s.nearGrades p a)
  else s.nearGrades p a
/-- The near end's run and availability move on with a second that passed in CRF. -/
def State.nearStep (s : State) (p : Nat) (a : PmSec) (ses : Bool) : State := if a.crf then s.availStep p true ses else s

theorem State.gradeOne_ends (a : PmSec) : ∃ y, y.acc = (s.pm p).acc ∧ ((s.pm p).bin15.start ≤ a.binSec → 
      y.bin15.valid = true ∧ y.bin15.ne = (s.pm p).bin15.ne.add (s.nearCount p a)) ∧
    NearKept p ((s.setPm p y).nearStep p a (decide ((s.nearGrades p a).ses = 1))) (s.gradeOne p a) := by
  delta State.gradeOne
  extract_lets crf gne far gfe neSes feSes cne cfe x s1 s2 s3
  refine ⟨{ x with hist := x.hist ++ [⟨a.sec, a.binSec, far, cne, cfe, gne, gfe, a.fin⟩] }, rfl, fun h => ?_, ?_⟩
  · have current := inBins_current h (s.pm p).past15 (fun b =>
      { b with valid := true, mon := min (b.mon + 1) 0xFFFFFFFF, ne := b.ne.add cne, fe := b.fe.add cfe })
    exact ⟨congrArg (fun r => r.1.valid) current, congrArg (fun r => r.1.ne) current⟩
  · have farEnd : NearKept p s2 s3 := by
      unfold s3
      split
      · exact State.nearKept_availStep_far s2 p feSes
      · exact .refl p s2
    exact farEnd.trans (State.nearKept_degStep s3 p _)

/-- An unmonitored second marks its bin and ends the runs (R96). -/
theorem State.gradeNone_ends (a : PmSec) (h : (s.pm p).bin15.start ≤ a.binSec) (ha : (s.pm p).acc ≠ none) :
    (s.gradeNone p a).timeReq = s.timeReq ∧ ((s.gradeNone p a).port p).modeDue = (s.port p).modeDue ∧
    (∃ fe, ((s.gradeNone p a).pm p).bin15 = { (s.pm p).bin15 with suspect := true, fe := fe }) ∧
    (s.gradeNone p a).fld (Fld.LF_PM_NOW_NE_RUN p) = 0 ∧ (s.gradeNone p a).fld (Fld.LF_PM_NOW_FE_RUN p) = 0 := by
  generalize hx : (s.pm p).onBins a.binSec (fun b => { b with suspect := true }) = x
  have bin : x.bin15 = { (s.pm p).bin15 with suspect := true } := by
    rw [← hx]
    exact congrArg Prod.fst (inBins_current h (s.pm p).past15 (fun b => { b with suspect := true }))
  have acc : x.acc = (s.pm p).acc := by rw [← hx]; rfl
  generalize hu : ((s.setPm p x).setF (Fld.LF_PM_NOW_NE_RUN p) 0).setF (Fld.LF_PM_NOW_FE_RUN p) 0 = u
  have eq : s.gradeNone p a = u.degStep p false := by rw [← hu, ← hx]; rfl
  have pm : u.pm p = x := by rw [← hu, State.pm_setF, State.pm_setF, State.pm_setPm_self]
  have left : s.leaves u { parts := [.pms], regs := (· = Reg.LF_PM_NOW p) } := by
    rw [← hu]
    exact State.leaves_trans (State.leaves_setPm s p x _ (by simp)) (State.leaves_trans (State.leaves_setF _ _ _ _ rfl) (State.leaves_setF _ _ _ _ rfl))
  have kept := State.nearKept_degStep u p false
  have near : u.fld (Fld.LF_PM_NOW_NE_RUN p) = 0 := by
    rw [← hu, State.fld_setF_of_apart _ _ (by simp [Fld.LF_PM_NOW_FE_RUN]) (by simp [Fld.apart, Fld.LF_PM_NOW_FE_RUN, Fld.LF_PM_NOW_NE_RUN]),
      State.fld_setF_self _ _ _ (by simp [Fld.LF_PM_NOW_NE_RUN])]
    rfl
  have far : u.fld (Fld.LF_PM_NOW_FE_RUN p) = 0 := by
    rw [← hu, State.fld_setF_self _ _ _ (by simp [Fld.LF_PM_NOW_FE_RUN])]
    rfl
  obtain ⟨fe, same⟩ := kept.pm.bin (by rwa [pm, acc])
  rw [eq]
  refine ⟨kept.timeReq.trans left.2, kept.due.trans (by rw [left.port (by simp)]), ⟨fe, by rw [same, pm, bin]⟩,
    (kept.fld _ (by simp [Fld.ofNearEnd])).trans near, (State.fld_degStep u p false (Fld.beyondDefects_now (by decide))).trans far⟩

end

end Sys2Proof.Machine
end

/-! ### PM_SECOND_GRADE (R96 to R98, R103 to R106) -/

section
namespace Sys2Proof.Machine

section
variable {s : State} {dt p : Nat} {a c : PmSec} {w : List PmSec}

/-- The oldest second that waits is taken, with all else of the port as it was. -/
structure SecondTaken (p : Nat) (s u : State) : Prop where
  timeReq : u.timeReq = s.timeReq
  due : (u.port p).modeDue = (s.port p).modeDue
  fld : ∀ f, u.fld f = s.fld f
  acc : (u.pm p).acc ≠ none
  bin : (u.pm p).bin15 = (s.pm p).bin15

theorem State.secondGrade_takes (hc : (s.pm p).acc = some c) (hw : (s.pm p).wait = a :: w) : ∃ u, SecondTaken p s u ∧
    s.secondGrade p = if (a.unmon || !(s.calHas 2 p)) = true then u.gradeNone p a else u.gradeOne p { a with n := 1 } := by
  obtain ⟨d, more, since, touched, -⟩ := State.pm_pmTouch hc
  have left := State.pmTouch_left s p
  have slots : (s.pmTouch p).calHas 2 p = s.calHas 2 p := by
    rw [State.calHas, show (s.pmTouch p).bt = s.bt from left.part (k := .bt) (by simp [pmsTouch]), State.calHas]
  refine ⟨(s.pmTouch p).setPm p { (s.pmTouch p).pm p with wait := if 1 < a.n then { a with
    sec := a.sec + 1, n := a.n - 1, fin := a.fin + (hmSecond : Int), eb := 0, chk := 0, deb := 0, dfr := 0, errs := 0 } :: (w ++ more) else w ++ more },
    ⟨left.2, by rw [State.port_setPm, left.port (by simp [pmsTouch])], fun f => State.fld_pmTouch s p f, by rw [State.pm_setPm_self, touched]; exact nofun,
      by rw [State.pm_setPm_self, touched]⟩, ?_⟩
  have first : ((s.pmTouch p).pm p).wait = a :: (w ++ more) := by rw [touched, hw]; rfl
  rw [State.secondGrade]
  dsimp only
  rw [first]
  dsimp only
  rw [← slots]

/-- The answer, where no mode waits. -/
theorem exec_pmSecondGrade {g : State} (hp : p < 144) (hu : s.mainUp = true) (hm : (s.port p).modeDue = none) (hg : (s.begun dt).secondGrade p = g)
    (hr : g.timeReq = (s.begun dt).timeReq) (hd : (g.port p).modeDue = ((s.begun dt).port p).modeDue) :
    exec (.pmSecondGrade dt p) s = .next (g.settle s (s.begun dt).time) :=
  exec_main (c := .pmSecondGrade dt p) (f := fun s => (s.secondGrade p).modeNext p) rfl (decide_eq_true hp) hu
    (by rw [hg]; exact State.modeNext_none (hd.trans (by simpa using hm))) (hr.trans (State.begun_timeReq s dt))

/-- A monitored second of a port that a slot names: its near end is as the step of its run leaves it, and its bin has its grades. -/
theorem pmSecondGrade_monitored (hp : p < 144) (hu : s.mainUp = true) (hw : (s.pm p).wait = a :: w) (hn : a.unmon = false) (hc : (s.pm p).acc = some c)
    (hm : (s.port p).modeDue = none) (hs : s.calHas 2 p = true) : ∃ (u : State) (y : Pm), (∀ f, u.fld f = s.fld f) ∧ y.acc ≠ none ∧
      ((s.pm p).bin15.start ≤ max a.sec a.low → y.bin15.valid = true ∧ y.bin15.ne = (s.pm p).bin15.ne.add (u.nearCount p a)) ∧
      ∀ (k : State) (x : Touch), (u.setPm p y).nearStep p a (decide ((u.nearGrades p a).ses = 1)) = k → (u.setPm p y).leaves k x → x.ports = [] →
        ∃ t, exec (.pmSecondGrade dt p) s = .next t ∧ (∀ f, Fld.ofNearEnd p f → t.fld f = k.fld f) ∧ (k.pm p).nearKept (t.pm p) := by
  obtain ⟨u, taken, act⟩ := State.secondGrade_takes (s := s.begun dt) (p := p) (c := c) (a := a) (w := w) (by simpa using hc) (by simpa using hw)
  rw [if_neg (by simp [hn, hs])] at act
  obtain ⟨y, acc, bin, kept⟩ := State.gradeOne_ends u p { a with n := 1 }
  rw [taken.bin, State.pm_begun] at bin
  refine ⟨u, y, fun f => (taken.fld f).trans (State.fld_begun s dt f), by rw [acc]; exact taken.acc, bin, fun k x hk left none => ?_⟩
  subst hk
  have port : (((u.setPm p y).nearStep p a (decide ((u.nearGrades p a).ses = 1))).port p).modeDue = (u.port p).modeDue := by
    rw [left.port (by simp [none]), State.port_setPm]
  refine ⟨_, exec_pmSecondGrade hp hu hm act (kept.timeReq.trans (left.2.trans taken.timeReq)) (kept.due.trans (port.trans taken.due)),
    fun f hf => (State.fld_settle _ s _ f).trans (kept.fld f hf), ?_⟩
  rw [State.pm_settle]
  exact kept.pm

theorem State.sesPct_congr {u : State} (h : ∀ f, u.fld f = s.fld f) : u.sesPct p = s.sesPct p := by rw [State.sesPct, h, State.sesPct]

/-- A second that passed in CRF, of an available near end whose run it does not complete, counts by R98. -/
theorem State.nearCount_short (h : a.crf = true) (ha : s.fld (Fld.LF_PM_NOW_NE_UNAVAIL p) = 0) (hr : s.fld (Fld.LF_PM_NOW_NE_RUN p) < 9) :
    s.nearCount p a = gradeOf (s.sesPct p) a.ne a.eb a.chk := by
  have avail : s.neUnavail p = false := by simp [State.neUnavail, State.bit, ha]
  have short (ses : Bool) : (runStep false ses (s.fld (Fld.LF_PM_NOW_NE_RUN p))).1 = false := by cases ses <;> simp [runStep, Nat.not_le.2 hr]
  rw [State.nearCount, if_pos h, avail, short, State.nearGrades, if_pos h]
  rfl

/-- A second that passed in an Ethernet mode counts by R106: one with an SES's errors is errored too. -/
theorem State.nearCount_eth (h : a.crf = false) : s.nearCount p a =
    ⟨b2n (a.ne || decide (1 ≤ a.errs)), b2n (a.ne || decide (max (s.fld (Fld.LF_ETH_SES_THR p)) 1 ≤ a.errs)), 0, 0⟩ := by
  have errored : (a.ne || decide (max (s.fld (Fld.LF_ETH_SES_THR p)) 1 ≤ a.errs) || decide (1 ≤ a.errs)) = (a.ne || decide (1 ≤ a.errs)) := by
    rw [Bool.or_assoc, ← Bool.decide_or]
    congr 2
    exact propext (or_iff_right_of_imp (fun m => (Nat.le_max_right _ 1).trans m))
  rw [State.nearCount, if_neg (by simp [h]), State.nearGrades, if_neg (by simp [h]), State.gradeEth, errored]

theorem pmSecondGrade_counts (hp : p < 144) (hu : s.mainUp = true) (hw : (s.pm p).wait = a :: w) (hn : a.unmon = false) (hc : (s.pm p).acc = some c)
    (hm : (s.port p).modeDue = none) (hs : s.calHas 2 p = true) (hcrf : a.crf = true) (hb : (s.pm p).bin15.start ≤ max a.sec a.low)
    (ha : s.fld (Fld.LF_PM_NOW_NE_UNAVAIL p) = 0) (hr : s.fld (Fld.LF_PM_NOW_NE_RUN p) < 9) :
    ∃ t, exec (.pmSecondGrade dt p) s = .next t ∧
      (t.pm p).bin15.ne = (s.pm p).bin15.ne.add (gradeOf (s.sesPct p) a.ne a.eb a.chk) ∧ (t.pm p).bin15.valid = true ∧
      t.fld (Fld.LF_PM_NOW_NE_UNAVAIL p) = 0 ∧
      t.fld (Fld.LF_PM_NOW_NE_RUN p) = (if (gradeOf (s.sesPct p) a.ne a.eb a.chk).ses = 1 then s.fld (Fld.LF_PM_NOW_NE_RUN p) + 1 else 0) := by
  obtain ⟨u, y, same, acc, bin, ends⟩ := pmSecondGrade_monitored (dt := dt) hp hu hw hn hc hm hs
  obtain ⟨valid, ne⟩ := bin hb
  have grades : u.nearGrades p a = gradeOf (s.sesPct p) a.ne a.eb a.chk := by rw [State.nearGrades, if_pos hcrf, State.sesPct_congr same]
  have avail : (u.setPm p y).fld (Fld.LF_PM_NOW_NE_UNAVAIL p) = 0 := (same _).trans ha
  have run : (u.setPm p y).fld (Fld.LF_PM_NOW_NE_RUN p) = s.fld (Fld.LF_PM_NOW_NE_RUN p) := same _
  have step : (u.setPm p y).nearStep p a (decide ((u.nearGrades p a).ses = 1)) = _ :=
    (if_pos hcrf).trans (State.availStep_short _ p _ avail (by rwa [run]))
  obtain ⟨t, next, flds, pm⟩ := ends _ { regs := (· = Reg.LF_PM_NOW p) } step (State.leaves_setF _ _ _ _ rfl) rfl
  rw [State.pm_setF, State.pm_setPm_self] at pm
  obtain ⟨fe, kept⟩ := pm.bin acc
  refine ⟨t, next, ?_, by rw [kept]; exact valid, ?_, ?_⟩
  · rw [kept, ← State.sesPct_congr same, ← State.nearCount_short hcrf ((same _).trans ha) (by rwa [same])]
    exact ne
  · rw [flds _ (by simp [Fld.ofNearEnd]), State.fld_setF_of_apart _ _ (by simp [Fld.LF_PM_NOW_NE_RUN])
      (by simp [Fld.apart, Fld.LF_PM_NOW_NE_RUN, Fld.LF_PM_NOW_NE_UNAVAIL]), avail]
  · rw [flds _ (by simp [Fld.ofNearEnd]), State.fld_setF_self _ _ _ (by simp [Fld.LF_PM_NOW_NE_RUN]), run, grades]
    simp only [decide_eq_true_eq]
    exact Nat.mod_eq_of_lt (lt_of_le_of_lt (b := 9) (by split_ifs <;> omega) (by simp [Fld.LF_PM_NOW_NE_RUN]))

theorem pmSecondGrade_tenth (hp : p < 144) (hu : s.mainUp = true) (hw : (s.pm p).wait = a :: w) (hn : a.unmon = false) (hc : (s.pm p).acc = some c)
    (hm : (s.port p).modeDue = none) (hs : s.calHas 2 p = true) (hcrf : a.crf = true) (ha : s.fld (Fld.LF_PM_NOW_NE_UNAVAIL p) = 0)
    (hr : s.fld (Fld.LF_PM_NOW_NE_RUN p) = 9) (hg : (gradeOf (s.sesPct p) a.ne a.eb a.chk).ses = 1) :
    ∃ t, exec (.pmSecondGrade dt p) s = .next t ∧ t.fld (Fld.LF_PM_NOW_NE_UNAVAIL p) = 1 ∧ t.fld (Fld.LF_PM_NOW_NE_RUN p) = 0 ∧
      t.fld (Fld.LF_DEF_INT_STATUS_UAS_CHG_NE p) = 1 := by
  obtain ⟨u, y, same, -, -, ends⟩ := pmSecondGrade_monitored (dt := dt) hp hu hw hn hc hm hs
  have grades : decide ((u.nearGrades p a).ses = 1) = true := by
    rw [State.nearGrades, if_pos hcrf, State.sesPct_congr same]
    exact decide_eq_true hg
  obtain ⟨x, tenth⟩ := State.availStep_tenth (u.setPm p y) p ((same _).trans ha) ((same _).trans hr)
  have step : (u.setPm p y).nearStep p a (decide ((u.nearGrades p a).ses = 1)) = ((u.setPm p y).nearLost p).setPm p x := by
    rw [State.nearStep, if_pos hcrf, grades, tenth]
  obtain ⟨t, next, flds, -⟩ := ends _ { parts := [.pms], regs := (· ∈ [Reg.LF_PM_NOW p, Reg.LF_DEF_INT_STATUS p]) } step
    (State.leaves_trans ((State.leaves_nearLost _ p).mono (by simp) (fun _ h => h) (fun _ h => h.elim) (by simp) (by simp))
      (State.leaves_setPm _ p _ _ (by simp))) rfl
  obtain ⟨lost, run, event⟩ := State.nearLost_shows (u.setPm p y) p
  refine ⟨t, next, ?_, ?_, ?_⟩ <;> rw [flds _ (by simp [Fld.ofNearEnd]), State.fld_setPm]
  · exact lost
  · exact run
  · exact event

theorem pmSecondGrade_eth (hp : p < 144) (hu : s.mainUp = true) (hw : (s.pm p).wait = a :: w) (hn : a.unmon = false) (hc : (s.pm p).acc = some c)
    (hm : (s.port p).modeDue = none) (hs : s.calHas 2 p = true) (hcrf : a.crf = false) (hb : (s.pm p).bin15.start ≤ max a.sec a.low) :
    ∃ t, exec (.pmSecondGrade dt p) s = .next t ∧ (t.pm p).bin15.valid = true ∧
      (t.pm p).bin15.ne = (s.pm p).bin15.ne.add
        ⟨b2n (a.ne || decide (1 ≤ a.errs)), b2n (a.ne || decide (max (s.fld (Fld.LF_ETH_SES_THR p)) 1 ≤ a.errs)), 0, 0⟩ := by
  obtain ⟨u, y, same, acc, bin, ends⟩ := pmSecondGrade_monitored (dt := dt) hp hu hw hn hc hm hs
  obtain ⟨valid, ne⟩ := bin hb
  obtain ⟨t, next, -, pm⟩ := ends (u.setPm p y) {} (if_neg (by simp [hcrf])) (State.leaves_refl _ _) rfl
  rw [State.pm_setPm_self] at pm
  obtain ⟨fe, kept⟩ := pm.bin acc
  refine ⟨t, next, by rw [kept]; exact valid, ?_⟩
  rw [kept, ← same, ← State.nearCount_eth hcrf]
  exact ne

theorem pmSecondGrade_unmonitored (hp : p < 144) (hu : s.mainUp = true) (hw : (s.pm p).wait = a :: w) (hn : a.unmon = true ∨ s.calHas 2 p = false)
    (hc : (s.pm p).acc = some c) (hm : (s.port p).modeDue = none) (hb : (s.pm p).bin15.start ≤ max a.sec a.low) :
    ∃ t, exec (.pmSecondGrade dt p) s = .next t ∧ (t.pm p).bin15.suspect = true ∧ (t.pm p).bin15.ne = (s.pm p).bin15.ne ∧
      (t.pm p).bin15.mon = (s.pm p).bin15.mon ∧ t.fld (Fld.LF_PM_NOW_NE_RUN p) = 0 ∧ t.fld (Fld.LF_PM_NOW_FE_RUN p) = 0 := by
  obtain ⟨u, taken, act⟩ := State.secondGrade_takes (s := s.begun dt) (p := p) (c := c) (a := a) (w := w) (by simpa using hc) (by simpa using hw)
  rw [if_pos (by simpa using hn)] at act
  have bins : (u.pm p).bin15 = (s.pm p).bin15 := taken.bin.trans (by rw [State.pm_begun])
  obtain ⟨req, due, ⟨fe, bin⟩, near, far⟩ := State.gradeNone_ends u p a (by rwa [bins]) taken.acc
  refine ⟨_, exec_pmSecondGrade hp hu hm act (req.trans taken.timeReq) (due.trans taken.due), ?_, ?_, ?_, by rw [State.fld_settle, near],
    by rw [State.fld_settle, far]⟩ <;> rw [State.pm_settle, bin, bins]

end

/-- Settles O23: each second by what `State.secondGrade` takes and the near end's step. -/
theorem secondsGraded : Obligations.SecondsGraded :=
  ⟨fun _ _ _ _ _ _ hp hu hw _ hn hc hm hs hcrf hb ha hr => pmSecondGrade_counts hp hu hw hn hc hm hs hcrf hb ha hr,
    fun _ _ _ _ _ _ hp hu hw _ hn hc hm hs hcrf ha hr hg => pmSecondGrade_tenth hp hu hw hn hc hm hs hcrf ha hr hg,
    fun _ _ _ _ _ _ hp hu hw _ hn hc hm hs hcrf hb => pmSecondGrade_eth hp hu hw hn hc hm hs hcrf hb,
    fun _ _ _ _ _ _ hp hu hw hn hc hm hb => pmSecondGrade_unmonitored hp hu hw hn hc hm hb⟩

end Sys2Proof.Machine
end

/-! ### The status word of a mirror session (R241, R520) -/

section
namespace Sys2Proof.Machine

/-- The device after its boot, with a GO under way, until the instant 1, at the status word of mirror session 0. That word is read-only and has no GO, so no
command leaves a device so; but no hypothesis of the statement asks that `State.goBusy` lists command registers alone. -/
def statusGoes : State :=
  { State.reset with isl := { Islands.reset with pair := 15, pg := 4095, rxOpen := true }, goBusy := [(Reg.FB_MIRROR_STAT 0, 1)] }

/-- The session is disabled at the instant 0 with no copy of it left, and a read of the word shows the GO (`State.view`). -/
theorem mirrorSessionDisable_shows_go : statusGoes.mirrorBusy 0 = false ∧
    ∃ t, exec (.mirrorSessionDisable 0 0) statusGoes = .next t ∧ (t.view 0 (Reg.FB_MIRROR_STAT 0)).toNat = 2 ^ 31 :=
  ⟨by decide +kernel, _, rfl, by decide +kernel⟩

/-- Refutes O11: its sixth clause has the status word of a disabled mirror session read 2 or 0 in every state, also in one whose `State.goBusy` names that word:
a read then adds bit 31, as it does for a command that is under way (R520). -/
theorem not_queueControls : ¬ Obligations.QueueControls := by
  unfold Obligations.QueueControls
  intro h
  obtain ⟨-, -, -, -, -, disable, -⟩ := h
  obtain ⟨t, ht, -, shown, -⟩ := disable statusGoes 0 0 (by decide) (by decide +kernel)
  obtain ⟨idle, u, hu, goes⟩ := mirrorSessionDisable_shows_go
  rw [exec_next_unique ht hu, shown, idle] at goes
  exact absurd goes (by decide)

end Sys2Proof.Machine
end

/-! ### Commands on Filigree entries and payload patterns: where they act (R405, R511) -/

section
namespace Sys2Proof.Machine

@[simp] theorem State.pciRuns_begun (s : State) (dt : Nat) : (s.begun dt).pciRuns = s.pciRuns := by simp [State.pciRuns]

@[simp] theorem State.planeOn_begun (s : State) (dt k : Nat) : (s.begun dt).planeOn k = s.planeOn k := by simp [State.planeOn]

/-- An access that reaches the bus before the command's time reaches it then: the I²C slave goes on answering. -/
theorem State.reaches_begun {s : State} {ini : Initiator} {a : Nat} {w : Word} (dt : Nat) (h : s.reaches ini a w = true) :
    (s.begun dt).reaches ini a w = true := by
  cases ini with
  | pcie => simpa [State.reaches] using h
  | loupe => rwa [State.reaches, State.loupeMay, State.dbgLevel, State.mainUp_begun, State.fld_begun]
  | i2c =>
    simp only [State.reaches, State.i2cAnswers, State.mainUp_begun, State.aonUp_begun, State.begun_rst, State.now_begun, Bool.and_eq_true, Bool.or_eq_true,
      decide_eq_true_eq] at h ⊢
    obtain ⟨⟨on, ready⟩, bus⟩ := h
    exact ⟨⟨on, ready.imp id (fun due => by omega)⟩, bus⟩

/-- The STATUS of an access is no more than a part of the resets' state. -/
theorem State.i2cDone_form (s : State) (ini : Initiator) (a : Nat) : ∃ v, s.i2cDone ini a = s.setI2cStat v := by
  cases ini with
  | pcie => exact ⟨s.rst.i2cStat, rfl⟩
  | loupe => exact ⟨s.rst.i2cStat, rfl⟩
  | i2c =>
    unfold State.i2cDone
    dsimp only
    split
    · exact ⟨_, rfl⟩
    · exact ⟨s.rst.i2cStat, rfl⟩

section
variable (s : State) (ini : Initiator) (a : Nat)

@[simp] theorem State.i2cDone_pt : (s.i2cDone ini a).pt = s.pt := by
  obtain ⟨v, same⟩ := s.i2cDone_form ini a
  rw [same]
  rfl
@[simp] theorem State.i2cDone_jn : (s.i2cDone ini a).jn = s.jn := by
  obtain ⟨v, same⟩ := s.i2cDone_form ini a
  rw [same]
  rfl
@[simp] theorem State.i2cDone_timeReq : (s.i2cDone ini a).timeReq = s.timeReq := by
  obtain ⟨v, same⟩ := s.i2cDone_form ini a
  rw [same]
  rfl
@[simp] theorem State.i2cDone_time : (s.i2cDone ini a).time = s.time := by
  obtain ⟨v, same⟩ := s.i2cDone_form ini a
  rw [same]
  rfl
@[simp] theorem State.fld_i2cDone (f : Fld) : (s.i2cDone ini a).fld f = s.fld f := by
  obtain ⟨v, same⟩ := s.i2cDone_form ini a
  rw [same]
  rfl

end

theorem State.leaves_setI2cStat {s t : State} {x : Touch} (h : s.leaves t x) (hr : .rst ∉ x.parts) (v : Nat) :
    (s.setI2cStat v).leaves (t.setI2cStat v) x := by
  obtain ⟨⟨parts, rest⟩, req⟩ := h
  have rst : t.rst = s.rst := parts .rst hr
  refine ⟨⟨fun k hk => ?_, rest⟩, req⟩
  have same := parts k hk
  cases k
  case rst => simp [Part.same, State.setI2cStat, rst]
  all_goals exact same

/-- What leaves the islands, the resets, the time and `PW_STATUS` alone leaves the STATUS of an access alone. -/
theorem State.leaves_i2cDone {s t : State} {x : Touch} (h : s.leaves t x) (hi : .isl ∉ x.parts) (hr : .rst ∉ x.parts) (ht : .time ∉ x.parts)
    (hp : ¬ x.regs Reg.PW_STATUS) (ini : Initiator) (a : Nat) : (s.i2cDone ini a).leaves (t.i2cDone ini a) x := by
  have isl : t.isl = s.isl := h.part hi
  have rst : t.rst = s.rst := h.part hr
  have answers : t.i2cAnswers = s.i2cAnswers := by simp [State.i2cAnswers, State.aonUp, isl, rst, h.now ht]
  have verdict : t.i2cVerdict a false = s.i2cVerdict a false := by
    simp [State.i2cVerdict, State.railsOk, State.bit, isl, h.fld (f := Fld.PW_STATUS_MAIN_OK) hp]
  cases ini with
  | pcie => exact h
  | loupe => exact h
  | i2c =>
    simp only [State.i2cDone, answers, verdict]
    split
    · exact State.leaves_setI2cStat h hr _
    · exact h

/-- What a command of a plane that is there answers to an initiator that reaches it, where its operation touches `x` after the results of the plane's last
command have landed. -/
theorem exec_plane {s u g : State} {c : Instr} {dt k a : Nat} {ini : Initiator} {f : State → State} {x : Touch}
    (he : exec c s = s.cmdAon c.wellFormed dt (fun s => s.onBus ini a (fun s => s.onPlane k f))) (hw : c.wellFormed = true) (hm : s.mainUp = true)
    (hp : s.planeOn k = true) (hr : s.reaches ini a 0 = true) (hf : f (s.begun dt) = g) (hu : u.time = (s.begun dt).time) (hq : u.timeReq = ⟨none, none⟩)
    (h : u.leaves g x) (hx : .isl ∉ x.parts ∧ .rst ∉ x.parts ∧ .time ∉ x.parts ∧ ¬ x.regs Reg.PW_STATUS) :
    exec c s = .next ((g.i2cDone ini a).settle s (s.begun dt).time) ∧ (u.i2cDone ini a).frame ((g.i2cDone ini a).settle s (s.begun dt).time) x := by
  have act : (s.begun dt).onBus ini a (fun s => s.onPlane k f) = g.i2cDone ini a := by
    rw [State.onBus, if_pos (State.reaches_begun dt hr), State.onPlane, if_pos (by simpa using hp), hf]
  obtain ⟨isl, rst, time, power⟩ := hx
  have left := State.leaves_i2cDone h isl rst time power ini a
  have quiet : (g.i2cDone ini a).timeReq = ⟨none, none⟩ := by rw [State.i2cDone_timeReq, h.2, hq]
  refine ⟨?_, ?_⟩
  · rw [he, hw, State.cmdAon_next s dt _ (State.aonUp_of_mainUp hm) (by rw [act, quiet]), act]
  · rw [← hu, ← State.i2cDone_time u ini a]
    exact State.leaves_settle _ _ s x left (by rw [State.i2cDone_timeReq, hq])

end Sys2Proof.Machine
end

/-! ### The results of a command of a plane, as they land in their words (R520) -/

section
namespace Sys2Proof.Machine

/-- What a result makes of the word that a register holds. -/
def resMerge (old : Word) (e : Nat × Nat × Word) : Word := w32 (dropBits old.toNat e.2.1 ||| e.2.2.toNat)

/-- A result is in a list, and no other of its address is. -/
def resOnly (ws : List (Nat × Nat × Word)) (e : Nat × Nat × Word) : Prop := e ∈ ws ∧ ∀ x ∈ ws, x.1 = e.1 → x = e

/-- A result is written. -/
def State.putRes (s : State) (e : Nat × Nat × Word) : State := s.setReg e.1 (resMerge (s.reg e.1) e)

theorem resMerge_whole (old v : Word) (a : Nat) : resMerge old (a, 0xFFFFFFFF, v) = v := by
  have dropped : dropBits old.toNat 0xFFFFFFFF = 0 := by
    have all : old.toNat &&& 0xFFFFFFFF = old.toNat % 2 ^ 32 := Nat.and_two_pow_sub_one_eq_mod old.toNat 32
    rw [dropBits, all]
    omega
  simp [resMerge, dropped, w32]

theorem bitsOf_one (w lo : Nat) : bitsOf w lo 1 = (w.testBit lo).toNat := by
  rw [Nat.testBit_eq_decide_div_mod_eq, bitsOf, pow_one]
  rcases Nat.mod_two_eq_zero_or_one (w / 2 ^ lo) with h | h <;> simp [h]

/-- A one-bit result replaces the bit. -/
theorem bitsOf_resMerge_resBit (old : Word) {f : Fld} (b : Bool) (hl : f.len = 1) (hf : f.lo < 32) :
    bitsOf (resMerge old (resBit f b)).toNat f.lo f.len = b2n b := by
  have dropped : (dropBits old.toNat (2 ^ f.lo)).testBit f.lo = false := by
    rw [dropBits, Nat.and_two_pow]
    cases hb : old.toNat.testBit f.lo
    · simpa using hb
    · have h := Nat.testBit_two_pow_add_eq (old.toNat - 2 ^ f.lo) f.lo
      have le := Nat.ge_two_pow_of_testBit hb
      rw [Nat.add_sub_cancel' le, hb] at h
      simpa using h.symm
  have small : b2n b * 2 ^ f.lo < 2 ^ 32 := by
    have := Nat.pow_lt_pow_right (a := 2) (by decide) hf
    cases b
    · simp [b2n]
    · simpa [b2n] using this
  rw [hl, bitsOf_one, resMerge, resBit]
  simp only [w32_toNat, Nat.testBit_mod_two_pow, Nat.testBit_or, dropped, Nat.mod_eq_of_lt small, hf]
  cases b <;> simp [b2n]

/-- Landing touches registers and what is staged alone. -/
theorem State.land_form (s : State) (a : Nat) : ∃ r m, s.land a = { s with regs := r, pt := { s.pt with staged := m } } := by
  have put (ws : List (Nat × Nat × Word)) (v : State) : ∃ r, ws.foldl State.putRes v = { v with regs := r } := by
    induction ws generalizing v with
    | nil => exact ⟨v.regs, rfl⟩
    | cons e ws ih =>
      obtain ⟨r, same⟩ := ih (v.putRes e)
      exact ⟨r, by rw [List.foldl_cons, same]; rfl⟩
  unfold State.land
  split
  · next ws _ =>
    split
    · exact ⟨s.regs, s.pt.staged, rfl⟩
    · obtain ⟨r, same⟩ := put ws { s with pt := { s.pt with staged := SMap.del s.pt.staged a } }
      exact ⟨r, _, same⟩
  · exact ⟨s.regs, s.pt.staged, rfl⟩

theorem State.reg_putRes_ne (s : State) {e : Nat × Nat × Word} {b : Nat} (h : e.1 ≠ b) : (s.putRes e).reg b = s.reg b :=
  State.reg_setReg_ne _ _ _ _ h.symm

/-- A word into which each of its results puts the same, and that has one or is so already. -/
theorem State.reg_foldl_putRes (Q : Word → Prop) (b : Nat) (ws : List (Nat × Nat × Word)) (s : State) (each : ∀ e ∈ ws, e.1 = b → ∀ w, Q (resMerge w e))
    (has : Q (s.reg b) ∨ ∃ e ∈ ws, e.1 = b) : Q ((ws.foldl State.putRes s).reg b) := by
  induction ws generalizing s with
  | nil => simpa using has
  | cons e ws ih =>
    refine ih (s.putRes e) (fun x hx => each x (List.mem_cons_of_mem e hx)) ?_
    by_cases here : e.1 = b
    · left
      rw [State.putRes, here, State.reg_setReg_self]
      exact each e List.mem_cons_self here _
    · rw [State.reg_putRes_ne s here]
      refine has.imp id ?_
      rintro ⟨x, hx, there⟩
      rcases List.mem_cons.1 hx with rfl | hx
      · exact absurd there here
      · exact ⟨x, hx, there⟩

section
variable {s : State} {a b : Nat} {ws : List (Nat × Nat × Word)} (staged : SMap.look s.pt.staged a = some ws) (free : s.busy a = false)
include staged free

theorem State.land_eq : s.land a = ws.foldl State.putRes { s with pt := { s.pt with staged := SMap.del s.pt.staged a } } := by
  unfold State.land
  rw [staged]
  dsimp only
  rw [if_neg (by simp [free])]
  rfl

/-- A whole word that is the only result of its address. -/
theorem State.reg_land {v : Word} (only : resOnly ws (b, 0xFFFFFFFF, v)) : (s.land a).reg b = v := by
  rw [State.land_eq staged free]
  refine State.reg_foldl_putRes (· = v) b ws _ (fun e he hb w => ?_) (.inr ⟨_, only.1, rfl⟩)
  rw [only.2 e he hb, resMerge_whole]

/-- A bit that is the only result of its register. -/
theorem State.fld_land {f : Fld} {v : Bool} (hl : f.len = 1) (hf : f.lo < 32) (only : resOnly ws (resBit f v)) : (s.land a).fld f = b2n v := by
  rw [State.land_eq staged free]
  refine State.reg_foldl_putRes (fun w => bitsOf w.toNat f.lo f.len = b2n v) f.addr ws _ (fun e he hb w => ?_) (.inr ⟨_, only.1, rfl⟩)
  rw [only.2 e he hb, bitsOf_resMerge_resBit w v hl hf]

end

/-! #### Which results a list holds -/

theorem resOnly.append_right {l r : List (Nat × Nat × Word)} {e : Nat × Nat × Word} (h : resOnly l e) (apart : ∀ x ∈ r, x.1 ≠ e.1) : resOnly (l ++ r) e :=
  ⟨List.mem_append_left r h.1, fun x hx same => (List.mem_append.1 hx).elim (fun m => h.2 x m same) (fun m => absurd same (apart x m))⟩

theorem resOnly.append_left {l r : List (Nat × Nat × Word)} {e : Nat × Nat × Word} (h : resOnly r e) (apart : ∀ x ∈ l, x.1 ≠ e.1) : resOnly (l ++ r) e :=
  ⟨List.mem_append_right l h.1, fun x hx same => (List.mem_append.1 hx).elim (fun m => absurd same (apart x m)) (fun m => h.2 x m same)⟩

/-- A bit's own result is of its register. -/
theorem resBit_apart {f : Fld} {v : Bool} {b : Nat} (h : f.addr ≠ b) : ∀ x ∈ [resBit f v], x.1 ≠ b := by
  intro x hx
  rw [List.mem_singleton.1 hx]
  exact h

theorem resOnly_self (e : Nat × Nat × Word) : resOnly [e] e := ⟨List.mem_singleton_self e, fun _ hx _ => List.mem_singleton.1 hx⟩

/-- The results of a run of words. -/
theorem mem_resWords {a : Nat} {ws : List Word} {e : Nat × Nat × Word} :
    e ∈ resWords a ws ↔ ∃ i, i < ws.length ∧ e = (a + 4 * i, 0xFFFFFFFF, ws.getD i 0) := by
  simp only [resWords, List.mem_map, List.mem_range, eq_comm]

theorem resOnly_resWords {a i : Nat} {ws : List Word} (h : i < ws.length) : resOnly (resWords a ws) (a + 4 * i, 0xFFFFFFFF, ws.getD i 0) := by
  refine ⟨mem_resWords.2 ⟨i, h, rfl⟩, fun x hx same => ?_⟩
  obtain ⟨j, -, rfl⟩ := mem_resWords.1 hx
  have index : j = i := by
    dsimp only at same
    omega
  rw [index]

theorem resWords_apart {a b : Nat} {ws : List Word} (h : b < a ∨ a + 4 * ws.length ≤ b) : ∀ x ∈ resWords a ws, x.1 ≠ b := by
  rintro x hx rfl
  obtain ⟨i, hi, rfl⟩ := mem_resWords.1 hx
  dsimp only at h
  omega

theorem natWords_length (v n : Nat) : (natWords v n).length = n := by simp [natWords]

theorem natWords_getD {v n i : Nat} (h : i < n) : (natWords v n).getD i 0 = w32 (v / 2 ^ (32 * i)) := by
  simp [natWords, List.getD, h]

theorem natWords_append_getD {v n i : Nat} (l : List Word) (h : i < n) : (natWords v n ++ l).getD i 0 = w32 (v / 2 ^ (32 * i)) := by
  rw [List.getD_append _ _ _ _ (by rwa [natWords_length]), natWords_getD h]

end Sys2Proof.Machine
end

/-! ### LP_FG_CMD (R135, R136) -/

section
namespace Sys2Proof.Machine

/-! #### The word of a command -/

theorem planeWrite_op {op n : Nat} (b : Bool) (ho : op < 8) (hn : n < 2 ^ 27) : bitsOf (planeWrite op n b) 28 3 = op := by
  cases b <;> simp [bitsOf, planeWrite, b2n] <;> omega
theorem planeWrite_index {op n i : Nat} (b : Bool) (hi : i ≤ 27) (hn : n < 2 ^ i) : planeWrite op n b % 2 ^ i = n := by
  obtain ⟨c, whole⟩ := Nat.exists_eq_add_of_le hi
  have even : planeWrite op n b = n + 2 ^ i * (2 ^ c * (16 + op * 2 + b2n b)) := by
    rw [← Nat.mul_assoc, ← pow_add, ← whole, planeWrite]
    ring
  rw [even, Nat.add_mul_mod_self_left, Nat.mod_eq_of_lt hn]
theorem planeWrite_bcast {op n : Nat} (b : Bool) (hn : n < 2 ^ 27) : bitOf (planeWrite op n b) 27 = b := by
  cases b <;> simp [bitOf, planeWrite, b2n] <;> omega

/-! #### Entries -/

theorem State.fgEnt_setFgEnt {j n m : Nat} (s : State) (i : Nat) (e : FgEnt) (hn : n < 8192) (hm : m < 8192) :
    (s.setFgEnt j n e).fgEnt i m = if i = j ∧ m = n then e else s.fgEnt i m := by
  split
  · next same =>
    rw [same.1, same.2]
    exact SMap.get_put_self _ _ _ _
  · next other => exact SMap.get_put_ne _ _ _ _ _ (by omega)

theorem State.leaves_setFgEnt (s : State) (j n : Nat) (e : FgEnt) (x : Touch) (h : .pt ∈ x.parts) : s.leaves (s.setFgEnt j n e) x :=
  State.leaves_part s _ .pt x h (fun i hi => by cases i <;> simp_all [Part.same, State.setFgEnt]) rfl rfl rfl rfl rfl

/-- Staging words that two states share spell the same number. -/
theorem State.wordsNat_congr {s t : State} {a n : Nat} (h : ∀ i, i < n → t.reg (a + 4 * i) = s.reg (a + 4 * i)) : t.wordsNat a n = s.wordsNat a n :=
  List.foldl_ext _ _ _ (fun v i hi => by rw [h i (List.mem_range.1 hi)])

/-- What WRITE and INVALIDATE make of entry `n` of plane `j`, by the staging words of plane `k` from an offset on. -/
def State.fgMade (s : State) (k op j n off : Nat) : FgEnt :=
  if op = 1 then ⟨true, s.wordsNat (Reg.LP_FG_VALUE k 0 + off) 10, s.wordsNat (Reg.LP_FG_CARE k 0 + off) 10,
    (List.range 3).map (fun i => s.reg (Reg.LP_FG_ACTION k i))⟩
  else { s.fgEnt j n with valid := false }

/-- The upper half of entry `n` of plane `k` as a READ shows it: that of a wide bank is the next entry. -/
def State.fgUpper (s : State) (k n : Nat) : FgEnt := if fmtWide (s.fgFormat k (n / 1024)) then s.fgEnt k (n + 1) else FgEnt.reset

/-- The results of a READ of entry `n` of plane `k`. -/
def State.fgResults (s : State) (k n : Nat) : List (Nat × Nat × Word) :=
  resWords (Reg.LP_FG_VALUE k 0) (natWords (s.fgEnt k n).value 10 ++ natWords (s.fgUpper k n).value 10) ++
  resWords (Reg.LP_FG_CARE k 0) (natWords (s.fgEnt k n).care 10 ++ natWords (s.fgUpper k n).care 10) ++
  resWords (Reg.LP_FG_ACTION k 0) (s.fgEnt k n).action ++ [resBit (Fld.LP_FG_CMD_RD_VALID k) (s.fgEnt k n).valid]

/-! #### A command on one plane -/

section
variable {s : State} {k j op n : Nat}

/-- In a bank whose format is not in use every command is refused. -/
theorem State.fgApply_off (off : fmtOn (s.fgFormat j (n / 1024)) = false) : s.fgApply k j op n = (false, s) := by simp [State.fgApply, off]

/-- No command is refused in a bank whose format is in use, on an entry that is the lower one of its two where the format is wide. -/
theorem State.fgBank_takes (on : fmtOn (s.fgFormat j (n / 1024)) = true) (even : fmtWide (s.fgFormat j (n / 1024)) = true → n % 2 = 0) :
    (!(fmtOn (s.fgFormat j (n / 1024))) || (fmtWide (s.fgFormat j (n / 1024)) && decide (n % 2 = 1))) = false := by
  cases wide : fmtWide (s.fgFormat j (n / 1024))
  · simp [on]
  · simp [on, even wide]

theorem State.fgApply_edit (on : fmtOn (s.fgFormat j (n / 1024)) = true) (even : fmtWide (s.fgFormat j (n / 1024)) = true → n % 2 = 0) (ho : op = 1 ∨ op = 2) :
    s.fgApply k j op n = (true, if fmtWide (s.fgFormat j (n / 1024)) then
      (s.setFgEnt j n (s.fgMade k op j n 0)).setFgEnt j (n + 1) (s.fgMade k op j (n + 1) 40) else s.setFgEnt j n (s.fgMade k op j n 0)) := by
  unfold State.fgApply
  dsimp only
  rw [if_neg (by simp [State.fgBank_takes on even])]
  rcases ho with rfl | rfl
  · rfl
  · have upper (e : FgEnt) : (s.setFgEnt j n e).fgEnt j (n + 1) = s.fgEnt j (n + 1) := SMap.get_put_ne _ _ _ _ _ (by omega)
    simp only [upper]
    rfl

theorem State.fgApply_read (on : fmtOn (s.fgFormat k (n / 1024)) = true) (even : fmtWide (s.fgFormat k (n / 1024)) = true → n % 2 = 0) :
    s.fgApply k k 0 n = (true, s.stageRes (Reg.LP_FG_CMD k) (s.fgResults k n)) := by
  unfold State.fgApply
  dsimp only
  rw [if_neg (by simp [State.fgBank_takes on even])]
  rfl

theorem State.leaves_fgApply (s : State) (k j op n : Nat) : s.leaves (s.fgApply k j op n).2 { parts := [.pt] } := by
  have set (v : State) (m : Nat) (e : FgEnt) : v.leaves (v.setFgEnt j m e) { parts := [.pt] } := State.leaves_setFgEnt v j m e _ (by simp)
  unfold State.fgApply
  dsimp only
  split
  · exact State.leaves_refl s _
  · split
    · exact State.leaves_ite _ (fun _ => State.leaves_trans (set _ _ _) (set _ _ _)) (fun _ => set _ _ _)
    · split
      · exact State.leaves_ite _ (fun _ => State.leaves_trans (set _ _ _) (set _ _ _)) (fun _ => set _ _ _)
      · exact State.leaves_stageRes s _ _ _ (by simp)

end

/-! #### A command on each plane of a list -/

/-- One more plane: the planes that have taken the command, whether one has refused it, and the state. -/
def fgStep (k op n : Nat) (a : Nat × Bool × State) (j : Nat) : Nat × Bool × State :=
  match a.2.2.fgApply k j op n with
  | (true, t) => (a.1 + 2 ^ j, a.2.1, t)
  | (false, t) => (a.1, true, t)

theorem leaves_fgStep (k op n : Nat) (ks : List Nat) (a : Nat × Bool × State) :
    a.2.2.leaves (ks.foldl (fgStep k op n) a).2.2 { parts := [.pt] } := by
  induction ks generalizing a with
  | nil => exact State.leaves_refl _ _
  | cons j ks ih =>
    refine State.leaves_trans ?_ (ih (fgStep k op n a j))
    have one := State.leaves_fgApply a.2.2 k j op n
    unfold fgStep
    split <;> next t same => rwa [same] at one

/-- WRITE and INVALIDATE on planes whose banks take them, in formats of one entry each. -/
theorem fgStep_edits {k op n : Nat} {ks : List Nat} (ho : op = 1 ∨ op = 2) (hn : n < 8192) (nodup : ks.Nodup) {s : State} (b : Nat) {c : Bool}
    (on : ∀ j ∈ ks, fmtOn (s.fgFormat j (n / 1024)) = true ∧ fmtWide (s.fgFormat j (n / 1024)) = false) :
    (ks.foldl (fgStep k op n) (b, c, s)).2.1 = c ∧
    ∀ j m, m < 8192 → (ks.foldl (fgStep k op n) (b, c, s)).2.2.fgEnt j m = if j ∈ ks ∧ m = n then s.fgMade k op j n 0 else s.fgEnt j m := by
  induction ks generalizing b s with
  | nil => exact ⟨rfl, fun j m _ => by simp⟩
  | cons i ks ih =>
    obtain ⟨fresh, nodup⟩ := List.nodup_cons.1 nodup
    obtain ⟨taken, narrow⟩ := on i List.mem_cons_self
    have step : fgStep k op n (b, c, s) i = (b + 2 ^ i, c, s.setFgEnt i n (s.fgMade k op i n 0)) := by
      have one := State.fgApply_edit (k := k) taken (fun wide => by simp [narrow] at wide) ho
      rw [if_neg (by simp [narrow])] at one
      unfold fgStep
      dsimp only
      rw [one]
    rw [List.foldl_cons, step]
    obtain ⟨err, ents⟩ := ih nodup (s := s.setFgEnt i n (s.fgMade k op i n 0)) (b + 2 ^ i) (fun j hj => on j (List.mem_cons_of_mem i hj))
    refine ⟨err, fun j m hm => ?_⟩
    rw [ents j m hm, State.fgEnt_setFgEnt s j _ hn hm]
    by_cases here : j ∈ ks
    · have other : j ≠ i := fun e => fresh (e ▸ here)
      have made : (s.setFgEnt i n (s.fgMade k op i n 0)).fgMade k op j n 0 = s.fgMade k op j n 0 := by
        have ent := State.fgEnt_setFgEnt s (j := i) j (s.fgMade k op i n 0) hn hn
        rw [if_neg (by simp [other])] at ent
        unfold State.fgMade at ent ⊢
        rw [ent]
        rfl
      simp [here, other, made]
    · by_cases first : j = i
      · subst first
        simp [here]
      · simp [here, first]

end Sys2Proof.Machine
end

/-! ### WRITE, INVALIDATE and READ of a Filigree entry -/

section
namespace Sys2Proof.Machine

/-- What a command of a plane's entries touches, by its command register. -/
def entryTouch (a : Nat) : Touch := { parts := [.pt, .goBusy, .free, .jn], regs := (· ∈ [a, Reg.CM_INT_STATUS]) }

/-- What the start of a command with GO touches (R520). -/
def goTouch (a : Nat) : Touch := { parts := [.goBusy, .free], regs := (· = a) }

theorem State.leaves.started {s t : State} {a : Nat} (h : s.leaves t (goTouch a)) : s.leaves t (entryTouch a) :=
  h.mono (by simp [goTouch, entryTouch]) (fun b hb => by simp [entryTouch, show b = a from hb]) (fun _ h => h.elim) (by simp [goTouch]) (by simp [goTouch])

/-- OP, INDEX and BCAST of `LP_FG_CMD` are taken, and the command is under way (R520). -/
def State.fgStart (s : State) (k op n : Nat) (bcast : Bool) : State :=
  (((s.setF (Fld.LP_FG_CMD_OP k) op).setF (Fld.LP_FG_CMD_INDEX k) n).setF (Fld.LP_FG_CMD_BCAST k) (b2n bcast)).startGo (Reg.LP_FG_CMD k)
    (if bcast then 800 * tNs else 200 * tNs)

section
variable (s : State) (k op n : Nat) (bcast : Bool)

theorem State.leaves_fgStart : s.leaves (s.fgStart k op n bcast) (goTouch (Reg.LP_FG_CMD k)) :=
  State.leaves_trans (State.leaves_trans (State.leaves_trans (State.leaves_setF s (Fld.LP_FG_CMD_OP k) op _ rfl)
    (State.leaves_setF _ (Fld.LP_FG_CMD_INDEX k) n _ rfl)) (State.leaves_setF _ (Fld.LP_FG_CMD_BCAST k) (b2n bcast) _ rfl))
    (State.leaves_startGo _ _ _ _ (by simp [goTouch]) (by simp [goTouch]))

@[simp] theorem State.fgStart_pt : (s.fgStart k op n bcast).pt = s.pt := (State.leaves_fgStart s k op n bcast).part (k := .pt) (by simp [goTouch])
@[simp] theorem State.fgEnt_fgStart (j m : Nat) : (s.fgStart k op n bcast).fgEnt j m = s.fgEnt j m := by simp [State.fgEnt]
@[simp] theorem State.fgFormat_fgStart (j b : Nat) : (s.fgStart k op n bcast).fgFormat j b = s.fgFormat j b := by
  have act : (s.fgStart k op n bcast).act = s.act := (State.leaves_fgStart s k op n bcast).part (k := .act) (by simp [goTouch])
  rw [State.fgFormat, State.afld, State.actReg, act]
  rfl
@[simp] theorem State.planesOn_fgStart : (s.fgStart k op n bcast).planesOn = s.planesOn := by
  have isl : (s.fgStart k op n bcast).isl = s.isl := (State.leaves_fgStart s k op n bcast).part (k := .isl) (by simp [goTouch])
  simp only [State.planesOn, State.planeOn, isl]

theorem State.reg_fgStart {a : Nat} (h : a ≠ Reg.LP_FG_CMD k) : (s.fgStart k op n bcast).reg a = s.reg a := (State.leaves_fgStart s k op n bcast).reg h

/-- The staging words are no part of the command's own word. -/
theorem State.fgMade_fgStart (j m : Nat) {off : Nat} : (s.fgStart k op n bcast).fgMade k op j m off = s.fgMade k op j m off := by
  have value : (s.fgStart k op n bcast).wordsNat (Reg.LP_FG_VALUE k 0 + off) 10 = s.wordsNat (Reg.LP_FG_VALUE k 0 + off) 10 :=
    State.wordsNat_congr (fun i _ => State.reg_fgStart s k op n bcast (by simp only [Reg.LP_FG_VALUE, Reg.LP_FG_CMD]; omega))
  have care : (s.fgStart k op n bcast).wordsNat (Reg.LP_FG_CARE k 0 + off) 10 = s.wordsNat (Reg.LP_FG_CARE k 0 + off) 10 :=
    State.wordsNat_congr (fun i _ => State.reg_fgStart s k op n bcast (by simp only [Reg.LP_FG_CARE, Reg.LP_FG_CMD]; omega))
  have action (i : Nat) : (s.fgStart k op n bcast).reg (Reg.LP_FG_ACTION k i) = s.reg (Reg.LP_FG_ACTION k i) :=
    State.reg_fgStart s k op n bcast (by simp only [Reg.LP_FG_ACTION, Reg.LP_FG_CMD]; omega)
  simp only [State.fgMade, value, care, action, State.fgEnt_fgStart]

end

/-- The planes that a WRITE or an INVALIDATE of plane `k` acts on. -/
def State.editPlanes (s : State) (k : Nat) (bcast : Bool) : List Nat := if bcast then s.planesOn else [k]

section
variable {s : State} {k op n : Nat} {bcast : Bool}

theorem State.fgGo_edit (org : Nat) (hb : s.busy (Reg.LP_FG_CMD k) = false) (ho : op = 1 ∨ op = 2) (hn : n < 8192) {u v : State} {r : Nat × Bool × State}
    (hu : s.land (Reg.LP_FG_CMD k) = u) (hv : u.fgStart k op n bcast = v) (hr : (v.editPlanes k bcast).foldl (fgStep k op n) (0, false, v) = r) :
    (r.2.2.setF (Fld.LP_FG_CMD_ERR k) (b2n r.2.1)).leaves (s.fgGo org k (planeWrite op n bcast)) { parts := [.jn], regs := (· = Reg.CM_INT_STATUS) } := by
  have small : n < 2 ^ 27 := by omega
  unfold State.fgGo
  rw [if_neg (by simp [hb]), planeWrite_op bcast (by omega) small, planeWrite_index bcast (by decide) hn, planeWrite_bcast bcast small]
  dsimp only
  rw [decide_eq_true ho, Bool.and_true, if_pos rfl]
  subst hu hv hr
  exact State.leaves_journalAt _ _ _ _ _ _ _ _ (by simp) rfl

theorem State.fgGo_read (org : Nat) (hb : s.busy (Reg.LP_FG_CMD k) = false) (hn : n < 8192) {u v t : State} (hu : s.land (Reg.LP_FG_CMD k) = u)
    (hv : u.fgStart k 0 n false = v) (hr : v.fgApply k k 0 n = (true, t)) :
    s.fgGo org k (planeWrite 0 n false) = t.setF (Fld.LP_FG_CMD_ERR k) 0 := by
  have small : n < 2 ^ 27 := by omega
  unfold State.fgGo
  rw [if_neg (by simp [hb]), planeWrite_op false (by omega) small, planeWrite_index false (by decide) hn, planeWrite_bcast false small]
  subst hu hv
  have one : [k].foldl (fgStep k 0 n) (0, false, (s.land (Reg.LP_FG_CMD k)).fgStart k 0 n false) = (0 + 2 ^ k, false, t) := by
    rw [List.foldl_cons, List.foldl_nil]
    unfold fgStep
    dsimp only
    rw [hr]
  exact congrArg (fun r => r.2.2.setF (Fld.LP_FG_CMD_ERR k) (b2n r.2.1)) one

end

theorem State.land_calm {s u : State} {dt a : Nat} (hu : (s.begun dt).land a = u) :
    u.time = (s.begun dt).time ∧ u.timeReq = ⟨none, none⟩ ∧ u.jn = s.jn ∧ u.isl = s.isl ∧ u.act = s.act ∧ u.pt = { s.pt with staged := u.pt.staged } := by
  obtain ⟨r, m, same⟩ := (s.begun dt).land_form a
  subst hu
  rw [same]
  simp

theorem entryTouch_quiet {a : Nat} (h : Reg.PW_STATUS ≠ a) : .isl ∉ (entryTouch a).parts ∧ .rst ∉ (entryTouch a).parts ∧ .time ∉ (entryTouch a).parts ∧
    ¬ (entryTouch a).regs Reg.PW_STATUS := by
  simp [entryTouch, h, show Reg.PW_STATUS ≠ Reg.CM_INT_STATUS by decide]

section
variable {s u : State} {dt k n : Nat} {ini : Initiator}

/-- The answer to a WRITE or an INVALIDATE, by what its planes make of it. -/
theorem exec_fgEdit {op : Nat} {bcast : Bool} {c : Instr} {r : Nat × Bool × State}
    (he : exec c s = s.cmdAon c.wellFormed dt (fun s => s.onBus ini (Reg.LP_FG_CMD k) (fun s => s.onPlane k
      (fun s => s.fgGo (Initiator.origin ini) k (planeWrite op n bcast))))) (hw : c.wellFormed = true) (ho : op = 1 ∨ op = 2) (hn : n < 8192)
    (hm : s.mainUp = true) (hp : s.planeOn k = true) (hr : s.reaches ini (Reg.LP_FG_CMD k) 0 = true) (hb : (s.begun dt).busy (Reg.LP_FG_CMD k) = false)
    (hu : (s.begun dt).land (Reg.LP_FG_CMD k) = u)
    (run : (s.editPlanes k bcast).foldl (fgStep k op n) (0, false, u.fgStart k op n bcast) = r) :
    ∃ t, exec c s = .next t ∧ (u.i2cDone ini (Reg.LP_FG_CMD k)).frame t (entryTouch (Reg.LP_FG_CMD k)) ∧ t.fld (Fld.LP_FG_CMD_ERR k) = b2n r.2.1 ∧
      t.pt = r.2.2.pt := by
  obtain ⟨time, calm, -, isl, -, -⟩ := State.land_calm hu
  have planes : (u.fgStart k op n bcast).editPlanes k bcast = s.editPlanes k bcast := by
    rw [State.editPlanes, State.planesOn_fgStart, State.editPlanes, State.planesOn, State.planesOn]
    simp only [State.planeOn, isl]
  rw [← planes] at run
  have journal := State.fgGo_edit (Initiator.origin ini) hb ho hn hu rfl run
  have made : u.leaves (r.2.2.setF (Fld.LP_FG_CMD_ERR k) (b2n r.2.1)) (entryTouch (Reg.LP_FG_CMD k)) := by
    refine State.leaves_trans (State.leaves_trans (State.leaves_fgStart u k op n bcast).started ?_)
      (State.leaves_setF _ _ _ _ (by simp [entryTouch, Fld.LP_FG_CMD_ERR]))
    subst run
    exact (leaves_fgStep k op n _ (0, false, u.fgStart k op n bcast)).mono (by simp [entryTouch]) (fun _ h => h.elim) (fun _ h => h.elim) (by simp) (by simp)
  have left := State.leaves_trans made (journal.mono (y := entryTouch (Reg.LP_FG_CMD k)) (by simp [entryTouch])
    (fun a h => by simp [entryTouch, show a = Reg.CM_INT_STATUS from h]) (fun _ h => h.elim) (by simp) (by simp))
  obtain ⟨next, frame⟩ := exec_plane (g := (s.begun dt).fgGo (Initiator.origin ini) k (planeWrite op n bcast)) he hw hm hp hr rfl time calm left
    (entryTouch_quiet (by simp only [Reg.LP_FG_CMD, Reg.PW_STATUS]; omega))
  refine ⟨_, next, frame, ?_, ?_⟩
  · rw [State.fld_settle, State.fld_i2cDone, journal.fld (by simp only [Fld.LP_FG_CMD_ERR, Reg.LP_FG_CMD, Reg.CM_INT_STATUS]; omega),
      State.fld_setF_self _ _ _ (by simp [Fld.LP_FG_CMD_ERR])]
    cases r.2.1 <;> rfl
  · rw [State.settle_pt, State.i2cDone_pt]
    have kept : ((s.begun dt).fgGo (Initiator.origin ini) k (planeWrite op n bcast)).pt = _ := journal.part (k := .pt) (by simp)
    rw [kept, State.setF_pt]

end

end Sys2Proof.Machine
end

/-! ### What the commands on Filigree entries come to -/

section
namespace Sys2Proof.Machine

section
variable (s : State) (k n : Nat)

theorem State.fgResults_valid : resOnly (s.fgResults k n) (resBit (Fld.LP_FG_CMD_RD_VALID k) (s.fgEnt k n).valid) := by
  refine (resOnly_self _).append_left (fun x hx => ?_)
  have below {a : Nat} {ws : List Word} (h : Reg.LP_FG_CMD k < a) : ∀ x ∈ resWords a ws, x.1 ≠ Reg.LP_FG_CMD k := resWords_apart (.inl h)
  rcases List.mem_append.1 hx with hx | action
  · rcases List.mem_append.1 hx with value | care
    · exact below (by simp only [Reg.LP_FG_CMD, Reg.LP_FG_VALUE]; omega) x value
    · exact below (by simp only [Reg.LP_FG_CMD, Reg.LP_FG_CARE]; omega) x care
  · exact below (by simp only [Reg.LP_FG_CMD, Reg.LP_FG_ACTION]; omega) x action

variable {i : Nat} (hi : i < 10)
include hi

theorem State.fgResults_value : resOnly (s.fgResults k n) (Reg.LP_FG_VALUE k 0 + 4 * i, 0xFFFFFFFF, w32 ((s.fgEnt k n).value / 2 ^ (32 * i))) := by
  rw [← natWords_append_getD (natWords (s.fgUpper k n).value 10) hi]
  have here := resOnly_resWords (a := Reg.LP_FG_VALUE k 0) (ws := natWords (s.fgEnt k n).value 10 ++ natWords (s.fgUpper k n).value 10) (i := i)
    (by simp only [List.length_append, natWords_length]; omega)
  exact ((here.append_right (resWords_apart (.inl (by simp only [Reg.LP_FG_CARE, Reg.LP_FG_VALUE]; omega)))).append_right
    (resWords_apart (.inl (by simp only [Reg.LP_FG_ACTION, Reg.LP_FG_VALUE]; omega)))).append_right
    (resBit_apart (by simp only [Fld.LP_FG_CMD_RD_VALID, Reg.LP_FG_CMD, Reg.LP_FG_VALUE]; omega))

theorem State.fgResults_care : resOnly (s.fgResults k n) (Reg.LP_FG_CARE k 0 + 4 * i, 0xFFFFFFFF, w32 ((s.fgEnt k n).care / 2 ^ (32 * i))) := by
  rw [← natWords_append_getD (natWords (s.fgUpper k n).care 10) hi]
  have here := resOnly_resWords (a := Reg.LP_FG_CARE k 0) (ws := natWords (s.fgEnt k n).care 10 ++ natWords (s.fgUpper k n).care 10) (i := i)
    (by simp only [List.length_append, natWords_length]; omega)
  exact ((here.append_left (resWords_apart (.inr (by simp only [Reg.LP_FG_CARE, Reg.LP_FG_VALUE, List.length_append, natWords_length]; omega)))).append_right
    (resWords_apart (.inl (by simp only [Reg.LP_FG_ACTION, Reg.LP_FG_CARE]; omega)))).append_right
    (resBit_apart (by simp only [Fld.LP_FG_CMD_RD_VALID, Reg.LP_FG_CMD, Reg.LP_FG_CARE]; omega))

end

theorem State.fgResults_congr {s t : State} {k n : Nat} (he : ∀ j m, t.fgEnt j m = s.fgEnt j m) (hf : ∀ j b, t.fgFormat j b = s.fgFormat j b) :
    t.fgResults k n = s.fgResults k n := by
  simp only [State.fgResults, State.fgUpper, he, hf]

/-- WRITE makes an entry of the staging words. -/
theorem State.fgMade_write (u : State) (k n j m off : Nat) (b : Bool) : (u.fgStart k 1 n b).fgMade k 1 j m off = ⟨true,
    u.wordsNat (Reg.LP_FG_VALUE k 0 + off) 10, u.wordsNat (Reg.LP_FG_CARE k 0 + off) 10, (List.range 3).map (fun i => u.reg (Reg.LP_FG_ACTION k i))⟩ := by
  rw [State.fgMade_fgStart]
  rfl

section
variable {s u : State} {dt k n : Nat} {ini : Initiator}

section
variable (hu : (s.begun dt).land (Reg.LP_FG_CMD k) = u)
include hu

theorem fgEnt_landed (j m : Nat) : u.fgEnt j m = s.fgEnt j m := by
  obtain ⟨-, -, -, -, -, pt⟩ := State.land_calm hu
  rw [State.fgEnt, pt]
  rfl

theorem fgFormat_landed (j b : Nat) : u.fgFormat j b = s.fgFormat j b := by
  obtain ⟨-, -, -, -, act, -⟩ := State.land_calm hu
  rw [State.fgFormat, State.afld, State.actReg, act]
  rfl

/-- INVALIDATE clears the valid bit of the entry. -/
theorem fgMade_invalidate (j m off : Nat) (b : Bool) : (u.fgStart k 2 n b).fgMade k 2 j m off = { s.fgEnt j m with valid := false } := by
  rw [State.fgMade_fgStart, ← fgEnt_landed hu]
  rfl

end

variable (hn : n < 8192) (hm : s.mainUp = true) (hp : s.planeOn k = true) (hr : s.reaches ini (Reg.LP_FG_CMD k) 0 = true)
  (hb : (s.begun dt).busy (Reg.LP_FG_CMD k) = false) (hu : (s.begun dt).land (Reg.LP_FG_CMD k) = u)
include hn hm hp hr hb hu

/-- WRITE and INVALIDATE on one plane, in a bank whose format is in use. -/
theorem exec_fgEdit_one {op : Nat} {c : Instr}
    (he : exec c s = s.cmdAon c.wellFormed dt (fun s => s.onBus ini (Reg.LP_FG_CMD k) (fun s => s.onPlane k
      (fun s => s.fgGo (Initiator.origin ini) k (planeWrite op n false))))) (hw : c.wellFormed = true) (ho : op = 1 ∨ op = 2)
    (on : fmtOn (s.fgFormat k (n / 1024)) = true) (even : fmtWide (s.fgFormat k (n / 1024)) = true → n % 2 = 0) :
    ∃ t, exec c s = .next t ∧ t.fld (Fld.LP_FG_CMD_ERR k) = 0 ∧ t.fgEnt k n = (u.fgStart k op n false).fgMade k op k n 0 ∧
      (fmtWide (s.fgFormat k (n / 1024)) = true → t.fgEnt k (n + 1) = (u.fgStart k op n false).fgMade k op k (n + 1) 40) ∧
      (u.i2cDone ini (Reg.LP_FG_CMD k)).frame t (entryTouch (Reg.LP_FG_CMD k)) := by
  generalize hv : u.fgStart k op n false = v
  have format : v.fgFormat k (n / 1024) = s.fgFormat k (n / 1024) := by rw [← hv, State.fgFormat_fgStart, fgFormat_landed hu]
  have taken := State.fgApply_edit (s := v) (k := k) (j := k) (n := n) (by rwa [format]) (by rwa [format]) ho
  rw [format] at taken
  generalize hg : (if fmtWide (s.fgFormat k (n / 1024)) then (v.setFgEnt k n (v.fgMade k op k n 0)).setFgEnt k (n + 1) (v.fgMade k op k (n + 1) 40)
    else v.setFgEnt k n (v.fgMade k op k n 0)) = g at taken
  have run : (s.editPlanes k false).foldl (fgStep k op n) (0, false, u.fgStart k op n false) = (0 + 2 ^ k, false, g) := by
    rw [hv, State.editPlanes, if_neg (by decide), List.foldl_cons, List.foldl_nil, fgStep]
    dsimp only
    rw [taken]
  obtain ⟨t, next, frame, err, pt⟩ := exec_fgEdit he hw ho hn hm hp hr hb hu run
  have ents (m : Nat) : t.fgEnt k m = g.fgEnt k m := by
    rw [State.fgEnt, pt]
    rfl
  refine ⟨t, next, err, ?_, fun wide => ?_, frame⟩
  · rw [ents, ← hg]
    split
    · exact (SMap.get_put_ne _ _ _ _ _ (by omega)).trans (SMap.get_put_self _ _ _ _)
    · exact SMap.get_put_self _ _ _ _
  · rw [ents, ← hg, if_pos wide]
    exact SMap.get_put_self _ _ _ _

/-- WRITE and INVALIDATE with BCAST, in banks of one entry each. -/
theorem exec_fgEdit_all {op : Nat} {c : Instr}
    (he : exec c s = s.cmdAon c.wellFormed dt (fun s => s.onBus ini (Reg.LP_FG_CMD k) (fun s => s.onPlane k
      (fun s => s.fgGo (Initiator.origin ini) k (planeWrite op n true))))) (hw : c.wellFormed = true) (ho : op = 1 ∨ op = 2)
    (on : ∀ j, j < 4 → s.planeOn j = true → fmtOn (s.fgFormat j (n / 1024)) = true ∧ fmtWide (s.fgFormat j (n / 1024)) = false) :
    ∃ t, exec c s = .next t ∧ t.fld (Fld.LP_FG_CMD_ERR k) = 0 ∧ ∀ j m, j < 4 → m < 8192 →
      t.fgEnt j m = if s.planeOn j = true ∧ m = n then (u.fgStart k op n true).fgMade k op j m 0 else s.fgEnt j m := by
  obtain ⟨t, next, -, err, pt⟩ := exec_fgEdit he hw ho hn hm hp hr hb hu rfl
  obtain ⟨ok, ents⟩ := fgStep_edits (k := k) (ks := s.editPlanes k true) (s := u.fgStart k op n true) (c := false) ho hn (List.nodup_range.filter _) 0
    (fun j hj => by
      obtain ⟨small, here⟩ := List.mem_filter.1 hj
      rw [State.fgFormat_fgStart, fgFormat_landed hu]
      exact on j (List.mem_range.1 small) here)
  refine ⟨t, next, by rw [err, ok]; rfl, fun j m hj hm => ?_⟩
  have ent : t.fgEnt j m = ((s.editPlanes k true).foldl (fgStep k op n) (0, false, u.fgStart k op n true)).2.2.fgEnt j m := by
    rw [State.fgEnt, pt]
    rfl
  have here : j ∈ s.editPlanes k true ↔ s.planeOn j = true := by simp [State.editPlanes, State.planesOn, hj]
  rw [ent, ents j m hm, State.fgEnt_fgStart, fgEnt_landed hu]
  simp only [here]
  by_cases there : s.planeOn j = true ∧ m = n
  · rw [if_pos there, if_pos there, there.2]
  · rw [if_neg there, if_neg there]

/-- A WRITE in a bank whose format is not in use. -/
theorem exec_fgWrite_refused (hk : k < 4) (off : fmtOn (s.fgFormat k (n / 1024)) = false) :
    ∃ t, exec (.fgWrite dt ini k n false) s = .next t ∧ t.fld (Fld.LP_FG_CMD_ERR k) = 1 ∧ t.pt = { s.pt with staged := t.pt.staged } := by
  have refused := State.fgApply_off (s := u.fgStart k 1 n false) (k := k) (j := k) (op := 1) (n := n) (by rwa [State.fgFormat_fgStart, fgFormat_landed hu])
  have run : (s.editPlanes k false).foldl (fgStep k 1 n) (0, false, u.fgStart k 1 n false) = (0, true, u.fgStart k 1 n false) := by
    rw [State.editPlanes, if_neg (by decide), List.foldl_cons, List.foldl_nil, fgStep]
    dsimp only
    rw [refused]
  obtain ⟨t, next, -, err, pt⟩ := exec_fgEdit (c := .fgWrite dt ini k n false) rfl (by simp [Instr.wellFormed, hk, hn]) (.inl rfl) hn hm hp hr hb hu run
  obtain ⟨-, -, -, -, -, landed⟩ := State.land_calm hu
  rw [State.fgStart_pt] at pt
  exact ⟨t, next, err, by rw [pt, ← landed]⟩

/-- READ: the entry's words wait for the end of the command. -/
theorem exec_fgRead (hk : k < 4) (on : fmtOn (s.fgFormat k (n / 1024)) = true) (even : fmtWide (s.fgFormat k (n / 1024)) = true → n % 2 = 0) :
    ∃ t, exec (.fgRead dt ini k n false) s = .next t ∧ t.pt = { s.pt with staged := t.pt.staged } ∧ t.jn = s.jn ∧
      SMap.look t.pt.staged (Reg.LP_FG_CMD k) = some (s.fgResults k n) := by
  obtain ⟨time, calm, jn, -, -, landed⟩ := State.land_calm hu
  have format : (u.fgStart k 0 n false).fgFormat k (n / 1024) = s.fgFormat k (n / 1024) := by rw [State.fgFormat_fgStart, fgFormat_landed hu]
  have results : (u.fgStart k 0 n false).fgResults k n = s.fgResults k n :=
    State.fgResults_congr (fun j m => by rw [State.fgEnt_fgStart, fgEnt_landed hu]) (fun j b => by rw [State.fgFormat_fgStart, fgFormat_landed hu])
  have read := State.fgApply_read (s := u.fgStart k 0 n false) (k := k) (n := n) (by rwa [format]) (by rwa [format])
  rw [results] at read
  have go := State.fgGo_read (Initiator.origin ini) hb hn hu rfl read
  have started := State.leaves_fgStart u k 0 n false
  have left := State.leaves_trans (State.leaves_trans started.started (State.leaves_stageRes _ (Reg.LP_FG_CMD k) (s.fgResults k n) _ (by simp [entryTouch])))
    (State.leaves_setF _ (Fld.LP_FG_CMD_ERR k) 0 _ (by simp [entryTouch, Fld.LP_FG_CMD_ERR]))
  obtain ⟨next, -⟩ := exec_plane (c := .fgRead dt ini k n false) rfl (by simp [Instr.wellFormed, hk, hn]) hm hp hr go time calm left
    (entryTouch_quiet (by simp only [Reg.LP_FG_CMD, Reg.PW_STATUS]; omega))
  have pt : ((u.fgStart k 0 n false).stageRes (Reg.LP_FG_CMD k) (s.fgResults k n)).pt =
      { s.pt with staged := SMap.ins u.pt.staged (Reg.LP_FG_CMD k) (s.fgResults k n) } := by
    rw [State.stageRes, State.fgStart_pt, landed]
  refine ⟨_, next, ?_, ?_, ?_⟩
  · rw [State.settle_pt, State.i2cDone_pt, State.setF_pt, pt]
  · have quiet : (u.fgStart k 0 n false).jn = u.jn := started.part (k := .jn) (by simp [goTouch])
    rw [State.settle_jn, State.i2cDone_jn, State.setF_jn, State.stageRes_jn, quiet, jn]
  · rw [State.settle_pt, State.i2cDone_pt, State.setF_pt, pt]
    exact SMap.look_ins_self _ _ _

end

/-- Once GO reads 0, the words show the entry. -/
theorem fgRead_shows {s t : State} {e k n : Nat} (staged : SMap.look t.pt.staged (Reg.LP_FG_CMD k) = some (s.fgResults k n))
    (free : (t.begun e).busy (Reg.LP_FG_CMD k) = false) :
    ((t.begun e).land (Reg.LP_FG_CMD k)).fld (Fld.LP_FG_CMD_RD_VALID k) = b2n (s.fgEnt k n).valid ∧
    ∀ i, i < 10 → ((t.begun e).land (Reg.LP_FG_CMD k)).reg (Reg.LP_FG_VALUE k 0 + 4 * i) = w32 ((s.fgEnt k n).value / 2 ^ (32 * i)) ∧
      ((t.begun e).land (Reg.LP_FG_CMD k)).reg (Reg.LP_FG_CARE k 0 + 4 * i) = w32 ((s.fgEnt k n).care / 2 ^ (32 * i)) := by
  rw [← State.begun_pt t e] at staged
  exact ⟨State.fld_land staged free rfl (by simp [Fld.LP_FG_CMD_RD_VALID]) (State.fgResults_valid s k n),
    fun i hi => ⟨State.reg_land staged free (State.fgResults_value s k n hi), State.reg_land staged free (State.fgResults_care s k n hi)⟩⟩

end Sys2Proof.Machine
end

/-! ### LP_PM_CMD (R147) -/

section
namespace Sys2Proof.Machine

/-! #### Patterns -/

theorem State.pattern_setPattern {j n m : Nat} (s : State) (i : Nat) (p : Pat) (hn : n < 1024) (hm : m < 1024) :
    (s.setPattern j n p).pattern i m = if i = j ∧ m = n then p else s.pattern i m := by
  split
  · next same =>
    rw [same.1, same.2]
    exact SMap.get_put_self _ _ _ _
  · next other => exact SMap.get_put_ne _ _ _ _ _ (by omega)

theorem State.leaves_setPattern (s : State) (j n : Nat) (p : Pat) (x : Touch) (h : .pt ∈ x.parts) : s.leaves (s.setPattern j n p) x :=
  State.leaves_part s _ .pt x h (fun i hi => by cases i <;> simp_all [Part.same, State.setPattern]) rfl rfl rfl rfl rfl

/-- What WRITE and INVALIDATE make of pattern `n` of plane `j`, by the staging words of plane `k`. -/
def State.patMade (s : State) (k op j n : Nat) : Pat :=
  if op = 1 then ⟨true, s.wordsNat (Reg.LP_PM_VALUE k 0) 4, s.wordsNat (Reg.LP_PM_CARE k 0) 4, (s.reg (Reg.LP_PM_CFG k)).toNat,
    (s.reg (Reg.LP_PM_PORT k)).toNat⟩
  else { s.pattern j n with valid := false }

/-- The results of a READ of pattern `n` of plane `k`. -/
def State.patResults (s : State) (k n : Nat) : List (Nat × Nat × Word) :=
  resWords (Reg.LP_PM_VALUE k 0) (natWords (s.pattern k n).value 4) ++ resWords (Reg.LP_PM_CARE k 0) (natWords (s.pattern k n).care 4) ++
    resWords (Reg.LP_PM_CFG k) [w32 (s.pattern k n).cfg] ++ resWords (Reg.LP_PM_PORT k) [w32 (s.pattern k n).port] ++
    [resBit (Fld.LP_PM_CMD_RD_VALID k) (s.pattern k n).valid]

theorem State.patApply_edit {op : Nat} (s : State) (k j n : Nat) (ho : op = 1 ∨ op = 2) : s.patApply k j op n = s.setPattern j n (s.patMade k op j n) := by
  rcases ho with rfl | rfl <;> rfl

theorem State.patApply_read (s : State) (k n : Nat) : s.patApply k k 0 n = s.stageRes (Reg.LP_PM_CMD k) (s.patResults k n) := rfl

/-- WRITE and INVALIDATE on the planes of a list. -/
theorem State.patApply_edits {k op n : Nat} {ks : List Nat} (ho : op = 1 ∨ op = 2) (hn : n < 1024) (nodup : ks.Nodup) (s : State) :
    s.leaves (ks.foldl (fun s j => s.patApply k j op n) s) { parts := [.pt] } ∧
    ∀ j m, m < 1024 → (ks.foldl (fun s j => s.patApply k j op n) s).pattern j m = if j ∈ ks ∧ m = n then s.patMade k op j n else s.pattern j m := by
  induction ks generalizing s with
  | nil => exact ⟨State.leaves_refl _ _, fun j m _ => by simp⟩
  | cons i ks ih =>
    obtain ⟨fresh, nodup⟩ := List.nodup_cons.1 nodup
    obtain ⟨left, pats⟩ := ih nodup (s.setPattern i n (s.patMade k op i n))
    rw [List.foldl_cons, State.patApply_edit s k i n ho]
    refine ⟨State.leaves_trans (State.leaves_setPattern s i n _ _ (by simp)) left, fun j m hm => ?_⟩
    rw [pats j m hm, State.pattern_setPattern s j _ hn hm]
    by_cases here : j ∈ ks
    · have other : j ≠ i := fun e => fresh (e ▸ here)
      have made : (s.setPattern i n (s.patMade k op i n)).patMade k op j n = s.patMade k op j n := by
        have pat := State.pattern_setPattern s (j := i) j (s.patMade k op i n) hn hn
        rw [if_neg (by simp [other])] at pat
        unfold State.patMade at pat ⊢
        rw [pat]
        rfl
      simp [here, other, made]
    · by_cases first : j = i
      · subst first
        simp [here]
      · simp [here, first]

/-! #### The start of a command -/

/-- OP, INDEX and BCAST of `LP_PM_CMD` are taken, ERR is 0, and the command is under way (R520). -/
def State.patStart (s : State) (k op n : Nat) (bcast : Bool) : State :=
  ((((s.setF (Fld.LP_PM_CMD_OP k) op).setF (Fld.LP_PM_CMD_INDEX k) n).setF (Fld.LP_PM_CMD_BCAST k) (b2n bcast)).setF (Fld.LP_PM_CMD_ERR k) 0).startGo
    (Reg.LP_PM_CMD k) (if bcast then 800 * tNs else 200 * tNs)

section
variable (s : State) (k op n : Nat) (bcast : Bool)

theorem State.leaves_patStart : s.leaves (s.patStart k op n bcast) (goTouch (Reg.LP_PM_CMD k)) :=
  State.leaves_trans (State.leaves_trans (State.leaves_trans (State.leaves_trans (State.leaves_setF s (Fld.LP_PM_CMD_OP k) op _ rfl)
    (State.leaves_setF _ (Fld.LP_PM_CMD_INDEX k) n _ rfl)) (State.leaves_setF _ (Fld.LP_PM_CMD_BCAST k) (b2n bcast) _ rfl))
    (State.leaves_setF _ (Fld.LP_PM_CMD_ERR k) 0 _ rfl)) (State.leaves_startGo _ _ _ _ (by simp [goTouch]) (by simp [goTouch]))

@[simp] theorem State.patStart_pt : (s.patStart k op n bcast).pt = s.pt := (State.leaves_patStart s k op n bcast).part (k := .pt) (by simp [goTouch])
@[simp] theorem State.pattern_patStart (j m : Nat) : (s.patStart k op n bcast).pattern j m = s.pattern j m := by simp [State.pattern]
@[simp] theorem State.planesOn_patStart : (s.patStart k op n bcast).planesOn = s.planesOn := by
  have isl : (s.patStart k op n bcast).isl = s.isl := (State.leaves_patStart s k op n bcast).part (k := .isl) (by simp [goTouch])
  simp only [State.planesOn, State.planeOn, isl]

/-- The staging words are no part of the command's own word. -/
theorem State.patMade_patStart (j m : Nat) : (s.patStart k op n bcast).patMade k op j m = s.patMade k op j m := by
  have kept {a : Nat} (h : a ≠ Reg.LP_PM_CMD k) : (s.patStart k op n bcast).reg a = s.reg a := (State.leaves_patStart s k op n bcast).reg h
  have value : (s.patStart k op n bcast).wordsNat (Reg.LP_PM_VALUE k 0) 4 = s.wordsNat (Reg.LP_PM_VALUE k 0) 4 :=
    State.wordsNat_congr (fun i _ => kept (by simp only [Reg.LP_PM_VALUE, Reg.LP_PM_CMD]; omega))
  have care : (s.patStart k op n bcast).wordsNat (Reg.LP_PM_CARE k 0) 4 = s.wordsNat (Reg.LP_PM_CARE k 0) 4 :=
    State.wordsNat_congr (fun i _ => kept (by simp only [Reg.LP_PM_CARE, Reg.LP_PM_CMD]; omega))
  have cfg := kept (a := Reg.LP_PM_CFG k) (by simp only [Reg.LP_PM_CFG, Reg.LP_PM_CMD]; omega)
  have port := kept (a := Reg.LP_PM_PORT k) (by simp only [Reg.LP_PM_PORT, Reg.LP_PM_CMD]; omega)
  simp only [State.patMade, value, care, cfg, port, State.pattern_patStart]

end

section
variable {s : State} {k op n : Nat} {bcast : Bool}

theorem State.patGo_edit (org : Nat) (hb : s.busy (Reg.LP_PM_CMD k) = false) (ho : op = 1 ∨ op = 2) (hn : n < 1024) {u v : State}
    (hu : s.land (Reg.LP_PM_CMD k) = u) (hv : u.patStart k op n bcast = v) :
    ((v.editPlanes k bcast).foldl (fun s j => s.patApply k j op n) v).leaves (s.patGo org k (planeWrite op n bcast))
      { parts := [.jn], regs := (· = Reg.CM_INT_STATUS) } := by
  have small : n < 2 ^ 27 := by omega
  unfold State.patGo
  rw [if_neg (by simp [hb]), planeWrite_op bcast (by omega) small, planeWrite_index bcast (by decide) hn, planeWrite_bcast bcast small]
  dsimp only
  rw [decide_eq_true ho, Bool.and_true, if_pos rfl]
  subst hu hv
  exact State.leaves_journalAt _ _ _ _ _ _ _ _ (by simp) rfl

theorem State.patGo_read (org : Nat) (hb : s.busy (Reg.LP_PM_CMD k) = false) (hn : n < 1024) {u v : State} (hu : s.land (Reg.LP_PM_CMD k) = u)
    (hv : u.patStart k 0 n false = v) : s.patGo org k (planeWrite 0 n false) = v.stageRes (Reg.LP_PM_CMD k) (v.patResults k n) := by
  have small : n < 2 ^ 27 := by omega
  unfold State.patGo
  rw [if_neg (by simp [hb]), planeWrite_op false (by omega) small, planeWrite_index false (by decide) hn, planeWrite_bcast false small]
  subst hu hv
  rfl

end

/-! #### What the commands on patterns come to -/

section
variable (s : State) (k n : Nat)

theorem State.patResults_valid : resOnly (s.patResults k n) (resBit (Fld.LP_PM_CMD_RD_VALID k) (s.pattern k n).valid) := by
  refine (resOnly_self _).append_left (fun x hx => ?_)
  have below {a : Nat} {ws : List Word} (h : Reg.LP_PM_CMD k < a) : ∀ x ∈ resWords a ws, x.1 ≠ Reg.LP_PM_CMD k := resWords_apart (.inl h)
  simp only [List.mem_append] at hx
  rcases hx with ((value | care) | cfg) | port
  · exact below (by simp only [Reg.LP_PM_CMD, Reg.LP_PM_VALUE]; omega) x value
  · exact below (by simp only [Reg.LP_PM_CMD, Reg.LP_PM_CARE]; omega) x care
  · exact below (by simp only [Reg.LP_PM_CMD, Reg.LP_PM_CFG]; omega) x cfg
  · exact below (by simp only [Reg.LP_PM_CMD, Reg.LP_PM_PORT]; omega) x port

theorem State.patResults_cfg : resOnly (s.patResults k n) (Reg.LP_PM_CFG k, 0xFFFFFFFF, w32 (s.pattern k n).cfg) := by
  have here := resOnly_resWords (a := Reg.LP_PM_CFG k) (ws := [w32 (s.pattern k n).cfg]) (i := 0) (by simp)
  refine ((here.append_left (fun x hx => ?_)).append_right (resWords_apart (.inl (by simp only [Reg.LP_PM_CFG, Reg.LP_PM_PORT]; omega)))).append_right
    (resBit_apart (by simp only [Fld.LP_PM_CMD_RD_VALID, Reg.LP_PM_CMD, Reg.LP_PM_CFG]; omega))
  rcases List.mem_append.1 hx with value | care
  · exact resWords_apart (.inr (by simp only [Reg.LP_PM_VALUE, Reg.LP_PM_CFG, natWords_length]; omega)) x value
  · exact resWords_apart (.inr (by simp only [Reg.LP_PM_CARE, Reg.LP_PM_CFG, natWords_length]; omega)) x care

theorem State.patResults_port : resOnly (s.patResults k n) (Reg.LP_PM_PORT k, 0xFFFFFFFF, w32 (s.pattern k n).port) := by
  have here := resOnly_resWords (a := Reg.LP_PM_PORT k) (ws := [w32 (s.pattern k n).port]) (i := 0) (by simp)
  refine (here.append_left (fun x hx => ?_)).append_right (resBit_apart (by simp only [Fld.LP_PM_CMD_RD_VALID, Reg.LP_PM_CMD, Reg.LP_PM_PORT]; omega))
  simp only [List.mem_append] at hx
  rcases hx with (value | care) | cfg
  · exact resWords_apart (.inr (by simp only [Reg.LP_PM_VALUE, Reg.LP_PM_PORT, natWords_length]; omega)) x value
  · exact resWords_apart (.inr (by simp only [Reg.LP_PM_CARE, Reg.LP_PM_PORT, natWords_length]; omega)) x care
  · exact resWords_apart (.inr (by simp only [Reg.LP_PM_CFG, Reg.LP_PM_PORT, List.length_singleton]; omega)) x cfg

variable {i : Nat} (hi : i < 4)
include hi

theorem State.patResults_value : resOnly (s.patResults k n) (Reg.LP_PM_VALUE k 0 + 4 * i, 0xFFFFFFFF, w32 ((s.pattern k n).value / 2 ^ (32 * i))) := by
  rw [← natWords_getD hi]
  have here := resOnly_resWords (a := Reg.LP_PM_VALUE k 0) (ws := natWords (s.pattern k n).value 4) (i := i) (by rwa [natWords_length])
  exact (((here.append_right (resWords_apart (.inl (by simp only [Reg.LP_PM_CARE, Reg.LP_PM_VALUE]; omega)))).append_right
    (resWords_apart (.inl (by simp only [Reg.LP_PM_CFG, Reg.LP_PM_VALUE]; omega)))).append_right
    (resWords_apart (.inl (by simp only [Reg.LP_PM_PORT, Reg.LP_PM_VALUE]; omega)))).append_right
    (resBit_apart (by simp only [Fld.LP_PM_CMD_RD_VALID, Reg.LP_PM_CMD, Reg.LP_PM_VALUE]; omega))

theorem State.patResults_care : resOnly (s.patResults k n) (Reg.LP_PM_CARE k 0 + 4 * i, 0xFFFFFFFF, w32 ((s.pattern k n).care / 2 ^ (32 * i))) := by
  rw [← natWords_getD hi]
  have here := resOnly_resWords (a := Reg.LP_PM_CARE k 0) (ws := natWords (s.pattern k n).care 4) (i := i) (by rwa [natWords_length])
  exact (((here.append_left (resWords_apart (.inr (by simp only [Reg.LP_PM_CARE, Reg.LP_PM_VALUE, natWords_length]; omega)))).append_right
    (resWords_apart (.inl (by simp only [Reg.LP_PM_CFG, Reg.LP_PM_CARE]; omega)))).append_right
    (resWords_apart (.inl (by simp only [Reg.LP_PM_PORT, Reg.LP_PM_CARE]; omega)))).append_right
    (resBit_apart (by simp only [Fld.LP_PM_CMD_RD_VALID, Reg.LP_PM_CMD, Reg.LP_PM_CARE]; omega))

end

/-- WRITE makes a pattern of the staging words. -/
theorem State.patMade_write (u : State) (k n j m : Nat) (b : Bool) : (u.patStart k 1 n b).patMade k 1 j m = ⟨true, u.wordsNat (Reg.LP_PM_VALUE k 0) 4,
    u.wordsNat (Reg.LP_PM_CARE k 0) 4, (u.reg (Reg.LP_PM_CFG k)).toNat, (u.reg (Reg.LP_PM_PORT k)).toNat⟩ := by
  rw [State.patMade_patStart]
  rfl

section
variable {s u : State} {dt k n : Nat} {ini : Initiator}

theorem pattern_landed (hu : (s.begun dt).land (Reg.LP_PM_CMD k) = u) (j m : Nat) : u.pattern j m = s.pattern j m := by
  obtain ⟨-, -, -, -, -, pt⟩ := State.land_calm hu
  rw [State.pattern, pt]
  rfl

/-- INVALIDATE clears the valid bit of the pattern. -/
theorem patMade_invalidate (hu : (s.begun dt).land (Reg.LP_PM_CMD k) = u) (j m : Nat) (b : Bool) :
    (u.patStart k 2 n b).patMade k 2 j m = { s.pattern j m with valid := false } := by
  rw [State.patMade_patStart, ← pattern_landed hu]
  rfl

variable (hn : n < 1024) (hm : s.mainUp = true) (hp : s.planeOn k = true) (hr : s.reaches ini (Reg.LP_PM_CMD k) 0 = true)
  (hb : (s.begun dt).busy (Reg.LP_PM_CMD k) = false) (hu : (s.begun dt).land (Reg.LP_PM_CMD k) = u)
include hn hm hp hr hb hu

/-- WRITE and INVALIDATE, on one plane and with BCAST. -/
theorem exec_patEdit {op : Nat} {bcast : Bool} {c : Instr}
    (he : exec c s = s.cmdAon c.wellFormed dt (fun s => s.onBus ini (Reg.LP_PM_CMD k) (fun s => s.onPlane k
      (fun s => s.patGo (Initiator.origin ini) k (planeWrite op n bcast))))) (hw : c.wellFormed = true) (ho : op = 1 ∨ op = 2) :
    ∃ t, exec c s = .next t ∧ (u.i2cDone ini (Reg.LP_PM_CMD k)).frame t (entryTouch (Reg.LP_PM_CMD k)) ∧
      ∀ j m, m < 1024 → t.pattern j m = if j ∈ s.editPlanes k bcast ∧ m = n then (u.patStart k op n bcast).patMade k op j n else s.pattern j m := by
  obtain ⟨time, calm, -, isl, -, -⟩ := State.land_calm hu
  have planes : (u.patStart k op n bcast).editPlanes k bcast = s.editPlanes k bcast := by
    rw [State.editPlanes, State.planesOn_patStart, State.editPlanes, State.planesOn, State.planesOn]
    simp only [State.planeOn, isl]
  have nodup : (s.editPlanes k bcast).Nodup := by
    unfold State.editPlanes
    split
    · exact List.nodup_range.filter _
    · exact List.nodup_singleton k
  have journal := State.patGo_edit (bcast := bcast) (Initiator.origin ini) hb ho hn hu rfl
  rw [planes] at journal
  obtain ⟨edited, pats⟩ := State.patApply_edits (k := k) ho hn nodup (u.patStart k op n bcast)
  have made := State.leaves_trans (State.leaves_patStart u k op n bcast).started
    (edited.mono (y := entryTouch (Reg.LP_PM_CMD k)) (by simp [entryTouch]) (fun _ h => h.elim) (fun _ h => h.elim) (by simp) (by simp))
  have left := State.leaves_trans made (journal.mono (y := entryTouch (Reg.LP_PM_CMD k)) (by simp [entryTouch])
    (fun a h => by simp [entryTouch, show a = Reg.CM_INT_STATUS from h]) (fun _ h => h.elim) (by simp) (by simp))
  obtain ⟨next, frame⟩ := exec_plane (g := (s.begun dt).patGo (Initiator.origin ini) k (planeWrite op n bcast)) he hw hm hp hr rfl time calm left
    (entryTouch_quiet (by simp only [Reg.LP_PM_CMD, Reg.PW_STATUS]; omega))
  refine ⟨_, next, frame, fun j m hm => ?_⟩
  have kept : ((s.begun dt).patGo (Initiator.origin ini) k (planeWrite op n bcast)).pt = _ := journal.part (k := .pt) (by simp)
  rw [State.pattern, State.settle_pt, State.i2cDone_pt, kept, ← State.pattern, pats j m hm, State.pattern_patStart, pattern_landed hu]

/-- READ: the pattern's words wait for the end of the command. -/
theorem exec_patternRead (hk : k < 4) :
    ∃ t, exec (.patternRead dt ini k n false) s = .next t ∧ t.pt = { s.pt with staged := t.pt.staged } ∧ t.jn = s.jn ∧
      SMap.look t.pt.staged (Reg.LP_PM_CMD k) = some (s.patResults k n) := by
  obtain ⟨time, calm, jn, -, -, landed⟩ := State.land_calm hu
  have results : (u.patStart k 0 n false).patResults k n = s.patResults k n := by
    simp only [State.patResults, State.pattern_patStart, pattern_landed hu]
  have go := State.patGo_read (Initiator.origin ini) hb hn hu rfl
  rw [results] at go
  have started := State.leaves_patStart u k 0 n false
  have left := State.leaves_trans started.started (State.leaves_stageRes _ (Reg.LP_PM_CMD k) (s.patResults k n) _ (by simp [entryTouch]))
  obtain ⟨next, -⟩ := exec_plane (c := .patternRead dt ini k n false) rfl (by simp [Instr.wellFormed, hk, hn]) hm hp hr go time calm left
    (entryTouch_quiet (by simp only [Reg.LP_PM_CMD, Reg.PW_STATUS]; omega))
  have pt : ((u.patStart k 0 n false).stageRes (Reg.LP_PM_CMD k) (s.patResults k n)).pt =
      { s.pt with staged := SMap.ins u.pt.staged (Reg.LP_PM_CMD k) (s.patResults k n) } := by
    rw [State.stageRes, State.patStart_pt, landed]
  refine ⟨_, next, ?_, ?_, ?_⟩
  · rw [State.settle_pt, State.i2cDone_pt, pt]
  · have quiet : (u.patStart k 0 n false).jn = u.jn := started.part (k := .jn) (by simp [goTouch])
    rw [State.settle_jn, State.i2cDone_jn, State.stageRes_jn, quiet, jn]
  · rw [State.settle_pt, State.i2cDone_pt, pt]
    exact SMap.look_ins_self _ _ _

end

/-- Once GO reads 0, the words show the pattern. -/
theorem patternRead_shows {s t : State} {e k n : Nat} (staged : SMap.look t.pt.staged (Reg.LP_PM_CMD k) = some (s.patResults k n))
    (free : (t.begun e).busy (Reg.LP_PM_CMD k) = false) :
    ((t.begun e).land (Reg.LP_PM_CMD k)).fld (Fld.LP_PM_CMD_RD_VALID k) = b2n (s.pattern k n).valid ∧
    ((t.begun e).land (Reg.LP_PM_CMD k)).reg (Reg.LP_PM_CFG k) = w32 (s.pattern k n).cfg ∧
    ((t.begun e).land (Reg.LP_PM_CMD k)).reg (Reg.LP_PM_PORT k) = w32 (s.pattern k n).port ∧
    ∀ i, i < 4 → ((t.begun e).land (Reg.LP_PM_CMD k)).reg (Reg.LP_PM_VALUE k 0 + 4 * i) = w32 ((s.pattern k n).value / 2 ^ (32 * i)) ∧
      ((t.begun e).land (Reg.LP_PM_CMD k)).reg (Reg.LP_PM_CARE k 0 + 4 * i) = w32 ((s.pattern k n).care / 2 ^ (32 * i)) := by
  rw [← State.begun_pt t e] at staged
  exact ⟨State.fld_land staged free rfl (by simp [Fld.LP_PM_CMD_RD_VALID]) (State.patResults_valid s k n),
    State.reg_land staged free (State.patResults_cfg s k n), State.reg_land staged free (State.patResults_port s k n),
    fun i hi => ⟨State.reg_land staged free (State.patResults_value s k n hi), State.reg_land staged free (State.patResults_care s k n hi)⟩⟩

end Sys2Proof.Machine
end

/-! ### EntryCommands -/

section
namespace Sys2Proof.Machine

section
variable {s u : State} {dt k n : Nat} {ini : Initiator} (hk : k < 4) (hm : s.mainUp = true) (hp : s.planeOn k = true)

section
variable (hn : n < 8192) (hr : s.reaches ini (Reg.LP_FG_CMD k) 0 = true) (hb : (s.begun dt).busy (Reg.LP_FG_CMD k) = false)
  (hu : (s.begun dt).land (Reg.LP_FG_CMD k) = u)
include hk hm hp hn hr hb hu

theorem fgWrite_loads (on : fmtOn (s.fgFormat k (n / 1024)) = true) (even : fmtWide (s.fgFormat k (n / 1024)) = true → n % 2 = 0) :
    ∃ t, exec (.fgWrite dt ini k n false) s = .next t ∧ t.fld (Fld.LP_FG_CMD_ERR k) = 0 ∧
      t.fgEnt k n = ⟨true, u.wordsNat (Reg.LP_FG_VALUE k 0) 10, u.wordsNat (Reg.LP_FG_CARE k 0) 10,
        (List.range 3).map (fun i => u.reg (Reg.LP_FG_ACTION k i))⟩ ∧
      (fmtWide (s.fgFormat k (n / 1024)) = true → t.fgEnt k (n + 1) = ⟨true, u.wordsNat (Reg.LP_FG_VALUE k 0 + 40) 10,
        u.wordsNat (Reg.LP_FG_CARE k 0 + 40) 10, (List.range 3).map (fun i => u.reg (Reg.LP_FG_ACTION k i))⟩) ∧
      (u.i2cDone ini (Reg.LP_FG_CMD k)).frame t (entryTouch (Reg.LP_FG_CMD k)) := by
  obtain ⟨t, next, err, ent, upper, frame⟩ := exec_fgEdit_one (c := .fgWrite dt ini k n false) hn hm hp hr hb hu rfl (by simp [Instr.wellFormed, hk, hn])
    (.inl rfl) on even
  rw [State.fgMade_write] at ent upper
  exact ⟨t, next, err, ent, upper, frame⟩

theorem fgInvalidate_clears (on : fmtOn (s.fgFormat k (n / 1024)) = true) (even : fmtWide (s.fgFormat k (n / 1024)) = true → n % 2 = 0) :
    ∃ t, exec (.fgInvalidate dt ini k n false) s = .next t ∧ t.fgEnt k n = { s.fgEnt k n with valid := false } ∧
      (fmtWide (s.fgFormat k (n / 1024)) = true → t.fgEnt k (n + 1) = { s.fgEnt k (n + 1) with valid := false }) ∧
      (u.i2cDone ini (Reg.LP_FG_CMD k)).frame t (entryTouch (Reg.LP_FG_CMD k)) := by
  obtain ⟨t, next, -, ent, upper, frame⟩ := exec_fgEdit_one (c := .fgInvalidate dt ini k n false) hn hm hp hr hb hu rfl
    (by simp [Instr.wellFormed, hk, hn]) (.inr rfl) on even
  rw [fgMade_invalidate hu] at ent upper
  exact ⟨t, next, ent, upper, frame⟩

theorem fgEdits_bcast
    (on : ∀ j, j < 4 → s.planeOn j = true → fmtOn (s.fgFormat j (n / 1024)) = true ∧ fmtWide (s.fgFormat j (n / 1024)) = false) :
    (∃ t, exec (.fgWrite dt ini k n true) s = .next t ∧ t.fld (Fld.LP_FG_CMD_ERR k) = 0 ∧
      ∀ j m, j < 4 → m < 8192 → t.fgEnt j m = if s.planeOn j = true ∧ m = n then ⟨true, u.wordsNat (Reg.LP_FG_VALUE k 0) 10,
        u.wordsNat (Reg.LP_FG_CARE k 0) 10, (List.range 3).map (fun i => u.reg (Reg.LP_FG_ACTION k i))⟩ else s.fgEnt j m) ∧
    (∃ t, exec (.fgInvalidate dt ini k n true) s = .next t ∧ t.fld (Fld.LP_FG_CMD_ERR k) = 0 ∧
      ∀ j m, j < 4 → m < 8192 → t.fgEnt j m = if s.planeOn j = true ∧ m = n then { s.fgEnt j m with valid := false } else s.fgEnt j m) := by
  constructor
  · obtain ⟨t, next, err, ents⟩ := exec_fgEdit_all (c := .fgWrite dt ini k n true) hn hm hp hr hb hu rfl (by simp [Instr.wellFormed, hk, hn]) (.inl rfl) on
    exact ⟨t, next, err, fun j m hj hm => by rw [ents j m hj hm, State.fgMade_write]; rfl⟩
  · obtain ⟨t, next, err, ents⟩ := exec_fgEdit_all (c := .fgInvalidate dt ini k n true) hn hm hp hr hb hu rfl (by simp [Instr.wellFormed, hk, hn])
      (.inr rfl) on
    exact ⟨t, next, err, fun j m hj hm => by rw [ents j m hj hm, fgMade_invalidate hu]⟩

end

section
variable (hn : n < 1024) (hr : s.reaches ini (Reg.LP_PM_CMD k) 0 = true) (hb : (s.begun dt).busy (Reg.LP_PM_CMD k) = false)
  (hu : (s.begun dt).land (Reg.LP_PM_CMD k) = u)
include hk hm hp hn hr hb hu

theorem patternWrite_loads (bcast : Bool) : ∃ t, exec (.patternWrite dt ini k n bcast) s = .next t ∧
    (u.i2cDone ini (Reg.LP_PM_CMD k)).frame t (entryTouch (Reg.LP_PM_CMD k)) ∧
    ∀ j m, m < 1024 → t.pattern j m = if j ∈ s.editPlanes k bcast ∧ m = n then ⟨true, u.wordsNat (Reg.LP_PM_VALUE k 0) 4,
      u.wordsNat (Reg.LP_PM_CARE k 0) 4, (u.reg (Reg.LP_PM_CFG k)).toNat, (u.reg (Reg.LP_PM_PORT k)).toNat⟩ else s.pattern j m := by
  obtain ⟨t, next, frame, pats⟩ := exec_patEdit (c := .patternWrite dt ini k n bcast) hn hm hp hr hb hu rfl (by simp [Instr.wellFormed, hk, hn]) (.inl rfl)
  exact ⟨t, next, frame, fun j m hm => by rw [pats j m hm, State.patMade_write]⟩

theorem patternInvalidate_clears (bcast : Bool) : ∃ t, exec (.patternInvalidate dt ini k n bcast) s = .next t ∧
    (u.i2cDone ini (Reg.LP_PM_CMD k)).frame t (entryTouch (Reg.LP_PM_CMD k)) ∧
    ∀ j m, m < 1024 → t.pattern j m = if j ∈ s.editPlanes k bcast ∧ m = n then { s.pattern j n with valid := false } else s.pattern j m := by
  obtain ⟨t, next, frame, pats⟩ := exec_patEdit (c := .patternInvalidate dt ini k n bcast) hn hm hp hr hb hu rfl (by simp [Instr.wellFormed, hk, hn])
    (.inr rfl)
  exact ⟨t, next, frame, fun j m hm => by rw [pats j m hm, patMade_invalidate hu]⟩

end

end

theorem State.mem_editPlanes_bcast (s : State) (k : Nat) {j : Nat} (hj : j < 4) : j ∈ s.editPlanes k true ↔ s.planeOn j = true := by
  simp [State.editPlanes, State.planesOn, hj]

theorem State.mem_editPlanes_self (s : State) (k : Nat) : k ∈ s.editPlanes k false := List.mem_singleton_self k

/-- Settles O16: each WRITE and INVALIDATE by what it makes of its planes' entries, each READ by the results that land when GO reads 0. -/
theorem entryCommands : Obligations.EntryCommands := by
  refine ⟨?_, ?_, ?_, ?_, ?_⟩
  · intro s u dt k n ini hk hn hm hp hr hb on even hu
    refine ⟨fgWrite_loads hk hm hp hn hr hb hu on even, fgInvalidate_clears hk hm hp hn hr hb hu on even, ?_⟩
    obtain ⟨t, next, pt, jn, staged⟩ := exec_fgRead hn hm hp hr hb hu hk on even
    exact ⟨t, next, pt, jn, fun e free => fgRead_shows staged free⟩
  · intro s dt k n ini hk hn hm hp hr hb off
    exact exec_fgWrite_refused hn hm hp hr hb rfl hk off
  · intro s u dt k n ini hk hn hm hp hr hb on hu
    exact fgEdits_bcast hk hm hp hn hr hb hu on
  · intro s u dt k n ini hk hn hm hp hr hb hu
    obtain ⟨t, written, -, loaded⟩ := patternWrite_loads hk hm hp hn hr hb hu true
    obtain ⟨v, invalidated, -, cleared⟩ := patternInvalidate_clears hk hm hp hn hr hb hu true
    refine ⟨⟨t, written, fun j m hj hm => ?_⟩, v, invalidated, fun j m hj hm => ?_⟩
    · simp only [loaded j m hm, State.mem_editPlanes_bcast s k hj]
    · simp only [cleared j m hm, State.mem_editPlanes_bcast s k hj]
      split
      · next same => rw [same.2]
      · rfl
  · intro s u dt k n ini hk hn hm hp hr hb hu
    obtain ⟨t, written, framed, loaded⟩ := patternWrite_loads hk hm hp hn hr hb hu false
    obtain ⟨v, invalidated, framed', cleared⟩ := patternInvalidate_clears hk hm hp hn hr hb hu false
    obtain ⟨w, read, pt, jn, staged⟩ := exec_patternRead hn hm hp hr hb hu hk
    have here : k ∈ s.editPlanes k false ∧ n = n := ⟨State.mem_editPlanes_self s k, rfl⟩
    exact ⟨⟨t, written, by rw [loaded k n hn, if_pos here], framed⟩, ⟨v, invalidated, by rw [cleared k n hn, if_pos here], framed'⟩,
      w, read, pt, jn, fun e free => patternRead_shows staged free⟩

end Sys2Proof.Machine
end

/-! ### Notifications of the MAC table (R175, R390) -/

section
namespace Sys2Proof.Machine

/-- What the scan of the vectors may change is outside every frame. -/
theorem SameButMsix.leaves {s t : State} (h : SameButMsix s t) (x : Touch) : s.leaves t x := by
  refine ⟨⟨fun k _ => ?_, fun a _ => by simp [State.reg, h.regs], fun a ha _ => h.ctr a ha, fun p _ => by simp [State.port, h.ports],
    fun r _ => by simp [State.ring, h.rings]⟩, h.timeReq⟩
  cases h
  cases k <;> simp_all [Part.same]

theorem State.sameButMsix_msixSend (s : State) (v : Nat) : SameButMsix s (s.msixSend v) := by
  unfold State.msixSend
  split
  · constructor <;> intros <;> rfl
  · constructor
    case ctr => exact fun a ha => State.ctr_count_ne _ _ _ _ ha
    all_goals rfl

section
variable (s : State) {r : Nat} {x : Touch} (ho : .out ∈ x.parts) (hr : r ∈ x.rings)
include hr

theorem State.leaves_cqCheck : s.leaves (s.cqCheck r) x :=
  State.leaves_ite _ (fun _ => State.leaves_trans (State.leaves_setRing s r _ x hr) ((State.sameButMsix_msixSend _ _).leaves x))
    (fun _ => State.leaves_refl s x)

include ho

theorem State.leaves_cqEntry (ws : List Word) (status ent kind ring : Nat) : s.leaves (s.cqEntry r ws status ent kind ring) x :=
  State.leaves_trans (State.leaves_emit s _ x ho) (State.leaves_setRing _ r _ x hr)

/-- A record for a SAMPLE ring touches the ring and what leaves the device. -/
theorem State.leaves_samplePost (ents : List (List Word)) (kind : Nat) : s.leaves (s.samplePost r ents kind).2 x := by
  unfold State.samplePost
  split
  · exact State.leaves_foldl _ x _ (fun t _ _ => State.leaves_trans (State.leaves_cqEntry t ho hr _ _ _ _ _) (State.leaves_cqCheck _ hr)) s
  · exact State.leaves_refl s x

end

/-- What a notification of plane `k` touches, with its ring. -/
def notifyTouch (k r : Nat) : Touch := { parts := [.out], ctrs := (· = Ctr.plane k 0x70), rings := [r] }

theorem State.leaves_macNotify (s : State) (k ev key : Nat) (old new : Option Nat) :
    s.leaves (s.macNotify k ev key old new) (notifyTouch k (s.fld (Fld.LP_LEARN_CTRL_NOTIFY_RING k))) := by
  unfold State.macNotify
  dsimp only
  generalize hp : s.samplePost _ _ _ = p
  have posted : s.leaves p.2 (notifyTouch k (s.fld (Fld.LP_LEARN_CTRL_NOTIFY_RING k))) :=
    hp ▸ State.leaves_samplePost s (by simp [notifyTouch]) (by simp [notifyTouch]) _ _
  refine State.leaves_ite _ (fun _ => ?_) (fun _ => State.leaves_refl s _)
  split
  · exact posted
  · exact State.leaves_trans posted (State.leaves_count _ _ _ _ rfl)

section
variable (s : State) (k ev key : Nat) (old new : Option Nat)

@[simp] theorem State.macNotify_pt : (s.macNotify k ev key old new).pt = s.pt :=
  (State.leaves_macNotify s k ev key old new).part (k := .pt) (by simp [notifyTouch])
@[simp] theorem State.macNotify_timeReq : (s.macNotify k ev key old new).timeReq = s.timeReq := (State.leaves_macNotify s k ev key old new).2

/-- A notification counts nothing but one that finds no room. -/
theorem State.ctr_macNotify {o : Nat} (hk : k < 4) (ho : o < 0x70) :
    (s.macNotify k ev key old new).ctr (Ctr.plane k o) = s.ctr (Ctr.plane k o) :=
  (State.leaves_macNotify s k ev key old new).ctrOf (by simp only [Ctr.plane, Ctr.hi]; omega) (by simp only [notifyTouch, Ctr.plane]; omega)

end

end Sys2Proof.Machine
end

/-! ### The MAC table and the learning of a plane (R168, R172) -/

section
namespace Sys2Proof.Machine

@[simp] theorem State.macAt_setMac_self (s : State) (k p : Nat) (e : MacEnt) : (s.setMac k p e).macAt k p = e := SMap.get_put_self _ _ _ _
@[simp] theorem State.learn_setLearn_self (s : State) (k : Nat) (x : Learn) : (s.setLearn k x).learn k = x := SMap.get_put_self _ _ _ _

@[simp] theorem State.learn_setReg (s : State) (a : Nat) (w : Word) (k : Nat) : (s.setReg a w).learn k = s.learn k := rfl
@[simp] theorem State.reg_setLearn (s : State) (k : Nat) (x : Learn) (a : Nat) : (s.setLearn k x).reg a = s.reg a := rfl
@[simp] theorem State.setLearn_mac (s : State) (k : Nat) (x : Learn) : (s.setLearn k x).pt.mac = s.pt.mac := rfl

theorem State.leaves_setLearn (s : State) (k : Nat) (y : Learn) (x : Touch) (h : .pt ∈ x.parts) : s.leaves (s.setLearn k y) x :=
  State.leaves_part s _ .pt x h (fun j hj => by cases j <;> simp_all [Part.same]) rfl rfl rfl rfl rfl

theorem State.macAt_congr {s t : State} (mac : t.pt.mac = s.pt.mac) (k p : Nat) : t.macAt k p = s.macAt k p := by rw [State.macAt, mac, State.macAt]

section
variable {s t : State} {k : Nat} (mac : t.pt.mac = s.pt.mac) (seed : t.fld (Fld.LP_MAC_SEED_SEED k) = s.fld (Fld.LP_MAC_SEED_SEED k)) (key : Nat)
include mac seed

/-- The place of a key depends on the plane's entries and seed alone (R167). -/
theorem State.macFind_congr : t.macFind k key = s.macFind k key := by
  simp only [State.macFind, State.macBucket, State.overflow, State.macList, State.macAt, mac, seed]

theorem State.macFree_congr : t.macFree k key = s.macFree k key := by
  have bucket : t.macBucket k key = s.macBucket k key := by rw [State.macBucket, seed, State.macBucket]
  have full : t.overflow k = s.overflow k := by rw [State.overflow, State.macList, mac, State.overflow, State.macList]
  have place (p : Nat) : t.macAt k p = s.macAt k p := State.macAt_congr mac k p
  unfold State.macFree
  simp only [bucket, full, place]

end

section
variable (s : State) (dt k : Nat)

@[simp] theorem State.learn_begun : (s.begun dt).learn k = s.learn k := by simp [State.learn]
@[simp] theorem State.macList_begun : (s.begun dt).macList k = s.macList k := by simp [State.macList]
@[simp] theorem State.macFind_begun (key : Nat) : (s.begun dt).macFind k key = s.macFind k key := State.macFind_congr (by simp) (by simp) key
@[simp] theorem State.macFree_begun (key : Nat) : (s.begun dt).macFree k key = s.macFree k key := State.macFree_congr (by simp) (by simp) key

end

/-- What a command of a lookup plane that is there answers, where its operation makes `g` of the begun state. -/
theorem exec_onPlane {s g : State} {c : Instr} {dt k : Nat} {f : State → State} (he : exec c s = s.cmdMain c.wellFormed dt (fun s => s.onPlane k f))
    (hw : c.wellFormed = true) (hm : s.mainUp = true) (hp : s.planeOn k = true) (hf : f (s.begun dt) = g) (hq : g.timeReq = ⟨none, none⟩) :
    exec c s = .next (g.settle s (s.begun dt).time) :=
  exec_main he hw hm (by rw [State.onPlane, if_pos (by simpa using hp), hf]) hq

/-- The same, for an operation that is known to touch `x` alone. -/
theorem exec_onPlane_touches {s g : State} {c : Instr} {dt k : Nat} {f : State → State} {x : Touch}
    (he : exec c s = s.cmdMain c.wellFormed dt (fun s => s.onPlane k f)) (hw : c.wellFormed = true) (hm : s.mainUp = true) (hp : s.planeOn k = true)
    (hf : f (s.begun dt) = g) (h : (s.begun dt).leaves g x) :
    exec c s = .next (g.settle s (s.begun dt).time) ∧ (s.begun dt).frame (g.settle s (s.begun dt).time) x :=
  exec_main_touches he hw hm (by rw [State.onPlane, if_pos (by simpa using hp), hf]) h

@[simp] theorem State.learn_settle (s s0 : State) (t : Time) (k : Nat) : (s.settle s0 t).learn k = s.learn k := by simp [State.learn]
@[simp] theorem State.macAt_settle (s s0 : State) (t : Time) (k p : Nat) : (s.settle s0 t).macAt k p = s.macAt k p :=
  State.macAt_congr (by simp) k p
theorem State.ctr_settle_plane (g s0 : State) (t : Time) {k o : Nat} (hk : k < 4) (ho : o < 0x100) :
    (g.settle s0 t).ctr (Ctr.plane k o) = g.ctr (Ctr.plane k o) :=
  State.ctr_settle g s0 t _ (by simp only [Ctr.plane, Ctr.hi]; omega)

/-! #### Requests and tokens (R172) -/

/-- The learning of a plane with its tokens as they have accrued. -/
def State.learnNow (s : State) (k : Nat) : Learn :=
  { s.learn k with tok := min (s.learnBurst k) ((s.learn k).tok + s.fld (Fld.LP_LEARN_RATE_RATE k) * (s.now - (s.learn k).tokAt)), tokAt := s.now }

@[simp] theorem State.reqs_learnNow (s : State) (k : Nat) : (s.learnNow k).reqs = (s.learn k).reqs := by unfold State.learnNow; rfl
theorem State.learnRefill_eq (s : State) (k : Nat) : s.learnRefill k = s.setLearn k (s.learnNow k) := rfl

/-- A token that is there stays: a BURST is one token at least. -/
theorem State.token_learnNow {s : State} {k : Nat} (h : tMs ≤ (s.learn k).tok) : tMs ≤ (s.learnNow k).tok := by
  have burst : tMs ≤ s.learnBurst k := Nat.le_mul_of_pos_left tMs (by omega)
  exact le_min burst (by omega)

/-- The state in which a served request of a new key has its entry. -/
def State.learned (s : State) (k p : Nat) (r : Nat × Nat) (l : List (Nat × Nat)) : State :=
  (((s.setLearn k (s.learnNow k)).setLearn k { s.learnNow k with reqs := l, tok := (s.learnNow k).tok - tMs }).setMac k p ⟨r.1, r.2⟩).count
    (Ctr.plane k 0x40) 1

@[simp] theorem State.learned_timeReq (s : State) (k p : Nat) (r : Nat × Nat) (l : List (Nat × Nat)) : (s.learned k p r l).timeReq = s.timeReq := rfl
@[simp] theorem State.macAt_learned (s : State) (k p : Nat) (r : Nat × Nat) (l : List (Nat × Nat)) : (s.learned k p r l).macAt k p = ⟨r.1, r.2⟩ :=
  SMap.get_put_self _ _ _ _
@[simp] theorem State.reqs_learned (s : State) (k p : Nat) (r : Nat × Nat) (l : List (Nat × Nat)) : ((s.learned k p r l).learn k).reqs = l :=
  congrArg Learn.reqs (SMap.get_put_self _ _ _ _)
@[simp] theorem State.learned_tbl (s : State) (k p : Nat) (r : Nat × Nat) (l : List (Nat × Nat)) : (s.learned k p r l).pt.tbl = s.pt.tbl := rfl
theorem State.ctr_learned (s : State) (k p : Nat) (r : Nat × Nat) (l : List (Nat × Nat)) :
    (s.learned k p r l).ctr (Ctr.plane k 0x40) = (s.ctr (Ctr.plane k 0x40) + 1) % 2 ^ 64 := State.ctr_count_self _ _ _

theorem State.learnServe_new {s : State} {k p : Nat} {r : Nat × Nat} {l : List (Nat × Nat)} (reqs : (s.learn k).reqs = r :: l)
    (token : tMs ≤ (s.learn k).tok) (rate : s.fld (Fld.LP_LEARN_RATE_RATE k) ≠ 0) (new : s.macFind k r.1 = none) (free : s.macFree k r.1 = some p) :
    s.learnServe k = (s.learned k p r l).macNotify k evLearn r.1 none (some r.2) := by
  have asks : (s.learnNow k).reqs = r :: l := by rw [State.reqs_learnNow, reqs]
  have may (x : Learn) : ¬ ((s.learnNow k).tok < tMs ∨ (s.setLearn k x).fld (Fld.LP_LEARN_RATE_RATE k) = 0) :=
    not_or.2 ⟨not_lt.2 (State.token_learnNow token), rate⟩
  have find (x y : Learn) : ((s.setLearn k x).setLearn k y).macFind k r.1 = none := (State.macFind_congr rfl rfl _).trans new
  have place (x y : Learn) : ((s.setLearn k x).setLearn k y).macFree k r.1 = some p := (State.macFree_congr rfl rfl _).trans free
  unfold State.learnServe
  simp only [State.learnRefill_eq, State.learn_setLearn_self, asks]
  rw [if_neg (may _)]
  simp only [find, place]
  rfl

/-- LEARN_SERVE of a new key, with a token. -/
theorem learnServe_inserts {s : State} {dt k p : Nat} {r : Nat × Nat} {l : List (Nat × Nat)} (hk : k < 4) (hm : s.mainUp = true) (hp : s.planeOn k = true)
    (reqs : (s.learn k).reqs = r :: l) (token : tMs ≤ (s.learn k).tok) (rate : s.fld (Fld.LP_LEARN_RATE_RATE k) ≠ 0) (new : s.macFind k r.1 = none)
    (free : s.macFree k r.1 = some p) :
    ∃ t, exec (.learnServe dt k) s = .next t ∧ t.macAt k p = ⟨r.1, r.2⟩ ∧ (t.learn k).reqs = l ∧
      t.ctr (Ctr.plane k 0x40) = (s.ctr (Ctr.plane k 0x40) + 1) % 2 ^ 64 ∧ t.pt.tbl = s.pt.tbl := by
  have served := State.learnServe_new (s := s.begun dt) (by simpa using reqs) (by simpa using token) (by simpa using rate) (by simpa using new)
    (by simpa using free)
  have pt : ((s.begun dt).learnServe k).pt = ((s.begun dt).learned k p r l).pt := by rw [served, State.macNotify_pt]
  refine ⟨_, exec_onPlane rfl (by simp [Instr.wellFormed, hk]) hm hp rfl ?_, ?_, ?_, ?_, ?_⟩
  · rw [served, State.macNotify_timeReq, State.learned_timeReq, State.begun_timeReq]
  · rw [State.macAt_settle, State.macAt_congr (congrArg Planes.mac pt), State.macAt_learned]
  · rw [State.learn_settle, State.learn, pt, ← State.learn, State.reqs_learned]
  · rw [State.ctr_settle_plane _ _ _ hk (by decide), served, State.ctr_macNotify _ _ _ _ _ _ hk (by decide), State.ctr_learned, State.ctr_begun]
  · rw [State.settle_pt, pt, State.learned_tbl, State.begun_pt]

end Sys2Proof.Machine
end

/-! ### RATE and PERIOD of the learning registers (R172, R173) -/

section
namespace Sys2Proof.Machine

/-- What a write of one of the learning registers touches: the register, and the learning of the plane. -/
def learnTouch (a : Nat) : Touch := { parts := [.pt], regs := (· = a) }

section
variable (s : State) (k : Nat)

@[simp] theorem State.learnBurst_settle (s0 : State) (t : Time) : (s.settle s0 t).learnBurst k = s.learnBurst k := by simp [State.learnBurst]
@[simp] theorem State.learnBurst_setLearn (x : Learn) : (s.setLearn k x).learnBurst k = s.learnBurst k := by simp [State.learnBurst, State.fld]
theorem State.learnBurst_refilled (x : Learn) (a : Nat) (w : Word) : ((s.setLearn k x).setReg a w).learnBurst k = (s.setReg a w).learnBurst k := rfl

end

/-- A write of RATE and BURST: the tokens that have accrued are clipped to the new BURST. -/
theorem State.learnRateWrite_eq (s : State) (k : Nat) (v : Word) : s.learnRateWrite k v =
    ((s.setLearn k (s.learnNow k)).setReg (Reg.LP_LEARN_RATE k) (v &&& 0x00FF0FFF#32)).setLearn k { s.learnNow k with
      tok := min (s.learnNow k).tok ((s.setReg (Reg.LP_LEARN_RATE k) (v &&& 0x00FF0FFF#32)).learnBurst k) } := by
  have refilled (w : Word) : ((s.setLearn k (s.learnNow k)).setReg (Reg.LP_LEARN_RATE k) w).learn k = s.learnNow k := by
    rw [State.learn_setReg, State.learn_setLearn_self]
  unfold State.learnRateWrite
  simp only [State.learnRefill_eq, refilled]
  rfl

theorem State.leaves_learnRateWrite (s : State) (k : Nat) (v : Word) : s.leaves (s.learnRateWrite k v) (learnTouch (Reg.LP_LEARN_RATE k)) := by
  rw [State.learnRateWrite_eq]
  exact State.leaves_trans (State.leaves_trans (State.leaves_setLearn s k _ _ (by simp [learnTouch])) (State.leaves_setReg _ _ _ _ rfl))
    (State.leaves_setLearn _ k _ _ (by simp [learnTouch]))

theorem State.leaves_agePeriodWrite (s : State) (k : Nat) (v : Word) : s.leaves (s.agePeriodWrite k v) (learnTouch (Reg.LP_AGE_CTRL k)) :=
  State.leaves_trans (State.leaves_setReg s _ _ _ rfl) (State.leaves_setLearn _ k _ _ (by simp [learnTouch]))

section
variable {s : State} {k : Nat} (dt : Nat) (v : Word) (hk : k < 4) (hm : s.mainUp = true) (hp : s.planeOn k = true)
include hk hm hp

theorem learnRateWrite_clips : ∃ t, exec (.learnRateWrite dt k v) s = .next t ∧ t.reg (Reg.LP_LEARN_RATE k) = v &&& 0x00FF0FFF#32 ∧
    (t.learn k).tok ≤ t.learnBurst k ∧ (t.learn k).reqs = (s.learn k).reqs ∧ (s.begun dt).frame t (learnTouch (Reg.LP_LEARN_RATE k)) := by
  obtain ⟨next, frame⟩ := exec_onPlane_touches (c := .learnRateWrite dt k v) rfl (by simp [Instr.wellFormed, hk]) hm hp rfl
    (State.leaves_learnRateWrite _ k v)
  have written := State.learnRateWrite_eq (s.begun dt) k v
  generalize (s.begun dt).learnRateWrite k v = g at next frame written
  subst written
  refine ⟨_, next, ?_, ?_, ?_, frame⟩
  · rw [State.reg_settle, State.reg_setLearn, State.reg_setReg_self]
  · rw [State.learn_settle, State.learn_setLearn_self, State.learnBurst_settle, State.learnBurst_setLearn, State.learnBurst_refilled]
    exact min_le_right _ _
  · rw [State.learn_settle, State.learn_setLearn_self, State.reqs_learnNow, State.learn_begun]

theorem agePeriodWrite_restarts : ∃ t, exec (.agePeriodWrite dt k v) s = .next t ∧ t.reg (Reg.LP_AGE_CTRL k) = v &&& 0x0000FFFF#32 ∧
    (t.learn k).sweepAt = s.now + dt ∧ (s.begun dt).frame t (learnTouch (Reg.LP_AGE_CTRL k)) := by
  obtain ⟨next, frame⟩ := exec_onPlane_touches (c := .agePeriodWrite dt k v) rfl (by simp [Instr.wellFormed, hk]) hm hp rfl
    (State.leaves_agePeriodWrite _ k v)
  refine ⟨_, next, ?_, ?_, frame⟩
  · rw [State.reg_settle, State.agePeriodWrite, State.reg_setLearn, State.reg_setReg_self]
  · rw [State.learn_settle, State.agePeriodWrite, State.learn_setLearn_self, State.now_begun]

end

end Sys2Proof.Machine
end

/-! ### The aging sweep (R173, R183) -/

section
namespace Sys2Proof.Machine

/-- What a sweep makes of the state by one entry; `hit` says that a source lookup has hit it in the same cycle. -/
def State.ageEntry (s : State) (k p : Nat) (e : MacEnt) (hit : Bool) : State :=
  if macStatic e.data || hit then s
  else if macAge e.data = 3 then ((s.setMac k p MacEnt.empty).count (Ctr.plane k 0x68) 1).macNotify k evAged e.key (some e.data) none
  else s.setMac k p { e with data := setBits e.data 28 2 (macAge e.data + 1) }

/-- A sweep of a table that holds one entry of the plane. -/
theorem State.ageSweep_single {s : State} {k p : Nat} {e : MacEnt} (only : s.macList k = [(p, e)]) :
    ∃ x, s.ageSweep k = (s.setLearn k x).ageEntry k p e ((s.hitsNow k).contains p) := by
  have listed (x : Learn) : (s.setLearn k x).macList k = [(p, e)] := only
  unfold State.ageSweep
  dsimp only
  rw [listed]
  exact ⟨_, rfl⟩

/-- A sweep that is due: its time has come, and it is made. -/
theorem State.agingSweep_due {s : State} {k : Nat} (period : 0 < s.fld (Fld.LP_AGE_CTRL_PERIOD k))
    (due : max (s.learn k).sweepAt s.isl.upAt + s.fld (Fld.LP_AGE_CTRL_PERIOD k) * tSec ≤ s.now) :
    ∃ x, x.hitCyc = (s.learn k).hitCyc ∧ x.hits = (s.learn k).hits ∧ s.agingSweep k = (s.setLearn k x).ageSweep k := by
  unfold State.agingSweep
  dsimp only
  rw [if_pos ⟨Nat.mul_pos period (by decide), due⟩]
  exact ⟨_, by rfl, by rfl, rfl⟩

theorem State.hitsNow_setLearn {s : State} {k : Nat} {x : Learn} (cyc : x.hitCyc = (s.learn k).hitCyc) (hits : x.hits = (s.learn k).hits) :
    (s.setLearn k x).hitsNow k = s.hitsNow k := by
  rw [State.hitsNow, State.learn_setLearn_self, cyc, hits]
  rfl

section
variable (s : State) {k p : Nat} {e : MacEnt}

theorem State.macList_single (hp : p < 2 ^ 19) (only : s.pt.mac = [(k * 2 ^ 19 + p, e)]) : s.macList k = [(p, e)] := by
  have inside : k * 2 ^ 19 ≤ k * 2 ^ 19 + p ∧ k * 2 ^ 19 + p < (k + 1) * 2 ^ 19 := by omega
  rw [State.macList, only, List.filter_cons_of_pos (by simpa using inside), List.filter_nil, List.map_singleton, Nat.add_sub_cancel_left]

theorem State.macAt_single (only : s.pt.mac = [(k * 2 ^ 19 + p, e)]) : s.macAt k p = e := by
  simp [State.macAt, only, SMap.get, SMap.look]

theorem State.ageEntry_timeReq (hit : Bool) : (s.ageEntry k p e hit).timeReq = s.timeReq := by
  unfold State.ageEntry
  split
  · rfl
  · split
    · exact State.macNotify_timeReq _ _ _ _ _ _
    · rfl

/-- A static entry, and one that a source lookup has hit, stays. -/
theorem State.ageEntry_kept {hit : Bool} (h : macStatic e.data = true ∨ hit = true) : s.ageEntry k p e hit = s :=
  if_pos (by simpa using h)

section
variable (dynamic : macStatic e.data = false)
include dynamic

/-- A dynamic entry at AGE 3 goes, and is counted. -/
theorem State.ageEntry_old (hk : k < 4) (old : macAge e.data = 3) : (s.ageEntry k p e false).macAt k p = MacEnt.empty ∧
    (s.ageEntry k p e false).ctr (Ctr.plane k 0x68) = (s.ctr (Ctr.plane k 0x68) + 1) % 2 ^ 64 := by
  have gone : s.ageEntry k p e false = ((s.setMac k p MacEnt.empty).count (Ctr.plane k 0x68) 1).macNotify k evAged e.key (some e.data) none := by
    rw [State.ageEntry, if_neg (by simp [dynamic]), if_pos old]
  rw [gone]
  constructor
  · rw [State.macAt_congr (congrArg Planes.mac (State.macNotify_pt _ _ _ _ _ _))]
    exact State.macAt_setMac_self s k p MacEnt.empty
  · rw [State.ctr_macNotify _ _ _ _ _ _ hk (by decide), State.ctr_count_self]
    rfl

/-- A younger one grows older. -/
theorem State.ageEntry_young (young : macAge e.data < 3) :
    (s.ageEntry k p e false).macAt k p = { e with data := setBits e.data 28 2 (macAge e.data + 1) } := by
  rw [State.ageEntry, if_neg (by simp [dynamic]), if_neg (by omega), State.macAt_setMac_self]

end

end

theorem macAge_setBits (data : Nat) {n : Nat} (h : n < 4) : macAge (setBits data 28 2 n) = n := by
  rw [macAge, bitsOf_setBits_self]
  exact Nat.mod_eq_of_lt h

/-- AGING_SWEEP on a table of one entry, when a sweep is due. -/
theorem agingSweep_single {s : State} {dt k p : Nat} {e : MacEnt} (hk : k < 4) (hp : p < 2 ^ 19) (hm : s.mainUp = true) (on : s.planeOn k = true)
    (only : s.pt.mac = [(k * 2 ^ 19 + p, e)]) (period : 0 < s.fld (Fld.LP_AGE_CTRL_PERIOD k))
    (due : max (s.learn k).sweepAt s.isl.upAt + s.fld (Fld.LP_AGE_CTRL_PERIOD k) * tSec ≤ s.now + dt) :
    ∃ u : State, u.pt.mac = s.pt.mac ∧ u.ctrs = s.ctrs ∧
      exec (.agingSweep dt k) s = .next ((u.ageEntry k p e (((s.begun dt).hitsNow k).contains p)).settle s (s.begun dt).time) := by
  obtain ⟨x, cyc, hits, sweep⟩ := State.agingSweep_due (s := s.begun dt) (k := k) (by simpa using period) (by simpa using due)
  obtain ⟨y, swept⟩ := State.ageSweep_single (s := (s.begun dt).setLearn k x) (k := k) (p := p) (e := e)
    (State.macList_single _ hp (by rw [State.setLearn_mac, State.begun_pt, only]))
  rw [State.hitsNow_setLearn cyc hits] at swept
  refine ⟨((s.begun dt).setLearn k x).setLearn k y, by rw [State.setLearn_mac, State.setLearn_mac, State.begun_pt], State.begun_ctrs s dt,
    exec_onPlane rfl (by simp [Instr.wellFormed, hk]) hm on (sweep.trans swept) ?_⟩
  rw [State.ageEntry_timeReq]
  exact State.begun_timeReq s dt

/-- Settles O18: the served request, the two register writes, and the one entry of the sweep by its kind, its age and its hit. -/
theorem learning : Obligations.Learning := by
  refine ⟨?_, ?_, ?_, ?_⟩
  · intro s dt k p r l hk hm hp reqs token rate new free
    exact learnServe_inserts hk hm hp reqs token rate new free
  · intro s dt k v hk hm hp
    exact learnRateWrite_clips dt v hk hm hp
  · intro s dt k v hk hm hp
    exact agePeriodWrite_restarts dt v hk hm hp
  · intro s dt k p e hk hp hm on only _ period due
    obtain ⟨u, mac, ctrs, next⟩ := agingSweep_single hk hp hm on only period due
    have kept : u.macAt k p = e := State.macAt_single u (mac.trans only)
    have count : u.ctr (Ctr.plane k 0x68) = s.ctr (Ctr.plane k 0x68) := by rw [State.ctr, ctrs, State.ctr]
    refine ⟨_, next, fun static => ?_, fun hit => ?_, fun unhit dynamic old => ?_, fun unhit dynamic young => ?_⟩
    · rw [State.macAt_settle, State.ageEntry_kept u (.inl static), kept]
    · rw [State.macAt_settle, State.ageEntry_kept u (.inr hit), kept]
    · obtain ⟨gone, counted⟩ := State.ageEntry_old u (p := p) dynamic hk old
      rw [unhit, State.macAt_settle, State.ctr_settle_plane _ _ _ hk (by decide)]
      exact ⟨gone, by rw [counted, count]⟩
    · rw [unhit, State.macAt_settle, State.ageEntry_young u dynamic young]
      exact ⟨rfl, macAge_setBits e.data (by omega)⟩

end Sys2Proof.Machine
end

/-! ### What lands with the results of a table command (R520) -/

section
namespace Sys2Proof.Machine

/-- A MAC command on one plane: beside what it makes of the plane's table, its record is written. -/
theorem State.tblRun_mac_one {s : State} {t : TC} (done org : Nat) (bad : s.badArg t = false) (mac : t.table = tMac) (one : t.bcast = false) :
    ∃ args, (s.tblRun done org t).2 = (s.macCommand t t.plane).2.2.2.journalAt done t.plane 2 org t.table args := by
  unfold State.tblRun
  dsimp only
  rw [if_neg (by simp [bad]), if_pos mac, if_pos (.inl mac), if_neg (by simp [one]), List.foldl_cons, List.foldl_nil]
  exact ⟨_, rfl⟩

/-- A command that `LP_TBL_GO` takes: the results of the last one have landed, it runs, and its answer waits for the end of GO (R520). -/
theorem State.tblGo_takes {s v : State} {k : Nat} (org : Nat) (hb : s.busy (Reg.LP_TBL_GO k) = false)
    (hv : (s.land (Reg.LP_TBL_GO k)).startGo (Reg.LP_TBL_GO k) (tblBound (s.tcWords k)) = v) :
    ∃ ws, s.tblGo org k = (v.tblRun (v.goEnd (Reg.LP_TBL_GO k)) org (s.tcWords k)).2.stageRes (Reg.LP_TBL_GO k) ws := by
  unfold State.tblGo
  rw [if_neg (by simp [hb])]
  subst hv
  exact ⟨_, rfl⟩

@[simp] theorem State.stageRes_mac (s : State) (a : Nat) (ws : List (Nat × Nat × Word)) : (s.stageRes a ws).pt.mac = s.pt.mac := rfl

/-- A MAC command on one plane that `LP_TBL_GO` takes. -/
theorem State.tblGo_mac_one {s v : State} {k : Nat} (org : Nat) (hb : s.busy (Reg.LP_TBL_GO k) = false)
    (hv : (s.land (Reg.LP_TBL_GO k)).startGo (Reg.LP_TBL_GO k) (tblBound (s.tcWords k)) = v) (bad : v.badArg (s.tcWords k) = false)
    (mac : (s.tcWords k).table = tMac) (one : (s.tcWords k).bcast = false) :
    (v.macCommand (s.tcWords k) (s.tcWords k).plane).2.2.2.leaves (s.tblGo org k) { parts := [.pt, .jn], regs := (· = Reg.CM_INT_STATUS) } ∧
    (s.tblGo org k).pt.mac = (v.macCommand (s.tcWords k) (s.tcWords k).plane).2.2.2.pt.mac := by
  obtain ⟨ws, go⟩ := State.tblGo_takes org hb hv
  obtain ⟨args, run⟩ := State.tblRun_mac_one (v.goEnd (Reg.LP_TBL_GO k)) org bad mac one
  rw [go, run]
  generalize (v.macCommand (s.tcWords k) (s.tcWords k).plane).2.2.2 = u
  have record := State.leaves_journalAt u (v.goEnd (Reg.LP_TBL_GO k)) (s.tcWords k).plane 2 org (s.tcWords k).table args
    { parts := [.jn], regs := (· = Reg.CM_INT_STATUS) } (by simp) rfl
  refine ⟨State.leaves_trans (record.mono (by simp) (fun _ h => h) (fun _ h => h) (by simp) (by simp)) (State.leaves_stageRes _ _ _ _ (by simp)), ?_⟩
  have kept : (u.journalAt (v.goEnd (Reg.LP_TBL_GO k)) (s.tcWords k).plane 2 org (s.tcWords k).table args).pt = u.pt := record.part (k := .pt) (by simp)
  rw [State.stageRes_mac, kept]

/-- The device after its boot, with the result of an earlier table command of plane 0 yet to land: one that goes to `LP_MAC_SEED`. What the model stages for
`LP_TBL_GO` goes to TR0 to TR7 alone, but no statement asks this of its state. -/
def seedStaged : State :=
  { State.reset with
    isl := { Islands.reset with pair := 15, pg := 4095, rxOpen := true },
    pt := { Planes.reset with staged := [(Reg.LP_TBL_GO 0, [(Reg.LP_MAC_SEED 0, 0xFFFFFFFF, 1)])] } }

/-- INSERT of DOMAIN 0, MAC 1 on plane 0, with the data of a dynamic entry for port 0. -/
def insertMacOne : TblArgs := ⟨0, false, 0, 0, 1, 0, 0, 0, 0, 0, 0⟩

/-- The place that the key takes by the seed of the state, before the results land. -/
def placeBefore : Nat := 4 * seedStaged.macBucket 0 1

/-- `LP_TBL_CMD` holds the words of the command. -/
def seedWritten : State := (seedStaged.begun 0).putWords (Reg.LP_TBL_CMD 0 0) (tblTc 1 insertMacOne).w

/-- What the INSERT has made of the state when it answers: the results have landed, and the command is under way. -/
def seedInserted : State :=
  (((seedWritten.land (Reg.LP_TBL_GO 0)).startGo (Reg.LP_TBL_GO 0) (tblBound (seedWritten.tcWords 0))).macCommand (seedWritten.tcWords 0)
    (seedWritten.tcWords 0).plane).2.2.2

/-- The seed changes as the results land, before the command runs: the entry takes a place in another bucket. -/
theorem insert_misses_place : ∃ t, exec (.tblInsert 0 .pcie 0 insertMacOne) seedStaged = .next t ∧ t.macAt 0 placeBefore = MacEnt.empty := by
  have go : (seedStaged.begun 0).tblCommand (Initiator.origin .pcie) 0 1 insertMacOne = seedWritten.tblGo orgPcie 0 := rfl
  obtain ⟨left, mac⟩ := State.tblGo_mac_one (s := seedWritten) (k := 0) orgPcie (by decide +kernel) rfl (by decide +kernel) (by decide +kernel)
    (by decide +kernel)
  obtain ⟨next, -⟩ := exec_plane (u := seedInserted) (c := .tblInsert 0 .pcie 0 insertMacOne) (s := seedStaged) rfl (by decide) (by decide +kernel)
    (by decide +kernel) (by decide +kernel) go (by decide +kernel) (by decide +kernel) left
    ⟨by decide, by decide, by decide, by decide⟩
  have table : ((seedWritten.tblGo orgPcie 0).i2cDone .pcie (Reg.LP_TBL_GO 0)).pt.mac = seedInserted.pt.mac := by rw [State.i2cDone_pt, mac]; rfl
  have ent : seedInserted.macAt 0 placeBefore = MacEnt.empty := by decide +kernel
  exact ⟨_, next, by rw [State.macAt_settle, State.macAt_congr table, ent]⟩

/-- Refutes O17: its first clause takes the lowest free place by the seed of every state, also of one whose staged results of `LP_TBL_GO` would go to
`LP_MAC_SEED`; they land before the command runs (R520), and the key takes its place by the seed that they have brought (R167). -/
theorem not_tableCommands : ¬ Obligations.TableCommands := by
  unfold Obligations.TableCommands
  intro h
  obtain ⟨insert, -⟩ := h
  obtain ⟨t, ht, key, -⟩ := insert seedStaged 0 0 placeBefore .pcie insertMacOne (by decide) (by decide +kernel) (by decide +kernel) (by decide +kernel)
    (by decide +kernel) (by decide +kernel) (by decide) (by decide) (by decide +kernel) (by decide +kernel) (by decide +kernel)
  obtain ⟨u, hu, missed⟩ := insert_misses_place
  rw [exec_next_unique ht hu] at missed
  rw [show insertMacOne.plane = 0 from rfl, missed] at key
  exact absurd key (by decide +kernel)

end Sys2Proof.Machine
end

/-! ### One descriptor crosses the fabric (R209, R214, R217) -/

section
namespace Sys2Proof.Machine

/-- What a crossing touches: the fabric, and the note of the egress pipelines that have taken a frame. -/
def crossTouch : Touch := { parts := [.fab, .pw] }

theorem isEgress_ne {q e : Nat} (he : isEgress e = true) (hq : isVoq q = true ∨ isList q = true) : e ≠ q := by
  simp only [isEgress, isVoq, isList, Bool.or_eq_true, Bool.and_eq_true, decide_eq_true_eq] at he hq
  omega

theorem pipeOf_lt {p : Nat} (hp : p < 144) : pipeOf p < 8 := by unfold pipeOf; split <;> omega

@[simp] theorem State.mtu_begun (s : State) (dt p : Nat) : (s.begun dt).mtu p = s.mtu p := by simp [State.mtu]
/-- Stage 8 reads the registers and the planes' tables alone. -/
theorem State.egressData_congr {s t : State} (hr : ∀ a, t.reg a = s.reg a) (hp : t.pt = s.pt) (f : Frame) (q : Nat) (copy : Bool) :
    t.egressData f q copy = s.egressData f q copy := by
  simp [State.egressData, State.tagEdit, State.tpid, State.dwUpTpid, State.dwUpSvid, State.dwUpCvid, State.dwDnMode, State.dwDnTpid, State.dwDnVid,
    State.mcgStrip, State.tblW, State.tblEnt, State.fld, hr, hp]
@[simp] theorem State.egressData_begun (s : State) (dt : Nat) (f : Frame) (q : Nat) (copy : Bool) :
    (s.begun dt).egressData f q copy = s.egressData f q copy := State.egressData_congr (State.reg_begun s dt) (State.begun_pt s dt) f q copy

theorem State.leaves_fab (s : State) (y : Fab) (x : Touch) (h : .fab ∈ x.parts) : s.leaves { s with fab := y } x :=
  State.leaves_part s _ .fab x h (fun j hj => by cases j <;> simp_all [Part.same]) rfl rfl rfl rfl rfl

section
variable (s : State)

theorem State.leaves_egressUse (e : Nat) : s.leaves (s.egressUse e) crossTouch := by
  refine State.leaves_trans (t := if SMap.look s.pw.egCyc e = some s.cyc23 then s.laneUse e 1 else s) ?_ (State.leaves_pw _ _ _ (by simp [crossTouch]))
  exact State.leaves_ite _ (fun _ => State.leaves_pw s _ _ (by simp [crossTouch])) (fun _ => State.leaves_refl s _)

@[simp] theorem State.fab_egressUse (e : Nat) : (s.egressUse e).fab = s.fab := by
  unfold State.egressUse State.laneUse
  dsimp only
  split <;> rfl

/-- Setting the fabric's only queue to nothing leaves no queue. -/
theorem State.queues_setQueue_only {q : Nat} {l : List QEnt} (h : s.fab.queues = [(q, l)]) : (s.setQueue q []).fab.queues = [] := by
  simp [State.setQueue, h, SMap.put, SMap.del]

/-- A descriptor that enters a fabric without queues lies in the only one. -/
theorem State.queues_push_empty {q : Nat} (x : QEnt) (h : s.fab.queues = []) : (s.push q x).fab.queues = [(q, [x])] := by
  simp [State.push, State.setQueue, State.queue, h, SMap.put, SMap.ins, SMap.get, SMap.look]

theorem State.queue_only {q : Nat} {l : List QEnt} (h : s.fab.queues = [(q, l)]) : s.queue q = l := by simp [State.queue, h, SMap.get, SMap.look]
theorem State.queue_other {q r : Nat} {l : List QEnt} (h : s.fab.queues = [(q, l)]) (hr : q ≠ r) : s.queue r = [] := by
  simp [State.queue, h, SMap.get, SMap.look, hr]

end

/-- A unicast descriptor whose frame fits the port's MTU goes through stage 8 to its egress queue (R163, R217). -/
theorem State.stage8_fits {s : State} {x : QEnt} {f : Frame} (hf : s.frame? x.fid = some f) (hd : x.data = [])
    (hn : (s.egressData f x.port false).length ≤ s.mtu x.port) : s.stage8 x = s.push x.eq { x with data := s.egressData f x.port false } := by
  unfold State.stage8
  rw [hf]
  simp only [hd, List.isEmpty_nil, if_true, if_neg (Nat.not_lt.mpr hn), State.toEgress]

/-- The only descriptor of the fabric is a unicast one in a queue before the crossbar, and its frame fits the MTU of its port. -/
structure State.Waits (s : State) (q : Nat) (x : QEnt) (f : Frame) : Prop where
  queues : s.fab.queues = [(q, [x])]
  unicast : x.left = []
  port : x.port < 144
  egress : isEgress x.eq = true
  apart : x.eq ≠ q
  frame : s.frame? x.fid = some f
  data : x.data = []
  fits : (s.egressData f x.port false).length ≤ s.mtu x.port

/-- The descriptor has crossed: it is the only one, in its egress queue, with the bytes of stage 8. -/
structure State.Crossed (s t : State) (x : QEnt) (f : Frame) : Prop where
  left : s.leaves t crossTouch
  queues : t.fab.queues = [(x.eq, [{ x with data := s.egressData f x.port false }])]

section
variable {s u t : State} {q : Nat} {x : QEnt} {f : Frame}

theorem State.Waits.begun (w : s.Waits q x f) (dt : Nat) : (s.begun dt).Waits q x f :=
  ⟨by rw [State.queues_begun, w.queues], w.unicast, w.port, w.egress, w.apart, by rw [State.frame?_begun, w.frame], w.data,
    by rw [State.egressData_begun, State.mtu_begun]; exact w.fits⟩

/-- The pointers of the arbiter and the list manager do not matter to what waits. -/
theorem State.Waits.move (w : s.Waits q x f) (l : s.leaves u { parts := [.fab] }) (hq : u.fab.queues = s.fab.queues) (hf : u.fab.frames = s.fab.frames) :
    u.Waits q x f := by
  have data := State.egressData_congr (fun a => l.reg (a := a) id) (l.part (k := .pt) (by simp)) f x.port false
  refine ⟨hq.trans w.queues, w.unicast, w.port, w.egress, w.apart, by rw [State.frame?, hf]; exact w.frame, w.data, ?_⟩
  rw [data, State.mtu, l.fld id]
  exact w.fits

theorem State.Waits.headWants (w : s.Waits q x f) : s.headWants q = [pipeOf x.port] := by
  unfold State.headWants
  rw [s.queue_only w.queues]
  exact if_pos w.unicast

/-- The waiting head passes. -/
theorem State.passHead_crosses (w : s.Waits q x f) (e : Nat) : s.Crossed (s.passHead q e) x f := by
  let u := ((s.egressUse e).setQueue q []).lenOut q ((s.egressUse e).ncells x.fid)
  have left : s.leaves u crossTouch := State.leaves_trans (State.leaves_trans (State.leaves_egressUse s e)
    (State.leaves_setQueue _ _ _ _ (by simp [crossTouch]))) (State.leaves_lenOut _ _ _ _ (by simp [crossTouch]))
  have reg (a : Nat) : u.reg a = s.reg a := left.reg id
  have data : u.egressData f x.port false = s.egressData f x.port false :=
    State.egressData_congr reg (left.part (k := .pt) (by simp [crossTouch])) f x.port false
  have mtu : u.mtu x.port = s.mtu x.port := by simp [State.mtu, State.fld, reg]
  have queues : (s.egressUse e).fab.queues = [(q, [x])] := by rw [State.fab_egressUse, w.queues]
  have frame : u.frame? x.fid = some f := by
    rw [← w.frame, State.frame?, State.frame?, ← State.fab_egressUse s e]
    rfl
  have pass : s.passHead q e = u.push x.eq { x with data := s.egressData f x.port false } := by
    rw [← data, ← State.stage8_fits frame w.data (by rw [data, mtu]; exact w.fits)]
    unfold State.passHead
    dsimp only
    rw [(s.egressUse e).queue_only queues]
    exact if_pos w.unicast
  rw [pass]
  exact ⟨State.leaves_trans left (State.leaves_setQueue _ _ _ _ (by simp [crossTouch])),
    State.queues_push_empty u _ (State.queues_setQueue_only _ queues)⟩

/-- After a crossing the fabric's queues are as the egress queue's alone. -/
theorem State.Crossed.contents (c : s.Crossed t x f) (hq : x.eq ≠ q) :
    t.queue q = [] ∧ t.queue x.eq = [{ x with data := s.egressData f x.port false }] :=
  ⟨t.queue_other c.queues hq, t.queue_only c.queues⟩

/-- A crossing after a move of the pointers. -/
theorem State.Crossed.after_move (c : u.Crossed t x f) (l : s.leaves u { parts := [.fab] }) : s.Crossed t x f := by
  refine ⟨State.leaves_trans (l.mono (by simp [crossTouch]) (fun _ h => h) (fun _ h => h) (by simp) (by simp)) c.left, ?_⟩
  rw [c.queues, State.egressData_congr (fun a => l.reg (a := a) id) (l.part (k := .pt) (by simp))]

/-! #### The arbiter (R216) -/

theorem inputOf_lt (h : isVoq q = true) : inputOf q < 8 := by
  simp only [isVoq, decide_eq_true_eq] at h
  unfold inputOf
  split <;> omega

theorem roundRobin_only {i : Nat} (ptr : Nat) (h : i < 8) : roundRobin ptr [i] = some i := by
  have listed : i ∈ (List.range 8).map (fun k => (ptr + k) % 8) := List.mem_map.mpr ⟨(i + 8 - ptr % 8) % 8, List.mem_range.mpr (by omega), by omega⟩
  obtain ⟨y, hy⟩ := Option.isSome_iff_exists.mp (List.find?_isSome.mpr ⟨i, listed, by simp⟩ :
    (((List.range 8).map (fun k => (ptr + k) % 8)).find? (fun x => [i].contains x)).isSome = true)
  have same : y = i := by simpa using List.find?_some hy
  exact same ▸ hy

/-- A number below `n` is the only one that gives something. -/
theorem filterMap_range_only {α : Type} {g : Nat → Option α} {k n : Nat} {y : α} (hk : k < n) (hy : g k = some y) (hn : ∀ j, j ≠ k → g j = none) :
    (List.range n).filterMap g = [y] := by
  have none_ (m : Nat) (h : m ≤ k) : (List.range m).filterMap g = [] :=
    List.filterMap_eq_nil_iff.mpr (fun j hj => hn j (by have := List.mem_range.mp hj; omega))
  induction n with
  | zero => omega
  | succ n ih =>
    rw [List.range_succ, List.filterMap_append]
    rcases Nat.lt_or_eq_of_le (Nat.le_of_lt_succ hk) with h | h
    · simp [ih h, hn n (by omega)]
    · subst h
      simp [none_ k (Nat.le_refl k), hy]

/-- The only request there is. -/
theorem State.requests_only (w : s.Waits q x f) (hq : isVoq q = true) (hs : s.fbState = fbVoq) (hc : s.credit (pipeOf x.port) = true) :
    s.requests = [(inputOf q, pipeOf x.port, s.qLevel q, q)] := by
  have open_ : decide (s.fbState = fbLeaving) = false := by rw [hs]; rfl
  simp [State.requests, w.queues, hq, open_, w.headWants, hc]

/-- The only request is matched in the first iteration. -/
theorem State.matchOnce_only {i e lv : Nat} (hi : i < 8) (he : e < 8) : s.matchOnce [(i, e, lv, q)] [] = [(i, e, lv)] := by
  delta State.matchOnce
  extract_lets open_ grants
  have granted : grants = [(i, e, lv)] :=
    filterMap_range_only (k := e) he (by simp [open_, topLevel, roundRobin_only _ hi]) (fun j hj => by simp [open_, Ne.symm hj])
  rw [granted]
  exact filterMap_range_only (k := i) hi (by simp [roundRobin_only _ he]) (fun j hj => by simp [Ne.symm hj])

/-- A request whose input is matched is no longer open. -/
theorem State.matchOnce_matched {i e lv : Nat} : s.matchOnce [(i, e, lv, q)] [(i, e, lv)] = [] := by
  simp [State.matchOnce]

theorem State.matchMore_only {i e lv : Nat} (k : Nat) : s.matchMore [(i, e, lv, q)] k [(i, e, lv)] = [(i, e, lv)] := by
  induction k with
  | zero => rfl
  | succ k ih => rw [State.matchMore, State.matchOnce_matched, List.append_nil, ih]

theorem nextAfter_only (ptr q : Nat) : nextAfter ptr [q] = some q := by
  by_cases h : ptr < q <;> simp [nextAfter, h]

theorem State.chooseQueue_only {i e lv : Nat} (h : isMc q = false) : s.chooseQueue i e lv [q] = some q := by
  have empty (ptr : Nat) : nextAfter ptr [] = none := rfl
  simp [State.chooseQueue, h, nextAfter_only, empty]

/-- Of two passes the second finds the queue empty. -/
theorem State.passTwo_crosses (w : s.Waits q x f) (hc : s.credit (pipeOf x.port) = true) : s.Crossed (s.passTwo q (pipeOf x.port)) x f := by
  have crossed := State.passHead_crosses w (pipeOf x.port)
  have after : (s.passHead q (pipeOf x.port)).headWants q = [] := by unfold State.headWants; rw [(crossed.contents w.apart).1]
  have pass : s.passTwo q (pipeOf x.port) = s.passHead q (pipeOf x.port) := by
    unfold State.passTwo
    rw [w.headWants, hc]
    simp [after]
  rw [pass]
  exact crossed

/-- A cycle of the arbiter with the one request: it is matched, and its queue passes its head. -/
theorem State.arbiterCycle_crosses (w : s.Waits q x f) (hq : isVoq q = true) (hs : s.fbState = fbVoq) (hc : s.credit (pipeOf x.port) = true) :
    s.Crossed s.arbiterCycle x f := by
  have noMc : isMc q = false := by simp only [isVoq, isMc, decide_eq_true_eq, decide_eq_false_iff_not] at hq ⊢; omega
  have cycle : s.arbiterCycle = ((s.movePointers [(inputOf q, pipeOf x.port, s.qLevel q)]).noteQueue (inputOf q) (pipeOf x.port) (s.qLevel q) q).passTwo q
      (pipeOf x.port) := by
    unfold State.arbiterCycle
    dsimp only
    rw [if_neg (by rw [hs]; decide), State.requests_only w hq hs hc, State.matchOnce_only (inputOf_lt hq) (pipeOf_lt w.port), State.matchMore_only]
    simp [State.chooseQueue_only noMc]
  have moved : s.leaves ((s.movePointers [(inputOf q, pipeOf x.port, s.qLevel q)]).noteQueue (inputOf q) (pipeOf x.port) (s.qLevel q) q)
    { parts := [.fab] } := State.leaves_fab s _ _ (by simp)
  rw [cycle]
  exact (State.passTwo_crosses (w.move moved rfl rfl) hc).after_move moved

/-! #### The list manager (R226) -/

/-- The list manager serves no egress queue. -/
theorem State.lmServes_egress {e : Nat} (h : isEgress e = true) : s.lmServes e = false := by
  simp only [isEgress, Bool.or_eq_true, Bool.and_eq_true, decide_eq_true_eq] at h
  have list : isList e = false := by simp only [isList, decide_eq_false_iff_not]; omega
  have mc : isMc e = false := by simp only [isMc, decide_eq_false_iff_not]; omega
  have mirror : isMirror e = false := by simp only [isMirror, decide_eq_false_iff_not]; omega
  simp [State.lmServes, list, mc, mirror]

/-- The list manager passes nothing to a pipeline that no queue it may serve asks for. -/
theorem State.lmPass_idle {k e : Nat} {l : List QEnt} (hq : s.fab.queues = [(k, l)]) (h : s.lmServes k = false ∨ (s.headWants k).contains e = false) :
    s.lmPass e = s := by
  have none_ : (s.lmServes k && (s.headWants k).contains e) = false := by rcases h with h | h <;> rw [h] <;> simp
  unfold State.lmPass
  simp only [hq, List.map_cons, List.map_nil, List.filter_cons, none_]
  rfl

/-- The only list passes its head to the pipeline that it asks for. -/
theorem State.lmPass_crosses (w : s.Waits q x f) (hq : isList q = true) (hs : s.fbState = fbFoundry) (hc : s.credit (pipeOf x.port) = true) :
    s.Crossed (s.lmPass (pipeOf x.port)) x f := by
  have serves : s.lmServes q = true := by
    have still : decide (s.fbState = fbEntering) = false := by rw [hs]; rfl
    simp [State.lmServes, hq, still]
  delta State.lmPass
  extract_lets qs lv
  have asked : qs = [q] := by simp [qs, w.queues, w.headWants, serves]
  have highest : lv = s.qLevel q := by simp [lv, asked]
  rw [asked, highest, List.filter_cons_of_pos (by simp), List.filter_nil, nextAfter_only]
  dsimp only
  rw [if_pos hc]
  have moved := State.leaves_fab s { s.fab with lmPtr := SMap.put (fun _ => 0) s.fab.lmPtr (pipeOf x.port * 4 + s.qLevel q) q }
    { parts := [.fab] } (by simp)
  exact (State.passHead_crosses (w.move moved rfl rfl) _).after_move moved

/-- Among the steps for the numbers of a list one takes `s` to `t`, and the others leave either. -/
theorem foldl_once {g : State → Nat → State} {e : Nat} (l : List Nat) (he : e ∈ l) (hs : ∀ k, k ≠ e → g s k = s) (hg : g s e = t) (ht : ∀ k, g t k = t) :
    l.foldl g s = t := by
  have rest (m : List Nat) : m.foldl g t = t := by
    induction m with
    | nil => rfl
    | cons k m ih => rw [List.foldl_cons, ht, ih]
  induction l with
  | nil => exact absurd he List.not_mem_nil
  | cons k l ih =>
    by_cases h : k = e
    · rw [h, List.foldl_cons, hg, rest]
    · rw [List.foldl_cons, hs k h, ih ((List.mem_cons.mp he).resolve_left (Ne.symm h))]

/-- A cycle of the list manager with the one descriptor: its own pipeline's turn passes it. -/
theorem State.lmCycle_crosses (w : s.Waits q x f) (hq : isList q = true) (hs : s.fbState = fbFoundry) (hc : s.credit (pipeOf x.port) = true) :
    s.Crossed s.lmCycle x f := by
  have crossed := State.lmPass_crosses w hq hs hc
  have done (k : Nat) : (s.lmPass (pipeOf x.port)).lmPass k = s.lmPass (pipeOf x.port) :=
    State.lmPass_idle crossed.queues (.inl (State.lmServes_egress w.egress))
  have cycle : s.lmCycle = s.lmPass (pipeOf x.port) := by
    unfold State.lmCycle
    rw [if_neg (by rw [hs]; decide)]
    refine foldl_once _ (List.mem_range.mpr (pipeOf_lt w.port)) (fun k hk => ?_) (done _) (fun k => by rw [done, done])
    have idle : s.lmPass k = s := State.lmPass_idle w.queues (.inr (by rw [w.headWants]; simpa using hk))
    rw [idle, idle]
  rw [cycle]
  exact crossed

end

/-! #### Replication for one port (R210, R212, R213) -/

@[simp] theorem State.intakeOf_begun (s : State) (dt e : Nat) : (s.begun dt).intakeOf e = s.intakeOf e := by
  have same : (s.begun dt).fab.intake = s.fab.intake := by simp only [State.begun, State.newCycle]; split <;> rfl
  simp [State.intakeOf, same]
@[simp] theorem State.mcUsed_begun (s : State) (dt : Nat) : (s.begun dt).fab.mcUsed = s.fab.mcUsed := by
  simp only [State.begun, State.newCycle]; split <;> rfl
@[simp] theorem State.mcgPorts_begun (s : State) (dt g : Nat) : (s.begun dt).mcgPorts g = s.mcgPorts g := by
  simp [State.mcgPorts, State.mcgValid, State.mcgHas, State.tblW, State.tblEnt]
@[simp] theorem State.qEn_begun (s : State) (dt q : Nat) : (s.begun dt).qEn q = s.qEn q := by simp [State.qEn]
@[simp] theorem State.qProf_begun (s : State) (dt q : Nat) : (s.begun dt).qProf q = s.qProf q := by simp [State.qProf]
@[simp] theorem State.intakeOf_settle (s s0 : State) (t : Time) (e : Nat) : (s.settle s0 t).intakeOf e = s.intakeOf e := by simp [State.intakeOf]
@[simp] theorem State.intakeOf_setIntake (s : State) (e : Nat) (l : List QEnt) : (s.setIntake e l).intakeOf e = l := SMap.get_put_self _ _ _ _
@[simp] theorem State.intakeOf_setFrame (s : State) (e g : Nat) (y : Frame) : (s.setFrame g y).intakeOf e = s.intakeOf e := rfl

section
variable {s : State} {e q : Nat} {f : Frame}

/-- A port takes a copy: it is there, up, its queue is enabled and below its threshold without WRED, a copy record is free, and the copy fits its MTU. -/
structure State.TakesCopy (s : State) (q : Nat) (f : Frame) : Prop where
  present : s.portAbsent q = false
  up : s.fld (Fld.PT_STATUS_LINK q) = 1
  enabled : s.qEn (pcqId q f.cls) = true
  below : s.threshOk (pcqId q f.cls) (s.qSnap (pcqId q f.cls)) f.cells.length (s.freeFor f.pool) = true
  noWred : s.afld (Fld.CB_QPROF0_WRED_EN (s.qProf (pcqId q f.cls))) = 0
  record : s.fab.mcUsed < 262144
  fits : (s.egressData { f with ecn := false, dstDw := none } q true).length ≤ s.mtu q

/-- The copy of a frame for a port. -/
def State.copyFor (s : State) (fid q at_ : Nat) (f : Frame) : QEnt :=
  ⟨fid, q, f.cls, pcqId q f.cls, at_, decide ((s.port q).hold = holdFlush), true, none, [], s.egressData { f with ecn := false, dstDw := none } q true⟩

/-- The copy is queued and takes a record, and counts. -/
def State.copyQueued (s : State) (e fid q at_ : Nat) (f : Frame) : State :=
  ((((State.lenIn { s with fab := { s.fab with mcUsed := s.fab.mcUsed + 1 } } (pcqId q f.cls) f.cells.length).push (pcqId q f.cls)
    (s.copyFor fid q at_ f)).countAdmit (pcqId q f.cls) f.data.length).count (Ctr.pipe e 0x58) 1)

/-- The tests of a copy pass, and it is not marked. -/
theorem State.mcCopy_passes (h : s.TakesCopy q f) (fid at_ : Nat) : s.mcCopy e fid q at_ f = (true, s.copyQueued e fid q at_ f) := by
  unfold State.mcCopy
  dsimp only
  rw [if_neg (by simp [h.present]), if_neg (by simp [h.up]), if_neg (by simp [h.enabled]), if_neg (by simp [h.below]), State.wred]
  dsimp only
  rw [if_pos h.noWred]
  dsimp only
  rw [if_neg (Nat.not_le.mpr h.record), if_neg (show ¬ Wred.pass = Wred.mark from nofun)]
  exact if_neg (Nat.not_lt.mpr h.fits)

@[simp] theorem State.queue_count (s : State) (a n k : Nat) : (s.count a n).queue k = s.queue k := rfl
@[simp] theorem State.queue_countAdmit (s : State) (a n k : Nat) : (s.countAdmit a n).queue k = s.queue k := rfl

theorem State.queue_copyQueued (fid at_ : Nat) :
    (s.copyQueued e fid q at_ f).queue (pcqId q f.cls) = s.queue (pcqId q f.cls) ++ [s.copyFor fid q at_ f] := by
  rw [State.copyQueued, State.queue_count, State.queue_countAdmit, State.queue_push_self]
  rfl

theorem State.copyQueued_keeps (fid at_ : Nat) : (s.copyQueued e fid q at_ f).timeReq = s.timeReq ∧
    (s.copyQueued e fid q at_ f).fab.frames = s.fab.frames ∧ (s.copyQueued e fid q at_ f).fab.intake = s.fab.intake := ⟨rfl, rfl, rfl⟩

/-- A frame with references keeps them where none is added (R212). -/
theorem State.addRef_zero {fid : Nat} (hf : s.frame? fid = some f) (h : 0 < f.ref) : s.addRef fid 0 = s.setFrame fid f := by
  unfold State.addRef
  rw [hf]
  dsimp only
  rw [if_neg (by omega)]
  simp

/-- Replication to the only port of the group that the pipeline serves: one copy, and the references stay (R212). -/
theorem State.replicate_one {x : QEnt} {r : List QEnt} {g : Nat} {ps : List Nat} (hi : s.intakeOf e = x :: r) (hf : s.frame? x.fid = some f)
    (hd : f.dest = .group g) (hg : s.mcgPorts g = some ps)
    (hq : ps.filter (fun p => decide (pipeOf p = e) && !(decide (f.srcKind = 0 ∧ f.src = p))) = [q]) (h : s.TakesCopy q f) (href : 0 < f.ref) :
    ∃ y, (s.replicate e).timeReq = s.timeReq ∧ (s.replicate e).intakeOf e = r ∧ (s.replicate e).frame? x.fid = some y ∧ y.ref = f.ref ∧
      (s.replicate e).queue (pcqId q f.cls) = s.queue (pcqId q f.cls) ++ [s.copyFor x.fid q x.atTime f] := by
  have takes : (s.setIntake e r).TakesCopy q f := ⟨h.present, h.up, h.enabled, h.below, h.noWred, h.record, h.fits⟩
  let u := (s.setIntake e r).copyQueued e x.fid q x.atTime f
  obtain ⟨time, frames, intake⟩ := State.copyQueued_keeps (s := s.setIntake e r) (e := e) (q := q) (f := f) x.fid x.atTime
  have frame : u.frame? x.fid = some f := by rw [State.frame?, frames]; exact hf
  have one : s.replicate e = u.addRef x.fid 0 := by
    unfold State.replicate
    rw [hi]
    dsimp only
    rw [show (s.setIntake e r).frame? x.fid = some f from hf]
    dsimp only
    rw [hd]
    dsimp only
    rw [show (s.setIntake e r).mcgPorts g = some ps from hg]
    dsimp only
    rw [hq, List.foldl_cons, List.foldl_nil, State.mcCopy_passes takes]
    rfl
  rw [one, State.addRef_zero frame href]
  refine ⟨f, time, ?_, State.frame?_setFrame_self _ _ _, rfl, ?_⟩
  · rw [State.intakeOf_setFrame, State.intakeOf, intake]
    exact State.intakeOf_setIntake s e r
  · rw [State.queue_setFrame, State.queue_copyQueued]
    rfl

end

/-! #### The commands -/

/-- ARBITER_CYCLE with one descriptor in a VOQ. -/
theorem arbiterCycle_one {s : State} {dt q : Nat} {x : QEnt} {f : Frame} (hm : s.mainUp = true) (w : s.Waits q x f) (hq : isVoq q = true)
    (hs : s.fbState = fbVoq) (hc : (s.begun dt).credit (pipeOf x.port) = true) :
    ∃ t, exec (.arbiterCycle dt) s = .next t ∧ t.queue q = [] ∧ t.queue x.eq = [{ x with data := s.egressData f x.port false }] ∧
      (s.begun dt).frame t crossTouch := by
  have crossed := State.arbiterCycle_crosses (w.begun dt) hq (by rw [State.fbState_begun, hs]) hc
  obtain ⟨empty, queued⟩ := crossed.contents w.apart
  obtain ⟨next, frame⟩ := exec_main_touches (c := .arbiterCycle dt) rfl rfl hm rfl crossed.left
  exact ⟨_, next, by rw [State.queue_settle, empty], by rw [State.queue_settle, queued, State.egressData_begun], frame⟩

/-- In FOUNDRY the arbiter is stopped (R229). -/
theorem arbiterCycle_stopped {s : State} (dt : Nat) (hm : s.mainUp = true) (hs : s.fbState = fbFoundry) :
    ∃ t, exec (.arbiterCycle dt) s = .next t ∧ (s.begun dt).frame t {} :=
  State.cmdMain_stays s dt (fun s => s.arbiterCycle) hm (if_pos (by rw [State.fbState_begun, hs]))

/-- LIST_MANAGER_CYCLE in FOUNDRY with one descriptor in a Foundry list. -/
theorem listManagerCycle_one {s : State} {dt q : Nat} {x : QEnt} {f : Frame} (hm : s.mainUp = true) (w : s.Waits q x f) (hq : isList q = true)
    (hs : s.fbState = fbFoundry) (hc : (s.begun dt).credit (pipeOf x.port) = true) :
    ∃ t, exec (.listManagerCycle dt) s = .next t ∧ t.queue q = [] ∧ t.queue x.eq = [{ x with data := s.egressData f x.port false }] ∧
      (s.begun dt).frame t crossTouch := by
  have crossed := State.lmCycle_crosses (w.begun dt) hq (by rw [State.fbState_begun, hs]) hc
  obtain ⟨empty, queued⟩ := crossed.contents w.apart
  obtain ⟨next, frame⟩ := exec_main_touches (c := .listManagerCycle dt) rfl rfl hm rfl crossed.left
  exact ⟨_, next, by rw [State.queue_settle, empty], by rw [State.queue_settle, queued, State.egressData_begun], frame⟩

/-- Settles O10: the one request of the arbiter, or of the list manager, passes its head through stage 8, and the one port takes its copy. -/
theorem crossbar : Obligations.Crossbar := by
  refine ⟨?_, ?_, ?_, ?_⟩
  · intro s dt q x f hm queues hq hs left port egress credit frame data fits
    exact arbiterCycle_one hm ⟨queues, left, port, egress, isEgress_ne egress (.inl hq), frame, data, fits⟩ hq hs credit
  · intro s dt hm hs
    exact arbiterCycle_stopped dt hm hs
  · intro s dt q x f hm queues hq hs left port egress credit frame data fits
    exact listManagerCycle_one hm ⟨queues, left, port, egress, isEgress_ne egress (.inr hq), frame, data, fits⟩ hq hs credit
  · intro s dt e g q x r f ps he _ hm intake frame dest group ports present up enabled below noWred record href fits
    have takes : (s.begun dt).TakesCopy q f := ⟨by simpa using present, by simpa using up, by simpa using enabled, below, by simpa using noWred,
      by simpa using record, by simpa using fits⟩
    obtain ⟨y, time, rest, held, refs, queue⟩ := State.replicate_one (by simpa using intake) (by simpa using frame) dest (by simpa using group) ports takes href
    refine ⟨_, y, (s.begun dt).copyFor x.fid q x.atTime f, exec_main (c := .egressReplicate dt e) rfl (decide_eq_true he) hm rfl (time.trans (State.begun_timeReq s dt)),
      by rw [State.intakeOf_settle, rest], by rw [State.frame?_settle, held], refs,
      by rw [State.queue_settle, queue, State.queue_begun], rfl, rfl, rfl, rfl, State.egressData_begun s dt _ _ _⟩

end Sys2Proof.Machine
end

/-! ### The selection of a port (R275) -/

section
namespace Sys2Proof.Machine

/-- What a selection touches. -/
def selectTouch (p : Nat) : Touch := { parts := [.pl, .pw, .fab], regs := fun _ => True, ctrs := fun _ => True, ports := [p] }
/-- What it touches beside the fabric. -/
def startTouch (p : Nat) : Touch := { parts := [.pl, .pw], regs := fun _ => True, ctrs := fun _ => True, ports := [p] }

theorem State.leaves.selects {s t : State} {p : Nat} (h : s.leaves t (startTouch p)) : s.leaves t (selectTouch p) :=
  h.mono (by simp [startTouch, selectTouch]) (fun _ h => h) (fun _ h => h) (by simp [startTouch, selectTouch]) (by simp [startTouch, selectTouch])

@[simp] theorem State.portDown_begun (s : State) (dt p : Nat) : (s.begun dt).portDown p = s.portDown p := by simp [State.portDown]
@[simp] theorem State.framerRoom_begun (s : State) (dt p : Nat) : (s.begun dt).framerRoom p = s.framerRoom p := by simp [State.framerRoom]

@[simp] theorem State.queue_setQueue_self (s : State) (q : Nat) (l : List QEnt) : (s.setQueue q l).queue q = l := SMap.get_put_self _ _ _ _
theorem State.queue_setQueue_ne (s : State) (q r : Nat) (l : List QEnt) (h : r ≠ q) : (s.setQueue q l).queue r = s.queue r := SMap.get_put_ne _ _ _ _ _ h
@[simp] theorem State.queue_setPort (s : State) (p q : Nat) (y : Port) : (s.setPort p y).queue q = s.queue q := rfl
theorem State.queue_congr {s t : State} (h : t.fab = s.fab) (q : Nat) : t.queue q = s.queue q := by rw [State.queue, h, State.queue]

section
variable (s : State) (p : Nat)

theorem State.leaves_pl (y : Planish) (x : Touch) (h : .pl ∈ x.parts) : s.leaves { s with pl := y } x :=
  State.leaves_part s _ .pl x h (fun j hj => by cases j <;> simp_all [Part.same]) rfl rfl rfl rfl rfl

theorem State.leaves_shape (node len : Nat) (x : Touch) (h : .pl ∈ x.parts) : s.leaves (s.shape node len) x :=
  State.leaves_ite _ (fun _ => State.leaves_setBucket s _ _ x h) (fun _ => State.leaves_refl s x)

theorem State.leaves_shapePath (q len : Nat) (x : Touch) (h : .pl ∈ x.parts) : s.leaves (s.shapePath p q len) x := by
  have leaf := State.leaves_trans (State.leaves_shape s (nodeOfQ q) len x h) (State.leaves_shape _ (nodeL0 p) len x h)
  exact State.leaves_ite _ (fun _ => State.leaves_trans leaf (State.leaves_trans (State.leaves_shape _ _ _ x h) (State.leaves_shape _ _ _ x h)))
    (fun _ => leaf)

theorem State.leaves_lpiExit (x : Touch) (hp : p ∈ x.ports) (hr : x.regs (Reg.PT_STATUS p)) : s.leaves (s.lpiExit p) x :=
  State.leaves_ite _ (fun _ => State.leaves_trans (State.leaves_setF s _ _ x hr) (State.leaves_setPort _ p _ x hp)) (fun _ => State.leaves_refl s x)

/-! #### The frame in the MAC stays the same one -/

/-- The port's transmitter holds a queue's frame. -/
def State.sends (s : State) (p : Nat) (x : QEnt) : Prop := ((s.port p).tx.map (·.ent)) = some x

variable {s p}

theorem State.sends.of_tx {t : State} {x : QEnt} (h : s.sends p x) (e : (t.port p).tx = (s.port p).tx) : t.sends p x := by
  rw [State.sends, e]; exact h

theorem State.sends_lpiExit {x : QEnt} (h : s.sends p x) : (s.lpiExit p).sends p x := by
  refine h.of_tx ?_
  unfold State.lpiExit
  split
  · rw [State.port_setPort_self]
  · rfl

/-- The MAC lets no other frame come first. -/
theorem State.txBack_busy {y : TxSt} (h : (s.port p).tx = some y) : s.txBack p = s := by unfold State.txBack; rw [h]

theorem State.sends_txGo {x : QEnt} (h : s.sends p x) : (s.txGo p).sends p x := by
  unfold State.txGo
  split
  · exact h
  · next y hy =>
    have ent : y.ent = x := by simpa [State.sends, hy] using h
    have put (ph : TxPhase) (since stamp : Nat) : (s.setPort p { s.port p with tx := some ⟨y.ent, ph, since, stamp⟩ }).sends p x := by
      simp [State.sends, ent]
    dsimp only
    split_ifs
    · exact h
    · exact put _ _ _
    · exact put _ _ _
    · exact put _ _ _
    · exact put _ _ _
    · exact put _ _ _

theorem State.sends_txAdvance {x : QEnt} (h : s.sends p x) : (s.txAdvance p).sends p x := by
  obtain ⟨y, hy, -⟩ := Option.map_eq_some_iff.mp h
  rw [State.txAdvance, State.txBack_busy hy]
  exact State.sends_txGo h

end

/-! #### From the walk to the transmitter -/

section
variable (s : State) (p q : Nat) (pl : Planish) (x : QEnt) (r : List QEnt)

/-- The head of the leaf's queue is taken into the transmitter: Planish has moved on, the shapers of its path and the queue's watermark follow. -/
def State.taken : State :=
  let s1 := (({ s with pl := pl }).shapePath p q x.data.length).sojourn q ((s.now - x.atTime) / tNs)
  (s1.setQueue q r).setPort p { s1.port p with tx := some ⟨x, .launchWait, s1.now, 0⟩ }

/-- The selection is noted, the port's group has work, and the transmitter leaves LPI. -/
def State.started : State := (((s.noteSelect p).pgUse (groupOf p)).pgWake (groupOf p)).lpiExit p

theorem State.leaves_started : s.leaves (s.started p) (startTouch p) :=
  State.leaves_trans (State.leaves_trans (State.leaves_trans (State.leaves_noteSelect s p _ (by simp [startTouch]))
    (State.leaves_ite _ (fun _ => State.leaves_pw _ _ _ (by simp [startTouch])) (fun _ => State.leaves_refl _ _)))
    (State.leaves_pgWake _ _ _ (by simp [startTouch]) trivial trivial)) (State.leaves_lpiExit _ p _ (by simp [startTouch]) trivial)

theorem State.taken_takes : s.leaves (s.taken p q pl x r) (selectTouch p) ∧ (s.taken p q pl x r).sends p x ∧
    (s.taken p q pl x r).queue q = r ∧ ∀ k, k ≠ q → (s.taken p q pl x r).queue k = s.queue k := by
  delta State.taken
  extract_lets s1
  have left : s.leaves s1 (startTouch p) := State.leaves_trans (State.leaves_trans (State.leaves_pl s pl _ (by simp [startTouch]))
    (State.leaves_shapePath _ p q _ _ (by simp [startTouch]))) (State.leaves_setReg _ _ _ _ trivial)
  refine ⟨State.leaves_trans left.selects (State.leaves_trans (State.leaves_setQueue _ _ _ _ (by simp [selectTouch]))
    (State.leaves_setPort _ p _ _ (by simp [selectTouch]))), by simp [State.sends], by rw [State.queue_setPort, State.queue_setQueue_self], fun k hk => ?_⟩
  rw [State.queue_setPort, State.queue_setQueue_ne _ _ _ _ hk]
  exact State.queue_congr (left.part (k := .fab) (by simp [startTouch])) k

variable {s p q pl x r}

theorem State.sends_started (h : s.sends p x) : (s.started p).sends p x := by
  have woken := State.leaves_pgWake ((s.noteSelect p).pgUse (groupOf p)) (groupOf p)
    { parts := [.pw], regs := (· = Reg.PW_STATUS), ctrs := (· = 0x2770000) } (by simp) rfl rfl
  have port : (((s.noteSelect p).pgUse (groupOf p)).pgWake (groupOf p)).port p = s.port p := (woken.port (by simp)).trans (State.port_pgUse _ _ _)
  exact State.sends_lpiExit (h.of_tx (by rw [port]))

/-- A port whose MAC is empty selects a new frame. -/
theorem State.select_idle (ht : (s.port p).tx = none) (ha : (s.port p).aside = []) : s.select p = s.selectNew p := by
  have aside : s.txAside p = s := by unfold State.txAside; rw [ht]
  have back : s.txBack p = s := by unfold State.txBack; rw [ht, ha]; rfl
  unfold State.select
  dsimp only
  rw [aside, back, if_neg (by simp)]

/-- The walk's leaf gives its head, no singleton, to the transmitter. -/
theorem State.selectTry_takes (k : Nat) (hw : s.walkPort p = some (q, pl)) (hq : s.queue q = x :: r) (hs : s.singleton x = false) :
    s.selectTry p (k + 1) = ((s.taken p q pl x r).started p).txAdvance p := by
  unfold State.selectTry
  rw [hw]
  dsimp only
  rw [hq]
  dsimp only
  rw [if_neg (by simp [hs])]
  rfl

/-- What the taken head leaves behind. -/
theorem State.takes_head : s.leaves (((s.taken p q pl x r).started p).txAdvance p) (selectTouch p) ∧
    (((s.taken p q pl x r).started p).txAdvance p).sends p x ∧ (((s.taken p q pl x r).started p).txAdvance p).queue q = r ∧
    ∀ k, k ≠ q → (((s.taken p q pl x r).started p).txAdvance p).queue k = s.queue k := by
  obtain ⟨left, sends, rest, others⟩ := State.taken_takes s p q pl x r
  have started : (s.taken p q pl x r).leaves (((s.taken p q pl x r).started p).txAdvance p) (startTouch p) :=
    State.leaves_trans (State.leaves_started _ p) (State.leaves_txAdvance _ p _ (by simp [startTouch]) trivial)
  have same := State.queue_congr (started.part (k := .fab) (by simp [startTouch]))
  exact ⟨State.leaves_trans left started.selects, State.sends_txAdvance (State.sends_started sends), by rw [same, rest],
    fun k hk => by rw [same, others k hk]⟩

end

/-- SELECT_FRAME of a port that may select and has a leaf to serve. -/
theorem selectFrame_takes {s : State} {dt p q : Nat} {pl : Planish} {x : QEnt} {r : List QEnt} (hp : p < 144) (hm : s.mainUp = true)
    (hd : s.portDown p = false) (he : s.fld (Fld.PT_STATUS_EN_STATE p) = 1) (ht : (s.port p).tx = none) (ha : (s.port p).aside = [])
    (hn : (s.port p).modeDue = none) (hpa : s.portAbsent p = false) (hf : s.framerRoom p = true) (hs : (s.begun dt).maySelect p = true)
    (hw : (s.begun dt).walkPort p = some (q, pl)) (hq : s.queue q = x :: r) (hx : (s.begun dt).singleton x = false) :
    ∃ t y, exec (.selectFrame dt p) s = .next t ∧ (t.port p).tx = some y ∧ y.ent = x ∧ t.queue q = r ∧
      (∀ q', q' ≠ q → t.queue q' = s.queue q') ∧ (∀ p', p' ≠ p → t.port p' = s.port p') := by
  have act : (s.begun dt).select p = (((s.begun dt).taken p q pl x r).started p).txAdvance p := by
    rw [State.select_idle (by simpa using ht) (by simpa using ha), State.selectNew,
      if_pos ⟨hs, by simpa using hd, by simpa using State.enabled_of_enState he, by simpa using ht, by simpa using hn, by simpa using hpa, by simpa using hf⟩]
    exact State.selectTry_takes 1 hw (by simpa using hq) hx
  obtain ⟨left, sends, rest, others⟩ := State.takes_head (s := s.begun dt) (p := p) (q := q) (pl := pl) (x := x) (r := r)
  obtain ⟨y, hy, ent⟩ := Option.map_eq_some_iff.mp sends
  refine ⟨_, y, exec_main (c := .selectFrame dt p) rfl (decide_eq_true hp) hm act (left.2.trans (State.begun_timeReq s dt)), by rw [State.port_settle, hy], ent,
    by rw [State.queue_settle, rest], fun k hk => by rw [State.queue_settle, others k hk, State.queue_begun],
    fun k hk => by rw [State.port_settle, left.port (by simpa [selectTouch] using hk), State.port_begun]⟩

end Sys2Proof.Machine
end

/-! ### The last reference and the release of its cells (R212, R258, R259) -/

section
namespace Sys2Proof.Machine

/-- What the checks of releases read beside the pool is the same: the registers and the time. -/
structure SameChecks (s t : State) : Prop where
  reg : ∀ a, t.reg a = s.reg a
  time : t.time = s.time

namespace SameChecks

variable {s t : State}

theorem of_leaves {x : Touch} (h : s.leaves t x) (hr : ∀ a, ¬ x.regs a) (ht : .time ∉ x.parts) : SameChecks s t := ⟨fun a => h.reg (hr a), h.part ht⟩

theorem cyc23 (h : SameChecks s t) : t.cyc23 = s.cyc23 := by rw [State.cyc23, State.now, h.time]; rfl
theorem poolOf (h : SameChecks s t) : t.poolOf = s.poolOf := by
  have first : t.poolFirst = s.poolFirst := funext fun n => by simp [State.poolFirst, State.fld, h.reg]
  have segs : t.poolSegs = s.poolSegs := funext fun n => by simp [State.poolSegs, State.fld, h.reg]
  funext c
  rw [State.poolOf, first, segs, State.poolOf]
theorem freeCell (h : SameChecks s t) : t.freeCell = s.freeCell := by
  funext c fin pl
  unfold State.freeCell
  rw [h.poolOf]
theorem releaseErr (h : SameChecks s t) : t.releaseErr = s.releaseErr := by
  funext foreign claim first cyc c freed pl
  unfold State.releaseErr State.nsAt State.cycEnd State.now
  rw [h.poolOf, h.time]
theorem grantedNow (h : SameChecks s t) : t.grantedNow = s.grantedNow := by
  funext claim cyc c pl
  unfold State.grantedNow
  rw [h.cyc23]
theorem walk (h : SameChecks s t) : t.walk = s.walk := by
  funext claim first fin cyc k c done pl
  induction k generalizing c done pl with
  | zero => rfl
  | succ k ih =>
    unfold State.walk
    simp only [h.poolOf, h.grantedNow, h.releaseErr, h.freeCell, ih]
theorem walkOne (h : SameChecks s t) : t.walkOne = s.walkOne := by
  funext cyc w pl
  unfold State.walkOne
  rw [h.walk]
theorem walkAll (h : SameChecks s t) : t.walkAll = s.walkAll := by
  funext cyc ws pl
  induction ws generalizing pl with
  | nil => rfl
  | cons w ws ih =>
    unfold State.walkAll
    simp only [h.walkOne, ih]
theorem walkTo (h : SameChecks s t) : t.walkTo = s.walkTo := by
  funext cyc pl
  unfold State.walkTo State.walkCycle
  rw [h.walkAll]

/-- A release does the same to the same pool. -/
theorem releaseCells (h : SameChecks s t) (hp : t.pool = s.pool) (rank claim : Nat) (cells : List Nat) :
    (t.releaseCells rank claim cells).pool = (s.releaseCells rank claim cells).pool := by
  unfold State.releaseCells
  cases cells with
  | nil => exact hp
  | cons c cells =>
    dsimp only
    simp only [State.release, State.relTurn, State.orderIn, h.cyc23, h.walkTo, hp]

end SameChecks

section
variable {s : State} {fid : Nat} {f : Frame}

/-- The rings whose jobs the end of a frame may end. -/
def Frame.rings (f : Frame) : List Nat := (f.host.map (·.ring)).toList

theorem State.leaves_hostDiscard_rings : s.leaves (s.hostDiscard f) { parts := [.hi], rings := f.rings } :=
  State.leaves_hostDiscard s f _ (fun h hh _ => ⟨by simp, by simp [Frame.rings, hh]⟩)

theorem State.fab_hostDiscard : (s.hostDiscard f).fab = s.fab := (State.leaves_hostDiscard_rings).part (k := .fab) (by simp)

/-- One of several references goes. -/
theorem State.decRef_shared (hf : s.frame? fid = some f) (h : 1 < f.ref) : (s.decRef fid).frame? fid = some { f with ref := f.ref - 1 } ∧
    (s.decRef fid).pool = s.pool := by
  unfold State.decRef
  rw [hf]
  dsimp only
  rw [if_neg (by omega)]
  exact ⟨State.frame?_setFrame_self _ _ _, rfl⟩

/-- The last reference goes: with it the descriptor, and the cells in one release. -/
theorem State.decRef_last (hf : s.frame? fid = some f) (h : f.ref ≤ 1) : (s.decRef fid).frame? fid = none ∧
    (s.decRef fid).pool = (s.releaseCells relRef f.owner f.cells).pool := by
  have discarded := State.leaves_hostDiscard_rings (s := s) (f := f)
  have frame : (s.hostDiscard f).frame? fid = some f := by rw [State.frame?, State.fab_hostDiscard]; exact hf
  have last : s.decRef fid = ((s.hostDiscard f).releaseCells relRef f.owner f.cells).dropFrame fid := by
    unfold State.decRef
    rw [hf]
    dsimp only
    rw [if_pos h, State.lastRef, State.freeFrame, frame]
  rw [last]
  exact ⟨State.frame?_dropFrame_self _ _,
    (SameChecks.of_leaves discarded (fun _ => id) (by simp)).releaseCells (discarded.part (k := .pool) (by simp)) relRef f.owner f.cells⟩

end

end Sys2Proof.Machine
end

/-! ### The last byte of a frame crosses an Ethernet port's MAC (R212, R240) -/

section
namespace Sys2Proof.Machine

section
variable {s : State} {p : Nat}

/-- The two counters of a port that R57 gives every frame sent. -/
theorem State.ctr_countTx (bs : List Byte) (n : Nat) :
    (s.countTx p bs n).ctr (Ctr.port p 0x108) = (s.ctr (Ctr.port p 0x108) + 1) % 2 ^ 64 ∧
    (s.countTx p bs n).ctr (Ctr.port p 0x100) = (s.ctr (Ctr.port p 0x100) + n) % 2 ^ 64 := by
  have size (o : Nat) (ho : o < 0x110) : Ctr.port p o ≠ Ctr.port p (0x138 + 8 * sizeBin bs.length) := by simp only [Ctr.port]; omega
  have cast (o : Nat) (ho : o < 0x110) : Ctr.port p o ≠ Ctr.port p (0x110 + 8 * castOf bs) := by simp only [Ctr.port]; omega
  constructor
  · rw [State.countTx, State.ctr_count_ne _ _ _ _ (size _ (by decide)), State.ctr_count_ne _ _ _ _ (cast _ (by decide)), State.ctr_count_self,
      State.ctr_count_ne _ _ _ _ (by simp)]
  · rw [State.countTx, State.ctr_count_ne _ _ _ _ (size _ (by decide)), State.ctr_count_ne _ _ _ _ (cast _ (by decide)),
      State.ctr_count_ne _ _ _ _ (by simp), State.ctr_count_self]

theorem State.leaves_countTx (bs : List Byte) (n : Nat) : s.leaves (s.countTx p bs n) { ctrs := fun _ => True } :=
  State.leaves_trans (State.leaves_trans (State.leaves_trans (State.leaves_count _ _ _ _ trivial) (State.leaves_count _ _ _ _ trivial))
    (State.leaves_count _ _ _ _ trivial)) (State.leaves_count _ _ _ _ trivial)

theorem State.leaves_ptpEdit (t : TxSt) (f : Frame) : s.leaves (s.ptpEdit p t f).2 { ctrs := (· ∈ [Ctr.port p 0x3D8, Ctr.port p 0x3E0]) } := by
  rcases State.ptpEdit_counts p s t f with e | e | e <;> rw [e]
  · exact State.leaves_refl s _
  · exact State.leaves_count s _ _ _ (by simp)
  · exact State.leaves_count s _ _ _ (by simp)

/-- Without the near-end loopback a transmitter's bytes leave the port's state alone. -/
theorem State.leaves_toLine (bs : List Byte) (cut : Bool) (e : OutEv) (h : s.fld (Fld.PT_CTRL_LOOPBACK p) ≠ 1) :
    s.leaves (s.toLine p bs cut e) { parts := [.out] } := by
  unfold State.toLine
  rw [if_neg h]
  exact State.leaves_part s _ .out _ (by simp) (fun j hj => by cases j <;> simp_all [Part.same]) rfl rfl rfl rfl rfl

end

/-! #### A frame leaves its egress queue's length -/

section
variable (s : State) (x : QEnt)

/-- The descriptor has left the length of its queue, and with a copy its record; its port's queues are noted as empty since now, if they are. -/
def State.leftQueue : State :=
  let s1 := s.lenOut x.eq (s.ncells x.fid)
  let s2 := if x.copy then { s1 with fab := { s1.fab with mcUsed := s1.fab.mcUsed - 1 } } else s1
  if x.port < 144 then s2.setPort x.port { s2.port x.port with emptyAt := s2.now } else s2

theorem State.leaveEgress_eq : s.leaveEgress x = (s.leftQueue x).decRef x.fid := rfl

theorem State.leaves_leftQueue : s.leaves (s.leftQueue x) { parts := [.fab], ports := [x.port] } := by
  delta State.leftQueue
  extract_lets s1 _ s2
  have short : s.leaves s1 { parts := [.fab], ports := [x.port] } := State.leaves_lenOut s _ _ _ (by simp)
  have copied : s.leaves s2 { parts := [.fab], ports := [x.port] } :=
    State.leaves_ite _ (fun _ => State.leaves_trans short (State.leaves_fab s1 _ _ (by simp))) (fun _ => short)
  exact State.leaves_ite _ (fun _ => State.leaves_trans copied (State.leaves_setPort s2 _ _ _ (by simp))) (fun _ => copied)

theorem State.frames_leftQueue : (s.leftQueue x).fab.frames = s.fab.frames := by
  unfold State.leftQueue
  dsimp only
  split_ifs <;> rfl

/-- The ports keep all but the time since which the queues of the frame's own port are empty. -/
theorem State.port_leftQueue (k : Nat) : ∃ n, (s.leftQueue x).port k = { s.port k with emptyAt := n } := by
  delta State.leftQueue
  extract_lets s1 _ s2
  have same (j : Nat) : s2.port j = s.port j := by
    unfold s2
    split <;> rfl
  split
  · by_cases h : k = x.port
    · subst h
      exact ⟨s2.now, (State.port_setPort_self s2 _ _).trans (congrArg (fun y : Port => { y with emptyAt := s2.now }) (same x.port))⟩
    · exact ⟨(s.port k).emptyAt, by rw [State.port_setPort_ne _ _ _ _ h, same]⟩
  · exact ⟨(s.port k).emptyAt, same k⟩

end

/-! #### A frame that has been sent whole -/

/-- A frame has been sent by a port: it is counted, its job may have ended, and its reference is gone, the last one with its descriptor and its cells. -/
structure State.Sent (s t : State) (p : Nat) (x : QEnt) (f : Frame) : Prop where
  timeReq : t.timeReq = s.timeReq
  port : ∀ k, ∃ n, t.port k = { s.port k with emptyAt := n }
  others : ∀ k, k ≠ x.port → t.port k = s.port k
  frames : t.ctr (Ctr.port p 0x108) = (s.ctr (Ctr.port p 0x108) + 1) % 2 ^ 64
  bytes : t.ctr (Ctr.port p 0x100) = (s.ctr (Ctr.port p 0x100) + x.data.length) % 2 ^ 64
  shared : 1 < f.ref → t.frame? x.fid = some { f with ref := f.ref - 1 } ∧ t.pool = s.pool
  last : f.ref ≤ 1 → t.frame? x.fid = none ∧ t.pool = (s.releaseCells relRef f.owner f.cells).pool

section
variable {s : State} {p : Nat}

/-- The frame is counted, and its host job completes with the timestamp if it waits for it (R384). -/
def State.sentCounted (s : State) (p : Nat) (t : TxSt) (f : Frame) : State :=
  let s1 := s.countTx p t.ent.data t.ent.data.length
  match f.host with
  | some h => if h.tsReq ∧ t.ent.mirror.isNone then s1.jobEnd h.ring h.job stOk (ts64 t.stamp % 2 ^ 32) (ts64 t.stamp / 2 ^ 32) else s1
  | none => s1

@[simp] theorem State.pool_pgUse (g : Nat) : (s.pgUse g).pool = s.pool := by unfold State.pgUse; split <;> rfl

theorem State.txDone_eq (t : TxSt) (f : Frame) : s.txDone p t f = (((s.sentCounted p t f).leftQueue t.ent).decRef t.ent.fid).pgUse (groupOf p) := by
  rw [← State.leaveEgress_eq]
  rfl

theorem State.leaves_sentCounted (t : TxSt) (f : Frame) :
    (s.countTx p t.ent.data t.ent.data.length).leaves (s.sentCounted p t f) { parts := [.hi], rings := f.rings } := by
  unfold State.sentCounted
  split
  · next h hh => exact State.leaves_ite _ (fun _ => State.leaves_jobEnd _ _ _ _ _ _ _ (by simp) (by simp [Frame.rings, hh])) (fun _ => State.leaves_refl _ _)
  · exact State.leaves_refl _ _

theorem State.txDone_sent {t : TxSt} {f : Frame} (hp : p < 144) (hf : s.frame? t.ent.fid = some f) : s.Sent (s.txDone p t f) p t.ent f := by
  let u := (s.sentCounted p t f).leftQueue t.ent
  have counted := State.leaves_countTx (s := s) (p := p) t.ent.data t.ent.data.length
  have ended := State.leaves_sentCounted (s := s) (p := p) t f
  have left := State.leaves_leftQueue (s.sentCounted p t f) t.ent
  have frame : u.frame? t.ent.fid = some f := by
    rw [State.frame?, State.frames_leftQueue, show (s.sentCounted p t f).fab = _ from ended.part (k := .fab) (by simp),
      show (s.countTx p t.ent.data t.ent.data.length).fab = _ from counted.part (k := .fab) (by simp)]
    exact hf
  have gone : u.leaves (s.txDone p t f) { parts := [.pool, .fab, .hi, .pw], rings := f.rings } := by
    rw [State.txDone_eq]
    refine State.leaves_trans (State.leaves_decRef u _ _ (by simp) (by simp) (fun y k hy hk _ => ?_))
      (State.leaves_ite _ (fun _ => State.leaves_pw _ _ _ (by simp)) (fun _ => State.leaves_refl _ _))
    obtain rfl : f = y := Option.some.inj (frame.symm.trans hy)
    exact ⟨by simp, by simp [Frame.rings, hk]⟩
  have ports (k : Nat) : (s.sentCounted p t f).port k = s.port k := (ended.port (by simp)).trans (counted.port (by simp))
  have after {o : Nat} (ho : o < 0x400) : (s.txDone p t f).ctr (Ctr.port p o) = (s.countTx p t.ent.data t.ent.data.length).ctr (Ctr.port p o) :=
    (gone.ctr hp ho id).trans ((left.ctr hp ho id).trans (ended.ctr hp ho id))
  have whole : s.leaves u { parts := [.hi, .fab], ctrs := fun _ => True, ports := [t.ent.port], rings := f.rings } :=
    State.leaves_trans (State.leaves_trans (counted.mono (by simp) (fun _ h => h) (fun _ h => h) (by simp) (by simp))
      (ended.mono (by simp) (fun _ h => h) (fun _ h => h.elim) (by simp) (by simp)))
      (left.mono (by simp) (fun _ h => h) (fun _ h => h.elim) (by simp) (by simp))
  have pool : u.pool = s.pool := whole.part (k := .pool) (by simp)
  have kept : (s.txDone p t f).pool = (u.decRef t.ent.fid).pool := by
    rw [State.txDone_eq, State.pool_pgUse]
  have shown : (s.txDone p t f).frame? t.ent.fid = (u.decRef t.ent.fid).frame? t.ent.fid := by
    rw [State.txDone_eq, State.frame?, State.fab_pgUse]
    rfl
  obtain ⟨frames, bytes⟩ := State.ctr_countTx (s := s) (p := p) t.ent.data t.ent.data.length
  refine ⟨gone.2.trans whole.2, fun k => ?_, fun k hk => ?_, (after (by decide)).trans frames, (after (by decide)).trans bytes, fun h => ?_, fun h => ?_⟩
  · obtain ⟨n, hn⟩ := State.port_leftQueue (s.sentCounted p t f) t.ent k
    exact ⟨n, by rw [gone.port (by simp), hn, ports]⟩
  · rw [gone.port (by simp), left.port (by simpa using hk), ports]
  · obtain ⟨less, same⟩ := State.decRef_shared frame h
    exact ⟨shown.trans less, kept.trans (same.trans pool)⟩
  · obtain ⟨none_, freed⟩ := State.decRef_last frame h
    exact ⟨shown.trans none_, kept.trans (freed.trans ((SameChecks.of_leaves whole (fun _ => id) (by simp)).releaseCells pool relRef f.owner f.cells))⟩

/-- What a transmitter does before a frame is counted: its bytes leave, and a PTP edit has been counted. -/
def outTouch (p : Nat) : Touch := { parts := [.out], ctrs := (· ∈ [Ctr.port p 0x3D8, Ctr.port p 0x3E0]) }

theorem State.Sent.after_line {u t : State} {x : QEnt} {f : Frame} (hp : p < 144) (h : u.Sent t p x f) (l : s.leaves u (outTouch p)) : s.Sent t p x f := by
  have ports (k : Nat) : u.port k = s.port k := l.port (by simp [outTouch])
  have pool : u.pool = s.pool := l.part (k := .pool) (by simp [outTouch])
  have cells := (SameChecks.of_leaves l (fun _ => id) (by simp [outTouch])).releaseCells pool relRef f.owner f.cells
  refine ⟨h.timeReq.trans l.2, fun k => ports k ▸ h.port k, fun k hk => (h.others k hk).trans (ports k), ?_, ?_, fun hr => ?_, fun hr => ?_⟩
  · rw [h.frames, l.ctr hp (by decide) (by simp [outTouch])]
  · rw [h.bytes, l.ctr hp (by decide) (by simp [outTouch])]
  · exact ⟨(h.shared hr).1, (h.shared hr).2.trans pool⟩
  · exact ⟨(h.last hr).1, (h.last hr).2.trans cells⟩

/-- The end of a transmission over an Ethernet port that loops nothing back to itself. -/
theorem State.txEnd_sent {x : TxSt} {f : Frame} (hp : p < 144) (hx : (s.port p).tx = some x) (hph : x.phase = .sending)
    (hd : x.since + s.lineTime p x.ent.data.length ≤ s.now) (hf : s.frame? x.ent.fid = some f) (hl : s.fld (Fld.PT_CTRL_LOOPBACK p) ≠ 1) :
    (s.setPort p { s.port p with tx := none }).Sent (s.txEnd p) p x.ent f := by
  let s0 := s.setPort p { s.port p with tx := none }
  let e := s0.ptpEdit p x f
  let u := e.2.toLine p e.1 false (.frame p e.1 false)
  have done : s.txEnd p = u.txDone p x f := by
    unfold State.txEnd
    rw [hx]
    dsimp only
    rw [if_pos ⟨hph, hd⟩, show s0.frame? x.ent.fid = some f from hf]
  have edited := State.leaves_ptpEdit (s := s0) (p := p) x f
  have line := State.leaves_toLine (s := e.2) (p := p) e.1 false (.frame p e.1 false) (by rw [edited.fld id]; exact hl)
  have out : s0.leaves u (outTouch p) := State.leaves_trans (edited.mono (by simp) (fun _ h => h) (fun _ h => h) (by simp) (by simp))
    (line.mono (by simp [outTouch]) (fun _ h => h) (fun _ h => h.elim) (by simp) (by simp))
  have frame : u.frame? x.ent.fid = some f := by
    rw [State.frame?, show u.fab = s0.fab from out.part (k := .fab) (by simp [outTouch])]
    exact hf
  rw [done]
  exact (State.txDone_sent hp frame).after_line hp out

end

/-- TX_LAST_BYTE of an Ethernet port that loops nothing back to itself. -/
theorem txLastByte_sent {s : State} {dt p : Nat} {x : TxSt} {f : Frame} (hp : p < 144) (hm : s.mainUp = true) (hx : (s.port p).tx = some x)
    (hph : x.phase = .sending) (hd : x.since + s.lineTime p x.ent.data.length ≤ s.now + dt) (hn : (s.port p).modeDue = none)
    (hf : s.frame? x.ent.fid = some f) (hc : s.crfOn p = false) (hl : s.fld (Fld.PT_CTRL_LOOPBACK p) ≠ 1) (hlp : (s.port p).loop = []) :
    ∃ t, exec (.txLastByte dt p) s = .next t ∧ (t.port p).tx = none ∧
      t.ctr (Ctr.port p 0x108) = (s.ctr (Ctr.port p 0x108) + 1) % 2 ^ 64 ∧
      t.ctr (Ctr.port p 0x100) = (s.ctr (Ctr.port p 0x100) + x.ent.data.length) % 2 ^ 64 ∧
      (1 < f.ref → t.frame? x.ent.fid = some { f with ref := f.ref - 1 } ∧ t.pool = (s.begun dt).pool) ∧
      (f.ref ≤ 1 → t.frame? x.ent.fid = none ∧ t.pool = ((s.begun dt).releaseCells relRef f.owner f.cells).pool) ∧
      (∀ p', p' ≠ p → p' ≠ x.ent.port → t.port p' = s.port p') := by
  let b := s.begun dt
  have sent : (b.setPort p { b.port p with tx := none }).Sent (b.txEnd p) p x.ent f :=
    State.txEnd_sent hp (by simpa [b] using hx) hph (by simpa [b] using hd) (by simpa [b] using hf) (by simpa [b] using hl)
  obtain ⟨n, port⟩ := sent.port p
  rw [State.port_setPort_self] at port
  have act : (((b.txLast p).modeNext p).loopFeed p) = b.txEnd p := by
    have last : b.txLast p = b.txEnd p := if_neg (by simp [b, hc])
    rw [last, State.modeNext_none (by rw [port]; simpa [b] using hn)]
    exact if_pos (by rw [port]; simpa [b] using hlp)
  refine ⟨_, exec_main (c := .txLastByte dt p) rfl (decide_eq_true hp) hm act (sent.timeReq.trans (State.begun_timeReq s dt)), by rw [State.port_settle, port],
    ?_, ?_, fun h => ?_, fun h => ?_, fun k hk hx => ?_⟩
  · rw [State.ctr_settle_port _ _ _ hp (by decide), sent.frames, State.ctr_setPort, State.ctr_begun]
  · rw [State.ctr_settle_port _ _ _ hp (by decide), sent.bytes, State.ctr_setPort, State.ctr_begun]
  · obtain ⟨frame, pool⟩ := sent.shared h
    exact ⟨by rw [State.frame?_settle, frame], by rw [State.settle_pool, pool]; rfl⟩
  · obtain ⟨frame, pool⟩ := sent.last h
    have same := (SameChecks.of_leaves (State.leaves_setPort b p { b.port p with tx := none } { ports := [p] } (by simp)) (fun _ => id) (by simp)).releaseCells
      rfl relRef f.owner f.cells
    exact ⟨by rw [State.frame?_settle, frame], by rw [State.settle_pool, pool, same]⟩
  · rw [State.port_settle, sent.others k hx, State.port_setPort_ne _ _ _ _ hk, State.port_begun]

/-- Settles O7: the walk's leaf gives its head to the transmitter, and the last byte ends the transmission with the frame's reference. -/
theorem transmission : Obligations.Transmission := by
  refine ⟨?_, ?_⟩
  · intro s dt p q pl x r hp hm down enabled idle aside due present room may walk queue held
    exact selectFrame_takes hp hm down enabled idle aside due present room may walk queue held
  · intro s dt p x f hp hm tx sending passed due frame crf loopback loop
    exact txLastByte_sent hp hm tx sending passed due frame crf loopback loop

end Sys2Proof.Machine
end

/-! ### A queue's head is discarded (R239, R277, R316, R320) -/

section
namespace Sys2Proof.Machine

/-- A counter of one of the 144 ports lies below those of the queues. -/
theorem portCtr_ne_queue {p o : Nat} (hp : p < 144) (ho : o < 0x400) (q k : Nat) : Ctr.port p o ≠ Ctr.queue q k := by
  simp only [Ctr.port, Ctr.queue]; omega

section
variable (s : State)

/-! #### What is left of the queues -/

theorem State.queue_freeFrame (f q : Nat) : (s.freeFrame f).queue q = s.queue q := by
  cases h : s.frame? f with
  | none => simp [State.freeFrame, h]
  | some x => rw [(State.sameHeld_freeFrame s f x h).queue, State.queue_dropFrame]

theorem State.queue_hostDiscard (x : Frame) (q : Nat) : (s.hostDiscard x).queue q = s.queue q := State.queue_congr State.fab_hostDiscard q

theorem State.queue_decRef (f q : Nat) : (s.decRef f).queue q = s.queue q := by
  unfold State.decRef
  split
  · rfl
  · split
    · rw [State.lastRef, State.queue_freeFrame, State.queue_hostDiscard]
    · rfl

theorem State.queue_leftQueue (x : QEnt) (q : Nat) : (s.leftQueue x).queue q = s.queue q := by
  unfold State.leftQueue
  dsimp only
  split_ifs <;> rfl

/-- A discarded descriptor has left its list before; the discard takes its length, its job and its reference. -/
theorem State.queue_discard (x : QEnt) (q : Nat) : (s.discard x).queue q = s.queue q := by
  have left (t : State) : (t.leaveEgress x).queue q = t.queue q := by rw [State.leaveEgress_eq, State.queue_decRef, State.queue_leftQueue]
  unfold State.discard
  split
  · exact left s
  · rw [left]
    split
    · rfl
    · exact State.queue_hostDiscard s _ q

/-! #### What a discard touches -/

/-- The rings whose jobs the end of a queued frame may end. -/
def State.ringsOf (f : Nat) : List Nat := ((s.frame? f).map Frame.rings).getD []

theorem State.leaves_leaveEgress (x : QEnt) :
    s.leaves (s.leaveEgress x) { parts := [.pool, .fab, .hi], ports := [x.port], rings := s.ringsOf x.fid } := by
  have frame : (s.leftQueue x).frame? x.fid = s.frame? x.fid := by rw [State.frame?, State.frames_leftQueue, State.frame?]
  rw [State.leaveEgress_eq]
  refine State.leaves_trans ((State.leaves_leftQueue s x).mono (by simp) (fun _ h => h) (fun _ h => h) (by simp) (by simp))
    (State.leaves_decRef _ _ _ (by simp) (by simp) (fun y k hy hk _ => ⟨by simp, ?_⟩))
  simp [State.ringsOf, ← frame, hy, Frame.rings, hk]

theorem State.leaves_discard (x : QEnt) :
    s.leaves (s.discard x) { parts := [.pool, .fab, .hi], ports := [x.port], rings := s.ringsOf x.fid } := by
  unfold State.discard
  split
  · exact State.leaves_leaveEgress s x
  · next f hf =>
    split
    · exact State.leaves_leaveEgress s x
    · have rings : (s.hostDiscard f).ringsOf x.fid = s.ringsOf x.fid := by rw [State.ringsOf, State.frame?, State.fab_hostDiscard]; rfl
      refine State.leaves_trans ?_ (rings ▸ State.leaves_leaveEgress (s.hostDiscard f) x)
      exact State.leaves_hostDiscard_rings.mono (by simp) (fun _ h => h) (fun _ h => h) (by simp) (by simp [State.ringsOf, hf])

/-! #### Several counters -/

/-- Counters count on, one after another. -/
def State.countAll (cs : List (Nat × Nat)) : State := cs.foldl (fun s c => s.count c.1 c.2) s

variable {s}

/-- What a counter reads then depends on nothing but what it read. -/
theorem State.ctr_countAll_congr {t : State} {a : Nat} (h : t.ctr a = s.ctr a) (cs : List (Nat × Nat)) : (t.countAll cs).ctr a = (s.countAll cs).ctr a := by
  induction cs generalizing s t with
  | nil => exact h
  | cons c cs ih =>
    refine ih ?_
    by_cases e : a = c.1
    · subst e; rw [State.ctr_count_self, State.ctr_count_self, h]
    · rw [State.ctr_count_ne _ _ _ _ e, State.ctr_count_ne _ _ _ _ e, h]

theorem State.leaves_countAll (cs : List (Nat × Nat)) : s.leaves (s.countAll cs) { ctrs := fun _ => True } :=
  State.leaves_foldl _ _ cs (fun s c _ => State.leaves_count s c.1 c.2 _ trivial) s

end

/-! #### The head -/

/-- The head of a queue is gone, with what has been counted for it; the other queues are as they were. -/
structure State.HeadGone (s t : State) (q : Nat) (r : List QEnt) (cs : List (Nat × Nat)) : Prop where
  rest : t.queue q = r
  others : ∀ k, k ≠ q → t.queue k = s.queue k
  ctr : ∀ p o, p < 144 → o < 0x400 → t.ctr (Ctr.port p o) = (s.countAll cs).ctr (Ctr.port p o)
  timeReq : t.timeReq = s.timeReq
  pl : t.pl = s.pl

theorem State.dropHead_cons {s : State} {q : Nat} {x : QEnt} {r : List QEnt} (hq : s.queue q = x :: r) (cs : List (Nat × Nat)) :
    s.dropHead q cs = (((s.setQueue q r).countDrop q x.data.length).countAll cs).discard x := by
  unfold State.dropHead
  rw [hq]
  rfl

theorem State.dropHead_gone {s : State} {q : Nat} {x : QEnt} {r : List QEnt} (hq : s.queue q = x :: r) (cs : List (Nat × Nat)) :
    s.HeadGone (s.dropHead q cs) q r cs := by
  let u := (s.setQueue q r).countDrop q x.data.length
  have taken : s.leaves u { parts := [.fab], ctrs := fun _ => True } :=
    State.leaves_trans (State.leaves_setQueue s q r _ (by simp)) (State.leaves_countDrop _ _ _ _ trivial trivial)
  have counted := State.leaves_countAll (s := u) cs
  have gone := State.leaves_discard (u.countAll cs) x
  have queue (k : Nat) : (s.dropHead q cs).queue k = (s.setQueue q r).queue k := by
    rw [State.dropHead_cons hq, State.queue_discard]
    exact State.queue_congr (counted.part (k := .fab) (by simp)) k
  refine ⟨by rw [queue, State.queue_setQueue_self], fun k hk => by rw [queue, State.queue_setQueue_ne _ _ _ _ hk], fun p o hp ho => ?_, ?_, ?_⟩
  · have queued : u.ctr (Ctr.port p o) = s.ctr (Ctr.port p o) := by
      show (((s.setQueue q r).count _ _).count _ _).ctr _ = _
      rw [State.ctr_count_ne _ _ _ _ (portCtr_ne_queue hp ho _ _), State.ctr_count_ne _ _ _ _ (portCtr_ne_queue hp ho _ _)]
      rfl
    rw [State.dropHead_cons hq, gone.ctr hp ho id]
    exact State.ctr_countAll_congr queued cs
  · rw [State.dropHead_cons hq]
    exact gone.2.trans (counted.2.trans taken.2)
  · rw [State.dropHead_cons hq]
    exact (gone.part (k := .pl) (by simp)).trans ((counted.part (k := .pl) (by simp)).trans (taken.part (k := .pl) (by simp)))

end Sys2Proof.Machine
end

/-! ### The hold of a port runs out, and heads go (R238, R239, R277, R316, R320) -/

section
namespace Sys2Proof.Machine

/-- A map whose values have each been changed. -/
theorem SMap.look_map {α β : Type} (f : α → β) (m : SMap α) (k : Nat) :
    SMap.look (m.map (fun e => (e.1, f e.2))) k = (SMap.look m k).map f := by
  induction m with
  | nil => rfl
  | cons e m ih => by_cases h : e.1 = k <;> simp [SMap.look, h, ih]

/-- A descriptor after its frame is doomed for a port. -/
def QEnt.doomedFor (p : Nat) (x : QEnt) : QEnt := if x.port = p ∧ x.left = [] then { x with doomed := true } else x

theorem QEnt.doomed_doomedFor {p : Nat} {x : QEnt} (hp : (x.doomedFor p).port = p) (hl : (x.doomedFor p).left = []) : (x.doomedFor p).doomed = true := by
  unfold QEnt.doomedFor at *
  split at hp
  · next h => rw [if_pos h]
  · next h => rw [if_neg h] at hl; exact absurd ⟨hp, hl⟩ h

theorem State.queue_doomPort (s : State) (p q : Nat) : (s.doomPort p).queue q = (s.queue q).map (QEnt.doomedFor p) := by
  have look : SMap.look (s.doomPort p).fab.queues q = (SMap.look s.fab.queues q).map (List.map (QEnt.doomedFor p)) :=
    SMap.look_map (List.map (QEnt.doomedFor p)) s.fab.queues q
  rw [State.queue, State.queue, SMap.get, SMap.get, look]
  cases SMap.look s.fab.queues q <;> rfl

theorem State.leaves_doomPort (s : State) (p : Nat) (x : Touch) (h : .fab ∈ x.parts) : s.leaves (s.doomPort p) x := State.leaves_fab s _ x h

/-- HOLD_EXPIRE in a cycle after the one in which the hold ends. -/
theorem holdExpire_due (s : State) (dt p : Nat) (hp : p < 144) (hm : s.mainUp = true) (hh : (s.port p).hold = holdHold) (hd : s.portDown p = true)
    (he : s.holdEnd p / 60 < (s.begun dt).cyc24) :
    ∃ t, exec (.holdExpire dt p) s = .next t ∧ (t.port p).hold = holdFlush ∧
      (∀ q x, x ∈ t.queue q → x.port = p → x.left = [] → x.doomed = true) ∧
      (s.begun dt).frame t { parts := [.fab], ports := [p] } := by
  let u := (s.begun dt).setPort p { (s.begun dt).port p with hold := holdFlush, holdAt := (s.begun dt).now }
  have end_ : (s.begun dt).holdEnd p = s.holdEnd p := by simp [State.holdEnd, State.holdMs]
  have act : (s.begun dt).holdExpire p = u.doomPort p := if_pos ⟨by simpa using hh, by simpa using hd, by rw [end_]; exact he⟩
  obtain ⟨next, frame⟩ := exec_main_touches (c := .holdExpire dt p) (x := { parts := [.fab], ports := [p] }) rfl (decide_eq_true hp) hm act
    (State.leaves_trans (State.leaves_setPort _ p _ _ (by simp)) (State.leaves_doomPort u p _ (by simp)))
  refine ⟨_, next, ?_, fun q x hx hport hleft => ?_, frame⟩
  · rw [State.port_settle]
    exact congrArg Port.hold (State.port_setPort_self (s.begun dt) p _)
  · rw [State.queue_settle, State.queue_doomPort] at hx
    obtain ⟨y, -, rfl⟩ := List.mem_map.mp hx
    exact QEnt.doomed_doomedFor hport hleft

section
variable (s : State) (dt q : Nat) (x : QEnt) (r : List QEnt) (hw : isQueue q = true) (hm : s.mainUp = true) (hq : s.queue q = x :: r)
  (he : isEgress q = true)
include hw hm hq he

/-- DOOMED_DISCARD where the port has discarded none in this cycle. -/
theorem doomedDiscard_first (hd : x.doomed = true) (hp : x.port < 144) (hy : (s.begun dt).mayDrop x.port = true) :
    ∃ t, exec (.doomedDiscard dt q) s = .next t ∧ t.queue q = r ∧
      t.ctr (Ctr.port x.port 0x3B0) = (s.ctr (Ctr.port x.port 0x3B0) + 1) % 2 ^ 64 ∧
      t.ctr (Ctr.port x.port 0x3B8) = (s.ctr (Ctr.port x.port 0x3B8) + x.data.length) % 2 ^ 64 ∧
      (t.begun 0).mayDrop x.port = false ∧ (∀ q', q' ≠ q → t.queue q' = s.queue q') := by
  let u := (s.begun dt).noteDrop x.port
  have head : (s.begun dt).queue q = x :: r := by rw [State.queue_begun, hq]
  have act : (s.begun dt).doomedDiscard q = u.dropHead q [(Ctr.port x.port 0x3B0, 1), (Ctr.port x.port 0x3B8, x.data.length)] := by
    unfold State.doomedDiscard
    rw [head]
    exact if_pos ⟨he, hd, hy⟩
  have gone := State.dropHead_gone (s := u) head [(Ctr.port x.port 0x3B0, 1), (Ctr.port x.port 0x3B8, x.data.length)]
  refine ⟨_, exec_main (c := .doomedDiscard dt q) rfl hw hm act (gone.timeReq.trans (State.begun_timeReq s dt)), by rw [State.queue_settle, gone.rest],
    ?_, ?_, ?_, fun k hk => ?_⟩
  · rw [State.ctr_settle_port _ _ _ hp (by decide), gone.ctr _ _ hp (by decide)]
    show ((u.count _ _).count _ _).ctr _ = _
    rw [State.ctr_count_ne _ _ _ _ (by simp), State.ctr_count_self]
    exact congrArg (fun n => (n + 1) % 2 ^ 64) (State.ctr_begun s dt _)
  · rw [State.ctr_settle_port _ _ _ hp (by decide), gone.ctr _ _ hp (by decide)]
    show ((u.count _ _).count _ _).ctr _ = _
    rw [State.ctr_count_self, State.ctr_count_ne _ _ _ _ (by simp)]
    exact congrArg (fun n => (n + x.data.length) % 2 ^ 64) (State.ctr_begun s dt _)
  · have noted : SMap.look u.pl.dropPort x.port = some (s.begun dt).cyc24 := SMap.look_ins_self _ _ _
    simp [State.mayDrop, gone.pl, noted, State.cyc24, gone.timeReq, State.now, Time.advance, u]
  · rw [State.queue_settle, gone.others k hk]
    exact State.queue_begun s dt k

omit he in
/-- DOOMED_DISCARD where the port has discarded a head in this cycle. -/
theorem doomedDiscard_second (hy : (s.begun dt).mayDrop x.port = false) :
    ∃ t, exec (.doomedDiscard dt q) s = .next t ∧ (s.begun dt).frame t {} := by
  have act : (s.begun dt).doomedDiscard q = s.begun dt := by
    unfold State.doomedDiscard
    rw [State.queue_begun, hq]
    exact if_neg (by simp [hy])
  exact ⟨_, exec_main_touches (c := .doomedDiscard dt q) rfl hw hm act (State.leaves_refl _ _)⟩

omit hw he in
/-- A command that discards a queue's head and counts it in one counter of its port. -/
theorem headDiscard_counts {c : Instr} {f : State → State} {o : Nat} (hc : exec c s = s.cmdMain c.wellFormed dt f) (hwf : c.wellFormed = true)
    (hp : x.port < 144) (ho : o < 0x400) (act : f (s.begun dt) = (s.begun dt).dropHead q [(Ctr.port x.port o, 1)]) :
    ∃ t, exec c s = .next t ∧ t.queue q = r ∧ t.ctr (Ctr.port x.port o) = (s.ctr (Ctr.port x.port o) + 1) % 2 ^ 64 ∧
      (∀ q', q' ≠ q → t.queue q' = s.queue q') := by
  have gone := State.dropHead_gone (s := s.begun dt) (by rw [State.queue_begun, hq]) [(Ctr.port x.port o, 1)]
  refine ⟨_, exec_main hc hwf hm act (gone.timeReq.trans (State.begun_timeReq s dt)), by rw [State.queue_settle, gone.rest], ?_, fun k hk => ?_⟩
  · rw [State.ctr_settle_port _ _ _ hp ho, gone.ctr _ _ hp ho]
    exact (State.ctr_count_self _ _ _).trans (by rw [State.ctr_begun])
  · rw [State.queue_settle, gone.others k hk, State.queue_begun]

/-- LAUNCH_FAR of a head whose launch time lies beyond MAX_S. -/
theorem launchFar_goes (hd : x.doomed = false) (hp : x.port < 144) (hf : (s.begun dt).launchFar x = true) :
    ∃ t, exec (.launchFar dt q) s = .next t ∧ t.queue q = r ∧
      t.ctr (Ctr.port x.port 0x3C8) = (s.ctr (Ctr.port x.port 0x3C8) + 1) % 2 ^ 64 ∧ (∀ q', q' ≠ q → t.queue q' = s.queue q') := by
  refine headDiscard_counts s dt q x r hm hq (c := .launchFar dt q) rfl hw hp (by decide) ?_
  show (s.begun dt).launchFarDiscard q = _
  unfold State.launchFarDiscard
  rw [State.queue_begun, hq]
  exact if_pos ⟨he, hd, hf⟩

/-- GATE_OVERSIZE of a head too long for every window of its gate. -/
theorem gateOversize_goes (hd : x.doomed = false) (hp : x.port < 144) (hg : (s.begun dt).gateTooLong q x = true) :
    ∃ t, exec (.gateOversize dt q) s = .next t ∧ t.queue q = r ∧
      t.ctr (Ctr.port x.port 0x3D0) = (s.ctr (Ctr.port x.port 0x3D0) + 1) % 2 ^ 64 ∧ (∀ q', q' ≠ q → t.queue q' = s.queue q') := by
  refine headDiscard_counts s dt q x r hm hq (c := .gateOversize dt q) rfl hw hp (by decide) ?_
  show (s.begun dt).gateDiscard q = _
  unfold State.gateDiscard
  rw [State.queue_begun, hq]
  exact if_pos ⟨he, hd, hg⟩

end

/-- Settles O6: the hold dooms what is queued for the port, and each discard takes its queue's head with its counters. -/
theorem headsDiscarded : Obligations.HeadsDiscarded :=
  ⟨holdExpire_due, doomedDiscard_first, fun s dt q x r hw hm hq _ _ => doomedDiscard_second s dt q x r hw hm hq, launchFar_goes, gateOversize_goes⟩

end Sys2Proof.Machine
end

/-! ### The fabric's state word and its moves (R228, R229) -/

section
namespace Sys2Proof.Machine

/-! #### The fabric as a command finds it, and leaves it -/

section
variable (s : State) (dt : Nat)

/-- A new CD23 cycle samples the queues' lengths, and nothing else of the fabric (R203). -/
theorem State.fab_begun : ∃ l o, (s.begun dt).fab = { s.fab with snapLen := l, snapOwn := o } := by
  simp only [State.begun, State.newCycle]
  split
  · exact ⟨_, _, rfl⟩
  · exact ⟨_, _, rfl⟩

@[simp] theorem State.fence_begun : (s.begun dt).fab.fence = s.fab.fence := by obtain ⟨l, o, h⟩ := s.fab_begun dt; rw [h]
@[simp] theorem State.calAt_begun : (s.begun dt).fab.calAt = s.fab.calAt := by obtain ⟨l, o, h⟩ := s.fab_begun dt; rw [h]
@[simp] theorem State.testBank_begun : (s.begun dt).fab.testBank = s.fab.testBank := by obtain ⟨l, o, h⟩ := s.fab_begun dt; rw [h]
@[simp] theorem State.memMask_begun : (s.begun dt).fab.memMask = s.fab.memMask := by obtain ⟨l, o, h⟩ := s.fab_begun dt; rw [h]
@[simp] theorem State.memNew_begun : (s.begun dt).fab.memNew = s.fab.memNew := by obtain ⟨l, o, h⟩ := s.fab_begun dt; rw [h]
@[simp] theorem State.fabNew_begun : (s.begun dt).fab.fabNew = s.fab.fabNew := by obtain ⟨l, o, h⟩ := s.fab_begun dt; rw [h]
@[simp] theorem State.intake_begun : (s.begun dt).fab.intake = s.fab.intake := by obtain ⟨l, o, h⟩ := s.fab_begun dt; rw [h]
@[simp] theorem State.everVoq_begun : (s.begun dt).fab.everVoq = s.fab.everVoq := by obtain ⟨l, o, h⟩ := s.fab_begun dt; rw [h]

@[simp] theorem State.reasons_begun : (s.begun dt).reasons = s.reasons := State.fld_begun s dt _
@[simp] theorem State.stage_begun : (s.begun dt).stage = s.stage := State.fld_begun s dt _
@[simp] theorem State.fenced_begun (q : Nat) : (s.begun dt).fenced q = s.fenced q := by simp [State.fenced]
@[simp] theorem State.voqsEmpty_begun (q : Nat) : (s.begun dt).voqsEmpty q = s.voqsEmpty q := by simp [State.voqsEmpty]
@[simp] theorem State.listsEmpty_begun (q : Nat) : (s.begun dt).listsEmpty q = s.listsEmpty q := by simp [State.listsEmpty]
@[simp] theorem State.noVoq_begun : (s.begun dt).noVoq = s.noVoq := by simp [State.noVoq]
@[simp] theorem State.noList_begun : (s.begun dt).noList = s.noList := by simp [State.noList]

@[simp] theorem State.reasons_settle (s0 : State) (t : Time) : (s.settle s0 t).reasons = s.reasons := State.fld_settle s s0 t _
@[simp] theorem State.fbState_settle (s0 : State) (t : Time) : (s.settle s0 t).fbState = s.fbState := State.fld_settle s s0 t _
@[simp] theorem State.stage_settle (s0 : State) (t : Time) : (s.settle s0 t).stage = s.stage := State.fld_settle s s0 t _
@[simp] theorem State.fenced_settle (s0 : State) (t : Time) (q : Nat) : (s.settle s0 t).fenced q = s.fenced q := by simp [State.fenced]

end

/-! #### Fields that a write misses -/

/-- Whether a field lies within its word and shares no bit with another: a write of it misses the other. -/
def Fld.misses (f g : Fld) : Bool :=
  decide (f.lo + f.len ≤ 32) && decide (g.addr ≠ f.addr ∨ g.lo + g.len ≤ f.lo ∨ f.lo + f.len ≤ g.lo)

theorem Fld.misses_iff {f g : Fld} : f.misses g = true ↔ f.lo + f.len ≤ 32 ∧ f.apart g := by simp [Fld.misses, Fld.apart]

section
variable (s : State)

theorem State.fld_setF_miss {f g : Fld} (v : Nat) (h : f.misses g = true) : (s.setF f v).fld g = s.fld g := by
  obtain ⟨hf, ha⟩ := Fld.misses_iff.mp h
  exact State.fld_setF_of_apart s v hf ha
theorem State.fld_orF_miss {f g : Fld} (v : Nat) (h : f.misses g = true) : (s.orF f v).fld g = s.fld g := State.fld_setF_miss s _ h
theorem State.fld_raise_miss {f g : Fld} (h : f.misses g = true) : (s.raise f).fld g = s.fld g := State.fld_setF_miss s 1 h

/-- A field reads the value written, where it fits. -/
theorem State.fld_setF_fits {f : Fld} {v : Nat} (h : f.lo + f.len ≤ 32) (hv : v < 2 ^ f.len) : (s.setF f v).fld f = v := by
  rw [State.fld_setF_self s f v h, Nat.mod_eq_of_lt hv]

/-- A field reads its value with the bits set in addition. -/
theorem State.fld_orF_fits {f : Fld} {v : Nat} (h : f.lo + f.len ≤ 32) (hv : v < 2 ^ f.len) : (s.orF f v).fld f = s.fld f ||| v :=
  State.fld_setF_fits s h (Nat.or_lt_two_pow (s.fld_lt f) hv)

@[simp] theorem State.fld_withFab (y : Fab) (f : Fld) : ({ s with fab := y } : State).fld f = s.fld f := rfl

end

/-! #### The moves -/

section
variable (s : State)

/-- Every port is fenced, and the fabric is on its way to the other mode. -/
def State.fencesAll (st : Nat) : State := { s.setFb st with fab := { s.fab with fence := List.range 144 } }

theorem State.leaves_fencesAll (st : Nat) (x : Touch) (h : .fab ∈ x.parts) (g : x.regs Reg.FB_MODE_STATUS) : s.leaves (s.fencesAll st) x :=
  State.leaves_trans (State.leaves_setF s Fld.FB_MODE_STATUS_STATE st x g) (State.leaves_fab _ _ x h)

theorem State.fbState_fencesAll {st : Nat} (h : st < 4) : (s.fencesAll st).fbState = st :=
  State.fld_setF_fits s (f := Fld.FB_MODE_STATUS_STATE) (by decide) h
theorem State.fld_fencesAll (st : Nat) {g : Fld} (h : Fld.FB_MODE_STATUS_STATE.misses g = true) : (s.fencesAll st).fld g = s.fld g :=
  State.fld_setF_miss s st h
theorem State.reasons_fencesAll (st : Nat) : (s.fencesAll st).reasons = s.reasons := State.fld_fencesAll s st (by decide)

variable {s}

/-- In VOQ a reason moves the fabric. -/
theorem State.fbMove_enters (hv : s.fbState = fbVoq) (hr : s.reasons ≠ 0) : s.fbMove = s.fencesAll fbEntering := if_pos ⟨hv, hr⟩

/-- In FOUNDRY the absence of one does, once the arbiter is calibrated. -/
theorem State.fbMove_leaves (hf : s.fbState = fbFoundry) (hr : s.reasons = 0) (hc : s.fld Fld.FB_MODE_STATUS_CAL_OK = 1) :
    s.fbMove = s.fencesAll fbLeaving := by
  unfold State.fbMove
  rw [if_neg (by simp [hr]), if_pos ⟨hf, hr, hc⟩]
  rfl

theorem State.fbMove_voq (hv : s.fbState = fbVoq) (hr : s.reasons = 0) : s.fbMove = s := by
  unfold State.fbMove
  rw [if_neg (by simp [hr]), if_neg (by simp [hv, fbVoq, fbFoundry])]
theorem State.fbMove_foundry (hf : s.fbState = fbFoundry) (hr : s.reasons ≠ 0) : s.fbMove = s := by
  unfold State.fbMove
  rw [if_neg (by simp [hf, fbVoq, fbFoundry]), if_neg (by simp [hr])]

variable (s)

/-- A look at the state machine leaves all as it is, or fences every port. -/
theorem State.fbMove_cases : s.fbMove = s ∨ ∃ st, s.fbMove = s.fencesAll st := by
  unfold State.fbMove
  split
  · exact .inr ⟨_, rfl⟩
  · split
    · exact .inr ⟨_, rfl⟩
    · exact .inl rfl

theorem State.fld_fbMove {g : Fld} (h : Fld.FB_MODE_STATUS_STATE.misses g = true) : s.fbMove.fld g = s.fld g := by
  rcases s.fbMove_cases with e | ⟨st, e⟩ <;> rw [e]
  exact State.fld_fencesAll s st h

theorem State.leaves_fbMove (x : Touch) (h : .fab ∈ x.parts) (g : x.regs Reg.FB_MODE_STATUS) : s.leaves s.fbMove x := by
  rcases s.fbMove_cases with e | ⟨st, e⟩ <;> rw [e]
  · exact State.leaves_refl s x
  · exact State.leaves_fencesAll s st x h g

/-- But for the fences the fabric keeps what it holds. -/
theorem State.fab_fbMove : ∃ l, s.fbMove.fab = { s.fab with fence := l } := by
  rcases s.fbMove_cases with e | ⟨st, e⟩ <;> rw [e]
  · exact ⟨s.fab.fence, rfl⟩
  · exact ⟨_, rfl⟩

/-! #### Reasons that appear and go -/

theorem State.reasons_lt : s.reasons < 2 ^ 5 := s.fld_lt Fld.FB_MODE_STATUS_REASON

variable {s}

/-- What waits for FOUNDRY waits elsewhere. -/
theorem State.fdyWork_waits (h : s.fbState ≠ fbFoundry) : s.fdyWork = s := if_neg h

theorem State.fdyWork_entering : (s.fencesAll fbEntering).fdyWork = s.fencesAll fbEntering :=
  State.fdyWork_waits (by rw [State.fbState_fencesAll s (by decide)]; decide)

/-- A reason in VOQ: every port is fenced, and nothing of FOUNDRY begins. -/
theorem State.fdyReason_enters {r : Nat} (hv : s.fbState = fbVoq) (hr : r < 2 ^ 5) (h0 : r ≠ 0) :
    s.fdyReason r = (s.orF Fld.FB_MODE_STATUS_REASON r).fencesAll fbEntering := by
  have voq : (s.orF Fld.FB_MODE_STATUS_REASON r).fbState = fbVoq := (State.fld_orF_miss s r (by decide)).trans hv
  have present : (s.orF Fld.FB_MODE_STATUS_REASON r).reasons ≠ 0 := by
    rw [State.reasons, State.fld_orF_fits s (by decide) hr]
    exact fun h => h0 (Nat.or_eq_zero_iff.mp h).2
  rw [State.fdyReason, State.addReason, State.fbMove_enters voq present, State.fdyWork_entering]

variable (s)

theorem State.leaves_dropReason (r : Nat) (x : Touch) (h : .fab ∈ x.parts) (g : x.regs Reg.FB_MODE_STATUS) : s.leaves (s.dropReason r) x :=
  State.leaves_trans (State.leaves_setF s Fld.FB_MODE_STATUS_REASON _ x g) (State.leaves_fbMove _ x h g)

theorem State.reasons_dropReason (r : Nat) : (s.dropReason r).reasons = s.reasons - (s.reasons &&& r) := by
  rw [State.dropReason, State.reasons, State.fld_fbMove _ (by decide)]
  exact State.fld_setF_fits s (by decide) (Nat.lt_of_le_of_lt (Nat.sub_le _ _) s.reasons_lt)

theorem State.fld_dropReason (r : Nat) {g : Fld} (hs : Fld.FB_MODE_STATUS_STATE.misses g = true) (hr : Fld.FB_MODE_STATUS_REASON.misses g = true) :
    (s.dropReason r).fld g = s.fld g := by rw [State.dropReason, State.fld_fbMove _ hs, State.fld_setF_miss s _ hr]

theorem State.fab_dropReason (r : Nat) : ∃ l, (s.dropReason r).fab = { s.fab with fence := l } := State.fab_fbMove _

variable {s}

/-- The only reason goes in FOUNDRY. -/
theorem State.dropReason_leaves {r : Nat} (hf : s.fbState = fbFoundry) (hr : s.reasons = r) (hc : s.fld Fld.FB_MODE_STATUS_CAL_OK = 1) :
    s.dropReason r = (s.setF Fld.FB_MODE_STATUS_REASON 0).fencesAll fbLeaving := by
  subst hr
  rw [State.dropReason, Nat.and_self, Nat.sub_self]
  exact State.fbMove_leaves ((State.fld_setF_miss s _ (by decide)).trans hf) (State.fld_setF_fits s (by decide) (by decide))
    ((State.fld_setF_miss s _ (by decide)).trans hc)

end

end Sys2Proof.Machine
end

/-! ### Requests and calibrations (R228, R229, R232) -/

section
namespace Sys2Proof.Machine

/-- What a move touches: the fabric, and the two words of its mode. -/
def modeTouch : Touch := { parts := [.fab], regs := (· ∈ [Reg.FB_MODE_CTRL, Reg.FB_MODE_STATUS]) }

theorem State.leaves_modeF (s : State) {f : Fld} (v : Nat) (h : f.addr ∈ [Reg.FB_MODE_CTRL, Reg.FB_MODE_STATUS]) : s.leaves (s.setF f v) modeTouch :=
  State.leaves_setF s f v _ h

theorem State.leaves_modeMove (s : State) (st : Nat) : s.leaves (s.fencesAll st) modeTouch :=
  State.leaves_fencesAll s st _ (by simp [modeTouch]) (by simp [modeTouch])

section
variable (s : State)

/-! #### A calibration begins, and ends -/

theorem State.leaves_calStart : s.leaves s.calStart modeTouch :=
  State.leaves_trans (State.leaves_trans (State.leaves_trans (State.leaves_modeF s 0 (by decide)) (State.leaves_modeF _ 0 (by decide)))
    (State.leaves_modeF _ _ (by decide))) (State.leaves_fab _ _ _ (by simp [modeTouch]))

theorem State.calStart_shows : s.calStart.fld Fld.FB_MODE_STATUS_CAL_FAIL = 0 ∧ s.calStart.fld Fld.FB_MODE_STATUS_CAL_OK = 0 ∧
    s.calStart.reasons = s.reasons ||| reasonCal ∧ s.calStart.fbState = s.fbState ∧ s.calStart.fab.calAt = some s.now := by
  refine ⟨?_, ?_, ?_, ?_, rfl⟩ <;> unfold State.calStart <;>
    simp (disch := decide) only [State.reasons, State.fbState, State.fld_withFab, State.fld_orF_miss, State.fld_orF_fits, State.fld_setF_miss,
      State.fld_setF_fits]

/-- No calibration is under way any more, and RECAL reads 0. -/
def State.calOver : State := ({ s with fab := { s.fab with calAt := none } }).setF Fld.FB_MODE_CTRL_RECAL 0

theorem State.calComplete_ok (h : s.fab.calAt ≠ none) :
    s.calComplete true = (s.calOver.setF Fld.FB_MODE_STATUS_CAL_OK 1).dropReason reasonCal := by
  obtain ⟨at_, h⟩ := Option.ne_none_iff_exists'.mp h
  unfold State.calComplete
  rw [h]
  rfl

theorem State.calComplete_fail (h : s.fab.calAt ≠ none) :
    s.calComplete false = (s.calOver.setF Fld.FB_MODE_STATUS_CAL_FAIL 1).raise Fld.FB_INT_STATUS_CAL_FAIL := by
  obtain ⟨at_, h⟩ := Option.ne_none_iff_exists'.mp h
  unfold State.calComplete
  rw [h]
  rfl

theorem State.leaves_calOver : s.leaves s.calOver modeTouch :=
  State.leaves_trans (State.leaves_fab s _ _ (by simp [modeTouch])) (State.leaves_modeF _ 0 (by decide))

theorem State.fld_calOver {g : Fld} (h : Fld.FB_MODE_CTRL_RECAL.misses g = true) : s.calOver.fld g = s.fld g := State.fld_setF_miss _ 0 h

end

/-! #### The commands -/

section
variable (s : State) (dt : Nat) (hm : s.mainUp = true)
include hm

/-- MODE_REQ is set in VOQ. -/
theorem modeReq_enters (hv : s.fbState = fbVoq) (h0 : s.fld Fld.FB_MODE_CTRL_MODE_REQ = 0) :
    ∃ t, exec (.modeReq dt true) s = .next t ∧ t.fld Fld.FB_MODE_CTRL_MODE_REQ = 1 ∧ t.reasons = s.reasons ||| reasonSw ∧ t.fbState = fbEntering ∧
      t.fab.fence = List.range 144 ∧
      (s.begun dt).frame t { parts := [.fab], regs := (· ∈ [Reg.FB_MODE_CTRL, Reg.FB_MODE_STATUS]) } := by
  have voq : ((s.begun dt).setF Fld.FB_MODE_CTRL_MODE_REQ 1).fbState = fbVoq := by
    rw [State.fbState, State.fld_setF_miss _ _ (by decide), State.fld_begun]; exact hv
  have act : (if true = (s.begun dt).bit Fld.FB_MODE_CTRL_MODE_REQ then s.begun dt else (s.begun dt).modeReq true) =
      (((s.begun dt).setF Fld.FB_MODE_CTRL_MODE_REQ 1).orF Fld.FB_MODE_STATUS_REASON reasonSw).fencesAll fbEntering := by
    rw [if_neg (by simp [State.bit, h0])]
    exact State.fdyReason_enters voq (by decide) (by decide)
  obtain ⟨next, frame⟩ := exec_main_touches (c := .modeReq dt true) (x := modeTouch) rfl rfl hm act
    (State.leaves_trans (State.leaves_trans (State.leaves_modeF _ _ (by decide)) (State.leaves_modeF _ _ (by decide))) (State.leaves_modeMove _ _))
  refine ⟨_, next, ?_, ?_, ?_, ?_, frame⟩
  · rw [State.fld_settle, State.fld_fencesAll _ _ (by decide), State.fld_orF_miss _ _ (by decide), State.fld_setF_fits _ (by decide) (by decide)]
  · rw [State.reasons_settle, State.reasons_fencesAll, State.reasons, State.fld_orF_fits _ (by decide) (by decide), State.fld_setF_miss _ _ (by decide),
      State.fld_begun, State.reasons]
  · rw [State.fbState_settle, State.fbState_fencesAll _ (by decide)]
  · rw [State.settle_fab, State.fencesAll]

/-- MODE_REQ, the only reason, is cleared in FOUNDRY with a calibrated arbiter. -/
theorem modeReq_leaves (hf : s.fbState = fbFoundry) (h1 : s.fld Fld.FB_MODE_CTRL_MODE_REQ = 1) (hr : s.reasons = reasonSw)
    (hc : s.fld Fld.FB_MODE_STATUS_CAL_OK = 1) :
    ∃ t, exec (.modeReq dt false) s = .next t ∧ t.fld Fld.FB_MODE_CTRL_MODE_REQ = 0 ∧ t.reasons = 0 ∧ t.fbState = fbLeaving ∧
      t.fab.fence = List.range 144 ∧
      (s.begun dt).frame t { parts := [.fab], regs := (· ∈ [Reg.FB_MODE_CTRL, Reg.FB_MODE_STATUS]) } := by
  have same {g : Fld} (h : Fld.FB_MODE_CTRL_MODE_REQ.misses g = true) : ((s.begun dt).setF Fld.FB_MODE_CTRL_MODE_REQ 0).fld g = s.fld g := by
    rw [State.fld_setF_miss _ _ h, State.fld_begun]
  have act : (if false = (s.begun dt).bit Fld.FB_MODE_CTRL_MODE_REQ then s.begun dt else (s.begun dt).modeReq false) =
      (((s.begun dt).setF Fld.FB_MODE_CTRL_MODE_REQ 0).setF Fld.FB_MODE_STATUS_REASON 0).fencesAll fbLeaving := by
    rw [if_neg (by simp [State.bit, h1])]
    exact State.dropReason_leaves ((same (by decide)).trans hf) ((same (by decide)).trans hr) ((same (by decide)).trans hc)
  obtain ⟨next, frame⟩ := exec_main_touches (c := .modeReq dt false) (x := modeTouch) rfl rfl hm act
    (State.leaves_trans (State.leaves_trans (State.leaves_modeF _ _ (by decide)) (State.leaves_modeF _ _ (by decide))) (State.leaves_modeMove _ _))
  refine ⟨_, next, ?_, ?_, ?_, ?_, frame⟩
  · rw [State.fld_settle, State.fld_fencesAll _ _ (by decide), State.fld_setF_miss _ _ (by decide), State.fld_setF_fits _ (by decide) (by decide)]
  · rw [State.reasons_settle, State.reasons_fencesAll, State.reasons, State.fld_setF_fits _ (by decide) (by decide)]
  · rw [State.fbState_settle, State.fbState_fencesAll _ (by decide)]
  · rw [State.settle_fab, State.fencesAll]

/-- RECAL in VOQ. -/
theorem recal_enters (hv : s.fbState = fbVoq) :
    ∃ t, exec (.recal dt) s = .next t ∧ t.fld Fld.FB_MODE_CTRL_RECAL = 1 ∧ t.fld Fld.FB_MODE_STATUS_CAL_FAIL = 0 ∧
      t.fld Fld.FB_MODE_STATUS_CAL_OK = 0 ∧ t.fab.calAt = some (s.now + dt) ∧ t.fbState = fbEntering ∧
      (s.begun dt).frame t { parts := [.fab], regs := (· ∈ [Reg.FB_MODE_CTRL, Reg.FB_MODE_STATUS]) } := by
  obtain ⟨fail, ok, reasons, state, at_⟩ := ((s.begun dt).setF Fld.FB_MODE_CTRL_RECAL 1).calStart_shows
  have started := ((s.begun dt).setF Fld.FB_MODE_CTRL_RECAL 1).leaves_calStart
  have asked : ((s.begun dt).setF Fld.FB_MODE_CTRL_RECAL 1).calStart.fld Fld.FB_MODE_CTRL_RECAL = 1 := by
    unfold State.calStart
    rw [State.fld_withFab, State.fld_orF_miss _ _ (by decide), State.fld_setF_miss _ _ (by decide), State.fld_setF_miss _ _ (by decide),
      State.fld_setF_fits _ (by decide) (by decide)]
  generalize hu : ((s.begun dt).setF Fld.FB_MODE_CTRL_RECAL 1).calStart = u at fail ok reasons state at_ started asked
  have voq : u.fbState = fbVoq := by
    rw [state, State.fbState, State.fld_setF_miss _ _ (by decide), State.fld_begun]; exact hv
  have present : u.reasons ≠ 0 := by
    rw [reasons]
    exact fun h => absurd (Nat.or_eq_zero_iff.mp h).2 (by decide)
  have act : (s.begun dt).recal = u.fencesAll fbEntering := by
    rw [State.recal, hu, State.fbMove_enters voq present, State.fdyWork_entering]
  obtain ⟨next, frame⟩ := exec_main_touches (c := .recal dt) (x := modeTouch) rfl rfl hm act
    (State.leaves_trans (State.leaves_trans (State.leaves_modeF _ _ (by decide)) started) (State.leaves_modeMove _ _))
  refine ⟨_, next, ?_, ?_, ?_, ?_, ?_, frame⟩
  · rw [State.fld_settle, State.fld_fencesAll _ _ (by decide), asked]
  · rw [State.fld_settle, State.fld_fencesAll _ _ (by decide), fail]
  · rw [State.fld_settle, State.fld_fencesAll _ _ (by decide), ok]
  · rw [State.settle_fab, State.fencesAll]
    exact at_.trans (congrArg some (State.now_begun s dt))
  · rw [State.fbState_settle, State.fbState_fencesAll _ (by decide)]

/-- A calibration ends well. -/
theorem calComplete_succeeds (h : s.fab.calAt ≠ none) :
    ∃ t, exec (.calComplete dt true) s = .next t ∧ t.fld Fld.FB_MODE_STATUS_CAL_OK = 1 ∧ t.fld Fld.FB_MODE_CTRL_RECAL = 0 ∧ t.fab.calAt = none ∧
      t.reasons = s.reasons - (s.reasons &&& reasonCal) := by
  have left : (s.begun dt).leaves (((s.begun dt).calOver.setF Fld.FB_MODE_STATUS_CAL_OK 1).dropReason reasonCal) modeTouch :=
    State.leaves_trans (State.leaves_trans (State.leaves_calOver _) (State.leaves_modeF _ _ (by decide)))
      (State.leaves_dropReason _ _ _ (by simp [modeTouch]) (by simp [modeTouch]))
  refine ⟨_, (exec_main_touches (c := .calComplete dt true) rfl rfl hm (State.calComplete_ok _ (by simpa using h)) left).1, ?_, ?_, ?_, ?_⟩
  · rw [State.fld_settle, State.fld_dropReason _ _ (by decide) (by decide), State.fld_setF_fits _ (by decide) (by decide)]
  · rw [State.fld_settle, State.fld_dropReason _ _ (by decide) (by decide), State.fld_setF_miss _ _ (by decide), State.calOver,
      State.fld_setF_fits _ (by decide) (by decide)]
  · obtain ⟨l, fab⟩ := State.fab_dropReason ((s.begun dt).calOver.setF Fld.FB_MODE_STATUS_CAL_OK 1) reasonCal
    rw [State.settle_fab, fab]
    rfl
  · rw [State.reasons_settle, State.reasons_dropReason, State.reasons, State.fld_setF_miss _ _ (by decide), State.fld_calOver _ (by decide),
      State.fld_begun, State.reasons]

/-- A calibration, the only reason, ends well in FOUNDRY. -/
theorem calComplete_leaves (h : s.fab.calAt ≠ none) (hf : s.fbState = fbFoundry) (hr : s.reasons = reasonCal) :
    ∃ t, exec (.calComplete dt true) s = .next t ∧ t.fld Fld.FB_MODE_STATUS_CAL_OK = 1 ∧ t.fab.calAt = none ∧ t.reasons = 0 ∧
      t.fbState = fbLeaving ∧ t.fab.fence = List.range 144 := by
  have same {g : Fld} (ho : Fld.FB_MODE_STATUS_CAL_OK.misses g = true) (hc : Fld.FB_MODE_CTRL_RECAL.misses g = true) :
      ((s.begun dt).calOver.setF Fld.FB_MODE_STATUS_CAL_OK 1).fld g = s.fld g := by
    rw [State.fld_setF_miss _ _ ho, State.fld_calOver _ hc, State.fld_begun]
  have act : (s.begun dt).calComplete true =
      (((s.begun dt).calOver.setF Fld.FB_MODE_STATUS_CAL_OK 1).setF Fld.FB_MODE_STATUS_REASON 0).fencesAll fbLeaving := by
    rw [State.calComplete_ok _ (by simpa using h)]
    exact State.dropReason_leaves ((same (by decide) (by decide)).trans hf) ((same (by decide) (by decide)).trans hr)
      (State.fld_setF_fits _ (by decide) (by decide))
  have left := State.leaves_trans (State.leaves_trans (State.leaves_trans (State.leaves_calOver (s.begun dt))
    (State.leaves_modeF _ (f := Fld.FB_MODE_STATUS_CAL_OK) 1 (by decide))) (State.leaves_modeF _ (f := Fld.FB_MODE_STATUS_REASON) 0 (by decide)))
    (State.leaves_modeMove _ fbLeaving)
  refine ⟨_, (exec_main_touches (c := .calComplete dt true) rfl rfl hm act left).1, ?_, ?_, ?_, ?_, ?_⟩
  · rw [State.fld_settle, State.fld_fencesAll _ _ (by decide), State.fld_setF_miss _ _ (by decide), State.fld_setF_fits _ (by decide) (by decide)]
  · rw [State.settle_fab]; rfl
  · rw [State.reasons_settle, State.reasons_fencesAll, State.reasons, State.fld_setF_fits _ (by decide) (by decide)]
  · rw [State.fbState_settle, State.fbState_fencesAll _ (by decide)]
  · rw [State.settle_fab, State.fencesAll]

/-- A calibration fails; its reason stays, and so does the state. -/
theorem calComplete_fails (h : s.fab.calAt ≠ none) :
    ∃ t, exec (.calComplete dt false) s = .next t ∧ t.fld Fld.FB_MODE_STATUS_CAL_FAIL = 1 ∧ t.fld Fld.FB_INT_STATUS_CAL_FAIL = 1 ∧
      t.fbState = s.fbState ∧ t.reasons = s.reasons := by
  have req : (((s.begun dt).calOver.setF Fld.FB_MODE_STATUS_CAL_FAIL 1).raise Fld.FB_INT_STATUS_CAL_FAIL).timeReq = ⟨none, none⟩ :=
    State.begun_timeReq s dt
  have same {g : Fld} (hi : Fld.FB_INT_STATUS_CAL_FAIL.misses g = true) (ho : Fld.FB_MODE_STATUS_CAL_FAIL.misses g = true)
      (hc : Fld.FB_MODE_CTRL_RECAL.misses g = true) :
      (((s.begun dt).calOver.setF Fld.FB_MODE_STATUS_CAL_FAIL 1).raise Fld.FB_INT_STATUS_CAL_FAIL).fld g = s.fld g := by
    rw [State.fld_raise_miss _ hi, State.fld_setF_miss _ _ ho, State.fld_calOver _ hc, State.fld_begun]
  refine ⟨_, exec_main (c := .calComplete dt false) rfl rfl hm (State.calComplete_fail _ (by simpa using h)) req, ?_, ?_, ?_, ?_⟩
  · rw [State.fld_settle, State.fld_raise_miss _ (by decide), State.fld_setF_fits _ (by decide) (by decide)]
  · rw [State.fld_settle, State.fld_raise_self _ _ (by decide) (by decide)]
  · rw [State.fbState_settle]; exact same (by decide) (by decide) (by decide)
  · rw [State.reasons_settle]; exact same (by decide) (by decide) (by decide)

end

end Sys2Proof.Machine
end

/-! ### The fences lift, and the fabric arrives (R229 to R231, R235) -/

section
namespace Sys2Proof.Machine

section
variable (s : State)

/-! #### Fences -/

theorem State.leaves_dropFence (q : Nat) (x : Touch) (h : .fab ∈ x.parts) : s.leaves (s.dropFence q) x := State.leaves_fab s _ x h

theorem State.fenced_dropFence (q k : Nat) : (s.dropFence q).fenced k = (s.fenced k && decide (k ≠ q)) := by
  rw [Bool.eq_iff_iff]
  simp [State.fenced, State.dropFence]

/-! #### Pools whose banks leave allocation -/

theorem State.leaves_touchPools (x : Touch) (h : .pool ∈ x.parts) : s.leaves s.touchPools x :=
  State.leaves_foldl _ x _ (fun s n _ => State.leaves_touchPool s n x h) s

/-- A bank's turn in the test, or its end. -/
def State.bankTurn (b : Option (Nat × Bool × Nat)) : State := { s.touchPools with fab := { s.fab with testBank := b } }

theorem State.leaves_bankTurn (b : Option (Nat × Bool × Nat)) (x : Touch) (h : .pool ∈ x.parts) (g : .fab ∈ x.parts) : s.leaves (s.bankTurn b) x :=
  State.leaves_trans (State.leaves_touchPools s x h) (State.leaves_fab _ _ x g)

theorem State.fld_bankTurn (b : Option (Nat × Bool × Nat)) (f : Fld) : (s.bankTurn b).fld f = s.fld f :=
  (State.leaves_bankTurn s b { parts := [.pool, .fab] } (by simp) (by simp)).fld id

/-! #### Arrivals -/

/-- The fabric is in one of its two modes, with the event, and no port is fenced. -/
def State.arrived (st : Nat) : State :=
  { (s.setFb st).raise Fld.FB_INT_STATUS_MODE_CHG with fab := { s.fab with fence := [] } }

theorem State.leaves_arrived (st : Nat) (x : Touch) (h : .fab ∈ x.parts) (g : x.regs Reg.FB_MODE_STATUS) (k : x.regs Reg.FB_INT_STATUS) :
    s.leaves (s.arrived st) x :=
  State.leaves_trans (State.leaves_trans (State.leaves_setF s Fld.FB_MODE_STATUS_STATE st x g) (State.leaves_raise _ Fld.FB_INT_STATUS_MODE_CHG x k))
    (State.leaves_fab _ _ x h)

theorem State.fbState_arrived {st : Nat} (h : st < 4) : (s.arrived st).fbState = st := by
  rw [State.fbState, State.arrived, State.fld_withFab, State.fld_raise_miss _ (by decide)]
  exact State.fld_setF_fits s (by decide) h
theorem State.event_arrived (st : Nat) : (s.arrived st).fld Fld.FB_INT_STATUS_MODE_CHG = 1 := by
  rw [State.arrived, State.fld_withFab, State.fld_raise_self _ _ (by decide) (by decide)]
theorem State.fld_arrived (st : Nat) {g : Fld} (h : Fld.FB_MODE_STATUS_STATE.misses g = true) (i : Fld.FB_INT_STATUS_MODE_CHG.misses g = true) :
    (s.arrived st).fld g = s.fld g := by rw [State.arrived, State.fld_withFab, State.fld_raise_miss _ i, State.setFb, State.fld_setF_miss _ _ h]
theorem State.reasons_arrived (st : Nat) : (s.arrived st).reasons = s.reasons := s.fld_arrived st (by decide) (by decide)

variable {s}

/-- In FOUNDRY with neither a FABRIC nor a MEM region that waits, the bank test may begin. -/
theorem State.fdyWork_tests (hf : s.fbState = fbFoundry) (hn : s.fab.fabNew = []) (h0 : s.fab.memMask = 0) :
    s.fdyWork = if s.reasons &&& reasonTest ≠ 0 ∧ s.fab.testBank = none then s.bankTurn (some (0, false, s.now)) else s := by
  have applied : s.fabricApply = s := if_pos hn
  unfold State.fdyWork
  dsimp only
  rw [if_pos hf, applied, if_pos h0]
  simp only [Option.isNone_iff_eq_none]
  rfl

/-- The arrival in FOUNDRY, with a reason still there. -/
theorem State.foundryReached_arrives (he : s.fbState = fbEntering) (hv : s.noVoq = true) (hr : s.reasons ≠ 0) (hn : s.fab.fabNew = [])
    (h0 : s.fab.memMask = 0) :
    s.foundryReached = if s.reasons &&& reasonTest ≠ 0 ∧ s.fab.testBank = none then (s.arrived fbFoundry).bankTurn (some (0, false, s.now))
      else s.arrived fbFoundry := by
  have arrives : (s.arrived fbFoundry).fdyWork = if s.reasons &&& reasonTest ≠ 0 ∧ s.fab.testBank = none then
      (s.arrived fbFoundry).bankTurn (some (0, false, s.now)) else s.arrived fbFoundry := by
    rw [State.fdyWork_tests (s.fbState_arrived (by decide)) hn h0, State.reasons_arrived]
    rfl
  have act : s.foundryReached = (s.arrived fbFoundry).fdyWork.fbMove := if_pos ⟨he, hv⟩
  rw [act, arrives]
  refine State.fbMove_foundry ?_ ?_ <;> split
  · exact (State.fld_bankTurn _ _ _).trans (s.fbState_arrived (by decide))
  · exact s.fbState_arrived (by decide)
  · rwa [State.reasons, State.fld_bankTurn, ← State.reasons, State.reasons_arrived]
  · rwa [State.reasons_arrived]

variable (s)

/-- The first arrival in VOQ opens the receive paths, but for a keeper's. -/
def State.opened : State :=
  { s with fab := { s.fab with everVoq := true }, isl := { s.isl with rxOpen := s.isl.rxOpen || (!s.fab.everVoq && !s.isl.keep) } }

/-- The boot ends with it. -/
def State.served : State := if s.stage = stCal then s.toStage stService else s

theorem State.leaves_opened : s.leaves s.opened { parts := [.fab, .isl] } :=
  ⟨⟨fun k hk => by cases k <;> simp_all [Part.same, State.opened], fun _ _ => rfl, fun _ _ _ => rfl, fun _ _ => rfl, fun _ _ => rfl⟩, rfl⟩

theorem State.leaves_served : s.leaves s.served { regs := (· ∈ [Reg.GL_BOOT_STATUS, Reg.GL_INT_STATUS]) } :=
  State.leaves_ite _ (fun _ => State.leaves_toStage s _ _ (by simp) (by simp)) (fun _ => State.leaves_refl s _)

theorem State.stage_served (h : s.stage = stCal) : s.served.stage = stService := by
  rw [State.served, if_pos h, State.toStage, if_neg (by rw [h]; decide), State.stage, State.fld_raise_miss _ (by decide),
    State.fld_setF_fits _ (by decide) (by decide)]

variable {s}

/-- The arrival in VOQ, with no reason left. -/
theorem State.voqReached_arrives (hl : s.fbState = fbLeaving) (hn : s.noList = true) (hr : s.reasons = 0) :
    s.voqReached = (s.arrived fbVoq).opened.served := by
  have act : s.voqReached = (s.arrived fbVoq).opened.served.fbMove := if_pos ⟨hl, hn⟩
  have same {g : Fld} (h : g.addr ∉ [Reg.GL_BOOT_STATUS, Reg.GL_INT_STATUS]) : (s.arrived fbVoq).opened.served.fld g = (s.arrived fbVoq).fld g :=
    (State.leaves_served _).fld h
  rw [act]
  exact State.fbMove_voq ((same (by decide)).trans (s.fbState_arrived (by decide))) ((same (by decide)).trans ((s.reasons_arrived _).trans hr))

end

/-! #### The commands -/

section
variable (s : State) (dt : Nat)

/-- A command that lifts the fence of one port. -/
theorem fenceLift_lifts {c : Instr} {f : State → State} {q : Nat} (hc : exec c s = s.cmdMain c.wellFormed dt f) (hw : c.wellFormed = true)
    (hm : s.mainUp = true) (act : f (s.begun dt) = (s.begun dt).dropFence q) :
    ∃ t, exec c s = .next t ∧ t.fenced q = false ∧ (∀ q', q' ≠ q → t.fenced q' = s.fenced q') ∧ (s.begun dt).frame t { parts := [.fab] } := by
  obtain ⟨next, frame⟩ := exec_main_touches (x := { parts := [.fab] }) hc hw hm act (State.leaves_dropFence _ q _ (by simp))
  refine ⟨_, next, ?_, fun k hk => ?_, frame⟩
  · simp [State.fenced_dropFence]
  · simp [State.fenced_dropFence, hk]

/-- FENCE_LIFT_INWARD of a port whose VOQs are empty. -/
theorem fenceLiftInward_lifts (q : Nat) (hq : q < 144) (hm : s.mainUp = true) (he : s.fbState = fbEntering) (hf : s.fenced q = true)
    (hv : s.voqsEmpty q = true) :
    ∃ t, exec (.fenceLiftInward dt q) s = .next t ∧ t.fenced q = false ∧ (∀ q', q' ≠ q → t.fenced q' = s.fenced q') ∧
      (s.begun dt).frame t { parts := [.fab] } :=
  fenceLift_lifts s dt (c := .fenceLiftInward dt q) (f := fun s => s.liftInward q) rfl (decide_eq_true hq) hm (if_pos (by simp [he, hf, hv]))

/-- FENCE_LIFT_OUTWARD of a port whose Foundry lists are empty. -/
theorem fenceLiftOutward_lifts (q : Nat) (hq : q < 144) (hm : s.mainUp = true) (he : s.fbState = fbLeaving) (hf : s.fenced q = true)
    (hl : s.listsEmpty q = true) :
    ∃ t, exec (.fenceLiftOutward dt q) s = .next t ∧ t.fenced q = false ∧ (∀ q', q' ≠ q → t.fenced q' = s.fenced q') ∧
      (s.begun dt).frame t { parts := [.fab] } :=
  fenceLift_lifts s dt (c := .fenceLiftOutward dt q) (f := fun s => s.liftOutward q) rfl (decide_eq_true hq) hm (if_pos (by simp [he, hf, hl]))

/-- FOUNDRY_REACHED with no VOQ that holds a descriptor. -/
theorem foundryReached_arrives (hm : s.mainUp = true) (he : s.fbState = fbEntering) (hv : s.noVoq = true) (hr : s.reasons ≠ 0)
    (hn : s.fab.fabNew = []) (h0 : s.fab.memMask = 0) :
    ∃ t, exec (.foundryReached dt) s = .next t ∧ t.fbState = fbFoundry ∧ t.fab.fence = [] ∧ t.fld Fld.FB_INT_STATUS_MODE_CHG = 1 ∧
      t.fab.testBank = (if s.reasons &&& reasonTest ≠ 0 ∧ s.fab.testBank = none then some (0, false, s.now + dt) else s.fab.testBank) ∧
      (s.begun dt).frame t { parts := [.fab, .pool], regs := (· ∈ [Reg.FB_MODE_STATUS, Reg.FB_INT_STATUS]) } := by
  have act := State.foundryReached_arrives (s := s.begun dt) (by simpa using he) (by simpa using hv) (by simpa using hr) (by simpa using hn) (by simpa using h0)
  have left := State.leaves_arrived (s.begun dt) fbFoundry { parts := [.fab, .pool], regs := (· ∈ [Reg.FB_MODE_STATUS, Reg.FB_INT_STATUS]) }
    (by simp) (by simp) (by simp)
  have state := (s.begun dt).fbState_arrived (st := fbFoundry) (by decide)
  have event := (s.begun dt).event_arrived fbFoundry
  rw [State.reasons_begun, State.testBank_begun, State.now_begun] at act
  split at act
  · next test =>
    obtain ⟨next, frame⟩ := exec_main_touches (c := .foundryReached dt) rfl rfl hm act
      (State.leaves_trans left (State.leaves_bankTurn _ _ _ (by simp) (by simp)))
    refine ⟨_, next, ?_, ?_, ?_, ?_, frame⟩
    · rw [State.fbState_settle, State.fbState, State.fld_bankTurn]; exact state
    · rw [State.settle_fab]; rfl
    · rw [State.fld_settle, State.fld_bankTurn, event]
    · rw [State.settle_fab, if_pos test]; rfl
  · next test =>
    obtain ⟨next, frame⟩ := exec_main_touches (c := .foundryReached dt) rfl rfl hm act left
    refine ⟨_, next, by rw [State.fbState_settle, state], by rw [State.settle_fab, State.arrived], by rw [State.fld_settle, event], ?_, frame⟩
    rw [State.settle_fab, if_neg test]
    exact State.testBank_begun s dt

/-- VOQ_REACHED with no Foundry list that holds a descriptor. -/
theorem voqReached_arrives (hm : s.mainUp = true) (hl : s.fbState = fbLeaving) (hn : s.noList = true) (hr : s.reasons = 0) :
    ∃ t, exec (.voqReached dt) s = .next t ∧ t.fbState = fbVoq ∧ t.fab.fence = [] ∧ t.fld Fld.FB_INT_STATUS_MODE_CHG = 1 ∧
      (s.fab.everVoq = false → s.isl.keep = false → t.isl.rxOpen = true) ∧ (s.stage = stCal → t.stage = stService) := by
  let u := ((s.begun dt).arrived fbVoq).opened
  have act : (s.begun dt).voqReached = u.served := State.voqReached_arrives (by simpa using hl) (by simpa using hn) (by simpa using hr)
  have served := State.leaves_served u
  have req : u.served.timeReq = ⟨none, none⟩ := served.2.trans (State.begun_timeReq s dt)
  have same {g : Fld} (h : g.addr ∉ [Reg.GL_BOOT_STATUS, Reg.GL_INT_STATUS]) : u.served.fld g = ((s.begun dt).arrived fbVoq).fld g := served.fld h
  have fab : u.served.fab = u.fab := served.part (k := .fab) (by simp)
  have isl : u.served.isl = u.isl := served.part (k := .isl) (by simp)
  refine ⟨_, exec_main (c := .voqReached dt) rfl rfl hm act req, ?_, ?_, ?_, fun first open_ => ?_, fun stage => ?_⟩
  · rw [State.fbState_settle, State.fbState, same (by decide)]
    exact State.fbState_arrived _ (by decide)
  · rw [State.settle_fab, fab]; rfl
  · rw [State.fld_settle, same (by decide), State.event_arrived]
  · rw [State.settle_isl, isl]
    simp [u, State.opened, State.arrived, State.setFb, first, open_]
  · rw [State.stage_settle]
    refine State.stage_served u ?_
    show ((s.begun dt).arrived fbVoq).fld Fld.GL_BOOT_STATUS_STAGE = _
    rw [State.fld_arrived _ _ (by decide) (by decide), State.fld_begun]
    exact stage

end

/-- Settles O14: requests and calibrations move the fabric out of a mode with every port fenced, and empty queues bring it into the other. -/
theorem fabricModes : Obligations.FabricModes :=
  ⟨modeReq_enters, modeReq_leaves, recal_enters, calComplete_leaves, calComplete_succeeds, calComplete_fails, fenceLiftInward_lifts,
    foundryReached_arrives, fenceLiftOutward_lifts, voqReached_arrives⟩

end Sys2Proof.Machine
end

/-! ### The test of one bank after another (R235) -/

section
namespace Sys2Proof.Machine

section
variable (s : State)

/-! #### The next bank, or the end of the test -/

theorem State.testNext_of_lt {b : Nat} (h : b < 31) : s.testNext b = s.bankTurn (some (b + 1, false, s.now)) := if_pos h

/-- No bank is under test. -/
def State.untested : State := { s with fab := { s.fab with testBank := none } }

theorem State.testNext_last :
    s.testNext 31 = ((s.untested.setF Fld.FB_MODE_CTRL_TEST 0).raise Fld.FB_INT_STATUS_TEST_DONE).dropReason reasonTest := if_neg (by decide)

/-- What the end of the test touches. -/
def testEndTouch : Touch := { parts := [.fab], regs := (· ∈ [Reg.FB_MODE_CTRL, Reg.FB_INT_STATUS, Reg.FB_MODE_STATUS]) }

theorem State.leaves_testNext_last : s.leaves (s.testNext 31) testEndTouch := by
  rw [State.testNext_last]
  exact State.leaves_trans (State.leaves_trans (State.leaves_trans (State.leaves_fab s _ _ (by simp [testEndTouch]))
    (State.leaves_setF _ Fld.FB_MODE_CTRL_TEST _ _ (by simp [testEndTouch, Fld.FB_MODE_CTRL_TEST])))
    (State.leaves_raise _ Fld.FB_INT_STATUS_TEST_DONE _ (by simp [testEndTouch, Fld.FB_INT_STATUS_TEST_DONE])))
    (State.leaves_dropReason _ _ _ (by simp [testEndTouch]) (by simp [testEndTouch]))

theorem State.testNext_last_shows : (s.testNext 31).fab.testBank = none ∧ (s.testNext 31).fld Fld.FB_MODE_CTRL_TEST = 0 ∧
    (s.testNext 31).fld Fld.FB_INT_STATUS_TEST_DONE = 1 ∧ (s.testNext 31).reasons = s.reasons - (s.reasons &&& reasonTest) := by
  rw [State.testNext_last]
  refine ⟨?_, ?_, ?_, ?_⟩
  · obtain ⟨l, fab⟩ := State.fab_dropReason ((s.untested.setF Fld.FB_MODE_CTRL_TEST 0).raise Fld.FB_INT_STATUS_TEST_DONE) reasonTest
    rw [fab]
    rfl
  · rw [State.fld_dropReason _ _ (by decide) (by decide), State.fld_raise_miss _ (by decide), State.fld_setF_fits _ (by decide) (by decide)]
  · rw [State.fld_dropReason _ _ (by decide) (by decide), State.fld_raise_self _ _ (by decide) (by decide)]
  · rw [State.reasons_dropReason, State.reasons, State.fld_raise_miss _ (by decide), State.fld_setF_miss _ _ (by decide), State.untested,
      State.fld_withFab, State.reasons]

/-! #### A bank has been tested, or skipped -/

/-- A bank that fails its test is marked. -/
def State.bankNoted (b : Nat) (pass : Bool) : State := if pass then s else s.orF Fld.FB_TEST_FAIL_BANKS (2 ^ b)

theorem State.leaves_bankNoted (b : Nat) (pass : Bool) (x : Touch) (h : x.regs Reg.FB_TEST_FAIL) : s.leaves (s.bankNoted b pass) x :=
  State.leaves_ite _ (fun _ => State.leaves_refl s x) (fun _ => State.leaves_orF s Fld.FB_TEST_FAIL_BANKS _ x h)

theorem State.fail_bankNoted {b : Nat} (hb : b < 32) (pass : Bool) : (s.bankNoted b pass).fld Fld.FB_TEST_FAIL_BANKS =
    if pass then s.fld Fld.FB_TEST_FAIL_BANKS else s.fld Fld.FB_TEST_FAIL_BANKS ||| 2 ^ b := by
  cases pass with
  | true => rfl
  | false => exact State.fld_orF_fits s (by decide) (Nat.pow_lt_pow_right (by decide) hb)

@[simp] theorem State.now_orF (f : Fld) (v : Nat) : (s.orF f v).now = s.now := rfl

variable {s} {b at_ : Nat}

theorem State.bankDone_due (ht : s.fab.testBank = some (b, true, at_)) (hd : at_ + tMs / 2 ≤ s.now) (pass : Bool) :
    s.bankDone b pass = (s.bankNoted b pass).testNext b := by
  unfold State.bankDone
  rw [ht]
  exact if_pos ⟨rfl, hd⟩

theorem State.bankSkip_due (ht : s.fab.testBank = some (b, false, at_)) (hd : at_ + 100 * tMs ≤ s.now) (hf : s.banksFree (2 ^ b) = false) :
    s.bankSkip b = (s.orF Fld.FB_TEST_SKIP_BANKS (2 ^ b)).testNext b := by
  unfold State.bankSkip
  rw [ht]
  exact if_pos ⟨rfl, hd, hf⟩

end

/-! #### The commands -/

section
variable (s : State) (dt : Nat)

/-- TEST is written in VOQ. -/
theorem bankTest_enters (hm : s.mainUp = true) (hv : s.fbState = fbVoq) (h0 : s.fld Fld.FB_MODE_CTRL_TEST = 0) :
    ∃ t, exec (.bankTest dt) s = .next t ∧ t.fld Fld.FB_MODE_CTRL_TEST = 1 ∧ t.fld Fld.FB_TEST_SKIP_BANKS = 0 ∧
      t.reasons = s.reasons ||| reasonTest ∧ t.fbState = fbEntering ∧
      (s.begun dt).frame t { parts := [.fab], regs := (· ∈ [Reg.FB_MODE_CTRL, Reg.FB_MODE_STATUS, Reg.FB_TEST_SKIP]) } := by
  let u := ((s.begun dt).setF Fld.FB_MODE_CTRL_TEST 1).setF Fld.FB_TEST_SKIP_BANKS 0
  have same {g : Fld} (ht : Fld.FB_MODE_CTRL_TEST.misses g = true) (hs : Fld.FB_TEST_SKIP_BANKS.misses g = true) : u.fld g = s.fld g := by
    rw [State.fld_setF_miss _ _ hs, State.fld_setF_miss _ _ ht, State.fld_begun]
  have act : (s.begun dt).bankTest = (u.orF Fld.FB_MODE_STATUS_REASON reasonTest).fencesAll fbEntering := by
    rw [State.bankTest, if_neg (by simp [State.bit, h0])]
    exact State.fdyReason_enters ((same (by decide) (by decide)).trans hv) (by decide) (by decide)
  obtain ⟨next, frame⟩ := exec_main_touches (c := .bankTest dt)
    (x := { parts := [.fab], regs := (· ∈ [Reg.FB_MODE_CTRL, Reg.FB_MODE_STATUS, Reg.FB_TEST_SKIP]) }) rfl rfl hm act
    (State.leaves_trans (State.leaves_trans (State.leaves_trans (State.leaves_setF _ _ _ _ (by simp [Fld.FB_MODE_CTRL_TEST]))
      (State.leaves_setF _ _ _ _ (by simp [Fld.FB_TEST_SKIP_BANKS]))) (State.leaves_orF _ _ _ _ (by simp [Fld.FB_MODE_STATUS_REASON])))
      (State.leaves_fencesAll _ _ _ (by simp) (by simp)))
  refine ⟨_, next, ?_, ?_, ?_, ?_, frame⟩
  · rw [State.fld_settle, State.fld_fencesAll _ _ (by decide), State.fld_orF_miss _ _ (by decide), State.fld_setF_miss _ _ (by decide),
      State.fld_setF_fits _ (by decide) (by decide)]
  · rw [State.fld_settle, State.fld_fencesAll _ _ (by decide), State.fld_orF_miss _ _ (by decide), State.fld_setF_fits _ (by decide) (by decide)]
  · rw [State.reasons_settle, State.reasons_fencesAll, State.reasons, State.fld_orF_fits _ (by decide) (by decide), same (by decide) (by decide),
      State.reasons]
  · rw [State.fbState_settle, State.fbState_fencesAll _ (by decide)]

/-- BANK_TEST_BANK_START of the bank whose turn it is. -/
theorem bankStart_begins (b at_ : Nat) (hb : b < 32) (hm : s.mainUp = true) (ht : s.fab.testBank = some (b, false, at_)) (hf : s.fbState = fbFoundry)
    (hc : (s.begun dt).banksFree (2 ^ b) = true) :
    ∃ t, exec (.bankTestBankStart dt b) s = .next t ∧ t.fab.testBank = some (b, true, s.now + dt) ∧ (s.begun dt).frame t { parts := [.fab] } := by
  have act : (s.begun dt).bankStart b =
      { s.begun dt with fab := { (s.begun dt).fab with testBank := some (b, true, s.now + dt) } } := by
    unfold State.bankStart
    rw [State.testBank_begun, ht, ← State.now_begun s dt]
    exact if_pos ⟨rfl, by simpa using hf, hc⟩
  obtain ⟨next, frame⟩ := exec_main_touches (c := .bankTestBankStart dt b) (x := { parts := [.fab] }) rfl (decide_eq_true hb) hm act
    (State.leaves_fab _ _ _ (by simp))
  exact ⟨_, next, by rw [State.settle_fab], frame⟩

/-- BANK_TEST_BANK_DONE of a bank that others follow. -/
theorem bankDone_next (b at_ : Nat) (pass : Bool) (hb : b < 31) (hm : s.mainUp = true) (ht : s.fab.testBank = some (b, true, at_))
    (hd : at_ + tMs / 2 ≤ s.now + dt) :
    ∃ t, exec (.bankTestBankDone dt b pass) s = .next t ∧ t.fab.testBank = some (b + 1, false, s.now + dt) ∧
      t.fld Fld.FB_TEST_FAIL_BANKS = (if pass then s.fld Fld.FB_TEST_FAIL_BANKS else s.fld Fld.FB_TEST_FAIL_BANKS ||| 2 ^ b) ∧
      (s.begun dt).frame t { parts := [.fab, .pool], regs := (· = Reg.FB_TEST_FAIL) } := by
  have noted := State.leaves_bankNoted (s.begun dt) b pass { parts := [.fab, .pool], regs := (· = Reg.FB_TEST_FAIL) } rfl
  have now : ((s.begun dt).bankNoted b pass).now = s.now + dt := (noted.now (by simp)).trans (State.now_begun s dt)
  have act : (s.begun dt).bankDone b pass = ((s.begun dt).bankNoted b pass).bankTurn (some (b + 1, false, s.now + dt)) := by
    rw [State.bankDone_due (by simpa using ht) (by simpa using hd), State.testNext_of_lt _ hb, now]
  obtain ⟨next, frame⟩ := exec_main_touches (c := .bankTestBankDone dt b pass) rfl (decide_eq_true (Nat.lt_succ_of_lt hb)) hm act
    (State.leaves_trans noted (State.leaves_bankTurn _ _ _ (by simp) (by simp)))
  refine ⟨_, next, by rw [State.settle_fab, State.bankTurn], ?_, frame⟩
  rw [State.fld_settle, State.fld_bankTurn, State.fail_bankNoted _ (Nat.lt_succ_of_lt hb), State.fld_begun]

/-- BANK_TEST_BANK_DONE of bank 31. -/
theorem bankDone_last (at_ : Nat) (pass : Bool) (hm : s.mainUp = true) (ht : s.fab.testBank = some (31, true, at_))
    (hd : at_ + tMs / 2 ≤ s.now + dt) :
    ∃ t, exec (.bankTestBankDone dt 31 pass) s = .next t ∧ t.fab.testBank = none ∧ t.fld Fld.FB_MODE_CTRL_TEST = 0 ∧
      t.fld Fld.FB_INT_STATUS_TEST_DONE = 1 ∧ t.reasons = s.reasons - (s.reasons &&& reasonTest) := by
  have noted := State.leaves_bankNoted (s.begun dt) 31 pass { regs := (· = Reg.FB_TEST_FAIL) } rfl
  have same : ((s.begun dt).bankNoted 31 pass).reasons = s.reasons := (noted.fld (by decide)).trans (State.reasons_begun s dt)
  obtain ⟨bank, test, done, reasons⟩ := ((s.begun dt).bankNoted 31 pass).testNext_last_shows
  refine ⟨_, exec_main (c := .bankTestBankDone dt 31 pass) rfl rfl hm (State.bankDone_due (by simpa using ht) (by simpa using hd) pass)
    ((State.leaves_testNext_last _).2.trans (noted.2.trans (State.begun_timeReq s dt))), by rw [State.settle_fab, bank], by rw [State.fld_settle, test],
    by rw [State.fld_settle, done], by rw [State.reasons_settle, reasons, same]⟩

/-- BANK_TEST_SKIP of a bank that others follow. -/
theorem bankSkip_next (b at_ : Nat) (hb : b < 31) (hm : s.mainUp = true) (ht : s.fab.testBank = some (b, false, at_))
    (hd : at_ + 100 * tMs ≤ s.now + dt) (hf : (s.begun dt).banksFree (2 ^ b) = false) :
    ∃ t, exec (.bankTestSkip dt b) s = .next t ∧ t.fab.testBank = some (b + 1, false, s.now + dt) ∧
      t.fld Fld.FB_TEST_SKIP_BANKS = s.fld Fld.FB_TEST_SKIP_BANKS ||| 2 ^ b ∧
      (s.begun dt).frame t { parts := [.fab, .pool], regs := (· = Reg.FB_TEST_SKIP) } := by
  have act : (s.begun dt).bankSkip b = ((s.begun dt).orF Fld.FB_TEST_SKIP_BANKS (2 ^ b)).bankTurn (some (b + 1, false, s.now + dt)) := by
    rw [State.bankSkip_due (by simpa using ht) (by simpa using hd) hf, State.testNext_of_lt _ hb, State.now_orF, State.now_begun]
  obtain ⟨next, frame⟩ := exec_main_touches (c := .bankTestSkip dt b) (x := { parts := [.fab, .pool], regs := (· = Reg.FB_TEST_SKIP) })
    rfl (decide_eq_true (Nat.lt_succ_of_lt hb)) hm act
    (State.leaves_trans (State.leaves_orF _ _ _ _ rfl) (State.leaves_bankTurn _ _ _ (by simp) (by simp)))
  refine ⟨_, next, by rw [State.settle_fab, State.bankTurn], ?_, frame⟩
  rw [State.fld_settle, State.fld_bankTurn, State.fld_orF_fits _ (by decide) (Nat.pow_lt_pow_right (by decide) (Nat.lt_succ_of_lt hb)), State.fld_begun]

/-- BANK_TEST_SKIP of bank 31. -/
theorem bankSkip_last (at_ : Nat) (hm : s.mainUp = true) (ht : s.fab.testBank = some (31, false, at_)) (hd : at_ + 100 * tMs ≤ s.now + dt)
    (hf : (s.begun dt).banksFree (2 ^ 31) = false) :
    ∃ t, exec (.bankTestSkip dt 31) s = .next t ∧ t.fab.testBank = none ∧ t.fld Fld.FB_MODE_CTRL_TEST = 0 ∧
      t.fld Fld.FB_TEST_SKIP_BANKS = s.fld Fld.FB_TEST_SKIP_BANKS ||| 2 ^ 31 ∧ t.fld Fld.FB_INT_STATUS_TEST_DONE = 1 ∧
      t.reasons = s.reasons - (s.reasons &&& reasonTest) := by
  have ended := State.leaves_testNext_last ((s.begun dt).orF Fld.FB_TEST_SKIP_BANKS (2 ^ 31))
  have same : ((s.begun dt).orF Fld.FB_TEST_SKIP_BANKS (2 ^ 31)).reasons = s.reasons :=
    (State.fld_orF_miss _ _ (by decide)).trans (State.reasons_begun s dt)
  obtain ⟨bank, test, done, reasons⟩ := ((s.begun dt).orF Fld.FB_TEST_SKIP_BANKS (2 ^ 31)).testNext_last_shows
  refine ⟨_, exec_main (c := .bankTestSkip dt 31) rfl rfl hm (State.bankSkip_due (by simpa using ht) (by simpa using hd) hf)
    (by rw [ended.2, State.orF_timeReq, State.begun_timeReq]), by rw [State.settle_fab, bank], by rw [State.fld_settle, test], ?_,
    by rw [State.fld_settle, done], by rw [State.reasons_settle, reasons, same]⟩
  rw [State.fld_settle, ended.fld (by simp [testEndTouch, Fld.FB_TEST_SKIP_BANKS, Reg.FB_TEST_SKIP, Reg.FB_MODE_CTRL, Reg.FB_INT_STATUS, Reg.FB_MODE_STATUS]),
    State.fld_orF_fits _ (by decide) (by decide), State.fld_begun]

end

end Sys2Proof.Machine
end

/-! ### A new partition of the cells is applied (R234, R432) -/

section
namespace Sys2Proof.Machine

/-- A map without the keys that a test names. -/
theorem SMap.look_drop {α : Type} (m : SMap α) (p : Nat → Bool) (k : Nat) : SMap.look (SMap.drop m p) k = if p k then none else SMap.look m k := by
  induction m with
  | nil => simp [SMap.drop, SMap.look]
  | cons e m ih =>
    unfold SMap.drop at ih ⊢
    by_cases hp : p e.1 = true
    · rw [List.filter_cons_of_neg (by simp [hp]), ih, SMap.look]
      split
      · rfl
      · next h => rw [if_neg]; rintro rfl; exact h hp
    · rw [List.filter_cons_of_pos (by simpa using hp), SMap.look, SMap.look, ih]
      by_cases he : e.1 = k
      · subst he; simp [hp]
      · simp [he]

section
variable (s : State)

/-- Where no frame lies, none is discarded. -/
theorem State.memFlush_nothing (hf : s.fab.frames = []) (hq : s.fab.queues = []) (hi : s.fab.intake = []) : s.memFlush = s := by
  simp [State.memFlush, State.flushFrames, hf, hq, hi]

/-- The cells of rebuilt pools are as out of reset, and the others as before. -/
theorem State.cell_cellsFresh (old new : List Byte) (c : Nat) : (s.cellsFresh old new).cell c =
    if memRebuilt old new (c / 1024) (c / 1024 + 1) = true then CellSt.reset else s.cell c := by
  simp only [State.cell, Pool.cell, SMap.get, State.cellsFresh, SMap.look_drop]
  split <;> rfl

/-- The registers of the cells' block show the partition, and the pools whose FREE moves with it are noted. -/
theorem State.memLoad_shows (bs : List Byte) : ∃ u, s.memLoad bs = u.setRegion 2 bs ∧
    s.leaves u { parts := [.pool], regs := (· < Reg.FB_ARB_CTRL) } ∧ u.pool.cells = s.pool.cells := by
  have region (p : Nat) (hp : p < 8) : Reg.CB_REGION p < Reg.FB_ARB_CTRL := by simp only [Reg.CB_REGION, Reg.FB_ARB_CTRL]; omega
  have config (n : Nat) (hn : n < 64) : Reg.CB_POOL_CFG n < Reg.FB_ARB_CTRL := by simp only [Reg.CB_POOL_CFG, Reg.FB_ARB_CTRL]; omega
  have touched (t : State) (n : Nat) : (t.touchPool n).pool.cells = t.pool.cells := by
    unfold State.touchPool Pool.touch
    dsimp only
    split <;> rfl
  delta State.memLoad
  extract_lets s1 s2
  refine ⟨s2, rfl, State.leaves_trans (t := s1) ?_ ?_, ?_⟩
  · exact State.leaves_foldl _ _ _ (fun t p hp => State.leaves_setReg t _ _ _ (region p (List.mem_range.mp hp))) s
  · exact State.leaves_foldl _ _ _ (fun t n hn => State.leaves_trans (State.leaves_setReg t _ _ _ (config n (List.mem_range.mp hn)))
      (State.leaves_touchPool _ n _ (by simp))) s1
  · have shown : s1.pool.cells = s.pool.cells :=
      List.foldlRecOn (motive := fun (t : State) => t.pool.cells = s.pool.cells) _ _ rfl (fun t ht p _ => by rw [State.setReg_pool, ht])
    exact List.foldlRecOn (motive := fun (t : State) => t.pool.cells = s.pool.cells) _ _ shown
      (fun t ht n _ => by rw [touched, State.setReg_pool, ht])

/-- The partition that waited is in effect. -/
def State.memTaken : State := { s with fab := { s.fab with memNew := [], memMask := 0 } }

theorem State.reloadDone_none (h : s.bt.reload = none) (bit : Nat) : s.reloadDone bit = s := by
  unfold State.reloadDone
  rw [h]

variable {s}

/-- A partition whose banks hold neither a frame nor a USED cell. -/
theorem State.memApply_applies (hf : s.fbState = fbFoundry) (hn : s.fab.memNew ≠ []) (hfr : s.fab.frames = []) (hq : s.fab.queues = [])
    (hi : s.fab.intake = []) (hb : s.banksFree s.fab.memMask = true) (hr : s.bt.reload = none) :
    ∃ u, s.memApply = ((u.setRegion 2 s.fab.memNew).memTaken).dropReason reasonMem ∧
      s.leaves u { parts := [.pool], regs := (· < Reg.FB_ARB_CTRL) } ∧ u.pool.cells = (s.cellsFresh (s.region 2) s.fab.memNew).pool.cells := by
  obtain ⟨u, load, left, cells⟩ := (s.cellsFresh (s.region 2) s.fab.memNew).memLoad_shows s.fab.memNew
  have kept := State.leaves_trans (State.leaves_pool s _ { parts := [.pool], regs := (· < Reg.FB_ARB_CTRL) } (by simp)) left
  have idle : u.bt.reload = none := by rw [show u.bt = s.bt from kept.part (k := .bt) (by simp), hr]
  refine ⟨u, ?_, kept, cells⟩
  unfold State.memApply
  dsimp only
  rw [if_pos ⟨hf, hn⟩, State.memFlush_nothing s hfr hq hi, if_pos hb, load]
  exact congrArg (fun t => State.dropReason t reasonMem) (State.reloadDone_none (u.setRegion 2 s.fab.memNew).memTaken idle 1)

end

/-- MEM_RELOAD_APPLY of such a partition. -/
theorem memReloadApply_applies (s : State) (dt : Nat) (hm : s.mainUp = true) (hf : s.fbState = fbFoundry) (hn : s.fab.memNew ≠ [])
    (hfr : s.fab.frames = []) (hq : s.fab.queues = []) (hi : s.fab.intake = []) (hb : (s.begun dt).banksFree s.fab.memMask = true)
    (hr : s.bt.reload = none) :
    ∃ t, exec (.memReloadApply dt) s = .next t ∧ t.fab.memNew = [] ∧ t.fab.memMask = 0 ∧ t.region 2 = s.fab.memNew ∧
      (∀ c, memRebuilt (s.region 2) s.fab.memNew (c / 1024) (c / 1024 + 1) = true → t.cell c = ⟨false, 0x3F, 0, none⟩) ∧
      (∀ c, memRebuilt (s.region 2) s.fab.memNew (c / 1024) (c / 1024 + 1) = false → t.cell c = (s.begun dt).cell c) ∧
      t.reasons = s.reasons - (s.reasons &&& reasonMem) := by
  have region : (s.begun dt).region 2 = s.region 2 := by simp [State.region]
  obtain ⟨u, act, left, cells⟩ := State.memApply_applies (s := s.begun dt) (by simpa using hf) (by simpa using hn) (by simpa using hfr) (by simpa using hq)
    (by simpa using hi) (by simpa using hb) (by simpa using hr)
  rw [State.memNew_begun] at act cells
  rw [region] at cells
  have moved := State.leaves_dropReason (u.setRegion 2 s.fab.memNew).memTaken reasonMem { parts := [.fab], regs := (· = Reg.FB_MODE_STATUS) } (by simp) rfl
  obtain ⟨l, fab⟩ := State.fab_dropReason (u.setRegion 2 s.fab.memNew).memTaken reasonMem
  have cell (c : Nat) : ((((u.setRegion 2 s.fab.memNew).memTaken).dropReason reasonMem).settle s (s.begun dt).time).cell c =
      if memRebuilt (s.region 2) s.fab.memNew (c / 1024) (c / 1024 + 1) = true then CellSt.reset else (s.begun dt).cell c := by
    rw [State.cell, State.settle_pool, moved.part (k := .pool) (by simp), ← State.cell_cellsFresh, State.cell, Pool.cell, Pool.cell, ← cells]
    rfl
  refine ⟨_, exec_main (c := .memReloadApply dt) rfl rfl hm act (moved.2.trans (left.2.trans (State.begun_timeReq s dt))), ?_, ?_, ?_,
    fun c hc => ?_, fun c hc => ?_, ?_⟩
  · rw [State.settle_fab, fab]; rfl
  · rw [State.settle_fab, fab]; rfl
  · rw [State.region, State.settle_bt, moved.part (k := .bt) (by simp)]
    exact congrArg (Option.getD · []) (SMap.look_ins_self _ _ _)
  · rw [cell, if_pos hc]; rfl
  · rw [cell, if_neg (by simp [hc])]
  · rw [State.reasons_settle, State.reasons_dropReason]
    have same : (u.setRegion 2 s.fab.memNew).memTaken.reasons = s.reasons := (left.fld (by decide)).trans (State.reasons_begun s dt)
    rw [same]

/-- Settles O15: the test goes from bank to bank and ends with the last, and the new partition drops the cells of the pools it rebuilds. -/
theorem bankTests : Obligations.BankTests :=
  ⟨bankTest_enters, bankStart_begins, bankDone_next, bankDone_last, bankSkip_next, bankSkip_last, memReloadApply_applies⟩

end Sys2Proof.Machine
end

/-! ### A read of a sojourn watermark (R289, R520) -/

section
namespace Sys2Proof.Machine

/-- The device after its boot, with a GO under way, until the instant 1, at the sojourn watermark of queue 0. That word has no GO, so no command leaves a device
so; but no hypothesis of the statement asks that `State.goBusy` lists command registers alone. -/
def watermarkGoes : State :=
  { State.reset with isl := { Islands.reset with pair := 15, pg := 4095, rxOpen := true }, goBusy := [(0x1600000, 1)] }

/-- The watermark is 0, and a read of its four bytes at the instant 0 returns the GO (`State.view`). -/
theorem sojWmRead_returns_go : (watermarkGoes.reg 0x1600000).toNat = 0 ∧
    ∃ t, exec (.sojWmRead 0 .pcie 0 15) watermarkGoes = .next t ∧ (t.ini (Initiator.num .pcie)).rdata = 2 ^ 31 :=
  ⟨by decide +kernel, _, rfl, by decide +kernel⟩

/-- Refutes O34: its sixth clause has the read of a sojourn watermark return the stored bytes in every state, also in one whose `State.goBusy` names that word:
a read then adds bit 31, as it does for a command that is under way (R520). -/
theorem not_anvilAndPlanish : ¬ Obligations.AnvilAndPlanish := by
  unfold Obligations.AnvilAndPlanish
  intro h
  obtain ⟨-, -, -, -, -, read, -⟩ := h
  obtain ⟨t, ht, returned, -⟩ := read watermarkGoes 0 0 15 .pcie (by decide) (by decide) (by decide) (.inl rfl) (by decide +kernel) (by decide +kernel)
  obtain ⟨zero, u, hu, goes⟩ := sojWmRead_returns_go
  rw [exec_next_unique ht hu, returned, BitVec.toNat_and, zero, Nat.zero_and] at goes
  exact absurd goes (by decide)

end Sys2Proof.Machine
end

/-! ### A request for one cell (R250, R254, R256, R257) -/

section
namespace Sys2Proof.Machine

/-! #### Cells of a pool -/

theorem Pool.cell_setCell_self (pl : Pool) (c : Nat) (x : CellSt) : (pl.setCell c x).cell c = x := SMap.get_put_self _ _ _ _
theorem Pool.cell_setCell_ne (pl : Pool) {c d : Nat} (x : CellSt) (h : d ≠ c) : (pl.setCell c x).cell d = pl.cell d := SMap.get_put_ne _ _ _ _ _ h
@[simp] theorem Pool.cells_touch (pl : Pool) (n : Nat) : (pl.touch n).cells = pl.cells := by unfold Pool.touch; split <;> rfl
@[simp] theorem Pool.avCells_touch (pl : Pool) (n : Nat) : (pl.touch n).avCells = pl.avCells := by unfold Pool.touch; split <;> rfl
@[simp] theorem State.cell_settle (s s0 : State) (t : Time) (c : Nat) : (s.settle s0 t).cell c = s.cell c := by simp [State.cell]

theorem firstIdx_congr {α : Type} {p q : α → Bool} {l : List α} (h : ∀ x ∈ l, p x = q x) : firstIdx p l = firstIdx q l := by
  induction l with
  | nil => rfl
  | cons x l ih => rw [firstIdx, firstIdx, h x List.mem_cons_self, ih (fun y hy => h y (List.mem_cons_of_mem _ hy))]

/-- The pools that hold the cells are given by the words of `CB_POOL_CFG` (R246). -/
theorem State.poolOf_congr {s t : State} (h : ∀ n, n < 64 → t.reg (Reg.CB_POOL_CFG n) = s.reg (Reg.CB_POOL_CFG n)) : t.poolOf = s.poolOf := by
  funext c
  refine firstIdx_congr (fun n hn => ?_)
  have word := h n (List.mem_range.mp hn)
  have first : t.poolFirst n = s.poolFirst n := congrArg (fun w : Word => bitsOf w.toNat 0 9) word
  have segs : t.poolSegs n = s.poolSegs n := congrArg (fun w : Word => bitsOf w.toNat 16 10) word
  rw [first, segs]

theorem State.leaves.poolOf {s t : State} {x : Touch} (h : s.leaves t x) (hx : ∀ n, n < 64 → ¬ x.regs (Reg.CB_POOL_CFG n)) : t.poolOf = s.poolOf :=
  State.poolOf_congr (fun n hn => h.reg (hx n hn))

@[simp] theorem State.poolOf_begun (s : State) (dt : Nat) : (s.begun dt).poolOf = s.poolOf := State.poolOf_congr (fun _ _ => State.reg_begun s dt _)

/-! #### The two outcomes -/

/-- What a request for a cell touches beside the cell: the pool manager with its counters and bits, and the wake of a bank in retention (R249). -/
def askTouch : Touch :=
  { parts := [.pool, .pw, .free], regs := fun a => a = Reg.PW_BANK_RET ∨ Reg.CB_PM_INT_STATUS ≤ a, ctrs := fun a => Ctr.pool 0 0 ≤ a }

theorem askTouch_misses_poolCfg {n : Nat} (h : n < 64) : ¬ askTouch.regs (Reg.CB_POOL_CFG n) := by
  simp only [askTouch, Reg.CB_POOL_CFG, Reg.PW_BANK_RET, Reg.CB_PM_INT_STATUS]
  omega

theorem pmStatus_le_poolEmpty (k : Nat) : Reg.CB_PM_INT_STATUS ≤ Reg.CB_POOL_EMPTY k := by
  simp only [Reg.CB_PM_INT_STATUS, Reg.CB_POOL_EMPTY]
  omega

section
variable (s : State) (n owner slot : Nat)

/-- A request takes its place in its cycle's order (R255). -/
def State.asked : State := { s with pool := { s.pool with asked := SMap.ins s.pool.asked n (s.askTurn n slot) } }
/-- A pool grants a cell of a bank. -/
def State.granted (b c : Nat) : State :=
  let t := ((s.drawn.setCell c ⟨true, owner, 0, none⟩).touchPool n).wakeBank b
  ({ t with pool := { t.pool with freed := t.pool.freed.filter (fun x => decide (x ≠ c)), ptr := SMap.ins t.pool.ptr n b } }).count (Ctr.pool n 0) 1

/-- A request is refused, or a bank of the pool grants a cell. -/
theorem State.alloc_cases : s.alloc n owner slot = (none, (s.asked n slot).allocFail n) ∨
    ∃ b c, s.alloc n owner slot = (some c, (s.asked n slot).granted n owner b c) := by
  delta State.alloc
  extract_lets turn u
  split
  · exact .inl rfl
  · next b _ =>
    split
    · exact .inl rfl
    · next c _ => exact .inr ⟨b, c, rfl⟩

@[simp] theorem State.pool_wakeBank (b : Nat) : (s.wakeBank b).pool = s.pool := by
  unfold State.wakeBank
  dsimp only
  split
  · rw [State.count_pool, State.setF_pool]
  · rfl
@[simp] theorem State.pool_allocFail : (s.allocFail n).pool = s.pool := by
  rw [State.allocFail, State.raise_pool, State.orF_pool, State.count_pool]

theorem State.asks_wakeBank (b : Nat) : s.leaves (s.wakeBank b) askTouch :=
  State.leaves_ite _ (fun _ => State.leaves_trans (State.leaves_trans (State.leaves_setF s _ _ _ (.inl rfl))
    (State.leaves_count _ _ _ _ (show Ctr.pool 0 0 ≤ 0x2770010 by decide))) (State.leaves_pw _ _ _ (by simp [askTouch])))
    (fun _ => State.leaves_refl s _)

theorem State.asks_asked : s.leaves (s.asked n slot) askTouch := State.leaves_pool s _ _ (by simp [askTouch])

theorem State.asks_allocFail : s.leaves (s.allocFail n) askTouch :=
  State.leaves_trans (State.leaves_trans (State.leaves_count s _ _ _ (poolCtr_le n _))
    (State.leaves_orF _ (Fld.CB_POOL_EMPTY_POOLS (n / 32)) _ _ (.inr (pmStatus_le_poolEmpty _))))
    (State.leaves_raise _ Fld.CB_PM_INT_STATUS_POOL_EMPTY _ (.inr le_rfl))

theorem State.asks_granted (b c : Nat) : s.leaves (s.granted n owner b c) askTouch := by
  have pool : Part.pool ∈ askTouch.parts := by simp [askTouch]
  exact State.leaves_trans (State.leaves_trans (State.leaves_trans (State.leaves_trans (State.leaves_trans
    (State.leaves_drawn s _ (by simp [askTouch])) (State.leaves_setCell _ _ _ _ pool)) (State.leaves_touchPool _ n _ pool))
    (State.asks_wakeBank _ b)) (State.leaves_pool _ _ _ pool)) (State.leaves_count _ _ _ _ (poolCtr_le n 0))

/-- The cells of the pool manager after a grant. -/
theorem State.pool_granted (b c : Nat) : (s.granted n owner b c).pool.cells = (s.pool.setCell c ⟨true, owner, 0, none⟩).cells ∧
    (s.granted n owner b c).pool.avCells = s.pool.avCells := by
  simp only [State.granted, State.count_pool, State.pool_wakeBank, State.touchPool, Pool.cells_touch, Pool.avCells_touch]
  exact ⟨rfl, rfl⟩

end

/-- A cell that a request is granted is USED with the owner asked for; no other cell changes (R251, R254). -/
theorem State.alloc_some {s u : State} {n owner slot c : Nat} (h : s.alloc n owner slot = (some c, u)) :
    u.cell c = ⟨true, owner, 0, none⟩ ∧ (∀ d, d ≠ c → u.cell d = s.cell d) ∧ u.pool.avCells = s.pool.avCells ∧ s.leaves u askTouch := by
  rcases s.alloc_cases n owner slot with refused | ⟨b, c', granted⟩
  · rw [refused] at h
    exact absurd (congrArg Prod.fst h) (by simp)
  · rw [granted] at h
    obtain ⟨rfl, rfl⟩ : c' = c ∧ _ = u := by simpa using h
    obtain ⟨cells, held⟩ := (s.asked n slot).pool_granted n owner b c'
    refine ⟨?_, fun d hd => ?_, held, State.leaves_trans (State.asks_asked s n slot) (State.asks_granted _ n owner b c')⟩
    · rw [State.cell, Pool.cell, cells]
      exact Pool.cell_setCell_self _ _ _
    · rw [State.cell, Pool.cell, cells]
      exact Pool.cell_setCell_ne _ _ hd

/-- A refused request changes no cell (R257). -/
theorem State.alloc_none {s u : State} {n owner slot : Nat} (h : s.alloc n owner slot = (none, u)) :
    (∀ d, u.cell d = s.cell d) ∧ s.leaves u askTouch := by
  rcases s.alloc_cases n owner slot with refused | ⟨b, c, granted⟩
  · rw [refused] at h
    obtain rfl : _ = u := congrArg Prod.snd h
    exact ⟨fun d => by rw [State.cell, State.pool_allocFail]; rfl, State.leaves_trans (State.asks_asked s n slot) (State.asks_allocFail _ n)⟩
  · rw [granted] at h
    exact absurd (congrArg Prod.fst h) (by simp)

end Sys2Proof.Machine
end

/-! ### Software's cell commands (R254, R257, R258, R262, R265, R266) -/

section
namespace Sys2Proof.Machine

/-! #### The command's own registers -/

/-- The command register with a GO under way. -/
def cellGoTouch : Touch := { parts := [.goBusy, .free], regs := (· = Reg.CB_CELL_CMD) }
/-- The result registers. -/
def cellShowTouch : Touch := { regs := (· ∈ [Reg.CB_CELL_RES, Reg.CB_CELL_LINK]) }

section
variable (s : State) (op pool c : Nat)

theorem State.leaves_cellStart : s.leaves (s.cellStart op pool c) cellGoTouch :=
  State.leaves_trans (State.leaves_trans (State.leaves_trans (State.leaves_trans (State.leaves_setF s Fld.CB_CELL_CMD_OP op _ rfl)
    (State.leaves_setF _ Fld.CB_CELL_CMD_POOL pool _ rfl)) (State.leaves_setF _ Fld.CB_CELL_CMD_CELL c _ rfl)) (State.leaves_setF _ Fld.CB_CELL_CMD_ERR 0 _ rfl))
    (State.leaves_startGo _ _ _ _ (by simp [cellGoTouch]) (by simp [cellGoTouch]))

theorem State.leaves_showCell : s.leaves (s.showCell c) cellShowTouch :=
  State.leaves_trans (State.leaves_setReg s Reg.CB_CELL_RES _ _ (by simp [cellShowTouch])) (State.leaves_setReg _ Reg.CB_CELL_LINK _ _ (by simp [cellShowTouch]))

/-- A command begins with ERR at 0. -/
theorem State.err_cellStart : (s.cellStart op pool c).fld Fld.CB_CELL_CMD_ERR = 0 := by
  rw [State.cellStart, State.fld, State.reg, State.startGo_regs]
  exact State.fld_setF_fits _ (by decide) (by decide)

@[simp] theorem State.pool_showCell : (s.showCell c).pool = s.pool := by rw [State.showCell, State.setReg_pool, State.setReg_pool]
@[simp] theorem State.cell_showCell (d : Nat) : (s.showCell c).cell d = s.cell d := by rw [State.cell, State.pool_showCell, State.cell]
@[simp] theorem State.fld_showCell_err : (s.showCell c).fld Fld.CB_CELL_CMD_ERR = s.fld Fld.CB_CELL_CMD_ERR :=
  (s.leaves_showCell c).fld (by simp [cellShowTouch, Fld.CB_CELL_CMD_ERR, Reg.CB_CELL_CMD, Reg.CB_CELL_RES, Reg.CB_CELL_LINK])

theorem State.res_showCell : (s.showCell c).reg Reg.CB_CELL_RES = w32 (b2n ((s.poolOf c).isSome && (s.cell c).used) * 2 ^ 31 +
    (if (s.poolOf c).isSome then (s.cell c).owner else 0x3F) * 2 ^ 25 + (s.poolOf c).getD 0 * 2 ^ 19 + c) := by
  rw [State.showCell, State.reg_setReg_ne _ _ _ _ (by decide), State.reg_setReg_self]
  cases s.poolOf c <;> rfl

theorem State.link_showCell : (s.showCell c).reg Reg.CB_CELL_LINK = w32 (b2n (s.poolOf c).isNone * 2 ^ 31 + (s.cell c).link) := by
  rw [State.showCell, State.reg_setReg_self]

theorem cellGoTouch_misses_poolCfg {n : Nat} (h : n < 64) : ¬ cellGoTouch.regs (Reg.CB_POOL_CFG n) := by
  simp only [cellGoTouch, Reg.CB_POOL_CFG, Reg.CB_CELL_CMD]
  omega

@[simp] theorem State.poolOf_cellStart : (s.cellStart op pool c).poolOf = s.poolOf := (s.leaves_cellStart op pool c).poolOf (fun _ => cellGoTouch_misses_poolCfg)
theorem State.pool_cellStart : (s.cellStart op pool c).pool = s.pool := (s.leaves_cellStart op pool c).part (k := .pool) (by simp [cellGoTouch])
/-- Whether a cell has been granted in this cycle hangs on the time alone. -/
@[simp] theorem State.grantedNow_cellStart (claim cyc d : Nat) (pl : Pool) : (s.cellStart op pool c).grantedNow claim cyc d pl = s.grantedNow claim cyc d pl := by
  rw [State.grantedNow, State.grantedNow, State.cyc23, State.cyc23, (s.leaves_cellStart op pool c).now (by simp [cellGoTouch])]
@[simp] theorem State.cell_cellStart (d : Nat) : (s.cellStart op pool c).cell d = s.cell d := by rw [State.cell, State.pool_cellStart, State.cell]

theorem State.cellOp_idle (h : s.busy Reg.CB_CELL_CMD = false) (go : State → State) : s.cellOp op pool c go = go (s.cellStart op pool c) := by
  rw [State.cellOp, if_neg (by simp [h])]

theorem askTouch_misses_cellErr : ¬ askTouch.regs Fld.CB_CELL_CMD_ERR.addr := by
  simp only [askTouch, Fld.CB_CELL_CMD_ERR, Reg.CB_CELL_CMD, Reg.PW_BANK_RET, Reg.CB_PM_INT_STATUS]
  omega

/-- What ALLOC answers where the request is refused (R257, R265). -/
def State.allocErr : State := ((s.setF Fld.CB_CELL_CMD_ERR 1).setReg Reg.CB_CELL_RES 0).setReg Reg.CB_CELL_LINK 0

section
variable {s} (h : s.busy Reg.CB_CELL_CMD = false)
include h

theorem State.cellGo_query : s.cellGo 0 0 c = (s.cellStart 0 0 c).showCell c := by
  rw [State.cellGo, if_neg (by decide), if_neg (by decide), if_neg (by decide), State.cellQuery, State.cellOp_idle s 0 0 c h]

theorem State.cellGo_granted {u : State} (ha : (s.cellStart 1 pool 0).alloc pool 0x3E slotSw = (some c, u)) : s.cellGo 1 pool 0 = u.showCell c := by
  rw [State.cellGo, if_pos rfl, State.cellAlloc, State.cellOp_idle s 1 pool 0 h, ha]

theorem State.cellGo_refused {u : State} (ha : (s.cellStart 1 pool 0).alloc pool 0x3E slotSw = (none, u)) : s.cellGo 1 pool 0 = u.allocErr := by
  rw [State.cellGo, if_pos rfl, State.cellAlloc, State.cellOp_idle s 1 pool 0 h, ha, State.allocErr]

end

end

/-! #### What each command makes of the cell -/

section
variable {s : State} {dt : Nat} (hm : s.mainUp = true) (hb : (s.begun dt).busy Reg.CB_CELL_CMD = false)
include hm hb

/-- A QUERY shows the cell. -/
theorem cellQuery_shows {c : Nat} (hc : c < 524288) :
    ∃ t, exec (.cellQuery dt c) s = .next t ∧ t.fld Fld.CB_CELL_CMD_ERR = 0 ∧
      t.reg Reg.CB_CELL_RES = w32 (b2n ((s.poolOf c).isSome && ((s.begun dt).cell c).used) * 2 ^ 31 +
        (if (s.poolOf c).isSome then ((s.begun dt).cell c).owner else 0x3F) * 2 ^ 25 + (s.poolOf c).getD 0 * 2 ^ 19 + c) ∧
      t.reg Reg.CB_CELL_LINK = w32 (b2n (s.poolOf c).isNone * 2 ^ 31 + ((s.begun dt).cell c).link) ∧
      (s.begun dt).frame t { parts := [.goBusy, .free], regs := (· ∈ [Reg.CB_CELL_CMD, Reg.CB_CELL_RES, Reg.CB_CELL_LINK]) } := by
  have left : (s.begun dt).leaves (((s.begun dt).cellStart 0 0 c).showCell c)
      { parts := [.goBusy, .free], regs := (· ∈ [Reg.CB_CELL_CMD, Reg.CB_CELL_RES, Reg.CB_CELL_LINK]) } :=
    State.leaves_trans ((State.leaves_cellStart _ 0 0 c).mono (List.Subset.refl _) (fun a h => by simp [show a = _ from h]) (fun _ => id) (List.Subset.refl _) (List.Subset.refl _))
      ((State.leaves_showCell _ c).mono (List.nil_subset _) (fun a h => List.mem_cons_of_mem _ h) (fun _ => id) (List.Subset.refl _) (List.Subset.refl _))
  obtain ⟨next, frame⟩ := exec_main_touches (c := .cellQuery dt c) rfl (decide_eq_true hc) hm (State.cellGo_query c hb) left
  refine ⟨_, next, ?_, ?_, ?_, frame⟩
  · rw [State.fld_settle, State.fld_showCell_err, State.err_cellStart]
  · rw [State.reg_settle, State.res_showCell, State.poolOf_cellStart, State.poolOf_begun, State.cell_cellStart]
  · rw [State.reg_settle, State.link_showCell, State.poolOf_cellStart, State.poolOf_begun, State.cell_cellStart]

/-- ALLOC with a cell granted. -/
theorem cellCmdAlloc_granted {n c : Nat} {u : State} (hn : n < 64) (ha : ((s.begun dt).cellStart 1 n 0).alloc n 0x3E slotSw = (some c, u)) :
    ∃ t, exec (.cellCmdAlloc dt n) s = .next t ∧ (t.cell c).used = true ∧ (t.cell c).owner = 0x3E ∧ (∀ d, d ≠ c → t.cell d = (s.begun dt).cell d) ∧
      t.fld Fld.CB_CELL_CMD_ERR = 0 ∧
      t.reg Reg.CB_CELL_RES = w32 (b2n (s.poolOf c).isSome * 2 ^ 31 + (if (s.poolOf c).isSome then 0x3E else 0x3F) * 2 ^ 25 +
        (s.poolOf c).getD 0 * 2 ^ 19 + c) := by
  obtain ⟨taken, others, -, left⟩ := State.alloc_some ha
  have time : (u.showCell c).timeReq = ⟨none, none⟩ :=
    (State.leaves_showCell u c).2.trans (left.2.trans ((State.leaves_cellStart _ 1 n 0).2.trans (State.begun_timeReq s dt)))
  have pools : u.poolOf = s.poolOf := by rw [left.poolOf (fun _ => askTouch_misses_poolCfg), State.poolOf_cellStart, State.poolOf_begun]
  refine ⟨_, exec_main (c := .cellCmdAlloc dt n) rfl (decide_eq_true hn) hm (State.cellGo_granted n c hb ha) time, ?_, ?_, fun d hd => ?_, ?_, ?_⟩
  · rw [State.cell_settle, State.cell_showCell, taken]
  · rw [State.cell_settle, State.cell_showCell, taken]
  · rw [State.cell_settle, State.cell_showCell, others d hd, State.cell_cellStart]
  · rw [State.fld_settle, State.fld_showCell_err, left.fld askTouch_misses_cellErr, State.err_cellStart]
  · rw [State.reg_settle, State.res_showCell, pools, taken, Bool.and_true]

/-- ALLOC refused. -/
theorem cellCmdAlloc_refused {n : Nat} {u : State} (hn : n < 64) (ha : ((s.begun dt).cellStart 1 n 0).alloc n 0x3E slotSw = (none, u)) :
    ∃ t, exec (.cellCmdAlloc dt n) s = .next t ∧ (∀ d, t.cell d = (s.begun dt).cell d) ∧ t.fld Fld.CB_CELL_CMD_ERR = 1 ∧ t.reg Reg.CB_CELL_RES = 0 ∧
      t.reg Reg.CB_CELL_LINK = 0 := by
  obtain ⟨same, left⟩ := State.alloc_none ha
  have time : u.allocErr.timeReq = ⟨none, none⟩ := by
    rw [State.allocErr, State.setReg_timeReq, State.setReg_timeReq, State.setF_timeReq, left.2, (State.leaves_cellStart _ 1 n 0).2, State.begun_timeReq]
  refine ⟨_, exec_main (c := .cellCmdAlloc dt n) rfl (decide_eq_true hn) hm (State.cellGo_refused n hb ha) time, fun d => ?_, ?_, ?_, ?_⟩
  · rw [State.cell_settle, State.cell, State.allocErr, State.setReg_pool, State.setReg_pool, State.setF_pool]
    exact (same d).trans (State.cell_cellStart _ _ _ _ d)
  · rw [State.fld_settle, State.fld, State.allocErr, State.reg_setReg_ne _ _ _ _ (by decide), State.reg_setReg_ne _ _ _ _ (by decide)]
    exact State.fld_setF_fits u (by decide) (by decide)
  · rw [State.reg_settle, State.allocErr, State.reg_setReg_ne _ _ _ _ (by decide), State.reg_setReg_self]
  · rw [State.reg_settle, State.allocErr, State.reg_setReg_self]

end

/-! #### The check of a cell -/

section
variable (s : State) (claim first fin cyc k c done : Nat) (pl : Pool)

/-- What a release error writes of the pool manager (R261, R262). -/
theorem State.releaseErr_form (foreign : Bool) : ∃ log ints cnts, s.releaseErr foreign claim first cyc c done pl = { pl with log := log, ints := ints, cnts := cnts } := by
  unfold State.releaseErr
  generalize s.poolOf c = pool
  extract_lets _ pl1 pl2 holder ns
  obtain ⟨ints1, cnts1, form1⟩ : ∃ ints cnts, pl1 = { pl with ints := ints, cnts := cnts } := by
    cases foreign with
    | false => exact ⟨_, _, rfl⟩
    | true => exact ⟨_, _, rfl⟩
  obtain ⟨ints2, cnts2, form2⟩ : ∃ ints cnts, pl2 = { pl with ints := ints, cnts := cnts } := by
    simp only [pl2, form1]
    cases pool with
    | none => exact ⟨_, _, rfl⟩
    | some n => exact ⟨_, _, rfl⟩
  simp only [form2]
  split
  · exact ⟨_, _, _, rfl⟩
  · exact ⟨_, _, _, rfl⟩

/-- What the release of one cell writes of it: the cell, which keeps its owner and its link (R251, R256), the freed cells, the pool's counter and its mark. -/
theorem State.freeCell_form : ∃ freed dirty cnts,
    s.freeCell c fin pl = { pl.setCell c { pl.cell c with used := false, freedAt := some fin } with freed := freed, dirty := dirty, cnts := cnts } := by
  unfold State.freeCell
  dsimp only
  split
  · unfold Pool.touch
    split
    · exact ⟨_, _, _, rfl⟩
    · exact ⟨_, _, _, rfl⟩
  · exact ⟨_, _, _, rfl⟩

theorem State.cell_freeCell (d : Nat) : (s.freeCell c fin pl).cell d = (pl.setCell c { pl.cell c with used := false, freedAt := some fin }).cell d := by
  obtain ⟨freed, dirty, cnts, form⟩ := s.freeCell_form fin c pl
  rw [form]
  rfl
theorem State.used_freeCell : ((s.freeCell c fin pl).cell c).used = false := by rw [State.cell_freeCell, Pool.cell_setCell_self]
theorem State.cell_freeCell_ne {d : Nat} (h : d ≠ c) : (s.freeCell c fin pl).cell d = pl.cell d := by
  rw [State.cell_freeCell, Pool.cell_setCell_ne _ _ h]
@[simp] theorem State.cell_releaseErr (foreign : Bool) (d : Nat) : (s.releaseErr foreign claim first cyc c done pl).cell d = pl.cell d := by
  obtain ⟨log, ints, cnts, form⟩ := s.releaseErr_form claim first cyc c done pl foreign
  rw [form]
  rfl

theorem State.grantedNow_own (h : (pl.cell c).owner = claim) : s.grantedNow claim cyc c pl = false := by simp [State.grantedNow, h]

variable {pl c claim}

/-- A USED cell of a pool, of the claimed owner, is freed, and the walk goes on with its link (R258). -/
theorem State.walk_frees (hu : (pl.cell c).used = true) (hp : (s.poolOf c).isSome = true) (ho : (pl.cell c).owner = claim) :
    s.walk claim first fin cyc (k + 1) c done pl = s.walk claim first fin cyc k (pl.cell c).link (done + 1) (s.freeCell c fin pl) := by
  rw [State.walk]
  rw [if_neg, if_neg (not_not.mpr ho)]
  simp [hu, State.grantedNow_own s claim cyc c pl ho, Option.isSome_iff_ne_none.mp hp]

/-- At a USED cell of a pool, of another owner, that has not been granted in this cycle the walk stops with FOREIGN_FREE (R261). -/
theorem State.walk_foreign (hu : (pl.cell c).used = true) (hp : (s.poolOf c).isSome = true) (hg : s.grantedNow claim cyc c pl = false)
    (ho : (pl.cell c).owner ≠ claim) : s.walk claim first fin cyc (k + 1) c done pl = (none, s.releaseErr true claim first cyc c done pl) := by
  rw [State.walk]
  rw [if_neg, if_pos ho]
  simp [hu, hg, Option.isSome_iff_ne_none.mp hp]

/-- At any other cell it stops with an error. -/
theorem State.walk_stops (h : ¬ ((pl.cell c).used = true ∧ (s.poolOf c).isSome = true ∧ (pl.cell c).owner = claim)) :
    ∃ foreign, s.walk claim first fin cyc (k + 1) c done pl = (none, s.releaseErr foreign claim first cyc c done pl) := by
  rw [State.walk]
  split
  · exact ⟨false, rfl⟩
  · next passed =>
    refine ⟨true, if_pos (fun own => h ⟨?_, ?_, own⟩)⟩
    · by_contra unused
      exact passed (.inl (by simpa using unused))
    · by_contra outside
      exact passed (.inr (.inl (by simpa using outside)))

end

/-! #### FREE and RECLAIM -/

section
variable (s : State) (c : Nat)

/-- The end of FREE and RECLAIM: the pool as they leave it, ERR, and the cell shown. -/
def State.cellEnd (err : Bool) (y : Pool) : State := (if err then ({ s with pool := y } : State).setF Fld.CB_CELL_CMD_ERR 1 else { s with pool := y }).showCell c

section
variable (err : Bool) (y : Pool)

theorem State.count_withPool (a n : Nat) : ({ s with pool := y } : State).count a n = { s.count a n with pool := y } := rfl

theorem State.cell_cellEnd (d : Nat) : (s.cellEnd c err y).cell d = y.cell d := by
  rw [State.cellEnd, State.cell_showCell]
  split
  · rw [State.cell, State.setF_pool]
  · rfl

theorem State.err_cellEnd (h : s.fld Fld.CB_CELL_CMD_ERR = 0) : (s.cellEnd c err y).fld Fld.CB_CELL_CMD_ERR = b2n err := by
  rw [State.cellEnd, State.fld_showCell_err]
  cases err with
  | true => exact State.fld_setF_fits _ (by decide) (by decide)
  | false => exact h

theorem State.leaves_cellEnd : s.leaves (s.cellEnd c err y) { parts := [.pool], regs := (· ∈ [Reg.CB_CELL_CMD, Reg.CB_CELL_RES, Reg.CB_CELL_LINK]) } :=
  State.leaves_trans (State.leaves_ite _
      (fun _ => State.leaves_trans (State.leaves_pool s y _ (by simp)) (State.leaves_setF _ Fld.CB_CELL_CMD_ERR 1 _ (by simp [Fld.CB_CELL_CMD_ERR])))
      (fun _ => State.leaves_pool s y _ (by simp)))
    ((State.leaves_showCell _ c).mono (List.nil_subset _) (fun a h => List.mem_cons_of_mem _ h) (fun _ => id) (List.Subset.refl _) (List.Subset.refl _))

end

variable {s} {cyc : Nat} {u : Pool} (h : s.busy Reg.CB_CELL_CMD = false)
include h

/-- FREE of a USED cell of a pool with owner 0x3E. -/
theorem State.cellGo_frees (hr : (s.cellStart 2 0 c).relSoft = (cyc, u)) (hu : (u.cell c).used = true) (hp : (s.poolOf c).isSome = true)
    (ho : (u.cell c).owner = 0x3E) : s.cellGo 2 0 c = (s.cellStart 2 0 c).cellEnd c false ((s.cellStart 2 0 c).freeCell c cyc u) := by
  rw [State.cellGo, if_neg (by decide), if_pos rfl, State.cellFree, State.cellOp_idle s 2 0 c h]
  dsimp only
  rw [hr, State.walk_frees _ c cyc cyc 0 0 hu (by simpa using hp) ho]
  rfl

/-- FREE of any other cell. -/
theorem State.cellGo_freeErr (hr : (s.cellStart 2 0 c).relSoft = (cyc, u))
    (hn : ¬ ((u.cell c).used = true ∧ (s.poolOf c).isSome = true ∧ (u.cell c).owner = 0x3E)) :
    ∃ foreign, s.cellGo 2 0 c = (s.cellStart 2 0 c).cellEnd c true ((s.cellStart 2 0 c).releaseErr foreign 0x3E c cyc c 0 u) := by
  obtain ⟨foreign, stops⟩ := State.walk_stops (s.cellStart 2 0 c) c cyc cyc 0 0 (by simpa using hn)
  refine ⟨foreign, ?_⟩
  rw [State.cellGo, if_neg (by decide), if_pos rfl, State.cellFree, State.cellOp_idle s 2 0 c h]
  dsimp only
  rw [hr, stops]
  rfl

/-- RECLAIM of a USED cell of a pool that has not been granted in this cycle. -/
theorem State.cellGo_reclaims (hr : (s.cellStart 3 0 c).relSoft = (cyc, u))
    (hc : (u.cell c).used = true ∧ (s.poolOf c).isSome = true ∧ s.grantedNow 0x3E cyc c u = false) :
    s.cellGo 3 0 c = ((s.cellStart 3 0 c).count 0x2500818 1).cellEnd c false ((s.cellStart 3 0 c).freeCell c cyc u) := by
  rw [State.cellGo, if_neg (by decide), if_neg (by decide), if_pos rfl, State.cellReclaim, State.cellOp_idle s 3 0 c h]
  dsimp only
  rw [hr, if_pos (by simpa using hc), State.count_withPool]
  rfl

/-- RECLAIM of any other cell. -/
theorem State.cellGo_reclaimErr (hr : (s.cellStart 3 0 c).relSoft = (cyc, u))
    (hn : ¬ ((u.cell c).used = true ∧ (s.poolOf c).isSome = true ∧ s.grantedNow 0x3E cyc c u = false)) :
    s.cellGo 3 0 c = (s.cellStart 3 0 c).cellEnd c true u := by
  rw [State.cellGo, if_neg (by decide), if_neg (by decide), if_pos rfl, State.cellReclaim, State.cellOp_idle s 3 0 c h]
  dsimp only
  rw [hr, if_neg (by simpa using hn)]
  rfl

end

section
variable {s : State} {dt : Nat} (hm : s.mainUp = true)
include hm

/-- FREE. -/
theorem cellFree_outcome (hb : (s.begun dt).busy Reg.CB_CELL_CMD = false) {c cyc : Nat} {u : Pool} (hc : c < 524288)
    (hr : ((s.begun dt).cellStart 2 0 c).relSoft = (cyc, u)) :
    ∃ t, exec (.cellFree dt c) s = .next t ∧ (∀ d, d ≠ c → t.cell d = u.cell d) ∧
      (if (u.cell c).used = true ∧ (s.poolOf c).isSome = true ∧ (u.cell c).owner = 0x3E then
        (t.cell c).used = false ∧ t.fld Fld.CB_CELL_CMD_ERR = 0
       else t.cell c = u.cell c ∧ t.fld Fld.CB_CELL_CMD_ERR = 1) := by
  have began := (s.begun dt).leaves_cellStart 2 0 c
  have err := (s.begun dt).err_cellStart 2 0 c
  split
  · next own =>
    obtain ⟨used, inPool, owner⟩ := own
    have act := State.cellGo_frees c hb hr used (by simpa using inPool) owner
    refine ⟨_, exec_main (c := .cellFree dt c) rfl (decide_eq_true hc) hm act ?_, fun d hd => ?_, ?_, ?_⟩
    · rw [(State.leaves_cellEnd _ _ _ _).2, began.2, State.begun_timeReq]
    · rw [State.cell_settle, State.cell_cellEnd, State.cell_freeCell_ne _ _ _ _ hd]
    · rw [State.cell_settle, State.cell_cellEnd, State.used_freeCell]
    · rw [State.fld_settle, State.err_cellEnd _ _ _ _ err]
      rfl
  · next other =>
    obtain ⟨foreign, act⟩ := State.cellGo_freeErr c hb hr (by simpa using other)
    refine ⟨_, exec_main (c := .cellFree dt c) rfl (decide_eq_true hc) hm act ?_, fun d _ => ?_, ?_, ?_⟩
    · rw [(State.leaves_cellEnd _ _ _ _).2, began.2, State.begun_timeReq]
    · rw [State.cell_settle, State.cell_cellEnd, State.cell_releaseErr]
    · rw [State.cell_settle, State.cell_cellEnd, State.cell_releaseErr]
    · rw [State.fld_settle, State.err_cellEnd _ _ _ _ err]
      rfl

/-- RECLAIM. -/
theorem cellReclaim_outcome (hb : (s.begun dt).busy Reg.CB_CELL_CMD = false) {c cyc : Nat} {u : Pool} (hc : c < 524288)
    (hr : ((s.begun dt).cellStart 3 0 c).relSoft = (cyc, u)) :
    ∃ t, exec (.cellReclaim dt c) s = .next t ∧ (∀ d, d ≠ c → t.cell d = u.cell d) ∧
      (if (u.cell c).used = true ∧ (s.poolOf c).isSome = true ∧ (s.begun dt).grantedNow 0x3E cyc c u = false then
        (t.cell c).used = false ∧ t.fld Fld.CB_CELL_CMD_ERR = 0 ∧ t.ctr 0x2500818 = (s.ctr 0x2500818 + 1) % 2 ^ 64
       else t.cell c = u.cell c ∧ t.fld Fld.CB_CELL_CMD_ERR = 1) := by
  have began := (s.begun dt).leaves_cellStart 3 0 c
  have err := (s.begun dt).err_cellStart 3 0 c
  split
  · next held =>
    have act := State.cellGo_reclaims c hb hr (by simpa using held)
    have ended := State.leaves_cellEnd (((s.begun dt).cellStart 3 0 c).count 0x2500818 1) c false (((s.begun dt).cellStart 3 0 c).freeCell c cyc u)
    refine ⟨_, exec_main (c := .cellReclaim dt c) rfl (decide_eq_true hc) hm act ?_, fun d hd => ?_, ?_, ?_, ?_⟩
    · rw [ended.2, State.count_timeReq, began.2, State.begun_timeReq]
    · rw [State.cell_settle, State.cell_cellEnd, State.cell_freeCell_ne _ _ _ _ hd]
    · rw [State.cell_settle, State.cell_cellEnd, State.used_freeCell]
    · rw [State.fld_settle, State.err_cellEnd _ _ _ _ ((State.fld_count _ _ _ _).trans err)]
      rfl
    · rw [State.ctr_settle _ _ _ _ (by decide), ended.ctrOf (by decide) id, State.ctr_count_self, began.ctrOf (by decide) id, State.ctr_begun]
  · next other =>
    have act := State.cellGo_reclaimErr c hb hr (by simpa using other)
    refine ⟨_, exec_main (c := .cellReclaim dt c) rfl (decide_eq_true hc) hm act ?_, fun d _ => ?_, ?_, ?_⟩
    · rw [(State.leaves_cellEnd _ _ _ _).2, began.2, State.begun_timeReq]
    · rw [State.cell_settle, State.cell_cellEnd]
    · rw [State.cell_settle, State.cell_cellEnd]
    · rw [State.fld_settle, State.err_cellEnd _ _ _ _ err]
      rfl

/-- A write of RESET to a pool's watermark (R266). -/
theorem poolWmReset_resets {n : Nat} (hn : n < 64) :
    ∃ t, exec (.poolWmReset dt n) s = .next t ∧ t.minFree n = (s.begun dt).poolFree n ∧ (s.begun dt).frame t { parts := [.pool] } := by
  obtain ⟨next, frame⟩ := exec_main_touches (c := .poolWmReset dt n) rfl (decide_eq_true hn) hm rfl (State.leaves_pool (s.begun dt) _ { parts := [.pool] } (by simp))
  refine ⟨_, next, ?_, frame⟩
  rw [State.minFree, State.settle_pool, State.wmReset, SMap.look_ins_self, Option.getD_some]

/-- A write of POP to the error log (R262). -/
theorem pmErrPop_pops :
    ∃ t, exec (.pmErrPop dt) s = .next t ∧ t.pool = { (s.begun dt).pool with log := (s.begun dt).pool.log.drop 1 } ∧
      (s.begun dt).frame t { parts := [.pool] } := by
  obtain ⟨next, frame⟩ := exec_main_touches (c := .pmErrPop dt) rfl rfl hm rfl (State.leaves_pool (s.begun dt) _ { parts := [.pool] } (by simp))
  exact ⟨_, next, State.settle_pool _ _ _, frame⟩

end

/-- Settles O13: each command by what its request or its one check makes of the cell, and the result registers by what shows it. -/
theorem cellCommands : Obligations.CellCommands :=
  ⟨fun _ _ _ hc hm hb => cellQuery_shows hm hb hc, fun _ _ _ _ _ hn hm hb => cellCmdAlloc_granted hm hb hn, fun _ _ _ _ hn hm hb => cellCmdAlloc_refused hm hb hn,
    fun _ _ _ _ _ hc hm hb => cellFree_outcome hm hb hc, fun _ _ _ _ _ hc hm hb => cellReclaim_outcome hm hb hc, fun _ _ _ hn hm => poolWmReset_resets hm hn,
    fun _ _ hm => pmErrPop_pops hm⟩

end Sys2Proof.Machine
end

/-! ### The walk of one release (R256, R258, R260, R261) -/

section
namespace Sys2Proof.Machine

/-! #### What the checks of releases keep -/

/-- A part of the pool manager that neither the release of a cell nor a release error writes. -/
structure ChecksKeep {α : Type} (φ : Pool → α) : Prop where
  freeCell : ∀ (s : State) (c fin : Nat) (pl : Pool), φ (s.freeCell c fin pl) = φ pl
  releaseErr : ∀ (s : State) (foreign : Bool) (claim first cyc c done : Nat) (pl : Pool), φ (s.releaseErr foreign claim first cyc c done pl) = φ pl

namespace ChecksKeep

/-- The parts beside the cells, the counts and the log. -/
theorem of_form {α : Type} {φ : Pool → α}
    (h : ∀ pl cells freed dirty cnts log ints, φ { pl with cells := cells, freed := freed, dirty := dirty, cnts := cnts, log := log, ints := ints } = φ pl) :
    ChecksKeep φ where
  freeCell s c fin pl := by
    obtain ⟨freed, dirty, cnts, form⟩ := s.freeCell_form fin c pl
    rw [form]
    exact h pl _ freed dirty cnts pl.log pl.ints
  releaseErr s foreign claim first cyc c done pl := by
    obtain ⟨log, ints, cnts, form⟩ := s.releaseErr_form claim first cyc c done pl foreign
    rw [form]
    exact h pl pl.cells pl.freed pl.dirty cnts log ints

theorem walks : ChecksKeep Pool.walks := of_form (fun _ _ _ _ _ _ _ => rfl)
theorem snap : ChecksKeep Pool.snap := of_form (fun _ _ _ _ _ _ _ => rfl)
theorem avCells : ChecksKeep Pool.avCells := of_form (fun _ _ _ _ _ _ _ => rfl)

section
variable {α : Type} {φ : Pool → α} (h : ChecksKeep φ) (s : State) (cyc : Nat)
include h

theorem walk (claim first fin k c done : Nat) (pl : Pool) : φ (s.walk claim first fin cyc k c done pl).2 = φ pl := by
  induction k generalizing c done pl with
  | zero => rfl
  | succ k ih =>
    rw [State.walk]
    split
    · exact h.releaseErr s _ _ _ _ _ _ pl
    · split
      · exact h.releaseErr s _ _ _ _ _ _ pl
      · exact (ih _ _ _).trans (h.freeCell s _ _ pl)

theorem walkOne (w : Walk) (pl : Pool) : φ (s.walkOne cyc w pl).2 = φ pl := by
  have kept := h.walk s cyc w.claim w.first w.ends (min 8 (w.n - w.done)) w.cell w.done pl
  unfold State.walkOne
  split
  · next out => rwa [out] at kept
  · next out => rwa [out] at kept

variable (hw : ∀ pl ws, φ { pl with walks := ws } = φ pl)
include hw

theorem walkAll (ws : List Walk) (pl : Pool) : φ (s.walkAll cyc ws pl) = φ pl := by
  induction ws generalizing pl with
  | nil => rfl
  | cons w ws ih =>
    rw [State.walkAll]
    split
    · exact (ih _).trans ((hw _ _).trans (h.walkOne s cyc w pl))
    · exact (ih _).trans (hw _ _)

theorem walkCycle (pl : Pool) : φ (s.walkCycle pl cyc) = φ pl := (h.walkAll s cyc hw _ _).trans (hw _ _)

theorem walkTo (pl : Pool) : φ (s.walkTo cyc pl) = φ pl := by
  unfold State.walkTo
  exact List.foldlRecOn (motive := fun q => φ q = φ pl) _ _ rfl (fun q kept k _ => (h.walkCycle s _ hw q).trans kept)

end

end ChecksKeep

/-- Anvil keeps the cells that it has taken as releases go on. -/
@[simp] theorem State.avCells_begun (s : State) (dt : Nat) : (s.begun dt).pool.avCells = s.pool.avCells := by
  have walked (t : State) (cyc : Nat) (pl : Pool) : (t.walkTo cyc pl).avCells = pl.avCells := ChecksKeep.avCells.walkTo t cyc (fun _ _ => rfl) pl
  unfold State.begun
  split
  · rfl
  · exact (walked _ _ _).trans (walked _ _ _)

/-! #### A pool manager without a release under way -/

theorem State.walkTo_idle (s : State) (cyc : Nat) {pl : Pool} (h : pl.walks = []) : s.walkTo cyc pl = pl := by
  unfold State.walkTo
  simp [h]

/-- Time brings it new samples alone. -/
theorem State.pool_begun_idle {s : State} (dt : Nat) (h : s.pool.walks = []) :
    ∃ m dirty snap, (s.begun dt).pool = { s.pool with min := m, dirty := dirty, snap := snap } := by
  unfold State.begun
  split
  · exact ⟨s.pool.min, s.pool.dirty, s.pool.snap, rfl⟩
  · have first := State.walkTo_idle (s.later dt) (s.later dt).cyc23 (pl := { s.pool with min := cycleMin s.cyc23 (s.later dt), dirty := [] }) h
    refine ⟨cycleMin s.cyc23 (s.later dt), [], s.pool.cells, ?_⟩
    unfold State.newCycle
    dsimp only
    rw [show (s.later dt).pool = s.pool from rfl, first]
    exact State.walkTo_idle _ _ h

/-! #### What checks have made of the pool manager -/

/-- The count of a counter that releases have made and that `State.ctrs` does not hold yet. -/
def Pool.cnt (pl : Pool) (a : Nat) : Nat := SMap.get (fun _ => 0) pl.cnts a

theorem Pool.cnt_tally_self (pl : Pool) (a : Nat) : (pl.tally a).cnt a = pl.cnt a + 1 := by
  rw [Pool.cnt, Pool.tally, SMap.get, SMap.look_ins_self, Option.getD_some, Pool.cnt]
theorem Pool.cnt_tally_ne (pl : Pool) {a b : Nat} (h : b ≠ a) : (pl.tally a).cnt b = pl.cnt b := by
  rw [Pool.cnt, Pool.tally, SMap.get, SMap.look_ins_ne _ _ _ _ h]
  rfl

/-- The counter of FOREIGN_FREE. -/
def foreignCtr : Nat := 0x2500808

theorem foreignCtr_ne_pool {n o : Nat} (h : o % 32 ≠ 8) : foreignCtr ≠ Ctr.pool n o := by
  simp only [foreignCtr, Ctr.pool]
  omega

theorem State.foreign_freeCell (s : State) (c fin : Nat) (pl : Pool) : (s.freeCell c fin pl).cnt foreignCtr = pl.cnt foreignCtr := by
  unfold State.freeCell
  dsimp only
  split
  · rw [Pool.cnt_tally_ne _ (foreignCtr_ne_pool (by decide))]
    unfold Pool.touch
    split <;> rfl
  · rfl

/-- FOREIGN_FREE is counted and raised (R261). -/
theorem State.foreign_releaseErr (s : State) (claim first cyc c done : Nat) (pl : Pool) :
    (s.releaseErr true claim first cyc c done pl).cnt foreignCtr = pl.cnt foreignCtr + 1 ∧
      bitOf (s.releaseErr true claim first cyc c done pl).ints Fld.CB_PM_INT_STATUS_FOREIGN_FREE.lo = true := by
  unfold State.releaseErr
  generalize s.poolOf c = pool
  extract_lets _ pl1 pl2
  have one : pl1.cnt foreignCtr = pl.cnt foreignCtr + 1 := pl.cnt_tally_self foreignCtr
  have raised : bitOf pl1.ints Fld.CB_PM_INT_STATUS_FOREIGN_FREE.lo = true := by simp [pl1, Pool.rouse]
  obtain ⟨cnt, ints⟩ : pl2.cnt foreignCtr = pl1.cnt foreignCtr ∧ pl2.ints = pl1.ints := by
    cases pool with
    | none => exact ⟨rfl, rfl⟩
    | some n => exact ⟨Pool.cnt_tally_ne _ (foreignCtr_ne_pool (by decide)), rfl⟩
  split
  · exact ⟨cnt.trans one, by rw [← ints] at raised; exact raised⟩
  · refine ⟨(Pool.cnt_tally_ne pl2 (by decide)).trans (cnt.trans one), ?_⟩
    rw [Pool.rouse, bitOf_or, show (pl2.tally 0x2500810).ints = pl1.ints from ints, raised, Bool.true_or]

/-- A pool manager as a release has left it that found `pl0`: a list of cells freed and no other, and FOREIGN_FREE counted and raised or not. -/
structure Pool.Checked (pl0 pl : Pool) (freed : List Nat) (foreign : Bool) : Prop where
  gone : ∀ c ∈ freed, (pl.cell c).used = false
  rest : ∀ c, c ∉ freed → pl.cell c = pl0.cell c
  errs : pl.cnt foreignCtr = pl0.cnt foreignCtr + b2n foreign
  raised : foreign = true → bitOf pl.ints Fld.CB_PM_INT_STATUS_FOREIGN_FREE.lo = true

namespace Pool.Checked

variable {pl0 pl pl' : Pool} {freed : List Nat} {foreign : Bool}

theorem refl (pl0 : Pool) : Checked pl0 pl0 [] false := ⟨fun _ h => absurd h List.not_mem_nil, fun _ _ => rfl, rfl, fun h => absurd h (by decide)⟩

theorem congr (h : Checked pl0 pl freed foreign) (hc : pl'.cells = pl.cells) (hn : pl'.cnts = pl.cnts) (hi : pl'.ints = pl.ints) :
    Checked pl0 pl' freed foreign := by
  have cell (c : Nat) : pl'.cell c = pl.cell c := by rw [Pool.cell, hc, Pool.cell]
  exact ⟨fun c m => by rw [cell, h.gone c m], fun c m => by rw [cell, h.rest c m], by rw [Pool.cnt, hn, ← Pool.cnt, h.errs], fun f => by rw [hi, h.raised f]⟩

theorem freeCell (h : Checked pl0 pl freed false) (s : State) (c fin : Nat) : Checked pl0 (s.freeCell c fin pl) (freed ++ [c]) false := by
  refine ⟨fun d m => ?_, fun d m => ?_, (s.foreign_freeCell c fin pl).trans h.errs, fun f => absurd f (by decide)⟩
  · by_cases e : d = c
    · rw [e, State.used_freeCell]
    · rw [State.cell_freeCell_ne _ _ _ _ e]
      exact h.gone d (by simpa [e] using m)
  · obtain ⟨out, ne⟩ : d ∉ freed ∧ d ≠ c := by simpa using m
    rw [State.cell_freeCell_ne _ _ _ _ ne, h.rest d out]

theorem releaseErr (h : Checked pl0 pl freed false) (s : State) (claim first cyc c done : Nat) :
    Checked pl0 (s.releaseErr true claim first cyc c done pl) freed true := by
  obtain ⟨counted, raised⟩ := s.foreign_releaseErr claim first cyc c done pl
  exact ⟨fun d m => by rw [State.cell_releaseErr, h.gone d m], fun d m => by rw [State.cell_releaseErr, h.rest d m],
    by rw [counted, h.errs]; rfl, fun _ => raised⟩

end Pool.Checked

/-! #### The checks of a chain -/

/-- The cells that a release checks: its own, and the foreign one at which it stops. -/
def chainCells (cs : List Nat) (bad : Option Nat) : List Nat := cs ++ bad.toList

/-- A release of `n` cells with the claim `o` finds a chain of USED cells of its own, and behind them either none that it has to check, or one of another
owner. -/
structure Pool.Chain (pools : Nat → Option Nat) (pl0 : Pool) (o n : Nat) (cs : List Nat) (bad : Option Nat) : Prop where
  nonempty : chainCells cs bad ≠ []
  fits : (chainCells cs bad).length ≤ n
  whole : bad = none → n = cs.length
  nodup : cs.Nodup
  own : ∀ c ∈ cs, (pl0.cell c).used = true ∧ (pl0.cell c).owner = o ∧ (pools c).isSome = true
  foreign : ∀ x, bad = some x → (pl0.cell x).used = true ∧ (pl0.cell x).owner ≠ o ∧ (pools x).isSome = true
  links : ∀ k, k + 1 < (chainCells cs bad).length → (pl0.cell ((chainCells cs bad).getD k 0)).link = (chainCells cs bad).getD (k + 1) 0

/-- A walk of the release that begins in the cycle `began`, before its `k`-th check. -/
def chainWalk (o n began : Nat) (cs : List Nat) (bad : Option Nat) (k : Nat) : Walk :=
  ⟨o, (chainCells cs bad).getD 0 0, n, began, (chainCells cs bad).getD k 0, k⟩

theorem chainCells_length (cs : List Nat) (bad : Option Nat) : (chainCells cs bad).length = cs.length + bad.toList.length := List.length_append
theorem chainCells_getD {cs : List Nat} {k : Nat} (bad : Option Nat) (h : k < cs.length) : (chainCells cs bad).getD k 0 = cs[k] := by
  rw [chainCells, List.getD_append _ _ _ _ h, List.getD_eq_getElem _ _ h]

section
variable {pools : Nat → Option Nat} {pl0 : Pool} {o n : Nat} {cs : List Nat} {bad : Option Nat} (h : pl0.Chain pools o n cs bad)
include h

/-- The foreign cell is none of the release's own. -/
theorem Pool.Chain.apart {x : Nat} (hx : bad = some x) : x ∉ cs := by
  intro m
  obtain ⟨-, owner, -⟩ := h.own x m
  obtain ⟨-, other, -⟩ := h.foreign x hx
  exact other owner

variable {s : State} (hp : s.poolOf = pools) {pl : Pool} (first fin cyc i j m done : Nat)
include hp

/-- Checks of the release's own cells free them, and come to the next of the chain. -/
theorem Pool.Chain.walk_own (hc : pl0.Checked pl (cs.take i) false) (hj : i + j ≤ cs.length) :
    ∃ e pl', s.walk o first fin cyc (j + m) ((chainCells cs bad).getD i 0) done pl = s.walk o first fin cyc m e (done + j) pl' ∧
      pl0.Checked pl' (cs.take (i + j)) false ∧ pl'.snap = pl.snap ∧ (i + j < (chainCells cs bad).length → e = (chainCells cs bad).getD (i + j) 0) := by
  induction j generalizing m with
  | zero => exact ⟨_, pl, by rw [Nat.zero_add]; rfl, hc, rfl, fun _ => rfl⟩
  | succ j ih =>
    have inside : i + j < cs.length := by omega
    have longer : i + j < (chainCells cs bad).length := by rw [chainCells_length]; omega
    obtain ⟨e, pl', walked, freed, sampled, next⟩ := ih (m + 1) (by omega)
    have cell : e = cs[i + j] := (next longer).trans (chainCells_getD bad inside)
    have fresh : e ∉ cs.take (i + j) := by
      intro before
      refine List.disjoint_take_drop h.nodup (Nat.le_refl (i + j)) before ?_
      rw [List.drop_eq_getElem_cons inside, cell]
      exact List.mem_cons_self
    have same := freed.rest e fresh
    obtain ⟨used, owner, inPool⟩ := h.own e (cell ▸ List.getElem_mem inside)
    refine ⟨(pl'.cell e).link, s.freeCell e fin pl', ?_, ?_, (ChecksKeep.snap.freeCell s e fin pl').trans sampled, fun more => ?_⟩
    · rw [show j + 1 + m = j + (m + 1) by omega, walked,
        State.walk_frees s first fin cyc m (done + j) (by rw [same, used]) (by rw [hp, inPool]) (by rw [same, owner])]
      rfl
    · have freed' := freed.freeCell s e fin
      rwa [cell, ← List.take_succ_eq_append_getElem inside, ← cell] at freed'
    · rw [same, next longer, h.links (i + j) more]
      rfl

end

/-! #### The cycles of a walk -/

section
variable {s : State} {cyc : Nat} {w : Walk} {pl pl' : Pool}

theorem State.walkOne_goes {c : Nat} (h : s.walk w.claim w.first w.ends cyc (min 8 (w.n - w.done)) w.cell w.done pl = (some c, pl')) :
    s.walkOne cyc w pl = (if w.done + 8 < w.n then some { w with cell := c, done := w.done + 8 } else none, pl') := by
  rw [State.walkOne, h]
theorem State.walkOne_stops (h : s.walk w.claim w.first w.ends cyc (min 8 (w.n - w.done)) w.cell w.done pl = (none, pl')) :
    s.walkOne cyc w pl = (none, pl') := by
  rw [State.walkOne, h]

end

/-- The only walk under way, due in a cycle, makes its checks. -/
theorem State.walkCycle_due (s : State) {cyc : Nat} {w : Walk} {pl : Pool} (hw : pl.walks = [w]) (hn : w.next = cyc) :
    s.walkCycle pl cyc = { (s.walkOne cyc w { pl with walks := [] }).2 with walks := (s.walkOne cyc w { pl with walks := [] }).1.toList } := by
  have kept := ChecksKeep.walks.walkOne s cyc w { pl with walks := [] }
  rw [State.walkCycle, hw, State.walkAll, if_pos hn, State.walkAll]
  dsimp only
  rw [kept]
  rfl

theorem chainWalk_next (o n : Nat) {began c : Nat} (cs : List Nat) (bad : Option Nat) (h : began ≤ c) :
    (chainWalk o n began cs bad (8 * (c - began))).next = c := by
  simp only [chainWalk, Walk.next]
  omega

/-- A release on its way at the start of a cycle: it has its next checks to make, or has come to its end. -/
inductive Pool.Stage (pl0 : Pool) (o n began : Nat) (cs : List Nat) (bad : Option Nat) (c : Nat) (pl : Pool) : Prop
  | going (left : 8 * (c - began) < (chainCells cs bad).length) (walks : pl.walks = [chainWalk o n began cs bad (8 * (c - began))])
      (checked : pl0.Checked pl (cs.take (8 * (c - began))) false)
  | ended (left : (chainCells cs bad).length ≤ 8 * (c - began)) (walks : pl.walks = []) (checked : pl0.Checked pl cs bad.isSome)

namespace Pool.Stage

variable {pl0 pl pl' : Pool} {o n began c : Nat} {cs : List Nat} {bad : Option Nat}

theorem congr (h : Stage pl0 o n began cs bad c pl) (hw : pl'.walks = pl.walks) (hc : pl'.cells = pl.cells) (hn : pl'.cnts = pl.cnts)
    (hi : pl'.ints = pl.ints) : Stage pl0 o n began cs bad c pl' := by
  cases h with
  | going left walks checked => exact .going left (hw.trans walks) (checked.congr hc hn hi)
  | ended left walks checked => exact .ended left (hw.trans walks) (checked.congr hc hn hi)

/-- Before its first cycle a release waits. -/
theorem waits (h : Stage pl0 o n began cs bad c pl) {c' : Nat} (hc : c ≤ began) (hc' : c' ≤ began) : Stage pl0 o n began cs bad c' pl := by
  have same : 8 * (c' - began) = 8 * (c - began) := by omega
  cases h with
  | going left walks checked => exact .going (by rwa [same]) (by rwa [same]) (by rwa [same])
  | ended left walks checked => exact .ended (by rwa [same]) walks checked

/-- Behind its last cycle it is over. -/
theorem finished (h : Stage pl0 o n began cs bad c pl) (hl : (chainCells cs bad).length ≤ 8 * (c - began)) : pl.walks = [] ∧ pl0.Checked pl cs bad.isSome := by
  cases h with
  | going left walks checked => exact absurd left (by omega)
  | ended left walks checked => exact ⟨walks, checked⟩

/-- The foreign cell keeps its state. -/
theorem cell_foreign {pools : Nat → Option Nat} (hch : pl0.Chain pools o n cs bad) (h : Stage pl0 o n began cs bad c pl) {x : Nat} (hx : bad = some x) :
    pl.cell x = pl0.cell x := by
  cases h with
  | going left walks checked => exact checked.rest x (fun m => hch.apart hx (List.mem_of_mem_take m))
  | ended left walks checked => exact checked.rest x (hch.apart hx)

end Pool.Stage

theorem chainCells_length_some {cs : List Nat} {bad : Option Nat} {x : Nat} (hx : bad = some x) : (chainCells cs bad).length = cs.length + 1 := by
  rw [chainCells_length, hx]
  rfl
theorem chainCells_length_none {cs : List Nat} {bad : Option Nat} (hx : bad = none) : (chainCells cs bad).length = cs.length := by
  rw [chainCells_length, hx]
  rfl

/-- A cell that was USED at the start of the present cycle has not been granted in it. -/
theorem State.grantedNow_used {s : State} {claim cyc x : Nat} {pl : Pool} (hx : cyc = s.cyc23 → (SMap.get (fun _ => CellSt.reset) pl.snap x).used = true) :
    s.grantedNow claim cyc x pl = false := by
  rw [State.grantedNow]
  by_cases now : cyc = s.cyc23
  · rw [hx now, Bool.not_true, Bool.and_false, Bool.false_and]
  · rw [decide_eq_false now, Bool.false_and, Bool.false_and]

section
variable {pools : Nat → Option Nat} {pl0 : Pool} {o n began : Nat} {cs : List Nat} {bad : Option Nat} (h : pl0.Chain pools o n cs bad)
include h

/-- Behind a cell of its own a release that goes on has one more to check. -/
theorem Pool.Chain.more_left {i : Nat} (hi : i ≤ cs.length) (more : i < n) : i < (chainCells cs bad).length := by
  cases hx : bad with
  | none =>
    have whole := h.whole hx
    rw [chainCells_length_none rfl]
    omega
  | some x =>
    rw [chainCells_length_some rfl]
    omega

section
variable {s : State} (hp : s.poolOf = pools) {pl : Pool} {cyc k : Nat} (hc : pl0.Checked pl (cs.take k) false)
include hp hc

/-- The checks of a cycle that come to no foreign cell. -/
theorem walkOne_own (hj : k + min 8 (n - k) ≤ cs.length) :
    ∃ pl', s.walkOne cyc (chainWalk o n began cs bad k) pl = (if k + 8 < n then some (chainWalk o n began cs bad (k + 8)) else none, pl') ∧
      pl0.Checked pl' (cs.take (k + min 8 (n - k))) false := by
  obtain ⟨e, pl', walked, freed, -, next⟩ := h.walk_own hp ((chainCells cs bad).getD 0 0) (walkEnd began n) cyc k (min 8 (n - k)) 0 k hc hj
  refine ⟨pl', (State.walkOne_goes (w := chainWalk o n began cs bad k) walked).trans (congrArg (·, pl') (ite_congr rfl (fun more => ?_) (fun _ => rfl))), freed⟩
  have more : k + 8 < n := more
  have eight : min 8 (n - k) = 8 := by omega
  rw [eight] at next hj
  rw [next (h.more_left hj more)]
  rfl

/-- The checks of a cycle that come to the foreign cell. -/
theorem walkOne_foreign {x : Nat} (hx : bad = some x) (hk : k ≤ cs.length) (hj : cs.length < k + min 8 (n - k))
    (hg : ∀ pl', pl'.snap = pl.snap → s.grantedNow o cyc x pl' = false) :
    ∃ pl', s.walkOne cyc (chainWalk o n began cs bad k) pl = (none, pl') ∧ pl0.Checked pl' cs true := by
  obtain ⟨e, pl', walked, freed, sampled, next⟩ :=
    h.walk_own hp ((chainCells cs bad).getD 0 0) (walkEnd began n) cyc k (cs.length - k) (k + min 8 (n - k) - cs.length - 1 + 1) k hc (by omega)
  rw [show k + (cs.length - k) = cs.length by omega] at freed next
  rw [List.take_length] at freed
  obtain rfl : e = x := by
    rw [next (by rw [chainCells_length_some hx]; omega), hx]
    simp [chainCells]
  obtain ⟨used, other, inPool⟩ := h.foreign e hx
  have same := freed.rest e (h.apart hx)
  refine ⟨_, State.walkOne_stops (w := chainWalk o n began cs bad k) ?_, freed.releaseErr s o ((chainCells cs bad).getD 0 0) cyc e (k + (cs.length - k))⟩
  rw [State.walk_foreign s _ _ _ _ _ (by rw [same, used]) (by rw [hp, inPool]) (hg pl' sampled) (by rwa [same]),
    show cs.length - k + (k + min 8 (n - k) - cs.length - 1 + 1) = min 8 (n - k) by omega] at walked
  exact walked

end

/-- A cycle brings a release one step on (R258, R261). -/
theorem stage_walkCycle {s : State} (hp : s.poolOf = pools) {pl : Pool} {c : Nat} (hs : pl0.Stage o n began cs bad c pl) (hc : began ≤ c)
    (hx : ∀ x, bad = some x → c = s.cyc23 → (SMap.get (fun _ => CellSt.reset) pl.snap x).used = true) :
    pl0.Stage o n began cs bad (c + 1) (s.walkCycle pl c) := by
  have later : 8 * (c + 1 - began) = 8 * (c - began) + 8 := by omega
  cases hs with
  | ended left walks checked =>
    have idle : s.walkCycle pl c = pl := by rw [State.walkCycle, walks, State.walkAll, ← walks]
    rw [idle]
    exact .ended (by omega) walks checked
  | going left walks checked =>
    have fits := h.fits
    have now : pl0.Checked { pl with walks := [] } (cs.take (8 * (c - began))) false := checked.congr rfl rfl rfl
    rw [s.walkCycle_due walks (chainWalk_next o n cs bad hc)]
    rcases Nat.lt_or_ge cs.length (8 * (c - began) + min 8 (n - 8 * (c - began))) with beyond | own
    · cases hbad : bad with
      | none =>
        have whole := h.whole hbad
        rw [chainCells_length_none hbad] at left
        omega
      | some x =>
        rw [chainCells_length_some hbad] at left
        obtain ⟨pl', out, freed⟩ := walkOne_foreign h (began := began) (cyc := c) hp now hbad (by omega) beyond
          (fun pl' same => State.grantedNow_used (by rw [same]; exact hx x hbad))
        rw [← hbad, out]
        exact .ended (by rw [chainCells_length_some hbad]; omega) rfl (by rw [hbad]; exact freed.congr rfl rfl rfl)
    · obtain ⟨pl', out, freed⟩ := walkOne_own h (began := began) (cyc := c) hp now own
      rw [out]
      by_cases more : 8 * (c - began) + 8 < n
      · rw [if_pos more]
        rw [Nat.min_eq_left (by omega)] at freed own
        exact .going (by rw [later]; exact h.more_left own more) (by rw [later]; rfl) (by rw [later]; exact freed.congr rfl rfl rfl)
      · rw [if_neg more]
        have noForeign : bad = none := by
          cases hbad : bad with
          | none => rfl
          | some x => rw [chainCells_length_some hbad] at fits; omega
        rw [chainCells_length_none noForeign] at fits left
        rw [List.take_of_length_le (by omega)] at freed
        exact .ended (by rw [chainCells_length_none noForeign]; omega) rfl (by rw [noForeign]; exact freed.congr rfl rfl rfl)

/-- So do further cycles. -/
theorem stage_cycles {s : State} (hp : s.poolOf = pools) {pl : Pool} {c : Nat} (hs : pl0.Stage o n began cs bad c pl) (hc : began ≤ c) (m : Nat)
    (hx : ∀ x, bad = some x → s.cyc23 < c + m → (SMap.get (fun _ => CellSt.reset) pl.snap x).used = true) :
    pl0.Stage o n began cs bad (c + m) ((List.range m).foldl (fun pl k => s.walkCycle pl (c + k)) pl) ∧
      ((List.range m).foldl (fun pl k => s.walkCycle pl (c + k)) pl).snap = pl.snap := by
  induction m with
  | zero => exact ⟨hs, rfl⟩
  | succ m ih =>
    obtain ⟨stage, sampled⟩ := ih (fun x hbad past => hx x hbad (by omega))
    rw [List.range_succ, List.foldl_append, List.foldl_cons, List.foldl_nil]
    refine ⟨stage_walkCycle h hp stage (hc.trans (Nat.le_add_right c m)) (fun x hbad now => ?_),
      (ChecksKeep.snap.walkCycle s _ (fun _ _ => rfl) _).trans sampled⟩
    rw [sampled]
    exact hx x hbad (Nat.lt_of_le_of_lt now.ge (Nat.lt_add_one (c + m)))

/-- The walk up to a cycle brings it on to that cycle. -/
theorem stage_walkTo {s : State} (hp : s.poolOf = pools) {pl : Pool} {c c' : Nat} (hs : pl0.Stage o n began cs bad c pl) (hc : c ≤ c')
    (hx : ∀ x, bad = some x → s.cyc23 < c' → (SMap.get (fun _ => CellSt.reset) pl.snap x).used = true) :
    pl0.Stage o n began cs bad c' (s.walkTo c' pl) := by
  have hs' := hs
  cases hs with
  | ended left walks checked =>
    rw [s.walkTo_idle c' walks]
    exact .ended (by omega) walks checked
  | going left walks checked =>
    have fits := h.fits
    unfold State.walkTo
    rw [walks]
    simp only [List.foldl_cons, List.foldl_nil]
    generalize hw : chainWalk o n began cs bad (8 * (c - began)) = w
    have due : w.next = began + (c - began) := by rw [← hw]; simp only [chainWalk, Walk.next]; omega
    have ends : w.ends = began + (n + 7) / 8 - 1 := by rw [← hw]; rfl
    rcases Nat.lt_or_ge began c' with begun | waiting
    · rw [show min c' w.next = began + (c - began) by omega]
      have started : pl0.Stage o n began cs bad (began + (c - began)) pl := by
        rcases Nat.le_total began c with within | before
        · rwa [Nat.add_sub_cancel' within]
        · exact hs'.waits before (by omega)
      obtain ⟨stage, -⟩ := stage_cycles h hp started (by omega) (min c' (max 0 (max w.next w.ends + 1)) - (began + (c - began)))
        (fun x hbad now => hx x hbad (by omega))
      rcases Nat.le_total c' (max 0 (max w.next w.ends + 1)) with short | past
      · rw [Nat.min_eq_left short] at stage ⊢
        rwa [show began + (c - began) + (c' - (began + (c - began))) = c' by omega] at stage
      · rw [Nat.min_eq_right past] at stage ⊢
        obtain ⟨idle, freed⟩ := stage.finished (by omega)
        exact .ended (by omega) idle freed
    · rw [show min c' (max 0 (max w.next w.ends + 1)) - min c' w.next = 0 by omega]
      exact hs'.waits (by omega) waiting

end

/-! #### A release under time -/

section
variable {pools : Nat → Option Nat} {pl0 : Pool} {o n began : Nat} {cs : List Nat} {bad : Option Nat} (h : pl0.Chain pools o n cs bad)
include h

theorem Pool.Chain.used_foreign {pl : Pool} {c : Nat} (hs : pl0.Stage o n began cs bad c pl) {x : Nat} (hx : bad = some x) : (pl.cell x).used = true := by
  rw [hs.cell_foreign h hx]
  exact (h.foreign x hx).1

/-- Time brings a release on to its cycle (R258). -/
theorem stage_begun {t : State} (hp : t.poolOf = pools) (d : Nat) (hs : pl0.Stage o n began cs bad (t.cyc23 + 1) t.pool) :
    pl0.Stage o n began cs bad ((t.begun d).cyc23 + 1) (t.begun d).pool := by
  have forward : t.cyc23 ≤ (t.later d).cyc23 := Nat.div_le_div_right (Nat.le_add_right t.now d)
  have pools' : (t.later d).poolOf = pools := hp
  unfold State.begun
  split
  · next same =>
    rw [same]
    exact hs
  · next new =>
    have first : pl0.Stage o n began cs bad (t.later d).cyc23
        ((t.later d).walkTo (t.later d).cyc23 { t.pool with min := cycleMin t.cyc23 (t.later d), dirty := [] }) :=
      stage_walkTo h pools' (hs.congr rfl rfl rfl rfl) (by omega) (fun _ _ past => absurd past (Nat.lt_irrefl _))
    exact stage_walkTo h pools' (first.congr rfl rfl rfl rfl) (Nat.le_add_right _ 1) (fun x hx _ => h.used_foreign first hx)

/-- A release begins behind the checks of its cycle that came before it (R260). -/
theorem stage_release {s : State} (hp : s.poolOf = pools) (hc : pl0.Checked s.pool [] false) (hw : s.pool.walks = []) (rank : Nat)
    (hx : ∀ x, bad = some x → (SMap.get (fun _ => CellSt.reset) s.pool.snap x).used = true) :
    pl0.Stage o n (s.relTurn rank).1 cs bad (s.cyc23 + 1) (s.release rank o ((chainCells cs bad).getD 0 0) n).pool := by
  have nonempty : 0 < (chainCells cs bad).length := List.length_pos_iff.mpr h.nonempty
  refine stage_walkTo h hp (.going (c := 0) (by simpa using nonempty) ?_ ?_) (Nat.zero_le _) (fun x hbad _ => hx x hbad)
  · simp [hw, chainWalk]
  · rw [Nat.zero_sub, Nat.mul_zero, List.take_zero]
    exact hc.congr rfl rfl rfl

end

theorem cellRelease_wellFormed {dt o first n : Nat} (ho : o < 64) (hf : first < 524288) (h1 : 1 ≤ n) (hn : n ≤ 40) :
    (Instr.cellRelease dt o first n).wellFormed = true := by
  rw [Instr.wellFormed, decide_eq_true ho, decide_eq_true hf, decide_eq_true h1, decide_eq_true hn]
  rfl

theorem State.mainUp_congr {s t : State} (h : t.isl = s.isl) : t.mainUp = s.mainUp := by rw [State.mainUp, State.aonUp, h, State.mainUp, State.aonUp]

/-- CELL_RELEASE of a chain, and CELL_RELEASE_DONE in the cycle of its last checks: nothing but the pool manager has changed, and that as the checks of the
chain leave it (R258 to R261). -/
theorem release_runs {s : State} {dt d o n : Nat} {cs : List Nat} {bad : Option Nat} (ho : o < 64) (hn : n ≤ 40) (hm : s.mainUp = true) (hw : s.pool.walks = [])
    (hf : (chainCells cs bad).getD 0 0 < 524288) (h : s.pool.Chain s.poolOf o n cs bad)
    (hx : ∀ x, bad = some x → (SMap.get (fun _ => CellSt.reset) (s.begun dt).pool.snap x).used = true)
    (ht : ((s.begun dt).relTurn (claimRank o)).1 + (n + 7) / 8 - 1 ≤ (s.now + dt + d) / 50) :
    ∃ t u, exec (.cellRelease dt o ((chainCells cs bad).getD 0 0) n) s = .next t ∧ (s.begun dt).frame t { parts := [.pool] } ∧
      exec (.cellReleaseDone d) t = .next u ∧ u.pool.walks = [] ∧ s.pool.Checked u.pool cs bad.isSome ∧
      (∀ a, u.reg a = s.reg a) ∧ (∀ a, a ≠ Ctr.hi 0x20 → u.ctr a = s.ctr a) := by
  have nonempty : 0 < (chainCells cs bad).length := List.length_pos_iff.mpr h.nonempty
  have fits := h.fits
  obtain ⟨m, dirty, snap, idle⟩ := State.pool_begun_idle dt hw
  have started : s.pool.Stage o n ((s.begun dt).relTurn (claimRank o)).1 cs bad ((s.begun dt).cyc23 + 1)
      ((s.begun dt).releaseStart o ((chainCells cs bad).getD 0 0) n).pool :=
    stage_release h (State.poolOf_begun s dt) (idle ▸ (Pool.Checked.refl s.pool).congr rfl rfl rfl) (idle ▸ hw) _ hx
  have left : (s.begun dt).leaves ((s.begun dt).releaseStart o ((chainCells cs bad).getD 0 0) n) { parts := [.pool] } :=
    State.leaves_release _ _ _ _ _ _ (by simp)
  generalize hg : (s.begun dt).releaseStart o ((chainCells cs bad).getD 0 0) n = g at left started
  obtain ⟨next, frame⟩ := exec_main_touches (c := .cellRelease dt o ((chainCells cs bad).getD 0 0) n) rfl (cellRelease_wellFormed ho hf (by omega) hn) hm hg left
  have up : (g.settle s (s.begun dt).time).mainUp = true := by
    rw [State.mainUp_congr (State.settle_isl g s _), State.mainUp_congr (left.part (k := .isl) (by simp)), State.mainUp_begun, hm]
  have time : (g.settle s (s.begun dt).time).cyc23 = (s.begun dt).cyc23 := rfl
  have pools : (g.settle s (s.begun dt).time).poolOf = s.poolOf := State.poolOf_congr (fun k _ => by rw [State.reg_settle, left.reg (by simp), State.reg_begun])
  have stage := stage_begun h pools d (by rw [time, State.settle_pool]; exact started)
  have late : ((g.settle s (s.begun dt).time).begun d).cyc23 = (s.now + dt + d) / 50 := by rw [State.cyc23, State.now_begun, State.now_settle_begun]
  rw [late] at stage
  obtain ⟨rested, freed⟩ := stage.finished (by omega)
  refine ⟨_, _, next, frame, exec_main (c := .cellReleaseDone d) rfl rfl up rfl (State.begun_timeReq _ d), ?_, ?_, fun a => ?_, fun a ha => ?_⟩
  · rw [State.settle_pool, rested]
  · rw [State.settle_pool]
    exact freed
  · rw [State.reg_settle, State.reg_begun, State.reg_settle, left.reg (by simp), State.reg_begun]
  · rw [State.ctr_settle _ _ _ _ ha, State.ctr_begun, State.ctr_settle _ _ _ _ ha, left.ctrOf ha (by simp), State.ctr_begun]

/-- A release of a chain of its own cells (R258). -/
theorem release_own {s : State} {dt d o : Nat} {cs : List Nat} (ho : o < 64) (h1 : 1 ≤ cs.length) (hn : cs.length ≤ 40) (hm : s.mainUp = true)
    (hw : s.pool.walks = []) (hf : cs.headD 0 < 524288) (nodup : cs.Nodup)
    (own : ∀ c ∈ cs, (s.cell c).used = true ∧ (s.cell c).owner = o ∧ (s.poolOf c).isSome = true)
    (links : ∀ k, k + 1 < cs.length → (s.cell (cs.getD k 0)).link = cs.getD (k + 1) 0)
    (ht : ((s.begun dt).relTurn (claimRank o)).1 + (cs.length + 7) / 8 - 1 ≤ (s.now + dt + d) / 50) :
    ∃ t u, exec (.cellRelease dt o (cs.headD 0) cs.length) s = .next t ∧ (s.begun dt).frame t { parts := [.pool] } ∧
      exec (.cellReleaseDone d) t = .next u ∧ u.pool.walks = [] ∧ (∀ c ∈ cs, (u.cell c).used = false) ∧
      (∀ c, c ∉ cs → u.cell c = s.cell c) ∧ (∀ a, u.reg a = s.reg a) := by
  have cells : chainCells cs none = cs := List.append_nil cs
  have head : (chainCells cs none).getD 0 0 = cs.headD 0 := by rw [cells]; cases cs <;> rfl
  have chain : s.pool.Chain s.poolOf o cs.length cs none :=
    ⟨by rw [cells]; exact List.length_pos_iff.mp h1, by rw [cells], fun _ => rfl, nodup, own, fun x hx => absurd hx (by simp), by rw [cells]; exact links⟩
  obtain ⟨t, u, released, frame, done, rested, freed, regs, -⟩ :=
    release_runs (dt := dt) (d := d) ho hn hm hw (by rwa [head]) chain (fun x hx => absurd hx (by simp)) ht
  rw [head] at released
  exact ⟨t, u, released, frame, done, rested, freed.gone, freed.rest, regs⟩

/-- A release that comes to a cell of another owner (R261). -/
theorem release_foreign {s : State} {dt d o n x : Nat} {cs : List Nat} (ho : o < 64) (h1 : cs.length < n) (hn : n ≤ 40) (hm : s.mainUp = true)
    (hw : s.pool.walks = []) (hf : (cs ++ [x]).headD 0 < 524288) (nodup : cs.Nodup)
    (own : ∀ c ∈ cs, (s.cell c).used = true ∧ (s.cell c).owner = o ∧ (s.poolOf c).isSome = true)
    (links : ∀ k, k < cs.length → (s.cell (cs.getD k 0)).link = (cs ++ [x]).getD (k + 1) 0)
    (used : (s.cell x).used = true) (other : (s.cell x).owner ≠ o) (inPool : (s.poolOf x).isSome = true)
    (hx : (SMap.get (fun _ => CellSt.reset) (s.begun dt).pool.snap x).used = true)
    (ht : ((s.begun dt).relTurn (claimRank o)).1 + (n + 7) / 8 - 1 ≤ (s.now + dt + d) / 50) :
    ∃ t u, exec (.cellRelease dt o ((cs ++ [x]).headD 0) n) s = .next t ∧ exec (.cellReleaseDone d) t = .next u ∧ u.pool.walks = [] ∧
      (∀ c ∈ cs, (u.cell c).used = false) ∧ (∀ c, c ∉ cs → u.cell c = s.cell c) ∧
      u.ctrNow 0x2500808 = (s.ctrNow 0x2500808 + 1) % 2 ^ 64 ∧ bitOf (u.intNow Reg.CB_PM_INT_STATUS).toNat Fld.CB_PM_INT_STATUS_FOREIGN_FREE.lo = true := by
  have cells : chainCells cs (some x) = cs ++ [x] := rfl
  have head : (chainCells cs (some x)).getD 0 0 = (cs ++ [x]).headD 0 := by rw [cells]; cases cs <;> rfl
  have chain : s.pool.Chain s.poolOf o n cs (some x) := by
    refine ⟨by simp [cells], by rw [cells, List.length_append]; exact h1, fun e => absurd e (by simp), nodup, own, fun y e => ?_, fun k hk => ?_⟩
    · obtain rfl : x = y := by simpa using e
      exact ⟨used, other, inPool⟩
    · rw [cells, List.length_append, List.length_singleton] at hk
      rw [cells, List.getD_append _ _ _ _ (by omega)]
      exact links k (by omega)
  obtain ⟨t, u, released, frame, done, rested, freed, regs, ctrs⟩ :=
    release_runs (dt := dt) (d := d) ho hn hm hw (by rwa [head]) chain (fun y e => by rwa [← Option.some.inj e]) ht
  rw [head] at released
  refine ⟨t, u, released, done, rested, freed.gone, freed.rest, ?_, ?_⟩
  · have counted : SMap.get (fun _ => 0) u.pool.cnts 0x2500808 = SMap.get (fun _ => 0) s.pool.cnts 0x2500808 + 1 := freed.errs
    rw [State.ctrNow, if_neg (by decide), State.ctrNow, if_neg (by decide), ctrs _ (by decide), counted]
    omega
  · rw [State.intNow, if_pos rfl, BitVec.toNat_or, w32_toNat, bitOf_or, bitOf_mod (by decide), freed.raised rfl, Bool.or_true]

/-- CELL_RELEASE_DONE alone (R258). -/
theorem cellReleaseDone_stays {s : State} (dt : Nat) (hm : s.mainUp = true) :
    ∃ t, exec (.cellReleaseDone dt) s = .next t ∧ (s.begun dt).frame t {} ∧ (s.pool.walks = [] → ∀ c, t.cell c = s.cell c) := by
  obtain ⟨next, frame⟩ := exec_main_touches (c := .cellReleaseDone dt) (f := fun s => s) rfl rfl hm rfl (State.leaves_refl (s.begun dt) {})
  refine ⟨_, next, frame, fun hw c => ?_⟩
  obtain ⟨m, dirty, snap, idle⟩ := State.pool_begun_idle dt hw
  rw [State.cell_settle, State.cell, idle]
  rfl

end Sys2Proof.Machine
end

/-! ### The requests of CELL_ALLOC (R250, R254, R257, R263) -/

section
namespace Sys2Proof.Machine

@[simp] theorem State.shared_begun (s : State) (dt : Nat) : (s.begun dt).shared = s.shared := by simp [State.shared]
@[simp] theorem State.shared_pgUse (s : State) (g : Nat) : (s.pgUse g).shared = s.shared := by unfold State.pgUse; split <;> rfl
@[simp] theorem State.rxPoolFor_pgUse (s : State) (g i : Nat) : (s.pgUse g).rxPoolFor i = s.rxPoolFor i := by unfold State.pgUse; split <;> rfl
@[simp] theorem State.isl_pgUse (s : State) (g : Nat) : (s.pgUse g).isl = s.isl := by unfold State.pgUse; split <;> rfl

/-- The first cell of a reception, granted (R193, R254). -/
theorem State.rxTake_granted {s u : State} {p n c : Nat} (hr : (s.port p).rxRefused = false) (hc : (s.port p).rxCells = []) (ho : (s.port p).rxOn = false)
    (hi : s.isl.rxOpen = true) (hp : s.rxPoolFor (pipeOf p) = some n)
    (ha : s.alloc n (if s.shared then 0x0A else pipeOf p) (pipeOf p) = (some c, u)) :
    s.rxTake p = u.setPort p { s.port p with
      rxOn := true, rxCells := [c], rxOwner := if s.shared then 0x0A else pipeOf p, rxPool := n } := by
  rw [State.rxTake, if_neg (by simp [hr, hc])]
  simp only [hi, hp, ho, hc, Bool.not_true, Bool.false_eq_true, if_false, ha]
  rfl

/-- The first byte of a frame at a port whose group is awake. -/
theorem State.rxByte_awake {s : State} {p : Nat} (hr : s.receives p = true) (ha : s.pgAsleep (groupOf p) = false) :
    s.rxByte p = (s.pgUse (groupOf p)).rxTake p := by
  rw [State.rxByte, if_pos hr, State.rxFirst, ha, Bool.false_and, if_neg (by decide)]

/-- A reception's request. -/
theorem cellAlloc_rx {s u : State} {dt p n c : Nat} (hp : p < 144) (hm : s.mainUp = true) (hv : s.receives p = true) (hg : s.pgAsleep (groupOf p) = false)
    (hr : (s.port p).rxRefused = false) (hc : (s.port p).rxCells = []) (ho : (s.port p).rxOn = false) (hi : s.isl.rxOpen = true)
    (hn : (s.begun dt).rxPoolFor (pipeOf p) = some n)
    (ha : ((s.begun dt).pgUse (groupOf p)).alloc n (if s.shared then 0x0A else pipeOf p) (pipeOf p) = (some c, u)) :
    ∃ t, exec (.cellAlloc dt (.rxPort p)) s = .next t ∧ (t.port p).rxCells = [c] ∧ (t.port p).rxOn = true ∧ (t.cell c).used = true ∧
      (t.cell c).owner = (if s.shared then 0x0A else pipeOf p) := by
  obtain ⟨taken, -, -, left⟩ := State.alloc_some ha
  have act := (State.rxByte_awake (s := s.begun dt) (by simpa using hv) (by simpa using hg)).trans
    (State.rxTake_granted (n := n) (c := c) (u := u) (by simpa using hr) (by simpa using hc) (by simpa using ho) (by simpa using hi)
      (by simpa using hn) (by simpa using ha))
  have time : u.timeReq = ⟨none, none⟩ := left.2.trans ((State.leaves_pgUse (s.begun dt) p (groupOf p)).2.trans (State.begun_timeReq s dt))
  refine ⟨_, exec_main (c := .cellAlloc dt (.rxPort p)) rfl (decide_eq_true hp) hm act time, ?_, ?_, ?_, ?_⟩
  · rw [State.port_settle, State.port_setPort_self]
  · rw [State.port_settle, State.port_setPort_self]
  · rw [State.cell_settle]
    exact congrArg CellSt.used taken
  · rw [State.cell_settle]
    exact congrArg CellSt.owner taken

theorem State.ring_askTouch {s u : State} (h : s.leaves u askTouch) (r : Nat) : u.ring r = s.ring r := h.1.2.2.2.2 r (by simp [askTouch])

@[simp] theorem State.rPool_begun (s : State) (dt r : Nat) : (s.begun dt).rPool r = s.rPool r := by simp [State.rPool, State.rCfg2]
@[simp] theorem State.fetchJob_begun (s : State) (dt r : Nat) : (s.begun dt).fetchJob r = s.fetchJob r := by
  simp [State.fetchJob, State.rOn, State.rKind]

/-- The first cell of the frame that the host interface fetches, granted (R263). -/
theorem State.hostCell_granted {s u : State} {r c : Nat} {j : Job} (hj : s.fetchJob r = some j) (hc : j.cells = [])
    (ha : s.alloc (s.rPool r) 8 slotHost = (some c, u)) : s.hostCell r = u.setJob r { j with cells := [c] } := by
  simp only [State.hostCell, hj, ha, hc]
  rfl

/-- The host interface's request. -/
theorem cellAlloc_host {s u : State} {dt r c : Nat} {j : Job} (hr : r < 4096) (hm : s.mainUp = true) (hj : s.fetchJob r = some j) (hc : j.cells = [])
    (ha : (s.begun dt).alloc (s.rPool r) 8 slotHost = (some c, u)) :
    ∃ t, exec (.cellAlloc dt (.host r)) s = .next t ∧ (t.cell c).used = true ∧ (t.cell c).owner = 8 ∧
      (t.ring r).jobs = (s.ring r).jobs.map (fun x => if x.num = j.num then { j with cells := [c] } else x) ∧
      (∀ r', r' ≠ r → t.ring r' = s.ring r') := by
  obtain ⟨taken, -, -, left⟩ := State.alloc_some ha
  have act := State.hostCell_granted (s := s.begun dt) (u := u) (c := c) (by simpa using hj) hc (by simpa using ha)
  have rings (r' : Nat) : u.ring r' = s.ring r' := by rw [State.ring_askTouch left, State.ring_begun]
  have time : u.timeReq = ⟨none, none⟩ := left.2.trans (State.begun_timeReq s dt)
  refine ⟨_, exec_main (c := .cellAlloc dt (.host r)) rfl (decide_eq_true hr) hm act time, ?_, ?_, ?_, fun r' h' => ?_⟩
  · rw [State.cell_settle]
    exact congrArg CellSt.used taken
  · rw [State.cell_settle]
    exact congrArg CellSt.owner taken
  · rw [State.ring_settle, State.setJob, State.ring_setRing_self, rings]
  · rw [State.ring_settle, State.setJob, State.ring_setRing_ne _ _ _ _ h', rings]

/-- The first cell of a frame of Anvil, granted (R264). -/
theorem State.anvilCell_granted {s u : State} {c : Nat} (hc : s.pool.avCells = [])
    (ha : s.alloc (s.fld Fld.CB_ANVIL_POOL_POOL) 9 slotAnvil = (some c, u)) :
    s.anvilCell = (true, { u with pool := { u.pool with avCells := [c] } }) := by
  obtain ⟨-, -, kept, -⟩ := State.alloc_some ha
  have empty : u.pool.avCells = [] := kept.trans hc
  simp only [State.anvilCell, ha, empty]
  rw [State.chain, List.getLast?_nil]
  simp only [empty]
  rfl

/-- Anvil's request. -/
theorem cellAlloc_anvil {s u : State} {dt c : Nat} (hm : s.mainUp = true) (hc : s.pool.avCells = [])
    (ha : (s.begun dt).alloc (s.fld Fld.CB_ANVIL_POOL_POOL) 9 slotAnvil = (some c, u)) :
    ∃ t, exec (.cellAlloc dt .anvil) s = .next t ∧ t.pool.avCells = [c] ∧ (t.cell c).used = true ∧ (t.cell c).owner = 9 := by
  obtain ⟨taken, -, -, left⟩ := State.alloc_some ha
  have act := congrArg Prod.snd (State.anvilCell_granted (s := s.begun dt) (u := u) (c := c) (by simpa using hc) (by simpa using ha))
  have time : u.timeReq = ⟨none, none⟩ := left.2.trans (State.begun_timeReq s dt)
  refine ⟨_, exec_main (c := .cellAlloc dt .anvil) rfl rfl hm act time, by rw [State.settle_pool], ?_, ?_⟩
  · rw [State.cell_settle]
    exact congrArg CellSt.used taken
  · rw [State.cell_settle]
    exact congrArg CellSt.owner taken

/-- Settles O12: each requester's first cell by the grant of its request, and a release by its chain, which every cycle brings eight checks on. -/
theorem cellRequests : Obligations.CellRequests :=
  ⟨fun _ _ _ _ _ _ hp hm hv hg hr hc ho hi hn ha => cellAlloc_rx hp hm hv hg hr hc ho hi hn ha,
    fun _ _ _ _ _ _ hr hm hj hc ha => cellAlloc_host hr hm hj hc ha,
    fun _ _ _ _ hm hc ha => cellAlloc_anvil hm hc ha,
    fun _ _ _ _ _ ho h1 hn hm hw hf nodup own links ht => release_own ho h1 hn hm hw hf nodup own links ht,
    fun _ _ _ _ _ _ _ ho h1 hn hm hw hf nodup own links used other inPool hx ht =>
      release_foreign ho h1 hn hm hw hf nodup own links used other inPool hx ht,
    fun _ dt hm => cellReleaseDone_stays dt hm⟩

end Sys2Proof.Machine
end

/-! ### Nothing but the frame of a command moves the time (R295, R298)

A command moves the time on before it acts and takes what it asked of the time group at its end. In between every operation of the model leaves the
whole time group as it is; the lemmas say so, one for each operation, in the order of the model. `simp` writes each of its steps out where the kernel
would otherwise compare two states by evaluating them (`-implicitDefEqProofs`). -/

section
namespace Sys2Proof.Machine

/-- What each step of a fold keeps, the fold keeps. -/
theorem foldl_keeps {α β τ : Type} (g : β → τ) (f : β → α → β) (h : ∀ b a, g (f b a) = g b) (l : List α) (b : β) :
    g (l.foldl f b) = g b := by
  induction l generalizing b with
  | nil => rfl
  | cons a l ih => exact (ih (f b a)).trans (h b a)
@[simp] theorem State.foldl_time {α : Type} (f : State → α → State) (l : List α) (s : State) (h : ∀ u a, (f u a).time = u.time) :
    (l.foldl f s).time = s.time := foldl_keeps State.time f h l s

/-! #### The shared operations on the state -/

@[simp] theorem State.mirrorNote_time (s : State) (area index : Nat) (ws : List Word) : (s.mirrorNote area index ws).time = s.time := by
  simp [State.mirrorNote, apply_ite State.time]
@[simp] theorem State.jnEnter_time (s : State) (tick ns rank kind origin sub : Nat) (args : List Nat) :
    (s.jnEnter tick ns rank kind origin sub args).time = s.time := by simp [State.jnEnter, apply_ite State.time]
@[simp] theorem State.jnRipe_time (s : State) : s.jnRipe.time = s.time := by simp [State.jnRipe]
@[simp] theorem State.journal_time (s : State) (kind origin sub : Nat) (args : List Nat) : (s.journal kind origin sub args).time = s.time := by
  simp [State.journal]
@[simp] theorem State.journalAt_time (s : State) (t plane kind origin sub : Nat) (args : List Nat) :
    (s.journalAt t plane kind origin sub args).time = s.time := by simp [State.journalAt, apply_ite State.time]
@[simp] theorem State.intTake_time (s : State) (a : Nat) : (s.intTake a).time = s.time := by simp [State.intTake, apply_ite State.time]
@[simp] theorem State.msixOut_time (s : State) (v : Nat) : (s.msixOut v).time = s.time := by simp [State.msixOut]
@[simp] theorem State.msixSend_time (s : State) (v : Nat) : (s.msixSend v).time = s.time := by simp [State.msixSend, apply_ite State.time]
@[simp] theorem State.msixEvent_time (s : State) (v : Nat) : (s.msixEvent v).time = s.time := by simp [State.msixEvent, apply_ite State.time]

/-! #### The cell pool manager -/

@[simp] theorem State.touchPool_time (s : State) (n : Nat) : (s.touchPool n).time = s.time := by simp [State.touchPool]
@[simp] theorem State.touchPools_time (s : State) : s.touchPools.time = s.time := by simp [State.touchPools]
@[simp] theorem State.wakeBank_time (s : State) (b : Nat) : (s.wakeBank b).time = s.time := by
  simp -implicitDefEqProofs [State.wakeBank, apply_ite State.time]
@[simp] theorem State.laneUse_time (s : State) (i lane : Nat) : (s.laneUse i lane).time = s.time := by simp [State.laneUse, apply_ite State.time]
@[simp] theorem State.egressUse_time (s : State) (e : Nat) : (s.egressUse e).time = s.time := by simp [State.egressUse, apply_ite State.time]
@[simp] theorem State.allocFail_time (s : State) (n : Nat) : (s.allocFail n).time = s.time := by
  simp -implicitDefEqProofs [State.allocFail]
@[simp] theorem State.alloc_time (s0 : State) (n owner slot : Nat) : (s0.alloc n owner slot).2.time = s0.time := by
  grind [State.alloc, State.allocFail_time, State.wakeBank_time, State.touchPool_time, State.setCell_time, State.drawn_time, State.count_time]
@[simp] theorem State.chain_time (s : State) (cells : List Nat) (c : Nat) : (s.chain cells c).time = s.time := by
  unfold State.chain
  split <;> simp
@[simp] theorem State.release_time (s : State) (rank claim first n : Nat) : (s.release rank claim first n).time = s.time := by simp [State.release]
@[simp] theorem State.releaseCells_time (s : State) (rank claim : Nat) (cells : List Nat) : (s.releaseCells rank claim cells).time = s.time := by
  unfold State.releaseCells
  split <;> simp
@[simp] theorem State.freeFrame_time (s : State) (f : Nat) : (s.freeFrame f).time = s.time := by
  unfold State.freeFrame
  split <;> simp
@[simp] theorem State.showCell_time (s : State) (c : Nat) : (s.showCell c).time = s.time := by
  simp -implicitDefEqProofs [State.showCell]
@[simp] theorem State.cellStart_time (s : State) (op pool c : Nat) : (s.cellStart op pool c).time = s.time := by
  simp -implicitDefEqProofs [State.cellStart]
@[simp] theorem State.cellOp_time (s : State) (op pool c : Nat) (go : State → State) (h : ∀ u, (go u).time = u.time) :
    (s.cellOp op pool c go).time = s.time := by simp -implicitDefEqProofs [State.cellOp, h, apply_ite State.time]
@[simp] theorem State.cellQuery_time (s : State) (op pool c : Nat) : (s.cellQuery op pool c).time = s.time := by simp [State.cellQuery]
@[simp] theorem State.cellAlloc_time (s : State) (pool c : Nat) : (s.cellAlloc pool c).time = s.time := by
  grind [State.cellAlloc, State.cellOp_time, State.alloc_time, State.showCell_time, State.setReg_time, State.setF_time]
@[simp] theorem State.cellFree_time (s : State) (pool c : Nat) : (s.cellFree pool c).time = s.time := by
  grind [State.cellFree, State.cellOp_time, State.showCell_time, State.setF_time]
@[simp] theorem State.cellReclaim_time (s : State) (pool c : Nat) : (s.cellReclaim pool c).time = s.time := by
  simp -implicitDefEqProofs [State.cellReclaim, apply_ite State.time]
@[simp] theorem State.cellGo_time (s : State) (op pool c : Nat) : (s.cellGo op pool c).time = s.time := by simp [State.cellGo, apply_ite State.time]
@[simp] theorem State.wmReset_time (s : State) (n : Nat) : (s.wmReset n).time = s.time := by simp [State.wmReset]
@[simp] theorem State.errPop_time (s : State) : s.errPop.time = s.time := by simp [State.errPop]

/-! #### Hallmark time -/

@[simp] theorem State.ppsSet_time (s : State) (high : Bool) : (s.ppsSet high).time = s.time := by simp [State.ppsSet, apply_ite State.time]
@[simp] theorem State.ppsFollow_time (s : State) : s.ppsFollow.time = s.time := by simp [State.ppsFollow, apply_ite State.time]
@[simp] theorem State.toServo_time (s : State) (st : Nat) : (s.toServo st).time = s.time := by simp [State.toServo, apply_ite State.time]
@[simp] theorem State.ppsPassed_time (s : State) (ns : Int) : (s.ppsPassed ns).time = s.time := by simp [State.ppsPassed]
@[simp] theorem State.todPassed_time (s : State) (ns : Int) : (s.todPassed ns).time = s.time := by simp [State.todPassed]
@[simp] theorem State.setGate_time (s : State) (q : Nat) (g : Gate) : (s.setGate q g).time = s.time := by simp [State.setGate]
@[simp] theorem State.gateSettle_time (s : State) (q : Nat) : (s.gateSettle q).time = s.time := by grind [State.gateSettle, State.setGate_time]
@[simp] theorem State.gateSettleAll_time (s : State) : s.gateSettleAll.time = s.time := by simp [State.gateSettleAll]
@[simp] theorem State.gateCommit_time (s0 : State) (q : Nat) : (s0.gateCommit q).time = s0.time := by simp [State.gateCommit, apply_ite State.time]
@[simp] theorem State.stepPins_time (s : State) (d : Int) : (s.stepPins d).time = s.time := by simp [State.stepPins, apply_ite State.time]
@[simp] theorem State.stepBy_time (s : State) (d : Int) : (s.stepBy d).time = s.time := by simp [State.stepBy, apply_ite State.time]
@[simp] theorem State.softStep_time (s : State) (d : Int) : (s.softStep d).time = s.time := by simp [State.softStep, apply_ite State.time]
@[simp] theorem State.hmSetGo_time (s : State) (op : Nat) : (s.hmSetGo op).time = s.time := by
  simp -implicitDefEqProofs [State.hmSetGo, apply_ite State.time]
@[simp] theorem State.putHmSet_time (s : State) (sec ns frac : Nat) : (s.putHmSet sec ns frac).time = s.time := by
  simp -implicitDefEqProofs [State.putHmSet]
@[simp] theorem State.askAddend_time (s : State) (a : Int) : (s.askAddend a).time = s.time := by simp [State.askAddend]
@[simp] theorem State.addendTake_time (s : State) : s.addendTake.time = s.time := by simp [State.addendTake, apply_ite State.time]
@[simp] theorem State.servoEnable_time (s : State) : s.servoEnable.time = s.time := by simp [State.servoEnable, apply_ite State.time]
@[simp] theorem State.servoDisable_time (s : State) : s.servoDisable.time = s.time := by simp [State.servoDisable, apply_ite State.time]
@[simp] theorem State.servoHold_time (s : State) : s.servoHold.time = s.time := by simp [State.servoHold, apply_ite State.time]
@[simp] theorem State.servoSrcTouched_time (s : State) : s.servoSrcTouched.time = s.time := by simp [State.servoSrcTouched]
@[simp] theorem State.servoUpdate_time (s : State) (theta : Int) (tns : Nat) : (s.servoUpdate theta tns).time = s.time := by simp [State.servoUpdate]
@[simp] theorem State.servoSample_time (s0 : State) (theta : Int) : (s0.servoSample theta).time = s0.time := by
  grind [State.servoSample, State.setReg_time, State.stepBy_time, State.toServo_time, State.servoUpdate_time]
@[simp] theorem State.swSubmit_time (s : State) : s.swSubmit.time = s.time := by simp [State.swSubmit, apply_ite State.time]
@[simp] theorem State.crfValue_time (s : State) (theta2 : Int) : (s.crfValue theta2).time = s.time := by simp [State.crfValue, apply_ite State.time]
@[simp] theorem State.crfMean_time (s : State) : s.crfMean.time = s.time := by simp [State.crfMean, apply_ite State.time]
@[simp] theorem State.ppsIn_time (s : State) : s.ppsIn.time = s.time := by simp [State.ppsIn, apply_ite State.time]
@[simp] theorem State.srcLost_time (s : State) : s.srcLost.time = s.time := by simp [State.srcLost, apply_ite State.time]
@[simp] theorem State.servoCtrlWrite_time (s : State) (w : Word) (src : Bool) : (s.servoCtrlWrite w src).time = s.time := by
  simp [State.servoCtrlWrite, apply_ite State.time]
@[simp] theorem State.todRenew_time (s t : State) : (s.todRenew t).time = t.time := by
  simp [State.todRenew, apply_ite State.time]
@[simp] theorem State.ppsWrite_time (s t : State) : (s.ppsWrite t).time = t.time := by
  simp [State.ppsWrite, apply_ite State.time]
@[simp] theorem State.todWrite_time (s t : State) : (s.todWrite t).time = t.time := by
  simp [State.todWrite, apply_ite State.time]
@[simp] theorem State.ppsRise_time (s : State) : s.ppsRise.time = s.time := by simp [State.ppsRise, apply_ite State.time]
@[simp] theorem State.ppsFallDue_time (s : State) : s.ppsFallDue.time = s.time := by simp [State.ppsFallDue, apply_ite State.time]
@[simp] theorem State.todSend_time (s : State) : s.todSend.time = s.time := by simp [State.todSend, apply_ite State.time]
@[simp] theorem State.putBytes_time (s : State) (a : Nat) (bs : List Byte) : (s.putBytes a bs).time = s.time := by
  simp -implicitDefEqProofs [State.putBytes]
@[simp] theorem State.todReceive_time (s : State) (msg : List Byte) (gap : Bool) : (s.todReceive msg gap).time = s.time := by
  simp [State.todReceive, apply_ite State.time]
@[simp] theorem State.pinLevel_time (s : State) (i : Nat) (high : Bool) : (s.pinLevel i high).time = s.time := by
  simp [State.pinLevel, apply_ite State.time]
@[simp] theorem State.evtArm_time (s : State) (i : Nat) : (s.evtArm i).time = s.time := by simp [State.evtArm, apply_ite State.time]
@[simp] theorem State.evtCtrlWrite_time (s : State) (i : Nat) (w : Word) : (s.evtCtrlWrite i w).time = s.time := by
  simp [State.evtCtrlWrite, apply_ite State.time]
@[simp] theorem State.evtArmRow_time (s : State) (i : Nat) : (s.evtArmRow i).time = s.time := by simp [State.evtArmRow]
@[simp] theorem State.evtPulse_time (s : State) (i : Nat) : (s.evtPulse i).time = s.time := by
  unfold State.evtPulse
  split <;> simp [apply_ite State.time]
@[simp] theorem State.evtPulseEnd_time (s : State) (i : Nat) : (s.evtPulseEnd i).time = s.time := by
  grind [State.evtPulseEnd, State.setPin_time, State.pinLevel_time]
@[simp] theorem State.evtCapture_time (s : State) (i : Nat) (rising : Bool) : (s.evtCapture i rising).time = s.time := by
  simp [State.evtCapture, apply_ite State.time]
@[simp] theorem State.evtCapPop_time (s : State) (i : Nat) : (s.evtCapPop i).time = s.time := by simp [State.evtCapPop]

/-! #### The parser, the initial class and colour, the Filigree keys, the payload matcher and the hashes of load spreading -/

@[simp] theorem State.setFgEnt_time (s : State) (k n : Nat) (e : FgEnt) : (s.setFgEnt k n e).time = s.time := by simp [State.setFgEnt]
@[simp] theorem State.setPattern_time (s : State) (k i : Nat) (p : Pat) : (s.setPattern k i p).time = s.time := by simp [State.setPattern]

/-! #### Queues of descriptors, their lengths, the admission tests by threshold and WRED -/

@[simp] theorem State.setQueue_time (s : State) (q : Nat) (l : List QEnt) : (s.setQueue q l).time = s.time := by simp [State.setQueue]
@[simp] theorem State.lenIn_time (s : State) (q n : Nat) : (s.lenIn q n).time = s.time := by simp [State.lenIn]
@[simp] theorem State.lenOut_time (s : State) (q n : Nat) : (s.lenOut q n).time = s.time := by simp [State.lenOut]
@[simp] theorem State.noteOwn_time (s : State) (pipe q n : Nat) : (s.noteOwn pipe q n).time = s.time := by simp [State.noteOwn]
@[simp] theorem State.countAdmit_time (s : State) (q len : Nat) : (s.countAdmit q len).time = s.time := by simp [State.countAdmit]
@[simp] theorem State.countDrop_time (s : State) (q len : Nat) : (s.countDrop q len).time = s.time := by simp [State.countDrop]
@[simp] theorem State.setLfsr_time (s : State) (i v : Nat) : (s.setLfsr i v).time = s.time := by simp [State.setLfsr]
@[simp] theorem State.wred_time (s : State) (i q qn colour : Nat) (ect : Bool) : (s.wred i q qn colour ect).2.time = s.time := by
  unfold State.wred
  dsimp only
  (repeat' split) <;> simp -implicitDefEqProofs
@[simp] theorem State.doomPort_time (s : State) (p : Nat) : (s.doomPort p).time = s.time := by simp [State.doomPort]
@[simp] theorem State.holdStart_time (s : State) (p : Nat) : (s.holdStart p).time = s.time := by simp [State.holdStart, apply_ite State.time]
@[simp] theorem State.holdReturn_time (s : State) (p : Nat) : (s.holdReturn p).time = s.time := by simp [State.holdReturn, apply_ite State.time]
@[simp] theorem State.holdStep_time (s t : State) (p : Nat) : (s.holdStep p t).time = t.time := by
  simp [State.holdStep, apply_ite State.time]
@[simp] theorem State.holdWrite_time (s : State) (p : Nat) : (s.holdWrite p).time = s.time := by simp [State.holdWrite, apply_ite State.time]
@[simp] theorem State.push_time (s : State) (q : Nat) (x : QEnt) : (s.push q x).time = s.time := by simp [State.push]
@[simp] theorem State.toEgress_time (s : State) (x : QEnt) : (s.toEgress x).time = s.time := by simp [State.toEgress]
@[simp] theorem State.setFb_time (s : State) (st : Nat) : (s.setFb st).time = s.time := by simp [State.setFb]
@[simp] theorem State.fbMove_time (s : State) : s.fbMove.time = s.time := by simp [State.fbMove, apply_ite State.time]
@[simp] theorem State.addReason_time (s : State) (r : Nat) : (s.addReason r).time = s.time := by simp [State.addReason]
@[simp] theorem State.dropReason_time (s : State) (r : Nat) : (s.dropReason r).time = s.time := by simp [State.dropReason]

/-! #### Rings, positions, completions and records -/

@[simp] theorem State.ringErr_time (s : State) (r : Nat) (f g : Fld) : (s.ringErr r f g).time = s.time := by simp [State.ringErr]
@[simp] theorem State.ringCfgErr_time (s : State) (r : Nat) : (s.ringCfgErr r).time = s.time := by simp [State.ringCfgErr]
@[simp] theorem State.ringDbErr_time (s : State) (r : Nat) : (s.ringDbErr r).time = s.time := by simp -implicitDefEqProofs [State.ringDbErr]
@[simp] theorem State.ringDmaErr_time (s : State) (r : Nat) : (s.ringDmaErr r).time = s.time := by simp [State.ringDmaErr]
@[simp] theorem State.ringJournal_time (s : State) (r sub origin : Nat) : (s.ringJournal r sub origin).time = s.time := by simp [State.ringJournal]
@[simp] theorem State.cqCheck_time (s : State) (r : Nat) : (s.cqCheck r).time = s.time := by simp [State.cqCheck, apply_ite State.time]
@[simp] theorem State.cqEntry_time (s : State) (cq : Nat) (ws : List Word) (status ent kind ring : Nat) :
    (s.cqEntry cq ws status ent kind ring).time = s.time := by simp [State.cqEntry]
@[simp] theorem State.cqRecord_time (s : State) (cq : Nat) (ents : List (List Word)) (status kind ring : Nat) :
    (s.cqRecord cq ents status kind ring).time = s.time := by simp [State.cqRecord]
@[simp] theorem State.samplePost_time (s : State) (r : Nat) (ents : List (List Word)) (kind : Nat) : (s.samplePost r ents kind).2.time = s.time := by
  unfold State.samplePost
  split <;> simp
@[simp] theorem State.setWaiting_time (s : State) (cq : Nat) (l : List (Nat × List Word × Nat × Nat)) : (s.setWaiting cq l).time = s.time := by
  simp [State.setWaiting]
@[simp] theorem State.flushJobs_time (s : State) (r k : Nat) : (s.flushJobs r k).time = s.time := by
  induction k generalizing s with
  | zero => rfl
  | succ k ih => unfold State.flushJobs; grind [State.setRing_time, State.setWaiting_time]
@[simp] theorem State.jobEnd_time (s : State) (r num status w0 w1 : Nat) : (s.jobEnd r num status w0 w1).time = s.time := by simp [State.jobEnd]
@[simp] theorem State.txDrop_time (s : State) (r num status w0 len : Nat) : (s.txDrop r num status w0 len).time = s.time := by simp [State.txDrop]
@[simp] theorem State.hostDiscard_time (s : State) (x : Frame) : (s.hostDiscard x).time = s.time := by
  unfold State.hostDiscard
  split <;> simp [apply_ite State.time]
@[simp] theorem State.lastRef_time (s : State) (f : Nat) (x : Frame) : (s.lastRef f x).time = s.time := by simp [State.lastRef]
@[simp] theorem State.decRef_time (s : State) (f : Nat) : (s.decRef f).time = s.time := by
  unfold State.decRef
  split <;> simp [apply_ite State.time]
@[simp] theorem State.addRef_time (s : State) (f : Nat) (d : Int) : (s.addRef f d).time = s.time := by
  unfold State.addRef
  split <;> simp [apply_ite State.time]
@[simp] theorem State.leaveEgress_time (s : State) (x : QEnt) : (s.leaveEgress x).time = s.time := by simp [State.leaveEgress, apply_ite State.time]
@[simp] theorem State.discard_time (s : State) (x : QEnt) : (s.discard x).time = s.time := by
  unfold State.discard
  split <;> simp [apply_ite State.time]

/-! #### The tables of the lookup planes -/

@[simp] theorem State.setTbl_time (s : State) (t i : Nat) (ws : List Word) : (s.setTbl t i ws).time = s.time := by simp [State.setTbl]
@[simp] theorem State.macNotify_time (s : State) (k ev key : Nat) (old new : Option Nat) : (s.macNotify k ev key old new).time = s.time := by
  grind [State.macNotify, State.samplePost_time, State.count_time]
@[simp] theorem State.learnRefill_time (s : State) (k : Nat) : (s.learnRefill k).time = s.time := by simp [State.learnRefill]
@[simp] theorem State.learnRateWrite_time (s : State) (k : Nat) (v : Word) : (s.learnRateWrite k v).time = s.time := by
  simp -implicitDefEqProofs [State.learnRateWrite]
@[simp] theorem State.learnRequest_time (s : State) (k key dest : Nat) : (s.learnRequest k key dest).time = s.time := by
  simp [State.learnRequest, apply_ite State.time]
@[simp] theorem State.learnServe_time (s0 : State) (k : Nat) : (s0.learnServe k).time = s0.time := by
  grind [State.learnServe, State.learnRefill_time, State.setLearn_time, State.count_time, State.macNotify_time, State.setMac_time]
@[simp] theorem State.noteHit_time (s : State) (k p : Nat) : (s.noteHit k p).time = s.time := by simp [State.noteHit]
@[simp] theorem State.unAge_time (s : State) (k key : Nat) : (s.unAge k key).time = s.time := by
  grind [State.unAge, State.setCtr_time, State.setMac_time]
@[simp] theorem State.sourceLookup_time (s0 : State) (k key dest : Nat) (enabled : Bool) : (s0.sourceLookup k key dest enabled).2.time = s0.time := by
  grind [State.sourceLookup, State.unAge_time, State.noteHit_time, State.setMac_time, State.count_time, State.macNotify_time, State.learnRequest_time]
@[simp] theorem State.ageSweep_time (s0 : State) (k : Nat) : (s0.ageSweep k).time = s0.time := by simp [State.ageSweep, apply_ite State.time]
@[simp] theorem State.agingSweep_time (s : State) (k : Nat) : (s.agingSweep k).time = s.time := by simp [State.agingSweep, apply_ite State.time]
@[simp] theorem State.agePeriodWrite_time (s : State) (k : Nat) (v : Word) : (s.agePeriodWrite k v).time = s.time := by
  simp -implicitDefEqProofs [State.agePeriodWrite]
@[simp] theorem State.macFlush_time (s : State) (k tc2 tc3 : Nat) (useDest : Bool) : (s.macFlush k tc2 tc3 useDest).2.time = s.time := by
  simp -implicitDefEqProofs [State.macFlush]
@[simp] theorem State.flushOnDown_time (s : State) (p : Nat) : (s.flushOnDown p).time = s.time := by
  have planes : ∀ ks : List Nat, (ks.foldl (fun (a : Nat × State) k =>
      let f := a.2.macFlush k 0 (0x90000000 + p) true
      (a.1 + f.1, f.2.count (Ctr.plane k 0x68) f.1)) (0, s)).2.time = s.time :=
    fun ks => foldl_keeps (fun a : Nat × State => a.2.time) _ (fun a k => by simp) ks (0, s)
  unfold State.flushOnDown
  dsimp only
  split
  · rfl
  · rw [State.journal_time]; exact planes _
@[simp] theorem State.macCommand_time (s : State) (t : TC) (k : Nat) : (s.macCommand t k).2.2.2.time = s.time := by
  grind [State.macCommand, State.setMac_time, State.macFlush_time]
@[simp] theorem State.idxCommand_time (s : State) (t : TC) : (s.idxCommand t).2.2.time = s.time := by grind [State.idxCommand, State.setTbl_time]
@[simp] theorem State.tblRun_time (s : State) (done origin : Nat) (t : TC) : (s.tblRun done origin t).2.time = s.time := by
  have macs (ks : List Nat) := foldl_keeps (fun a : SMap Nat × List Nat × Nat × State => a.2.2.2.time) (fun a k =>
      let c := a.2.2.2.macCommand t k
      (SMap.ins a.1 k c.1, c.2.1, a.2.2.1 + c.2.2.1, c.2.2.2)) (fun a k => by simp) ks ([], [], 0, s)
  unfold State.tblRun
  dsimp only at macs ⊢
  split
  · simp
  split
  · simp [macs]
  · simp [apply_ite State.time]
@[simp] theorem State.putWords_time (s : State) (a : Nat) (ws : List Word) : (s.putWords a ws).time = s.time := by
  simp -implicitDefEqProofs [State.putWords]
@[simp] theorem State.land_time (s : State) (a : Nat) : (s.land a).time = s.time := by
  unfold State.land
  split
  · split
    · rfl
    · exact foldl_keeps State.time _ (fun u w => State.setReg_time _ _ _) _ _
  · rfl
@[simp] theorem State.landPlane_time (s : State) (k : Nat) : (s.landPlane k).time = s.time := by simp [State.landPlane]
@[simp] theorem State.fgApply_time (s : State) (k j op n : Nat) : (s.fgApply k j op n).2.time = s.time := by
  grind [State.fgApply, State.setFgEnt_time, State.stageRes_time]
@[simp] theorem State.fgGo_time (s : State) (origin k w : Nat) : (s.fgGo origin k w).time = s.time := by
  have each (ks : List Nat) (u : State) (op n : Nat) := foldl_keeps (fun a : Nat × Bool × State => a.2.2.time) (fun a j =>
      match a.2.2.fgApply k j op n with
      | (true, s1) => (a.1 + 2 ^ j, a.2.1, s1)
      | (false, s1) => (a.1, true, s1)) (fun a j => by grind [State.fgApply_time]) ks (0, false, u)
  dsimp only at each
  unfold State.fgGo
  split
  · exact State.setF_time _ _ _
  · simp -implicitDefEqProofs [apply_ite State.time]
    refine (each _ _ _ _).trans ?_
    simp -implicitDefEqProofs
@[simp] theorem State.patApply_time (s : State) (k j op n : Nat) : (s.patApply k j op n).time = s.time := by
  simp [State.patApply, apply_ite State.time]
@[simp] theorem State.patGo_time (s : State) (origin k w : Nat) : (s.patGo origin k w).time = s.time := by
  simp -implicitDefEqProofs [State.patGo, apply_ite State.time]

/-! #### The fabric arbiter -/

@[simp] theorem State.setIntake_time (s : State) (e : Nat) (l : List QEnt) : (s.setIntake e l).time = s.time := by simp [State.setIntake]
@[simp] theorem State.movePointers_time (s : State) (ms : List (Nat × Nat × Nat)) : (s.movePointers ms).time = s.time := by simp [State.movePointers]
@[simp] theorem State.noteQueue_time (s : State) (i e lv q : Nat) : (s.noteQueue i e lv q).time = s.time := by simp [State.noteQueue]
@[simp] theorem State.stage8_time (s : State) (x : QEnt) : (s.stage8 x).time = s.time := by
  unfold State.stage8
  split <;> simp [apply_ite State.time]
@[simp] theorem State.passHead_time (s0 : State) (q e : Nat) : (s0.passHead q e).time = s0.time := by
  grind [State.passHead, State.egressUse_time, State.stage8_time, State.lenOut_time, State.setQueue_time, State.setIntake_time, State.addRef_time]
@[simp] theorem State.passTwo_time (s : State) (q e : Nat) : (s.passTwo q e).time = s.time := by simp [State.passTwo, apply_ite State.time]
@[simp] theorem State.arbiterCycle_time (s : State) : (s.arbiterCycle).time = s.time := by
  unfold State.arbiterCycle
  split
  · rfl
  · exact (foldl_keeps State.time _ (fun u m => by split <;> simp) _ _).trans (State.movePointers_time _ _)
@[simp] theorem State.lmPass_time (s : State) (e : Nat) : (s.lmPass e).time = s.time := by grind [State.lmPass, State.passHead_time]
@[simp] theorem State.lmCycle_time (s : State) : s.lmCycle.time = s.time := by simp [State.lmCycle, apply_ite State.time]
@[simp] theorem State.mcCopy_time (s : State) (e fid q at_ : Nat) (f : Frame) : (s.mcCopy e fid q at_ f).2.time = s.time := by
  grind [State.mcCopy, State.count_time, State.countDrop_time, State.wred_time, State.countAdmit_time, State.push_time, State.lenIn_time]
@[simp] theorem State.replicate_time (s : State) (e : Nat) : (s.replicate e).time = s.time := by
  unfold State.replicate
  split
  · rfl
  dsimp only
  split
  · simp
  split
  · simp
  rw [State.addRef_time]
  exact (foldl_keeps (fun a : Nat × State => a.2.time) _ (fun a q => by grind [State.mcCopy_time]) _ _).trans (State.setIntake_time _ _ _)

/-! #### Generation streams -/

@[simp] theorem State.mute_time (s : State) (n : Nat) (on : Bool) : (s.mute n on).time = s.time := by
  simp -implicitDefEqProofs [State.mute]
@[simp] theorem State.lossAt_time (s : State) (p : Nat) : (s.lossAt p).time = s.time := by simp [State.lossAt, apply_ite State.time]
@[simp] theorem State.unmuteAll_time (s : State) : s.unmuteAll.time = s.time := by simp [State.unmuteAll]
@[simp] theorem State.unmuteIfAlone_time (s : State) : s.unmuteIfAlone.time = s.time := by simp [State.unmuteIfAlone, apply_ite State.time]
@[simp] theorem State.numberFrame_time (s : State) (n : Nat) (f : Frame) : (s.numberFrame n f).2.2.time = s.time := by
  grind [State.numberFrame, State.setF_time, State.count_time, State.mute_time]
@[simp] theorem State.recoveryTimeout_time (s : State) (d : Nat) : (s.recoveryTimeout d).time = s.time := by
  simp [State.recoveryTimeout, apply_ite State.time]
@[simp] theorem State.recover_time (s0 : State) (d seq : Nat) : (s0.recover d seq).2.time = s0.time := by
  unfold State.recover
  dsimp only
  (repeat' split) <;> simp -implicitDefEqProofs

/-! #### Planish -/

@[simp] theorem State.refill_time (s : State) (a : Nat) : (s.refill a).time = s.time := by simp [State.refill]
@[simp] theorem State.deduct_time (s : State) (a : Nat) (n : Int) : (s.deduct a n).time = s.time := by simp [State.deduct]
@[simp] theorem State.shape_time (s : State) (node len : Nat) : (s.shape node len).time = s.time := by simp [State.shape, apply_ite State.time]
@[simp] theorem State.levelGo_time (s : State) (origin w : Nat) : (s.levelGo origin w).time = s.time := by
  grind [State.levelGo, State.setF_time, State.startGo_time, State.journalAt_time, State.setBucket_time]
@[simp] theorem State.takeTokens_time (s : State) (n len outcome : Nat) : (s.takeTokens n len outcome).time = s.time := by
  simp [State.takeTokens, apply_ite State.time]
@[simp] theorem State.police_time (s : State) (pipe len : Nat) (ns : List Nat) (colour : Nat) : (s.police pipe len ns colour).2.time = s.time := by
  have buckets := foldl_keeps (fun a : Option Nat × State × Nat × Nat => a.2.1.time) (fun a n =>
      match a.1 with
      | none => a
      | some c =>
        match a.2.1.meter n len c with
        | some o => (some o, a.2.1.takeTokens n len o, a.2.2)
        | none => (none, a.2.1, n, 1)) (fun a n => by split <;> [rfl; (split <;> simp)]) ns (some colour, s, 0, 0)
  cases ns with
  | nil => rfl
  | cons n ns =>
    rw [State.police]
    · dsimp only
      split
      · exact buckets
      · simp
    · exact nofun
@[simp] theorem State.moveRefused_time (s : State) (isGroup : Bool) (id : Nat) : (s.moveRefused isGroup id).time = s.time := by
  simp -implicitDefEqProofs [State.moveRefused]
@[simp] theorem State.clearDeficit_time (s : State) (node : Nat) : (s.clearDeficit node).time = s.time := by simp [State.clearDeficit]
@[simp] theorem State.planishCommit_time (s : State) : s.planishCommit.time = s.time := by
  simp -implicitDefEqProofs [State.planishCommit, apply_ite State.time]
@[simp] theorem State.sojourn_time (s : State) (q ns : Nat) : (s.sojourn q ns).time = s.time := by simp [State.sojourn]
@[simp] theorem State.sample_time (s : State) : s.sample.time = s.time := by
  grind [State.sample, State.samplePost_time, State.raise_time, State.count_time]
@[simp] theorem State.shapePath_time (s : State) (p q len : Nat) : (s.shapePath p q len).time = s.time := by
  simp [State.shapePath, apply_ite State.time]

/-! #### Reception -/

@[simp] theorem State.rxTake_time (s : State) (p : Nat) : (s.rxTake p).time = s.time := by
  grind [State.rxTake, State.setPort_time, State.alloc_time, State.chain_time]
@[simp] theorem State.rxFill_time (s : State) (p k : Nat) : (s.rxFill p k).time = s.time := by
  induction k generalizing s with
  | zero => rfl
  | succ k ih => exact (ih _).trans (State.rxTake_time s p)
@[simp] theorem State.rxFree_time (s : State) (p : Nat) : (s.rxFree p).time = s.time := by simp [State.rxFree]
@[simp] theorem State.countLoss_time (s : State) (p off : Nat) : (s.countLoss p off).time = s.time := by simp [State.countLoss]
@[simp] theorem State.countGood_time (s : State) (p : Nat) (bs : List Byte) (ctl : Bool) : (s.countGood p bs ctl).time = s.time := by
  simp [State.countGood, apply_ite State.time]
@[simp] theorem State.countRx_time (s : State) (p : Nat) (bs : List Byte) (a : RxCase) : (s.countRx p bs a).time = s.time := by
  unfold State.countRx
  split <;> simp
@[simp] theorem State.stopAccount_time (s : State) (p : Nat) : (s.stopAccount p).time = s.time := by
  unfold State.stopAccount
  dsimp only
  split <;> simp
@[simp] theorem State.clsFollow_time (s t : State) (p : Nat) : (s.clsFollow p t).time = t.time := State.setPort_time _ _ _
@[simp] theorem State.stopSet_time (s : State) (p pauseEnd : Nat) (pfcEnd : List Nat) : (s.stopSet p pauseEnd pfcEnd).time = s.time := by
  unfold State.stopSet
  dsimp only
  rw [State.clsFollow_time]
  (repeat' split) <;> simp
@[simp] theorem State.ctrWrite_time (s : State) (a v : Nat) : (s.ctrWrite a v).time = s.time := by simp [State.ctrWrite, apply_ite State.time]
@[simp] theorem State.pauseAct_time (s : State) (p quanta : Nat) : (s.pauseAct p quanta).time = s.time := by
  simp [State.pauseAct, apply_ite State.time]
@[simp] theorem State.pfcAct_time (s : State) (p enables : Nat) (quanta : List Nat) : (s.pfcAct p enables quanta).time = s.time := by
  simp [State.pfcAct, apply_ite State.time]
@[simp] theorem State.countPfc_time (s : State) (p enables : Nat) : (s.countPfc p enables).time = s.time := by
  simp [State.countPfc, apply_ite State.time]
@[simp] theorem State.macCtl_time (s : State) (p : Nat) (bs : List Byte) : (s.macCtl p bs).time = s.time := by
  simp [State.macCtl, apply_ite State.time]
@[simp] theorem State.addFrame_time (s : State) (x : Frame) : (s.addFrame x).time = s.time := by simp [State.addFrame]
@[simp] theorem State.rxEnd_time (s : State) (p : Nat) (bs : List Byte) (cut : Bool) (stamp at_ : Nat) : (s.rxEnd p bs cut stamp at_).time = s.time := by
  simp [State.rxEnd, apply_ite State.time]
@[simp] theorem State.rxAbort_time (s : State) (p : Nat) : (s.rxAbort p).time = s.time := by simp [State.rxAbort, apply_ite State.time]

/-! #### Stages 3 to 5 -/

@[simp] theorem State.fgCount_time (s : State) (k : Nat) (n : Option Nat) (a : Act) (len : Nat) : (s.fgCount k n a len).time = s.time := by
  simp [State.fgCount, apply_ite State.time]
@[simp] theorem State.policeCopy_time (s0 : State) (k pipe len colour : Nat) (a : Act) : (s0.policeCopy k pipe len colour a).2.time = s0.time := by
  grind [State.policeCopy, State.noteTurn_time, State.takeTokens_time, State.count_time]
@[simp] theorem State.learnFrom_time (s : State) (f : Frame) (k : Nat) (m : Mapped) : (s.learnFrom f k m).2.time = s.time := by
  unfold State.learnFrom
  split <;> simp
@[simp] theorem State.recoverFrame_time (s : State) (f : Frame) : (s.recoverFrame f).2.2.time = s.time := by
  grind [State.recoverFrame, State.recover_time]
@[simp] theorem State.numberIn_time (s : State) (f : Frame) : (s.numberIn f).2.2.time = s.time := by
  unfold State.numberIn
  split <;> simp
@[simp] theorem State.passStages_time (s : State) (fid : Nat) (f : Frame) (k : Nat) (m : Mapped) (a : Act) :
    (s.passStages fid f k m a).time = s.time := by
  unfold State.passStages
  (repeat' split) <;> grind [State.passStages, State.setFrame_time, State.recoverFrame_time, State.learnFrom_time, State.numberIn_time,
    State.police_time, State.noteTurn_time]
@[simp] theorem State.lookupFrame_time (s : State) (fid : Nat) : (s.lookupFrame fid).time = s.time := by
  unfold State.lookupFrame
  (repeat' split) <;> grind [State.lookupFrame, State.fgCount_time, State.policeCopy_time, State.setFrame_time, State.count_time, State.passStages_time]

/-! #### Stage 6 -/

@[simp] theorem State.traceFrame_time (s : State) (f : Frame) (entered : List Nat) : (s.traceFrame f entered).time = s.time := by
  simp -implicitDefEqProofs [State.traceFrame, apply_ite State.time]
@[simp] theorem State.refuse_time (s : State) (pipe off : Nat) (q : Option Nat) (len : Nat) : (s.refuse pipe off q len).time = s.time := by
  unfold State.refuse
  split <;> simp
@[simp] theorem State.enter_time (s : State) (lane pipe q n len : Nat) : (s.enter lane pipe q n len).time = s.time := by
  simp [State.enter, apply_ite State.time]
@[simp] theorem State.admitTests_time (s : State) (lane : Nat) (f : Frame) (via thr : Nat) (port eq : Option Nat) (ect : Bool) :
    (s.admitTests lane f via thr port eq ect).2.2.time = s.time := by
  unfold State.admitTests
  (repeat' split) <;> grind [State.admitTests, State.refuse_time, State.wred_time, State.count_time]
@[simp] theorem State.admitMain_time (s : State) (lane fid : Nat) (f : Frame) : (s.admitMain lane fid f).2.time = s.time := by
  grind [State.admitMain, State.count_time, State.admitTests_time, State.push_time, State.enter_time]
@[simp] theorem State.admitMirror_time (s : State) (lane fid : Nat) (f : Frame) (n : Nat) : (s.admitMirror lane fid f n).2.2.time = s.time := by
  grind [State.admitMirror, State.admitTests_time, State.enter_time, State.count_time, State.push_time]
@[simp] theorem State.admitCopy_time (s : State) (lane fid : Nat) (f : Frame) (r : Nat) : (s.admitCopy lane fid f r).2.time = s.time := by
  grind [State.admitCopy, State.admitTests_time, State.push_time, State.enter_time]
@[simp] theorem State.hostAdmit_time (s : State) (f : Frame) (a : Adm) : (s.hostAdmit f a).time = s.time := by
  unfold State.hostAdmit
  split <;> simp [apply_ite State.time]
@[simp] theorem State.admitFrame_time (s : State) (fid lane : Nat) : (s.admitFrame fid lane).time = s.time := by
  grind [State.admitFrame, State.admitMain_time, State.admitMirror_time, State.admitCopy_time, State.setFrame_time, State.freeFrame_time,
    State.traceFrame_time, State.hostAdmit_time, State.laneUse_time]

/-! #### Ports -/

@[simp] theorem State.candTouch_time (s : State) (p : Nat) : (s.candTouch p).time = s.time := by simp [State.candTouch]
@[simp] theorem State.candFollow_time (s t : State) (p : Nat) : (s.candFollow p t).time = t.time := by
  simp [State.candFollow, apply_ite State.time]
@[simp] theorem State.anTell_time (s : State) (p : Nat) : (s.anTell p).time = s.time := by simp [State.anTell, apply_ite State.time]
@[simp] theorem State.anStart_time (s : State) (p : Nat) : (s.anStart p).time = s.time := by
  simp -implicitDefEqProofs [State.anStart, apply_ite State.time]
@[simp] theorem State.ltStart_time (s : State) (p : Nat) : (s.ltStart p).time = s.time := by
  simp -implicitDefEqProofs [State.ltStart, apply_ite State.time]
@[simp] theorem State.lineStart_time (s : State) (p : Nat) : (s.lineStart p).time = s.time := by
  simp -implicitDefEqProofs [State.lineStart, apply_ite State.time]
@[simp] theorem State.toLine_time (s : State) (p : Nat) (bs : List Byte) (cut : Bool) (e : OutEv) : (s.toLine p bs cut e).time = s.time := by
  simp [State.toLine, apply_ite State.time]
@[simp] theorem State.echo_time (s : State) (p : Nat) (bs : List Byte) : (s.echo p bs).time = s.time := by simp [State.echo, apply_ite State.time]
@[simp] theorem State.countTx_time (s : State) (p : Nat) (bs : List Byte) (sent : Nat) : (s.countTx p bs sent).time = s.time := by
  simp [State.countTx]
@[simp] theorem State.lpiEnter_time (s : State) (p : Nat) : (s.lpiEnter p).time = s.time := by simp [State.lpiEnter, apply_ite State.time]
@[simp] theorem State.lpiExit_time (s : State) (p : Nat) : (s.lpiExit p).time = s.time := by simp [State.lpiExit, apply_ite State.time]
@[simp] theorem State.pgWake_time (s : State) (g : Nat) : (s.pgWake g).time = s.time := by
  simp -implicitDefEqProofs [State.pgWake, apply_ite State.time]
@[simp] theorem State.pgUse_time (s : State) (g : Nat) : (s.pgUse g).time = s.time := by simp [State.pgUse, apply_ite State.time]
@[simp] theorem State.setWakeBuf_time (s : State) (g : Nat) (l : List WakeFrame) : (s.setWakeBuf g l).time = s.time := by simp [State.setWakeBuf]
@[simp] theorem State.wakeStore_time (s : State) (p : Nat) (bs : List Byte) (cut : Bool) (stamp at_ : Nat) :
    (s.wakeStore p bs cut stamp at_).time = s.time := by simp [State.wakeStore, apply_ite State.time]
@[simp] theorem State.rxFirst_time (s : State) (p : Nat) : (s.rxFirst p).time = s.time := by simp [State.rxFirst, apply_ite State.time]
@[simp] theorem State.rxLast_time (s : State) (p : Nat) (bs : List Byte) (cut : Bool) (stamp at_ : Nat) :
    (s.rxLast p bs cut stamp at_).time = s.time := by simp [State.rxLast, apply_ite State.time]
@[simp] theorem State.rxCut_time (s : State) (p : Nat) : (s.rxCut p).time = s.time := by simp [State.rxCut, apply_ite State.time]
@[simp] theorem State.txAside_time (s : State) (p : Nat) : (s.txAside p).time = s.time := by
  unfold State.txAside
  split <;> simp [apply_ite State.time]
@[simp] theorem State.txBack_time (s : State) (p : Nat) : (s.txBack p).time = s.time := by
  unfold State.txBack
  split <;> simp
@[simp] theorem State.txGo_time (s : State) (p : Nat) : (s.txGo p).time = s.time := by
  unfold State.txGo
  split <;> simp [apply_ite State.time]
@[simp] theorem State.txAdvance_time (s : State) (p : Nat) : (s.txAdvance p).time = s.time := by simp [State.txAdvance]
@[simp] theorem State.dropHead_time (s : State) (q : Nat) (ctrs : List (Nat × Nat)) : (s.dropHead q ctrs).time = s.time := by
  unfold State.dropHead
  split
  · rfl
  · rw [State.discard_time, foldl_keeps State.time _ (fun u c => State.count_time _ _ _), State.countDrop_time, State.setQueue_time]
@[simp] theorem State.selectTry_time (s : State) (p k : Nat) : (s.selectTry p k).time = s.time := by
  induction k generalizing s with
  | zero => rfl
  | succ k ih =>
    unfold State.selectTry
    (repeat' split) <;> simp [ih]
@[simp] theorem State.selectNew_time (s : State) (p : Nat) : (s.selectNew p).time = s.time := by simp [State.selectNew, apply_ite State.time]
@[simp] theorem State.select_time (s : State) (p : Nat) : (s.select p).time = s.time := by simp [State.select, apply_ite State.time]
@[simp] theorem State.ptpEdit_time (s : State) (p : Nat) (t : TxSt) (f : Frame) : (s.ptpEdit p t f).2.time = s.time := by
  grind [State.ptpEdit, State.count_time]
@[simp] theorem State.txDone_time (s : State) (p : Nat) (t : TxSt) (f : Frame) : (s.txDone p t f).time = s.time := by
  unfold State.txDone
  split <;> simp [apply_ite State.time]
@[simp] theorem State.txEnd_time (s : State) (p : Nat) : (s.txEnd p).time = s.time := by
  grind [State.txEnd, State.setPort_time, State.leaveEgress_time, State.ptpEdit_time, State.txDone_time, State.toLine_time]
@[simp] theorem State.framerAdd_time (s : State) (p : Nat) (t : TxSt) : (s.framerAdd p t).time = s.time := by simp [State.framerAdd]
@[simp] theorem State.framerTake_time (s : State) (p : Nat) : (s.framerTake p).time = s.time := by
  unfold State.framerTake
  split <;> simp [apply_ite State.time]
@[simp] theorem State.txLast_time (s : State) (p : Nat) : (s.txLast p).time = s.time := by simp [State.txLast, apply_ite State.time]
@[simp] theorem State.txTruncated_time (s : State) (p : Nat) (t : TxSt) (n ts : Nat) : (s.txTruncated p t n ts).time = s.time := by
  grind [State.txTruncated, State.count_time, State.countTx_time, State.jobEnd_time, State.leaveEgress_time]
@[simp] theorem State.txCut_time (s : State) (p : Nat) : (s.txCut p).time = s.time := by
  unfold State.txCut
  split <;> simp [apply_ite State.time]
@[simp] theorem State.asideCut_time (s : State) (p : Nat) : (s.asideCut p).time = s.time := by simp [State.asideCut]
@[simp] theorem State.framerCut_time (s : State) (p : Nat) : (s.framerCut p).time = s.time := by
  unfold State.framerCut
  dsimp only
  split <;> simp
@[simp] theorem State.linkFall_time (s : State) (p : Nat) : (s.linkFall p).time = s.time := by
  simp -implicitDefEqProofs [State.linkFall, apply_ite State.time]
@[simp] theorem State.linkRise_time (s : State) (p rxVar : Nat) : (s.linkRise p rxVar).time = s.time := by simp -implicitDefEqProofs [State.linkRise]
@[simp] theorem State.portEnable_time (s : State) (p : Nat) : (s.portEnable p).time = s.time := by
  simp -implicitDefEqProofs [State.portEnable, apply_ite State.time]
@[simp] theorem State.portDisable_time (s : State) (p : Nat) : (s.portDisable p).time = s.time := by
  simp -implicitDefEqProofs [State.portDisable, apply_ite State.time]
@[simp] theorem State.doomedDiscard_time (s : State) (q : Nat) : (s.doomedDiscard q).time = s.time := by
  unfold State.doomedDiscard
  split <;> simp [apply_ite State.time]
@[simp] theorem State.launchFarDiscard_time (s : State) (q : Nat) : (s.launchFarDiscard q).time = s.time := by
  unfold State.launchFarDiscard
  split <;> simp [apply_ite State.time]
@[simp] theorem State.gateDiscard_time (s : State) (q : Nat) : (s.gateDiscard q).time = s.time := by
  unfold State.gateDiscard
  split <;> simp [apply_ite State.time]
@[simp] theorem State.holdExpire_time (s : State) (p : Nat) : (s.holdExpire p).time = s.time := by simp [State.holdExpire, apply_ite State.time]
@[simp] theorem State.pauseWatch_time (s : State) (p : Nat) : (s.pauseWatch p).time = s.time := by simp [State.pauseWatch, apply_ite State.time]

/-! #### Line defects, failures and consequent actions -/

@[simp] theorem State.pmRoll_time (s : State) (p : Nat) : (s.pmRoll p).time = s.time := by grind [State.pmRoll, State.setPm_time]
@[simp] theorem State.pmTouch_time (s0 : State) (p : Nat) : (s0.pmTouch p).time = s0.time := by
  unfold State.pmTouch
  dsimp only
  split <;> simp
@[simp] theorem State.pmBip_time (s0 : State) (p : Nat) (bad : Bool) : (s0.pmBip p bad).time = s0.time := by
  unfold State.pmBip
  dsimp only
  split <;> simp
@[simp] theorem State.pmReport_time (s0 : State) (p deb dfr : Nat) (defSince : Bool) : (s0.pmReport p deb dfr defSince).time = s0.time := by
  unfold State.pmReport
  dsimp only
  split <;> simp
@[simp] theorem State.pmErrs_time (s0 : State) (p n : Nat) : (s0.pmErrs p n).time = s0.time := by
  unfold State.pmErrs
  dsimp only
  split <;> simp
@[simp] theorem State.pmSpoil_time (s0 : State) (p : Nat) : (s0.pmSpoil p).time = s0.time := by
  unfold State.pmSpoil
  dsimp only
  split <;> simp
@[simp] theorem State.lineCount_time (s : State) (p : Nat) (e : LineErrs) : (s.lineCount p e).time = s.time := by
  simp [State.lineCount, apply_ite State.time]
@[simp] theorem State.pmStep_time (s : State) (n : Nat) : (s.pmStep n).time = s.time :=
  foldl_keeps State.time _ (fun u p => by dsimp only; split <;> simp) _ s
@[simp] theorem State.defUpdate_time (s0 : State) (p : Nat) : (s0.defUpdate p).time = s0.time := by
  simp -implicitDefEqProofs [State.defUpdate, apply_ite State.time]
@[simp] theorem State.defSet_time (s : State) (p d : Nat) (on : Bool) : (s.defSet p d on).time = s.time := by simp [State.defSet]
@[simp] theorem State.defRestart_time (s : State) (p : Nat) : (s.defRestart p).time = s.time := by
  simp -implicitDefEqProofs [State.defRestart, apply_ite State.time]
@[simp] theorem State.lofDetect_time (s : State) (p : Nat) : (s.lofDetect p).time = s.time := by simp [State.lofDetect, apply_ite State.time]
@[simp] theorem State.lofClear_time (s : State) (p : Nat) : (s.lofClear p).time = s.time := by simp [State.lofClear, apply_ite State.time]
@[simp] theorem State.lomDetect_time (s : State) (p : Nat) : (s.lomDetect p).time = s.time := by simp [State.lomDetect, apply_ite State.time]
@[simp] theorem State.lomClear_time (s : State) (p : Nat) : (s.lomClear p).time = s.time := by simp [State.lomClear, apply_ite State.time]
@[simp] theorem State.losClear_time (s : State) (p : Nat) : (s.losClear p).time = s.time := by simp [State.losClear, apply_ite State.time]
@[simp] theorem State.failDeclare_time (s : State) (p d : Nat) : (s.failDeclare p d).time = s.time := by
  simp -implicitDefEqProofs [State.failDeclare, apply_ite State.time]
@[simp] theorem State.failClear_time (s : State) (p d : Nat) : (s.failClear p d).time = s.time := by
  simp -implicitDefEqProofs [State.failClear, apply_ite State.time]
@[simp] theorem State.crfLinkUp_time (s : State) (p rxVar : Nat) : (s.crfLinkUp p rxVar).time = s.time := by
  unfold State.crfLinkUp
  split <;> simp [apply_ite State.time]

/-! #### CRF -/

@[simp] theorem State.setRx_time (s : State) (p : Nat) (x : CrfRx) : (s.setRx p x).time = s.time := by simp [State.setRx]
@[simp] theorem State.setTx_time (s : State) (p : Nat) (x : CrfTx) : (s.setTx p x).time = s.time := by simp [State.setTx]
@[simp] theorem State.lfShow_time (s : State) (p : Nat) : (s.lfShow p).time = s.time := by simp -implicitDefEqProofs [State.lfShow]
@[simp] theorem State.setLock_time (s : State) (p : Nat) (on : Bool) : (s.setLock p on).time = s.time := by
  simp -implicitDefEqProofs [State.setLock, apply_ite State.time]
@[simp] theorem State.delinLost_time (s : State) (p : Nat) : (s.delinLost p).time = s.time := by
  simp -implicitDefEqProofs [State.delinLost, apply_ite State.time]
@[simp] theorem State.slotReject_time (s : State) (p i : Nat) (bs : List Byte) : (s.slotReject p i bs).time = s.time := by
  simp [State.slotReject, apply_ite State.time]
@[simp] theorem State.slotBreak_time (s : State) (p : Nat) : (s.slotBreak p).time = s.time := by simp [State.slotBreak, apply_ite State.time]
@[simp] theorem State.syncLeave_time (s : State) (p : Nat) : (s.syncLeave p).time = s.time := by
  simp -implicitDefEqProofs [State.syncLeave, apply_ite State.time]
@[simp] theorem State.crfHunt_time (s : State) (p : Nat) : (s.crfHunt p).time = s.time := by simp [State.crfHunt]
@[simp] theorem State.crfRestart_time (s : State) (p : Nat) : (s.crfRestart p).time = s.time := by simp [State.crfRestart]
@[simp] theorem State.timeReport_time (s : State) (p : Nat) (bs : List Byte) : (s.timeReport p bs).time = s.time := by
  grind [State.timeReport, State.raise_time, State.putBytes_time, State.crfValue_time]
@[simp] theorem State.remoteReport_time (s : State) (p : Nat) (bs : List Byte) : (s.remoteReport p bs).time = s.time := by
  unfold State.remoteReport
  dsimp only
  (repeat' split) <;> simp -implicitDefEqProofs
@[simp] theorem State.hmcReceive_time (s : State) (p : Nat) (bs : List Byte) : (s.hmcReceive p bs).time = s.time := by
  simp -implicitDefEqProofs [State.hmcReceive, apply_ite State.time]
@[simp] theorem State.slotDone_time (s : State) (p i : Nat) (bs : List Byte) : (s.slotDone p i bs).time = s.time := by
  simp [State.slotDone, apply_ite State.time]
@[simp] theorem State.chBytes_time (s : State) (p m : Nat) (inSeq : Bool) (ch : List Byte) : (s.chBytes p m inSeq ch).time = s.time := by
  simp -implicitDefEqProofs [State.chBytes, apply_ite State.time]
@[simp] theorem State.frameStart_time (s : State) (p : Nat) (delin : Bool) : (s.frameStart p delin).time = s.time := by simp [State.frameStart]
@[simp] theorem State.bipCheck_time (s : State) (p v : Nat) : (s.bipCheck p v).time = s.time := by
  unfold State.bipCheck
  split <;> simp [apply_ite State.time]
@[simp] theorem State.statSeen_time (s : State) (p m stat : Nat) : (s.statSeen p m stat).time = s.time := by
  simp -implicitDefEqProofs [State.statSeen, apply_ite State.time]
@[simp] theorem State.mfSeen_time (s : State) (p m : Nat) (inSeq : Bool) : (s.mfSeen p m inSeq).time = s.time := by simp [State.mfSeen]
@[simp] theorem State.runDefect_time (s : State) (p d : Nat) (r : Nat × Nat) : (s.runDefect p d r).time = s.time := by
  simp [State.runDefect, apply_ite State.time]
@[simp] theorem State.statRuns_time (s : State) (p stat : Nat) : (s.statRuns p stat).time = s.time := by simp [State.statRuns]
@[simp] theorem State.fhpSeen_time (s : State) (p fhp : Nat) : (s.fhpSeen p fhp).time = s.time := by simp [State.fhpSeen, apply_ite State.time]
@[simp] theorem State.overhead_time (s : State) (p : Nat) (bs : List Byte) : (s.overhead p bs).time = s.time := by simp [State.overhead]
@[simp] theorem State.fhpCheck_time (s : State) (p o : Nat) : (s.fhpCheck p o).time = s.time := by simp [State.fhpCheck, apply_ite State.time]
@[simp] theorem State.headerByte_time (s0 : State) (p : Nat) (hs : List Byte) (b : Byte) : (s0.headerByte p hs b).time = s0.time := by
  simp [State.headerByte, apply_ite State.time]
@[simp] theorem State.frameByte_time (s0 : State) (p left : Nat) (b : Byte) (ago : Nat) : (s0.frameByte p left b ago).time = s0.time := by
  simp [State.frameByte, apply_ite State.time]
@[simp] theorem State.feedByte_time (s : State) (p : Nat) (b : Byte) (ago : Nat) : (s.feedByte p b ago).time = s.time := by
  unfold State.feedByte
  split <;> simp
@[simp] theorem State.payloadBlock_time (s : State) (p : Nat) (bs : List Byte) : (s.payloadBlock p bs).time = s.time := by
  simp [State.payloadBlock, apply_ite State.time]
@[simp] theorem State.blockHunt_time (s : State) (p : Nat) (bs : List Byte) : (s.blockHunt p bs).time = s.time := by
  grind [State.blockHunt, State.setRx_time, State.setF_time, State.raise_time, State.setPm_time, State.lfShow_time, State.frameStart_time,
    State.count_time]
@[simp] theorem State.blockSync_time (s : State) (p : Nat) (bs : List Byte) : (s.blockSync p bs).time = s.time := by
  simp [State.blockSync, apply_ite State.time]
@[simp] theorem State.crfBlock_time (s : State) (p : Nat) (bs : List Byte) : (s.crfBlock p bs).time = s.time := by
  simp [State.crfBlock, apply_ite State.time]
@[simp] theorem State.formSlot_time (s : State) (p i : Nat) : (s.formSlot p i).2.time = s.time := by grind [State.formSlot, State.setPm_time]
@[simp] theorem State.slotsForm_time (s : State) (p : Nat) : (s.slotsForm p).time = s.time := by simp [State.slotsForm, apply_ite State.time]
@[simp] theorem State.countLate_time (s : State) (p : Nat) (t : TxSt) : (s.countLate p t).time = s.time := by
  unfold State.countLate
  split <;> simp [apply_ite State.time]
@[simp] theorem State.layUnits_time (s : State) (p : Nat) (l : List TxSt) (left : Nat) : (s.layUnits p l left).2.time = s.time := by
  induction l generalizing s left with
  | nil => simp [State.layUnits]
  | cons t rest ih =>
    unfold State.layUnits
    dsimp only
    (repeat' split) <;> simp [ih]
@[simp] theorem State.openDone_time (s : State) (p : Nat) : (s.openDone p).time = s.time := by
  grind [State.openDone, State.setTx_time, State.txDone_time, State.leaveEgress_time]
@[simp] theorem State.layPayload_time (s : State) (p : Nat) : (s.layPayload p).2.2.time = s.time := by
  grind [State.layPayload, State.setTx_time, State.layUnits_time, State.openDone_time]
@[simp] theorem State.framerLaunch_time (s : State) (p : Nat) : (s.framerLaunch p).time = s.time := by
  unfold State.framerLaunch
  split <;> simp [apply_ite State.time]
@[simp] theorem State.leaseSent_time (s : State) (bs : List Byte) : (s.leaseSent bs).time = s.time := by simp [State.leaseSent, apply_ite State.time]
@[simp] theorem State.slotStart_time (s : State) (p m : Nat) : (s.slotStart p m).time = s.time := by
  grind [State.slotStart, State.raise_time, State.count_time, State.setTx_time, State.leaseSent_time]
@[simp] theorem State.crfFrame_time (s : State) (p : Nat) : (s.crfFrame p).time = s.time := by
  simp -implicitDefEqProofs [State.crfFrame, apply_ite State.time]
@[simp] theorem State.hmcSend_time (s : State) (p len : Nat) : (s.hmcSend p len).time = s.time := by
  simp -implicitDefEqProofs [State.hmcSend]
@[simp] theorem State.forceAis_time (s : State) (p : Nat) (v : Bool) : (s.forceAis p v).time = s.time := by simp -implicitDefEqProofs [State.forceAis]
@[simp] theorem State.lineTouch_time (s : State) (p : Nat) (f : State → State) (h : ∀ u, (f u).time = u.time) : (s.lineTouch p f).time = s.time := by
  simp [State.lineTouch, h, apply_ite State.time]
@[simp] theorem State.lineLoss_time (s : State) (p cause : Nat) : (s.lineLoss p cause).time = s.time := by simp [State.lineLoss, apply_ite State.time]
@[simp] theorem State.losDetect_time (s : State) (p cause : Nat) : (s.losDetect p cause).time = s.time := by
  simp [State.losDetect, apply_ite State.time]
@[simp] theorem State.portDrained_time (s : State) (p : Nat) : (s.portDrained p).time = s.time := by
  simp -implicitDefEqProofs [State.portDrained, State.lineTouch, apply_ite State.time]
@[simp] theorem State.lineRestart_time (s : State) (p : Nat) : (s.lineRestart p).time = s.time := by simp [State.lineRestart]

/-! #### Performance monitoring -/

@[simp] theorem State.availStep_time (s : State) (p : Nat) (near ses : Bool) : (s.availStep p near ses).time = s.time := by
  simp [State.availStep, apply_ite State.time]
@[simp] theorem State.degStep_time (s : State) (p : Nat) (bad : Bool) : (s.degStep p bad).time = s.time := by
  simp [State.degStep, apply_ite State.time]
@[simp] theorem State.gradeNone_time (s : State) (p : Nat) (a : PmSec) : (s.gradeNone p a).time = s.time := by
  simp -implicitDefEqProofs [State.gradeNone]
@[simp] theorem State.gradeOne_time (s : State) (p : Nat) (a : PmSec) : (s.gradeOne p a).time = s.time := by
  simp [State.gradeOne, apply_ite State.time]
@[simp] theorem State.secondGrade_time (s0 : State) (p : Nat) : (s0.secondGrade p).time = s0.time := by
  grind [State.secondGrade, State.pmTouch_time, State.setPm_time, State.gradeNone_time, State.gradeOne_time]
@[simp] theorem State.secondFinal_time (s0 : State) (p : Nat) : (s0.secondFinal p).time = s0.time := by
  grind [State.secondFinal, State.pmTouch_time, State.setPm_time, State.raise_time, State.orF_time]
@[simp] theorem State.binEnd_time (s0 : State) (p : Nat) : (s0.binEnd p).time = s0.time := by simp [State.binEnd, apply_ite State.time]
@[simp] theorem State.binShut_time (s : State) (p : Nat) (day : Bool) (b : PmBin) : (s.binShut p day b).time = s.time := by
  simp [State.binShut, apply_ite State.time]
@[simp] theorem State.binClose_time (s0 : State) (p : Nat) : (s0.binClose p).time = s0.time := by
  grind [State.binClose, State.pmTouch_time, State.binShut_time, State.setPm_time]
@[simp] theorem State.pmSnapshot_time (s : State) (p i : Nat) : (s.pmSnapshot p i).time = s.time := by
  simp -implicitDefEqProofs [State.pmSnapshot]

/-! #### Anvil's Ethernet frames -/

@[simp] theorem State.anvilCell_time (s : State) : (s.anvilCell).2.time = s.time := by
  grind [State.anvilCell, State.alloc_time, State.chain_time, State.releaseCells_time, State.raise_time, State.count_time]
@[simp] theorem State.anvilCells_time (s : State) (k : Nat) : (s.anvilCells k).2.time = s.time := by
  induction k generalizing s with
  | zero => rfl
  | succ k ih => unfold State.anvilCells; grind [State.anvilCell_time]
@[simp] theorem State.anvilSend_time (s : State) (p cls : Nat) (bs : List Byte) : (s.anvilSend p cls bs).2.time = s.time := by
  grind [State.anvilSend, State.anvilCells_time, State.addFrame_time, State.stage8_time, State.lenIn_time, State.countAdmit_time]
@[simp] theorem State.setMep_time (s : State) (m : Nat) (x : Mep) : (s.setMep m x).time = s.time := by simp [State.setMep]
@[simp] theorem State.mepSetDefs_time (s : State) (m v : Nat) : (s.mepSetDefs m v).time = s.time := by
  simp -implicitDefEqProofs [State.mepSetDefs, apply_ite State.time]
@[simp] theorem State.mepDef_time (s : State) (m d : Nat) (on : Bool) : (s.mepDef m d on).time = s.time := by simp [State.mepDef]
@[simp] theorem State.mepStop_time (s : State) (m : Nat) : (s.mepStop m).time = s.time := by simp [State.mepStop]
@[simp] theorem State.mepEnable_time (s : State) (m : Nat) : (s.mepEnable m).time = s.time := by
  simp -implicitDefEqProofs [State.mepEnable]
@[simp] theorem State.mepDisable_time (s : State) (m : Nat) : (s.mepDisable m).time = s.time := by
  simp -implicitDefEqProofs [State.mepDisable]
@[simp] theorem State.mepSend_time (s : State) (m : Nat) : (s.mepSend m).time = s.time := by
  grind [State.mepSend, State.setMep_time, State.anvilSend_time, State.count_time]
@[simp] theorem State.mepServe_time (s : State) (m : Nat) : (s.mepServe m).time = s.time := by
  simp -implicitDefEqProofs [State.mepServe, apply_ite State.time]
@[simp] theorem State.ccmService_time (s : State) (a : Nat) : (s.ccmService a).time = s.time := by simp [State.ccmService, apply_ite State.time]
@[simp] theorem State.ccmSee_time (s : State) (m : Nat) (c : Ccm) : (s.ccmSee m c).time = s.time := by simp [State.ccmSee, apply_ite State.time]
@[simp] theorem State.ccmExamine_time (s : State) (m : Nat) : (s.ccmExamine m).time = s.time := by grind [State.ccmExamine, State.ccmSee_time]
@[simp] theorem State.mepLocDue_time (s : State) (m : Nat) : (s.mepLocDue m).time = s.time := by simp [State.mepLocDue, apply_ite State.time]
@[simp] theorem State.mepClearDue_time (s : State) (m d : Nat) : (s.mepClearDue m d).time = s.time := by
  simp [State.mepClearDue, apply_ite State.time]

/-! #### Lanes of ports -/

@[simp] theorem State.modeApply_time (s : State) (p : Nat) (w : Word) : (s.modeApply p w).time = s.time := by
  simp -implicitDefEqProofs [State.modeApply, apply_ite State.time]
@[simp] theorem State.modeCommit_time (s : State) (p : Nat) : (s.modeCommit p).time = s.time := by simp [State.modeCommit, apply_ite State.time]
@[simp] theorem State.modeNext_time (s : State) (p : Nat) : (s.modeNext p).time = s.time := by
  unfold State.modeNext
  split <;> simp [apply_ite State.time]

/-! #### The frames of commands that need the main islands or the always-on island, and the measures of Doze -/

@[simp] theorem State.afterStep_time (s : State) : s.afterStep.time = s.time := by
  unfold State.afterStep
  split <;> simp [apply_ite State.time]
@[simp] theorem State.onMain_time (s : State) (f : State → State) (h : ∀ u, (f u).time = u.time) : (s.onMain f).time = s.time := by
  simp [State.onMain, h, apply_ite State.time]
@[simp] theorem State.onAon_time (s : State) (f : State → State) (h : ∀ u, (f u).time = u.time) : (s.onAon f).time = s.time := by
  simp [State.onAon, h, apply_ite State.time]
@[simp] theorem State.frameIn_time (s : State) (p : Nat) (bs : List Byte) (cut : Bool) : (s.frameIn p bs cut).time = s.time := by
  simp [State.frameIn, apply_ite State.time]
@[simp] theorem State.rxByte_time (s : State) (p : Nat) : (s.rxByte p).time = s.time := by simp [State.rxByte, apply_ite State.time]
@[simp] theorem State.pgGate_time (s : State) (g : Nat) : (s.pgGate g).time = s.time := by
  simp -implicitDefEqProofs [State.pgGate, apply_ite State.time]
@[simp] theorem State.dozeEnd_time (s : State) : s.dozeEnd.time = s.time := by simp -implicitDefEqProofs [State.dozeEnd, apply_ite State.time]
@[simp] theorem State.wakeDone_time (s : State) (g : Nat) : (s.wakeDone g).time = s.time := by simp [State.wakeDone, apply_ite State.time]
@[simp] theorem State.laneSleep_time (s : State) (i : Nat) : (s.laneSleep i).time = s.time := by
  simp -implicitDefEqProofs [State.laneSleep, apply_ite State.time]
@[simp] theorem State.laneWake_time (s : State) (i : Nat) : (s.laneWake i).time = s.time := by
  simp -implicitDefEqProofs [State.laneWake, apply_ite State.time]
@[simp] theorem State.laneBacklog_time (s : State) (i backlog : Nat) : (s.laneBacklog i backlog).time = s.time := by
  simp [State.laneBacklog, apply_ite State.time]
@[simp] theorem State.bankRetain_time (s : State) (b : Nat) : (s.bankRetain b).time = s.time := by
  simp -implicitDefEqProofs [State.bankRetain, apply_ite State.time]
@[simp] theorem State.liftAll_time (s : State) : s.liftAll.time = s.time := by simp [State.liftAll, apply_ite State.time]
@[simp] theorem State.targetDoze_time (s : State) : s.targetDoze.time = s.time := by
  simp -implicitDefEqProofs [State.targetDoze, apply_ite State.time]
@[simp] theorem State.targetFull_time (s : State) (v : Nat) : (s.targetFull v).time = s.time := by simp [State.targetFull, apply_ite State.time]

/-! #### The twin -/

@[simp] theorem State.leaseDo_time (s : State) (ty : Nat) (f : State → State) (h : ∀ u, (f u).time = u.time) : (s.leaseDo ty f).time = s.time := by
  simp [State.leaseDo, h, apply_ite State.time]
@[simp] theorem State.leaseTo_time (s : State) (st held : Nat) (solo : Bool) : (s.leaseTo st held solo).time = s.time := by
  simp -implicitDefEqProofs [State.leaseTo]
@[simp] theorem State.epochRaise_time (s : State) (e : Nat) : (s.epochRaise e).time = s.time := by
  simp -implicitDefEqProofs [State.epochRaise, apply_ite State.time]
@[simp] theorem State.lapse_time (s : State) : s.lapse.time = s.time := by simp -implicitDefEqProofs [State.lapse, apply_ite State.time]
@[simp] theorem State.leaseSay_time (s : State) (ty epoch num : Nat) : (s.leaseSay ty epoch num).time = s.time := by simp [State.leaseSay]
@[simp] theorem State.leaseAsk_time (s : State) (ty epoch : Nat) : (s.leaseAsk ty epoch).time = s.time := by simp [State.leaseAsk]
@[simp] theorem State.claimNow_time (s : State) (ty : Nat) : (s.claimNow ty).time = s.time := by simp [State.claimNow]
@[simp] theorem State.soloNow_time (s : State) : s.soloNow.time = s.time := by simp [State.soloNow]
@[simp] theorem State.releaseNow_time (s0 : State) (st : Nat) : (s0.releaseNow st).time = s0.time := by simp [State.releaseNow, apply_ite State.time]
@[simp] theorem State.leaseRelease_time (s : State) : s.leaseRelease.time = s.time := by simp [State.leaseRelease, apply_ite State.time]
@[simp] theorem State.claimEnd_time (s : State) : s.claimEnd.time = s.time := by simp [State.claimEnd, apply_ite State.time]
@[simp] theorem State.stepDown_time (s : State) (ty : Nat) : (s.stepDown ty).time = s.time := by
  simp -implicitDefEqProofs [State.stepDown]
@[simp] theorem State.seeEpoch_time (s : State) (e ty : Nat) (valid : Bool) : (s.seeEpoch e ty valid).time = s.time := by
  simp -implicitDefEqProofs [State.seeEpoch, apply_ite State.time]
@[simp] theorem State.peerHeard_time (s : State) (ty epochSeen : Nat) : (s.peerHeard ty epochSeen).time = s.time := by
  simp -implicitDefEqProofs [State.peerHeard, apply_ite State.time]
@[simp] theorem State.twinBad_time (s : State) (t : Nat) : (s.twinBad t).time = s.time := by simp [State.twinBad, apply_ite State.time]
@[simp] theorem State.peerNews_time (s : State) (bs : List Byte) : (s.peerNews bs).time = s.time := by
  simp -implicitDefEqProofs [State.peerNews]
@[simp] theorem State.heartbeatIn_time (s0 : State) (path : Path) (bs : List Byte) : (s0.heartbeatIn path bs).time = s0.time := by
  grind [State.heartbeatIn, State.lapse_time, State.count_time, State.setF_time, State.seeEpoch_time, State.peerNews_time, State.peerHeard_time,
    State.twinBad_time]
@[simp] theorem State.pathLost_time (s : State) (path : Path) : (s.pathLost path).time = s.time := by
  unfold State.pathLost
  (repeat' split) <;> grind [State.pathLost, State.raise_time, State.setF_time]
@[simp] theorem State.peerDies_time (s : State) : s.peerDies.time = s.time := by simp -implicitDefEqProofs [State.peerDies, apply_ite State.time]
@[simp] theorem State.pinSend_time (s : State) : s.pinSend.time = s.time := by simp [State.pinSend, apply_ite State.time]
@[simp] theorem State.guardOn_time (s : State) : s.guardOn.time = s.time := by grind [State.guardOn]
@[simp] theorem State.onRenew_time (s : State) (e n : Nat) : (s.onRenew e n).time = s.time := by simp [State.onRenew, apply_ite State.time]
@[simp] theorem State.onAck_time (s : State) (e n : Nat) : (s.onAck e n).time = s.time := by grind [State.onAck]
@[simp] theorem State.onClaim_time (s : State) (e n : Nat) : (s.onClaim e n).time = s.time := by simp [State.onClaim, apply_ite State.time]
@[simp] theorem State.onGrant_time (s : State) (e n : Nat) : (s.onGrant e n).time = s.time := by simp [State.onGrant, apply_ite State.time]
@[simp] theorem State.onDeny_time (s : State) (n : Nat) : (s.onDeny n).time = s.time := by simp [State.onDeny, apply_ite State.time]
@[simp] theorem State.onRelease_time (s : State) (e : Nat) : (s.onRelease e).time = s.time := by simp [State.onRelease, apply_ite State.time]
@[simp] theorem State.leaseAct_time (s : State) (ty e n : Nat) : (s.leaseAct ty e n).time = s.time := by simp [State.leaseAct, apply_ite State.time]
@[simp] theorem State.leaseIn_time (s0 : State) (path : Path) (ty : Nat) (bs : List Byte) : (s0.leaseIn path ty bs).time = s0.time := by
  simp [State.leaseIn, apply_ite State.time]
@[simp] theorem State.twinInbox_time (s : State) : s.twinInbox.time = s.time := by simp [State.twinInbox, apply_ite State.time]
@[simp] theorem State.slotArrives_time (s : State) (i : Nat) (bs : List Byte) : (s.slotArrives i bs).time = s.time := by
  simp [State.slotArrives, apply_ite State.time]
@[simp] theorem State.heartbeatRow_time (s : State) (path : Path) (bs : List Byte) : (s.heartbeatRow path bs).time = s.time := by
  unfold State.heartbeatRow
  split <;> simp
@[simp] theorem State.leaseRow_time (s : State) (path : Path) (ty : Nat) (bs : List Byte) : (s.leaseRow path ty bs).time = s.time := by
  unfold State.leaseRow
  split <;> simp [apply_ite State.time]
@[simp] theorem State.claimDue_time (s : State) : s.claimDue.time = s.time := by
  unfold State.claimDue
  split <;> simp [apply_ite State.time]
@[simp] theorem State.soloDue_time (s : State) : s.soloDue.time = s.time := by simp [State.soloDue, apply_ite State.time]
@[simp] theorem State.claimTimeout_time (s : State) : s.claimTimeout.time = s.time := by simp [State.claimTimeout, apply_ite State.time]
@[simp] theorem State.renewDue_time (s0 : State) : s0.renewDue.time = s0.time := by simp [State.renewDue, apply_ite State.time]
@[simp] theorem State.twinEnable_time (s : State) : s.twinEnable.time = s.time := by
  simp -implicitDefEqProofs [State.twinEnable, apply_ite State.time]
@[simp] theorem State.twinDisable_time (s : State) : s.twinDisable.time = s.time := by
  simp -implicitDefEqProofs [State.twinDisable, apply_ite State.time]
/-- A lease command that is carried out. -/
theorem State.leaseOp_time {s t : State} {op : Nat} (h : s.leaseOp op = some t) : t.time = s.time := by
  unfold State.leaseOp at h
  grind [State.claimNow_time, State.releaseNow_time, State.soloNow_time, State.leaseDo_time, State.leaseTo_time, State.setF_time]
@[simp] theorem State.leaseGo_time (s : State) (op : Nat) : (s.leaseGo op).time = s.time := by
  unfold State.leaseGo
  split
  · exact State.setF_time _ _ _
  have start : (((s.setF Fld.TW_LEASE_CMD_OP op).startGo Reg.TW_LEASE_CMD tUs).lapse).time = s.time := by
    rw [State.lapse_time, State.startGo_time, State.setF_time]
  generalize ((s.setF Fld.TW_LEASE_CMD_OP op).startGo Reg.TW_LEASE_CMD tUs).lapse = u at start ⊢
  cases e : u.leaseOp op with
  | none => simp -implicitDefEqProofs [e, start]
  | some t => simp -implicitDefEqProofs [e, State.leaseOp_time e, start]

/-! #### Commit groups -/

@[simp] theorem State.markPending_time (s : State) (u : Nat) : (s.markPending u).time = s.time := by
  simp -implicitDefEqProofs [State.markPending]
@[simp] theorem State.copyActive_time (s : State) (l : List Nat) : (s.copyActive l).time = s.time := by
  simp -implicitDefEqProofs [State.copyActive]
@[simp] theorem State.unitCommit_time (s : State) (u : Nat) : (s.unitCommit u).time = s.time := by simp [State.unitCommit, apply_ite State.time]
@[simp] theorem State.commitGroups_time (s : State) (mask : Nat) : (s.commitGroups mask).time = s.time := by
  simp -implicitDefEqProofs [State.commitGroups]
@[simp] theorem State.slotFire_time (s : State) (n : Nat) : (s.slotFire n).time = s.time := by
  simp -implicitDefEqProofs [State.slotFire]
@[simp] theorem State.commitUnion_time (s : State) (origin mask : Nat) (written reload : Bool) :
    (s.commitUnion origin mask written reload).time = s.time := by simp [State.commitUnion]
@[simp] theorem State.commitWrite_time (s : State) (origin mask : Nat) : (s.commitWrite origin mask).time = s.time := by
  simp [State.commitWrite, apply_ite State.time]
@[simp] theorem State.slotsFire_time (s : State) : s.slotsFire.time = s.time := by simp [State.slotsFire, apply_ite State.time]
@[simp] theorem State.revertWrite_time (s0 : State) (origin mask : Nat) : (s0.revertWrite origin mask).time = s0.time := by
  simp -implicitDefEqProofs [State.revertWrite, apply_ite State.time]
@[simp] theorem State.slotArm_time (s : State) (origin n : Nat) (lateFire : Bool) : (s.slotArm origin n lateFire).time = s.time := by
  simp -implicitDefEqProofs [State.slotArm, apply_ite State.time]
@[simp] theorem State.slotCancel_time (s : State) (origin n : Nat) : (s.slotCancel origin n).time = s.time := by
  simp -implicitDefEqProofs [State.slotCancel, apply_ite State.time]
@[simp] theorem State.journalWrite_time (s : State) : (s.journalWrite).time = s.time := by
  unfold State.journalWrite
  dsimp only
  (repeat' split) <;> simp -implicitDefEqProofs
@[simp] theorem State.jnSelect_time (s : State) (i seq : Nat) : (s.jnSelect i seq).time = s.time := by simp [State.jnSelect]
@[simp] theorem State.jnCopy_time (s : State) (i : Nat) : (s.jnCopy i).time = s.time := by simp [State.jnCopy, apply_ite State.time]

/-! #### The host interface -/

@[simp] theorem State.loadKilled_time (s : State) (j : Job) (status : Nat) : (s.loadKilled j status).time = s.time := by simp [State.loadKilled]
@[simp] theorem State.jobKillW_time (s : State) (r : Nat) (j : Job) (status w0 : Nat) : (s.jobKillW r j status w0).time = s.time := by
  grind [State.jobKillW, State.countDrop_time, State.loadKilled_time, State.releaseCells_time, State.freeFrame_time, State.jobEnd_time]
@[simp] theorem State.jobKill_time (s : State) (r : Nat) (j : Job) (status : Nat) : (s.jobKill r j status).time = s.time := by simp [State.jobKill]
@[simp] theorem State.jobPush_time (s : State) (r : Nat) (j : Job) : (s.jobPush r j).time = s.time := by simp [State.jobPush]
@[simp] theorem State.entryFail_time (s : State) (r : Nat) (j : Job) (status : Nat) (last : Bool) : (s.entryFail r j status last).time = s.time := by
  simp [State.entryFail, apply_ite State.time]
@[simp] theorem State.heldEnd_time (s : State) (r : Nat) (aborted : Bool) : (s.heldEnd r aborted).time = s.time := by
  grind [State.heldEnd, State.setRing_time, State.jobKill_time]
@[simp] theorem State.curFail_time (s : State) (r status : Nat) : (s.curFail r status).time = s.time := by
  unfold State.curFail
  split <;> simp
@[simp] theorem State.jobReady_time (s : State) (r : Nat) (j : Job) (addr : Nat) (payload : List Byte) : (s.jobReady r j addr payload).time = s.time := by
  simp [State.jobReady, apply_ite State.time]
@[simp] theorem State.jobGrow_time (s : State) (r idx : Nat) (j : Job) (ws : List Word) (payload : List Byte) (ok : Bool) :
    (s.jobGrow r idx j ws payload ok).time = s.time := by
  grind [State.jobGrow, State.setRing_time, State.entryFail_time, State.ringDmaErr_time, State.jobReady_time]
@[simp] theorem State.jobStart_time (s : State) (r idx : Nat) (ws : List Word) : (s.jobStart r idx ws).2.time = s.time := by simp [State.jobStart]
@[simp] theorem State.abortMoot_time (s : State) (r idx : Nat) : (s.abortMoot r idx).time = s.time := by
  simp -implicitDefEqProofs [State.abortMoot, apply_ite State.time]
@[simp] theorem State.jobEntry_time (s : State) (r idx : Nat) (ws : List Word) (payload : List Byte) (ok : Bool) :
    (s.jobEntry r idx ws payload ok).time = s.time := by
  grind [State.jobEntry, State.heldEnd_time, State.curFail_time, State.setRing_time, State.jobStart_time, State.jobGrow_time, State.abortMoot_time,
    State.entryFail_time]
@[simp] theorem State.rxFlush_time (s : State) (r k : Nat) : (s.rxFlush r k).time = s.time := by
  induction k generalizing s with
  | zero => rfl
  | succ k ih => unfold State.rxFlush; split <;> simp [ih]
@[simp] theorem State.rxEntry_time (s : State) (r idx : Nat) (ws : List Word) : (s.rxEntry r idx ws).time = s.time := by simp [State.rxEntry]
@[simp] theorem State.takeEntry_time (s : State) (r : Nat) : (s.takeEntry r).2.time = s.time := by simp [State.takeEntry]
@[simp] theorem State.entryTake_time (s : State) (r : Nat) (ws : List Word) (payload : List Byte) (ok : Bool) :
    (s.entryTake r ws payload ok).time = s.time := by simp [State.entryTake, apply_ite State.time]
@[simp] theorem State.entryRead_time (s : State) (r : Nat) (ws : List Word) (payload : List Byte) : (s.entryRead r ws payload).time = s.time := by
  simp [State.entryRead]
@[simp] theorem State.chainTimeout_time (s : State) (r : Nat) : (s.chainTimeout r).time = s.time := by
  unfold State.chainTimeout
  split <;> simp [apply_ite State.time]
@[simp] theorem State.doorbell_time (s : State) (r nbytes v : Nat) : (s.doorbell r nbytes v).time = s.time := by
  simp -implicitDefEqProofs [State.doorbell, apply_ite State.time]
@[simp] theorem State.msixOwed_time (s : State) (due : Nat → Bool) : (s.msixOwed due).time = s.time := by simp [State.msixOwed]
@[simp] theorem State.msixWrite_time (s : State) (i : Nat) (v : Word) : (s.msixWrite i v).time = s.time := by
  simp [State.msixWrite, apply_ite State.time]
@[simp] theorem State.bar2Write_time (s : State) (offset nbytes v : Nat) : (s.bar2Write offset nbytes v).time = s.time := by
  simp [State.bar2Write, apply_ite State.time]
@[simp] theorem State.vecEoi_time (s : State) (v : Nat) : (s.vecEoi v).time = s.time := by simp [State.vecEoi]
@[simp] theorem State.setJob_time (s : State) (r : Nat) (j : Job) : (s.setJob r j).time = s.time := by simp [State.setJob]
@[simp] theorem State.hostCell_time (s : State) (r : Nat) : (s.hostCell r).time = s.time := by
  grind [State.hostCell, State.alloc_time, State.setJob_time, State.chain_time, State.jobKill_time]
@[simp] theorem State.hostFill_time (s : State) (r num k : Nat) : (s.hostFill r num k).time = s.time := by
  induction k generalizing s with
  | zero => rfl
  | succ k ih => unfold State.hostFill; (repeat' split) <;> simp [ih]
@[simp] theorem State.hostFrame_time (s : State) (r : Nat) (j : Job) (t : Fate) (bs : List Byte) : (s.hostFrame r j t bs).time = s.time := by
  simp [State.hostFrame]
@[simp] theorem State.txFetch_time (s : State) (r : Nat) (bytes : List Byte) : (s.txFetch r bytes).time = s.time := by
  grind [State.txFetch, State.jobKillW_time, State.hostFill_time, State.hostFrame_time]
@[simp] theorem State.dmaErr_time (s : State) (r : Nat) (ws : List Word) : (s.dmaErr r ws).time = s.time := by
  grind [State.dmaErr, State.entryTake_time, State.ringDmaErr_time, State.jobKill_time, State.takeEntry_time, State.rxFlush_time, State.setRing_time,
    State.drawn_time, State.entryFail_time, State.jobStart_time, State.curFail_time]
@[simp] theorem State.copyLost_time (s : State) (q r w : Nat) (x : QEnt) : (s.copyLost q r w x).time = s.time := by
  unfold State.copyLost
  split <;> simp [apply_ite State.time]
@[simp] theorem State.copyWrite_time (s : State) (q r w : Nat) (x : QEnt) (f : Frame) : (s.copyWrite q r w x f).time = s.time := by
  simp -implicitDefEqProofs [State.copyWrite]
@[simp] theorem State.rxCopy_time (s : State) (i : Nat) : (s.rxCopy i).time = s.time := by
  grind [State.rxCopy, State.copyLost_time, State.copyWrite_time]
@[simp] theorem State.completionWrite_time (s : State) (cq : Nat) : (s.completionWrite cq).time = s.time := by
  unfold State.completionWrite
  split <;> simp [apply_ite State.time]
@[simp] theorem State.cqTimeout_time (s : State) (cq : Nat) : (s.cqTimeout cq).time = s.time := by simp [State.cqTimeout, apply_ite State.time]
@[simp] theorem State.ringFresh_time (s : State) (r : Nat) : (s.ringFresh r).time = s.time := by simp [State.ringFresh]
@[simp] theorem State.ringEnable_time (s : State) (origin r : Nat) (cfg : Word) : (s.ringEnable origin r cfg).time = s.time := by
  simp -implicitDefEqProofs [State.ringEnable, apply_ite State.time]
@[simp] theorem State.ringDrain_time (s : State) (r : Nat) (rerun : Bool) : (s.ringDrain r rerun).time = s.time := by
  simp [State.ringDrain, apply_ite State.time]
@[simp] theorem State.ringDisable_time (s : State) (origin r : Nat) : (s.ringDisable origin r).time = s.time := by
  simp -implicitDefEqProofs [State.ringDisable, apply_ite State.time]
@[simp] theorem State.ringReset_time (s : State) (origin r : Nat) : (s.ringReset origin r).time = s.time := by
  simp -implicitDefEqProofs [State.ringReset, apply_ite State.time]
@[simp] theorem State.time_ringIdle (s : State) (r : Nat) : (s.ringIdle_ r).time = s.time := by
  simp -implicitDefEqProofs [State.ringIdle_, apply_ite State.time]
@[simp] theorem State.abortJob_time (s : State) (r idx : Nat) : (s.abortJob r idx).2.time = s.time := by
  grind [State.abortJob, State.setRing_time, State.curFail_time, State.jobKill_time, State.rxFlush_time]
@[simp] theorem State.ringAbort_time (s : State) (r idx : Nat) : (s.ringAbort r idx).time = s.time := by
  simp -implicitDefEqProofs [State.ringAbort, apply_ite State.time]
@[simp] theorem State.hostClear_time (s : State) : (s.hostClear).time = s.time := by
  unfold State.hostClear
  refine foldl_keeps State.time _ (fun u e => foldl_keeps State.time _ (fun v j => ?_) _ _) _ _
  dsimp only
  (repeat' split) <;> simp
@[simp] theorem State.flr_time (s : State) (origin : Nat) : (s.flr origin).time = s.time := by simp [State.flr]
@[simp] theorem State.setPci_time (s : State) (x : PciFn) : (s.setPci x).time = s.time := by simp [State.setPci, apply_ite State.time]
@[simp] theorem State.aerUr_time (s : State) : s.aerUr.time = s.time := by simp [State.aerUr]
@[simp] theorem State.cfgWrite_time (s : State) (o mask : Nat) (v : Word) : (s.cfgWrite o mask v).time = s.time := by
  simp [State.cfgWrite, apply_ite State.time]

/-! #### The regions of the configuration image as they come into effect -/

@[simp] theorem State.setRegion_time (s : State) (r : Nat) (bs : List Byte) : (s.setRegion r bs).time = s.time := by simp [State.setRegion]
@[simp] theorem State.cellsFresh_time (s : State) (old new : List Byte) : (s.cellsFresh old new).time = s.time := by simp [State.cellsFresh]
@[simp] theorem State.memLoad_time (s : State) (bs : List Byte) : (s.memLoad bs).time = s.time := by
  simp -implicitDefEqProofs [State.memLoad]
@[simp] theorem State.qshapeShadow_time (s : State) (bs : List Byte) : (s.qshapeShadow bs).time = s.time := by
  simp -implicitDefEqProofs [State.qshapeShadow]
@[simp] theorem State.qshapeLoad_time (s : State) (bs : List Byte) : (s.qshapeLoad bs).time = s.time := by
  simp -implicitDefEqProofs [State.qshapeLoad]
@[simp] theorem State.fabricLoad_time (s : State) (bs : List Byte) : (s.fabricLoad bs).time = s.time := by simp [State.fabricLoad]
@[simp] theorem State.clkLoad_time (s : State) (bs : List Byte) : (s.clkLoad bs).time = s.time := by simp [State.clkLoad]
@[simp] theorem State.cgLoad_time (s : State) (bs : List Byte) : (s.cgLoad bs).time = s.time := by
  simp -implicitDefEqProofs [State.cgLoad]
@[simp] theorem State.toStage_time (s : State) (n : Nat) : (s.toStage n).time = s.time := by simp [State.toStage, apply_ite State.time]
@[simp] theorem State.imageJournal_time (s : State) (origin sub seq svn regions status digest src : Nat) :
    (s.imageJournal origin sub seq svn regions status digest src).time = s.time := by simp [State.imageJournal]
@[simp] theorem State.imageShow_time (s : State) (seq svn regions : Nat) (digest : List Byte) : (s.imageShow seq svn regions digest).time = s.time := by
  simp [State.imageShow]
@[simp] theorem State.reloadDone_time (s : State) (bit : Nat) : (s.reloadDone bit).time = s.time := by
  unfold State.reloadDone
  split <;> simp [apply_ite State.time]
@[simp] theorem State.flushEntry_time (s : State) (q : Nat) (x : QEnt) : (s.flushEntry q x).time = s.time := by
  simp [State.flushEntry, apply_ite State.time]
@[simp] theorem State.memFlush_time (s : State) : (s.memFlush).time = s.time := by
  unfold State.memFlush
  dsimp only
  refine (foldl_keeps State.time _ (fun u f => ?_) _ _).trans ((foldl_keeps State.time _ (fun u e => ?_) _ _).trans
    ((foldl_keeps State.time _ (fun u e => ?_) _ _).trans (foldl_keeps State.time _ (fun u f => ?_) _ _)))
  · (repeat' split) <;> simp
  · split <;> simp
  · split <;> simp
  · split <;> simp
@[simp] theorem State.calStart_time (s : State) : s.calStart.time = s.time := by simp [State.calStart]
@[simp] theorem State.fabricApply_time (s : State) : s.fabricApply.time = s.time := by simp [State.fabricApply, apply_ite State.time]
@[simp] theorem State.fdyWork_time (s : State) : s.fdyWork.time = s.time := by simp [State.fdyWork, apply_ite State.time]
@[simp] theorem State.fdyReason_time (s : State) (r : Nat) : (s.fdyReason r).time = s.time := by simp [State.fdyReason]
@[simp] theorem State.modeReq_time (s : State) (v : Bool) : (s.modeReq v).time = s.time := by simp [State.modeReq, apply_ite State.time]
@[simp] theorem State.recal_time (s : State) : s.recal.time = s.time := by simp [State.recal]
@[simp] theorem State.bankTest_time (s : State) : s.bankTest.time = s.time := by simp -implicitDefEqProofs [State.bankTest, apply_ite State.time]
@[simp] theorem State.calComplete_time (s : State) (ok : Bool) : (s.calComplete ok).time = s.time := by
  unfold State.calComplete
  split <;> simp [apply_ite State.time]
@[simp] theorem State.dropFence_time (s : State) (q : Nat) : (s.dropFence q).time = s.time := by simp [State.dropFence]
@[simp] theorem State.liftInward_time (s : State) (q : Nat) : (s.liftInward q).time = s.time := by simp [State.liftInward, apply_ite State.time]
@[simp] theorem State.liftOutward_time (s : State) (q : Nat) : (s.liftOutward q).time = s.time := by simp [State.liftOutward, apply_ite State.time]
@[simp] theorem State.foundryReached_time (s : State) : s.foundryReached.time = s.time := by simp [State.foundryReached, apply_ite State.time]
@[simp] theorem State.voqReached_time (s : State) : s.voqReached.time = s.time := by simp [State.voqReached, apply_ite State.time]
@[simp] theorem State.memApply_time (s : State) : s.memApply.time = s.time := by simp [State.memApply, apply_ite State.time]
@[simp] theorem State.testNext_time (s : State) (b : Nat) : (s.testNext b).time = s.time := by simp [State.testNext, apply_ite State.time]
@[simp] theorem State.bankStart_time (s : State) (b : Nat) : (s.bankStart b).time = s.time := by
  unfold State.bankStart
  split <;> simp [apply_ite State.time]
@[simp] theorem State.bankDone_time (s : State) (b : Nat) (pass : Bool) : (s.bankDone b pass).time = s.time := by
  grind [State.bankDone, State.testNext_time, State.orF_time]
@[simp] theorem State.bankSkip_time (s : State) (b : Nat) : (s.bankSkip b).time = s.time := by
  grind [State.bankSkip, State.testNext_time, State.orF_time]

/-! #### The Eldun configuration image -/

@[simp] theorem State.refuseImage_time (s : State) (origin : Nat) (im : List Byte) (status src : Nat) :
    (s.refuseImage origin im status src).time = s.time := by simp [State.refuseImage]
@[simp] theorem State.bootApply_time (s : State) (im : List Byte) (src : Nat) : (s.bootApply im src).time = s.time := by
  simp -implicitDefEqProofs [State.bootApply]
@[simp] theorem State.loadRefused_time (s : State) (r : Nat) (j : Job) (im : List Byte) (e : Nat × Nat) (src : Nat) :
    (s.loadRefused r j im e src).time = s.time := by simp [State.loadRefused]
@[simp] theorem State.reloadFabric_time (s : State) (fabric mem : List Byte) : (s.reloadFabric fabric mem).time = s.time := by
  simp [State.reloadFabric, apply_ite State.time]
@[simp] theorem State.liveReload_time (s : State) (r : Nat) (j : Job) (im : List Byte) : (s.liveReload r j im).time = s.time := by
  simp -implicitDefEqProofs [State.liveReload, apply_ite State.time]
  intros
  split <;> simp -implicitDefEqProofs
@[simp] theorem State.setBtReload_time (s : State) (x : Option Reload) : (s.setBtReload x).time = s.time := by simp [State.setBtReload]
@[simp] theorem State.loadApply_time (s : State) (r tag : Nat) (image : List Byte) : (s.loadApply r tag image).time = s.time := by
  grind [State.loadApply, State.loadRefused_time, State.setBtReload_time, State.bootApply_time, State.liveReload_time]
@[simp] theorem State.loadVerify_time (s : State) (r tag : Nat) (image : List Byte) : (s.loadVerify r tag image).time = s.time := by
  grind [State.loadVerify, State.loadRefused_time, State.jobEnd_time, State.imageJournal_time]
@[simp] theorem State.emitAll_time (s : State) (l : List OutEv) : (s.emitAll l).time = s.time := by
  simp -implicitDefEqProofs [State.emitAll]
@[simp] theorem State.loadFlash_time (s : State) (r tag : Nat) (image : List Byte) (seq0 seq1 : Nat) (readBackOk : Bool) :
    (s.loadFlash r tag image seq0 seq1 readBackOk).time = s.time := by
  grind [State.loadFlash, State.loadRefused_time, State.emitAll_time, State.jobEnd_time, State.imageJournal_time]
@[simp] theorem State.calReload_time (s : State) : s.calReload.time = s.time := by
  unfold State.calReload
  split <;> simp

/-! #### Signet -/

@[simp] theorem State.mainClear_time (s : State) : s.mainClear.time = s.time := by simp [State.mainClear]
@[simp] theorem State.mainReset_time (s : State) : s.mainReset.time = s.time := by simp [State.mainReset]
@[simp] theorem State.pwClear_time (s : State) : s.pwClear.time = s.time := by simp -implicitDefEqProofs [State.pwClear]
@[simp] theorem State.setLevel_time (s : State) (origin lvl cause dur : Nat) : (s.setLevel origin lvl cause dur).time = s.time := by
  simp -implicitDefEqProofs [State.setLevel, apply_ite State.time]
@[simp] theorem State.endSession_time (s : State) (origin cause : Nat) : (s.endSession origin cause).time = s.time := by
  simp [State.endSession, apply_ite State.time]
@[simp] theorem State.observeWrite_time (s : State) (origin : Nat) (v : Bool) : (s.observeWrite origin v).time = s.time := by
  simp [State.observeWrite, apply_ite State.time]
@[simp] theorem State.inspectExpire_time (s : State) : s.inspectExpire.time = s.time := by
  unfold State.inspectExpire
  split <;> simp [apply_ite State.time]
@[simp] theorem State.newNonce_time (s : State) : s.newNonce.time = s.time := by simp -implicitDefEqProofs [State.newNonce]
@[simp] theorem State.burn_time (s : State) (f : Signet) (p : Option FuseProg) : (s.burn f p).time = s.time := by simp [State.burn]
@[simp] theorem State.fuseLoss_time (s : State) : s.fuseLoss.time = s.time := by grind [State.fuseLoss, State.drawn_time]
@[simp] theorem State.secChange_time (s : State) (old kind slot : Nat) : (s.secChange old kind slot).time = s.time := by simp [State.secChange]
@[simp] theorem State.secure_time (s : State) (t : List Byte) : (s.secure t).time = s.time := by
  unfold State.secure
  split <;> simp
@[simp] theorem State.retire_time (s : State) : s.retire.time = s.time := by simp [State.retire]
@[simp] theorem State.makerEnter_time (s : State) (origin : Nat) : (s.makerEnter origin).time = s.time := by simp [State.makerEnter]
@[simp] theorem State.tokenDo_time (s : State) (origin : Nat) (t : List Byte) (fuseOk : Bool) : (s.tokenDo origin t fuseOk).2.time = s.time := by
  grind [State.tokenDo, State.setLevel_time, State.burn_time, State.makerEnter_time, State.secure_time, State.retire_time]
@[simp] theorem State.sgDone_time (s : State) (rc : Nat) : (s.sgDone rc).time = s.time := by simp [State.sgDone]
@[simp] theorem State.tokenRefuse_time (s : State) : s.tokenRefuse.time = s.time := by simp [State.tokenRefuse]
@[simp] theorem State.tokenRun_time (s : State) (ini : Initiator) (fuseOk : Bool) : (s.tokenRun ini fuseOk).time = s.time := by
  unfold State.tokenRun
  dsimp only
  (repeat' split) <;> simp -implicitDefEqProofs
@[simp] theorem State.advanceSvn_time (s : State) (ini : Initiator) (fuseOk : Bool) : (s.advanceSvn ini fuseOk).time = s.time := by
  simp [State.advanceSvn, apply_ite State.time]
@[simp] theorem State.debugEnd_time (s : State) (origin : Nat) : (s.debugEnd origin).time = s.time := by simp [State.debugEnd, apply_ite State.time]
@[simp] theorem State.sgGo_time (s : State) (ini : Initiator) (op : Nat) (fuseOk : Bool) : (s.sgGo ini op fuseOk).time = s.time := by
  simp -implicitDefEqProofs [State.sgGo, apply_ite State.time]
@[simp] theorem State.attest_time (s : State) (r : Nat) : (s.attest r).time = s.time := by
  unfold State.attest
  split <;> simp [apply_ite State.time]
@[simp] theorem State.tracePop_time (s : State) : s.tracePop.time = s.time := by simp [State.tracePop]
@[simp] theorem State.snapGo_time (s : State) (w : Nat) : (s.snapGo w).time = s.time := by simp [State.snapGo, apply_ite State.time]
@[simp] theorem State.closeReceive_time (s : State) : s.closeReceive.time = s.time := by simp [State.closeReceive]
@[simp] theorem State.targetKeep_time (s : State) : s.targetKeep.time = s.time := by simp [State.targetKeep, apply_ite State.time]
@[simp] theorem State.keepReady_time (s : State) : s.keepReady.time = s.time := by simp -implicitDefEqProofs [State.keepReady, apply_ite State.time]
@[simp] theorem State.targetWrite_time (s : State) (v : Nat) : (s.targetWrite v).time = s.time := by
  simp -implicitDefEqProofs [State.targetWrite, apply_ite State.time]
@[simp] theorem State.bootRelease_time (s : State) : s.bootRelease.time = s.time := by simp [State.bootRelease, apply_ite State.time]

/-! #### Mirroring between the twins -/

@[simp] theorem State.shadowWrite_time (s : State) (a : Nat) (w : Word) : (s.shadowWrite a w).time = s.time := by
  unfold State.shadowWrite
  split <;> simp [apply_ite State.time]
@[simp] theorem State.mirrorResend_time (s : State) : s.mirrorResend.time = s.time := by simp [State.mirrorResend, apply_ite State.time]
@[simp] theorem State.twinFrame_time (s : State) (subtype count seq : Nat) (body : List Byte) : (s.twinFrame subtype count seq body).2.time = s.time := by
  simp [State.twinFrame]
@[simp] theorem State.twinTask_time (s : State) : s.twinTask.time = s.time := by
  grind [State.twinTask, State.twinFrame_time, State.anvilSend_time, State.count_time]
@[simp] theorem State.applyRecord_time (s : State) (r : Nat × Nat × List Word) : (s.applyRecord r).time = s.time := by
  simp [State.applyRecord, apply_ite State.time]
@[simp] theorem State.mirrorFrame_time (s : State) (bs : List Byte) : (s.mirrorFrame bs).time = s.time := by
  simp [State.mirrorFrame, apply_ite State.time]
@[simp] theorem State.audit_time (s : State) : s.audit.time = s.time := by simp [State.audit, apply_ite State.time]
@[simp] theorem State.auditIn_time (s : State) (bs : List Byte) : (s.auditIn bs).time = s.time := by
  grind [State.auditIn, State.raise_time, State.orF_time]

/-! #### The register bus -/

@[simp] theorem State.fieldWrite_time (s : State) (a mask : Nat) (w : Word) : (s.fieldWrite a mask w).time = s.time := by
  simp [State.fieldWrite, apply_ite State.time]
@[simp] theorem State.cmdWrite_time (s : State) (a mask : Nat) (w : Word) (go : State → State) (h : ∀ u, (go u).time = u.time) :
    (s.cmdWrite a mask w go).time = s.time := by simp [State.cmdWrite, h, apply_ite State.time]
@[simp] theorem State.accessError_time (s : State) (kind ini addr be : Nat) (write : Bool) : (s.accessError kind ini addr be write).time = s.time := by
  simp -implicitDefEqProofs [State.accessError, apply_ite State.time]
@[simp] theorem State.portOn_time (s : State) (p : Nat) : (s.portOn p).time = s.time := by simp [State.portOn, apply_ite State.time]
@[simp] theorem State.portOff_time (s : State) (p : Nat) : (s.portOff p).time = s.time := by simp [State.portOff, apply_ite State.time]
@[simp] theorem State.anRestart_time (s : State) (p : Nat) : (s.anRestart p).time = s.time := by simp [State.anRestart, apply_ite State.time]
@[simp] theorem State.retrain_time (s : State) (p : Nat) : (s.retrain p).time = s.time := by simp [State.retrain, apply_ite State.time]
@[simp] theorem State.lineEnables_time (s t : State) (p : Nat) : (s.lineEnables p t).time = t.time := by
  unfold State.lineEnables
  extract_lets an lt
  have anKeeps (u : State) : (an u).time = u.time := by simp -implicitDefEqProofs [an, apply_ite State.time]
  have ltKeeps (u : State) : (lt u).time = u.time := by simp -implicitDefEqProofs [lt, apply_ite State.time]
  rw [State.candFollow_time, ltKeeps, anKeeps]
@[simp] theorem State.ptCtrlWrite_time (s : State) (p mask : Nat) (w : Word) : (s.ptCtrlWrite p mask w).time = s.time := by
  simp [State.ptCtrlWrite, apply_ite State.time]
@[simp] theorem State.writePt_time (s : State) (a mask : Nat) (w : Word) : (s.writePt a mask w).time = s.time := by
  simp [State.writePt, apply_ite State.time]
@[simp] theorem State.writeCm_time (s : State) (ini : Initiator) (a mask : Nat) (w : Word) : (s.writeCm ini a mask w).time = s.time := by
  simp [State.writeCm, apply_ite State.time]
@[simp] theorem State.writeSg_time (s : State) (ini : Initiator) (a mask : Nat) (w : Word) (fuseOk : Bool) :
    (s.writeSg ini a mask w fuseOk).time = s.time := by simp [State.writeSg, apply_ite State.time]
@[simp] theorem State.writeHm_time (s : State) (a mask : Nat) (w : Word) : (s.writeHm a mask w).time = s.time := by
  simp [State.writeHm, apply_ite State.time]
@[simp] theorem State.writeTw_time (s : State) (a mask : Nat) (w : Word) : (s.writeTw a mask w).time = s.time := by
  simp -implicitDefEqProofs [State.writeTw, apply_ite State.time]
@[simp] theorem State.cfg2Write_time (s : State) (r mask : Nat) (w : Word) : (s.cfg2Write r mask w).time = s.time := by simp [State.cfg2Write]
@[simp] theorem State.ringCfgWrite_time (s : State) (org r mask : Nat) (w : Word) : (s.ringCfgWrite org r mask w).time = s.time := by
  simp [State.ringCfgWrite, apply_ite State.time]
@[simp] theorem State.writeHi_time (s : State) (ini : Initiator) (a mask : Nat) (w : Word) : (s.writeHi ini a mask w).time = s.time := by
  simp [State.writeHi, apply_ite State.time]
@[simp] theorem State.tblGo_time (s : State) (org k : Nat) : (s.tblGo org k).time = s.time := by
  simp -implicitDefEqProofs [State.tblGo, apply_ite State.time]
@[simp] theorem State.writeLp_time (s0 : State) (ini : Initiator) (a mask : Nat) (w : Word) : (s0.writeLp ini a mask w).time = s0.time := by
  simp [State.writeLp, apply_ite State.time]
@[simp] theorem State.writeCb_time (s : State) (a mask : Nat) (w : Word) : (s.writeCb a mask w).time = s.time := by
  simp [State.writeCb, apply_ite State.time]
@[simp] theorem State.writeFb_time (s : State) (a mask : Nat) (w : Word) : (s.writeFb a mask w).time = s.time := by
  simp [State.writeFb, apply_ite State.time]
@[simp] theorem State.writePl_time (s : State) (ini : Initiator) (a mask : Nat) (w : Word) : (s.writePl ini a mask w).time = s.time := by
  simp [State.writePl, apply_ite State.time]
@[simp] theorem State.writeAv_time (s : State) (a mask : Nat) (w : Word) : (s.writeAv a mask w).time = s.time := by
  simp [State.writeAv, apply_ite State.time]
@[simp] theorem State.writeDb_time (s : State) (a mask : Nat) (w : Word) : (s.writeDb a mask w).time = s.time := by
  simp [State.writeDb, apply_ite State.time]
@[simp] theorem State.writeBlock_time (s : State) (ini : Initiator) (a mask : Nat) (w : Word) (fuseOk : Bool) :
    (s.writeBlock ini a mask w fuseOk).time = s.time := by simp [State.writeBlock, apply_ite State.time]
@[simp] theorem State.multiApply_time (s : State) (ini : Initiator) (b : Nat) (ws : List Word) : (s.multiApply ini b ws).time = s.time := by
  simp [State.multiApply, apply_ite State.time]
@[simp] theorem State.multiWrite_time (s : State) (ini : Initiator) (b n a mask : Nat) (w : Word) : (s.multiWrite ini b n a mask w).time = s.time := by
  simp [State.multiWrite, apply_ite State.time]
@[simp] theorem State.setI2cStat_time (s : State) (v : Nat) : (s.setI2cStat v).time = s.time := by simp [State.setI2cStat]
@[simp] theorem State.regUse_time (s : State) (a : Nat) : (s.regUse a).time = s.time := by simp [State.regUse, apply_ite State.time]
@[simp] theorem State.writeWord_time (s : State) (ini : Initiator) (a be : Nat) (w : Word) (fuseOk : Bool) :
    (s.writeWord ini a be w fuseOk).time = s.time := by grind [State.writeWord, State.multiWrite_time, State.writeBlock_time]
@[simp] theorem State.busWrite_time (s : State) (ini : Initiator) (addr be v : Nat) : (s.busWrite ini addr be v).time = s.time := by
  grind [State.busWrite, State.setIni_time, State.regUse_time, State.drawn_time, State.writeWord_time, State.accessError_time]
@[simp] theorem State.busWord_time (s : State) (ini : Initiator) (a : Nat) (w : Word) : (s.busWord ini a w).time = s.time := by
  simp [State.busWord, apply_ite State.time]
@[simp] theorem State.readClear_time (s : State) (a : Nat) : (s.readClear a).time = s.time := by simp [State.readClear, apply_ite State.time]
@[simp] theorem State.readWord_time (s : State) (ini : Initiator) (a be : Nat) : (s.readWord ini a be).2.time = s.time := by
  grind [State.readWord, State.setIni_time, State.readClear_time]
@[simp] theorem State.answer_time (s : State) (i v : Nat) : (s.answer i v).time = s.time := by simp [State.answer]
@[simp] theorem State.busRead_time (s : State) (ini : Initiator) (addr : Nat) : (s.busRead ini addr).time = s.time := by
  simp [State.busRead, apply_ite State.time]
@[simp] theorem State.busReadSpan_time (s : State) (ini : Initiator) (addr be : Nat) : (s.busReadSpan ini addr be).time = s.time := by
  simp [State.busReadSpan, apply_ite State.time]
@[simp] theorem State.pciRead_time (s : State) (a be : Nat) : (s.pciRead a be).time = s.time := by simp [State.pciRead, apply_ite State.time]
@[simp] theorem State.bar2Span_time (s : State) (o be v : Nat) : (s.bar2Span o be v).time = s.time := by simp [State.bar2Span, apply_ite State.time]
@[simp] theorem State.pciWrite_time (s : State) (a be v : Nat) : (s.pciWrite a be v).time = s.time := by simp [State.pciWrite, apply_ite State.time]
@[simp] theorem State.busWriteAt_time (s : State) (ini : Initiator) (addr be v : Nat) : (s.busWriteAt ini addr be v).time = s.time := by
  simp [State.busWriteAt, apply_ite State.time]
@[simp] theorem State.busReadAt_time (s : State) (ini : Initiator) (addr be : Nat) : (s.busReadAt ini addr be).time = s.time := by
  simp [State.busReadAt, apply_ite State.time]
@[simp] theorem State.busWordAt_time (s : State) (ini : Initiator) (a : Nat) (w : Word) : (s.busWordAt ini a w).time = s.time := by
  simp [State.busWordAt]
@[simp] theorem State.busPair_time (s : State) (ini : Initiator) (a v : Nat) : (s.busPair ini a v).time = s.time := by
  unfold State.busPair
  split <;> simp
@[simp] theorem State.unalignedAccess_time (s : State) (ini : Initiator) (addr : Nat) (write : Bool) :
    (s.unalignedAccess ini addr write).time = s.time := by simp [State.unalignedAccess]

/-! #### The boot sequence -/

@[simp] theorem State.toWait_time (s : State) : s.toWait.time = s.time := by simp [State.toWait]
@[simp] theorem State.romDone_time (s : State) : s.romDone.time = s.time := by simp [State.romDone, apply_ite State.time]
@[simp] theorem State.flashRead_time (s : State) (slot0 slot1 : List Byte) : (s.flashRead slot0 slot1).time = s.time := by
  grind [State.flashRead, State.emitAll_time, State.toWait_time, State.emit_time, State.toStage_time]
@[simp] theorem State.slotStatus_time (s : State) (v : Nat) : (s.slotStatus v).time = s.time := by simp [State.slotStatus]
@[simp] theorem State.verifyDone_time (s : State) : s.verifyDone.time = s.time := by
  grind [State.verifyDone, State.bootApply_time, State.slotStatus_time, State.refuseImage_time, State.raise_time, State.toStage_time, State.toWait_time]
@[simp] theorem State.domainsDone_time (s : State) : s.domainsDone.time = s.time := by simp [State.domainsDone, apply_ite State.time]
@[simp] theorem State.bootWord_time (s : State) (a : Nat) (w : Word) : (s.bootWord a w).time = s.time := by simp [State.bootWord]
@[simp] theorem State.defaultsRecord_time (s : State) (kind : Nat) (ws : List Word) : (s.defaultsRecord kind ws).2.time = s.time := by
  unfold State.defaultsRecord
  dsimp only
  split
  · simp
  split
  · simp
  · exact foldl_keeps State.time (fun t i => { t.bootWord _ _ with goBusy := s.goBusy }) (fun u i => State.bootWord_time _ _ _) _ s
@[simp] theorem State.defaultsApply_time (s : State) : (s.defaultsApply).2.time = s.time := by
  unfold State.defaultsApply
  dsimp only
  split
  · rfl
  · exact foldl_keeps (fun a : Bool × State => a.2.time) _ (fun a x => by rw [State.defaultsRecord_time]) _ (false, s)
@[simp] theorem State.bootRecord_time (s : State) (status : Nat) : (s.bootRecord status).time = s.time := by
  unfold State.bootRecord
  split <;> simp
@[simp] theorem State.defaultsDone_time (s : State) : s.defaultsDone.time = s.time := by simp [State.defaultsDone, apply_ite State.time]
@[simp] theorem State.selftestDone_time (s : State) (failing : Word) : (s.selftestDone failing).time = s.time := by
  simp -implicitDefEqProofs [State.selftestDone, apply_ite State.time]

/-! #### Power and reset events -/

@[simp] theorem State.bootPower_time (s : State) : s.bootPower.time = s.time := by simp -implicitDefEqProofs [State.bootPower, apply_ite State.time]
@[simp] theorem State.mainFresh_time (s : State) : s.mainFresh.time = s.time := by simp [State.mainFresh]
@[simp] theorem State.bootStart_time (s : State) : s.bootStart.time = s.time := by simp [State.bootStart, apply_ite State.time]
@[simp] theorem State.mainLost_time (s0 : State) : s0.mainLost.time = s0.time := by simp -implicitDefEqProofs [State.mainLost, apply_ite State.time]
@[simp] theorem State.railsReturn_time (s : State) : s.railsReturn.time = s.time := by
  simp -implicitDefEqProofs [State.railsReturn, apply_ite State.time]
@[simp] theorem State.sysFall_time (s : State) : s.sysFall.time = s.time := by simp [State.sysFall, apply_ite State.time]
@[simp] theorem State.sysRise_time (s : State) (bootSrc : Nat) : (s.sysRise bootSrc).time = s.time := by simp [State.sysRise, apply_ite State.time]
@[simp] theorem State.allClear_time (s : State) : s.allClear.time = s.time := by simp [State.allClear]
@[simp] theorem State.aonClear_time (s : State) : s.aonClear.time = s.time := by simp [State.aonClear]
@[simp] theorem State.aonFall_time (s : State) : s.aonFall.time = s.time := by simp [State.aonFall, apply_ite State.time]
@[simp] theorem State.aonRise_time (s : State) (i2cAddr : Nat) : (s.aonRise i2cAddr).time = s.time := by simp [State.aonRise, apply_ite State.time]
@[simp] theorem State.aonIsReady_time (s : State) : s.aonIsReady.time = s.time := by simp [State.aonIsReady, apply_ite State.time]
@[simp] theorem State.vaonLoss_time (s : State) : s.vaonLoss.time = s.time := by simp [State.vaonLoss, apply_ite State.time]
@[simp] theorem State.powerOn_time (s : State) : s.powerOn.time = s.time := by simp [State.powerOn, apply_ite State.time]
@[simp] theorem State.perst_time (s : State) (rising : Bool) : (s.perst rising).time = s.time := by simp [State.perst, apply_ite State.time]
@[simp] theorem State.i2cData_time (s : State) (v : Nat) : (s.i2cData v).time = s.time := by simp [State.i2cData]
@[simp] theorem State.i2cWrite_time (s : State) (dev addr : Nat) (v : Word) (lost : Bool) : (s.i2cWrite dev addr v lost).time = s.time := by
  simp [State.i2cWrite, apply_ite State.time]
@[simp] theorem State.i2cRead_time (s : State) (dev addr : Nat) (lost : Bool) : (s.i2cRead dev addr lost).time = s.time := by
  simp [State.i2cRead, apply_ite State.time]
@[simp] theorem State.i2cStatus_time (s : State) (dev : Nat) : (s.i2cStatus dev).time = s.time := by simp [State.i2cStatus, apply_ite State.time]

/-! #### The line's own events on a port -/

@[simp] theorem State.onPort_time (s : State) (p : Nat) (f : State → State) (h : ∀ u, (f u).time = u.time) : (s.onPort p f).time = s.time := by
  simp [State.onPort, h, apply_ite State.time]
@[simp] theorem State.onPortReg_time (s : State) (p : Nat) (f : State → State) (h : ∀ u, (f u).time = u.time) : (s.onPortReg p f).time = s.time := by
  simp [State.onPortReg, h]
@[simp] theorem State.anDone_time (s : State) (p : Nat) (ok : Bool) : (s.anDone p ok).time = s.time := by
  simp -implicitDefEqProofs [State.anDone, apply_ite State.time]
@[simp] theorem State.ltDone_time (s : State) (p : Nat) (lanes : List LtLane) : (s.ltDone p lanes).time = s.time := by
  simp -implicitDefEqProofs [State.ltDone, apply_ite State.time]
@[simp] theorem State.ltFail_time (s : State) (p : Nat) : (s.ltFail p).time = s.time := by
  simp -implicitDefEqProofs [State.ltFail, apply_ite State.time]
@[simp] theorem State.ltRetry_time (s : State) (p : Nat) : (s.ltRetry p).time = s.time := by simp [State.ltRetry, apply_ite State.time]
@[simp] theorem State.lockGained_time (s : State) (p : Nat) : (s.lockGained p).time = s.time := by simp [State.lockGained, apply_ite State.time]
@[simp] theorem State.faultSeen_time (s : State) (p : Nat) (near begins : Bool) : (s.faultSeen p near begins).time = s.time := by
  simp [State.faultSeen, apply_ite State.time]
@[simp] theorem State.lpiReceive_time (s : State) (p : Nat) (enter : Bool) : (s.lpiReceive p enter).time = s.time := by
  simp [State.lpiReceive, apply_ite State.time]
@[simp] theorem State.fromLine_time (s : State) (p : Nat) (bs : List Byte) (f : State → State) (h : ∀ u, (f u).time = u.time) :
    (s.fromLine p bs f).time = s.time := by simp [State.fromLine, h, apply_ite State.time]
@[simp] theorem State.frameHeard_time (s : State) (p : Nat) (bs : List Byte) (cut : Bool) (e : LineErrs) : (s.frameHeard p bs cut e).time = s.time := by
  simp [State.frameHeard, apply_ite State.time]
@[simp] theorem State.blockHeard_time (s : State) (p : Nat) (bs : List Byte) : (s.blockHeard p bs).time = s.time := by simp [State.blockHeard]
@[simp] theorem State.loopFeed_time (s : State) (p : Nat) : (s.loopFeed p).time = s.time := by simp [State.loopFeed, apply_ite State.time]
@[simp] theorem State.linkUpDue_time (s : State) (p rxVar : Nat) : (s.linkUpDue p rxVar).time = s.time := by
  simp [State.linkUpDue, apply_ite State.time]
@[simp] theorem State.linkDownDue_time (s : State) (p : Nat) : (s.linkDownDue p).time = s.time := by simp [State.linkDownDue, apply_ite State.time]

/-! #### What single rows of the table need beside the operations of the blocks -/

@[simp] theorem State.onBus_time (s : State) (ini : Initiator) (a : Nat) (f : State → State) (h : ∀ u, (f u).time = u.time) :
    (s.onBus ini a f).time = s.time := by simp [State.onBus, h, apply_ite State.time]
@[simp] theorem State.onSg_time (s : State) (ini : Initiator) (op : Nat) (f : State → State) (h : ∀ u, (f u).time = u.time) :
    (s.onSg ini op f).time = s.time := by simp [State.onSg, h, apply_ite State.time]
@[simp] theorem State.onPlane_time (s : State) (k : Nat) (f : State → State) (h : ∀ u, (f u).time = u.time) : (s.onPlane k f).time = s.time := by
  simp [State.onPlane, h, apply_ite State.time]
@[simp] theorem State.onPcie_time (s : State) (f : State → State) (h : ∀ u, (f u).time = u.time) : (s.onPcie f).time = s.time := by
  simp [State.onPcie, h, apply_ite State.time]
@[simp] theorem State.tblCommand_time (s : State) (origin k op : Nat) (t : TblArgs) : (s.tblCommand origin k op t).time = s.time := by
  simp [State.tblCommand]
@[simp] theorem State.addendCommand_time (s : State) (v : BitVec 40) : (s.addendCommand v).time = s.time := by simp [State.addendCommand]
@[simp] theorem State.swCommand_time (s : State) (ns : BitVec 32) (frac : Nat) : (s.swCommand ns frac).time = s.time := by
  simp -implicitDefEqProofs [State.swCommand, apply_ite State.time]
@[simp] theorem State.jnSelWrite_time (s : State) (ini : Initiator) (seq : Nat) : (s.jnSelWrite ini seq).time = s.time := by simp [State.jnSelWrite]
@[simp] theorem State.unalignedRow_time (s : State) (ini : Initiator) (addr nbytes : Nat) (write : Bool) :
    (s.unalignedRow ini addr nbytes write).time = s.time := by
  unfold State.unalignedRow
  split <;> simp [apply_ite State.time]
@[simp] theorem State.wredSeed_time (s : State) (i seed : Nat) : (s.wredSeed i seed).time = s.time := by simp [State.wredSeed]
@[simp] theorem State.queueOff_time (s : State) (q : Nat) : (s.queueOff q).time = s.time := by simp [State.queueOff]
@[simp] theorem State.servoEn_time (s : State) (en : Nat) : (s.servoEn en).time = s.time := by simp [State.servoEn]
@[simp] theorem State.servoSrcWrite_time (s : State) (src crfPort : Nat) : (s.servoSrcWrite src crfPort).time = s.time := by
  simp [State.servoSrcWrite]
@[simp] theorem State.bucketRefill_time (s : State) (kind index : Nat) : (s.bucketRefill kind index).time = s.time := by
  unfold State.bucketRefill
  split <;> simp
@[simp] theorem State.cellAsk_time (s : State) (req : CellReq) : (s.cellAsk req).time = s.time := by
  unfold State.cellAsk
  split <;> simp
@[simp] theorem State.releaseStart_time (s : State) (owner first n : Nat) : (s.releaseStart owner first n).time = s.time := by
  simp [State.releaseStart]
@[simp] theorem State.broadcast_time (s : State) : s.broadcast.time = s.time := by simp [State.broadcast, apply_ite State.time]
@[simp] theorem State.sojRead_time (s : State) (ini : Initiator) (q be : Nat) : (s.sojRead ini q be).time = s.time := by simp [State.sojRead]

end Sys2Proof.Machine
end

/-! ### The invariant (R295 to R298, R366, R367) -/

section
namespace Sys2Proof.Machine

/-- The time group stands in `t` as it does in `s`. -/
def State.sameTime (s t : State) : Prop := t.time = s.time

/-- Every row of the table runs in the frame of `State.cmd`, and what it does there leaves the time group alone. -/
theorem exec_keeps_time (c : Instr) : ∃ dt f, (∀ s, exec c s = s.cmd c.wellFormed dt f) ∧ ∀ u, State.sameTime u (f u) := by
  cases c <;> refine ⟨_, _, fun _ => rfl, fun u => ?_⟩ <;>
    simp -implicitDefEqProofs [State.sameTime, State.onMain, State.onAon, State.onPortReg, State.onPort, State.fromLine, State.onBus, State.onSg,
      State.onPlane, State.onPcie, apply_ite State.time]

/-- A command that is answered ends a state that stands at the time at which the command acted. -/
theorem exec_next_settled {c : Instr} {s t : State} (h : exec c s = .next t) :
    ∃ (dt : Nat) (u : State), t = u.settle s (s.begun dt).time ∧ u.time = (s.begun dt).time := by
  obtain ⟨dt, f, row, keeps⟩ := exec_keeps_time c
  rw [row, State.cmd] at h
  split at h
  · injection h with e
    exact ⟨dt, f (s.begun dt), e.symm, keeps _⟩
  · exact nomatch h

/-! #### The time group -/

theorem hmMod_pos : 0 < hmMod := by decide +kernel

theorem toNat_emod_hmMod_lt (x : Int) : (x % (hmMod : Int)).toNat < hmMod := by
  have pos : (0 : Int) < hmMod := by exact_mod_cast hmMod_pos
  have lt := Int.emod_lt_of_pos x pos
  have nonneg := Int.emod_nonneg x pos.ne'
  omega

/-- The clamp of an addend holds. -/
theorem clampAddend_bounds (a : Int) : -(2 ^ 30) ≤ clampAddend a ∧ clampAddend a ≤ 2 ^ 30 := by
  unfold clampAddend
  split
  · omega
  · split <;> omega

/-- The ticks keep the counter below its modulus, and the addend. -/
theorem Time.advance_ok {t : Time} (h : t.ok) (dt : Nat) : (t.advance dt).ok := ⟨toNat_emod_hmMod_lt _, h.2⟩

/-- So does what a command asks of the time group. -/
theorem Time.take_ok {t : Time} (h : t.ok) (r : TimeReq) : (t.take r).ok := by
  obtain ⟨raw, addend⟩ := h
  refine ⟨?_, ?_⟩
  · cases e : r.step with
    | none => simpa [Time.take, e] using raw
    | some d => simpa [Time.take, e] using toNat_emod_hmMod_lt _
  · cases e : r.addend with
    | none => simpa [Time.take, e] using addend
    | some a => simpa [Time.take, e] using clampAddend_bounds a

theorem Time.take_now (t : Time) (r : TimeReq) : (t.take r).now = t.now := rfl

/-! #### Raised vectors -/

/-- Which vectors are raised hangs on registers, the pool's events, Signet and the device time. -/
theorem State.raised_congr {s t : State} (regs : t.regs = s.regs) (pool : t.pool = s.pool) (sg : t.sg = s.sg) (now : t.now = s.now) :
    t.raised = s.raised := by
  have reg (a : Nat) : t.reg a = s.reg a := by rw [State.reg, State.reg, regs]
  have done : t.cmdDone = s.cmdDone := by rw [State.cmdDone, State.cmdDone, sg, now]
  have int (a : Nat) : t.intNow a = s.intNow a := by rw [State.intNow, State.intNow, pool, done, reg]
  have pend (n : Nat) : t.srcPending n = s.srcPending n := by rw [State.srcPending, State.srcPending, int, reg]
  simp only [State.raised, State.mapped, regs, pend]

/-- The end of a command leaves no raised vector armed, as the scan of the vectors is made at the time that then holds. -/
theorem State.settle_noArmedRaised {u : State} {tm : Time} (s : State) (h : u.time = tm) : (u.settle s tm).noArmedRaised := by
  intro v raised
  have now : (u.settle s tm).now = u.now := by rw [State.now, State.now, State.settle_time, Time.take_now, h]
  rw [State.raised_congr (State.settle_regs u s tm) (State.settle_pool u s tm) (State.settle_sg u s tm) now] at raised
  exact State.msixScan_unarmed u v raised

/-- A command that is answered keeps the invariant. -/
theorem exec_keeps_inv {c : Instr} {s t : State} (time : s.time.ok) (h : exec c s = .next t) : t.Inv := by
  obtain ⟨dt, u, rfl, same⟩ := exec_next_settled h
  refine ⟨?_, ⟨rfl, rfl⟩, State.settle_noArmedRaised s same⟩
  rw [State.settle_time, State.begun_time]
  exact Time.take_ok (Time.advance_ok time dt) _

/-- Settles O60: an idle step changes nothing, and every command ends in `State.settle` at the time at which it acted. -/
theorem invKept : Obligations.InvKept := by
  unfold Obligations.InvKept
  intro s t inv h
  cases e : s.pending with
  | nil =>
    rw [step_of_pending_nil s e] at h
    injection h with same
    exact same ▸ inv
  | cons c rest =>
    rw [step_of_pending_cons s c rest e] at h
    exact exec_keeps_inv (s := { s with pending := rest }) inv.1 h

end Sys2Proof.Machine
end

/-! ### Commands of Hallmark: the state at their end -/

section
namespace Sys2Proof.Machine

theorem State.settle_time_quiet {g : State} (s : State) (tm : Time) (h : g.timeReq = ⟨none, none⟩) : (g.settle s tm).time = tm := by
  rw [State.settle_time, h, Time.take_none]

@[simp] theorem State.gate_settle (s s0 : State) (tm : Time) (q : Nat) : (s.settle s0 tm).gate q = s.gate q := by simp [State.gate]
@[simp] theorem State.pin_settle (s s0 : State) (tm : Time) (i : Nat) : (s.settle s0 tm).pin i = s.pin i := by simp [State.pin]
@[simp] theorem State.servo_settle (s s0 : State) (tm : Time) : (s.settle s0 tm).servo = s.servo := State.fld_settle s s0 tm _

@[simp] theorem State.gate_begun (s : State) (dt q : Nat) : (s.begun dt).gate q = s.gate q := by simp [State.gate]
@[simp] theorem State.pin_begun (s : State) (dt i : Nat) : (s.begun dt).pin i = s.pin i := by simp [State.pin]
@[simp] theorem State.servo_begun (s : State) (dt : Nat) : (s.begun dt).servo = s.servo := State.fld_begun s dt _
@[simp] theorem State.servoSrc_begun (s : State) (dt : Nat) : (s.begun dt).servoSrc = s.servoSrc := by simp [State.servoSrc]
@[simp] theorem State.timeAt_begun (s : State) (dt a : Nat) : (s.begun dt).timeAt a = s.timeAt a := by simp [State.timeAt]

end Sys2Proof.Machine
end

/-! ### Gate calendars (R319, R321) -/

section
namespace Sys2Proof.Machine

@[simp] theorem State.gate_setGate_self (s : State) (q : Nat) (g : Gate) : (s.setGate q g).gate q = g := by simp [State.gate, State.setGate]
theorem State.gate_setGate_ne (s : State) (q r : Nat) (g : Gate) (h : r ≠ q) : (s.setGate q g).gate r = s.gate r := by
  simp [State.gate, State.setGate, SMap.get_put_ne _ _ _ _ _ h]

/-- A waiting calendar is in force from its start on. -/
theorem State.gateSettle_due {s : State} {q : Nat} {c : Calendar} (hc : (s.gate q).next = some c) (h : (s.gate q).nextAt ≤ s.hm16) :
    s.gateSettle q = s.setGate q ⟨c, none, 0⟩ := by
  simp [State.gateSettle, hc, h]
theorem State.gateSettle_early {s : State} {q : Nat} {c : Calendar} (hc : (s.gate q).next = some c) (h : s.hm16 < (s.gate q).nextAt) :
    s.gateSettle q = s := by
  simp [State.gateSettle, hc, Nat.not_le.mpr h]
theorem State.gateSettle_none {s : State} {q : Nat} (hc : (s.gate q).next = none) : s.gateSettle q = s := by simp [State.gateSettle, hc]

theorem State.leaves_gateSettle (s : State) (q : Nat) {x : Touch} (h : .hm ∈ x.parts) : s.leaves (s.gateSettle q) x := by
  unfold State.gateSettle
  dsimp only
  split
  · exact State.leaves_ite _ (fun _ => State.leaves_setGate s q _ x h) (fun _ => State.leaves_refl s x)
  · exact State.leaves_refl s x

/-- The gates that are open while no other calendar waits, or its start is still to come. -/
theorem State.gateMask_of_none {s : State} {q : Nat} (hc : (s.gate q).next = none) : s.gateMask q = (s.gate q).cur.mask s.hm16 := by
  simp [State.gateMask, State.calendar, hc]
theorem State.gateMask_of_early {s : State} {q : Nat} {c : Calendar} (hc : (s.gate q).next = some c) (h : s.hm16 < (s.gate q).nextAt) :
    s.gateMask q = (s.gate q).cur.mask s.hm16 := by
  simp [State.gateMask, State.calendar, hc, Nat.not_le.mpr h]

/-- What GATE_EDGE and GATE_CALENDAR_SWITCH make of the device. -/
theorem exec_gateSettle {s : State} {k : Instr} {dt q : Nat} (row : exec k s = s.cmdMain k.wellFormed dt (fun s => s.gateSettle q))
    (hw : k.wellFormed = true) (hm : s.mainUp = true) :
    ∃ t, exec k s = .next t ∧ t.time = (s.begun dt).time ∧ (∀ r, t.gate r = ((s.begun dt).gateSettle q).gate r) ∧
      (s.begun dt).frame t { parts := [.hm] } := by
  have left := State.leaves_gateSettle (s.begun dt) q (x := { parts := [.hm] }) (by simp)
  obtain ⟨run, kept⟩ := exec_main_touches row hw hm rfl left
  exact ⟨_, run, State.settle_time_quiet _ _ (left.2.trans (State.begun_timeReq s dt)), fun r => State.gate_settle _ _ _ r, kept⟩

/-- The start of a waiting calendar has come. -/
theorem exec_gateSettle_due {s : State} {k : Instr} {dt q : Nat} {c : Calendar} (row : exec k s = s.cmdMain k.wellFormed dt (fun s => s.gateSettle q))
    (hw : k.wellFormed = true) (hm : s.mainUp = true) (hc : (s.gate q).next = some c) (h : (s.gate q).nextAt ≤ (s.begun dt).hm16) :
    ∃ t, exec k s = .next t ∧ t.gate q = ⟨c, none, 0⟩ ∧ t.gateMask q = c.mask (s.begun dt).hm16 ∧ (∀ r, r ≠ q → t.gate r = s.gate r) ∧
      (s.begun dt).frame t { parts := [.hm] } := by
  obtain ⟨t, run, time, gates, kept⟩ := exec_gateSettle row hw hm
  rw [State.gateSettle_due (by rwa [State.gate_begun]) (by rwa [State.gate_begun])] at gates
  have own : t.gate q = ⟨c, none, 0⟩ := (gates q).trans (State.gate_setGate_self _ _ _)
  refine ⟨t, run, own, ?_, fun r hr => (gates r).trans ((State.gate_setGate_ne _ _ _ _ hr).trans (State.gate_begun s dt r)), kept⟩
  rw [State.gateMask_of_none (by rw [own]), own, State.hm16, time, State.hm16]

/-- No other calendar comes into force: nothing is stored. -/
theorem exec_gateSettle_still {s : State} {k : Instr} {dt q : Nat} (row : exec k s = s.cmdMain k.wellFormed dt (fun s => s.gateSettle q))
    (hw : k.wellFormed = true) (hm : s.mainUp = true) (still : (s.begun dt).gateSettle q = s.begun dt) :
    ∃ t, exec k s = .next t ∧ t.hm16 = (s.begun dt).hm16 ∧ t.gate q = s.gate q ∧ (s.begun dt).frame t {} := by
  obtain ⟨run, kept⟩ := exec_main_touches row hw hm still (State.leaves_refl _ {})
  refine ⟨_, run, ?_, by rw [State.gate_settle, State.gate_begun], kept⟩
  rw [State.hm16, State.settle_time_quiet _ _ (State.begun_timeReq s dt), State.hm16]

/-- Settles O31: the store that a switch makes, and the gates as the calendar in force computes them. -/
theorem gateCalendars : Obligations.GateCalendars := by
  unfold Obligations.GateCalendars
  refine ⟨fun s dt q c hq hm hc h => ⟨?_, ?_⟩, fun s dt q c hq hm hc h => ?_, fun s dt q hq hm hc => ⟨?_, ?_⟩⟩
  · exact exec_gateSettle_due (k := .gateCalendarSwitch dt q) rfl (decide_eq_true hq) hm hc h
  · obtain ⟨t, run, own, mask, -, kept⟩ := exec_gateSettle_due (k := .gateEdge dt q) rfl (decide_eq_true hq) hm hc h
    exact ⟨t, run, own, mask, kept⟩
  · obtain ⟨t, run, time, own, kept⟩ := exec_gateSettle_still (k := .gateCalendarSwitch dt q) rfl (decide_eq_true hq) hm
      (State.gateSettle_early (by rwa [State.gate_begun]) (by rwa [State.gate_begun]))
    exact ⟨t, run, by rw [State.gateMask_of_early (by rwa [own]) (by rwa [own, time]), own, time], kept⟩
  · obtain ⟨t, run, time, own, kept⟩ := exec_gateSettle_still (k := .gateEdge dt q) rfl (decide_eq_true hq) hm
      (State.gateSettle_none (by rwa [State.gate_begun]))
    exact ⟨t, run, by rw [State.gateMask_of_none (by rwa [own]), own, time], kept⟩
  · obtain ⟨t, run, -, -, kept⟩ := exec_gateSettle_still (k := .gateCalendarSwitch dt q) rfl (decide_eq_true hq) hm
      (State.gateSettle_none (by rwa [State.gate_begun]))
    exact ⟨t, run, kept⟩

end Sys2Proof.Machine
end

/-! ### TOD_RX (R314) -/

section
namespace Sys2Proof.Machine

/-- Sixteen bytes fill four registers. -/
theorem State.putBytes_sixteen {m : List Byte} (s : State) (a : Nat) (h : m.length = 16) :
    s.putBytes a m = (((s.setReg a (w32 (leNat (byteSlice m 0 4)))).setReg (a + 4) (w32 (leNat (byteSlice m 4 4)))).setReg (a + 8)
      (w32 (leNat (byteSlice m 8 4)))).setReg (a + 12) (w32 (leNat (byteSlice m 12 4))) := by
  simp [State.putBytes, h, List.range_succ]

/-- The four registers of `HM_TOD_RX` once a message has been copied. -/
theorem State.reg_putBytes_sixteen {m : List Byte} (s : State) (a i : Nat) (h : m.length = 16) (hi : i < 4) :
    (s.putBytes a m).reg (a + 4 * i) = w32 (leNat (byteSlice m (4 * i) 4)) := by
  rw [State.putBytes_sixteen s a h]
  interval_cases i
  · rw [State.reg_setReg_ne _ _ _ _ (by omega), State.reg_setReg_ne _ _ _ _ (by omega), State.reg_setReg_ne _ _ _ _ (by omega)]
    exact State.reg_setReg_self _ _ _
  · rw [State.reg_setReg_ne _ _ _ _ (by omega), State.reg_setReg_ne _ _ _ _ (by omega)]
    exact State.reg_setReg_self _ _ _
  · rw [State.reg_setReg_ne _ _ _ _ (by omega)]
    exact State.reg_setReg_self _ _ _
  · exact State.reg_setReg_self _ _ _

theorem State.leaves_putBytes_sixteen {m : List Byte} {s : State} {a : Nat} {x : Touch} (h : m.length = 16) (h0 : x.regs a) (h1 : x.regs (a + 4))
    (h2 : x.regs (a + 8)) (h3 : x.regs (a + 12)) : s.leaves (s.putBytes a m) x := by
  rw [State.putBytes_sixteen s a h]
  exact State.leaves_trans (State.leaves_trans (State.leaves_trans (State.leaves_setReg s _ _ x h0) (State.leaves_setReg _ _ _ x h1))
    (State.leaves_setReg _ _ _ x h2)) (State.leaves_setReg _ _ _ x h3)

/-- A good message is copied. -/
theorem exec_todRx_good {s : State} {dt : Nat} {m : List Byte} (ha : s.aonUp = true) (on : s.fld Fld.HM_TOD_CTRL_RX_EN = 1) (len : m.length = 16)
    (sync : u16 m 0 = 0x4354) (ver : u8 m 2 = 1) (crc : u16 m 14 = crc16 (m.take 14)) :
    ∃ t, exec (.todRx dt m false) s = .next t ∧ (∀ i, i < 4 → t.reg (Reg.HM_TOD_RX i) = w32 (leNat (byteSlice m (4 * i) 4))) ∧
      t.fld Fld.HM_INT_STATUS_TOD_RX = 1 ∧
      (s.begun dt).frame t { regs := (· ∈ [Reg.HM_TOD_RX 0, Reg.HM_TOD_RX 1, Reg.HM_TOD_RX 2, Reg.HM_TOD_RX 3, Reg.HM_INT_STATUS]) } := by
  have act : (s.begun dt).todReceive m false = ((s.begun dt).putBytes (Reg.HM_TOD_RX 0) m).raise Fld.HM_INT_STATUS_TOD_RX := by
    simp [State.todReceive, State.bit, on, len, sync, ver, crc]
  have left : (s.begun dt).leaves (((s.begun dt).putBytes (Reg.HM_TOD_RX 0) m).raise Fld.HM_INT_STATUS_TOD_RX)
      { regs := (· ∈ [Reg.HM_TOD_RX 0, Reg.HM_TOD_RX 1, Reg.HM_TOD_RX 2, Reg.HM_TOD_RX 3, Reg.HM_INT_STATUS]) } :=
    State.leaves_trans (State.leaves_putBytes_sixteen len (by decide) (by decide) (by decide) (by decide)) (State.leaves_raise _ _ _ (by decide))
  obtain ⟨run, kept⟩ := exec_aon_touches (c := .todRx dt m false) rfl rfl ha act left
  refine ⟨_, run, fun i hi => ?_, ?_, kept⟩
  · have ne : Reg.HM_TOD_RX i ≠ Reg.HM_INT_STATUS := by rw [Reg.HM_TOD_RX, Reg.HM_INT_STATUS]; omega
    rw [State.reg_settle, State.reg_raise_ne _ _ _ ne]
    have copied := State.reg_putBytes_sixteen (s.begun dt) (Reg.HM_TOD_RX 0) i len hi
    rwa [show Reg.HM_TOD_RX 0 + 4 * i = Reg.HM_TOD_RX i by rw [Reg.HM_TOD_RX, Reg.HM_TOD_RX]; omega] at copied
  · rw [State.fld_settle]
    exact State.fld_raise_self _ _ (by decide) (by decide)

/-- Any other message, and any gap, counts as an error. -/
theorem exec_todRx_bad {s : State} {dt : Nat} {m : List Byte} {gap : Bool} (ha : s.aonUp = true) (on : s.fld Fld.HM_TOD_CTRL_RX_EN = 1)
    (bad : gap = true ∨ m.length ≠ 16 ∨ u16 m 0 ≠ 0x4354 ∨ u8 m 2 ≠ 1 ∨ u16 m 14 ≠ crc16 (m.take 14)) :
    ∃ t, exec (.todRx dt m gap) s = .next t ∧ t.ctr (Ctr.hm 0x18) = (s.ctr (Ctr.hm 0x18) + 1) % 2 ^ 64 ∧ t.fld Fld.HM_INT_STATUS_TOD_RX_ERR = 1 ∧
      (s.begun dt).frame t { regs := (· = Reg.HM_INT_STATUS), ctrs := (· = Ctr.hm 0x18) } := by
  have refused : ¬ (gap = false ∧ m.length = 16 ∧ u16 m 0 = 0x4354 ∧ u8 m 2 = 1 ∧ u16 m 14 = crc16 (m.take 14)) := by
    rintro ⟨g, l, y, v, c⟩
    simp [g, l, y, v, c] at bad
  have act : (s.begun dt).todReceive m gap = ((s.begun dt).count (Ctr.hm 0x18) 1).raise Fld.HM_INT_STATUS_TOD_RX_ERR := by
    rw [State.todReceive, State.bit_begun, if_pos (by simp [State.bit, on]), if_neg refused]
  have left : (s.begun dt).leaves (((s.begun dt).count (Ctr.hm 0x18) 1).raise Fld.HM_INT_STATUS_TOD_RX_ERR)
      { regs := (· = Reg.HM_INT_STATUS), ctrs := (· = Ctr.hm 0x18) } :=
    State.leaves_trans (State.leaves_count _ _ _ _ rfl) (State.leaves_raise _ _ _ rfl)
  obtain ⟨run, kept⟩ := exec_aon_touches (c := .todRx dt m gap) rfl rfl ha act left
  refine ⟨_, run, ?_, ?_, kept⟩
  · rw [State.ctr_settle _ _ _ _ (by decide), State.ctr_raise, State.ctr_count_self, State.ctr_begun]
  · rw [State.fld_settle]
    exact State.fld_raise_self _ _ (by decide) (by decide)

/-- Settles O29, by the three cases of a message: good, bad, and not listened to. -/
theorem todReceived : Obligations.TodReceived :=
  ⟨fun _ _ _ ha on len sync ver crc => exec_todRx_good ha on len sync ver crc, fun _ _ _ _ ha on bad => exec_todRx_bad ha on bad,
    fun s dt m gap _ off => exec_aon_still (c := .todRx dt m gap) rfl rfl (by simp [State.todReceive, State.bit, off])⟩

end Sys2Proof.Machine
end

/-! ### PPS_OUT and TOD_TX (R312, R313) -/

section
namespace Sys2Proof.Machine

/-! #### The pin -/

theorem State.leaves_hm (s : State) (h : Hall) (x : Touch) (hx : .hm ∈ x.parts) : s.leaves { s with hm := h } x :=
  State.leaves_part s _ .hm x hx (fun j hj => by cases j <;> simp_all [Part.same]) rfl rfl rfl rfl rfl

@[simp] theorem State.ppsSet_hm (s : State) (high : Bool) : (s.ppsSet high).hm = { s.hm with ppsHigh := high } := by
  rw [State.ppsSet]
  split
  next h => rw [← h]
  next => rfl
/-- An edge leaves the device. -/
theorem State.ppsSet_edge {s : State} {high : Bool} (h : s.hm.ppsHigh ≠ high) : (s.ppsSet high).out = .pps high :: s.out := by
  rw [State.ppsSet, if_neg h]
  rfl
theorem State.leaves_ppsSet (s : State) (high : Bool) {x : Touch} (h : .hm ∈ x.parts) (g : .out ∈ x.parts) : s.leaves (s.ppsSet high) x :=
  State.leaves_ite _ (fun _ => State.leaves_refl s x) (fun _ => State.leaves_trans (State.leaves_hm s _ x h) (State.leaves_emit _ _ x g))

@[simp] theorem State.ppsQuiet_withHm (s : State) (h : Hall) : ({ s with hm := h } : State).ppsQuiet = s.ppsQuiet := rfl
@[simp] theorem State.ppsQuiet_begun (s : State) (dt : Nat) : (s.begun dt).ppsQuiet = s.ppsQuiet := by simp [State.ppsQuiet]

/-! #### PPS_OUT -/

/-- The instant from which the pulse of a second falls (R312). -/
def State.ppsFallAt (s : State) (k : Int) : Nat :=
  (k * 1000000000 + signed 32 (s.reg Reg.HM_PPS_OUT_OFS).toNat + ((max (s.fld Fld.HM_PPS_CTRL_OUT_WIDTH) 1 * 8 : Nat) : Int)).toNat

/-- A second that the counter has reached is noted, with the end of its pulse. -/
def State.ppsNoted (s : State) : State := { s with hm := { s.hm with ppsSec := some (s.ppsIndex 0), ppsFall := s.ppsFallAt (s.ppsIndex 0) } }

/-- The pin rises for a second that is due. -/
theorem State.ppsRise_due {s : State} (on : s.fld Fld.HM_PPS_CTRL_OUT_EN = 1) (pos : 0 ≤ s.ppsIndex 0) (fresh : s.hm.ppsSec ≠ some (s.ppsIndex 0))
    (loud : s.ppsQuiet = false) : s.ppsRise = s.ppsNoted.ppsSet true := by
  rw [State.ppsRise, if_pos ⟨by simp [State.bit, on], pos, fresh⟩]
  exact if_neg (by simp [loud])

/-- While the output is held low, a second is at most noted. -/
theorem State.ppsRise_quiet {s : State} (quiet : s.ppsQuiet = true) :
    s.ppsRise.hm.ppsHigh = s.hm.ppsHigh ∧ s.leaves s.ppsRise { parts := [.hm] } := by
  rw [State.ppsRise]
  split
  next =>
    dsimp only
    rw [State.ppsQuiet_withHm, if_pos quiet]
    exact ⟨rfl, State.leaves_hm s _ _ (by simp)⟩
  next => exact ⟨rfl, State.leaves_refl s _⟩

/-- The second that has come is a new one, and the output is free. -/
theorem exec_ppsOutRise_due {s : State} {dt : Nat} (ha : s.aonUp = true) (on : s.fld Fld.HM_PPS_CTRL_OUT_EN = 1) (pos : 0 ≤ (s.begun dt).ppsIndex 0)
    (fresh : s.hm.ppsSec ≠ some ((s.begun dt).ppsIndex 0)) (loud : s.ppsQuiet = false) :
    ∃ t, exec (.ppsOutRise dt) s = .next t ∧ t.hm.ppsHigh = true ∧ t.hm.ppsSec = some ((s.begun dt).ppsIndex 0) ∧
      (s.hm.ppsHigh = false → t.out.filter (fun e => !e.isMsix) = .pps true :: s.out.filter (fun e => !e.isMsix)) ∧
      (s.begun dt).frame t { parts := [.hm, .out] } := by
  have act : (s.begun dt).ppsRise = (s.begun dt).ppsNoted.ppsSet true := State.ppsRise_due (by simpa using on) pos (by simpa using fresh) (by simpa using loud)
  have left : (s.begun dt).leaves ((s.begun dt).ppsNoted.ppsSet true) { parts := [.hm, .out] } :=
    State.leaves_trans (State.leaves_hm _ _ _ (by simp)) (State.leaves_ppsSet _ true (by simp) (by simp))
  obtain ⟨run, kept⟩ := exec_aon_touches (c := .ppsOutRise dt) rfl rfl ha act left
  refine ⟨_, run, by simp, by simp [State.ppsNoted], fun low => ?_, kept⟩
  rw [State.settle_out, State.ppsSet_edge (by simp [State.ppsNoted, low])]
  simp [State.ppsNoted, OutEv.isMsix]

theorem exec_ppsOutRise_quiet {s : State} {dt : Nat} (ha : s.aonUp = true) (quiet : s.ppsQuiet = true) :
    ∃ t, exec (.ppsOutRise dt) s = .next t ∧ t.hm.ppsHigh = s.hm.ppsHigh ∧ (s.begun dt).frame t { parts := [.hm] } := by
  obtain ⟨low, left⟩ := State.ppsRise_quiet (s := s.begun dt) (by simpa using quiet)
  obtain ⟨run, kept⟩ := exec_aon_touches (c := .ppsOutRise dt) rfl rfl ha rfl left
  exact ⟨_, run, by rw [State.settle_hm, low, State.begun_hm], kept⟩

/-- The width of the pulse has passed. -/
theorem exec_ppsOutFall_due {s : State} {dt : Nat} (ha : s.aonUp = true) (high : s.hm.ppsHigh = true) (past : s.hm.ppsFall ≤ (s.begun dt).hmNs) :
    ∃ t, exec (.ppsOutFall dt) s = .next t ∧ t.hm = { s.hm with ppsHigh := false } ∧
      t.out.filter (fun e => !e.isMsix) = .pps false :: s.out.filter (fun e => !e.isMsix) ∧ (s.begun dt).frame t { parts := [.hm, .out] } := by
  have act : (s.begun dt).ppsFallDue = (s.begun dt).ppsSet false := by
    rw [State.ppsFallDue, if_pos (by rw [State.begun_hm]; exact ⟨high, past⟩)]
  have left : (s.begun dt).leaves ((s.begun dt).ppsSet false) { parts := [.hm, .out] } := State.leaves_ppsSet _ false (by simp) (by simp)
  obtain ⟨run, kept⟩ := exec_aon_touches (c := .ppsOutFall dt) rfl rfl ha act left
  refine ⟨_, run, by simp, ?_, kept⟩
  rw [State.settle_out, State.ppsSet_edge (by simp [high])]
  simp [OutEv.isMsix]

/-! #### The ToD message -/

theorem crc16Bit_lt {poly c : Nat} (h : poly < 2 ^ 16) : crc16Bit poly c < 2 ^ 16 := by
  have low : c * 2 % 65536 < 2 ^ 16 := Nat.mod_lt _ (by decide)
  rw [crc16Bit]
  split
  · exact Nat.xor_lt_two_pow low h
  · exact low
theorem crc16With_lt {poly : Nat} (h : poly < 2 ^ 16) (bs : List Byte) : ∀ {init : Nat}, init < 2 ^ 16 → crc16With poly init bs < 2 ^ 16 := by
  induction bs with
  | nil => exact fun hi => hi
  | cons b bs ih => exact fun _ => ih (crc16Bit_lt h)
theorem crc16_lt (bs : List Byte) : crc16 bs < 2 ^ 16 := crc16With_lt (by decide) bs (by decide)

/-- Six bytes spell the number that they were made of. -/
theorem beNat_six {v : Nat} (h : v < 2 ^ 48) : beNat (beBytes 6 v) = v := by
  simp [beNat, beBytes]
  omega

theorem unsign_lt (n : Nat) (v : Int) : unsign n v < 2 ^ n := by
  have pos : (0 : Int) < ((2 ^ n : Nat) : Int) := by positivity
  have := Int.emod_lt_of_pos v pos
  have := Int.emod_nonneg v pos.ne'
  rw [unsign]
  omega
theorem unsign_cast (n : Nat) (v : Int) : (unsign n v : Int) = v % (2 ^ n : Int) := by
  rw [unsign, Int.toNat_of_nonneg (Int.emod_nonneg _ (by positivity))]
  push_cast
  rfl

theorem todBaud_match (v : Nat) : todBaud v = (match v with | 0 => 9600 | 1 => 115200 | 2 => 460800 | _ => 921600) := by
  match v with
  | 0 | 1 | 2 => rfl
  | n + 3 => simp [todBaud]

/-- The framing of a byte, bit by bit. -/
theorem uartBits_eq (b : Byte) : uartBits b =
    [false, b.getLsbD 0, b.getLsbD 1, b.getLsbD 2, b.getLsbD 3, b.getLsbD 4, b.getLsbD 5, b.getLsbD 6, b.getLsbD 7, true] := by
  simp [uartBits, List.range_succ, bitOf_eq_testBit, BitVec.getLsbD]

/-- The fourteen bytes that the CRC covers. -/
def State.todBody (s : State) (k : Int) : List Byte :=
  beBytes 2 0x4354 ++ beBytes 1 1 ++ beBytes 1 s.servo ++ beBytes 6 (unsign 48 k) ++
    beBytes 2 (s.fld Fld.HM_UTC_UTC_OFFSET) ++ beBytes 1 (s.fld Fld.HM_UTC_CLOCK_CLASS) ++ beBytes 1 0

theorem State.todMessage_eq (s : State) (k : Int) : s.todMessage k = s.todBody k ++ beBytes 2 (crc16 (s.todBody k)) := rfl
theorem State.todBody_length (s : State) (k : Int) : (s.todBody k).length = 14 := by simp [State.todBody, beBytes_length]

/-- The fields of the message (R313). -/
theorem State.todMessage_fields (s : State) (k : Int) :
    (s.todMessage k).length = 16 ∧ u16 (s.todMessage k) 0 = 0x4354 ∧ u8 (s.todMessage k) 2 = 1 ∧ u8 (s.todMessage k) 3 = s.servo ∧
      (beNat (byteSlice (s.todMessage k) 4 6) : Int) = k % 2 ^ 48 ∧ u16 (s.todMessage k) 10 = s.fld Fld.HM_UTC_UTC_OFFSET ∧
      u8 (s.todMessage k) 12 = s.fld Fld.HM_UTC_CLOCK_CLASS ∧ u8 (s.todMessage k) 13 = 0 := by
  have servo : s.servo < 2 ^ 2 := s.fld_lt Fld.HM_SERVO_STATUS_STATE
  have utc : s.fld Fld.HM_UTC_UTC_OFFSET < 2 ^ 16 := s.fld_lt _
  have cls : s.fld Fld.HM_UTC_CLOCK_CLASS < 2 ^ 8 := s.fld_lt _
  have slice : byteSlice (s.todMessage k) 4 6 = beBytes 6 (unsign 48 k) := rfl
  refine ⟨by simp [State.todMessage_eq, State.todBody_length, beBytes_length], ?_, rfl, ?_, ?_, ?_, ?_, rfl⟩
  · show (BitVec.ofNat 8 (0x4354 / 2 ^ (8 * 1))).toNat * 256 + (BitVec.ofNat 8 (0x4354 / 2 ^ (8 * 0))).toNat = _
    simp
  · exact (BitVec.toNat_ofNat _ _).trans (by simp; omega)
  · rw [slice, beNat_six (unsign_lt 48 k), unsign_cast]
  · show (BitVec.ofNat 8 (_ / 2 ^ (8 * 1))).toNat * 256 + (BitVec.ofNat 8 (_ / 2 ^ (8 * 0))).toNat = _
    simp
    omega
  · exact (BitVec.toNat_ofNat _ _).trans (by simp; omega)

/-- It ends with the CRC of its other bytes. -/
theorem State.todMessage_crc (s : State) (k : Int) : u16 (s.todMessage k) 14 = crc16 ((s.todMessage k).take 14) := by
  have body : (s.todMessage k).take 14 = s.todBody k := List.take_left' (s.todBody_length k)
  have crc := crc16_lt (s.todBody k)
  rw [body]
  show (BitVec.ofNat 8 (crc16 (s.todBody k) / 2 ^ (8 * 1))).toNat * 256 + (BitVec.ofNat 8 (crc16 (s.todBody k) / 2 ^ (8 * 0))).toNat = _
  simp
  omega

/-- The state once the message of the second that has come is sent. -/
def State.todSent (s : State) : State :=
  ({ s with hm := { s.hm with todSec := some (s.ppsIndex 10000000) } } : State).emit
    (.tod (todBaud (s.fld Fld.HM_TOD_CTRL_BAUD)) ((s.todMessage (s.ppsIndex 10000000)).flatMap uartBits))
theorem State.todSend_due {s : State} (on : s.fld Fld.HM_TOD_CTRL_TX_EN = 1) (pos : 0 ≤ s.ppsIndex 10000000)
    (fresh : s.hm.todSec ≠ some (s.ppsIndex 10000000)) : s.todSend = s.todSent := if_pos ⟨by simp [State.bit, on], pos, fresh⟩

/-- The message of a second is due. -/
theorem exec_todTx_due {s : State} {dt : Nat} (ha : s.aonUp = true) (on : s.fld Fld.HM_TOD_CTRL_TX_EN = 1) (pos : 0 ≤ (s.begun dt).ppsIndex 10000000)
    (fresh : s.hm.todSec ≠ some ((s.begun dt).ppsIndex 10000000)) :
    ∃ t, exec (.todTx dt) s = .next t ∧
      t.out.filter (fun e => !e.isMsix) = .tod (todBaud (s.fld Fld.HM_TOD_CTRL_BAUD))
        (((s.begun dt).todMessage ((s.begun dt).ppsIndex 10000000)).flatMap uartBits) :: s.out.filter (fun e => !e.isMsix) ∧
      t.hm = { s.hm with todSec := some ((s.begun dt).ppsIndex 10000000) } ∧ (s.begun dt).frame t { parts := [.hm, .out] } := by
  have left : (s.begun dt).leaves (s.begun dt).todSent { parts := [.hm, .out] } :=
    State.leaves_trans (State.leaves_hm _ _ _ (by simp)) (State.leaves_emit _ _ _ (by simp))
  obtain ⟨run, kept⟩ := exec_aon_touches (c := .todTx dt) rfl rfl ha (State.todSend_due (by simpa using on) pos (by simpa using fresh)) left
  refine ⟨_, run, ?_, by simp [State.todSent, State.emit], kept⟩
  rw [State.settle_out]
  simp [State.todSent, State.emit, OutEv.isMsix]

/-- Settles O28, by the cases of the two outputs: a second that is due, one that is held back, and the end of a pulse. -/
theorem ppsAndTod : Obligations.PpsAndTod := by
  unfold Obligations.PpsAndTod
  refine ⟨fun s dt ha on pos fresh loud => exec_ppsOutRise_due ha on pos fresh loud, fun s dt ha quiet => exec_ppsOutRise_quiet ha quiet,
    fun s dt ha high past => exec_ppsOutFall_due ha high past, fun s dt ha on pos fresh => ?_, fun s dt _ off => ?_⟩
  · obtain ⟨t, run, sent, noted, kept⟩ := exec_todTx_due ha on pos fresh
    obtain ⟨len, sync, ver, servo, sec, utc, cls, zero⟩ := (s.begun dt).todMessage_fields ((s.begun dt).ppsIndex 10000000)
    have crc := (s.begun dt).todMessage_crc ((s.begun dt).ppsIndex 10000000)
    rw [State.servo_begun] at servo
    rw [State.fld_begun] at utc cls
    rw [todBaud_match, funext uartBits_eq] at sent
    exact ⟨t, _, run, sent, len, sync, ver, servo, sec, utc, cls, zero, crc, noted, kept⟩
  · refine exec_aon_still (c := .todTx dt) rfl rfl (if_neg ?_)
    rintro ⟨on, -, fresh⟩
    rcases off with off | off
    · simp [State.bit, off] at on
    · exact fresh (by rw [State.begun_hm, off])

end Sys2Proof.Machine
end

/-! ### Fields of a word with some bits cleared or set -/

section
namespace Sys2Proof.Machine

theorem testBit_bitsOf (w lo len i : Nat) : (bitsOf w lo len).testBit i = (decide (i < len) && w.testBit (i + lo)) := by
  rw [bitsOf, Nat.testBit_mod_two_pow, Nat.testBit_div_two_pow]

/-- A mask that holds every bit of a field keeps it. -/
theorem bitsOf_and_full (w m : Word) {lo len : Nat} (h : bitsOf m.toNat lo len = 2 ^ len - 1) :
    bitsOf (w &&& m).toNat lo len = bitsOf w.toNat lo len := by
  refine Nat.eq_of_testBit_eq fun i => ?_
  have full := congrArg (·.testBit i) h
  simp only [testBit_bitsOf, Nat.testBit_two_pow_sub_one] at full
  rw [testBit_bitsOf, testBit_bitsOf, BitVec.toNat_and, Nat.testBit_and]
  by_cases hi : i < len
  · simp_all
  · simp [hi]
/-- Bits set outside a field keep it. -/
theorem bitsOf_or_outside (w m : Word) {lo len : Nat} (h : bitsOf m.toNat lo len = 0) : bitsOf (w ||| m).toNat lo len = bitsOf w.toNat lo len := by
  refine Nat.eq_of_testBit_eq fun i => ?_
  have none := congrArg (·.testBit i) h
  simp only [testBit_bitsOf, Nat.zero_testBit] at none
  rw [testBit_bitsOf, testBit_bitsOf, BitVec.toNat_or, Nat.testBit_or]
  by_cases hi : i < len
  · simp_all
  · simp [hi]

/-- The time of the counter, after what leaves it alone. -/
theorem State.hm16_congr {s t : State} (h : t.time = s.time) : t.hm16 = s.hm16 := by rw [State.hm16, State.hm16, h]

end Sys2Proof.Machine
end

/-! ### Event pins (R315) -/

section
namespace Sys2Proof.Machine

/-! #### The pin -/

@[simp] theorem State.pin_setPin_self (s : State) (i : Nat) (x : EvtPin) : (s.setPin i x).pin i = x := by simp [State.pin, State.setPin]
theorem State.pin_setPin_ne (s : State) {i j : Nat} (x : EvtPin) (h : j ≠ i) : (s.setPin i x).pin j = s.pin j := by
  simp [State.pin, State.setPin, SMap.get_put_ne _ _ _ _ _ h]

@[simp] theorem State.pin_pinLevel_self (s : State) (i : Nat) (high : Bool) : (s.pinLevel i high).pin i = { s.pin i with high := high } := by
  rw [State.pinLevel]
  split
  next h => rw [← h]
  next => exact State.pin_setPin_self s i _
theorem State.pin_pinLevel_ne (s : State) {i j : Nat} (high : Bool) (h : j ≠ i) : (s.pinLevel i high).pin j = s.pin j := by
  rw [State.pinLevel]
  split
  · rfl
  · exact State.pin_setPin_ne s _ h
/-- An edge leaves the device. -/
theorem State.pinLevel_edge {s : State} {i : Nat} {high : Bool} (h : (s.pin i).high ≠ high) : (s.pinLevel i high).out = .evt i high :: s.out := by
  rw [State.pinLevel, if_neg h]
  rfl
theorem State.leaves_pinLevel (s : State) (i : Nat) (high : Bool) {x : Touch} (h : .hm ∈ x.parts) (g : .out ∈ x.parts) : s.leaves (s.pinLevel i high) x :=
  State.leaves_ite _ (fun _ => State.leaves_refl s x) (fun _ => State.leaves_trans (State.leaves_setPin s i _ x h) (State.leaves_emit _ _ x g))

/-- A capture is a whole nanosecond within 2 ns of the instant (R311). -/
theorem State.pinNs_near (s : State) : (s.pinNs * 65536 - s.hmRel 0).natAbs ≤ 2 * 65536 := by
  unfold State.pinNs
  dsimp only
  split <;> omega

theorem State.evtPeriod_pos (s : State) (i : Nat) : 0 < s.evtPeriod i := by
  have : 1000 ≤ clampNat 1000 1000000000 (s.fld (Fld.HM_EVT_PERIOD_PERIOD i)) := Nat.le_max_left _ _
  rw [State.evtPeriod]
  omega

/-! #### A write of `HM_EVT_CTRL` -/

/-- What a write of `HM_EVT_CTRL` touches. -/
def evtTouch (i : Nat) : Touch := { parts := [.hm, .out], regs := (· = Reg.HM_EVT_CTRL i) }

/-- `HM_EVT_CTRL` is written, and the pulse train has ended. -/
def State.evtStopped (s : State) (i : Nat) (w : Word) : State :=
  let s1 := (s.setReg (Reg.HM_EVT_CTRL i) (w &&& 0xF8000000#32)).pinLevel i false
  s1.setPin i { s1.pin i with next := none, until_ := none }

section
variable (s : State) (i : Nat) (w : Word)

theorem State.leaves_evtStopped {x : Touch} (h : .hm ∈ x.parts) (g : .out ∈ x.parts) (k : x.regs (Reg.HM_EVT_CTRL i)) : s.leaves (s.evtStopped i w) x :=
  State.leaves_trans (State.leaves_setReg s _ _ x k) (State.leaves_trans (State.leaves_pinLevel _ i false h g) (State.leaves_setPin _ i _ x h))

@[simp] theorem State.pin_evtStopped_self : (s.evtStopped i w).pin i = { s.pin i with next := none, until_ := none, high := false } := by
  rw [State.evtStopped, State.pin_setPin_self, State.pin_pinLevel_self]
  rfl
theorem State.pin_evtStopped_ne {j : Nat} (h : j ≠ i) : (s.evtStopped i w).pin j = s.pin j := by
  rw [State.evtStopped, State.pin_setPin_ne _ _ h, State.pin_pinLevel_ne _ _ h]
  rfl
theorem State.ctrl_evtStopped : (s.evtStopped i w).reg (Reg.HM_EVT_CTRL i) = w &&& 0xF8000000#32 := by
  have written := State.reg_setReg_self s (Reg.HM_EVT_CTRL i) (w &&& 0xF8000000#32)
  have kept : (s.setReg (Reg.HM_EVT_CTRL i) (w &&& 0xF8000000#32)).leaves (s.evtStopped i w) { parts := [.hm, .out] } :=
    State.leaves_trans (State.leaves_pinLevel _ i false (by simp) (by simp)) (State.leaves_setPin _ i _ _ (by simp))
  rw [kept.reg (fun h => h), written]

end

/-- A write without ARM ends the pulse train. -/
theorem State.evtCtrlWrite_idle {s : State} {i : Nat} {w : Word} (h : bitOf w.toNat 26 = false) : s.evtCtrlWrite i w = s.evtStopped i w := by
  rw [State.evtCtrlWrite, if_neg (by simp [h])]
  rfl

/-! #### ARM -/

/-- The state in which ARM acts, when the row EVT_ARM gives it: the other fields of `HM_EVT_CTRL` are written as they stand. -/
def State.evtReady (s : State) (i : Nat) : State := s.evtStopped i (s.reg (Reg.HM_EVT_CTRL i) ||| 0x04000000#32)

section
variable (s : State) (i : Nat)

theorem State.evtArmRow_eq : s.evtArmRow i = (s.evtReady i).evtArm i := by
  refine if_pos ?_
  rw [BitVec.toNat_or, bitOf_or, Bool.or_eq_true]
  exact .inr (by decide)

theorem State.leaves_evtReady {x : Touch} (h : .hm ∈ x.parts) (g : .out ∈ x.parts) (k : x.regs (Reg.HM_EVT_CTRL i)) : s.leaves (s.evtReady i) x :=
  s.leaves_evtStopped i _ h g k
theorem State.evtReady_left : s.leaves (s.evtReady i) (evtTouch i) := s.leaves_evtReady i (by simp [evtTouch]) (by simp [evtTouch]) rfl

@[simp] theorem State.pin_evtReady_self : (s.evtReady i).pin i = { s.pin i with next := none, until_ := none, high := false } := s.pin_evtStopped_self i _
@[simp] theorem State.hm16_evtReady : (s.evtReady i).hm16 = s.hm16 := State.hm16_congr ((s.evtReady_left i).part (k := .time) (by simp [evtTouch]))
theorem State.mode_evtReady : (s.evtReady i).fld (Fld.HM_EVT_CTRL_MODE i) = s.fld (Fld.HM_EVT_CTRL_MODE i) := by
  rw [State.fld, State.fld, State.evtReady, Fld.HM_EVT_CTRL_MODE, State.ctrl_evtStopped, bitsOf_and_full (lo := 30) (len := 2) _ _ (by decide),
    bitsOf_or_outside (lo := 30) (len := 2) _ _ (by decide)]
theorem State.periodic_evtReady : (s.evtReady i).fld (Fld.HM_EVT_CTRL_PERIODIC i) = s.fld (Fld.HM_EVT_CTRL_PERIODIC i) := by
  rw [State.fld, State.fld, State.evtReady, Fld.HM_EVT_CTRL_PERIODIC, State.ctrl_evtStopped, bitsOf_and_full (lo := 29) (len := 1) _ _ (by decide),
    bitsOf_or_outside (lo := 29) (len := 1) _ _ (by decide)]
theorem State.timeAt_evtReady : (s.evtReady i).timeAt (Reg.HM_EVT_TIME0 i) = s.timeAt (Reg.HM_EVT_TIME0 i) := by
  have kept (a : Nat) (ha : a ≠ Reg.HM_EVT_CTRL i) : (s.evtReady i).reg a = s.reg a := (s.evtReady_left i).reg ha
  simp only [Reg.HM_EVT_CTRL] at kept
  rw [State.timeAt, State.timeAt, Reg.HM_EVT_TIME0, kept _ (by omega), kept _ (by omega), kept _ (by omega)]
theorem State.evtPeriod_evtReady : (s.evtReady i).evtPeriod i = s.evtPeriod i := by
  have apart : Reg.HM_EVT_PERIOD i ≠ Reg.HM_EVT_CTRL i := by rw [Reg.HM_EVT_PERIOD, Reg.HM_EVT_CTRL]; omega
  rw [State.evtPeriod, (s.evtReady_left i).fld (f := Fld.HM_EVT_PERIOD_PERIOD i) apart, State.evtPeriod]

/-- ARM in mode OUT, with the three outcomes of R315. -/
theorem State.evtArmRow_out (out : s.fld (Fld.HM_EVT_CTRL_MODE i) = 1) :
    s.evtArmRow i =
      if s.hm16 < s.timeAt (Reg.HM_EVT_TIME0 i) then
        (s.evtReady i).setPin i { s.pin i with next := some (s.timeAt (Reg.HM_EVT_TIME0 i)), until_ := none, high := false }
      else if s.fld (Fld.HM_EVT_CTRL_PERIODIC i) = 1 then
        (s.evtReady i).setPin i { s.pin i with
          next := some (s.timeAt (Reg.HM_EVT_TIME0 i) + ((s.hm16 - s.timeAt (Reg.HM_EVT_TIME0 i)) / s.evtPeriod i + 1) * s.evtPeriod i),
          until_ := none, high := false }
      else (s.evtReady i).raise Fld.HM_INT_STATUS_EVT_MISS := by
  rw [State.evtArmRow_eq, State.evtArm, if_pos ((s.mode_evtReady i).trans out), State.bit, s.periodic_evtReady i, s.timeAt_evtReady i,
    s.evtPeriod_evtReady i, s.hm16_evtReady i, s.pin_evtReady_self i]
  simp only [decide_eq_true_eq]

end

/-- The first of the times `a + k * p` after another. -/
theorem next_period {a b p : Nat} (h : a ≤ b) (hp : 0 < p) : b < a + ((b - a) / p + 1) * p ∧ a + ((b - a) / p + 1) * p ≤ b + p := by
  have below := Nat.div_mul_le_self (b - a) p
  have above := Nat.lt_div_mul_add hp (a := b - a)
  rw [Nat.add_mul, Nat.one_mul]
  omega

theorem State.leaves_evtReady_setPin (s : State) (i : Nat) (x : EvtPin) : s.leaves ((s.evtReady i).setPin i x) (evtTouch i) :=
  State.leaves_trans (s.evtReady_left i) (State.leaves_setPin _ i x _ (by simp [evtTouch]))

section
variable {s : State} {dt i : Nat}

theorem exec_evtArm_ahead (hi : i < 2) (ha : s.aonUp = true) (out : s.fld (Fld.HM_EVT_CTRL_MODE i) = 1)
    (ahead : (s.begun dt).hm16 < s.timeAt (Reg.HM_EVT_TIME0 i)) :
    ∃ t, exec (.evtArm dt i) s = .next t ∧ t.pin i = { s.pin i with next := some (s.timeAt (Reg.HM_EVT_TIME0 i)), until_ := none, high := false } ∧
      (∀ j, j ≠ i → t.pin j = s.pin j) ∧ (s.begun dt).frame t (evtTouch i) := by
  have act := (s.begun dt).evtArmRow_out i (by simpa using out)
  rw [if_pos (by simpa using ahead)] at act
  obtain ⟨run, kept⟩ := exec_aon_touches (c := .evtArm dt i) rfl (decide_eq_true hi) ha act (State.leaves_evtReady_setPin _ i _)
  refine ⟨_, run, by simp, fun j hj => ?_, kept⟩
  rw [State.pin_settle, State.pin_setPin_ne _ _ hj, State.evtReady, State.pin_evtStopped_ne _ _ _ hj, State.pin_begun]

theorem exec_evtArm_periodic (hi : i < 2) (ha : s.aonUp = true) (out : s.fld (Fld.HM_EVT_CTRL_MODE i) = 1)
    (past : s.timeAt (Reg.HM_EVT_TIME0 i) ≤ (s.begun dt).hm16) (per : s.fld (Fld.HM_EVT_CTRL_PERIODIC i) = 1) :
    ∃ t k, exec (.evtArm dt i) s = .next t ∧
      t.pin i = { s.pin i with next := some (s.timeAt (Reg.HM_EVT_TIME0 i) + k * s.evtPeriod i), until_ := none, high := false } ∧
      (s.begun dt).hm16 < s.timeAt (Reg.HM_EVT_TIME0 i) + k * s.evtPeriod i ∧
      s.timeAt (Reg.HM_EVT_TIME0 i) + k * s.evtPeriod i ≤ (s.begun dt).hm16 + s.evtPeriod i ∧ (s.begun dt).frame t (evtTouch i) := by
  have period : (s.begun dt).evtPeriod i = s.evtPeriod i := by simp [State.evtPeriod]
  have act := (s.begun dt).evtArmRow_out i (by simpa using out)
  rw [State.timeAt_begun, if_neg (Nat.not_lt.mpr past), if_pos (by simpa using per), period] at act
  obtain ⟨run, kept⟩ := exec_aon_touches (c := .evtArm dt i) rfl (decide_eq_true hi) ha act (State.leaves_evtReady_setPin _ i _)
  obtain ⟨after, soon⟩ := next_period past (s.evtPeriod_pos i)
  exact ⟨_, _, run, by simp, after, soon, kept⟩

theorem exec_evtArm_missed (hi : i < 2) (ha : s.aonUp = true) (out : s.fld (Fld.HM_EVT_CTRL_MODE i) = 1)
    (past : s.timeAt (Reg.HM_EVT_TIME0 i) ≤ (s.begun dt).hm16) (once : s.fld (Fld.HM_EVT_CTRL_PERIODIC i) = 0) :
    ∃ t, exec (.evtArm dt i) s = .next t ∧ t.fld Fld.HM_INT_STATUS_EVT_MISS = 1 ∧ t.pin i = { s.pin i with next := none, until_ := none, high := false } ∧
      (s.begun dt).frame t { parts := [.hm, .out], regs := (· ∈ [Reg.HM_INT_STATUS, Reg.HM_EVT_CTRL i]) } := by
  have act := (s.begun dt).evtArmRow_out i (by simpa using out)
  rw [State.timeAt_begun, if_neg (Nat.not_lt.mpr past), if_neg (by simp [once])] at act
  have left : (s.begun dt).leaves (((s.begun dt).evtReady i).raise Fld.HM_INT_STATUS_EVT_MISS)
      { parts := [.hm, .out], regs := (· ∈ [Reg.HM_INT_STATUS, Reg.HM_EVT_CTRL i]) } :=
    State.leaves_trans (State.leaves_evtReady _ i (by simp) (by simp) (by simp)) (State.leaves_raise _ _ _ (by simp [Fld.HM_INT_STATUS_EVT_MISS]))
  obtain ⟨run, kept⟩ := exec_aon_touches (c := .evtArm dt i) rfl (decide_eq_true hi) ha act left
  refine ⟨_, run, ?_, ?_, kept⟩
  · rw [State.fld_settle]
    exact State.fld_raise_self _ _ (by decide) (by decide)
  · rw [State.pin_settle]
    exact ((s.begun dt).pin_evtReady_self i).trans (by rw [State.pin_begun])

/-! #### Pulses and captures -/

/-- The pin's programme once a pulse has begun. -/
def State.pinPulsing (s : State) (i T : Nat) : EvtPin :=
  { s.pin i with next := if s.fld (Fld.HM_EVT_CTRL_PERIODIC i) = 1 then some (T + s.evtPeriod i) else none,
                 until_ := some (T + s.fld (Fld.HM_EVT_WIDTH_WIDTH i) * 8 * 65536) }
theorem State.evtPulse_due {s : State} {i T : Nat} (next : (s.pin i).next = some T) (due : T ≤ s.hm16) :
    s.evtPulse i = (s.setPin i (s.pinPulsing i T)).pinLevel i true := by
  rw [State.evtPulse, next]
  simp [due, State.bit, State.pinPulsing]
@[simp] theorem State.pinPulsing_begun (s : State) (dt i T : Nat) : (s.begun dt).pinPulsing i T = s.pinPulsing i T := by
  simp [State.pinPulsing, State.evtPeriod]

theorem exec_evtPulse_due {T : Nat} (hi : i < 2) (ha : s.aonUp = true) (next : (s.pin i).next = some T) (due : T ≤ (s.begun dt).hm16) :
    ∃ t, exec (.evtPulse dt i) s = .next t ∧ (t.pin i).high = true ∧ (t.pin i).until_ = some (T + s.fld (Fld.HM_EVT_WIDTH_WIDTH i) * 8 * 65536) ∧
      (t.pin i).next = (if s.fld (Fld.HM_EVT_CTRL_PERIODIC i) = 1 then some (T + s.evtPeriod i) else none) ∧ (t.pin i).caps = (s.pin i).caps ∧
      ((s.pin i).high = false → t.out.filter (fun e => !e.isMsix) = .evt i true :: s.out.filter (fun e => !e.isMsix)) ∧
      (s.begun dt).frame t { parts := [.hm, .out] } := by
  have left := State.leaves_trans (State.leaves_setPin (s.begun dt) i ((s.begun dt).pinPulsing i T) { parts := [.hm, .out] } (by simp))
    (State.leaves_pinLevel _ i true (by simp) (by simp))
  obtain ⟨run, kept⟩ := exec_aon_touches (c := .evtPulse dt i) rfl (decide_eq_true hi) ha (State.evtPulse_due (by simpa using next) due) left
  refine ⟨_, run, ?_⟩
  rw [State.pin_settle, State.pin_pinLevel_self, State.pin_setPin_self, State.settle_out]
  rw [State.pinPulsing_begun] at kept ⊢
  refine ⟨rfl, rfl, rfl, rfl, fun low => ?_, kept⟩
  rw [State.pinLevel_edge (by simp [State.pinPulsing, low])]
  simp [OutEv.isMsix]

/-- The end of a pulse whose pin falls, and that of one that runs into the next. -/
theorem State.evtPulseEnd_falls {s : State} {i T : Nat} (until_ : (s.pin i).until_ = some T) (due : T ≤ s.hm16) (apart : ∀ u, (s.pin i).next = some u → T < u) :
    s.evtPulseEnd i = (s.setPin i { s.pin i with until_ := none }).pinLevel i false := by
  rw [State.evtPulseEnd, until_]
  refine (if_pos due).trans ?_
  split
  next u hu => exact if_neg (Nat.not_le.mpr (apart u hu))
  next => rfl
theorem State.evtPulseEnd_joins {s : State} {i T u : Nat} (until_ : (s.pin i).until_ = some T) (due : T ≤ s.hm16) (next : (s.pin i).next = some u) (joins : u ≤ T) :
    s.evtPulseEnd i = s.setPin i { s.pin i with until_ := none } := by
  rw [State.evtPulseEnd, until_]
  refine (if_pos due).trans ?_
  rw [next]
  exact if_pos joins

theorem exec_evtPulseEnd_due {T : Nat} (hi : i < 2) (ha : s.aonUp = true) (until_ : (s.pin i).until_ = some T) (due : T ≤ (s.begun dt).hm16) :
    ∃ t, exec (.evtPulseEnd dt i) s = .next t ∧
      ((∀ u, (s.pin i).next = some u → T < u) → t.pin i = { s.pin i with until_ := none, high := false }) ∧
      (∀ u, (s.pin i).next = some u → u ≤ T → t.pin i = { s.pin i with until_ := none }) ∧ (s.begun dt).frame t { parts := [.hm, .out] } := by
  have begun : (s.begun dt).pin i = s.pin i := State.pin_begun s dt i
  have pinLeft (x : EvtPin) := State.leaves_setPin (s.begun dt) i x { parts := [.hm, .out] } (by simp)
  by_cases joins : ∃ u, (s.pin i).next = some u ∧ u ≤ T
  · obtain ⟨u, next, le⟩ := joins
    obtain ⟨run, kept⟩ := exec_aon_touches (c := .evtPulseEnd dt i) rfl (decide_eq_true hi) ha
      (State.evtPulseEnd_joins (by rwa [begun]) due (by rwa [begun]) le) (pinLeft _)
    exact ⟨_, run, fun apart => absurd le (Nat.not_le.mpr (apart u next)), fun _ _ _ => by simp, kept⟩
  · have apart : ∀ u, (s.pin i).next = some u → T < u := fun u next => Nat.lt_of_not_le fun le => joins ⟨u, next, le⟩
    obtain ⟨run, kept⟩ := exec_aon_touches (c := .evtPulseEnd dt i) rfl (decide_eq_true hi) ha
      (State.evtPulseEnd_falls (by rwa [begun]) due (by rwa [begun])) (State.leaves_trans (pinLeft _) (State.leaves_pinLevel _ i false (by simp) (by simp)))
    exact ⟨_, run, fun _ => by simp, fun u next le => absurd ⟨u, next, le⟩ joins, kept⟩

variable {r : Bool}

/-- The two fates of a selected edge. -/
theorem State.evtCapture_selected {s : State} {i : Nat} {r : Bool} (mode : s.fld (Fld.HM_EVT_CTRL_MODE i) = 2)
    (edge : bitOf (s.fld (Fld.HM_EVT_CTRL_EDGE i)) (if r then 0 else 1) = true) :
    s.evtCapture i r = if (s.pin i).caps.length < 8 then
      (s.drawn.setPin i { s.pin i with caps := (s.pin i).caps ++ [(s.pinNs.toNat % (2 ^ 48 * 1000000000)) * 65536] }).raise
        (if i = 0 then Fld.HM_INT_STATUS_EVT0_CAP else Fld.HM_INT_STATUS_EVT1_CAP)
    else (s.count (Ctr.hm (8 + 8 * i)) 1).raise Fld.HM_INT_STATUS_EVT_OVF := by
  refine if_pos ⟨mode, ?_⟩
  cases r <;> exact edge

theorem exec_evtCapture_kept (hi : i < 2) (ha : s.aonUp = true) (mode : s.fld (Fld.HM_EVT_CTRL_MODE i) = 2)
    (edge : bitOf (s.fld (Fld.HM_EVT_CTRL_EDGE i)) (if r then 0 else 1) = true) (room : (s.pin i).caps.length < 8) :
    ∃ t, ∃ c : Int, exec (.evtCapture dt i r) s = .next t ∧ (c * 65536 - (s.begun dt).hmRel 0).natAbs ≤ 2 * 65536 ∧
      (t.pin i).caps = (s.pin i).caps ++ [(c.toNat % (2 ^ 48 * 1000000000)) * 65536] ∧
      t.fld (if i = 0 then Fld.HM_INT_STATUS_EVT0_CAP else Fld.HM_INT_STATUS_EVT1_CAP) = 1 ∧
      (s.begun dt).frame t { parts := [.hm, .free], regs := (· = Reg.HM_INT_STATUS) } := by
  have act := State.evtCapture_selected (s := s.begun dt) (r := r) (by simpa using mode) (by simpa using edge)
  rw [if_pos (by simpa using room)] at act
  have shown : (if i = 0 then Fld.HM_INT_STATUS_EVT0_CAP else Fld.HM_INT_STATUS_EVT1_CAP).addr = Reg.HM_INT_STATUS ∧
      (if i = 0 then Fld.HM_INT_STATUS_EVT0_CAP else Fld.HM_INT_STATUS_EVT1_CAP).lo < 32 ∧
      (if i = 0 then Fld.HM_INT_STATUS_EVT0_CAP else Fld.HM_INT_STATUS_EVT1_CAP).len = 1 := by split <;> decide
  obtain ⟨addr, lo, len⟩ := shown
  have left := State.leaves_trans (State.leaves_trans (State.leaves_drawn (s.begun dt) { parts := [.hm, .free], regs := (· = Reg.HM_INT_STATUS) } (by simp))
    (State.leaves_setPin _ i { (s.begun dt).pin i with
      caps := ((s.begun dt).pin i).caps ++ [((s.begun dt).pinNs.toNat % (2 ^ 48 * 1000000000)) * 65536] } _ (by simp))) (State.leaves_raise _ _ _ addr)
  obtain ⟨run, kept⟩ := exec_aon_touches (c := .evtCapture dt i r) rfl (decide_eq_true hi) ha act left
  refine ⟨_, _, run, State.pinNs_near _, ?_, ?_, kept⟩
  · rw [State.pin_settle]
    refine (congrArg EvtPin.caps (State.pin_setPin_self _ i _)).trans ?_
    simp
  · rw [State.fld_settle]
    exact State.fld_raise_self _ _ (by omega) (by omega)

theorem exec_evtCapture_lost (hi : i < 2) (ha : s.aonUp = true) (mode : s.fld (Fld.HM_EVT_CTRL_MODE i) = 2)
    (edge : bitOf (s.fld (Fld.HM_EVT_CTRL_EDGE i)) (if r then 0 else 1) = true) (full : 8 ≤ (s.pin i).caps.length) :
    ∃ t, exec (.evtCapture dt i r) s = .next t ∧ t.fld Fld.HM_INT_STATUS_EVT_OVF = 1 ∧
      t.ctr (Ctr.hm (8 + 8 * i)) = (s.ctr (Ctr.hm (8 + 8 * i)) + 1) % 2 ^ 64 ∧
      (s.begun dt).frame t { regs := (· = Reg.HM_INT_STATUS), ctrs := (· = Ctr.hm (8 + 8 * i)) } := by
  have act := State.evtCapture_selected (s := s.begun dt) (r := r) (by simpa using mode) (by simpa using edge)
  rw [if_neg (by simpa using full)] at act
  have left := State.leaves_trans (State.leaves_count (s.begun dt) (Ctr.hm (8 + 8 * i)) 1 { regs := (· = Reg.HM_INT_STATUS), ctrs := (· = Ctr.hm (8 + 8 * i)) } rfl)
    (State.leaves_raise _ Fld.HM_INT_STATUS_EVT_OVF _ rfl)
  obtain ⟨run, kept⟩ := exec_aon_touches (c := .evtCapture dt i r) rfl (decide_eq_true hi) ha act left
  refine ⟨_, run, ?_, ?_, kept⟩
  · rw [State.fld_settle]
    exact State.fld_raise_self _ _ (by decide) (by decide)
  · rw [State.ctr_settle _ _ _ _ (by rw [Ctr.hm, Ctr.hi]; omega), State.ctr_raise, State.ctr_count_self, State.ctr_begun]

/-! #### POP and a write of MODE -/

theorem exec_evtCapPop (hi : i < 2) (ha : s.aonUp = true) :
    ∃ t, exec (.evtCapPop dt i) s = .next t ∧ t.pin i = { s.pin i with caps := (s.pin i).caps.drop 1 } ∧ (s.begun dt).frame t { parts := [.hm] } := by
  obtain ⟨run, kept⟩ := exec_aon_touches (c := .evtCapPop dt i) rfl (decide_eq_true hi) ha rfl (State.leaves_setPin (s.begun dt) i _ { parts := [.hm] } (by simp))
  exact ⟨_, run, by simp [State.evtCapPop], kept⟩

theorem exec_evtModeWrite {v : Word} (hi : i < 2) (ha : s.aonUp = true) (idle : bitOf v.toNat 26 = false) :
    ∃ t, exec (.evtModeWrite dt i v) s = .next t ∧ t.reg (Reg.HM_EVT_CTRL i) = v &&& 0xF8000000#32 ∧
      t.pin i = { s.pin i with next := none, until_ := none, high := false } ∧ (s.begun dt).frame t (evtTouch i) := by
  obtain ⟨run, kept⟩ := exec_aon_touches (c := .evtModeWrite dt i v) rfl (decide_eq_true hi) ha (State.evtCtrlWrite_idle idle)
    (State.leaves_evtStopped (x := evtTouch i) _ i v (by simp [evtTouch]) (by simp [evtTouch]) rfl)
  exact ⟨_, run, by rw [State.reg_settle, State.ctrl_evtStopped], by simp, kept⟩

end

/-- Settles O30, command by command. -/
theorem eventPins : Obligations.EventPins := by
  unfold Obligations.EventPins
  refine ⟨fun s dt i hi ha out => ⟨fun ahead => exec_evtArm_ahead hi ha out ahead, fun past per => exec_evtArm_periodic hi ha out past per,
      fun past once => exec_evtArm_missed hi ha out past once⟩,
    fun s dt i T hi ha next due => exec_evtPulse_due hi ha next due, fun s dt i T hi ha until_ due => exec_evtPulseEnd_due hi ha until_ due,
    fun s dt i r hi ha mode edge => ⟨fun room => exec_evtCapture_kept hi ha mode edge room, fun full => exec_evtCapture_lost hi ha mode edge full⟩,
    fun s dt i hi ha => exec_evtCapPop hi ha, fun s dt i v hi ha idle => exec_evtModeWrite hi ha idle⟩

end Sys2Proof.Machine
end

/-! ### Commands that ask something of the time group (R297, R298) -/

section
namespace Sys2Proof.Machine

/-- A command of the always-on island, whatever it asks of the time group. -/
theorem exec_aon {s g : State} {c : Instr} {dt : Nat} {f : State → State} (he : exec c s = s.cmdAon c.wellFormed dt f)
    (hw : c.wellFormed = true) (ha : s.aonUp = true) (hf : f (s.begun dt) = g) : exec c s = .next (g.afterStep.settle s (s.begun dt).time) := by
  subst hf
  rw [he, hw, State.cmdAon, State.cmd_next, State.run, State.onAon, if_pos (by simpa using ha)]

theorem State.afterStep_calm {s : State} (h : s.timeReq.step = none) : s.afterStep = s := by rw [State.afterStep, h]

theorem State.frame.reg {s t : State} {x : Touch} (h : s.frame t x) {a : Nat} (ha : ¬ x.regs a) : t.reg a = s.reg a := h.2.1 a ha
theorem State.frame.fld {s t : State} {x : Touch} (h : s.frame t x) {f : Fld} (hf : ¬ x.regs f.addr) : t.fld f = s.fld f := by
  rw [State.fld, h.reg hf, State.fld]
theorem State.frame.ctrOf {s t : State} {x : Touch} (h : s.frame t x) {a : Nat} (ha : a ≠ Ctr.hi 0x20) (hx : ¬ x.ctrs a) : t.ctr a = s.ctr a :=
  h.2.2.1 a ha hx
theorem State.frame.part {s t : State} {x : Touch} (h : s.frame t x) {k : Part} (hk : k ∉ x.parts) : Part.same k s t := h.1 k hk

/-- What is asked of the time group is in no part of a frame. -/
theorem State.frame_asks (s : State) (r : TimeReq) (x : Touch) : s.frame { s with timeReq := r } x :=
  ⟨fun k _ => by cases k <;> simp [Part.same], fun _ _ => rfl, fun _ _ _ => rfl, fun _ _ => rfl, fun _ _ => rfl⟩

/-- The end of a command that asked something of the time group. -/
theorem State.frame_settle_time {s t : State} {x : Touch} (s0 : State) (tm : Time) (h : s.frame t x) (ht : .time ∈ x.parts) :
    s.frame (t.settle s0 tm) x := by
  obtain ⟨parts, regs, ctrs, ports, rings⟩ := h
  refine ⟨fun k hk => ?_, fun a ha => by simpa using regs a ha, fun a ha hb => by rw [State.ctr_settle _ _ _ _ ha]; exact ctrs a ha hb,
    fun p hp => by simpa using ports p hp, fun r hr => by simpa using rings r hr⟩
  have same := parts k hk
  cases k <;> simp_all [Part.same]

/-- A command that asks for an addend. -/
theorem exec_aon_addend {s g : State} {c : Instr} {dt : Nat} {f : State → State} {x : Touch} {a : Int} (he : exec c s = s.cmdAon c.wellFormed dt f)
    (hw : c.wellFormed = true) (ha : s.aonUp = true) (hf : f (s.begun dt) = g) (req : g.timeReq = ⟨none, some a⟩) (hg : (s.begun dt).frame g x)
    (ht : .time ∈ x.parts) :
    exec c s = .next (g.settle s (s.begun dt).time) ∧ (g.settle s (s.begun dt).time).time.addend = clampAddend a ∧
      (g.settle s (s.begun dt).time).time.raw = (s.begun dt).time.raw ∧ (s.begun dt).frame (g.settle s (s.begun dt).time) x := by
  have run := exec_aon he hw ha hf
  rw [State.afterStep_calm (by rw [req])] at run
  refine ⟨run, ?_, ?_, State.frame_settle_time s _ hg ht⟩ <;> rw [State.settle_time, req] <;> rfl

/-! #### The addend -/

section
variable (s : State) (a : Int)

theorem State.askAddend_timeReq : (s.askAddend a).timeReq = { s.timeReq with addend := some a } := by
  rfl

theorem State.frame_askAddend {x : Touch} (h : .jn ∈ x.parts) (g : x.regs Reg.CM_INT_STATUS) : s.frame (s.askAddend a) x :=
  State.frame_trans (State.leaves_jnRipe s x h g).1 (State.frame_asks s.jnRipe _ x)

/-- What the journal's records that are due, and the request, leave alone. -/
theorem State.askAddend_left : s.frame (s.askAddend a) { parts := [.jn], regs := (· = Reg.CM_INT_STATUS) } := s.frame_askAddend a (by simp) rfl
@[simp] theorem State.askAddend_hm : (s.askAddend a).hm = s.hm := (s.askAddend_left a).part (k := .hm) (by simp)
theorem State.reg_askAddend {b : Nat} (h : b ≠ Reg.CM_INT_STATUS) : (s.askAddend a).reg b = s.reg b := (s.askAddend_left a).reg h
theorem State.fld_askAddend {f : Fld} (h : f.addr ≠ Reg.CM_INT_STATUS) : (s.askAddend a).fld f = s.fld f := (s.askAddend_left a).fld h
@[simp] theorem State.servo_askAddend : (s.askAddend a).servo = s.servo := s.fld_askAddend a (by decide)

end

/-! #### The servo's state (R303) -/

section
variable (s : State) (st : Nat)

theorem State.leaves_ppsFollow {x : Touch} (h : .hm ∈ x.parts) (g : .out ∈ x.parts) : s.leaves s.ppsFollow x :=
  State.leaves_ite _ (fun _ => s.leaves_ppsSet false h g) (fun _ => State.leaves_refl s x)
/-- The pin is all of Hallmark's own state that follows the servo. -/
theorem State.ppsFollow_hm : ∃ b, s.ppsFollow.hm = { s.hm with ppsHigh := b } := by
  rw [State.ppsFollow]
  split
  · exact ⟨false, State.ppsSet_hm s false⟩
  · exact ⟨s.hm.ppsHigh, rfl⟩

theorem State.leaves_toServo {x : Touch} (h : .hm ∈ x.parts) (g : .out ∈ x.parts) (k : x.regs Reg.HM_SERVO_STATUS) (l : x.regs Reg.HM_INT_STATUS) :
    s.leaves (s.toServo st) x :=
  State.leaves_ite _ (fun _ => State.leaves_refl s x) (fun _ => State.leaves_trans (State.leaves_setF s _ st x k)
    (State.leaves_trans (State.leaves_raise _ _ x l) (State.leaves_ppsFollow _ h g)))

/-- What a change of the servo's state touches. -/
def servoTouch : Touch := { parts := [.hm, .out], regs := (· ∈ [Reg.HM_SERVO_STATUS, Reg.HM_INT_STATUS]) }
theorem State.toServo_left : s.leaves (s.toServo st) servoTouch :=
  s.leaves_toServo st (by simp [servoTouch]) (by simp [servoTouch]) (by simp [servoTouch]) (by simp [servoTouch])
theorem State.toServo_hm : ∃ b, (s.toServo st).hm = { s.hm with ppsHigh := b } := by
  rw [State.toServo]
  split
  · exact ⟨s.hm.ppsHigh, rfl⟩
  · exact State.ppsFollow_hm _
@[simp] theorem State.toServo_timeReq : (s.toServo st).timeReq = s.timeReq := (s.toServo_left st).2

variable {s st}

theorem State.servo_toServo (h : st < 4) : (s.toServo st).servo = st := by
  rw [State.toServo]
  split
  next same => exact same
  next =>
    have pin (g : State) : g.ppsFollow.servo = g.servo := (g.leaves_ppsFollow (x := { parts := [.hm, .out] }) (by simp) (by simp)).fld (f := Fld.HM_SERVO_STATUS_STATE) id
    rw [pin, State.servo, State.fld_raise_miss _ (by decide), State.fld_setF_fits _ (by decide) h]
/-- A change raises STATE_CHG. -/
theorem State.stateChg_toServo (h : s.servo ≠ st) : (s.toServo st).fld Fld.HM_INT_STATUS_STATE_CHG = 1 := by
  rw [State.toServo, if_neg h]
  refine ((State.leaves_ppsFollow (x := { parts := [.hm, .out] }) _ (by simp) (by simp)).fld (f := Fld.HM_INT_STATUS_STATE_CHG) id).trans ?_
  exact State.fld_raise_self _ _ (by decide) (by decide)
/-- The other events stand. -/
theorem State.fld_toServo {f : Fld} (h : f.addr ≠ Reg.HM_SERVO_STATUS) (g : Fld.HM_INT_STATUS_STATE_CHG.misses f = true) : (s.toServo st).fld f = s.fld f := by
  rw [State.toServo]
  split
  · rfl
  · refine ((State.leaves_ppsFollow (x := { parts := [.hm, .out] }) _ (by simp) (by simp)).fld (f := f) id).trans ?_
    rw [State.fld_raise_miss _ g, State.fld_setF_ne _ _ _ _ h]

end

end Sys2Proof.Machine
end

/-! ### The servo's states (R303) -/

section
namespace Sys2Proof.Machine

/-! #### Changes with a new addend -/

/-- The servo takes another state and another addend. -/
def State.servoMoved (s : State) (a : Int) (st : Nat) : State := (s.askAddend a).toServo st

section
variable {s : State} {a : Int} {st : Nat}

theorem State.servoMoved_timeReq (h : s.timeReq = ⟨none, none⟩) : (s.servoMoved a st).timeReq = ⟨none, some a⟩ := by
  rw [State.servoMoved, State.toServo_timeReq, State.askAddend_timeReq, h]
theorem State.frame_servoMoved {x : Touch} (h : .hm ∈ x.parts) (g : .out ∈ x.parts) (j : .jn ∈ x.parts) (k : x.regs Reg.HM_SERVO_STATUS)
    (l : x.regs Reg.HM_INT_STATUS) (c : x.regs Reg.CM_INT_STATUS) : s.frame (s.servoMoved a st) x :=
  State.frame_trans (s.frame_askAddend a j c) (State.leaves_toServo _ st h g k l).1
theorem State.servoMoved_hm : ∃ b, (s.servoMoved a st).hm = { s.hm with ppsHigh := b } := by
  obtain ⟨b, hb⟩ := State.toServo_hm (s.askAddend a) st
  exact ⟨b, by rw [State.servoMoved, hb, State.askAddend_hm]⟩
theorem State.servo_servoMoved (h : st < 4) : (s.servoMoved a st).servo = st := State.servo_toServo h
theorem State.stateChg_servoMoved (h : s.servo ≠ st) : (s.servoMoved a st).fld Fld.HM_INT_STATUS_STATE_CHG = 1 :=
  State.stateChg_toServo (by rwa [State.servo_askAddend])
/-- The other registers stand. -/
theorem State.reg_servoMoved {b : Nat} (h : b ∉ [Reg.HM_SERVO_STATUS, Reg.HM_INT_STATUS, Reg.CM_INT_STATUS]) : (s.servoMoved a st).reg b = s.reg b :=
  (State.frame_servoMoved (x := { parts := [.hm, .out, .jn], regs := (· ∈ [Reg.HM_SERVO_STATUS, Reg.HM_INT_STATUS, Reg.CM_INT_STATUS]) })
    (by simp) (by simp) (by simp) (by simp) (by simp) (by simp)).reg h

theorem State.fld_servoMoved {f : Fld} (h : f.addr ∉ [Reg.HM_SERVO_STATUS, Reg.HM_INT_STATUS, Reg.CM_INT_STATUS]) :
    (s.servoMoved a st).fld f = s.fld f := by
  rw [State.fld, State.reg_servoMoved h, State.fld]

theorem State.servoDisable_running (h : s.servo ≠ svFree) : s.servoDisable = s.servoMoved s.addendReg svFree := if_neg h
theorem State.servoHold_running (h : s.servo = svAcquire ∨ s.servo = svLocked) : s.servoHold = s.servoMoved s.hm.integ svHoldover := if_pos h

theorem servo_ne_holdover {v : Nat} (h : v = svAcquire ∨ v = svLocked) : v ≠ svHoldover := by
  rcases h with rfl | rfl <;> decide

end

/-! #### Writes of `HM_SERVO_CTRL` -/

/-- `HM_SERVO_CTRL` holds what was written. -/
def State.servoWritten (s : State) (w : Word) : State := s.setReg Reg.HM_SERVO_CTRL (w &&& 0xF07FFFF8#32)

section
variable (s : State)

theorem State.leaves_servoWritten (w : Word) {x : Touch} (h : x.regs Reg.HM_SERVO_CTRL) : s.leaves (s.servoWritten w) x := State.leaves_setReg s _ _ x h
@[simp] theorem State.servoWritten_hm (w : Word) : (s.servoWritten w).hm = s.hm := s.setReg_hm _ _
theorem State.reg_servoWritten_ne (w : Word) {a : Nat} (h : a ≠ Reg.HM_SERVO_CTRL) : (s.servoWritten w).reg a = s.reg a := State.reg_setReg_ne s _ _ _ h
theorem State.fld_servoWritten (w : Word) (f : Fld) (ha : f.addr = Reg.HM_SERVO_CTRL) (h : bitsOf (0xF07FFFF8#32).toNat f.lo f.len = 2 ^ f.len - 1) :
    (s.servoWritten w).fld f = bitsOf w.toNat f.lo f.len := by
  rw [State.fld, ha, State.servoWritten, State.reg_setReg_self, bitsOf_and_full _ _ h]
@[simp] theorem State.servo_servoWritten (w : Word) : (s.servoWritten w).servo = s.servo := State.fld_setReg_ne s _ _ (by decide)
@[simp] theorem State.addendReg_servoWritten (w : Word) : (s.servoWritten w).addendReg = s.addendReg := by
  rw [State.addendReg, s.reg_servoWritten_ne w (by decide), s.reg_servoWritten_ne w (by decide), State.addendReg]

@[simp] theorem State.addendReg_begun (dt : Nat) : (s.begun dt).addendReg = s.addendReg := by simp [State.addendReg]

/-- The word that the rows SERVO_ENABLE and SERVO_DISABLE write. -/
def State.servoEnWord (en : Nat) : Word := w32 (setBits (s.reg Reg.HM_SERVO_CTRL).toNat 31 1 en)
/-- The word that the row SERVO_SRC_WRITE writes. -/
def State.servoSrcWord (src q : Nat) : Word := w32 (setBits (setBits (s.reg Reg.HM_SERVO_CTRL).toNat 28 3 src) 16 7 q)

theorem State.servoEnWord_toNat (en : Nat) : (s.servoEnWord en).toNat = setBits (s.reg Reg.HM_SERVO_CTRL).toNat 31 1 en := by
  rw [State.servoEnWord, w32_toNat, Nat.mod_eq_of_lt (setBits_lt _ _ _ _ 32 (BitVec.isLt _) (by decide))]
theorem State.servoSrcWord_toNat (src q : Nat) :
    (s.servoSrcWord src q).toNat = setBits (setBits (s.reg Reg.HM_SERVO_CTRL).toNat 28 3 src) 16 7 q := by
  rw [State.servoSrcWord, w32_toNat,
    Nat.mod_eq_of_lt (setBits_lt _ _ _ _ 32 (setBits_lt _ _ _ _ 32 (BitVec.isLt _) (by decide)) (by decide))]

theorem State.en_servoWritten_en {en : Nat} (h : en < 2) : (s.servoWritten (s.servoEnWord en)).fld Fld.HM_SERVO_CTRL_EN = en := by
  rw [State.fld_servoWritten _ _ _ rfl (by decide), State.servoEnWord_toNat]
  exact (bitsOf_setBits_self _ _ _ _).trans (Nat.mod_eq_of_lt h)

section
variable {src q : Nat}
theorem State.en_servoWritten_src : (s.servoWritten (s.servoSrcWord src q)).fld Fld.HM_SERVO_CTRL_EN = s.fld Fld.HM_SERVO_CTRL_EN := by
  rw [State.fld_servoWritten _ _ _ rfl (by decide), State.servoSrcWord_toNat]
  exact (bitsOf_setBits_above _ _ _ _ _ _ (by decide)).trans (bitsOf_setBits_above _ _ _ _ _ _ (by decide))
theorem State.src_servoWritten_src (h : src < 8) : (s.servoWritten (s.servoSrcWord src q)).fld Fld.HM_SERVO_CTRL_SRC = src := by
  rw [State.fld_servoWritten _ _ _ rfl (by decide), State.servoSrcWord_toNat]
  exact ((bitsOf_setBits_above _ _ _ _ _ _ (by decide)).trans (bitsOf_setBits_self _ _ _ _)).trans (Nat.mod_eq_of_lt h)
theorem State.crfPort_servoWritten_src (h : q < 128) : (s.servoWritten (s.servoSrcWord src q)).fld Fld.HM_SERVO_CTRL_CRF_PORT = q := by
  rw [State.fld_servoWritten _ _ _ rfl (by decide), State.servoSrcWord_toNat]
  exact (bitsOf_setBits_self _ _ _ _).trans (Nat.mod_eq_of_lt h)
end

end

/-! #### EN (R303) -/

/-- ACQUIRE starts from `HM_ADDEND`. -/
def State.servoStarted (s : State) : State :=
  ({ s with hm := { s.hm with integ := s.addendReg, srun := 0, lastAt := none, sampleAt := s.now, crfVals := [] } } : State)

theorem State.servoStarted_hm (s : State) :
    s.servoStarted.hm = { s.hm with integ := s.addendReg, srun := 0, lastAt := none, sampleAt := s.now, crfVals := [] } := rfl
theorem State.leaves_servoStarted (s : State) {x : Touch} (h : .hm ∈ x.parts) : s.leaves s.servoStarted x := State.leaves_hm s _ x h
@[simp] theorem State.fld_servoStarted (s : State) (f : Fld) : s.servoStarted.fld f = s.fld f :=
  (s.leaves_servoStarted (x := { parts := [.hm] }) (by simp)).fld id
@[simp] theorem State.servo_servoStarted (s : State) : s.servoStarted.servo = s.servo := s.fld_servoStarted _
theorem State.servoEnable_free {s : State} (h : s.servo = svFree) : s.servoEnable = s.servoStarted.toServo svAcquire := if_pos h

/-- The values collected for a CRF sample are of another source. -/
def State.crfForgotten (s : State) : State := { s with hm := { s.hm with crfVals := [] } }
@[simp] theorem State.crfForgotten_hm (s : State) : s.crfForgotten.hm = { s.hm with crfVals := [] } := rfl
@[simp] theorem State.fld_crfForgotten (s : State) (f : Fld) : s.crfForgotten.fld f = s.fld f := rfl
@[simp] theorem State.servo_crfForgotten (s : State) : s.crfForgotten.servo = s.servo := s.fld_crfForgotten _
theorem State.leaves_crfForgotten (s : State) {x : Touch} (h : .hm ∈ x.parts) : s.leaves s.crfForgotten x := State.leaves_hm s _ x h
theorem State.servoSrcTouched_eq (s : State) : s.servoSrcTouched = s.crfForgotten.servoHold := rfl

/-- What a write of `HM_SERVO_CTRL` does, by EN before it and after it. -/
theorem State.servoCtrlWrite_eq (s : State) (w : Word) (src : Bool) : s.servoCtrlWrite w src =
    if (s.servoWritten w).servoOn then
      (if s.servoOn then (if src then (s.servoWritten w).servoSrcTouched else s.servoWritten w) else (s.servoWritten w).servoEnable)
    else (s.servoWritten w).servoDisable := rfl
theorem State.servoEn_eq (s : State) (en : Nat) : s.servoEn en = s.servoCtrlWrite (s.servoEnWord en) false := rfl
theorem State.servoSrcWrite_eq (s : State) (src q : Nat) : s.servoSrcWrite src q = s.servoCtrlWrite (s.servoSrcWord src q) true := rfl

theorem State.servoEn_set {s : State} (off : s.fld Fld.HM_SERVO_CTRL_EN = 0) (free : s.servo = svFree) :
    s.servoEn 1 = (s.servoWritten (s.servoEnWord 1)).servoStarted.toServo svAcquire := by
  have on : (s.servoWritten (s.servoEnWord 1)).servoOn = true := decide_eq_true (s.en_servoWritten_en (by decide))
  have was : s.servoOn = false := decide_eq_false (by rw [off]; decide)
  rw [State.servoEn_eq, State.servoCtrlWrite_eq, if_pos on, if_neg (ne_true_of_eq_false was),
    State.servoEnable_free ((s.servo_servoWritten _).trans free)]

theorem State.servoEn_clear {s : State} (running : s.servo ≠ svFree) : s.servoEn 0 = (s.servoWritten (s.servoEnWord 0)).servoMoved s.addendReg svFree := by
  have off : (s.servoWritten (s.servoEnWord 0)).servoOn = false := decide_eq_false (by rw [s.en_servoWritten_en (by decide)]; decide)
  rw [State.servoEn_eq, State.servoCtrlWrite_eq, if_neg (ne_true_of_eq_false off), State.servoDisable_running (by rwa [State.servo_servoWritten]),
    State.addendReg_servoWritten]

theorem State.servoSrcWrite_running {s : State} {src q : Nat} (on : s.fld Fld.HM_SERVO_CTRL_EN = 1) (run : s.servo = svAcquire ∨ s.servo = svLocked) :
    s.servoSrcWrite src q = (s.servoWritten (s.servoSrcWord src q)).crfForgotten.servoMoved s.hm.integ svHoldover := by
  have still : (s.servoWritten (s.servoSrcWord src q)).servoOn = true := decide_eq_true (s.en_servoWritten_src.trans on)
  have was : s.servoOn = true := decide_eq_true on
  rw [State.servoSrcWrite_eq, State.servoCtrlWrite_eq, if_pos still, if_pos was, if_pos rfl, State.servoSrcTouched_eq,
    State.servoHold_running (by rwa [State.servo_crfForgotten, State.servo_servoWritten]), State.crfForgotten_hm, State.servoWritten_hm]

/-- What a write of `HM_SERVO_CTRL` touches, without and with a new addend. -/
def servoCtrlTouch : Touch := { parts := [.hm, .out], regs := (· ∈ [Reg.HM_SERVO_CTRL, Reg.HM_SERVO_STATUS, Reg.HM_INT_STATUS]) }
def servoMoveTouch : Touch :=
  { parts := [.time, .hm, .out, .jn], regs := (· ∈ [Reg.HM_SERVO_CTRL, Reg.HM_SERVO_STATUS, Reg.HM_INT_STATUS, Reg.CM_INT_STATUS]) }
theorem State.servoMoved_left (s : State) (a : Int) (st : Nat) : s.frame (s.servoMoved a st) servoMoveTouch :=
  State.frame_servoMoved (by simp [servoMoveTouch]) (by simp [servoMoveTouch]) (by simp [servoMoveTouch]) (by simp [servoMoveTouch])
    (by simp [servoMoveTouch]) (by simp [servoMoveTouch])

section
variable {s : State} {dt : Nat}

theorem exec_servoEnable_free (ha : s.aonUp = true) (off : s.fld Fld.HM_SERVO_CTRL_EN = 0) (free : s.servo = svFree) :
    ∃ t, exec (.servoEnable dt) s = .next t ∧ t.fld Fld.HM_SERVO_CTRL_EN = 1 ∧ t.servo = svAcquire ∧ t.hm.integ = s.addendReg ∧ t.hm.lastAt = none ∧
      t.hm.srun = 0 ∧ t.fld Fld.HM_INT_STATUS_STATE_CHG = 1 ∧
      (s.begun dt).frame t servoCtrlTouch := by
  have act := State.servoEn_set (s := s.begun dt) (by simpa using off) (by simpa using free)
  have idle : ((s.begun dt).servoWritten ((s.begun dt).servoEnWord 1)).servoStarted.servo = svFree :=
    ((State.servo_servoStarted _).trans ((s.begun dt).servo_servoWritten _)).trans ((s.servo_begun dt).trans free)
  have left := State.leaves_trans ((s.begun dt).leaves_servoWritten ((s.begun dt).servoEnWord 1) (x := servoCtrlTouch) (by simp [servoCtrlTouch]))
    (State.leaves_trans (State.leaves_servoStarted _ (by simp [servoCtrlTouch]))
      (State.leaves_toServo _ svAcquire (by simp [servoCtrlTouch]) (by simp [servoCtrlTouch]) (by simp [servoCtrlTouch]) (by simp [servoCtrlTouch])))
  obtain ⟨run, kept⟩ := exec_aon_touches (c := .servoEnable dt) rfl rfl ha act left
  obtain ⟨high, hm⟩ := State.toServo_hm ((s.begun dt).servoWritten ((s.begun dt).servoEnWord 1)).servoStarted svAcquire
  refine ⟨_, run, ?_, ?_, ?_, ?_, ?_, ?_, kept⟩
  · rw [State.fld_settle, State.fld_toServo (by decide) (by decide), State.fld_servoStarted, State.en_servoWritten_en _ (by decide)]
  · rw [State.servo_settle, State.servo_toServo (by decide)]
  · rw [State.settle_hm, hm, State.servoStarted_hm, State.addendReg_servoWritten, State.addendReg_begun]
  · rw [State.settle_hm, hm, State.servoStarted_hm]
  · rw [State.settle_hm, hm, State.servoStarted_hm]
  · rw [State.fld_settle, State.stateChg_toServo (by rw [idle]; decide)]

theorem exec_servoDisable_running (ha : s.aonUp = true) (running : s.servo ≠ svFree) :
    ∃ t, exec (.servoDisable dt) s = .next t ∧ t.fld Fld.HM_SERVO_CTRL_EN = 0 ∧ t.servo = svFree ∧ t.time.addend = clampAddend s.addendReg ∧
      t.fld Fld.HM_INT_STATUS_STATE_CHG = 1 ∧ t.time.raw = (s.begun dt).time.raw ∧
      (s.begun dt).frame t servoMoveTouch := by
  have act := State.servoEn_clear (s := s.begun dt) (by simpa using running)
  rw [State.addendReg_begun] at act
  have left := (s.begun dt).leaves_servoWritten ((s.begun dt).servoEnWord 0) (x := servoMoveTouch) (by simp [servoMoveTouch])
  obtain ⟨run, addend, raw, kept⟩ := exec_aon_addend (c := .servoDisable dt) rfl rfl ha act
    (State.servoMoved_timeReq (left.2.trans (State.begun_timeReq s dt))) (State.frame_trans left.1 (State.servoMoved_left _ _ _)) (by simp [servoMoveTouch])
  refine ⟨_, run, ?_, ?_, addend, ?_, raw, kept⟩
  · rw [State.fld_settle, State.fld_servoMoved (by decide), State.en_servoWritten_en _ (by decide)]
  · rw [State.servo_settle, State.servo_servoMoved (by decide)]
  · rw [State.fld_settle, State.stateChg_servoMoved (by rwa [State.servo_servoWritten, State.servo_begun])]

/-! #### TIMEOUT, and a new source (R303) -/

@[simp] theorem State.servoTimeout_begun (s : State) (dt : Nat) : (s.begun dt).servoTimeout = s.servoTimeout := by
  rw [State.servoTimeout, State.fld_begun, State.servoTimeout]

theorem exec_srcLost_due (ha : s.aonUp = true) (run : s.servo = svAcquire ∨ s.servo = svLocked) (late : s.hm.sampleAt + s.servoTimeout ≤ s.now + dt) :
    ∃ t, exec (.srcLost dt) s = .next t ∧ t.servo = svHoldover ∧ t.time.addend = clampAddend s.hm.integ ∧ t.fld Fld.HM_INT_STATUS_SRC_LOST = 1 ∧
      t.fld Fld.HM_INT_STATUS_STATE_CHG = 1 ∧ t.time.raw = (s.begun dt).time.raw ∧
      (s.begun dt).frame t { parts := [.time, .hm, .out, .jn], regs := (· ∈ [Reg.HM_SERVO_STATUS, Reg.HM_INT_STATUS, Reg.CM_INT_STATUS]) } := by
  have begun : (s.begun dt).servo = svAcquire ∨ (s.begun dt).servo = svLocked := by simpa using run
  have act : (s.begun dt).srcLost = ((s.begun dt).servoMoved s.hm.integ svHoldover).raise Fld.HM_INT_STATUS_SRC_LOST := by
    rw [State.srcLost, if_pos ⟨begun, by simpa using late⟩, State.servoHold_running begun, State.begun_hm]
  obtain ⟨next, addend, raw, kept⟩ := exec_aon_addend (c := .srcLost dt) rfl rfl ha act (State.servoMoved_timeReq (State.begun_timeReq s dt))
    (x := { parts := [.time, .hm, .out, .jn], regs := (· ∈ [Reg.HM_SERVO_STATUS, Reg.HM_INT_STATUS, Reg.CM_INT_STATUS]) })
    (State.frame_trans (State.frame_servoMoved (by simp) (by simp) (by simp) (by simp) (by simp) (by simp)) (State.frame_raise _ _ _ (by decide))) (by simp)
  refine ⟨_, next, ?_, addend, ?_, ?_, raw, kept⟩
  · rw [State.servo_settle, State.servo, State.fld_raise_miss _ (by decide)]
    exact State.servo_servoMoved (by decide)
  · rw [State.fld_settle]
    exact State.fld_raise_self _ _ (by decide) (by decide)
  · rw [State.fld_settle, State.fld_raise_miss _ (by decide), State.stateChg_servoMoved (servo_ne_holdover begun)]

theorem exec_srcLost_early (h : s.servo = svFree ∨ s.servo = svHoldover ∨ s.now + dt < s.hm.sampleAt + s.servoTimeout) :
    ∃ t, exec (.srcLost dt) s = .next t ∧ (s.begun dt).frame t {} := by
  refine exec_aon_still (c := .srcLost dt) rfl rfl (if_neg ?_)
  simp only [State.servo_begun, State.begun_hm, State.servoTimeout_begun, State.now_begun]
  rintro ⟨run, late⟩
  rcases h with free | hold | early
  · rw [free] at run
    exact absurd run (by decide)
  · exact servo_ne_holdover run hold
  · omega

theorem exec_servoSrcWrite_running {src q : Nat} (ha : s.aonUp = true) (hs : src < 8) (hq : q < 128) (on : s.fld Fld.HM_SERVO_CTRL_EN = 1)
    (run : s.servo = svAcquire ∨ s.servo = svLocked) :
    ∃ t, exec (.servoSrcWrite dt src q) s = .next t ∧ t.fld Fld.HM_SERVO_CTRL_SRC = src ∧ t.fld Fld.HM_SERVO_CTRL_CRF_PORT = q ∧ t.servo = svHoldover ∧
      t.time.addend = clampAddend s.hm.integ ∧ t.hm.crfVals = [] ∧ t.fld Fld.HM_INT_STATUS_STATE_CHG = 1 ∧
      (s.begun dt).frame t servoMoveTouch := by
  have act := State.servoSrcWrite_running (s := s.begun dt) (src := src) (q := q) (by simpa using on) (by simpa using run)
  rw [State.begun_hm] at act
  have left := State.leaves_trans ((s.begun dt).leaves_servoWritten ((s.begun dt).servoSrcWord src q) (x := servoMoveTouch) (by simp [servoMoveTouch]))
    (State.leaves_crfForgotten _ (by simp [servoMoveTouch]))
  have idle : ((s.begun dt).servoWritten ((s.begun dt).servoSrcWord src q)).crfForgotten.servo ≠ svHoldover := by
    rw [State.servo_crfForgotten, State.servo_servoWritten, State.servo_begun]
    exact servo_ne_holdover run
  obtain ⟨next, addend, -, kept⟩ := exec_aon_addend (c := .servoSrcWrite dt src q) rfl (by simp [Instr.wellFormed, hs, hq]) ha act
    (State.servoMoved_timeReq (left.2.trans (State.begun_timeReq s dt))) (State.frame_trans left.1 (State.servoMoved_left _ _ _)) (by simp [servoMoveTouch])
  obtain ⟨high, hm⟩ := State.servoMoved_hm (s := ((s.begun dt).servoWritten ((s.begun dt).servoSrcWord src q)).crfForgotten) (a := s.hm.integ) (st := svHoldover)
  refine ⟨_, next, ?_, ?_, ?_, addend, ?_, ?_, kept⟩
  · rw [State.fld_settle, State.fld_servoMoved (by decide), State.fld_crfForgotten, State.src_servoWritten_src _ hs]
  · rw [State.fld_settle, State.fld_servoMoved (by decide), State.fld_crfForgotten, State.crfPort_servoWritten_src _ hq]
  · rw [State.servo_settle, State.servo_servoMoved (by decide)]
  · rw [State.settle_hm, hm, State.crfForgotten_hm]
  · rw [State.fld_settle, State.stateChg_servoMoved idle]

end

/-- Settles O26, by the servo's move in each of its cases. -/
theorem servoStates : Obligations.ServoStates := by
  unfold Obligations.ServoStates
  exact ⟨fun s dt ha off free => exec_servoEnable_free ha off free, fun s dt ha running => exec_servoDisable_running ha running,
    fun s dt ha run late => exec_srcLost_due ha run late, fun s dt _ h => exec_srcLost_early h,
    fun s dt src q ha hs hq on run => exec_servoSrcWrite_running ha hs hq on run⟩

end Sys2Proof.Machine
end

/-! ### Steps of the counter (R298, R299) -/

section
namespace Sys2Proof.Machine

/-! #### The end of a command that steps the counter -/

theorem State.leaves_pmStep (s : State) (n : Nat) {x : Touch} (h : .pms ∈ x.parts) : s.leaves (s.pmStep n) x := by
  refine State.leaves_foldl _ x _ (fun t p _ => ?_) s
  dsimp only
  split
  · exact State.leaves_pmTouch t p h
  · exact State.leaves_trans (State.leaves_pmTouch t p h) (State.leaves_setPm _ p _ x h)

/-- What follows a step: the journal's records that are due, and the seconds of performance monitoring. -/
theorem State.leaves_afterStep (s : State) {x : Touch} (h : .pms ∈ x.parts) (j : .jn ∈ x.parts) (c : x.regs Reg.CM_INT_STATUS) :
    s.leaves s.afterStep x := by
  rw [State.afterStep]
  split
  · exact State.leaves_trans (State.leaves_jnRipe s x j c) (State.leaves_ite _ (fun _ => State.leaves_pmStep _ _ h) (fun _ => State.leaves_refl _ x))
  · exact State.leaves_refl s x

theorem State.afterStep_left (s : State) : s.leaves s.afterStep { parts := [.pms, .jn], regs := (· = Reg.CM_INT_STATUS) } :=
  s.leaves_afterStep (by simp) (by simp) rfl

/-- A command that asks for a step. -/
theorem exec_aon_step {s g : State} {c : Instr} {dt : Nat} {f : State → State} {x : Touch} {d : Int} (he : exec c s = s.cmdAon c.wellFormed dt f)
    (hw : c.wellFormed = true) (ha : s.aonUp = true) (hf : f (s.begun dt) = g) (req : g.timeReq = ⟨some d, none⟩) (hg : (s.begun dt).frame g x)
    (ht : .time ∈ x.parts) (hp : .pms ∈ x.parts) (hj : .jn ∈ x.parts) (hc : x.regs Reg.CM_INT_STATUS) :
    ∃ t, exec c s = .next t ∧ t.time.now = s.now + dt ∧ t.time.raw = ((((s.begun dt).time.raw : Int) + d) % (hmMod : Int)).toNat ∧
      t.time.addend = s.time.addend ∧ g.frame t { parts := [.time, .pms, .jn], regs := (· = Reg.CM_INT_STATUS) } ∧ (s.begun dt).frame t x := by
  have left := (State.frame_settle_time s (s.begun dt).time (g.leaves_afterStep (x := { parts := [.time, .pms, .jn], regs := (· = Reg.CM_INT_STATUS) })
    (by simp) (by simp) rfl).1 (by simp))
  have time : (g.afterStep.settle s (s.begun dt).time).time = (s.begun dt).time.take ⟨some d, none⟩ := by
    rw [State.settle_time, g.afterStep_left.2, req]
  refine ⟨_, exec_aon he hw ha hf, ?_, ?_, ?_, left, State.frame_settle_time s _ (State.frame_trans hg (g.leaves_afterStep hp hj hc).1) ht⟩
  · rw [time, Time.take_now]
    exact State.now_begun s dt
  · rw [time, Time.take]
  · rw [time, Time.take, State.begun_time, Time.advance]

/-! #### The parts of a step -/

section
variable (s : State) (d : Int)

theorem State.leaves_gateSettleAll {x : Touch} (h : .hm ∈ x.parts) : s.leaves s.gateSettleAll x :=
  State.leaves_foldl _ x _ (fun t q _ => State.leaves_gateSettle t q h) s
theorem State.leaves_stepPins {x : Touch} (h : .hm ∈ x.parts) : s.leaves (s.stepPins d) x := by
  rw [State.stepPins]
  exact State.leaves_ite _ (fun _ => State.leaves_trans (State.leaves_hm s _ x h) (State.leaves_hm _ _ x h)) (fun _ => State.leaves_refl s x)

/-- A step is asked for, counted and raised. -/
def State.stepMarked : State :=
  (({ s.gateSettleAll.stepPins d with timeReq := { s.timeReq with step := some d } } : State).count (Ctr.hm 0) 1).raise Fld.HM_INT_STATUS_STEP
/-- A sample's interval ends in HOLDOVER, where the next one starts anew. -/
def State.intervalEnded : State := if s.servo = svHoldover then { s with hm := { s.hm with lastAt := none, sampleAt := s.now } } else s
/-- A servo that is not in FREERUN returns to ACQUIRE. -/
def State.reacquired : State := if s.servo = svFree then s else ({ s with hm := { s.hm with srun := 0 } } : State).toServo svAcquire

theorem State.frame_stepMarked {x : Touch} (h : .hm ∈ x.parts) (c : x.ctrs (Ctr.hm 0)) (l : x.regs Reg.HM_INT_STATUS) : s.frame (s.stepMarked d) x :=
  State.frame_trans (State.leaves_trans (s.leaves_gateSettleAll h) (State.leaves_stepPins _ d h)).1
    (State.frame_trans (State.frame_asks _ _ x) (State.frame_trans (State.frame_count _ _ _ x c) (State.frame_raise _ _ x l)))
theorem State.stepMarked_left : s.frame (s.stepMarked d) { parts := [.hm], ctrs := (· = Ctr.hm 0), regs := (· = Reg.HM_INT_STATUS) } :=
  s.frame_stepMarked d (by simp) rfl rfl
theorem State.stepMarked_timeReq : (s.stepMarked d).timeReq = { s.timeReq with step := some d } := by
  rw [State.stepMarked, State.raise_timeReq, State.count_timeReq]
theorem State.servo_stepMarked : (s.stepMarked d).servo = s.servo := (s.stepMarked_left d).fld (f := Fld.HM_SERVO_STATUS_STATE) (by decide)
theorem State.step_stepMarked : (s.stepMarked d).fld Fld.HM_INT_STATUS_STEP = 1 := State.fld_raise_self _ _ (by decide) (by decide)
theorem State.ctr_stepMarked : (s.stepMarked d).ctr (Ctr.hm 0) = (s.ctr (Ctr.hm 0) + 1) % 2 ^ 64 := by
  have before := (State.frame_trans (State.leaves_trans (s.leaves_gateSettleAll (x := { parts := [.hm] }) (by simp)) (State.leaves_stepPins _ d (by simp))).1
    (State.frame_asks _ { s.timeReq with step := some d } _)).ctrOf (a := Ctr.hm 0) (by decide) id
  rw [State.stepMarked, State.ctr_raise, State.ctr_count_self, before]

theorem State.leaves_intervalEnded {x : Touch} (h : .hm ∈ x.parts) : s.leaves s.intervalEnded x :=
  State.leaves_ite _ (fun _ => State.leaves_hm s _ x h) (fun _ => State.leaves_refl s x)
theorem State.servo_intervalEnded : s.intervalEnded.servo = s.servo :=
  (s.leaves_intervalEnded (x := { parts := [.hm] }) (by simp)).fld (f := Fld.HM_SERVO_STATUS_STATE) id

theorem State.leaves_reacquired {x : Touch} (h : .hm ∈ x.parts) (g : .out ∈ x.parts) (k : x.regs Reg.HM_SERVO_STATUS) (l : x.regs Reg.HM_INT_STATUS) :
    s.leaves s.reacquired x :=
  State.leaves_ite _ (fun _ => State.leaves_refl s x) (fun _ => State.leaves_trans (State.leaves_hm s _ x h) (State.leaves_toServo _ _ h g k l))
theorem State.reacquired_left : s.leaves s.reacquired servoTouch :=
  s.leaves_reacquired (by simp [servoTouch]) (by simp [servoTouch]) (by simp [servoTouch]) (by simp [servoTouch])
theorem State.servo_reacquired : s.reacquired.servo = if s.servo = svFree then svFree else svAcquire := by
  rw [State.reacquired]
  split
  next free => exact free
  next => exact State.servo_toServo (by decide)
theorem State.step_reacquired : s.reacquired.fld Fld.HM_INT_STATUS_STEP = s.fld Fld.HM_INT_STATUS_STEP := by
  rw [State.reacquired]
  split
  · rfl
  · rw [State.fld_toServo (by decide) (by decide)]
    exact (State.leaves_hm s _ { parts := [.hm] } (by simp)).fld id

/-- A step, part by part. -/
theorem State.stepBy_eq : s.stepBy d = (s.stepMarked d).intervalEnded.reacquired := by
  have same := (s.stepMarked d).servo_intervalEnded
  rw [State.reacquired, same]
  by_cases free : (s.stepMarked d).servo = svFree
  · rw [if_pos free, State.intervalEnded, if_neg (by rw [free]; decide)]
    exact if_pos free
  · rw [if_neg free]
    exact if_neg free

theorem State.stepBy_timeReq : (s.stepBy d).timeReq = { s.timeReq with step := some d } := by
  rw [State.stepBy_eq, (State.reacquired_left _).2, (State.leaves_intervalEnded (x := { parts := [.hm] }) _ (by simp)).2, State.stepMarked_timeReq]
theorem State.frame_stepBy {x : Touch} (h : .hm ∈ x.parts) (g : .out ∈ x.parts) (c : x.ctrs (Ctr.hm 0)) (k : x.regs Reg.HM_SERVO_STATUS)
    (l : x.regs Reg.HM_INT_STATUS) : s.frame (s.stepBy d) x := by
  rw [State.stepBy_eq]
  exact State.frame_trans (s.frame_stepMarked d h c l) (State.leaves_trans (State.leaves_intervalEnded _ h) (State.leaves_reacquired _ h g k l)).1

/-- A step is counted, raises STEP, and returns the servo to ACQUIRE. -/
theorem State.stepBy_shows : (s.stepBy d).ctr (Ctr.hm 0) = (s.ctr (Ctr.hm 0) + 1) % 2 ^ 64 ∧ (s.stepBy d).fld Fld.HM_INT_STATUS_STEP = 1 ∧
    (s.stepBy d).servo = if s.servo = svFree then svFree else svAcquire := by
  have ended := State.leaves_intervalEnded (x := { parts := [.hm] }) (s.stepMarked d) (by simp)
  rw [State.stepBy_eq]
  refine ⟨?_, ?_, ?_⟩
  · rw [(State.reacquired_left _).ctrOf (by decide) id, ended.ctrOf (by decide) id, State.ctr_stepMarked]
  · rw [State.step_reacquired, ended.fld id, State.step_stepMarked]
  · rw [State.servo_reacquired, State.servo_intervalEnded, State.servo_stepMarked]

/-! #### Software's steps -/

/-- The step that a software command comes to: a servo step of the same tick is discarded (R299). -/
def State.softAmount : Int := if s.hm.svTick = s.tick + 1 then d - s.hm.svDelta else d

/-- A software step of a tick that has had a servo step: that step's place in the count is taken. -/
def State.stepReplaced : State :=
  { ({ s with hm := { s.hm with lastAt := none, svTick := 0, swTick := s.tick + 1 } } : State) with
    timeReq := { s.timeReq with step := some (d - s.hm.svDelta) } }
/-- The tick of a software step is noted. -/
def State.swNoted : State := { s with hm := { s.hm with swTick := s.tick + 1 } }

theorem State.frame_stepReplaced {x : Touch} (h : .hm ∈ x.parts) : s.frame (s.stepReplaced d) x :=
  State.frame_trans (State.leaves_hm s _ x h).1 (State.frame_asks _ _ x)
theorem State.leaves_swNoted {x : Touch} (h : .hm ∈ x.parts) : s.leaves s.swNoted x := State.leaves_hm s _ x h

theorem State.softStep_eq : s.softStep d = if s.hm.svTick = s.tick + 1 then (s.stepReplaced d).reacquired else s.swNoted.stepBy d := rfl

theorem State.softStep_timeReq (h : s.timeReq = ⟨none, none⟩) : (s.softStep d).timeReq = ⟨some (s.softAmount d), none⟩ := by
  rw [State.softStep_eq, State.softAmount]
  split
  · rw [(State.reacquired_left _).2, State.stepReplaced, h]
  · rw [State.stepBy_timeReq, (s.leaves_swNoted (x := { parts := [.hm] }) (by simp)).2, h]
theorem State.frame_softStep {x : Touch} (h : .hm ∈ x.parts) (g : .out ∈ x.parts) (c : x.ctrs (Ctr.hm 0)) (k : x.regs Reg.HM_SERVO_STATUS)
    (l : x.regs Reg.HM_INT_STATUS) : s.frame (s.softStep d) x := by
  rw [State.softStep_eq]
  split
  · exact State.frame_trans (s.frame_stepReplaced d h) (State.leaves_reacquired _ h g k l).1
  · exact State.frame_trans (s.leaves_swNoted h).1 (State.frame_stepBy _ d h g c k l)
theorem State.softStep_shows (h : s.hm.svTick ≠ s.tick + 1) :
    (s.softStep d).ctr (Ctr.hm 0) = (s.ctr (Ctr.hm 0) + 1) % 2 ^ 64 ∧ (s.softStep d).fld Fld.HM_INT_STATUS_STEP = 1 ∧
      (s.softStep d).servo = if s.servo = svFree then svFree else svAcquire := by
  have noted := s.leaves_swNoted (x := { parts := [.hm] }) (by simp)
  have shows := s.swNoted.stepBy_shows d
  rw [noted.ctrOf (by decide) id, show s.swNoted.servo = s.servo from noted.fld (f := Fld.HM_SERVO_STATUS_STATE) id] at shows
  rwa [State.softStep_eq, if_neg h]

end

end Sys2Proof.Machine
end

/-! ### `HM_SET_CTRL` and the addend (R296 to R300) -/

section
namespace Sys2Proof.Machine

/-! #### `HM_SET` -/

section
variable (s : State) (sec ns frac : Nat)

theorem State.leaves_putHmSet {x : Touch} (h0 : x.regs Reg.HM_SET0) (h1 : x.regs Reg.HM_SET1) (h2 : x.regs Reg.HM_SET2) :
    s.leaves (s.putHmSet sec ns frac) x :=
  State.leaves_trans (State.leaves_trans (State.leaves_setReg s _ _ x h0) (State.leaves_setReg _ _ _ x h1)) (State.leaves_setReg _ _ _ x h2)
@[simp] theorem State.busy_putHmSet (a : Nat) : (s.putHmSet sec ns frac).busy a = s.busy a := rfl

/-- The time that `HM_SET` holds. -/
theorem State.timeAt_putHmSet {sec ns frac : Nat} (h0 : sec < 2 ^ 48) (h1 : ns < 2 ^ 30) (h2 : frac < 2 ^ 16) :
    (s.putHmSet sec ns frac).timeAt Reg.HM_SET0 = (sec * 1000000000 + ns) * 2 ^ 16 + frac := by
  have r0 : (s.putHmSet sec ns frac).reg Reg.HM_SET0 = w32 (ns % 2 ^ 30) := by
    rw [State.putHmSet, State.reg_setReg_ne _ _ _ _ (by decide), State.reg_setReg_ne _ _ _ _ (by decide), State.reg_setReg_self]
  have r1 : (s.putHmSet sec ns frac).reg (Reg.HM_SET0 + 4) = w32 sec := by
    rw [State.putHmSet, State.reg_setReg_ne _ _ _ _ (by decide), show Reg.HM_SET0 + 4 = Reg.HM_SET1 from rfl, State.reg_setReg_self]
  have r2 : (s.putHmSet sec ns frac).reg (Reg.HM_SET0 + 8) = w32 (frac % 2 ^ 16 * 2 ^ 16 + sec / 2 ^ 32 % 2 ^ 16) := by
    rw [State.putHmSet, show Reg.HM_SET0 + 8 = Reg.HM_SET2 from rfl, State.reg_setReg_self]
  rw [State.timeAt, r0, r1, r2, timeOfWords, w32_toNat, w32_toNat, w32_toNat]
  omega

/-! #### GO -/

/-- A command of `HM_SET_CTRL` is under way. -/
def State.setStarted (op : Nat) : State := (s.setF Fld.HM_SET_CTRL_OP op).startGo Reg.HM_SET_CTRL (20 * tNs)

theorem State.leaves_setStarted (op : Nat) {x : Touch} (h : .free ∈ x.parts) (g : .goBusy ∈ x.parts) (k : x.regs Reg.HM_SET_CTRL) :
    s.leaves (s.setStarted op) x := State.leaves_trans (State.leaves_setF s _ op x k) (State.leaves_startGo _ _ _ x h g)
theorem State.setStarted_left (op : Nat) : s.leaves (s.setStarted op) { parts := [.free, .goBusy], regs := (· = Reg.HM_SET_CTRL) } :=
  s.leaves_setStarted op (by simp) (by simp) rfl
theorem State.hmSetValue_setStarted (op : Nat) : (s.setStarted op).hmSetValue = s.hmSetValue := by
  rw [State.hmSetValue, State.timeAt, (s.setStarted_left op).reg (a := Reg.HM_SET0) (by decide), (s.setStarted_left op).reg (a := Reg.HM_SET0 + 4) (by decide),
    (s.setStarted_left op).reg (a := Reg.HM_SET0 + 8) (by decide), State.hmSetValue, State.timeAt]

/-- What SET steps by, before a servo step of the same tick is discarded. -/
def State.setAmount : Int :=
  (s.hmSetValue : Nat) + ((s.freeVal % 2 ^ 24 : Nat) : Int) - (s.time.raw : Int) + if s.hm.svTick = s.tick + 1 then s.hm.svDelta else 0

/-- GO while a command is under way sets OVERRUN alone. -/
theorem State.hmSetGo_busy {s : State} (op : Nat) (h : s.busy Reg.HM_SET_CTRL = true) : s.hmSetGo op = s.setF Fld.HM_SET_CTRL_OVERRUN 1 := if_pos h

end

/-- The state in which a command of `HM_SET_CTRL` steps the counter: `HM_SET` and `OP` are written, and GO is 1. -/
def State.setReady (s : State) (sec ns frac op : Nat) : State := (s.putHmSet sec ns frac).setStarted op

/-- What a command of `HM_SET_CTRL` touches before it steps the counter. -/
def setTouch : Touch :=
  { parts := [.goBusy, .free], regs := (· ∈ [Reg.HM_SET0, Reg.HM_SET1, Reg.HM_SET2, Reg.HM_SET_CTRL]) }

section
variable (s : State) (sec ns frac op : Nat)

theorem State.leaves_setReady {x : Touch} (h : .free ∈ x.parts) (g : .goBusy ∈ x.parts) (h0 : x.regs Reg.HM_SET0) (h1 : x.regs Reg.HM_SET1)
    (h2 : x.regs Reg.HM_SET2) (k : x.regs Reg.HM_SET_CTRL) : s.leaves (s.setReady sec ns frac op) x :=
  State.leaves_trans (s.leaves_putHmSet sec ns frac h0 h1 h2) (State.leaves_setStarted _ op h g k)
theorem State.setReady_left : s.leaves (s.setReady sec ns frac op) setTouch :=
  s.leaves_setReady sec ns frac op (by simp [setTouch]) (by simp [setTouch]) (by simp [setTouch]) (by simp [setTouch]) (by simp [setTouch]) (by simp [setTouch])
theorem State.hmSetValue_setReady {sec ns frac : Nat} (h0 : sec < 2 ^ 48) (h1 : ns < 2 ^ 30) (h2 : frac < 2 ^ 16) :
    (s.setReady sec ns frac op).hmSetValue = ((sec * 1000000000 + ns) * 2 ^ 16 + frac) * 2 ^ 24 := by
  rw [State.setReady, State.hmSetValue_setStarted, State.hmSetValue, s.timeAt_putHmSet h0 h1 h2]

variable {s}

/-- The three commands of `HM_SET_CTRL`. -/
theorem State.hmSetGo_idle {s : State} (op : Nat) (h : s.busy Reg.HM_SET_CTRL = false) : s.hmSetGo op =
    if op = 1 then (s.setStarted op).softStep ((s.setStarted op).hmSetValue : Nat)
    else if op = 2 then (s.setStarted op).softStep (-((s.setStarted op).hmSetValue : Nat))
    else (s.setStarted op).drawn.softStep (s.setStarted op).setAmount := if_neg (by rw [h]; decide)
theorem State.hmSetGo_add (h : s.busy Reg.HM_SET_CTRL = false) :
    (s.putHmSet sec ns frac).hmSetGo 1 = (s.setReady sec ns frac 1).softStep ((s.setReady sec ns frac 1).hmSetValue : Nat) := by
  rw [State.hmSetGo_idle 1 (by rwa [State.busy_putHmSet]), if_pos rfl, State.setReady]
theorem State.hmSetGo_sub (h : s.busy Reg.HM_SET_CTRL = false) :
    (s.putHmSet sec ns frac).hmSetGo 2 = (s.setReady sec ns frac 2).softStep (-((s.setReady sec ns frac 2).hmSetValue : Nat)) := by
  rw [State.hmSetGo_idle 2 (by rwa [State.busy_putHmSet]), if_neg (by decide), if_pos rfl, State.setReady]
theorem State.hmSetGo_set (h : s.busy Reg.HM_SET_CTRL = false) :
    (s.putHmSet sec ns frac).hmSetGo 0 = (s.setReady sec ns frac 0).drawn.softStep (s.setReady sec ns frac 0).setAmount := by
  rw [State.hmSetGo_idle 0 (by rwa [State.busy_putHmSet]), if_neg (by decide), if_neg (by decide), State.setReady]
/-- SET comes to the time of `HM_SET`, with free hidden bits. -/
theorem State.softAmount_set (s : State) : s.drawn.softAmount s.setAmount = (s.hmSetValue : Nat) + ((s.freeVal % 2 ^ 24 : Nat) : Int) - (s.time.raw : Int) := by
  have same : s.drawn.hm = s.hm ∧ s.drawn.tick = s.tick := ⟨rfl, rfl⟩
  rw [State.softAmount, State.setAmount, same.1, same.2]
  split
  · omega
  · omega

end

/-- What a step by `HM_SET_CTRL` touches. -/
def stepTouch : Touch :=
  { parts := [.time, .hm, .goBusy, .free, .pms, .out, .jn], ctrs := (· = Ctr.hm 0),
    regs := (· ∈ [Reg.HM_SET0, Reg.HM_SET1, Reg.HM_SET2, Reg.HM_SET_CTRL, Reg.HM_INT_STATUS, Reg.HM_SERVO_STATUS, Reg.CM_INT_STATUS]) }

/-- A command that has GO steps the counter, from a state that differs in `HM_SET` and its control. -/
theorem exec_softStep {s g : State} {c : Instr} {dt : Nat} {f : State → State} {d : Int} (he : exec c s = s.cmdAon c.wellFormed dt f)
    (hw : c.wellFormed = true) (ha : s.aonUp = true) (hf : f (s.begun dt) = g.softStep d) (ready : (s.begun dt).leaves g setTouch) :
    ∃ t, exec c s = .next t ∧ t.time.now = s.now + dt ∧ t.time.raw = ((((s.begun dt).time.raw : Int) + g.softAmount d) % (hmMod : Int)).toNat ∧
      t.time.addend = s.time.addend ∧
      (s.hm.svTick ≠ (s.now + dt) / 240 + 1 → t.ctr (Ctr.hm 0) = (s.ctr (Ctr.hm 0) + 1) % 2 ^ 64 ∧ t.fld Fld.HM_INT_STATUS_STEP = 1 ∧
        t.servo = (if s.servo = svFree then svFree else svAcquire)) ∧ (s.begun dt).frame t stepTouch := by
  have wide : (s.begun dt).leaves g stepTouch := ready.mono (by simp [setTouch, stepTouch]) (by simp +contextual [setTouch, stepTouch])
    (fun _ h => h.elim) (by simp [setTouch]) (by simp [setTouch])
  obtain ⟨t, run, now, raw, addend, after, kept⟩ := exec_aon_step (x := stepTouch) he hw ha hf (g.softStep_timeReq d (ready.2.trans (State.begun_timeReq s dt)))
    (State.frame_trans wide.1 (g.frame_softStep d (by simp [stepTouch]) (by simp [stepTouch]) rfl (by simp [stepTouch]) (by simp [stepTouch])))
    (by simp [stepTouch]) (by simp [stepTouch]) (by simp [stepTouch]) (by simp [stepTouch])
  refine ⟨t, run, now, raw, addend, fun fresh => ?_, kept⟩
  have hm : g.hm = s.hm := (ready.part (k := .hm) (by simp [setTouch])).trans (State.begun_hm s dt)
  have tick : g.tick = (s.now + dt) / 240 := by rw [State.tick, ready.now (by simp [setTouch]), State.now_begun]
  obtain ⟨ctr, step, servo⟩ := g.softStep_shows d (by rwa [hm, tick])
  have was : g.servo = s.servo := (ready.fld (f := Fld.HM_SERVO_STATUS_STATE) (by simp [setTouch]; decide)).trans (State.servo_begun s dt)
  refine ⟨?_, ?_, ?_⟩
  · rw [after.ctrOf (by decide) id, ctr, ready.ctrOf (by decide) id, State.ctr_begun]
  · rw [after.fld (by decide), step]
  · rw [State.servo, after.fld (by decide), ← State.servo, servo, was]

/-- A time in units of 2^-40 ns, seen in units of 2^-16 ns. -/
theorem visible_emod {v f : Nat} (h : f < 2 ^ 24) :
    (((v * 2 ^ 24 : Nat) : Int) + (f : Int)) % (hmMod : Int) = (((v * 2 ^ 24 + f) % (2 ^ 24 * (2 ^ 48 * 1000000000 * 2 ^ 16)) : Nat) : Int) ∧
      (v * 2 ^ 24 + f) % (2 ^ 24 * (2 ^ 48 * 1000000000 * 2 ^ 16)) / 2 ^ 24 = v % (2 ^ 48 * 1000000000 * 2 ^ 16) := by
  have modulus : hmMod = 2 ^ 24 * (2 ^ 48 * 1000000000 * 2 ^ 16) := by rw [hmMod]; rfl
  refine ⟨by rw [modulus]; push_cast; rfl, ?_⟩
  rw [Nat.mod_mul_right_div_self]
  congr 1
  omega

section
variable {s : State} {dt sec ns frac : Nat}

theorem exec_timeSet_idle (ha : s.aonUp = true) (h0 : sec < 2 ^ 48) (h1 : ns < 2 ^ 30) (h2 : frac < 2 ^ 16)
    (idle : (s.begun dt).busy Reg.HM_SET_CTRL = false) :
    ∃ t, exec (.timeSet dt sec ns frac) s = .next t ∧ t.time.now = s.now + dt ∧
      t.hm16 = ((sec * 1000000000 + ns) * 2 ^ 16 + frac) % (2 ^ 48 * 1000000000 * 2 ^ 16) ∧ t.time.addend = s.time.addend ∧
      (s.hm.svTick ≠ (s.now + dt) / 240 + 1 → t.ctr (Ctr.hm 0) = (s.ctr (Ctr.hm 0) + 1) % 2 ^ 64 ∧ t.fld Fld.HM_INT_STATUS_STEP = 1 ∧
        t.servo = (if s.servo = svFree then svFree else svAcquire)) ∧ (s.begun dt).frame t stepTouch := by
  have ready := (s.begun dt).setReady_left sec ns frac 0
  obtain ⟨t, run, now, raw, addend, shows, kept⟩ := exec_softStep (c := .timeSet dt sec ns frac) rfl rfl ha
    (State.hmSetGo_set sec ns frac idle) (State.leaves_trans ready (State.leaves_drawn _ _ (by simp [setTouch])))
  have time : ((s.begun dt).setReady sec ns frac 0).time = (s.begun dt).time := ready.part (k := .time) (by simp [setTouch])
  obtain ⟨cast, visible⟩ := visible_emod (v := (sec * 1000000000 + ns) * 2 ^ 16 + frac)
    (Nat.mod_lt ((s.begun dt).setReady sec ns frac 0).freeVal (show 0 < 2 ^ 24 by decide))
  rw [State.softAmount_set, time, State.hmSetValue_setReady _ _ h0 h1 h2, add_sub_cancel, cast, Int.toNat_natCast] at raw
  exact ⟨t, run, now, by rw [State.hm16, raw, visible], addend, shows, kept⟩

theorem exec_timeMove_idle (sub : Bool) {v : Nat} (ha : s.aonUp = true) (h0 : sec < 2 ^ 48) (h1 : ns < 2 ^ 30) (h2 : frac < 2 ^ 16)
    (idle : (s.begun dt).busy Reg.HM_SET_CTRL = false) (fresh : s.hm.svTick ≠ (s.now + dt) / 240 + 1)
    (hv : v = ((sec * 1000000000 + ns) * 2 ^ 16 + frac) * 2 ^ 24) :
    ∃ t, exec (if sub then .timeSub dt sec ns frac else .timeAdd dt sec ns frac) s = .next t ∧ t.time.now = s.now + dt ∧
      (t.time.raw : Int) = (((s.begun dt).time.raw : Int) + (if sub then -(v : Int) else (v : Int))) % (hmMod : Int) ∧
      t.time.addend = s.time.addend ∧ t.ctr (Ctr.hm 0) = (s.ctr (Ctr.hm 0) + 1) % 2 ^ 64 ∧ t.fld Fld.HM_INT_STATUS_STEP = 1 ∧
      t.servo = (if s.servo = svFree then svFree else svAcquire) ∧ (s.begun dt).frame t stepTouch := by
  have plain (g : State) (ready : (s.begun dt).leaves g setTouch) (d : Int) : g.softAmount d = d := by
    have hm : g.hm = s.hm := (ready.part (k := .hm) (by simp [setTouch])).trans (State.begun_hm s dt)
    refine if_neg ?_
    rwa [hm, State.tick, ready.now (by simp [setTouch]), State.now_begun]
  have pos : (hmMod : Int) ≠ 0 := by exact_mod_cast hmMod_pos.ne'
  cases sub
  · have ready := (s.begun dt).setReady_left sec ns frac 1
    obtain ⟨t, run, now, raw, addend, shows, kept⟩ := exec_softStep (c := .timeAdd dt sec ns frac) rfl rfl ha
      (State.hmSetGo_add sec ns frac idle) ready
    obtain ⟨ctr, step, servo⟩ := shows fresh
    rw [plain _ ready, State.hmSetValue_setReady _ _ h0 h1 h2, ← hv] at raw
    exact ⟨t, run, now, by rw [raw, Int.toNat_of_nonneg (Int.emod_nonneg _ pos)]; rfl, addend, ctr, step, servo, kept⟩
  · have ready := (s.begun dt).setReady_left sec ns frac 2
    obtain ⟨t, run, now, raw, addend, shows, kept⟩ := exec_softStep (c := .timeSub dt sec ns frac) rfl rfl ha
      (State.hmSetGo_sub sec ns frac idle) ready
    obtain ⟨ctr, step, servo⟩ := shows fresh
    rw [plain _ ready, State.hmSetValue_setReady _ _ h0 h1 h2, ← hv] at raw
    exact ⟨t, run, now, by rw [raw, Int.toNat_of_nonneg (Int.emod_nonneg _ pos)]; rfl, addend, ctr, step, servo, kept⟩

/-- Any command of `HM_SET_CTRL` while GO is 1. -/
theorem exec_hmSet_busy {c : Instr} {op : Nat} (row : exec c s = s.cmdAon c.wellFormed dt (fun s => (s.putHmSet sec ns frac).hmSetGo op))
    (hw : c.wellFormed = true) (ha : s.aonUp = true) (busy : (s.begun dt).busy Reg.HM_SET_CTRL = true) :
    ∃ t, exec c s = .next t ∧ t.fld Fld.HM_SET_CTRL_OVERRUN = 1 ∧
      (s.begun dt).frame t { regs := (· ∈ [Reg.HM_SET0, Reg.HM_SET1, Reg.HM_SET2, Reg.HM_SET_CTRL]) } := by
  have left : (s.begun dt).leaves (((s.begun dt).putHmSet sec ns frac).setF Fld.HM_SET_CTRL_OVERRUN 1)
      { regs := (· ∈ [Reg.HM_SET0, Reg.HM_SET1, Reg.HM_SET2, Reg.HM_SET_CTRL]) } :=
    State.leaves_trans (State.leaves_putHmSet _ _ _ _ (by simp) (by simp) (by simp)) (State.leaves_setF _ _ _ _ (by decide))
  obtain ⟨run, kept⟩ := exec_aon_touches row hw ha (State.hmSetGo_busy op (by rwa [State.busy_putHmSet])) left
  refine ⟨_, run, ?_, kept⟩
  rw [State.fld_settle]
  exact State.fld_setF_self _ _ _ (by decide)

end

/-! #### `HM_ADDEND` (R297) -/

/-- The signed value of a bit vector, as the model reads it. -/
theorem signed_toNat {n : Nat} (v : BitVec n) (h : 0 < n) : signed n v.toNat = v.toInt := by
  have half : 2 * 2 ^ (n - 1) = 2 ^ n := by rw [← pow_succ', Nat.sub_add_cancel h]
  rw [signed, Nat.mod_eq_of_lt v.isLt, BitVec.toInt_eq_toNat_cond]
  split
  next low => rw [if_pos (by omega)]
  next high => rw [if_neg (by omega)]

/-- Both words of `HM_ADDEND` hold a value. -/
def State.addendWritten (s : State) (v : BitVec 40) : State :=
  (s.setReg Reg.HM_ADDEND0 (w32 v.toNat)).setReg Reg.HM_ADDEND1 (w32 (v.toNat / 2 ^ 32))

section
variable (s : State) (v : BitVec 40)

theorem State.leaves_addendWritten {x : Touch} (h : x.regs Reg.HM_ADDEND0) (g : x.regs Reg.HM_ADDEND1) : s.leaves (s.addendWritten v) x :=
  State.leaves_trans (State.leaves_setReg s _ _ x h) (State.leaves_setReg _ _ _ x g)
@[simp] theorem State.servo_addendWritten : (s.addendWritten v).servo = s.servo :=
  (s.leaves_addendWritten v (x := { regs := (· ∈ [Reg.HM_ADDEND0, Reg.HM_ADDEND1]) }) (by simp) (by simp)).fld (f := Fld.HM_SERVO_STATUS_STATE) (by decide)
theorem State.addendReg_addendWritten : (s.addendWritten v).addendReg = v.toInt := by
  have low : (s.addendWritten v).reg Reg.HM_ADDEND0 = w32 v.toNat := by
    rw [State.addendWritten, State.reg_setReg_ne _ _ _ _ (by decide), State.reg_setReg_self]
  have high : (s.addendWritten v).reg Reg.HM_ADDEND1 = w32 (v.toNat / 2 ^ 32) := State.reg_setReg_self _ _ _
  have bound := v.isLt
  have whole : v.toNat / 2 ^ 32 % 2 ^ 32 % 256 * 2 ^ 32 + v.toNat % 2 ^ 32 = v.toNat := by omega
  rw [State.addendReg, low, high, w32_toNat, w32_toNat, whole, signed_toNat v (by decide)]

theorem State.addendCommand_free (h : s.servo = svFree) : s.addendCommand v = (s.addendWritten v).askAddend v.toInt := by
  rw [← s.addendReg_addendWritten v]
  exact if_pos (by rwa [← State.servo_addendWritten s v] at h)
theorem State.addendCommand_running (h : s.servo ≠ svFree) : s.addendCommand v = s.addendWritten v :=
  if_neg (by rwa [← State.servo_addendWritten s v] at h)

end

theorem exec_addendWrite {s : State} {dt : Nat} (v : BitVec 40) (ha : s.aonUp = true) :
    ∃ t, exec (.addendWrite dt v) s = .next t ∧ t.addendReg = v.toInt ∧
      t.time.addend = (if s.servo = svFree then clampAddend v.toInt else s.time.addend) ∧ t.time.raw = (s.begun dt).time.raw ∧
      (s.begun dt).frame t { parts := [.time, .jn], regs := (· ∈ [Reg.HM_ADDEND0, Reg.HM_ADDEND1, Reg.CM_INT_STATUS]) } := by
  have written := (s.begun dt).leaves_addendWritten v
    (x := { parts := [.time, .jn], regs := (· ∈ [Reg.HM_ADDEND0, Reg.HM_ADDEND1, Reg.CM_INT_STATUS]) }) (by simp) (by simp)
  have shown (g s0 : State) (tm : Time) : (g.settle s0 tm).addendReg = g.addendReg := by simp [State.addendReg]
  by_cases free : s.servo = svFree
  · have act := (s.begun dt).addendCommand_free v (by rwa [State.servo_begun])
    obtain ⟨run, addend, raw, kept⟩ := exec_aon_addend (c := .addendWrite dt v) rfl rfl ha act
      (by rw [State.askAddend_timeReq, written.2, State.begun_timeReq]) (State.frame_trans written.1 (State.frame_askAddend _ _ (by simp) (by simp))) (by simp)
    refine ⟨_, run, ?_, by rw [addend, if_pos free], raw, kept⟩
    rw [shown, State.addendReg, State.reg_askAddend _ _ (by decide), State.reg_askAddend _ _ (by decide), ← State.addendReg, State.addendReg_addendWritten]
  · have act := (s.begun dt).addendCommand_running v (by rwa [State.servo_begun])
    obtain ⟨run, kept⟩ := exec_aon_touches (c := .addendWrite dt v) rfl rfl ha act written
    have time := State.settle_time_quiet s (s.begun dt).time (written.2.trans (State.begun_timeReq s dt))
    refine ⟨_, run, by rw [shown, State.addendReg_addendWritten], ?_, by rw [time], kept⟩
    rw [if_neg free, time, State.begun_time, Time.advance]

/-! #### The broadcast (R300) -/

theorem State.broadcast_shows (s : State) : s.broadcast.hm.bcastSec = some s.hmSec ∧ s.leaves s.broadcast { parts := [.hm] } := by
  rw [State.broadcast]
  split
  next same => exact ⟨same, State.leaves_refl s _⟩
  next => exact ⟨rfl, State.leaves_hm s _ _ (by simp)⟩

theorem exec_counterBroadcast {s : State} {dt : Nat} (ha : s.aonUp = true) :
    ∃ t, exec (.counterBroadcast dt) s = .next t ∧
      (t.time.raw : Int) = ((s.time.raw : Int) + (((s.now + dt) / 240 - s.now / 240 : Nat) : Int) * (4 * 2 ^ 40 + 4 * s.time.addend)) % (hmMod : Int) ∧
      t.time.addend = s.time.addend ∧ t.hm.bcastSec = some t.hmSec ∧ (s.begun dt).frame t { parts := [.hm] } := by
  obtain ⟨noted, left⟩ := (s.begun dt).broadcast_shows
  obtain ⟨run, kept⟩ := exec_aon_touches (c := .counterBroadcast dt) rfl rfl ha rfl left
  have time := State.settle_time_quiet s (s.begun dt).time (left.2.trans (State.begun_timeReq s dt))
  have pos : (hmMod : Int) ≠ 0 := by exact_mod_cast hmMod_pos.ne'
  refine ⟨_, run, ?_, ?_, ?_, kept⟩
  · rw [time, State.begun_time, Time.advance, Int.toNat_of_nonneg (Int.emod_nonneg _ pos), State.now]
  · rw [time, State.begun_time, Time.advance]
  · rw [State.settle_hm, noted, State.hmSec, State.hmSec, State.hmNs, State.hmNs, time]

/-- Settles O25, command by command. -/
theorem counterSteps : Obligations.CounterSteps := by
  unfold Obligations.CounterSteps
  refine ⟨fun s dt sec ns frac ha h0 h1 h2 idle => exec_timeSet_idle ha h0 h1 h2 idle,
    fun s dt sec ns frac v sub ha h0 h1 h2 idle fresh hv => exec_timeMove_idle sub ha h0 h1 h2 idle fresh hv,
    fun s dt sec ns frac c ha h0 h1 h2 hc busy => ?_, fun s dt v ha => exec_addendWrite v ha, fun s dt ha => exec_counterBroadcast ha⟩
  simp only [List.mem_cons, List.not_mem_nil, or_false] at hc
  rcases hc with rfl | rfl | rfl <;> exact exec_hmSet_busy rfl rfl ha busy

end Sys2Proof.Machine
end

/-! ### Offset samples (R301 to R303) -/

section
namespace Sys2Proof.Machine

/-! #### What a step keeps of the servo -/

/-- Hallmark's own state without what a step of the counter moves: the calendars and the noted instants. -/
def Hall.stepless (h : Hall) : Hall := { h with gates := [], ppsSec := none, todSec := none }
theorem Hall.stepless_integ (h : Hall) : h.stepless.integ = h.integ := rfl
theorem Hall.stepless_crfVals (h : Hall) : h.stepless.crfVals = h.crfVals := rfl
theorem Hall.stepless_sampleAt (h : Hall) : h.stepless.sampleAt = h.sampleAt := rfl

section
variable (s : State) (d : Int)

theorem State.gateSettle_stepless (q : Nat) : (s.gateSettle q).hm.stepless = s.hm.stepless := by
  unfold State.gateSettle
  dsimp only
  split
  · split <;> rfl
  · rfl
theorem State.gateSettleAll_stepless : s.gateSettleAll.hm.stepless = s.hm.stepless :=
  foldl_keeps (fun s : State => s.hm.stepless) _ (fun t q => t.gateSettle_stepless q) _ s
theorem State.stepPins_stepless : (s.stepPins d).hm.stepless = s.hm.stepless := by
  rw [State.stepPins]
  split <;> rfl
theorem State.stepMarked_stepless : (s.stepMarked d).hm.stepless = s.hm.stepless := by
  rw [State.stepMarked, State.raise_hm, State.count_hm]
  exact (s.gateSettleAll.stepPins_stepless d).trans s.gateSettleAll_stepless
theorem State.reacquired_hm : ∃ r b, s.reacquired.hm = { s.hm with srun := r, ppsHigh := b } := by
  rw [State.reacquired]
  split
  · exact ⟨_, _, rfl⟩
  · obtain ⟨b, hb⟩ := State.toServo_hm ({ s with hm := { s.hm with srun := 0 } } : State) svAcquire
    exact ⟨0, b, hb⟩

/-- What the servo keeps through a step of the counter. -/
theorem State.stepBy_servo : (s.stepBy d).hm.integ = s.hm.integ ∧ (s.stepBy d).hm.crfVals = s.hm.crfVals ∧
    ((s.stepBy d).hm.sampleAt = s.hm.sampleAt ∨ (s.stepBy d).hm.sampleAt = s.now) := by
  have marked := s.stepMarked_stepless d
  have now : (s.stepMarked d).now = s.now := by
    rw [State.now, (s.stepMarked_left d).part (k := .time) (by simp), State.now]
  have integ : (s.stepMarked d).hm.integ = s.hm.integ := by rw [← Hall.stepless_integ, marked, Hall.stepless_integ]
  have vals : (s.stepMarked d).hm.crfVals = s.hm.crfVals := by rw [← Hall.stepless_crfVals, marked, Hall.stepless_crfVals]
  have at_ : (s.stepMarked d).hm.sampleAt = s.hm.sampleAt := by rw [← Hall.stepless_sampleAt, marked, Hall.stepless_sampleAt]
  obtain ⟨r, b, hm⟩ := (s.stepMarked d).intervalEnded.reacquired_hm
  rw [State.stepBy_eq, hm, State.intervalEnded]
  split
  · exact ⟨integ, vals, .inr now⟩
  · exact ⟨integ, vals, .inl at_⟩

end

/-! #### A sample is noted -/

/-- An offset is shown, and its sample noted, before the servo acts on it. -/
def State.sampled (s : State) (theta : Int) : State :=
  { (s.setReg Reg.HM_LAST_OFFSET0 (w32 (unsign 32 (theta.fdiv 65536)))).setReg Reg.HM_LAST_OFFSET1 (w32 (unsign 16 theta)) with
    hm := { s.hm with lastAt := some s.tick, sampleAt := s.now, seenAt := some s.now } }

section
variable (s : State) (theta : Int)

theorem State.sampled_hm : (s.sampled theta).hm = { s.hm with lastAt := some s.tick, sampleAt := s.now, seenAt := some s.now } := rfl
theorem State.leaves_sampled {x : Touch} (h : .hm ∈ x.parts) (h0 : x.regs Reg.HM_LAST_OFFSET0) (h1 : x.regs Reg.HM_LAST_OFFSET1) :
    s.leaves (s.sampled theta) x :=
  State.leaves_trans (State.leaves_trans (State.leaves_setReg s _ _ x h0) (State.leaves_setReg _ _ _ x h1)) (State.leaves_hm _ _ x h)
theorem State.sampled_left : s.leaves (s.sampled theta) { parts := [.hm], regs := (· ∈ [Reg.HM_LAST_OFFSET0, Reg.HM_LAST_OFFSET1]) } :=
  s.leaves_sampled theta (by simp) (by simp) (by simp)
theorem State.fld_sampled {f : Fld} (h : f.addr ∉ [Reg.HM_LAST_OFFSET0, Reg.HM_LAST_OFFSET1]) : (s.sampled theta).fld f = s.fld f :=
  (s.sampled_left theta).fld h
@[simp] theorem State.servo_sampled : (s.sampled theta).servo = s.servo := s.fld_sampled theta (by decide)
@[simp] theorem State.tick_sampled : (s.sampled theta).tick = s.tick := by
  rw [State.tick, (s.sampled_left theta).now (by simp), State.tick]
/-- `HM_LAST_OFFSET` shows the offset. -/
theorem State.lastOffset_sampled : (s.sampled theta).reg Reg.HM_LAST_OFFSET0 = w32 (unsign 32 (theta.fdiv 65536)) ∧
    (s.sampled theta).reg Reg.HM_LAST_OFFSET1 = w32 (unsign 16 theta) := by
  have kept (t : State) (h : Hall) (a : Nat) : ({ t with hm := h } : State).reg a = t.reg a := (t.leaves_hm h { parts := [.hm] } (by simp)).reg id
  rw [State.sampled, kept, kept]
  exact ⟨(State.reg_setReg_ne _ _ _ _ (by decide)).trans (State.reg_setReg_self _ _ _), State.reg_setReg_self _ _ _⟩

end

/-! #### What a sample can come to -/

/-- A sample that is beyond STEP_NS steps the counter (R302). -/
abbrev State.stepsFor (s : State) (theta : Int) : Prop :=
  s.bit Fld.HM_SERVO_CTRL_STEP_EN = true ∧ 0 < s.fld Fld.HM_STEP_NS_STEP_NS ∧ s.fld Fld.HM_STEP_NS_STEP_NS * 65536 < theta.natAbs

theorem State.not_stepsFor {s : State} (theta : Int) (h : s.fld Fld.HM_SERVO_CTRL_STEP_EN = 0) : ¬ s.stepsFor theta := by
  rintro ⟨on, -⟩
  simp [State.bit, h] at on

/-- The servo's step of a tick is noted. -/
def State.svNoted (s : State) (theta : Int) : State := { s with hm := { s.hm with svTick := s.tick + 1, svDelta := -theta * 2 ^ 24 } }
/-- The next sample starts a new interval (R299). -/
def State.unpaced (s : State) : State := { s with hm := { s.hm with lastAt := none } }
/-- The run of samples within LOCK stands at a number. -/
def State.runSet (s : State) (n : Nat) : State := { s with hm := { s.hm with srun := n } }

/-- The run of samples within LOCK after one more. -/
def State.runAfter (s : State) (theta : Int) (u : State) : Nat := if theta.natAbs ≤ s.fld Fld.HM_SERVO_THR_LOCK * 65536 then u.hm.srun + 1 else 0
/-- I and A move, and the servo may lock or unlock (R301, R303). -/
def State.servoStep (s : State) (theta : Int) (tns : Nat) : State :=
  let u := s.servoUpdate theta tns
  if u.servo = svLocked then
    if s.fld Fld.HM_SERVO_THR_UNLOCK * 8 * 65536 < theta.natAbs then (u.runSet 0).toServo svAcquire else u
  else if max (s.fld Fld.HM_SERVO_THR_LOCK_CNT) 1 ≤ s.runAfter theta u then (u.runSet (s.runAfter theta u)).toServo svLocked
  else u.runSet (s.runAfter theta u)

section
variable {s : State} {theta : Int}

theorem State.servoSample_beyond (h : (s.sampled theta).stepsFor theta) :
    s.servoSample theta = if (s.sampled theta).hm.swTick = (s.sampled theta).tick + 1 then (s.sampled theta).unpaced
      else ((s.sampled theta).svNoted theta).stepBy (-theta * 2 ^ 24) := if_pos h
theorem State.servoSample_holdover (h : ¬ (s.sampled theta).stepsFor theta) (hold : s.servo = svHoldover) :
    s.servoSample theta = ((s.sampled theta).runSet 0).toServo svAcquire :=
  (if_neg h).trans (if_pos ((s.servo_sampled theta).trans hold))
theorem State.servoSample_first (h : ¬ (s.sampled theta).stepsFor theta) (run : s.servo ≠ svHoldover) (first : s.hm.lastAt = none) :
    s.servoSample theta = s.sampled theta := by
  refine (if_neg h).trans ((if_neg (fun hold => run ((s.servo_sampled theta).symm.trans hold))).trans ?_)
  rw [first]
  rfl
theorem State.servoSample_later {t0 : Nat} (h : ¬ (s.sampled theta).stepsFor theta) (run : s.servo ≠ svHoldover) (last : s.hm.lastAt = some t0) :
    s.servoSample theta = (s.sampled theta).servoStep theta ((s.tick - t0) * 4) := by
  refine (if_neg h).trans ((if_neg (fun hold => run ((s.servo_sampled theta).symm.trans hold))).trans ?_)
  rw [last, ← s.tick_sampled theta]
  rfl

end

/-! #### The update of I and A (R301) -/

theorem clampAddend_idem (a : Int) : clampAddend (clampAddend a) = clampAddend a := by
  obtain ⟨low, high⟩ := clampAddend_bounds a
  generalize clampAddend a = b at low high
  rw [clampAddend, if_neg (by omega), if_neg (by omega)]

/-- The error that an offset is over an interval; for no interval the spec gives none. -/
def State.sampleError (s : State) (theta : Int) (tns : Nat) : Int :=
  if tns = 0 then freeInt s.freeVal else (theta * 2 ^ 24).fdiv ((tns : Nat) : Int)
/-- I and A after an error. -/
def State.integAfter (s : State) (e : Int) : Int := clampAddend (s.hm.integ - e.fdiv (2 ^ s.fld Fld.HM_SERVO_CTRL_KI))
def State.addendAfter (s : State) (e : Int) : Int := clampAddend (s.integAfter e - e.fdiv (2 ^ s.fld Fld.HM_SERVO_CTRL_KP))
/-- I has moved. -/
def State.integMoved (s : State) (e : Int) : State := { s.drawn with hm := { s.hm with integ := s.integAfter e } }

section
variable (s : State) (theta : Int) (tns : Nat)

theorem State.servoUpdate_eq : s.servoUpdate theta tns = (s.integMoved (s.sampleError theta tns)).askAddend (s.addendAfter (s.sampleError theta tns)) := rfl
theorem State.leaves_integMoved (e : Int) {x : Touch} (h : .hm ∈ x.parts) (f : .free ∈ x.parts) : s.leaves (s.integMoved e) x :=
  State.leaves_trans (State.leaves_drawn s x f) (State.leaves_hm _ _ x h)
theorem State.frame_servoUpdate {x : Touch} (h : .hm ∈ x.parts) (f : .free ∈ x.parts) (j : .jn ∈ x.parts) (c : x.regs Reg.CM_INT_STATUS) :
    s.frame (s.servoUpdate theta tns) x := by
  rw [State.servoUpdate_eq]
  exact State.frame_trans (s.leaves_integMoved _ h f).1 (State.frame_askAddend _ _ j c)
theorem State.servoUpdate_left : s.frame (s.servoUpdate theta tns) { parts := [.hm, .free, .jn], regs := (· = Reg.CM_INT_STATUS) } :=
  s.frame_servoUpdate theta tns (by simp) (by simp) (by simp) rfl
@[simp] theorem State.servoUpdate_hm : (s.servoUpdate theta tns).hm = { s.hm with integ := s.integAfter (s.sampleError theta tns) } := by
  rw [State.servoUpdate_eq, State.askAddend_hm, State.integMoved]
theorem State.servoUpdate_timeReq : (s.servoUpdate theta tns).timeReq = { s.timeReq with addend := some (s.addendAfter (s.sampleError theta tns)) } := by
  rw [State.servoUpdate_eq, State.askAddend_timeReq, (s.leaves_integMoved (x := { parts := [.hm, .free] }) _ (by simp) (by simp)).2]
@[simp] theorem State.servo_servoUpdate : (s.servoUpdate theta tns).servo = s.servo :=
  (s.servoUpdate_left theta tns).fld (f := Fld.HM_SERVO_STATUS_STATE) (by decide)

theorem State.leaves_runSet (n : Nat) {x : Touch} (h : .hm ∈ x.parts) : s.leaves (s.runSet n) x := State.leaves_hm s _ x h
theorem State.runSet_hm (n : Nat) : (s.runSet n).hm = { s.hm with srun := n } := rfl
@[simp] theorem State.servo_runSet (n : Nat) : (s.runSet n).servo = s.servo :=
  (s.leaves_runSet n (x := { parts := [.hm] }) (by simp)).fld (f := Fld.HM_SERVO_STATUS_STATE) id
theorem State.toServo_still {s : State} {st : Nat} (h : s.servo = st) : s.toServo st = s := if_pos h

/-- The servo's state after a sample that moves A (R303). -/
def State.servoAfter : Nat :=
  if s.servo = svLocked then if s.fld Fld.HM_SERVO_THR_UNLOCK * 8 * 65536 < theta.natAbs then svAcquire else svLocked
  else if theta.natAbs ≤ s.fld Fld.HM_SERVO_THR_LOCK * 65536 ∧ max (s.fld Fld.HM_SERVO_THR_LOCK_CNT) 1 ≤ s.hm.srun + 1 then svLocked else s.servo

/-- The run comes to LOCK_CNT with a sample within LOCK alone. -/
theorem State.runAfter_locks (u : State) : max (s.fld Fld.HM_SERVO_THR_LOCK_CNT) 1 ≤ s.runAfter theta u ↔
    theta.natAbs ≤ s.fld Fld.HM_SERVO_THR_LOCK * 65536 ∧ max (s.fld Fld.HM_SERVO_THR_LOCK_CNT) 1 ≤ u.hm.srun + 1 := by
  rw [State.runAfter]
  split
  next near => exact ⟨fun h => ⟨near, h⟩, fun h => h.2⟩
  next far => exact ⟨fun h => absurd (le_trans (le_max_right _ _) h) (by omega), fun h => absurd h.1 far⟩

/-- Whatever the servo makes of a sample that moves A, it sets the run and its state. -/
theorem State.servoStep_form : ∃ n, s.servoStep theta tns = ((s.servoUpdate theta tns).runSet n).toServo (s.servoAfter theta) := by
  have own (u : State) : u.runSet u.hm.srun = u := rfl
  have run : (s.servoUpdate theta tns).hm.srun = s.hm.srun := by rw [State.servoUpdate_hm]
  rw [State.servoStep, State.servoAfter, State.servo_servoUpdate]
  split
  next locked =>
    split
    · exact ⟨0, rfl⟩
    · refine ⟨(s.servoUpdate theta tns).hm.srun, ?_⟩
      rw [own, State.toServo_still ((s.servo_servoUpdate theta tns).trans locked)]
  next =>
    have locks := s.runAfter_locks theta (s.servoUpdate theta tns)
    rw [run] at locks
    refine ⟨s.runAfter theta (s.servoUpdate theta tns), ?_⟩
    split
    next h => rw [if_pos (locks.mp h)]
    next h => rw [if_neg (fun g => h (locks.mpr g)), State.toServo_still (by rw [State.servo_runSet, State.servo_servoUpdate])]

theorem State.frame_servoStep {x : Touch} (h : .hm ∈ x.parts) (g : .out ∈ x.parts) (f : .free ∈ x.parts) (j : .jn ∈ x.parts)
    (k : x.regs Reg.HM_SERVO_STATUS) (l : x.regs Reg.HM_INT_STATUS) (c : x.regs Reg.CM_INT_STATUS) : s.frame (s.servoStep theta tns) x := by
  obtain ⟨n, form⟩ := s.servoStep_form theta tns
  rw [form]
  exact State.frame_trans (s.frame_servoUpdate theta tns h f j c) (State.leaves_trans (State.leaves_runSet _ n h) (State.leaves_toServo _ _ h g k l)).1
theorem State.servoStep_hm : ∃ n b, (s.servoStep theta tns).hm =
    { s.hm with integ := s.integAfter (s.sampleError theta tns), srun := n, ppsHigh := b } := by
  obtain ⟨n, form⟩ := s.servoStep_form theta tns
  obtain ⟨b, hm⟩ := State.toServo_hm ((s.servoUpdate theta tns).runSet n) (s.servoAfter theta)
  exact ⟨n, b, by rw [form, hm, State.runSet_hm, State.servoUpdate_hm]⟩
theorem State.servoStep_timeReq (h : s.timeReq = ⟨none, none⟩) :
    (s.servoStep theta tns).timeReq = ⟨none, some (s.addendAfter (s.sampleError theta tns))⟩ := by
  obtain ⟨n, form⟩ := s.servoStep_form theta tns
  rw [form, State.toServo_timeReq, (State.leaves_runSet (x := { parts := [.hm] }) _ n (by simp)).2, State.servoUpdate_timeReq, h]
theorem State.servoAfter_lt : s.servoAfter theta < 4 := by
  have bound : s.servo < 4 := s.fld_lt Fld.HM_SERVO_STATUS_STATE
  rw [State.servoAfter]
  split
  · split <;> decide
  · split
    · decide
    · exact bound
theorem State.servo_servoStep : (s.servoStep theta tns).servo = s.servoAfter theta := by
  obtain ⟨n, form⟩ := s.servoStep_form theta tns
  rw [form, State.servo_toServo (s.servoAfter_lt theta)]

end

/-! #### Every sample -/

/-- What a sample touches after it is noted, whatever it comes to. -/
def sampleTouch : Touch :=
  { parts := [.hm, .out, .free, .jn], ctrs := (· = Ctr.hm 0), regs := (· ∈ [Reg.HM_SERVO_STATUS, Reg.HM_INT_STATUS, Reg.CM_INT_STATUS]) }

/-- It leaves `HM_LAST_OFFSET` alone. -/
theorem sampleTouch_keeps : ¬ sampleTouch.regs Reg.HM_LAST_OFFSET0 ∧ ¬ sampleTouch.regs Reg.HM_LAST_OFFSET1 :=
  ⟨show Reg.HM_LAST_OFFSET0 ∉ [Reg.HM_SERVO_STATUS, Reg.HM_INT_STATUS, Reg.CM_INT_STATUS] by decide,
    show Reg.HM_LAST_OFFSET1 ∉ [Reg.HM_SERVO_STATUS, Reg.HM_INT_STATUS, Reg.CM_INT_STATUS] by decide⟩

/-- The servo's record of a sample, in a state `t` that it leads to from `s`. -/
structure State.sampleShown (s t : State) (theta : Int) : Prop where
  low : t.reg Reg.HM_LAST_OFFSET0 = w32 (unsign 32 (theta.fdiv 65536))
  high : t.reg Reg.HM_LAST_OFFSET1 = w32 (unsign 16 theta)
  at_ : t.hm.sampleAt = s.now
  vals : t.hm.crfVals = s.hm.crfVals

section
variable {s : State} {theta : Int}

theorem State.sampleShown_of {t : State} (left : (s.sampled theta).frame t sampleTouch) (at_ : t.hm.sampleAt = s.now) (vals : t.hm.crfVals = s.hm.crfVals) :
    s.sampleShown t theta :=
  ⟨(left.reg sampleTouch_keeps.1).trans (s.lastOffset_sampled theta).1, (left.reg sampleTouch_keeps.2).trans (s.lastOffset_sampled theta).2, at_, vals⟩

/-- Without a step, the servo in ACQUIRE, LOCKED or HOLDOVER ends in ACQUIRE or LOCKED, with its interval begun. -/
theorem State.servoSample_paced (h : ¬ (s.sampled theta).stepsFor theta) (run : s.servo ≠ svFree) :
    s.sampleShown (s.servoSample theta) theta ∧ (s.servoSample theta).hm.lastAt = some s.tick ∧
      ((s.servoSample theta).servo = svAcquire ∨ (s.servoSample theta).servo = svLocked) := by
  have bound : s.servo < 4 := s.fld_lt Fld.HM_SERVO_STATUS_STATE
  have hm := s.sampled_hm theta
  by_cases hold : s.servo = svHoldover
  · obtain ⟨b, moved⟩ := State.toServo_hm ((s.sampled theta).runSet 0) svAcquire
    rw [State.runSet_hm, hm] at moved
    rw [State.servoSample_holdover h hold]
    refine ⟨State.sampleShown_of (State.leaves_trans (State.leaves_runSet _ 0 (by simp [sampleTouch])) (State.leaves_toServo _ _ (by simp [sampleTouch])
      (by simp [sampleTouch]) (by simp [sampleTouch]) (by simp [sampleTouch]))).1 ?_ ?_, ?_, .inl (State.servo_toServo (by decide))⟩ <;> rw [moved]
  · have on : s.servo = svAcquire ∨ s.servo = svLocked := by
      simp only [svFree, svAcquire, svLocked, svHoldover] at run hold ⊢
      omega
    cases last : s.hm.lastAt with
    | none =>
      rw [State.servoSample_first h hold last]
      exact ⟨State.sampleShown_of (State.frame_refl _ _) (by rw [hm]) (by rw [hm]), by rw [hm], by rwa [State.servo_sampled]⟩
    | some t0 =>
      obtain ⟨n, b, moved⟩ := (s.sampled theta).servoStep_hm theta ((s.tick - t0) * 4)
      rw [hm] at moved
      rw [State.servoSample_later h hold last]
      refine ⟨State.sampleShown_of (State.frame_servoStep _ _ _ (by simp [sampleTouch]) (by simp [sampleTouch]) (by simp [sampleTouch]) (by simp [sampleTouch])
        (by simp [sampleTouch]) (by simp [sampleTouch]) (by simp [sampleTouch])) (by rw [moved]) (by rw [moved]), by rw [moved], ?_⟩
      rw [State.servo_servoStep, State.servoAfter, State.servo_sampled]
      split
      · split
        · exact .inl rfl
        · exact .inr rfl
      · split
        · exact .inr rfl
        · exact on

/-- Without a step it asks for an addend at most. -/
theorem State.servoSample_calm (h : ¬ (s.sampled theta).stepsFor theta) (quiet : s.timeReq = ⟨none, none⟩) : (s.servoSample theta).timeReq.step = none := by
  have sampled : (s.sampled theta).timeReq = ⟨none, none⟩ := (s.sampled_left theta).2.trans quiet
  by_cases hold : s.servo = svHoldover
  · rw [State.servoSample_holdover h hold, State.toServo_timeReq, (State.leaves_runSet (x := { parts := [.hm] }) _ 0 (by simp)).2, sampled]
  · cases last : s.hm.lastAt with
    | none => rw [State.servoSample_first h hold last, sampled]
    | some t0 => rw [State.servoSample_later h hold last, State.servoStep_timeReq _ _ _ sampled]

/-- The step of the counter by a sample. -/
theorem State.servoSample_steps (h : (s.sampled theta).stepsFor theta) (alone : s.hm.swTick ≠ s.tick + 1) :
    s.servoSample theta = ((s.sampled theta).svNoted theta).stepBy (-theta * 2 ^ 24) := by
  rw [State.servoSample_beyond h, if_neg (by rwa [State.sampled_hm, State.tick_sampled])]

theorem State.leaves_svNoted (s : State) (theta : Int) {x : Touch} (h : .hm ∈ x.parts) : s.leaves (s.svNoted theta) x := State.leaves_hm s _ x h
theorem State.svNoted_hm (s : State) (theta : Int) : (s.svNoted theta).hm = { s.hm with svTick := s.tick + 1, svDelta := -theta * 2 ^ 24 } := rfl

/-- Whatever a sample comes to, it is shown. -/
theorem State.servoSample_shown (run : s.servo ≠ svFree) : s.sampleShown (s.servoSample theta) theta := by
  have hm := s.sampled_hm theta
  by_cases h : (s.sampled theta).stepsFor theta
  · by_cases soft : s.hm.swTick = s.tick + 1
    · rw [State.servoSample_beyond h, if_pos (by rwa [State.sampled_hm, State.tick_sampled])]
      exact State.sampleShown_of (State.leaves_hm _ _ _ (by simp [sampleTouch])).1 rfl rfl
    · have noted := (s.sampled theta).svNoted_hm theta
      have now : ((s.sampled theta).svNoted theta).now = s.now :=
        (((s.sampled theta).leaves_svNoted theta (x := { parts := [.hm] }) (by simp)).now (by simp)).trans ((s.sampled_left theta).now (by simp))
      obtain ⟨-, vals, at_⟩ := ((s.sampled theta).svNoted theta).stepBy_servo (-theta * 2 ^ 24)
      rw [noted, hm] at vals at_
      rw [now] at at_
      rw [State.servoSample_steps h soft]
      exact State.sampleShown_of (State.frame_trans (State.leaves_svNoted _ _ (by simp [sampleTouch])).1 (State.frame_stepBy _ _ (by simp [sampleTouch])
        (by simp [sampleTouch]) rfl (by simp [sampleTouch]) (by simp [sampleTouch]))) (at_.elim id id) vals
  · exact (State.servoSample_paced h run).1

end

end Sys2Proof.Machine
end

/-! ### Where samples come from (R304) -/

section
namespace Sys2Proof.Machine

/-! #### Software -/

/-- `HM_SW_OFFSET` holds an offset. -/
def State.swWritten (s : State) (ns : BitVec 32) (fr : Nat) : State := (s.setReg Reg.HM_SW_OFFSET0 ns).setF Fld.HM_SW_OFFSET1_FRAC (fr % 2 ^ 16)

section
variable (s : State) (ns : BitVec 32) (fr : Nat)

theorem State.leaves_swWritten {x : Touch} (h : x.regs Reg.HM_SW_OFFSET0) (g : x.regs Reg.HM_SW_OFFSET1) : s.leaves (s.swWritten ns fr) x :=
  State.leaves_trans (State.leaves_setReg s _ _ x h) (State.leaves_setF _ _ _ x g)
theorem State.swWritten_left : s.leaves (s.swWritten ns fr) { regs := (· ∈ [Reg.HM_SW_OFFSET0, Reg.HM_SW_OFFSET1]) } :=
  s.leaves_swWritten ns fr (by simp) (by simp)
theorem State.fld_swWritten {f : Fld} (h : f.addr ∉ [Reg.HM_SW_OFFSET0, Reg.HM_SW_OFFSET1]) : (s.swWritten ns fr).fld f = s.fld f := (s.swWritten_left ns fr).fld h
@[simp] theorem State.servo_swWritten : (s.swWritten ns fr).servo = s.servo := s.fld_swWritten ns fr (by decide)
@[simp] theorem State.swWritten_hm : (s.swWritten ns fr).hm = s.hm := (s.swWritten_left ns fr).part (k := .hm) (by simp)
theorem State.now_swWritten : (s.swWritten ns fr).now = s.now := (s.swWritten_left ns fr).now (by simp)
theorem State.swTakes_swWritten : (s.swWritten ns fr).swTakes = s.swTakes := by
  rw [State.swTakes, State.servoOn, State.bit, State.servoSrc, s.fld_swWritten ns fr (by decide), s.fld_swWritten ns fr (by decide), State.swTakes,
    State.servoOn, State.bit, State.servoSrc]

/-- The offset that was written. -/
theorem State.swOffset_swWritten {fr : Nat} (h : fr < 2 ^ 16) : (s.swWritten ns fr).swOffset = ns.toInt * 65536 + (fr : Int) := by
  have low : (s.swWritten ns fr).reg Reg.HM_SW_OFFSET0 = ns := by
    rw [State.swWritten, State.reg_setF_ne _ _ _ _ (by decide), State.reg_setReg_self]
  have high : (s.swWritten ns fr).fld Fld.HM_SW_OFFSET1_FRAC = fr := by
    rw [State.swWritten, State.fld_setF_self _ _ _ (by decide)]
    show fr % 2 ^ 16 % 2 ^ 16 = fr
    omega
  have word : ((s.swWritten ns fr).reg Reg.HM_SW_OFFSET1).toNat % 65536 = fr := by
    rw [State.fld, bitsOf] at high
    simpa [Fld.HM_SW_OFFSET1_FRAC] using high
  rw [State.swOffset, low, word, signed_toNat ns (by decide)]

/-- An offset that software writes while the servo listens to it and runs. -/
theorem State.swCommand_sample {s : State} {fr : Nat} (h : fr < 2 ^ 16) (on : s.fld Fld.HM_SERVO_CTRL_EN = 1) (src : s.servoSrc = 0) (run : s.servo ≠ svFree) :
    s.swCommand ns fr = (s.swWritten ns fr).servoSample (ns.toInt * 65536 + (fr : Int)) := by
  have takes : s.swTakes = true := by simp [State.swTakes, State.servoOn, State.bit, on, src]
  rw [State.swCommand, if_pos takes, ← State.swWritten, State.swSubmit, State.swTakes_swWritten, State.servo_swWritten, if_pos ⟨takes, run⟩,
    State.swOffset_swWritten _ _ h]

end

/-! #### `HM_LAST_OFFSET` of an offset -/

theorem lastOffset_high (ns : BitVec 32) {fr : Nat} (h : fr < 2 ^ 16) : w32 (unsign 32 ((ns.toInt * 65536 + (fr : Int)).fdiv 65536)) = ns := by
  have whole : (ns.toInt * 65536 + (fr : Int)).fdiv 65536 = ns.toInt := by
    rw [Int.fdiv_eq_ediv_of_nonneg _ (by decide)]
    omega
  have bound := ns.isLt
  rw [whole, unsign]
  refine BitVec.eq_of_toNat_eq ?_
  rw [w32_toNat, BitVec.toInt_eq_toNat_cond]
  split <;> omega
theorem lastOffset_low (v : Int) {fr : Nat} (h : fr < 2 ^ 16) : w32 (unsign 16 (v * 65536 + (fr : Int))) = w32 fr := by
  congr 1
  rw [unsign]
  omega

section
variable {s : State} {dt fr : Nat} {ns : BitVec 32}

/-- What `HM_SW_OFFSET` and a sample touch. -/
def swTouch : Touch :=
  { parts := [.time, .hm, .out, .free, .jn],
    regs := (· ∈ [Reg.HM_SW_OFFSET0, Reg.HM_SW_OFFSET1, Reg.HM_LAST_OFFSET0, Reg.HM_LAST_OFFSET1, Reg.HM_SERVO_STATUS, Reg.HM_INT_STATUS, Reg.CM_INT_STATUS]) }

theorem exec_swOffset_moves {t0 T : Nat} {theta e : Int} (ha : s.aonUp = true) (hf : fr < 2 ^ 16) (on : s.fld Fld.HM_SERVO_CTRL_EN = 1) (src : s.servoSrc = 0)
    (run : s.servo = svAcquire ∨ s.servo = svLocked) (still : s.fld Fld.HM_SERVO_CTRL_STEP_EN = 0) (last : s.hm.lastAt = some t0)
    (hT : T = ((s.now + dt) / 240 - t0) * 4) (pos : 0 < T) (hθ : theta = ns.toInt * 65536 + (fr : Int)) (he : e = (theta * 2 ^ 24).fdiv (T : Int)) :
    ∃ t, exec (.swOffsetSample dt ns fr) s = .next t ∧ t.hm.integ = s.integAfter e ∧ t.time.addend = s.addendAfter e ∧
      t.time.raw = (s.begun dt).time.raw ∧ t.reg Reg.HM_LAST_OFFSET0 = ns ∧ t.reg Reg.HM_LAST_OFFSET1 = w32 fr ∧
      t.hm.lastAt = some ((s.now + dt) / 240) ∧ t.servo = s.servoAfter theta ∧ (s.begun dt).frame t swTouch := by
  have running : s.servo ≠ svFree := by rcases run with h | h <;> rw [h] <;> decide
  have act := State.swCommand_sample (s := s.begun dt) ns hf (by simpa using on) (by simpa using src) (by simpa using running)
  rw [← hθ] at act
  generalize hw : (s.begun dt).swWritten ns fr = w at act
  have hm : w.hm = s.hm := by rw [← hw, State.swWritten_hm, State.begun_hm]
  have fld (f : Fld) (h : f.addr ∉ [Reg.HM_SW_OFFSET0, Reg.HM_SW_OFFSET1]) : w.fld f = s.fld f := by rw [← hw, State.fld_swWritten _ _ _ h, State.fld_begun]
  have servo : w.servo = s.servo := fld _ (by decide)
  have tick : w.tick = (s.now + dt) / 240 := by rw [← hw, State.tick, State.now_swWritten, State.now_begun]
  have calm : ¬ (w.sampled theta).stepsFor theta := State.not_stepsFor theta (by rw [w.fld_sampled theta (by decide), fld _ (by decide), still])
  rw [State.servoSample_later calm (by rw [servo]; exact servo_ne_holdover run) (by rw [hm, last]), tick, ← hT] at act
  have seen (f : Fld) (h : f.addr ∉ [Reg.HM_SW_OFFSET0, Reg.HM_SW_OFFSET1]) (g : f.addr ∉ [Reg.HM_LAST_OFFSET0, Reg.HM_LAST_OFFSET1]) :
      (w.sampled theta).fld f = s.fld f := (w.fld_sampled theta g).trans (fld f h)
  have error : (w.sampled theta).sampleError theta T = e := by rw [State.sampleError, if_neg (by omega), he]
  have integ : (w.sampled theta).integAfter e = s.integAfter e := by
    rw [State.integAfter, State.sampled_hm, hm, seen _ (by decide) (by decide), State.integAfter]
  have addend : (w.sampled theta).addendAfter e = s.addendAfter e := by
    rw [State.addendAfter, integ, seen _ (by decide) (by decide), State.addendAfter]
  have after : (w.sampled theta).servoAfter theta = s.servoAfter theta := by
    rw [State.servoAfter, seen _ (by decide) (by decide), seen _ (by decide) (by decide), seen _ (by decide) (by decide), State.sampled_hm, hm,
      State.servo_sampled, servo, State.servoAfter]
  have left : (s.begun dt).leaves (w.sampled theta) swTouch := by
    rw [← hw]
    exact State.leaves_trans (State.leaves_swWritten _ _ _ (by simp [swTouch]) (by simp [swTouch]))
      (State.leaves_sampled _ _ (by simp [swTouch]) (by simp [swTouch]) (by simp [swTouch]))
  obtain ⟨next, newAddend, raw, kept⟩ := exec_aon_addend (c := .swOffsetSample dt ns fr) rfl rfl ha act
    (State.servoStep_timeReq _ theta T (left.2.trans (State.begun_timeReq s dt)))
    (State.frame_trans left.1 (State.frame_servoStep _ theta T (by simp [swTouch]) (by simp [swTouch]) (by simp [swTouch]) (by simp [swTouch])
      (by simp [swTouch]) (by simp [swTouch]) (by simp [swTouch]))) (by simp [swTouch])
  obtain ⟨n, b, moved⟩ := (w.sampled theta).servoStep_hm theta T
  have shown := (w.sampled theta).frame_servoStep theta T (x := sampleTouch) (by simp [sampleTouch]) (by simp [sampleTouch]) (by simp [sampleTouch])
    (by simp [sampleTouch]) (by simp [sampleTouch]) (by simp [sampleTouch]) (by simp [sampleTouch])
  refine ⟨_, next, ?_, ?_, raw, ?_, ?_, ?_, ?_, kept⟩
  · rw [State.settle_hm, moved, error, integ]
  · rw [newAddend, error, addend, State.addendAfter, clampAddend_idem]
  · rw [State.reg_settle, shown.reg sampleTouch_keeps.1, (w.lastOffset_sampled theta).1, hθ, lastOffset_high ns hf]
  · rw [State.reg_settle, shown.reg sampleTouch_keeps.2, (w.lastOffset_sampled theta).2, hθ, lastOffset_low _ hf]
  · rw [State.settle_hm, moved, State.sampled_hm, tick]
  · rw [State.servo_settle, State.servo_servoStep, after]

/-- What `HM_SW_OFFSET` and a sample that only starts the interval touch. -/
def swFirstTouch : Touch :=
  { parts := [.hm, .out],
    regs := (· ∈ [Reg.HM_SW_OFFSET0, Reg.HM_SW_OFFSET1, Reg.HM_LAST_OFFSET0, Reg.HM_LAST_OFFSET1, Reg.HM_SERVO_STATUS, Reg.HM_INT_STATUS]) }

theorem exec_swOffset_starts (ha : s.aonUp = true) (hf : fr < 2 ^ 16) (on : s.fld Fld.HM_SERVO_CTRL_EN = 1) (src : s.servoSrc = 0)
    (still : s.fld Fld.HM_SERVO_CTRL_STEP_EN = 0) (start : s.servo = svHoldover ∨ (s.servo = svAcquire ∧ s.hm.lastAt = none)) :
    ∃ t, exec (.swOffsetSample dt ns fr) s = .next t ∧ t.servo = svAcquire ∧ t.hm.lastAt = some ((s.now + dt) / 240) ∧ t.hm.sampleAt = s.now + dt ∧
      t.hm.integ = s.hm.integ ∧ (s.servo = svHoldover → t.hm.srun = 0 ∧ t.fld Fld.HM_INT_STATUS_STATE_CHG = 1) ∧ t.reg Reg.HM_LAST_OFFSET0 = ns ∧
      t.reg Reg.HM_LAST_OFFSET1 = w32 fr ∧ (s.begun dt).frame t swFirstTouch := by
  have running : s.servo ≠ svFree := by rcases start with h | ⟨h, -⟩ <;> rw [h] <;> decide
  have act := State.swCommand_sample (s := s.begun dt) ns hf (by simpa using on) (by simpa using src) (by simpa using running)
  generalize hθ : ns.toInt * 65536 + (fr : Int) = theta at act
  generalize hw : (s.begun dt).swWritten ns fr = w at act
  have hm : w.hm = s.hm := by rw [← hw, State.swWritten_hm, State.begun_hm]
  have servo : w.servo = s.servo := by rw [← hw, State.servo_swWritten, State.servo_begun]
  have now : w.now = s.now + dt := by rw [← hw, State.now_swWritten, State.now_begun]
  have calm : ¬ (w.sampled theta).stepsFor theta :=
    State.not_stepsFor theta (by rw [w.fld_sampled theta (by decide), ← hw, State.fld_swWritten _ _ _ (by decide), State.fld_begun, still])
  obtain ⟨shown, lastAt, -⟩ := State.servoSample_paced calm (by rwa [servo])
  have low : (w.servoSample theta).reg Reg.HM_LAST_OFFSET0 = ns := by rw [shown.low, ← hθ, lastOffset_high ns hf]
  have high : (w.servoSample theta).reg Reg.HM_LAST_OFFSET1 = w32 fr := by rw [shown.high, ← hθ, lastOffset_low _ hf]
  have left : (s.begun dt).leaves (w.sampled theta) swFirstTouch := by
    rw [← hw]
    exact State.leaves_trans (State.leaves_swWritten _ _ _ (by simp [swFirstTouch]) (by simp [swFirstTouch]))
      (State.leaves_sampled _ _ (by simp [swFirstTouch]) (by simp [swFirstTouch]) (by simp [swFirstTouch]))
  rcases start with hold | ⟨acq, first⟩
  · have form := State.servoSample_holdover calm (by rw [servo, hold])
    obtain ⟨b, moved⟩ := State.toServo_hm ((w.sampled theta).runSet 0) svAcquire
    obtain ⟨next, kept⟩ := exec_aon_touches (c := .swOffsetSample dt ns fr) rfl rfl ha (act.trans form)
      (State.leaves_trans left (State.leaves_trans (State.leaves_runSet _ 0 (by simp [swFirstTouch])) (State.leaves_toServo _ _ (by simp [swFirstTouch])
        (by simp [swFirstTouch]) (by simp [swFirstTouch]) (by simp [swFirstTouch]))))
    rw [form] at low high
    refine ⟨_, next, ?_, ?_, ?_, ?_, fun _ => ⟨?_, ?_⟩, by rw [State.reg_settle, low], by rw [State.reg_settle, high], kept⟩
    · rw [State.servo_settle, State.servo_toServo (by decide)]
    · rw [State.settle_hm, moved, State.runSet_hm, State.sampled_hm, State.tick, now]
    · rw [State.settle_hm, moved, State.runSet_hm, State.sampled_hm, now]
    · rw [State.settle_hm, moved, State.runSet_hm, State.sampled_hm, hm]
    · rw [State.settle_hm, moved, State.runSet_hm]
    · rw [State.fld_settle, State.stateChg_toServo (by rw [State.servo_runSet, State.servo_sampled, servo, hold]; decide)]
  · have away : s.servo ≠ svHoldover := by rw [acq]; decide
    have form := State.servoSample_first calm (by rwa [servo]) (by rw [hm, first])
    obtain ⟨next, kept⟩ := exec_aon_touches (c := .swOffsetSample dt ns fr) rfl rfl ha (act.trans form) left
    rw [form] at low high
    refine ⟨_, next, ?_, ?_, ?_, ?_, fun hold => absurd hold away, by rw [State.reg_settle, low], by rw [State.reg_settle, high], kept⟩
    · rw [State.servo_settle, State.servo_sampled, servo, acq]
    · rw [State.settle_hm, State.sampled_hm, State.tick, now]
    · rw [State.settle_hm, State.sampled_hm, now]
    · rw [State.settle_hm, State.sampled_hm, hm]

theorem exec_swOffset_steps {theta : Int} (ha : s.aonUp = true) (hf : fr < 2 ^ 16) (on : s.fld Fld.HM_SERVO_CTRL_EN = 1) (src : s.servoSrc = 0)
    (running : s.servo ≠ svFree) (en : s.fld Fld.HM_SERVO_CTRL_STEP_EN = 1) (some_ : 0 < s.fld Fld.HM_STEP_NS_STEP_NS)
    (alone : s.hm.swTick ≠ (s.now + dt) / 240 + 1) (hθ : theta = ns.toInt * 65536 + (fr : Int)) (far : s.fld Fld.HM_STEP_NS_STEP_NS * 65536 < theta.natAbs) :
    ∃ t, exec (.swOffsetSample dt ns fr) s = .next t ∧ (t.time.raw : Int) = (((s.begun dt).time.raw : Int) - theta * 2 ^ 24) % (hmMod : Int) ∧
      t.time.addend = s.time.addend ∧ t.servo = svAcquire ∧ t.fld Fld.HM_INT_STATUS_STEP = 1 ∧ t.ctr (Ctr.hm 0) = (s.ctr (Ctr.hm 0) + 1) % 2 ^ 64 ∧
      t.hm.integ = s.hm.integ := by
  have act := State.swCommand_sample (s := s.begun dt) ns hf (by simpa using on) (by simpa using src) (by simpa using running)
  rw [← hθ] at act
  generalize hw : (s.begun dt).swWritten ns fr = w at act
  have hm : w.hm = s.hm := by rw [← hw, State.swWritten_hm, State.begun_hm]
  have fld (f : Fld) (h : f.addr ∉ [Reg.HM_SW_OFFSET0, Reg.HM_SW_OFFSET1]) (g : f.addr ∉ [Reg.HM_LAST_OFFSET0, Reg.HM_LAST_OFFSET1]) :
      (w.sampled theta).fld f = s.fld f := by rw [w.fld_sampled theta g, ← hw, State.fld_swWritten _ _ _ h, State.fld_begun]
  have beyond : (w.sampled theta).stepsFor theta := by
    rw [State.stepsFor, State.bit, fld _ (by decide) (by decide), fld _ (by decide) (by decide)]
    exact ⟨decide_eq_true en, some_, far⟩
  have lone : w.hm.swTick ≠ w.tick + 1 := by rwa [hm, State.tick, ← hw, State.now_swWritten, State.now_begun]
  have form := State.servoSample_steps beyond lone
  generalize hz : (w.sampled theta).svNoted theta = z at form
  have left : (s.begun dt).leaves z { parts := [.time, .hm, .out, .pms, .jn], ctrs := fun _ => True, regs := fun _ => True } := by
    rw [← hz, ← hw]
    exact State.leaves_trans (State.leaves_swWritten _ _ _ trivial trivial) (State.leaves_trans (State.leaves_sampled _ _ (by simp) trivial trivial)
      (State.leaves_svNoted _ _ (by simp)))
  obtain ⟨t, next, -, raw, addend, after, -⟩ := exec_aon_step (c := .swOffsetSample dt ns fr) rfl rfl ha (act.trans form)
    (by rw [State.stepBy_timeReq, left.2, State.begun_timeReq]) (State.frame_trans left.1 (State.frame_stepBy _ _ (by simp) (by simp) trivial trivial trivial))
    (by simp) (by simp) (by simp) trivial
  obtain ⟨ctr, step, servo⟩ := z.stepBy_shows (-theta * 2 ^ 24)
  obtain ⟨integ, -, -⟩ := z.stepBy_servo (-theta * 2 ^ 24)
  have noted : (w.sampled theta).leaves z { parts := [.hm] } := by
    rw [← hz]
    exact State.leaves_svNoted _ _ (by simp)
  have was : z.servo = s.servo := (noted.fld (f := Fld.HM_SERVO_STATUS_STATE) id).trans (fld _ (by decide) (by decide))
  have counted : z.ctr (Ctr.hm 0) = s.ctr (Ctr.hm 0) := by
    rw [noted.ctrOf (by decide) id, (w.sampled_left theta).ctrOf (by decide) id, ← hw, (State.swWritten_left _ _ _).ctrOf (by decide) id, State.ctr_begun]
  have same : t.hm = (z.stepBy (-theta * 2 ^ 24)).hm := after.part (k := .hm) (by simp)
  have pos : (hmMod : Int) ≠ 0 := by exact_mod_cast hmMod_pos.ne'
  refine ⟨t, next, ?_, addend, ?_, ?_, ?_, ?_⟩
  · rw [raw, Int.toNat_of_nonneg (Int.emod_nonneg _ pos), Int.neg_mul, ← Int.sub_eq_add_neg]
  · rw [State.servo, after.fld (by decide), ← State.servo, servo, was, if_neg running]
  · rw [after.fld (by decide), step]
  · rw [after.ctrOf (by decide) id, ctr, counted]
  · rw [same, integ, ← hz, State.svNoted_hm, State.sampled_hm, hm]

/-! #### CRF -/

/-- The first values collected for a CRF sample are used up. -/
def State.crfTaken (s : State) (n : Nat) : State := { s.drawn with hm := { s.hm with crfVals := s.hm.crfVals.drop n } }

theorem State.leaves_crfTaken (s : State) (n : Nat) {x : Touch} (h : .hm ∈ x.parts) (f : .free ∈ x.parts) : s.leaves (s.crfTaken n) x :=
  State.leaves_trans (State.leaves_drawn s x f) (State.leaves_hm _ _ x h)
theorem State.crfTaken_hm (s : State) (n : Nat) : (s.crfTaken n).hm = { s.hm with crfVals := s.hm.crfVals.drop n } := rfl

/-- As many values as AVG asks for, whose mean is a multiple of 2^-16 ns. -/
theorem State.crfMean_whole {s : State} {n : Nat} {theta : Int} (on : s.fld Fld.HM_SERVO_CTRL_EN = 1) (src : s.servoSrc = 1) (run : s.servo ≠ svFree)
    (hn : n = 2 ^ min (s.fld Fld.HM_SERVO_CTRL_AVG) 8) (enough : n ≤ s.hm.crfVals.length)
    (sum : (s.hm.crfVals.take n).foldl (· + ·) 0 = 2 * (n : Int) * theta) : s.crfMean = (s.crfTaken n).servoSample theta := by
  have pos : ((2 * n : Nat) : Int) ≠ 0 := by
    have : 0 < n := by rw [hn]; positivity
    omega
  have whole : (s.hm.crfVals.take n).foldl (· + ·) 0 = ((2 * n : Nat) : Int) * theta := by rw [sum]; push_cast; rfl
  rw [State.crfMean, ← hn, if_pos ⟨decide_eq_true on, src, run, enough⟩]
  dsimp only
  rw [whole, Int.mul_fmod_right, if_pos rfl, Int.mul_fdiv_cancel_left _ pos, Int.add_zero, State.crfTaken]

theorem exec_crfSample_few (hm : s.mainUp = true) (few : s.hm.crfVals.length < 2 ^ min (s.fld Fld.HM_SERVO_CTRL_AVG) 8) :
    ∃ t, exec (.crfSample dt) s = .next t ∧ (s.begun dt).frame t {} := by
  have act : (s.begun dt).crfMean = s.begun dt := by
    refine if_neg ?_
    rintro ⟨-, -, -, enough⟩
    rw [State.fld_begun, State.begun_hm] at enough
    omega
  exact ⟨_, exec_main_touches (c := .crfSample dt) rfl rfl hm act (State.leaves_refl _ _)⟩

theorem exec_crfSample_mean {n : Nat} {theta : Int} (up : s.mainUp = true) (on : s.fld Fld.HM_SERVO_CTRL_EN = 1) (src : s.servoSrc = 1)
    (running : s.servo ≠ svFree) (still : s.fld Fld.HM_SERVO_CTRL_STEP_EN = 0) (hn : n = 2 ^ min (s.fld Fld.HM_SERVO_CTRL_AVG) 8)
    (enough : n ≤ s.hm.crfVals.length) (sum : (s.hm.crfVals.take n).foldl (· + ·) 0 = 2 * (n : Int) * theta) :
    ∃ t, exec (.crfSample dt) s = .next t ∧ t.hm.crfVals = s.hm.crfVals.drop n ∧ t.reg Reg.HM_LAST_OFFSET0 = w32 (unsign 32 (theta.fdiv 65536)) ∧
      t.reg Reg.HM_LAST_OFFSET1 = w32 (unsign 16 theta) ∧ t.hm.sampleAt = s.now + dt ∧ t.hm.lastAt ≠ none ∧ (t.servo = svAcquire ∨ t.servo = svLocked) := by
  have act := State.crfMean_whole (s := s.begun dt) (n := n) (theta := theta) (by simpa using on) (by simpa using src) (by simpa using running)
    (by simpa using hn) (by simpa using enough) (by simpa using sum)
  have left := (s.begun dt).leaves_crfTaken n (x := { parts := [.hm, .free] }) (by simp) (by simp)
  have servo : ((s.begun dt).crfTaken n).servo = s.servo := (left.fld (f := Fld.HM_SERVO_STATUS_STATE) id).trans (State.servo_begun s dt)
  have calm : ¬ (((s.begun dt).crfTaken n).sampled theta).stepsFor theta :=
    State.not_stepsFor theta (by rw [State.fld_sampled _ theta (by decide), left.fld id, State.fld_begun, still])
  obtain ⟨shown, lastAt, after⟩ := State.servoSample_paced calm (by rwa [servo])
  have quiet : (((s.begun dt).crfTaken n).servoSample theta).timeReq.step = none :=
    State.servoSample_calm calm (left.2.trans (State.begun_timeReq s dt))
  have run : exec (.crfSample dt) s = .next ((((s.begun dt).crfTaken n).servoSample theta).settle s (s.begun dt).time) := by
    rw [← act]
    exact State.cmdMain_next s dt State.crfMean up (by rw [act, quiet])
  refine ⟨_, run, ?_, by rw [State.reg_settle, shown.low], by rw [State.reg_settle, shown.high], ?_, ?_, by rwa [State.servo_settle]⟩
  · rw [State.settle_hm, shown.vals, State.crfTaken_hm, State.begun_hm]
  · rw [State.settle_hm, shown.at_, left.now (by simp), State.now_begun]
  · rw [State.settle_hm, lastAt]
    exact Option.some_ne_none _

/-! #### PPS_IN -/

/-- A time in nanoseconds, as its distance from the nearest second. -/
def nearSecond (t : Int) : Int := if t % 1000000000 ≤ 500000000 then t % 1000000000 else t % 1000000000 - 1000000000

theorem nearSecond_bounds (t : Int) : -500000000 < nearSecond t ∧ nearSecond t ≤ 500000000 ∧ (t - nearSecond t) % 1000000000 = 0 := by
  rw [nearSecond]
  split <;> omega

/-- An edge that the servo listens to. -/
theorem State.ppsIn_sample {s : State} (en : s.fld Fld.HM_PPS_CTRL_IN_EN = 1) (on : s.fld Fld.HM_SERVO_CTRL_EN = 1) (src : s.servoSrc = 2) (run : s.servo ≠ svFree) :
    s.ppsIn = s.drawn.servoSample (nearSecond (s.pinNs - signed 32 (s.reg Reg.HM_PPS_IN_OFS).toNat) * 65536) :=
  if_pos ⟨decide_eq_true en, decide_eq_true on, src, run⟩

theorem exec_ppsInEdge_sample (ha : s.aonUp = true) (en : s.fld Fld.HM_PPS_CTRL_IN_EN = 1) (on : s.fld Fld.HM_SERVO_CTRL_EN = 1) (src : s.servoSrc = 2)
    (running : s.servo ≠ svFree) :
    ∃ t, ∃ c d : Int, exec (.ppsInEdge dt) s = .next t ∧ (c * 65536 - (s.begun dt).hmRel 0).natAbs ≤ 2 * 65536 ∧ -500000000 < d ∧ d ≤ 500000000 ∧
      (c - signed 32 (s.reg Reg.HM_PPS_IN_OFS).toNat - d) % 1000000000 = 0 ∧
      t.reg Reg.HM_LAST_OFFSET0 = w32 (unsign 32 d) ∧ t.reg Reg.HM_LAST_OFFSET1 = 0 ∧ t.hm.sampleAt = s.now + dt := by
  have act := State.ppsIn_sample (s := s.begun dt) (by simpa using en) (by simpa using on) (by simpa using src) (by simpa using running)
  rw [State.reg_begun] at act
  have near := (s.begun dt).pinNs_near
  generalize (s.begun dt).pinNs = c at act near
  obtain ⟨above, below, second⟩ := nearSecond_bounds (c - signed 32 (s.reg Reg.HM_PPS_IN_OFS).toNat)
  generalize nearSecond (c - signed 32 (s.reg Reg.HM_PPS_IN_OFS).toNat) = d at act above below second
  have left := State.leaves_drawn (s.begun dt) { parts := [.free] } (by simp)
  have servo : (s.begun dt).drawn.servo = s.servo := (left.fld (f := Fld.HM_SERVO_STATUS_STATE) id).trans (State.servo_begun s dt)
  have shown := State.servoSample_shown (s := (s.begun dt).drawn) (theta := d * 65536) (by rwa [servo])
  have after := ((s.begun dt).drawn.servoSample (d * 65536)).afterStep_left
  have same : ((s.begun dt).drawn.servoSample (d * 65536)).afterStep.hm = _ := after.part (k := .hm) (by simp)
  refine ⟨_, c, d, exec_aon (c := .ppsInEdge dt) rfl rfl ha act, near, above, below, second, ?_, ?_, ?_⟩
  · rw [State.reg_settle, after.reg (by decide), shown.low, Int.mul_fdiv_cancel _ (by decide)]
  · rw [State.reg_settle, after.reg (by decide), shown.high]
    have whole := lastOffset_low d (fr := 0) (by decide)
    rwa [Nat.cast_zero, Int.add_zero] at whole
  · rw [State.settle_hm, same, shown.at_, left.now (by simp), State.now_begun]

theorem exec_ppsInEdge_still (off : s.fld Fld.HM_PPS_CTRL_IN_EN = 0 ∨ s.servoSrc ≠ 2) :
    ∃ t, exec (.ppsInEdge dt) s = .next t ∧ (s.begun dt).frame t {} := by
  refine exec_aon_still (c := .ppsInEdge dt) rfl rfl (if_neg ?_)
  rintro ⟨en, -, src, -⟩
  rw [State.servoSrc_begun] at src
  rcases off with off | off
  · simp [State.bit, off] at en
  · exact off src

end

/-- Settles O27, source by source: software's samples by what they come to, CRF's means and the edges of PPS_IN. -/
theorem servoSamples : Obligations.ServoSamples := by
  unfold Obligations.ServoSamples
  refine ⟨fun s dt fr t0 T ns θ e ha hf on src run still last hT pos hθ he => ?_,
    fun s dt fr ns ha hf on src still start => exec_swOffset_starts ha hf on src still start,
    fun s dt fr ns θ ha hf on src running en some_ alone hθ far => exec_swOffset_steps ha hf on src running en some_ alone hθ far,
    fun s dt up few => exec_crfSample_few up few, fun s dt n θ up on src running still hn enough sum => exec_crfSample_mean up on src running still hn enough sum,
    fun s dt ha en on src running => exec_ppsInEdge_sample ha en on src running, fun s dt _ off => exec_ppsInEdge_still off⟩
  obtain ⟨t, next, integ, addend, raw, high, low, lastAt, servo, kept⟩ := exec_swOffset_moves ha hf on src run still last hT pos hθ he
  refine ⟨t, next, integ, by rw [integ, addend]; rfl, raw, high, low, lastAt, fun locked => ?_, fun acquire => ?_, kept⟩
  · rw [servo, State.servoAfter, if_pos locked]
  · rw [servo, State.servoAfter, if_neg (by rw [acquire]; decide), acquire]

end Sys2Proof.Machine
end
